-- ==== Sys2Proof/Word.lean ====
section
/-! DEFINITION. The plain word types of the KM1 model: bytes, register words, 64-byte lines, beats and
16-byte control messages (R8, R14, R375, R315). -/

namespace Sys2Proof

/-- One byte (R14: multi-byte values are little-endian). -/
abbrev Byte := BitVec 8

/-- A control register word: 64 bits (R8). -/
abbrev Word := BitVec 64

/-- A 64-byte line: the unit of tile memory, mailbox and crossing traffic (R98, R107, R218). Bits 7:0 are byte 0. -/
abbrev Line := BitVec 512

/-- A 16-byte CTL message (R315); bits 7:0 hold its kind. -/
abbrev Msg := BitVec 128

/-- A beat: bits 15:0 fractions of a nanosecond, bits 63:16 whole nanoseconds (R375). -/
abbrev Beat := BitVec 64

end Sys2Proof
end

