-- ==== Sys2Proof/Syntax.lean ====
section
/-! DEFINITION. The commands of the KM1 model: one constructor of `Instr` for each row of spec/opcode_table.json,
with the row's operands, and the small types those operands need. What the spec leaves to the world outside the
package (which error a memory read meets, which units fail self-test, whether a signature verifies) is an operand of
the command concerned: see notes/assumptions/3.md and notes/assumptions/4.md. -/

namespace Sys2Proof

/-- What a memory read finds in the words it touches (R102, R106, R248, R254): nothing, an error that link ECC corrected on the way from an
LPDDR5X device, an error its code corrects, or an error it cannot correct. -/
inductive Ecc where
  | clean
  | link
  | corrected
  | uncorrectable
deriving DecidableEq, Repr

/-- What the lines that a command reads meet, one after the other; lines beyond the list's end are clean. -/
abbrev Eccs := List Ecc

/-- An entry that passes a field-side crossing of island `n` (R226), and whether it fails its parity (R227). -/
structure Crossed where
  n : Nat
  parityBad : Bool
deriving DecidableEq, Repr

/-- A request tracker of a core, and what the lines of its request's source meet (R102, R171). -/
structure TrackerRead where
  tracker : Nat
  ecc : Eccs
deriving DecidableEq, Repr

/-- The bytes of a chunk of an object (R504), and what the lines it covers in part meet (R249). -/
structure ObjChunk where
  bytes : List Byte
  ecc : Eccs
deriving DecidableEq, Repr

/-- Who executes an Eumbe instruction: logical core with unit number `u` (R93) of the island with package-wide number
`n` (R7), or control core `k` of the Bocal (R474). -/
inductive Site where
  | core (n u : Nat)
  | ctl (k : Nat)
deriving DecidableEq, Repr

/-- The header of one slot of an issuing bundle. `pred` is bits 2:0 of the slot (R123). `adv` is how many issue cycles
of the island pass before this slot issues: 0 keeps it in the bundle (and the cycle) the core is issuing. `eog` is the
bundle's end-of-group mark and `hdr` its reserved header bits 5:4 (R122). `res` says that the slot's 38 or 46 bits hold what the
command's operands cannot: an opcode that the slot does not list, or a nonzero bit outside the fields that its form uses (R123, R127,
R134, R146, R159; Machine/Encoding.lean takes a bundle's words apart). `chk` marks the lanes on which a hardware check fails while the
instruction runs (R71; all zero in sound hardware), `ecc` what the instruction's memory read meets (R102), and `fetch` what the
fetch of its bundle meets, if this slot is the bundle's first (R106). -/
structure Slot where
  site  : Site
  pred  : BitVec 3
  adv   : Nat
  eog   : Bool
  chk   : BitVec 16
  ecc   : Ecc
  res   : Bool
  hdr   : BitVec 2
  fetch : Ecc
deriving DecidableEq, Repr

/-- A flit as it stands on a link: its 16-byte header (R312, R313) and its 256 payload bytes, as 64-byte quarters (R310). -/
structure Flit where
  hdr : BitVec 128
  q0  : Line
  q1  : Line
  q2  : Line
  q3  : Line
deriving DecidableEq, Repr

/-- An unscheduled packet: the flit-header fields of R349 (bits 127:72 of the header, kept as one header word), the
32-byte packet header of R351, its data bytes and the CRC-32C it carries (R350). -/
structure Packet where
  fhdr : BitVec 128
  hdr  : BitVec 256
  data : List Byte
  crc  : BitVec 32
deriving DecidableEq, Repr

/-- What steps 1 to 4 of a cold training measure on the nine wavelengths of a fibre (R307): bit λ of `locked` says that wavelength λ has
light, a locked receiver and its markers; `ratio` holds each wavelength's pre-FEC symbol error ratio in units of 10⁻¹², and `skew` its
arrival after a common instant in units of 0.1 ns. -/
structure Optics where
  locked : BitVec 9
  ratio  : List Nat
  skew   : List Nat
deriving DecidableEq, Repr

/-- A port that begins cold training again, and what its steps 1 to 4 measure (R307). -/
structure Retry where
  port : Nat
  optics : Optics
deriving DecidableEq, Repr

/-- What one end finds in a whole cold training (R307): its optics; what the peer's training records say (R308): its serial, package index
if it has one, port, certificate digest, random link value, and the lane map and width it chose for the direction this end sends; and what
step 7 measures. -/
structure TrainEnv where
  optics   : Optics
  serial   : BitVec 64
  package  : Nat
  hasIndex : Bool
  port     : Nat
  cert     : BitVec 256
  peerRand : BitVec 128
  peerMap  : BitVec 32
  peerHalf : Bool
  delay16  : Nat
  rtt      : Nat
  deskew   : Nat
deriving DecidableEq, Repr

/-- What a wavelength's FEC decoder reports with a flit (R304): symbols corrected and codewords it could not correct. -/
structure FecCount where
  wl        : Nat
  corrected : Nat
  failed    : Nat
deriving DecidableEq, Repr

/-- What the boot ROM finds in one firmware slot (R444, R445): whether the bundle's signature and signer hold, its
security version, whether the body's digest checks, the signer's key index and the SHA3-512 of its header. -/
structure SlotEnv where
  sigOk  : Bool
  bodyOk : Bool
  secVer : Nat
  signer : Nat
  digest : BitVec 512
deriving DecidableEq, Repr

/-- What the power-up sequence meets outside the model (R477): the two firmware slots, the boot control record (R478),
the units self-test and calibration fail (unit ids of R400), the SRAM macros that their redundancy cannot repair, each with the level of
the unit that owns it (R20), the crossing queues that fail calibration, each with the logical island that
reads its failing direction (R228), the LPDDR5X channels that fail training, the strap pins,
the clocks that toggle, and the value the Ligature's random bit generator gives for the session challenge (R445). -/
structure BootEnv where
  slotA     : SlotEnv
  slotB     : SlotEnv
  bcrOk     : Bool
  failed    : List (BitVec 32)
  macros    : List (Nat × BitVec 32)
  crossFail : List (Nat × Nat)
  noChannel : List Nat
  straps    : BitVec 6
  clock0    : Bool
  clock1    : Bool
  challenge : BitVec 256
  romDigest : BitVec 512
deriving DecidableEq, Repr

/-- The header of a BRQ request as it arrives (R500, R501): its class, session id and counter, its request id, whether
its GCM tag verifies (R455), and the beat at which its frame arrived (R383). -/
structure Brq where
  cls     : Nat
  session : BitVec 64
  counter : Nat
  rid     : BitVec 32
  tagOk   : Bool
deriving DecidableEq, Repr

/-- What the Ligature's checks of a signed object find (R441, R443): the first check that fails decides the status
(R506), and a verified object is accepted by the rules of its kind. -/
inductive Verdict where
  | good
  | badSignature
  | rollback
  | binding
  | otherCheck
deriving DecidableEq, Repr

/-- Why a bypass closes (R298). -/
inductive CloseCause where
  | withdrawal
  | powerLoss
  | resetN
  | thermTrip
deriving DecidableEq, Repr

/-- The three instructions the debug lock leaves on the test access port, those it hides, and BYPASS (R468). -/
inductive TapInstr where
  | bypass
  | idcode
  | samplePreload
  | extest
  | controlCores
  | fieldControllers
  | other
deriving DecidableEq, Repr

/-- The commands of the block, one constructor for each row of the table of operations. -/
inductive Instr where
  -- control space (R8, R10)
  | registerWrite (addr bytes : Nat) (value hw : Word)
  | rcClearingRead (addr bytes : Nat) (same : List (Nat × Nat))
  -- S slot (R128 to R131)
  | add (sl : Slot) (rd ra rb : BitVec 5)
  | sub (sl : Slot) (rd ra rb : BitVec 5)
  | and (sl : Slot) (rd ra rb : BitVec 5)
  | or (sl : Slot) (rd ra rb : BitVec 5)
  | xor (sl : Slot) (rd ra rb : BitVec 5)
  | shl (sl : Slot) (rd ra rb : BitVec 5)
  | shr (sl : Slot) (rd ra rb : BitVec 5)
  | sra (sl : Slot) (rd ra rb : BitVec 5)
  | min (sl : Slot) (rd ra rb : BitVec 5)
  | max (sl : Slot) (rd ra rb : BitVec 5)
  | minu (sl : Slot) (rd ra rb : BitVec 5)
  | maxu (sl : Slot) (rd ra rb : BitVec 5)
  | mul (sl : Slot) (rd ra rb : BitVec 5)
  | mulh (sl : Slot) (rd ra rb : BitVec 5)
  | mulhu (sl : Slot) (rd ra rb : BitVec 5)
  | addi (sl : Slot) (rd ra : BitVec 5) (imm : BitVec 16)
  | andi (sl : Slot) (rd ra : BitVec 5) (imm : BitVec 16)
  | ori (sl : Slot) (rd ra : BitVec 5) (imm : BitVec 16)
  | xori (sl : Slot) (rd ra : BitVec 5) (imm : BitVec 16)
  | shli (sl : Slot) (rd ra : BitVec 5) (imm : BitVec 16)
  | shri (sl : Slot) (rd ra : BitVec 5) (imm : BitVec 16)
  | srai (sl : Slot) (rd ra : BitVec 5) (imm : BitVec 16)
  | movi (sl : Slot) (rd ra : BitVec 5) (imm : BitVec 16)
  | movhi (sl : Slot) (rd ra : BitVec 5) (imm : BitVec 16)
  | movsh (sl : Slot) (rd ra : BitVec 5) (imm : BitVec 16)
  | cmp (sl : Slot) (pd cond : BitVec 3) (ra rb : BitVec 5)
  | cmpi (sl : Slot) (pd cond : BitVec 3) (ra : BitVec 5) (imm : BitVec 16)
  | pand (sl : Slot) (pd pa : BitVec 3) (na : Bool) (pb : BitVec 3) (nb : Bool)
  | por (sl : Slot) (pd pa : BitVec 3) (na : Bool) (pb : BitVec 3) (nb : Bool)
  | pxor (sl : Slot) (pd pa : BitVec 3) (na : Bool) (pb : BitVec 3) (nb : Bool)
  | br (sl : Slot) (target : BitVec 11)
  | loop (sl : Slot) (rd : BitVec 5) (target : BitVec 11)
  | jal (sl : Slot) (rd : BitVec 5) (target : BitVec 11)
  | jr (sl : Slot) (ra : BitVec 5)
  | smovFromSpecial (sl : Slot) (rd : BitVec 5) (code : BitVec 5)
  | smovToSpecial (sl : Slot) (code : BitVec 5) (ra : BitVec 5)
  | wswap (sl : Slot)
  -- island holds (R86, R90)
  | islandHoldRelease (n cycles : Nat)
  | stallTimeout (n cycles : Nat)
  -- M slot: matrix and accumulator (R137 to R144)
  | mma (sl : Slot) (fmt : BitVec 4) (q va : BitVec 5) (seg : BitVec 4)
  | qclr (sl : Slot) (qa qb : BitVec 5) (imm : Bool) (anc : BitVec 11)
  | qread (sl : Slot) (vd q : BitVec 5) (tgt : BitVec 4) (pos : BitVec 3) (rm : BitVec 2) (sat : Bool) (sb st : BitVec 5) (off : BitVec 7)
  | qst (sl : Slot) (sa q : BitVec 5) (tgt : BitVec 4) (pos : BitVec 3) (rm : BitVec 2) (sat : Bool) (sb st : BitVec 5) (off : BitVec 7)
  | qstat (sl : Slot) (st q : BitVec 5) (pos : Bool)
  | qanc (sl : Slot) (sd q : BitVec 5) (pos : Bool)
  | qres (sl : Slot) (vd q : BitVec 5) (pos : Bool)
  -- M slot: vector (R145 to R154)
  | vadd (sl : Slot) (ty : BitVec 2) (vd va vb : BitVec 5) (rm : BitVec 2) (sb : BitVec 5)
  | vsub (sl : Slot) (ty : BitVec 2) (vd va vb : BitVec 5) (rm : BitVec 2) (sb : BitVec 5)
  | vmul (sl : Slot) (ty : BitVec 2) (vd va vb : BitVec 5) (rm : BitVec 2) (sb : BitVec 5)
  | vfma (sl : Slot) (ty : BitVec 2) (vd va vb vc : BitVec 5) (rm : BitVec 2) (sb : BitVec 5)
  | vmin (sl : Slot) (ty : BitVec 2) (vd va vb : BitVec 5)
  | vmax (sl : Slot) (ty : BitVec 2) (vd va vb : BitVec 5)
  | vcmp (sl : Slot) (ty : BitVec 2) (cond : BitVec 3) (vd va vb : BitVec 5)
  | vsel (sl : Slot) (ty : BitVec 2) (vd va vb vc : BitVec 5)
  | vand (sl : Slot) (vd va vb : BitVec 5)
  | vor (sl : Slot) (vd va vb : BitVec 5)
  | vxor (sl : Slot) (vd va vb : BitVec 5)
  | vredsum (sl : Slot) (ty : BitVec 2) (vd va : BitVec 5)
  | vredmax (sl : Slot) (ty : BitVec 2) (vd va : BitVec 5)
  | vredmin (sl : Slot) (ty : BitVec 2) (vd va : BitVec 5)
  | vtestAny (sl : Slot) (ty : BitVec 2) (pd : BitVec 3) (va : BitVec 5)
  | vtestAll (sl : Slot) (ty : BitVec 2) (pd : BitVec 3) (va : BitVec 5)
  | vneg (sl : Slot) (ty : BitVec 2) (vd va : BitVec 5)
  | vabs (sl : Slot) (ty : BitVec 2) (vd va : BitVec 5)
  | vcopysign (sl : Slot) (ty : BitVec 2) (vd va vb : BitVec 5)
  | vcvtNarrow (sl : Slot) (fmt : BitVec 4) (vd va vb : BitVec 5) (pos : BitVec 3) (rm : BitVec 2) (sat : Bool) (sb : BitVec 5)
  | vcvtWiden (sl : Slot) (fmt : BitVec 4) (vd va : BitVec 5) (pos : BitVec 3)
  | vpermSeg (sl : Slot) (vd va : BitVec 5) (sel : BitVec 24)
  | vpermW (sl : Slot) (vd va vb : BitVec 5)
  | vpermB (sl : Slot) (vd va vb : BitVec 5)
  | vbcast (sl : Slot) (vd sa : BitVec 5)
  | vins (sl : Slot) (vd lane sa : BitVec 5)
  | vext (sl : Slot) (sd va lane : BitVec 5)
  | vexp (sl : Slot) (ty : BitVec 2) (vd va : BitVec 5) (rm : BitVec 2) (sb : BitVec 5)
  | vexp2 (sl : Slot) (ty : BitVec 2) (vd va : BitVec 5) (rm : BitVec 2) (sb : BitVec 5)
  | vlog (sl : Slot) (ty : BitVec 2) (vd va : BitVec 5) (rm : BitVec 2) (sb : BitVec 5)
  | vlog2 (sl : Slot) (ty : BitVec 2) (vd va : BitVec 5) (rm : BitVec 2) (sb : BitVec 5)
  | vrcp (sl : Slot) (ty : BitVec 2) (vd va : BitVec 5) (rm : BitVec 2) (sb : BitVec 5)
  | vsqrt (sl : Slot) (ty : BitVec 2) (vd va : BitVec 5) (rm : BitVec 2) (sb : BitVec 5)
  | vrsqrt (sl : Slot) (ty : BitVec 2) (vd va : BitVec 5) (rm : BitVec 2) (sb : BitVec 5)
  | vtanh (sl : Slot) (ty : BitVec 2) (vd va : BitVec 5) (rm : BitVec 2) (sb : BitVec 5)
  | verf (sl : Slot) (ty : BitVec 2) (vd va : BitVec 5) (rm : BitVec 2) (sb : BitVec 5)
  | vsig (sl : Slot) (ty : BitVec 2) (vd va : BitVec 5) (rm : BitVec 2) (sb : BitVec 5)
  | vrand (sl : Slot) (vd sb : BitVec 5) (domain : Bool)
  | vdrop (sl : Slot) (ty : BitVec 2) (vd va sb sc : BitVec 5)
  -- X slot (R159 to R182, R155)
  | ld (sl : Slot) (rd sa : BitVec 5) (imm : BitVec 16) (size : BitVec 2) (sx : Bool)
  | st (sl : Slot) (rs sa : BitVec 5) (imm : BitVec 16) (size : BitVec 2) (sx : Bool)
  | vld (sl : Slot) (vd sa : BitVec 5) (mode : BitVec 3) (sc : BitVec 5) (imm : BitVec 11)
  | vst (sl : Slot) (vs sa : BitVec 5) (mode : BitVec 3) (sc : BitVec 5) (imm : BitVec 11)
  | vsts (sl : Slot) (va sa : BitVec 5) (h : Bool) (imm : BitVec 16)
  | sendRegister (sl : Slot) (rid : BitVec 8) (va : BitVec 5) (imm : BitVec 11)
  | sendMemory (sl : Slot) (rid : BitVec 8) (sa : BitVec 5) (imm : BitVec 11)
  | recvVector (sl : Slot) (vd : BitVec 5) (ind : Bool) (entry : BitVec 6) (sa : BitVec 5)
  | recvScalar (sl : Slot) (rd : BitVec 5) (ind : Bool) (entry : BitVec 6) (sa : BitVec 5)
  | streamPut (sl : Slot) (ch : BitVec 3) (va : BitVec 5)
  | rmemRd (sl : Slot) (sa sb sc : BitVec 5) (n : BitVec 8)
  | rmemWr (sl : Slot) (sa sb sc : BitVec 5) (n : BitVec 8)
  | rmemPut (sl : Slot) (sa sb sc : BitVec 5) (n : BitVec 8)
  | rmemXadd (sl : Slot) (sa sb sc : BitVec 5) (n : BitVec 8)
  | rmemFadd (sl : Slot) (sa sb sc : BitVec 5) (n : BitVec 8)
  | rmemCas (sl : Slot) (sa sb sc : BitVec 5) (n : BitVec 8)
  | rmemSinc (sl : Slot) (sa sb sc : BitVec 5) (n : BitVec 8)
  | syncAdd (sl : Slot) (n : BitVec 8) (f : Bool) (sa : BitVec 5) (imm : BitVec 16)
  | syncSet (sl : Slot) (n : BitVec 8) (f : Bool) (sa : BitVec 5)
  | syncWait (sl : Slot) (n : BitVec 8) (f : Bool) (sa : BitVec 5)
  | syncRd (sl : Slot) (rd : BitVec 5) (n : BitVec 8) (f : Bool)
  | syncCounterAddition (entry : Crossed)
  | ccWait (sl : Slot) (c : BitVec 12) (sa : BitVec 5)
  | waitCyc (sl : Slot) (f : Bool) (sa : BitVec 5) (imm : BitVec 24)
  | breathEnd (sl : Slot)
  | stepSet (sl : Slot) (sa : BitVec 5)
  | provBegin (sl : Slot) (tag : BitVec 2)
  | provEnd (sl : Slot)
  | suspSet (sl : Slot) (reason : BitVec 16)
  | wld (sl : Slot) (fmt : BitVec 4) (part : BitVec 2) (sa : BitVec 5) (imm : BitVec 16)
  -- cluster switches, crossings, landing input, scrubber (R186 to R191, R221, R222, R108, R243)
  | routeWord (n cl : Nat) (word : BitVec 128) (adv : Nat)
  | idleWord (n cl : Nat) (word : BitVec 128) (adv : Nat)
  | endWord (n cl : Nat) (word : BitVec 128) (adv : Nat)
  | crossingEntryVisible (n q : Nat) (parityBad : Bool)
  | crossingFreeIndication (n q : Nat)
  | landingInputRelease (entry : Crossed)
  | heldLandingWrite (n : Nat)
  | tileScrub (n u line : Nat) (ecc : Ecc)
  -- breaths (R192 to R235)
  | triggerFire
  | islandBreathComplete (n : Nat)
  | loadRecordRun (index : Nat) (ecc : Eccs)
  | packageBoundary
  | islandResetRequest (n : Nat) (value : Word)
  | missedStart
  | overrunCheck
  | slipRequest (msg : Msg)
  | slipOrderSend
  | slipOrder (msg : Msg)
  | droopStretch (n s : Nat)
  | setpointRequestWrite (value : Word)
  | voltageRampEnd
  | setpointStop (duration : Nat)
  -- LPDDR5X tier and stream engines (R248 to R267)
  | lpddrRewrite (field ch : Nat)
  | lpddrPatrolScrub (addr : Nat) (ecc : Ecc)
  | ondieCountRead (field ch count : Nat)
  | deviceTemperatureReport (device : Nat) (hot above : Bool) (temp : Nat)
  | lpddrOverLimitTrip (device : Nat)
  | channelRetire (field ch : Nat)
  | stmMove (engine : Nat) (ecc : Eccs)
  | stmTree (engine : Nat) (ecc : Eccs)
  | stmSync (engine : Nat)
  | stmEnd (engine : Nat)
  | stmDescriptorComplete (engine : Nat)
  | distributorTile (entry : Crossed)
  -- scheduled fabric (R277 to R298)
  | launchQueueEntry (entry : Crossed)
  | slotLaunch (port slot : Nat)
  | flitPresent (port slot : Nat)
  | flitLanding (port : Nat)
  | relayLaunch (port slot : Nat)
  | patchOrder (msg : Msg)
  | dronePathClose (cause : CloseCause)
  -- links (R307 to R342)
  | coldTraining (port : Nat) (env : TrainEnv)
  | coldTrainingRetry (retry : Retry)
  | trainingRecord (port : Nat) (raw : BitVec 2304)
  | flitReceive (port : Nat) (raw : BitVec 2304) (fec : List FecCount)
  | replayTimer (port : Nat)
  | spareRequest (port : Nat) (msg : Msg)
  | spareGrant (port : Nat) (msg : Msg)
  | spareLockComplete (port : Nat)
  | spareDone (port : Nat) (msg : Msg)
  | retrainRequest (port : Nat) (msg : Msg)
  | retrainGrant (port : Nat) (msg : Msg)
  | quietStart (port : Nat)
  | relockComplete (port delay16 rtt : Nat)
  | resync (port : Nat) (msg : Msg) (ack : BitVec 12)
  | retrainTimeout (port : Nat)
  | linkWithdraw (port : Nat) (msg : Msg)
  | downNotice (port : Nat) (msg : Msg)
  | noValidFlitTimeout (port : Nat)
  | linkRetrainWrite (port : Nat) (value : Word)
  | injectionControlWrite (port offset : Nat) (value : Word)
  -- unscheduled traffic (R354 to R371)
  | requestAdmit (n u : Nat) (source : TrackerRead)
  | packetRoute (port vc : Nat)
  | requestPacketArrival (pkt : Packet) (ecc : Eccs)
  | responseArrival (pkt : Packet)
  | attemptTimer (n u tracker : Nat)
  | requestDeadline (n u tracker : Nat)
  | dedupEntryFree (isPut : Bool) (index : Nat)
  | routeInstall (msg : Msg)
  | routeReady (msg : Msg)
  | routeFlip (msg : Msg)
  | epochFlip
  | epochRetire
  -- beat time (R376 to R393)
  | timIncrWrite (value : Word)
  | timPhaseWrite (value : Word)
  | timTrigWrite (value : Word)
  | refclkFail (clock : Nat)
  | timeSteerUpdate
  | holdoverTimeout
  | tlqArm (port entry : Nat) (value : Word)
  | timedLaunch (port entry slot : Nat)
  -- living with faults (R397 to R435)
  | valveSwap (unit : BitVec 32)
  | hoursMark
  | suppressedRecordFlush
  | ledgerCompact
  | stepReport (msg : Msg)
  | commitDecision
  | commit (msg : Msg)
  | discard (msg : Msg)
  | tagSweep (tag region : Nat)
  | sweepDone (msg : Msg)
  | replayOrder (msg : Msg)
  | digest (msg : Msg)
  | replayLimitExpiry
  | localisationTest (n cl record : Nat) (reproduced : Bool)
  | heartbeat (msg : Msg)
  | heartbeatSend
  | leadLossTimeout
  | heartbeatLossTimeout (package : Nat)
  | faultReport (msg : Msg)
  | abort (msg : Msg)
  | restart (msg : Msg)
  | packageLost (package : Nat)
  | promote (msg : Msg)
  | eventSuppressSummary
  | healthDigestUpdate
  -- fabric authentication and sessions (R455, R462, R463)
  | authTagSend (port : Nat)
  | authTag (port : Nat) (msg : Msg) (ok : Bool)
  | tagRequest (msg : Msg)
  | authTagTimeout (port : Nat)
  | sessionTimeout (session : BitVec 64)
  -- resets, control forwarding, admission (R471 to R496)
  | powerOnReset
  | pinReset
  | thermalReset
  | bocalFailover
  | fieldControllerError (field : Nat)
  | ctlForward (routing : BitVec 128) (msgs : List Msg)
  | ctlBroadcastForward (routing : BitVec 128) (msgs : List Msg)
  | ctlDropTimeout
  | admitNoticeMessage (msg : Msg)
  | admissionOpen
  | admitted
  | admissionTimeout
  | imageReady (msg : Msg)
  | breath0LoadDone
  | startOrder (msg : Msg)
  | withdrawNotice (msg : Msg)
  | withdrawClose
  -- the Bocal request protocol (R500 to R506)
  | objRead (req : Brq) (object index offset length : Nat)
  | objWrite (req : Brq) (object index offset : Nat) (chunk : ObjChunk)
  | objCommit (req : Brq) (object index total : Nat) (verdict : Verdict)
  | objDiscard (req : Brq) (object index : Nat)
  | makeReport (req : Brq) (nonce : BitVec 256)
  | sessionOpen (req : Brq) (owner : Bool) (record : Nat) (sid : BitVec 64) (challenge next : BitVec 256) (verdict : Verdict)
  | sessionClose (req : Brq)
  | timePoll (req : Brq) (arrival departure : Beat)
  | timeSteer (req : Brq) (writeIncr writePhase : Bool) (incr phase : Word)
  | eventAck (req : Brq) (seq : Nat)
  | regRead (req : Brq) (addr : Nat)
  | regWrite (req : Brq) (addr : Nat) (value : Word)
  | admitRequest (req : Brq) (beat : Beat)
  | admitNotice (req : Brq) (joiner : Nat) (beat : Beat)
  | withdraw (req : Brq)
  | start (req : Brq) (t0 : Beat)
  | stop (req : Brq)
  | decide (req : Brq) (step choice : Nat)
  | update (req : Brq) (slot : Nat)
  | confirm (req : Brq)
  | reset (req : Brq)
  | toneRun (req : Brq) (pack : Nat)
  | ckptRead (req : Brq) (addr length : Nat)
  -- the I3C mirror (R507, R508)
  | entdaa (address : BitVec 7)
  | rstdaa
  | setnewda (address : BitVec 7)
  | getpid
  | getbcr
  | getdcr
  | getstatus
  | enec (events : BitVec 8)
  | disec (events : BitVec 8)
  | i3cPrivateWrite (bytes : List Byte)
  | i3cPrivateRead (count : Nat)
  | mirrorRefresh
  -- supplies, power, temperature, optics (R517 to R539)
  | pwrGoodDeassert
  | inputOutOfRange
  | lowInput
  | powerControlUpdate (average : Nat)
  | thermalSample (field temp : Nat)
  | openFibreControl (port : Nat) (signals : BitVec 9)
  | bocPowerCfgWrite (value : Word)
  | resetRelease (env : BootEnv)
  | referenceClockTick
  | dronePathFullyOpen (pair : Nat)
  | dronePathFullyClosed (pair : Nat)
  | testAccessPortInstruction (instr : TapInstr)
deriving DecidableEq, Repr

end Sys2Proof
end

