-- ==== Sys2Proof/Decode.lean ====
section
/-! DEFINITION. The command table of this block gives no row any bits: its commands are events and requests, none of which the
spec encodes as a word of the table. -/

namespace Sys2Proof

/-- The command that a word spells by the table's bits: none, since no row has bits. -/
def decodeTableWord (_nbits _w : Nat) : Option Instr := none

end Sys2Proof
end

