-- ==== Sys2Proof/Config.lean ====
section
/-! DEFINITION. The free values of the model: constants without a body, so that every statement holds for each value they may
have. notes/assumptions says for each which words of the spec leave it open. -/

namespace Sys2Proof

/-- What a line of the LPDDR5X tier reads as when it was last written under another key (R247): a function of the key it
was written under, the key in force, the line and the bytes it held. -/
opaque Config.staleLine : Nat → Nat → Nat → Line → Line

/-- The ciphertext of a flit's 256 payload bytes under the link key of a port's sending direction, at extended sequence number
E (R461): a function of the port, the number of the job secret in force, the random values of the two ends (R439), E and the
payload; the model does not hold the job secret itself (R458). -/
opaque Config.linkCipher : Nat → Nat → BitVec 128 → BitVec 128 → Nat → BitVec 2048 → BitVec 2048

/-- The 96-bit tag over the flits of a port's sending direction up to extended sequence number E (R461): a function of the port,
the number of the job secret, the two random values and E. -/
opaque Config.linkTag : Nat → Nat → BitVec 128 → BitVec 128 → Nat → BitVec 96

/-- The value the Ligature's random bit generator gives for a port's link value (R308), by the count of free values taken. -/
opaque Config.linkRandom : Nat → BitVec 128

/-- The units on which the records of a long-tone pack give another result than expected (R423), for a pack's number and a
count of runs. -/
opaque Config.toneFaults : Nat → Nat → List (BitVec 32)

/-- What the module measures (R526, R539): the coolant's inlet and outlet temperature, flow and pressure drop as BOC_COOLANT holds
them, for a count of measurements. -/
opaque Config.coolant : Nat → BitVec 58

/-- The input voltage measured, in 10 mV (R539), for a count of measurements. -/
opaque Config.inputVoltage : Nat → BitVec 16

/-- The power limit that R526 does not state, for an inlet temperature above 45 °C or a flow below 16 L/min. -/
opaque Config.unsupportedLimit : Nat → Nat → Nat

/-- Received and launched optical power of a port's wavelength, as LNK_WL_OPT holds them (R532, R539), for a count of
measurements. -/
opaque Config.opticalPower : Nat → Nat → Nat → BitVec 32

/-- The breath-table entry of the replay breath (R415) with which a replayer begins a member's part of a step: neither the image formats nor
the replay order says where it stands; a function of the member and the step. -/
opaque Config.replayEntry : Nat → Nat → Nat

/-- What crossing calibration measures at a setpoint (R228, R229), for an island, a setpoint code and a queue id: the largest forward and
return latencies and the timing margin, as ISL_CALIB holds them one after the other. -/
opaque Config.calibration : Nat → Nat → Nat → BitVec 18

/-- The three Reed-Solomon check symbols over GF(2^8) of a line's 64 stored bytes and bits 31:24 of its metadata entry (R246, which names
neither the field's polynomial nor the generator). -/
opaque Config.reedSolomon : BitVec 512 → BitVec 8 → BitVec 24

/-- A line as AES-256-XTS stores it (R247), for the number of its key and its line index. -/
opaque Config.xts : Nat → Nat → BitVec 512 → BitVec 512

/-- The identity key's public half in the identity certificate (R465). -/
opaque Config.identityKey : BitVec 20736

/-- The signature block of the identity certificate (R440, R465). -/
opaque Config.certSignature : BitVec 57824

/-- The signature block of an attestation report (R440, R466), for the report's signed bytes. -/
opaque Config.reportSignature : List Byte → BitVec 57824

/-- The KEM encapsulation key (R439), for a count of power-ups. -/
opaque Config.kemKey : Nat → BitVec 12544

/-- The job secret J of a key grant (R458), for a count of accepted grants. -/
opaque Config.jobSecret : Nat → BitVec 256

/-- Byte `i` of the AES-256-GCM keystream of a checkpoint block (R464): a function of J, the block's IV and i. -/
opaque Config.ckptStream : BitVec 256 → Nat → Nat → Byte

/-- The GCM tag of a checkpoint block (R464): a function of J and the block's header and ciphertext. -/
opaque Config.ckptTag : BitVec 256 → List Byte → BitVec 128

/-- The I3C target's device characteristics register (R507). -/
opaque Config.dcr : Byte

/-- The two bytes GETSTATUS returns (R507), for a count of reads. -/
opaque Config.i3cStatus : Nat → BitVec 16

/-- The device serial fused into the part (R307, R443). -/
opaque Config.serial : BitVec 64

end Sys2Proof
end

