-- ==== Sys2Proof/Machine/Num.lean ====
section
/-! DEFINITION. Numbers: the element formats of R39, R40 and R42, exact values m × 2^e, and the one rounding function of
R52 with the conditions of R68. Everything is computed on natural numbers and integers, exactly. -/

namespace Sys2Proof.Machine

/-- The arithmetic status bits of R132: invalid, divzero, overflow, underflow, inexact. -/
def fInvalid : BitVec 5 := 1
/-- Division by zero (R132). -/
def fDivzero : BitVec 5 := 2
/-- Overflow or saturation (R132). -/
def fOverflow : BitVec 5 := 4
/-- Tiny and inexact (R132, R68). -/
def fUnderflow : BitVec 5 := 8
/-- Rounded (R132). -/
def fInexact : BitVec 5 := 16

/-- A rounding mode (R135). -/
inductive Rm where
  | rne
  | rtz
  | sr
deriving DecidableEq, Repr

/-- A floating-point format (R39): exponent and mantissa widths, bias, and the encoding of its largest finite magnitude. -/
structure FloatFmt where
  ebits  : Nat
  mbits  : Nat
  bias   : Nat
  maxEnc : Nat
deriving DecidableEq, Repr

/-- FP8 E4M3. -/
def fmtE4M3 : FloatFmt := ⟨4, 3, 7, 0x7E⟩
/-- FP8 E5M2. -/
def fmtE5M2 : FloatFmt := ⟨5, 2, 15, 0x7B⟩
/-- FP6 E2M3. -/
def fmtE2M3 : FloatFmt := ⟨2, 3, 1, 0x1F⟩
/-- FP6 E3M2. -/
def fmtE3M2 : FloatFmt := ⟨3, 2, 3, 0x1F⟩
/-- FP4 E2M1. -/
def fmtE2M1 : FloatFmt := ⟨2, 1, 1, 0x7⟩
/-- BF16. -/
def fmtBF16 : FloatFmt := ⟨8, 7, 127, 0x7F7F⟩
/-- FP16. -/
def fmtF16 : FloatFmt := ⟨5, 10, 15, 0x7BFF⟩
/-- FP32. -/
def fmtF32 : FloatFmt := ⟨8, 23, 127, 0x7F7FFFFF⟩

/-- The width of the format in bits. -/
def FloatFmt.width (f : FloatFmt) : Nat := 1 + f.ebits + f.mbits

/-- The minimum normal exponent (R52). -/
def FloatFmt.emin (f : FloatFmt) : Int := 1 - (f.bias : Int)

/-- A decoded value: a NaN, an infinity, or ± m × 2^e (R39, R41). -/
inductive Val where
  | nan
  | inf (neg : Bool)
  | fin (neg : Bool) (m : Nat) (e : Int)
deriving DecidableEq, Repr

/-- The value of a finite encoding of `f` (R39). -/
def FloatFmt.finite (f : FloatFmt) (x : Nat) : Val :=
  let neg := x.testBit (f.ebits + f.mbits)
  let mant := x % 2 ^ f.mbits
  let ex := x / 2 ^ f.mbits % 2 ^ f.ebits
  if ex = 0 then .fin neg mant (f.emin - f.mbits)
  else .fin neg (2 ^ f.mbits + mant) ((ex : Int) - f.bias - f.mbits)

/-- The value an encoding of `f` stands for; the encodings above the largest finite magnitude are the format's infinities
and NaNs (R39). -/
def FloatFmt.decode (f : FloatFmt) (x : Nat) : Val :=
  let mag := x % 2 ^ (f.ebits + f.mbits)
  if mag ≤ f.maxEnc then f.finite x
  else if mag % 2 ^ f.mbits = 0 then .inf (x.testBit (f.ebits + f.mbits))
  else .nan

/-- What rounding gives: the encoding without sign, and the conditions it raises (R52, R68). `over` says that the rounded
magnitude exceeds the largest finite value; the encoding is then of no use. -/
structure Rounded where
  enc     : Nat
  above    : Bool
  inexact : Bool
  tiny    : Bool
deriving DecidableEq, Repr

/-- Whether the fraction rem / 2^k rounds away from zero (R52, R57). -/
def roundUp (rm : Rm) (rnd24 : Nat) (t rem k : Nat) : Bool :=
  match rm with
  | .rne => decide (2 * rem > 2 ^ k) || (decide (2 * rem = 2 ^ k) && decide (t % 2 = 1))
  | .rtz => false
  | .sr  => decide (rem * 2 ^ 24 / 2 ^ k > rnd24)

/-- m × 2^e as a multiple of 2^q rounded by `rm`: the kept integer with its increment applied, and whether bits were lost. -/
def roundAt (rm : Rm) (rnd24 : Nat) (m : Nat) (e q : Int) : Nat × Bool :=
  if q ≤ e then (m * 2 ^ (e - q).toNat, false)
  else
    let k := (q - e).toNat
    let t := m / 2 ^ k
    let rem := m % 2 ^ k
    (t + (if roundUp rm rnd24 t rem k then 1 else 0), decide (rem ≠ 0))

/-- Rounding of the nonzero magnitude m × 2^e to format `f` (R52), with tininess detected after rounding (R68). -/
def FloatFmt.round (f : FloatFmt) (rm : Rm) (rnd24 : Nat) (m : Nat) (e : Int) : Rounded :=
  let ev := e + (Nat.log2 m : Int)
  let ex := if ev < f.emin then f.emin else ev
  let (t, inx) := roundAt rm rnd24 m e (ex - f.mbits)
  let enc := (ex - f.emin).toNat * 2 ^ f.mbits + t
  let tiny :=
    if ev < f.emin then
      let (tu, _) := roundAt rm rnd24 m e (ev - f.mbits)
      decide (ev + 1 < f.emin) || decide (tu < 2 ^ (f.mbits + 1))
    else false
  { enc := enc, above := decide (enc > f.maxEnc), inexact := inx, tiny := tiny }

/-- The conditions a rounded result raises (R68): overflow and inexact, or underflow with inexact, or inexact. -/
def Rounded.flags (r : Rounded) : BitVec 5 :=
  if r.above then fOverflow ||| fInexact
  else (if r.inexact then fInexact else 0) ||| (if r.inexact && r.tiny then fUnderflow else 0)

/-- The sign bit of a format, set or not. -/
def FloatFmt.signBit (f : FloatFmt) (neg : Bool) : Nat := if neg then 2 ^ (f.ebits + f.mbits) else 0

/-- The encoding of infinity of an IEEE-like format (one above the largest finite). -/
def FloatFmt.infEnc (f : FloatFmt) : Nat := (2 ^ f.ebits - 1) * 2 ^ f.mbits

/-- Exact sum of two signed values, as a signed integer and an exponent. -/
def dyAdd (m : Int) (e : Int) (n : Int) (d : Int) : Int × Int :=
  if e ≤ d then (m + n * 2 ^ (d - e).toNat, e) else (m * 2 ^ (e - d).toNat + n, d)

/-- A signed magnitude as an integer. -/
def signedInt (neg : Bool) (m : Nat) : Int := if neg then -(m : Int) else (m : Int)

/-- floor(m × 2^sh) for any integer shift (R47, R63). -/
def floorShift (m : Int) (sh : Int) : Int :=
  if 0 ≤ sh then m * 2 ^ sh.toNat else m / 2 ^ (-sh).toNat

/-- Whether floor(m × 2^sh) discards nonzero bits. -/
def floorLoses (m : Int) (sh : Int) : Bool :=
  if 0 ≤ sh then false else decide (m % 2 ^ (-sh).toNat ≠ 0)

/-- The integer square root of a number below 2^(2·n), bit by bit from the top. -/
def isqrtGo : Nat → Nat → Nat → Nat
  | 0, _, acc => acc
  | i + 1, n, acc => isqrtGo i n (if (acc + 2 ^ i) * (acc + 2 ^ i) ≤ n then acc + 2 ^ i else acc)

/-- The integer square root. -/
def isqrt (n : Nat) : Nat := isqrtGo (Nat.log2 n / 2 + 1) n 0

end Sys2Proof.Machine
end

