-- ==== Sys2Proof/Machine/Fn.lean ====
section
/-! DEFINITION. The mathematical functions of R65 in fixed point with 256 fraction bits: enough that the nearest binary32
value is decided for every input (notes/assumptions/21.md). Each answers a magnitude m × 2^e whose last bit is a sticky bit,
so that rounding it gives the rounding of the exact value. -/

namespace Sys2Proof.Machine

/-- Fraction bits of the fixed-point values of this file. -/
def fxBits : Nat := 256

/-- 1 in fixed point. -/
def fxOne : Nat := 2 ^ fxBits

/-- ln 2 × 2^256, rounded down. -/
def fxLn2 : Nat := 0xb17217f7d1cf79abc9e3b39803f2f6af40f343267298b62d8a0d175b8baafa2b

/-- 2 / √π × 2^256, rounded down. -/
def fxTwoRootPi : Nat := 0x120dd750429b6d11ae3a914fed7fd8688281341d7587cea2e7342b06199cc4161

/-- A signed value ± m × 2^e in fixed point, toward negative infinity. -/
def toFx (neg : Bool) (m : Nat) (e : Int) : Int := floorShift (signedInt neg m) (e + fxBits)

/-- Σ r^n / n! from the n-th term on, for `r` in fixed point; `term` is the n-th term. -/
def expSeries : Nat → Nat → Nat → Nat → Nat → Nat
  | 0, _, _, _, acc => acc
  | k + 1, n, term, r, acc => expSeries k (n + 1) (term * r / (fxOne * (n + 1))) r (acc + term)

/-- e^r in fixed point for 0 ≤ r < 1 in fixed point. -/
def fxExp (r : Nat) : Nat := expSeries 64 0 fxOne r 0

/-- Σ z^(2n+1) / (2n+1): the terms of the inverse hyperbolic tangent. -/
def atanhSeries : Nat → Nat → Nat → Nat → Nat → Nat
  | 0, _, _, _, acc => acc
  | k + 1, n, term, z2, acc => atanhSeries k (n + 2) (term * z2 / fxOne) z2 (acc + term / n)

/-- ln y in fixed point for 1 ≤ y < 2 in fixed point. -/
def fxLn (y : Nat) : Nat :=
  let z := (y - fxOne) * fxOne / (y + fxOne)
  2 * atanhSeries 90 1 z (z * z / fxOne) 0

/-- Alternating series of the error function: Σ (−1)^n x^(2n+1) / (n! (2n+1)). -/
def erfSeries : Nat → Nat → Nat → Nat → Int → Int
  | 0, _, _, _, acc => acc
  | k + 1, n, term, x2, acc =>
    erfSeries k (n + 1) (term * x2 / (fxOne * (n + 1))) x2
      (if n % 2 = 0 then acc + (term / (2 * n + 1) : Nat) else acc - (term / (2 * n + 1) : Nat))

/-- A nonzero inexact magnitude m × 2^e with a sticky bit appended. -/
def sticky (m : Nat) (e : Int) : Nat × Int := (2 * m + 1, e - 1)

/-- e^x for x ≠ 0 in fixed point with |x| < 2^10, as a magnitude with a sticky bit. -/
def expMag (x : Int) : Nat × Int :=
  let k := x / (fxLn2 : Int)
  let r := (x - k * (fxLn2 : Int)).toNat
  sticky (fxExp r) (k - fxBits)

/-- 2^x for x not an integer, in fixed point. -/
def exp2Mag (x : Int) : Nat × Int :=
  let k := x / (fxOne : Int)
  let f := (x - k * (fxOne : Int)).toNat
  sticky (fxExp (f * fxLn2 / fxOne)) (k - fxBits)

/-- ln of m × 2^e (m > 0), in fixed point. -/
def fxLog (m : Nat) (e : Int) : Int :=
  let p := Nat.log2 m
  let y := m * fxOne / 2 ^ p
  (fxLn y : Int) + (e + (p : Int)) * (fxLn2 : Int)

/-- log2 of m × 2^e (m > 0), in fixed point. -/
def fxLog2 (m : Nat) (e : Int) : Int :=
  let p := Nat.log2 m
  let y := m * fxOne / 2 ^ p
  (fxLn y * fxOne / fxLn2 : Nat) + (e + (p : Int)) * (fxOne : Int)

/-- A nonzero fixed-point value as sign and magnitude with a sticky bit. -/
def fxMag (x : Int) : Bool × Nat × Int :=
  let (m, e) := sticky x.natAbs (-(fxBits : Int))
  (decide (x < 0), m, e)

/-- tanh of |x| for x ≠ 0 in fixed point, 0 < |x| < 32. -/
def tanhMag (x : Nat) : Nat × Int :=
  let (m, e) := expMag (2 * (x : Int))
  let v := m * 2 ^ (e + 2 * (fxBits : Int)).toNat
  let one := 2 ^ (2 * fxBits)
  sticky ((v - one) * fxOne * fxOne / (v + one)) (-(2 * fxBits : Int))

/-- erf of |x| for 0 < |x| < 4.5 in fixed point. -/
def erfMag (x : Nat) : Nat × Int :=
  let s := erfSeries 260 0 x (x * x / fxOne) 0
  sticky (s.toNat * fxTwoRootPi / fxOne) (-(fxBits : Int))

/-- 1 / (1 + e^(−x)) for x ≠ 0 in fixed point with |x| < 2^10. -/
def sigMag (x : Int) : Nat × Int :=
  let (m, e) := expMag (-x)
  -- 1 / (1 + m 2^e), scaled by 2^512
  let sh : Nat := 600
  let den : Nat := 2 ^ sh + (floorShift m (e + sh)).toNat
  sticky (2 ^ (sh + 512) / den) (-512)

/-- The quotient 1 / (m × 2^e) with a sticky bit that is clear when it is exact. -/
def rcpMag (m : Nat) (e : Int) : Nat × Int :=
  let q := 2 ^ 128 / m
  (2 * q + (if 2 ^ 128 % m = 0 then 0 else 1), -e - 129)

/-- The square root of m × 2^e with a sticky bit that is clear when it is exact. -/
def sqrtMag (m : Nat) (e : Int) : Nat × Int :=
  let odd := e % 2 = 1
  let m' := if odd then 2 * m else m
  let e' := if odd then e - 1 else e
  let n := m' * 2 ^ 128
  let r := isqrt n
  (2 * r + (if r * r = n then 0 else 1), e' / 2 - 64 - 1)

/-- 1 / √(m × 2^e) with a sticky bit that is clear when it is exact. -/
def rsqrtMag (m : Nat) (e : Int) : Nat × Int :=
  let odd := e % 2 = 1
  let m' := if odd then 2 * m else m
  let e' := if odd then e - 1 else e
  let q := 2 ^ 256 / m'
  let r := isqrt q
  (2 * r + (if r * r * m' = 2 ^ 256 then 0 else 1), -(e' / 2) - 128 - 1)

end Sys2Proof.Machine
end

