-- ==== Sys2Proof/Machine/Flags.lean ====
section
/-! DEFINITION. The vector unit's arithmetic: binary32 operations and functions with the conditions they raise (R64 to
R68, R541, R145, R147, R149, R150). A lane is its bits as a natural number; a result is its bits and its astat bits.
`rev1` says that the part's errata revision is 1 (R67, R76). -/

namespace Sys2Proof.Machine

/-- A lane result: bits and astat bits. -/
abbrev LaneRes := Nat × BitVec 5

/-- The canonical NaN of binary32 (R67). -/
def canonNan : Nat := 0x7FC00000

/-- Whether binary32 bits are a NaN. -/
def f32IsNan (x : Nat) : Bool := decide (x % 2 ^ 31 > 0x7F800000)

/-- Whether binary32 bits are a signalling NaN (R39). -/
def f32IsSnan (x : Nat) : Bool := f32IsNan x && !x.testBit 22

/-- Invalid when some operand is a signalling NaN (R68, R541). -/
def snanFlag (xs : List Nat) : BitVec 5 := if xs.any f32IsSnan then fInvalid else 0

/-- The NaN result for NaN operands (R67): the first NaN operand made quiet under revision 1, the canonical NaN under
revision 2. -/
def nanResult (rev1 : Bool) (xs : List Nat) : Nat :=
  if rev1 then
    match xs.find? f32IsNan with
    | some x => x ||| 0x400000
    | none => canonNan
  else canonNan

/-- Binary32 bits of an infinity. -/
def f32Inf (neg : Bool) : Nat := fmtF32.signBit neg + 0x7F800000

/-- Round ± m × 2^e to binary32, to nearest even, with its conditions (R52, R53, R64, R68). -/
def roundF32 (neg : Bool) (m : Nat) (e : Int) : LaneRes :=
  if m = 0 then (fmtF32.signBit neg, 0)
  else
    let r := fmtF32.round .rne 0 m e
    if r.above then (f32Inf neg, r.flags) else (fmtF32.signBit neg + r.enc, r.flags)

/-- A signed sum m × 2^e rounded to binary32; an exact zero sum has sign `zneg`. -/
def roundSum (zneg : Bool) (m : Int) (e : Int) : LaneRes :=
  if m = 0 then (fmtF32.signBit zneg, 0) else roundF32 (decide (m < 0)) m.natAbs e

/-- va × vb + vc on binary32 bits, rounded once (R64, R541). -/
def f32Fma (rev1 : Bool) (a b c : Nat) : LaneRes :=
  let va := fmtF32.decode a
  let vb := fmtF32.decode b
  let vc := fmtF32.decode c
  let infZero := match va, vb with
    | .inf _, .fin _ 0 _ => true
    | .fin _ 0 _, .inf _ => true
    | _, _ => false
  let fl := snanFlag [a, b, c] ||| (if infZero then fInvalid else 0)
  if f32IsNan a || f32IsNan b || f32IsNan c then (nanResult rev1 [a, b, c], fl)
  else if infZero then (canonNan, fl)
  else
    let sg := xor (a.testBit 31) (b.testBit 31)
    match va, vb, vc with
    | .fin _ m _, .fin _ n _, .inf sc => if m = 0 ∨ n = 0 then (f32Inf sc, fl) else (f32Inf sc, fl)
    | .fin _ m e, .fin _ n d, .fin sc k g =>
      let (t, x) := dyAdd (signedInt sg (m * n)) (e + d) (signedInt sc k) g
      let (r, f) := roundSum (sg && sc) t x
      (r, f ||| fl)
    | _, _, .inf sc => if sg = sc then (f32Inf sg, fl) else (canonNan, fInvalid ||| fl)
    | _, _, _ => (f32Inf sg, fl)

/-- va + vb on binary32 bits (R64). -/
def f32Add (rev1 : Bool) (a b : Nat) : LaneRes :=
  let fl := snanFlag [a, b]
  if f32IsNan a || f32IsNan b then (nanResult rev1 [a, b], fl)
  else
    match fmtF32.decode a, fmtF32.decode b with
    | .inf sa, .inf sb => if sa = sb then (f32Inf sa, fl) else (canonNan, fInvalid)
    | .inf sa, _ => (f32Inf sa, fl)
    | _, .inf sb => (f32Inf sb, fl)
    | .fin sa m e, .fin sb n d =>
      let (t, x) := dyAdd (signedInt sa m) e (signedInt sb n) d
      roundSum (sa && sb) t x
    | _, _ => (canonNan, fl)

/-- The negation of binary32 bits: a sign operation of IEEE 754. -/
def f32Neg (a : Nat) : Nat := a ^^^ 2 ^ 31

/-- va − vb on binary32 bits: the sum with vb's sign turned, but a NaN keeps its own bits (R64, R67). -/
def f32Sub (rev1 : Bool) (a b : Nat) : LaneRes :=
  if f32IsNan b then f32Add rev1 a b else f32Add rev1 a (f32Neg b)

/-- va × vb on binary32 bits (R64). -/
def f32Mul (rev1 : Bool) (a b : Nat) : LaneRes :=
  let fl := snanFlag [a, b]
  if f32IsNan a || f32IsNan b then (nanResult rev1 [a, b], fl)
  else
    let sg := xor (a.testBit 31) (b.testBit 31)
    match fmtF32.decode a, fmtF32.decode b with
    | .fin _ m e, .fin _ n d => roundF32 sg (m * n) (e + d)
    | .inf _, .fin _ n _ => if n = 0 then (canonNan, fInvalid) else (f32Inf sg, fl)
    | .fin _ m _, .inf _ => if m = 0 then (canonNan, fInvalid) else (f32Inf sg, fl)
    | _, _ => (f32Inf sg, fl)

/-- A key that orders the non-NaN binary32 values, −0 below +0 (R147). -/
def f32Key (x : Nat) : Int := if x.testBit 31 then -((x % 2 ^ 31 : Nat) : Int) - 1 else (x : Int)

/-- IEEE 754-2019 minimum and maximum on binary32 bits (R145, R147). -/
def f32MinMax (rev1 max : Bool) (a b : Nat) : LaneRes :=
  let fl := snanFlag [a, b]
  if f32IsNan a || f32IsNan b then (nanResult rev1 [a, b], fl)
  else if max then (if f32Key a < f32Key b then b else a, 0)
  else (if f32Key b < f32Key a then b else a, 0)

/-- A key under which ±0 are equal. -/
def f32CmpKey (x : Nat) : Int := if x.testBit 31 then -((x % 2 ^ 31 : Nat) : Int) else (x : Int)

/-- The vector compare conditions of R126 on binary32 bits, with the invalid condition of R147. -/
def f32Cmp (cond : Nat) (a b : Nat) : Bool × BitVec 5 :=
  if f32IsNan a || f32IsNan b then
    (decide (cond = 1 ∨ cond = 6), if (2 ≤ cond ∧ cond ≤ 5) then fInvalid else snanFlag [a, b])
  else
    let x := f32CmpKey a
    let y := f32CmpKey b
    (match cond with
      | 0 => decide (x = y)
      | 1 => decide (x ≠ y)
      | 2 => decide (x < y)
      | 3 => decide (x ≤ y)
      | 4 => decide (x > y)
      | 5 => decide (x ≥ y)
      | _ => false, 0)

/-- The functions of R65. -/
inductive Fun where
  | exp
  | exp2
  | log
  | log2
  | rcp
  | sqrt
  | rsqrt
  | tanh
  | erf
  | sig
deriving DecidableEq, Repr

/-- A rounded function value from sign, magnitude and sticky bit. -/
def roundMag (neg : Bool) (me : Nat × Int) : LaneRes := roundF32 neg me.1 me.2

/-- A value below every binary32 subnormal, so that it rounds to zero with its conditions. -/
def belowAll : Nat × Int := (1, -400)

/-- A value just below 1. -/
def belowOne : Nat × Int := (2 ^ 64 - 1, -64)

/-- A value above the largest binary32 number. -/
def aboveAll : Nat × Int := (1, 200)

/-- A function of a nonzero finite argument ± m × 2^e (R65). -/
def funFinite (fn : Fun) (neg : Bool) (m : Nat) (e : Int) : LaneRes :=
  let top := e + (Nat.log2 m : Int)
  let x := toFx neg m e
  let ax := (toFx false m e).toNat
  match fn with
  | .exp =>
    if 8 ≤ top then roundMag false (if neg then belowAll else aboveAll) else roundMag false (expMag x)
  | .exp2 =>
    if 8 ≤ top then roundMag false (if neg then belowAll else aboveAll)
    else if x % (fxOne : Int) = 0 then roundF32 false 1 (x / (fxOne : Int))
    else roundMag false (exp2Mag x)
  | .log =>
    if neg then (canonNan, fInvalid)
    else if m = 2 ^ Nat.log2 m ∧ top = 0 then (0, 0)
    else let (s, me) := fxMag (fxLog m e); roundMag s me
  | .log2 =>
    if neg then (canonNan, fInvalid)
    else if m = 2 ^ Nat.log2 m then roundSum false top 0
    else let (s, me) := fxMag (fxLog2 m e); roundMag s me
  | .rcp => roundMag neg (rcpMag m e)
  | .sqrt => if neg then (canonNan, fInvalid) else roundMag false (sqrtMag m e)
  | .rsqrt => if neg then (canonNan, fInvalid) else roundMag false (rsqrtMag m e)
  | .tanh => roundMag neg (if 5 ≤ top then belowOne else tanhMag ax)
  | .erf => roundMag neg (if 2 ^ 258 + 2 ^ 255 ≤ ax then belowOne else erfMag ax)
  | .sig =>
    if 8 ≤ top then roundMag false (if neg then belowAll else belowOne) else roundMag false (sigMag x)

/-- A function of ±0 (R65). -/
def funZero (fn : Fun) (neg : Bool) : LaneRes :=
  match fn with
  | .exp | .exp2 => (0x3F800000, 0)
  | .log | .log2 => (f32Inf true, fDivzero)
  | .rcp | .rsqrt => (f32Inf neg, fDivzero)
  | .sqrt | .tanh | .erf => (fmtF32.signBit neg, 0)
  | .sig => (0x3F000000, 0)

/-- A function of ±∞ (R65). -/
def funInf (fn : Fun) (neg : Bool) : LaneRes :=
  match fn with
  | .exp | .exp2 => (if neg then 0 else f32Inf false, 0)
  | .log | .log2 | .sqrt => if neg then (canonNan, fInvalid) else (f32Inf false, 0)
  | .rcp => (fmtF32.signBit neg, 0)
  | .rsqrt => if neg then (canonNan, fInvalid) else (0, 0)
  | .tanh | .erf => (fmtF32.signBit neg + 0x3F800000, 0)
  | .sig => (if neg then 0 else 0x3F800000, 0)

/-- A function of binary32 bits (R65, R67). -/
def f32Fun (rev1 : Bool) (fn : Fun) (a : Nat) : LaneRes :=
  match fmtF32.decode a with
  | .nan => (nanResult rev1 [a], snanFlag [a])
  | .inf neg => funInf fn neg
  | .fin neg m e => if m = 0 then funZero fn neg else funFinite fn neg m e

/-- Narrowing of binary32 bits to BF16 or FP16 (R147, R149, R53, R67). -/
def narrowIeee (rev1 : Bool) (f : FloatFmt) (rm : Rm) (rnd24 : Nat) (a : Nat) : LaneRes :=
  let neg := a.testBit 31
  match fmtF32.decode a with
  | .nan =>
    (if rev1 then
       f.signBit neg + f.infEnc + (((a % 2 ^ 23) ||| 0x400000) / 2 ^ (23 - f.mbits))
     else f.infEnc + 2 ^ (f.mbits - 1), snanFlag [a])
  | .inf _ => (f.signBit neg + f.infEnc, 0)
  | .fin _ m e =>
    if m = 0 then (f.signBit neg, 0)
    else
      let r := f.round rm rnd24 m e
      if r.above then (f.signBit neg + (if rm = .rtz then f.maxEnc else f.infEnc), r.flags)
      else (f.signBit neg + r.enc, r.flags)

/-- A BF16 lane widened exactly to binary32 bits (R64). -/
def widenBf16 (x : Nat) : Nat := x * 2 ^ 16

end Sys2Proof.Machine
end

