-- ==== Sys2Proof/Machine/Tbl.lean ====
section
/-! DEFINITION. The sparse table every large collection of the model is held in: a list of (key, value) pairs with strictly rising keys and no entry equal to the value an unlisted
key reads as, so that equal tables are equal data. -/

namespace Sys2Proof.Machine

/-- A sparse table from natural numbers. -/
abbrev Tbl (α : Type) := List (Nat × α)

/-- The value at key `k`; `d` is what an unlisted key reads as. -/
def Tbl.get {α : Type} (d : α) : Tbl α → Nat → α
  | [], _ => d
  | (j, v) :: t, k => if j = k then v else Tbl.get d t k

/-- The table without the key `k`. -/
def Tbl.erase {α : Type} : Tbl α → Nat → Tbl α
  | [], _ => []
  | (j, v) :: t, k => if j = k then Tbl.erase t k else (j, v) :: Tbl.erase t k

/-- The table with `v` listed at `k`, before the first larger key. -/
def Tbl.insert {α : Type} : Tbl α → Nat → α → Tbl α
  | [], k, v => [(k, v)]
  | (j, w) :: t, k, v =>
    if j = k then Tbl.insert t k v else if k < j then (k, v) :: (j, w) :: Tbl.erase t k else (j, w) :: Tbl.insert t k v

/-- The table that reads as `v` at `k` and as before elsewhere, in canonical form. -/
def Tbl.set {α : Type} [DecidableEq α] (d : α) (t : Tbl α) (k : Nat) (v : α) : Tbl α :=
  if v = d then Tbl.erase t k else Tbl.insert t k v

/-- All keys are at least `lo` and rise strictly, and no listed value is the default. -/
def Tbl.okFrom {α : Type} [DecidableEq α] (d : α) : Nat → Tbl α → Bool
  | _, [] => true
  | lo, (j, v) :: t => decide (lo ≤ j) && decide (v ≠ d) && Tbl.okFrom d (j + 1) t

/-- The canonical form. -/
def Tbl.wf {α : Type} [DecidableEq α] (d : α) (t : Tbl α) : Bool := Tbl.okFrom d 0 t

/-- The keys listed. -/
def Tbl.keys {α : Type} (t : Tbl α) : List Nat := t.map Prod.fst

/-- The table with every value mapped through `f`, kept canonical. -/
def Tbl.update {α : Type} [DecidableEq α] (d : α) (f : Nat → α → α) : Tbl α → Tbl α
  | [] => []
  | (j, v) :: t => if f j v = d then Tbl.update d f t else (j, f j v) :: Tbl.update d f t

end Sys2Proof.Machine
end

