-- ==== Sys2Proof/Machine/StCore.lean ====
section
/-! DEFINITION. What one logical core, one cluster switch and one logical island hold (R46, R95 to R97, R107 to R111,
R132, R166, R171, R184 to R192, R207, R218 to R226), as plain data. Sparse tables list only what differs from the
island-reset value. -/

namespace Sys2Proof.Machine

/-- One lane of an accumulator entry: sum, residue and the five sticky flags (R46 to R48), and the model's own count, modulo 65,535, of
the sum's wraparounds modulo 2^144, with which R70 calls the residue consistent (DESIGN CHOICE, log 146). -/
structure Lane where
  sum  : BitVec 144
  res  : BitVec 16
  wraps : BitVec 16
  lost : Bool
  chk  : Bool
  nan  : Bool
  pos  : Bool
  neg  : Bool
deriving DecidableEq, Repr

/-- A cleared lane (R48). -/
def Lane.zero : Lane := ⟨0, 0, 0, false, false, false, false, false⟩

/-- One accumulator entry: an anchor and 16 lanes (R46). -/
structure QEntry where
  anchor : BitVec 11
  lanes  : Tbl Lane
deriving DecidableEq, Repr

/-- An accumulator entry after island reset (R95). -/
def QEntry.zero : QEntry := ⟨0, []⟩

/-- One lane of an accumulator entry. -/
def QEntry.lane (q : QEntry) (j : Nat) : Lane := Tbl.get Lane.zero q.lanes j

/-- A weight stage (R109): elements, scales, format tag, and which parts it has received since it last became empty. -/
structure Stage where
  elems  : BitVec 1024
  scales : BitVec 128
  fmt    : BitVec 4
  half0  : Bool
  half1  : Bool
  scl    : Bool
deriving DecidableEq, Repr

/-- An empty weight stage. -/
def Stage.empty : Stage := ⟨0, 0, 0, false, false, false⟩

/-- What one mma adds to one lane (R47): the aligned sum, its residue, the wraparounds of forming it, and the flags it raises. -/
structure LaneAdd where
  t    : BitVec 144
  res  : BitVec 16
  wraps : BitVec 16
  lost : Bool
  nan  : Bool
  pos  : Bool
  neg  : Bool
  chk  : Bool
deriving DecidableEq, Repr

/-- 64 bytes that a core presents on its switch port, or that stand on a mesh input (R164, R184). -/
structure Present where
  rid  : Nat
  data : Line
  prov : BitVec 2
deriving DecidableEq, Repr

/-- A remote operation as the core hands it to the global memory unit (R169, R170). -/
structure Remote where
  op    : Nat
  gaddr : Nat
  buf   : Nat
  parm  : BitVec 32
  ctr   : Nat
  prov  : BitVec 2
deriving DecidableEq, Repr

/-- An effect of an issued instruction, on its way to delivery (R81). -/
inductive Eff where
  | setS (r : Nat) (x : BitVec 32)
  | setCyc (r : Nat)
  | setP (p : Nat) (b : Bool)
  | setV (v : Nat) (mask : BitVec 64) (data : BitVec 512) (smask : BitVec 8) (scales : BitVec 64)
  | setKey (k : Nat) (x : BitVec 32)
  | setTensor (x : BitVec 32)
  | setAstat (x : BitVec 5)
  | orAstat (x : BitVec 5)
  | setStep (x : BitVec 64)
  | setProv (x : BitVec 2)
  | swap
  | accAdd (q : Nat) (lanes : List LaneAdd)
  | accClear (qa qb : Nat) (anchor : BitVec 11)
  | store (addr : Nat) (bytes : List Byte) (tag : BitVec 2)
  | takeMbx (entry : Nat)
  | present (p : Present)
  | put (ch : Nat) (data : Line) (prov : BitVec 2)
  | remote (tracker : Nat) (r : Remote)
  | syncAdd (c : Nat) (x : BitVec 32)
  | syncSet (c : Nat) (x : BitVec 32)
  | fillPart (fmt : BitVec 4) (part : Nat) (data : BitVec 512)
  | suspect (step : BitVec 64) (reason : BitVec 16)
  | endBreath
  | corrected
  | fetchCorrected
  | check (lanes : Nat) (image : Option Nat)
  | waitLate
  | readSync (r c : Nat) (x : BitVec 32)
deriving DecidableEq, Repr

/-- An effect in flight: issue cycles left until it delivers, whether it was issued in the present issue cycle (so that a
fault of its bundle still cancels it, R116), and the effect. -/
structure Flight where
  left  : Nat
  fresh : Bool
  eff   : Eff
deriving DecidableEq, Repr

/-- A put channel's quarters already pushed, first quarter first (R167). -/
structure Chan where
  quarters : List Line
  prov     : BitVec 2
deriving DecidableEq, Repr

/-- A mailbox entry (R107, R97). -/
structure Mbx where
  data : Line
  full : Bool
  prov : BitVec 2
deriving DecidableEq, Repr

/-- The range of bundle addresses a breath may execute and the entry address (R105). -/
structure Exec where
  first : Nat
  last  : Nat
  entry : Nat
deriving DecidableEq, Repr

/-- Whether a core issues (R121): with no breath it takes what it is given, in a breath it issues, has ended, or has faulted. -/
inductive CoreRun where
  | idle
  | issuing
  | ended
  | faulted
deriving DecidableEq, Repr

/-- One part of a weight tile in an island's weight-tree input (R265): format, cluster mask, part and data. -/
structure TreePart where
  fmt  : BitVec 4
  mask : BitVec 16
  part : Nat
  data : BitVec 512
deriving DecidableEq, Repr

/-- The tile the island distributor is writing (R266): format, cluster mask, the part under way and how many of its 16-byte
pieces are written. -/
structure Fill where
  fmt    : BitVec 4
  mask   : BitVec 16
  part   : Nat
  pieces : Nat
deriving DecidableEq, Repr

/-- What makes a bundle fault (R80, R116, R119): its fetch, a reserved encoding, a destination that another slot names too, a second
taken transfer in its group, a cause in no slot (reserved header bits, more than 8 bundles without a marker), or what an instruction
meets when it executes. -/
inductive CauseKind where
  | fetch
  | reserved
  | duplicate
  | secondJump
  | header
  | execution
deriving DecidableEq, Repr

/-- One cause of a bundle's fault: its kind, its slot (3 for none) and its fault code (R117). -/
structure Cause where
  kind : CauseKind
  slot : Nat
  code : Nat
deriving DecidableEq, Repr

/-- One logical core. Beside the registers of R95, the put channels of R166 and the request trackers, with those whose resolved request is
still to be counted (R171), it holds what is in flight and the bundle it is issuing:
whether one is open, its end-of-group mark, the commands, slots and destinations given for it, its taken transfer and the causes of its
fault; `taken` is the transfer that an earlier bundle of the group takes. -/
structure Core where
  sregs   : Tbl (BitVec 32)
  preds   : Tbl Bool
  vregs   : Tbl (BitVec 512)
  vscales : Tbl (BitVec 64)
  qs      : Tbl QEntry
  w0      : Stage
  w1      : Stage
  active1 : Bool
  step    : BitVec 64
  keys    : Tbl (BitVec 32)
  tensor  : BitVec 32
  prov    : BitVec 2
  astat   : BitVec 5
  mbx     : Tbl Mbx
  chans   : Tbl Chan
  trk     : Tbl (Option Remote)
  counting : List Nat
  flight  : List Flight
  port    : Option Present
  run     : CoreRun
  exec    : Option Exec
  pc      : Nat
  open_   : Bool
  eog     : Bool
  group   : Nat
  taken   : Option Nat
  jump    : Option Nat
  ending  : Bool
  dests   : List (Nat × Nat)
  slots   : List Nat
  cmds    : List Instr
  causes  : List Cause
deriving DecidableEq, Repr

/-- What a vector register's scale bytes hold after island reset and after most writes: 0x7F in each (R95, R136). -/
def plainScales : BitVec 64 := 0x7F7F7F7F7F7F7F7F#64

/-- A mailbox entry after island reset. -/
def Mbx.empty : Mbx := ⟨0, false, 0⟩

/-- A put channel that holds no quarter. -/
def Chan.empty : Chan := ⟨[], 0⟩

/-- A core after island reset (R95, R234). -/
def Core.reset : Core :=
  { sregs := [], preds := [], vregs := [], vscales := [], qs := [], w0 := Stage.empty, w1 := Stage.empty,
    active1 := false, step := 0, keys := [], tensor := 0, prov := 0, astat := 0, mbx := [], chans := [], trk := [], counting := [],
    flight := [], port := none, run := .idle, exec := none, pc := 0, open_ := false, eog := false,
    group := 0, taken := none, jump := none, ending := false, dests := [], slots := [], cmds := [], causes := [] }

/-- A route word a switch is running: the word and the repetition that runs in this cycle (R187). -/
structure Running where
  word : BitVec 128
  rep  : Nat
deriving DecidableEq, Repr

/-- A mailbox write of a route word, waiting for the end of its cycle (R188). -/
structure MbxWrite where
  core  : Nat
  entry : Nat
  data  : Line
  prov  : BitVec 2
deriving DecidableEq, Repr

/-- One cluster switch: the word it runs, the address of the last word it executed, whether it has executed its end word,
whether it has faulted, how many words its loaded range holds (R185), the data on its four mesh inputs, and what the
word of this cycle does at the end of the cycle: data on the mesh outputs, mailbox writes, crossing writes, the queues it
reads, and the sources it delivers. -/
structure Cluster where
  word    : Option Running
  pc      : Nat
  next    : Nat
  ended   : Bool
  faulted : Bool
  loaded  : Nat
  mesh    : Tbl (Option Present)
  outs    : List (Nat × Present)
  writes  : List MbxWrite
  reads   : List Nat
  served  : List Nat
deriving DecidableEq, Repr

/-- A switch after island reset. -/
def Cluster.reset : Cluster :=
  { word := none, pc := 0, next := 0, ended := false, faulted := false, loaded := 0, mesh := [], outs := [],
    writes := [], reads := [], served := [] }

/-- An entry of a crossing queue, held at its reader: data with its provisional tag, the writer's stamp, whether it has
arrived, and whether its parity is bad (R221, R227). -/
structure XEntry where
  data    : Line
  prov    : BitVec 2
  stamp   : Nat
  arrived : Bool
  badPar  : Bool
deriving DecidableEq, Repr

/-- An entry of a crossing queue that has been read but is not free to its writer yet: the reader's cycle, whether the
read was made in an earlier breath, and whether its free indication has arrived (R222). -/
structure XFree where
  cyc     : Nat
  old     : Bool
  arrived : Bool
deriving DecidableEq, Repr

/-- A signal to a counter (R257, R259, R284): the counter's kind (1 staging, 2 island), its number, its place and the
amount. -/
structure Signal where
  kind : Nat
  ctr  : Nat
  loc  : Nat
  amt  : BitVec 32
deriving DecidableEq, Repr

/-- What the completion of a landing raises (R285): its stream's completion counter, and its descriptor's signal when it is
due. -/
structure LandEnd where
  stream : Nat
  sig    : Option Signal
deriving DecidableEq, Repr

/-- A 64-byte landing write on its way into a mailbox (R108, R191); `fin` marks a landing's fourth entry (R285). -/
structure LandWrite where
  unit  : Nat
  entry : Nat
  data  : Line
  prov  : BitVec 2
  fin   : Option LandEnd
deriving DecidableEq, Repr

/-- A complete flit on its way to a launch queue (R167): port, queue, tag and payload. -/
structure PutFlit where
  port  : Nat
  queue : Nat
  prov  : BitVec 2
  q0    : Line
  q1    : Line
  q2    : Line
  q3    : Line
deriving DecidableEq, Repr

/-- One unit that stalls in this island cycle: unit number, the slot that stalls (0 for a switch), cause (0 mailbox,
1 counter, 2 crossing) and id (R93). -/
structure StallAt where
  unit  : Nat
  slot  : Nat
  cause : Nat
  id    : Nat
deriving DecidableEq, Repr

/-- An addition to an island counter on its way through the side-port crossing (R175, R226): the counter, the amount, and the core and
tracker that a remote operation's completion frees once it is counted (R171). -/
structure SideAdd where
  ctr  : Nat
  amt  : BitVec 32
  free : Option (Nat × Nat)
deriving DecidableEq, Repr

/-- One logical island: its cycle count and lag (R87, R207), both as they stood when the present issue cycle first could issue, and the
largest wait.cyc operand in it; the units that stall, how long the stall has lasted, the commands that wait for the
hold to end with the issue cycles they still let pass, the issue cycles the next held command lets pass, whether running
route words still have to be moved into the present cycle, whether it has stopped issuing after an abort (R235) and whether a landing has
entered a mailbox in this cycle (R191); the inbound crossing queues, the read entries of its outbound ones,
its landing writes (those in the landing input's crossing, and those released and waiting on a full entry, R191), its launch
output, counter additions on their way through the side port (the first 16 stand in its crossing, R226) and those visible in this cycle
(R175), and the model's own count of the cycles that have passed with those of its latest droop stretches (R215). -/
structure Island where
  cyc       : Nat
  lag       : Nat
  cyc0      : Nat
  lag0      : Nat
  waitMax   : Option Nat
  stalls    : List StallAt
  stallRun  : Nat
  held      : List (Nat × Instr)
  skip      : Option Nat
  resume    : Bool
  halted    : Bool
  landed    : Bool
  inbound   : Tbl (List XEntry)
  taken     : Tbl (List XFree)
  landings  : List LandWrite
  released  : List LandWrite
  launchOut : List PutFlit
  side      : List SideAdd
  adds      : List SideAdd
  ticks     : Nat
  droops    : List Nat
  treeIn    : List TreePart
  fill      : Option Fill
deriving DecidableEq, Repr

/-- An island after island reset. -/
def Island.reset : Island :=
  { cyc := 0, lag := 0, cyc0 := 0, lag0 := 0, waitMax := none, stalls := [], stallRun := 0, held := [], skip := none, resume := false,
    halted := false, landed := false,
    inbound := [], taken := [], landings := [], released := [], launchOut := [], side := [], adds := [], ticks := 0, droops := [],
    treeIn := [], fill := none }

end Sys2Proof.Machine
end

