-- ==== Sys2Proof/Machine/Operands.lean ====
section
/-! DEFINITION. Operand forms of the core: format codes (R125), element packing (R40, R113), products and the accumulator
(R41, R43, R47, R48, R69, R70), readout (R51 to R56, R60, R61, R140), conversions (R44, R45, R148 to R150), the counter
generator (R73) and its uses (R58, R59). -/

namespace Sys2Proof.Machine

/-- Byte `i` of a value. -/
def byteAt {n : Nat} (x : BitVec n) (i : Nat) : Nat := x.toNat / 2 ^ (8 * i) % 256

/-- Bits lo + w − 1 : lo of a natural number. -/
def bitsAt (x lo w : Nat) : Nat := x / 2 ^ lo % 2 ^ w

/-- Lane `i` of width `w` bits of a vector register (R135). -/
def laneAt (x : BitVec 512) (w i : Nat) : Nat := bitsAt x.toNat (w * i) w

/-- A vector register from the lanes of width `w` that `f` gives, `n` of them. -/
def packLanes (w n : Nat) (f : Nat → Nat) : Nat :=
  (List.range n).foldr (fun i acc => acc * 2 ^ w + f i % 2 ^ w) 0

/-- The number of rounding mode code rm (R135). -/
def rmOf (rm : BitVec 2) : Rm := if rm = 0 then .rne else if rm = 1 then .rtz else .sr

/-- The floating-point element format of a code of R125, if it has one. -/
def floatOf (fmt : BitVec 4) : Option FloatFmt :=
  match fmt.toNat with
  | 0 | 9 => some fmtE4M3
  | 1 | 10 => some fmtE5M2
  | 2 | 11 => some fmtE2M3
  | 3 | 12 => some fmtE3M2
  | 4 | 13 => some fmtE2M1
  | 7 => some fmtBF16
  | 8 => some fmtF16
  | _ => none

/-- Bits of one element in registers and stages (R125): 8, 6, 4 or 16. -/
def fmtBits (fmt : BitVec 4) : Nat :=
  match fmt.toNat with
  | 0 | 1 | 5 | 9 | 10 | 14 => 8
  | 2 | 3 | 11 | 12 => 6
  | 4 | 6 | 13 | 15 => 4
  | _ => 16

/-- Whether a format is block-scaled (R125). -/
def fmtScaled (fmt : BitVec 4) : Bool := decide (9 ≤ fmt.toNat)

/-- The exponent an integer format's implied scale adds (R42). -/
def intScale (fmt : BitVec 4) : Int := if fmt.toNat = 14 then -6 else if fmt.toNat = 15 then -2 else 0

/-- A two's-complement integer of `w` bits. -/
def sintOf (w x : Nat) : Int := if x % 2 ^ w < 2 ^ (w - 1) then (x % 2 ^ w : Nat) else (x % 2 ^ w : Nat) - (2 ^ w : Nat)

/-- The value of an element of format `fmt` under scale byte `sc` (R39, R42, R43); the scale matters only for a
block-scaled format. -/
def elemVal (fmt : BitVec 4) (x sc : Nat) : Val :=
  let base : Val :=
    match floatOf fmt with
    | some f => f.decode (x % 2 ^ f.width)
    | none =>
      let i := sintOf (fmtBits fmt) x
      .fin (decide (i < 0)) i.natAbs (intScale fmt)
  if fmtScaled fmt then
    if sc = 0xFF then .nan
    else match base with
      | .fin s m e => .fin s m (e + (sc : Int) - 127)
      | v => v
  else base

/-- How many k one mma of this width consumes (R112). -/
def kPer (bits : Nat) : Nat := if bits = 4 then 16 else if bits = 16 then 2 else 8

/-- Element n of a 6-bit packed array (R40): four elements per three bytes. -/
def sixAt (x n : Nat) : Nat := bitsAt x (24 * (n / 4) + 6 * (n % 4)) 6

/-- Weight W[k][j] of a stage in format `fmt` (R112). -/
def weightAt (fmt : BitVec 4) (st : Stage) (k j : Nat) : Nat :=
  let n := 16 * k + j
  match fmtBits fmt with
  | 6 => sixAt st.elems.toNat n
  | 4 => bitsAt st.elems.toNat (4 * n) 4
  | 16 => bitsAt st.elems.toNat (16 * n) 16
  | _ => bitsAt st.elems.toNat (8 * n) 8

/-- Activation element a_k of segment `seg` (half-segment for 16-bit formats) of a vector register (R113, R114). -/
def activationAt (fmt : BitVec 4) (v : BitVec 512) (seg k : Nat) : Nat :=
  match fmtBits fmt with
  | 6 => bitsAt v.toNat (64 * seg + 8 * k) 6
  | 4 => bitsAt v.toNat (64 * seg + 4 * k) 4
  | 16 => bitsAt v.toNat (32 * seg + 16 * k) 16
  | _ => bitsAt v.toNat (64 * seg + 8 * k) 8

/-- The residue of a 144-bit sum: the end-around-carry sum of its nine 16-bit pieces (R70). -/
def residueOf (x : Nat) : Nat := x % 2 ^ 144 % 65535

/-- Residues add modulo 65,535 (R47). -/
def addResidue (a b : Nat) : Nat := (a + b) % 65535

/-- Nothing added to a lane. -/
def LaneAdd.zero : LaneAdd := ⟨0, 0, 0, false, false, false, false, false⟩

/-- The contribution of a finite value m × 2^e to a lane with this anchor (R47, R62, R63). -/
def alignAdd (anchor : Int) (m : Int) (e : Int) : LaneAdd :=
  let t := BitVec.ofInt 144 (floorShift m (e - anchor))
  { LaneAdd.zero with t := t, res := BitVec.ofNat 16 (residueOf t.toNat), lost := floorLoses m (e - anchor) }

/-- The contribution of one product (R41, R47). -/
def productAdd (anchor : Int) (a b : Val) : LaneAdd :=
  match a, b with
  | .nan, _ => { LaneAdd.zero with nan := true }
  | _, .nan => { LaneAdd.zero with nan := true }
  | .inf s, .inf t => if s = t then { LaneAdd.zero with pos := true } else { LaneAdd.zero with neg := true }
  | .inf s, .fin t m _ =>
    if m = 0 then { LaneAdd.zero with nan := true }
    else if s = t then { LaneAdd.zero with pos := true } else { LaneAdd.zero with neg := true }
  | .fin s m _, .inf t =>
    if m = 0 then { LaneAdd.zero with nan := true }
    else if s = t then { LaneAdd.zero with pos := true } else { LaneAdd.zero with neg := true }
  | .fin s m e, .fin t n d => alignAdd anchor (signedInt (xor s t) (m * n)) (e + d)

/-- The wraparounds of a sum modulo 2^144 beside those of its two parts, modulo 65,535. -/
def addWraps (x y : BitVec 144) (a b : BitVec 16) : BitVec 16 :=
  BitVec.ofNat 16 ((a.toNat + b.toNat + (x.toNat + y.toNat) / 2 ^ 144) % 65535)

/-- R70's comparison: the residue of a sum, with the wraparounds counted back (2^144 is 1 modulo 65,535), equals the residue kept;
0x0000 and 0xFFFF count as equal (DESIGN CHOICE, log 146: R70 calls the residue consistent after a wraparound). -/
def residueAgrees (sum : BitVec 144) (res wraps : BitVec 16) : Bool :=
  decide ((residueOf sum.toNat + wraps.toNat) % 65535 = res.toNat % 65535)

/-- Two contributions taken together: sums and residues add, flags combine by OR (R49). -/
def LaneAdd.plus (a b : LaneAdd) : LaneAdd :=
  { t := a.t + b.t, res := BitVec.ofNat 16 (addResidue a.res.toNat b.res.toNat), wraps := addWraps a.t b.t a.wraps b.wraps,
    lost := a.lost || b.lost, nan := a.nan || b.nan, pos := a.pos || b.pos, neg := a.neg || b.neg, chk := a.chk || b.chk }

/-- A contribution added into a lane (R47). The new sum's residue is compared with the lane's (R70); a difference, or a failed check the
contribution brings, sets chk_fail (R71). -/
def Lane.add (l : Lane) (a : LaneAdd) : Lane :=
  let sum := l.sum + a.t
  let res := BitVec.ofNat 16 (addResidue l.res.toNat a.res.toNat)
  let wraps := addWraps l.sum a.t l.wraps a.wraps
  { sum := sum, res := res, wraps := wraps, lost := l.lost || a.lost, chk := l.chk || a.chk || !residueAgrees sum res wraps,
    nan := l.nan || a.nan, pos := l.pos || a.pos, neg := l.neg || a.neg }

/-- What one mma adds into each of the 16 lanes of an entry (R114): every product formed, classified and floored
separately. `chk` marks the lanes whose checks fail. -/
def mmaLanes (fmt : BitVec 4) (anchor : Int) (v : BitVec 512) (scales : BitVec 64) (seg : Nat) (st : Stage)
    (chk : BitVec 16) : List LaneAdd :=
  (List.range 16).map fun j =>
    let sum := (List.range (kPer (fmtBits fmt))).foldl (fun acc k =>
      acc.plus (productAdd anchor (elemVal fmt (activationAt fmt v seg k) (byteAt scales seg))
        (elemVal st.fmt (weightAt st.fmt st k j) (byteAt st.scales j)))) LaneAdd.zero
    { sum with chk := chk.getLsbD j }

/-- The group of a format for R115: formats of one group pair with each other. -/
def pairGroup (fmt : BitVec 4) : Nat :=
  match fmt.toNat with
  | 0 | 1 | 2 | 3 => 0
  | 9 | 10 | 11 | 12 => 1
  | 7 | 8 => 2
  | n => 16 + n

/-- Whether an activation format and a stage's format tag pair (R115). -/
def fmtPair (act stage : BitVec 4) : Bool := decide (pairGroup act = pairGroup stage)

/-- Whether a stage is full (R109). -/
def Stage.full (s : Stage) : Bool :=
  s.half0 && (s.half1 || decide (fmtBits s.fmt = 16)) && (s.scl || !fmtScaled s.fmt)

/-- Whether a stage is empty (R109). -/
def Stage.isEmpty (s : Stage) : Bool := !s.half0 && !s.half1 && !s.scl

/-- A part written into a stage (R156): 0 and 1 are the 64-byte halves, 2 the scales. -/
def Stage.fill (s : Stage) (fmt : BitVec 4) (part : Nat) (data : BitVec 512) : Stage :=
  let s := { s with fmt := fmt }
  if part = 0 then
    { s with elems := (s.elems.extractLsb' 512 512 ++ data), half0 := true }
  else if part = 1 then
    { s with elems := (data ++ s.elems.extractLsb' 0 512), half1 := true }
  else { s with scales := data.extractLsb' 0 128, scl := true }

/-! ### The counter generator -/

/-- The rotation amounts of round r (R73). -/
def bcgRot (r : Nat) : Nat × Nat :=
  match (r - 1) % 4 with
  | 0 => (7, 19)
  | 1 => (13, 26)
  | 2 => (22, 11)
  | _ => (17, 5)

/-- The four state words of the generator. -/
abbrev Bcg := BitVec 32 × BitVec 32 × BitVec 32 × BitVec 32

/-- Key word i of the five (R73). -/
def bcgKey (k : Bcg) (i : Nat) : BitVec 32 :=
  match i % 5 with
  | 0 => k.1
  | 1 => k.2.1
  | 2 => k.2.2.1
  | 3 => k.2.2.2
  | _ => 0xC5A38E17#32 ^^^ k.1 ^^^ k.2.1 ^^^ k.2.2.1 ^^^ k.2.2.2

/-- Round r of the generator (R73): the mix, the swap of the odd words, and the key injection after rounds 3, 7 and 11. -/
def bcgRound (k : Bcg) (r : Nat) (x : Bcg) : Bcg :=
  let (a, b) := bcgRot r
  let x0 := x.1 + x.2.1
  let x1 := x.2.1.rotateLeft a ^^^ x0
  let x2 := x.2.2.1 + x.2.2.2
  let x3 := x.2.2.2.rotateLeft b ^^^ x2
  if r = 3 ∨ r = 7 ∨ r = 11 then
    let s := (r + 1) / 4
    (x0 + bcgKey k s, x3 + bcgKey k (s + 1), x2 + bcgKey k (s + 2), x1 + bcgKey k (s + 3) + BitVec.ofNat 32 s)
  else (x0, x3, x2, x1)

/-- The Beney counter generator (R73): twelve rounds. -/
def bcg (k c : Bcg) : Bcg := (List.range 12).foldl (fun x i => bcgRound k (i + 1) x) c

/-- Output word i of the generator. -/
def bcgWord (y : Bcg) (i : Nat) : BitVec 32 :=
  match i % 4 with
  | 0 => y.1
  | 1 => y.2.1
  | 2 => y.2.2.1
  | _ => y.2.2.2

/-- What the generator instructions read of a core: keys, tensor id and step (R58). -/
structure Seed where
  key    : Bcg
  tensor : BitVec 32
  step   : BitVec 64
deriving DecidableEq, Repr

/-- One evaluation at counter word c0, with bit 31 of the tensor word given (R58, R152). -/
def Seed.eval (g : Seed) (c0 : BitVec 32) (domain : Bool) : Bcg :=
  bcg g.key (c0, (g.tensor &&& 0x7FFFFFFF#32) ||| (if domain then 0x80000000#32 else 0), g.step.extractLsb' 0 32,
    g.step.extractLsb' 32 32)

/-- The 24 random bits of element e for stochastic rounding (R58). -/
def Seed.rnd24 (g : Seed) (e : BitVec 32) : Nat :=
  (bcgWord (g.eval (e / 4) false) (e.toNat % 4)).toNat % 2 ^ 24

/-- The 16 mask bits of element e (R58). -/
def Seed.rnd16 (g : Seed) (e : BitVec 32) : Nat :=
  let w := bcgWord (g.eval (e / 8) true) (e.toNat % 8 / 2)
  w.toNat / 2 ^ (16 * (e.toNat % 2)) % 2 ^ 16

/-! ### Readout -/

/-- The bytes a readout delivers (R140): their number, and the byte of the register chunk they start at. A target and
position that the table does not list answer none. -/
def readoutShape (tgt : BitVec 4) (pos : BitVec 3) : Option (Nat × Nat) :=
  let p := pos.toNat
  match tgt.toNat with
  | 0 => if p = 0 then some (64, 0) else none
  | 1 | 2 => if p ≤ 1 then some (32, 32 * p) else none
  | 3 | 4 => if p ≤ 3 then some (16, 16 * p) else none
  | 5 => if p ≤ 3 then some (64, 0) else if p = 4 then some (32, 0) else none
  | 6 => if p ≤ 1 then some (64, 0) else none
  | _ => none

/-- The rounded targets of R140. -/
def readoutFmt (tgt : BitVec 4) : FloatFmt :=
  match tgt.toNat with
  | 0 => fmtF32
  | 1 => fmtBF16
  | 2 => fmtF16
  | 3 => fmtE4M3
  | _ => fmtE5M2

/-- Whether bits 143:128 of a sum differ from bit 127 (R51, step 4). -/
def sumOverflows (sum : BitVec 144) : Bool := decide (sum.toInt < -(2 ^ 127) ∨ 2 ^ 127 ≤ sum.toInt)

/-- The infinity a rounded target reads out: for E4M3 ±448 when saturating, else NaN (R54, R55). -/
def readInf (e4m3 : Bool) (f : FloatFmt) (sat neg : Bool) : Nat :=
  if e4m3 then (if sat then f.signBit neg + f.maxEnc else 0x7F) else f.signBit neg + f.infEnc

/-- The canonical NaN of a target (R55). -/
def readNan (e4m3 : Bool) (f : FloatFmt) : Nat := if e4m3 then 0x7F else f.infEnc + 2 ^ (f.mbits - 1)

/-- The overflow result of rounding (R53). -/
def overResult (e4m3 : Bool) (f : FloatFmt) (rm : Rm) (sat neg : Bool) : Nat :=
  if e4m3 then (if sat ∨ rm = .rtz then f.signBit neg + f.maxEnc else 0x7F)
  else f.signBit neg + (if rm = .rtz then f.maxEnc else f.infEnc)

/-- Readout of one lane into a rounded target (R51 to R55). -/
def readLane (tgt : BitVec 4) (rm : Rm) (sat : Bool) (rnd : Nat) (anchor : Int) (l : Lane) : Nat :=
  let f := readoutFmt tgt
  let e4m3 := decide (tgt.toNat = 3)
  if l.nan || (l.pos && l.neg) then readNan e4m3 f
  else if l.pos then readInf e4m3 f sat false
  else if l.neg then readInf e4m3 f sat true
  else if sumOverflows l.sum then readInf e4m3 f sat (decide (l.sum.toInt < 0))
  else if l.sum = 0 then 0
  else
    let neg := decide (l.sum.toInt < 0)
    let r := f.round rm rnd l.sum.toInt.natAbs anchor
    if r.above then overResult e4m3 f rm sat neg else f.signBit neg + r.enc

/-- The X144 image of an entry (R60, R140): 18 bytes a lane, lane 0 first. -/
def x144Image (q : QEntry) : Nat := packLanes 144 16 fun j => (q.lane j).sum.toNat

/-- The X64 value of a lane at offset o (R61). -/
def x64Of (off : Nat) (l : Lane) : Nat := bitsAt l.sum.toNat off 64

/-- Whether bits 143:o + 64 of a sum are not all equal to bit o + 63 (R61). -/
def x64Overflows (off : Nat) (l : Lane) : Bool :=
  let hi := l.sum.toNat / 2 ^ (off + 63)
  decide (hi ≠ 0 ∧ hi ≠ 2 ^ (81 - off) - 1)

/-- The bytes a readout delivers, as a number with byte 0 in bits 7:0 (R140, R142). -/
def readoutBytes (tgt : BitVec 4) (pos : BitVec 3) (rm : Rm) (sat : Bool) (off : Nat) (g : Seed) (sb : BitVec 32)
    (q : QEntry) : Nat :=
  match tgt.toNat with
  | 5 => bitsAt (x144Image q) (512 * pos.toNat) (if pos.toNat = 4 then 256 else 512)
  | 6 => packLanes 64 8 fun j => x64Of off (q.lane (8 * pos.toNat + j))
  | _ =>
    let f := readoutFmt tgt
    packLanes f.width 16 fun j =>
      readLane tgt rm sat (if rm = .sr then g.rnd24 (sb + BitVec.ofNat 32 j) else 0) q.anchor.toInt (q.lane j)

/-- A 16-lane mask. -/
def mask16 (f : Nat → Bool) : Nat := packLanes 1 16 fun j => if f j then 1 else 0

/-- The overflow mask of R56 for a target; 0xF stands for qstat (R144). -/
def overflowMask (tgt : BitVec 4) (off : Nat) (q : QEntry) : Nat :=
  mask16 fun j =>
    let l := q.lane j
    match tgt.toNat with
    | 5 => sumOverflows l.sum
    | 6 => x64Overflows off l
    | _ => !l.nan && !l.pos && !l.neg && sumOverflows l.sum

/-- The status pair of R143: overflow and special in the first word, lost and check in the second. -/
def statusPair (tgt : BitVec 4) (off : Nat) (q : QEntry) : BitVec 32 × BitVec 32 :=
  let special := mask16 fun j => (q.lane j).nan || (q.lane j).pos || (q.lane j).neg
  let lost := mask16 fun j =>
    (q.lane j).lost || (decide (tgt.toNat = 6) && decide ((q.lane j).sum.toNat % 2 ^ off ≠ 0))
  let check := mask16 fun j => (q.lane j).chk
  (BitVec.ofNat 32 (overflowMask tgt off q + 2 ^ 16 * special), BitVec.ofNat 32 (lost + 2 ^ 16 * check))

/-! ### Conversions -/

/-- How many elements a conversion moves, how many bytes they take, and the largest position (R148): narrowing. -/
def narrowShape (fmt : BitVec 4) : Nat × Nat × Nat :=
  match fmtBits fmt, fmtScaled fmt with
  | 16, _ => (16, 32, 1)
  | 4, false => (16, 8, 7)
  | 4, true => (32, 16, 3)
  | _, false => (16, 16, 3)
  | _, true => (32, 32, 1)

/-- Bits one element takes inside a vector register (R113, R148). -/
def regBits (fmt : BitVec 4) : Nat := if fmtBits fmt = 6 then 8 else fmtBits fmt

/-- The largest encoding of a format without infinities, by sign (R44, R45). -/
def satEnc (fmt : BitVec 4) (neg : Bool) : Nat :=
  match floatOf fmt with
  | some f => f.signBit neg + f.maxEnc
  | none => if fmtBits fmt = 4 then (if neg then 8 else 7) else (if neg then 128 else 127)

/-- A finite value m × 2^e rounded to a two's-complement integer of format `fmt` (R44, R45, R149), saturating. -/
def narrowInt (fmt : BitVec 4) (rm : Rm) (rnd : Nat) (neg : Bool) (m : Nat) (e : Int) : LaneRes :=
  let w := fmtBits fmt
  let (t, inx) := roundAt rm rnd m e 0
  if (neg ∧ t > 2 ^ (w - 1)) ∨ (¬neg ∧ t > 2 ^ (w - 1) - 1) then (satEnc fmt neg, fOverflow ||| fInexact)
  else ((if neg then (2 ^ w - t) % 2 ^ w else t), if inx then fInexact else 0)

/-- A finite value rounded to a floating-point element that saturates (R44, R45). -/
def narrowSat (f : FloatFmt) (rm : Rm) (rnd : Nat) (neg : Bool) (m : Nat) (e : Int) : LaneRes :=
  if m = 0 then (f.signBit neg, 0)
  else
    let r := f.round rm rnd m e
    if r.above then (f.signBit neg + f.maxEnc, fOverflow ||| fInexact) else (f.signBit neg + r.enc, r.flags)

/-- Narrowing of binary32 bits into a plain format (R45, R149). -/
def narrowPlain (rev1 : Bool) (fmt : BitVec 4) (rm : Rm) (sat : Bool) (rnd : Nat) (a : Nat) : LaneRes :=
  let neg := a.testBit 31
  match fmt.toNat with
  | 7 => narrowIeee rev1 fmtBF16 rm rnd a
  | 8 => narrowIeee rev1 fmtF16 rm rnd a
  | 0 | 1 =>
    let f := if fmt = 0 then fmtE4M3 else fmtE5M2
    match fmtF32.decode a with
    | .nan => (readNan (fmt = 0) f, snanFlag [a])
    | .inf _ => (readInf (fmt = 0) f sat neg, 0)
    | .fin _ m e =>
      if m = 0 then (f.signBit neg, 0)
      else
        let r := f.round rm rnd m e
        if r.above then (overResult (fmt = 0) f rm sat neg, r.flags) else (f.signBit neg + r.enc, r.flags)
  | _ =>
    match fmtF32.decode a with
    | .nan => (0, fInvalid)
    | .inf _ => (satEnc fmt neg, fInvalid)
    | .fin _ m e =>
      match floatOf fmt with
      | some f => narrowSat f rm rnd neg m e
      | none => narrowInt fmt rm rnd neg m e

/-- The exponent of a block-scaled format's largest normal element (R44). -/
def emaxEl (fmt : BitVec 4) : Int :=
  match fmt.toNat with
  | 9 => 8
  | 10 => 15
  | 11 => 2
  | 12 => 4
  | 13 => 2
  | _ => 0

/-- The scale code of a block of binary32 inputs (R44). -/
def blockScale (fmt : BitVec 4) (xs : List Nat) : Nat :=
  if xs.any (fun x => decide (x % 2 ^ 31 ≥ 0x7F800000)) then 0xFF
  else
    let amax := xs.foldl (fun acc x => max acc (x % 2 ^ 31)) 0
    if amax = 0 then 0
    else
      match fmtF32.decode amax with
      | .fin _ m e =>
        let k := e + (Nat.log2 m : Int) - emaxEl fmt
        ((if k < -127 then -127 else if k > 127 then 127 else k) + 127).toNat
      | _ => 0xFF

/-- Narrowing of one element of a block under scale code `sc` (R44, R149). -/
def narrowBlock (fmt : BitVec 4) (sc : Nat) (rm : Rm) (rnd : Nat) (a : Nat) : LaneRes :=
  if sc = 0xFF then (0, 0)
  else
    let neg := a.testBit 31
    match fmtF32.decode a with
    | .fin _ m e =>
      let e := e - ((sc : Int) - 127)
      match floatOf fmt with
      | some f => narrowSat f rm rnd neg m e
      | none => narrowInt fmt rm rnd neg m (e - intScale fmt)
    | _ => (0, 0)

/-- Widening of one element to binary32 bits (R150). -/
def widenElem (rev1 : Bool) (fmt : BitVec 4) (x sc : Nat) : LaneRes :=
  if fmt.toNat = 7 ∨ fmt.toNat = 8 then
    let f := if fmt.toNat = 7 then fmtBF16 else fmtF16
    match f.decode x with
    | .nan =>
      let quiet := x.testBit (f.mbits - 1)
      (if rev1 then
         fmtF32.signBit (x.testBit 15) + 0x7F800000 + ((x % 2 ^ f.mbits) * 2 ^ (23 - f.mbits) ||| 0x400000)
       else canonNan, if quiet then 0 else fInvalid)
    | .inf neg => (f32Inf neg, 0)
    | .fin neg m e => roundF32 neg m e
  else
    match elemVal fmt x sc with
    | .nan => (canonNan, 0)
    | .inf neg => (f32Inf neg, 0)
    | .fin neg m e => roundF32 neg m e

end Sys2Proof.Machine
end

