-- ==== Sys2Proof/Machine/Regs.lean ====
section
/-! DEFINITION. The register maps of the spec as data: where every control register lies (R28, R74, R90, R118, R166, R176,
R183, R229, R236, R237, R268, R301, R344, R373, R394, R404, R436, R470, R509, R539) and which fields it has, with each
field's bits, its Reset column value and its access code (R9, R10). Fields marked rsv hold nothing: they read zero and
are not listed. "fused" values are those of a KM1-12A part (notes/assumptions/6.md). -/

namespace Sys2Proof.Machine

/-- The access codes of R10. -/
inductive Access where
  | ro
  | rw
  | rw1c
  | wo
  | rc
deriving DecidableEq, Repr

/-- One field of a register: its lowest bit, its width, its value after power-on reset and its access code. -/
structure Fld where
  lo    : Nat
  width : Nat
  reset : Nat
  acc   : Access
deriving DecidableEq, Repr

/-- Register block of the island with package-wide number `n` (R236). -/
def islBase (n : Nat) : Nat := 0x38000000000 + 0x200000 * n
/-- Register block of field `f` (R239). -/
def fldBase (f : Nat) : Nat := 0x31000000000 + 0x1000000 * f
/-- Register block of port `p` (R301). -/
def prtBase (p : Nat) : Nat := 0x32000000000 + 0x1000000 * p
/-- The package fabric block (R301). -/
def fabBase : Nat := 0x32030000000
/-- The global memory unit's block (R373). -/
def gmuBase : Nat := 0x33000000000
/-- The beat-time block (R394). -/
def timBase : Nat := 0x34000000000
/-- The fault block (R436). -/
def fltBase : Nat := 0x35000000000
/-- The Ligature block (R470). -/
def secBase : Nat := 0x36000000000
/-- The Bocal block (R473). -/
def bocBase : Nat := 0x37000000000

/-- Address of ISL_BREATH. -/
def aIslBreath (n : Nat) : Nat := islBase n + 0x0000
/-- Address of ISL_PROGRESS. -/
def aIslProgress (n : Nat) : Nat := islBase n + 0x0008
/-- Address of ISL_CLOCK. -/
def aIslClock (n : Nat) : Nat := islBase n + 0x0010
/-- Address of ISL_STRETCH. -/
def aIslStretch (n : Nat) : Nat := islBase n + 0x0018
/-- Address of ISL_OVERRUN. -/
def aIslOverrun (n : Nat) : Nat := islBase n + 0x0020
/-- Address of ISL_THROTTLE. -/
def aIslThrottle (n : Nat) : Nat := islBase n + 0x0028
/-- Address of ISL_RESET. -/
def aIslReset (n : Nat) : Nat := islBase n + 0x0030
/-- Address of ISL_RESIDUE. -/
def aIslResidue (n : Nat) : Nat := islBase n + 0x0038
/-- Address of ISL_STALL_CNT. -/
def aIslStallCnt (n : Nat) : Nat := islBase n + 0x0200
/-- Address of ISL_STALL_CAUSE. -/
def aIslStallCause (n : Nat) : Nat := islBase n + 0x0208
/-- Address of ISL_STALL_LAST. -/
def aIslStallLast (n : Nat) : Nat := islBase n + 0x0210
/-- Address of ISL_STALL_FIRST. -/
def aIslStallFirst (n : Nat) : Nat := islBase n + 0x0218
/-- Address of ISL_STALL_LIMIT. -/
def aIslStallLimit (n : Nat) : Nat := islBase n + 0x0220
/-- Address of ISL_MBX_HOLD. -/
def aIslMbxHold (n : Nat) : Nat := islBase n + 0x0228
/-- Address of ISL_RMEM_LOG. -/
def aIslRmemLog (n : Nat) : Nat := islBase n + 0x0240
/-- Address of ISL_SUSP. -/
def aIslSusp (n : Nat) : Nat := islBase n + 0x0248
/-- Address of ISL_WAIT_LATE. -/
def aIslWaitLate (n : Nat) : Nat := islBase n + 0x0250
/-- Address of ISL_CORE_FAULT. -/
def aIslCoreFault (n u : Nat) : Nat := islBase n + 0x1000 + 0x20 * u
/-- Address of ISL_CORE_ECC. -/
def aIslCoreEcc (n u : Nat) : Nat := islBase n + 0x1008 + 0x20 * u
/-- Address of ISL_CORE_ISSUE. -/
def aIslCoreIssue (n u : Nat) : Nat := islBase n + 0x1010 + 0x20 * u
/-- Address of ISL_SYNC. -/
def aIslSync (n c : Nat) : Nat := islBase n + 0xC000 + 8 * c
/-- Address of ISL_PUT_BIND. -/
def aIslPutBind (n u ch : Nat) : Nat := islBase n + 0x20000 + 0x40 * u + 8 * ch
/-- Address of ISL_CALIB. -/
def aIslCalib (n code q : Nat) : Nat := islBase n + 0xE000 + 0x100 * (code - 12) + 8 * q
/-- Address of ISL_SW_STATUS. -/
def aIslSwStatus (n cl : Nat) : Nat := islBase n + 0x100000 + 0x10000 * cl + 0x1000
/-- Address of FLD_CHANNELS. -/
def aFldChannels (f : Nat) : Nat := fldBase f
/-- Address of FLD_STG_ECC. -/
def aFldStgEcc (f : Nat) : Nat := fldBase f + 0x0008
/-- Address of FLD_CH_ECC. -/
def aFldChEcc (f ch : Nat) : Nat := fldBase f + 0x0100 + 8 * ch
/-- Address of FLD_CH_STATE. -/
def aFldChState (f ch : Nat) : Nat := fldBase f + 0x0180 + 8 * ch
/-- Address of STM_STATUS. -/
def aStmStatus (f e : Nat) : Nat := fldBase f + 0x1000 + 0x20 * e
/-- Address of STM_FAULT. -/
def aStmFault (f e : Nat) : Nat := fldBase f + 0x1008 + 0x20 * e
/-- Address of STM_MOVED. -/
def aStmMoved (f e : Nat) : Nat := fldBase f + 0x1010 + 0x20 * e
/-- Address of STM_WAITED. -/
def aStmWaited (f e : Nat) : Nat := fldBase f + 0x1018 + 0x20 * e
/-- Address of STM_CTR. -/
def aStmCtr (f c : Nat) : Nat := fldBase f + 0x8000 + 8 * c
/-- Address of CRP_CONFIG. -/
def aCrpConfig (p : Nat) : Nat := prtBase p + 0x0000
/-- Address of CRP_DELAY. -/
def aCrpDelay (p : Nat) : Nat := prtBase p + 0x0008
/-- Address of CRP_LATE. -/
def aCrpLate (p : Nat) : Nat := prtBase p + 0x0010
/-- Address of CRP_ARRIVE. -/
def aCrpArrive (p : Nat) : Nat := prtBase p + 0x0018
/-- Address of CRP_FAULT. -/
def aCrpFault (p : Nat) : Nat := prtBase p + 0x0020
/-- Address of CRP_LQ_BIND. -/
def aCrpLqBind (p bank q : Nat) : Nat := prtBase p + 0x0400 + 0x200 * bank + 8 * q
/-- Address of CRP_LQ_STATE. -/
def aCrpLqState (p q : Nat) : Nat := prtBase p + 0x0800 + 8 * q
/-- Address of CRP_FABRIC. -/
def aCrpFabric : Nat := fabBase + 0x0000
/-- Address of CRP_DRONE. -/
def aCrpDrone : Nat := fabBase + 0x0008
/-- Address of CRP_PATCH_DIR. -/
def aCrpPatchDir : Nat := fabBase + 0x0010
/-- Address of CRP_PATCH_LOG. -/
def aCrpPatchLog : Nat := fabBase + 0x0018
/-- Address of CRP_STREAM_ERR. -/
def aCrpStreamErr : Nat := fabBase + 0x0020
/-- Address of CRP_CC. -/
def aCrpCc (i : Nat) : Nat := fabBase + 0x30000 + 8 * i
/-- Address of CRP_SEQ. -/
def aCrpSeq (i : Nat) : Nat := fabBase + 0x40000 + 8 * i
/-- Address of LNK_STATE. -/
def aLnkState (p : Nat) : Nat := prtBase p + 0x8000
/-- Address of LNK_LANES. -/
def aLnkLanes (p : Nat) : Nat := prtBase p + 0x8008
/-- Address of LNK_RTT. -/
def aLnkRtt (p : Nat) : Nat := prtBase p + 0x8010
/-- Address of LNK_REPLAY. -/
def aLnkReplay (p : Nat) : Nat := prtBase p + 0x8018
/-- Address of LNK_PARITY. -/
def aLnkParity (p : Nat) : Nat := prtBase p + 0x8020
/-- Address of LNK_CREDIT. -/
def aLnkCredit (p : Nat) : Nat := prtBase p + 0x8028
/-- Address of LNK_PARTNER. -/
def aLnkPartner (p : Nat) : Nat := prtBase p + 0x8030
/-- Address of LNK_EVENTS. -/
def aLnkEvents (p : Nat) : Nat := prtBase p + 0x8038
/-- Address of LNK_CTL. -/
def aLnkCtl (p : Nat) : Nat := prtBase p + 0x8040
/-- Address of LNK_WL_ERR. -/
def aLnkWlErr (p l : Nat) : Nat := prtBase p + 0x8100 + 8 * l
/-- Address of LNK_WL_OPT. -/
def aLnkWlOpt (p l : Nat) : Nat := prtBase p + 0x8180 + 8 * l
/-- Address of LNK_INJ_CTL. -/
def aLnkInjCtl (p : Nat) : Nat := prtBase p + 0x8200
/-- Address of LNK_INJ_DROP. -/
def aLnkInjDrop (p : Nat) : Nat := prtBase p + 0x8208
/-- Address of LNK_INJ_PARITY. -/
def aLnkInjParity (p : Nat) : Nat := prtBase p + 0x8210
/-- Address of LNK_INJ_ACK. -/
def aLnkInjAck (p : Nat) : Nat := prtBase p + 0x8218
/-- Address of LNK_INJ_REORDER. -/
def aLnkInjReorder (p : Nat) : Nat := prtBase p + 0x8220
/-- Address of GMU_CFG. -/
def aGmuCfg : Nat := gmuBase + 0x0000
/-- Address of GMU_SLICE. -/
def aGmuSlice : Nat := gmuBase + 0x0008
/-- Address of GMU_EPOCH. -/
def aGmuEpoch : Nat := gmuBase + 0x0010
/-- Address of GMU_THROTTLE. -/
def aGmuThrottle : Nat := gmuBase + 0x0018
/-- Address of GMU_TRACK. -/
def aGmuTrack : Nat := gmuBase + 0x0020
/-- Address of GMU_DROP. -/
def aGmuDrop : Nat := gmuBase + 0x0028
/-- Address of GMU_LATE. -/
def aGmuLate : Nat := gmuBase + 0x0030
/-- Address of GMU_DEDUP. -/
def aGmuDedup : Nat := gmuBase + 0x0038
/-- Address of GMU_FENCE. -/
def aGmuFence : Nat := gmuBase + 0x0040
/-- Address of GMU_ROUTE. -/
def aGmuRoute (bank i : Nat) : Nat := gmuBase + 0x10000 + 0x20000 * bank + 8 * i
/-- Address of TIM_BEAT. -/
def aTimBeat : Nat := timBase + 0x0000
/-- Address of TIM_INCR. -/
def aTimIncr : Nat := timBase + 0x0008
/-- Address of TIM_PHASE. -/
def aTimPhase : Nat := timBase + 0x0010
/-- Address of TIM_STATUS. -/
def aTimStatus : Nat := timBase + 0x0018
/-- Address of TIM_OFFSET. -/
def aTimOffset : Nat := timBase + 0x0020
/-- Address of TIM_TRIG. -/
def aTimTrig : Nat := timBase + 0x0028
/-- Address of TIM_TRIG_STATE. -/
def aTimTrigState : Nat := timBase + 0x0030
/-- Address of TIM_CORR. -/
def aTimCorr (p : Nat) : Nat := timBase + 0x0100 + 8 * p
/-- Address of TIM_TLQ_BEAT. -/
def aTimTlqBeat (p e : Nat) : Nat := timBase + 0x1000 + 0x80 * p + 0x20 * e
/-- Address of TIM_TLQ_CTL. -/
def aTimTlqCtl (p e : Nat) : Nat := timBase + 0x1008 + 0x80 * p + 0x20 * e
/-- Address of TIM_TLQ_MSG0. -/
def aTimTlqMsg0 (p e : Nat) : Nat := timBase + 0x1010 + 0x80 * p + 0x20 * e
/-- Address of TIM_TLQ_MSG1. -/
def aTimTlqMsg1 (p e : Nat) : Nat := timBase + 0x1018 + 0x80 * p + 0x20 * e
/-- Address of FLT_STATE. -/
def aFltState : Nat := fltBase + 0x0000
/-- Address of FLT_STEP. -/
def aFltStep : Nat := fltBase + 0x0008
/-- Address of FLT_TAG. -/
def aFltTag (t : Nat) : Nat := fltBase + 0x0008 + 8 * t
/-- Address of FLT_SUSP. -/
def aFltSusp : Nat := fltBase + 0x0028
/-- Address of FLT_THRESH. -/
def aFltThresh : Nat := fltBase + 0x0030
/-- Address of FLT_RECOVERY. -/
def aFltRecovery : Nat := fltBase + 0x0038
/-- Address of FLT_LEDGER. -/
def aFltLedger : Nat := fltBase + 0x0040
/-- Address of FLT_RING. -/
def aFltRing : Nat := fltBase + 0x0048
/-- Address of FLT_SUBST_DIR. -/
def aFltSubstDir : Nat := fltBase + 0x0050
/-- Address of FLT_SUBST. -/
def aFltSubst (i : Nat) : Nat := fltBase + 0x0100 + 8 * i
/-- Address of flt health. -/
def aFltHealth (k : Nat) : Nat := fltBase + 0x0200 + 8 * k
/-- Address of flt event. -/
def aFltEvent (i k : Nat) : Nat := fltBase + 0x10000 + 64 * i + 8 * k
/-- Address of FLT_CORE_CHK. -/
def aFltCoreChk (n u : Nat) : Nat := fltBase + 0x100000 + 8 * (1024 * n + u)
/-- Address of flt capture. -/
def aFltCapture (n cl r k : Nat) : Nat := fltBase + 0x10000000 + 0x1000 * (16 * n + cl) + 0x400 * r + 8 * k
/-- Address of SEC_STATE. -/
def aSecState : Nat := secBase + 0x0000
/-- Address of SEC_COUNTERS. -/
def aSecCounters : Nat := secBase + 0x0008
/-- Address of SEC_FWKEYS. -/
def aSecFwkeys : Nat := secBase + 0x0010
/-- Address of SEC_AUTH. -/
def aSecAuth : Nat := secBase + 0x0018
/-- Address of SEC_REFUSALS. -/
def aSecRefusals : Nat := secBase + 0x0020
/-- Address of SEC_MEAS. -/
def aSecMeas (i k : Nat) : Nat := secBase + 0x1000 + 0x40 * i + 8 * k
/-- Address of BOC_STATE. -/
def aBocState : Nat := bocBase + 0x0000
/-- Address of BOC_RESET_CAUSE. -/
def aBocResetCause : Nat := bocBase + 0x0008
/-- Address of BOC_ADMIT. -/
def aBocAdmit : Nat := bocBase + 0x0010
/-- Address of BOC_BRQ. -/
def aBocBrq : Nat := bocBase + 0x0018
/-- Address of BOC_CAPACITY. -/
def aBocCapacity : Nat := bocBase + 0x0100
/-- Address of BOC_REPRO_KEY. -/
def aBocReproKey : Nat := bocBase + 0x0108
/-- Address of BOC_BTABLE. -/
def aBocBtable : Nat := bocBase + 0x0300
/-- Address of BOC_BREATH. -/
def aBocBreath : Nat := bocBase + 0x0308
/-- Address of BOC_T_NEXT. -/
def aBocTNext : Nat := bocBase + 0x0310
/-- Address of BOC_SLIP. -/
def aBocSlip : Nat := bocBase + 0x0318
/-- Address of BOC_SLIP_CFG. -/
def aBocSlipCfg : Nat := bocBase + 0x0320
/-- Address of BOC_SETPOINT. -/
def aBocSetpoint : Nat := bocBase + 0x0328
/-- Address of BOC_FREQ_LOG. -/
def aBocFreqLog : Nat := bocBase + 0x0330
/-- Address of BOC_START_LOG. -/
def aBocStartLog : Nat := bocBase + 0x0338
/-- Address of BOC_POWER. -/
def aBocPower : Nat := bocBase + 0x0600
/-- Address of BOC_POWER_CFG. -/
def aBocPowerCfg : Nat := bocBase + 0x0608
/-- Address of BOC_THERMAL. -/
def aBocThermal : Nat := bocBase + 0x0610
/-- Address of BOC_COOLANT. -/
def aBocCoolant : Nat := bocBase + 0x0618
/-- Address of BOC_DISC. -/
def aBocDisc (p : Nat) : Nat := bocBase + 0x0400 + 8 * p
/-- Address of BOC_FIELD_TEMP. -/
def aBocFieldTemp (f : Nat) : Nat := bocBase + 0x0640 + 8 * f
/-- Address of route table. -/
def aRouteTable (n cl i k : Nat) : Nat := islBase n + 0x100000 + 0x10000 * cl + 16 * i + 8 * k
/-- Address of program store. -/
def aProgramStore (n cl i k : Nat) : Nat := islBase n + 0x100000 + 0x10000 * cl + 0x8000 + 16 * i + 8 * k
/-- Address of slot table. -/
def aSlotTable (p bank i : Nat) : Nat := prtBase p + 0x100000 + 0x80000 * bank + 8 * i
/-- Address of patch list. -/
def aPatchList (p i : Nat) : Nat := prtBase p + 0x200000 + 8 * i
/-- Address of stream table. -/
def aStreamTable (bank i k : Nat) : Nat := fabBase + 0x10000 + 0x10000 * bank + 16 * i + 8 * k

/-- ISL_BREATH.index. -/
def F.islBreath_index : Fld := ⟨0, 32, 0, .ro⟩
/-- ISL_BREATH.state. -/
def F.islBreath_state : Fld := ⟨32, 2, 0, .ro⟩
/-- ISL_BREATH.complete. -/
def F.islBreath_complete : Fld := ⟨34, 1, 0, .ro⟩
/-- ISL_BREATH.loads_done. -/
def F.islBreath_loadsDone : Fld := ⟨35, 1, 0, .ro⟩
/-- ISL_PROGRESS.lag. -/
def F.islProgress_lag : Fld := ⟨0, 32, 0, .ro⟩
/-- ISL_PROGRESS.position. -/
def F.islProgress_position : Fld := ⟨32, 32, 0, .ro⟩
/-- ISL_CLOCK.setpoint. -/
def F.islClock_setpoint : Fld := ⟨0, 5, 0, .ro⟩
/-- ISL_CLOCK.throttle. -/
def F.islClock_throttle : Fld := ⟨5, 3, 0, .ro⟩
/-- ISL_CLOCK.locked. -/
def F.islClock_locked : Fld := ⟨8, 1, 0, .ro⟩
/-- ISL_STRETCH.droop. -/
def F.islStretch_droop : Fld := ⟨0, 24, 0, .rc⟩
/-- ISL_STRETCH.window_max. -/
def F.islStretch_windowMax : Fld := ⟨24, 4, 0, .rc⟩
/-- ISL_STRETCH.excess. -/
def F.islStretch_excess : Fld := ⟨28, 12, 0, .rc⟩
/-- ISL_OVERRUN.crossing_cycles. -/
def F.islOverrun_crossingCycles : Fld := ⟨0, 32, 0, .rc⟩
/-- ISL_OVERRUN.behind. -/
def F.islOverrun_behind : Fld := ⟨32, 16, 0, .rc⟩
/-- ISL_OVERRUN.missed. -/
def F.islOverrun_missed : Fld := ⟨48, 8, 0, .rc⟩
/-- ISL_THROTTLE.cycles. -/
def F.islThrottle_cycles : Fld := ⟨0, 48, 0, .rc⟩
/-- ISL_RESET.req. -/
def F.islReset_req : Fld := ⟨0, 1, 0, .wo⟩
/-- ISL_RESET.pending. -/
def F.islReset_pending : Fld := ⟨1, 1, 0, .ro⟩
/-- ISL_RESIDUE.queues. -/
def F.islResidue_queues : Fld := ⟨0, 16, 0, .ro⟩
/-- ISL_RESIDUE.valid. -/
def F.islResidue_valid : Fld := ⟨16, 1, 0, .ro⟩
/-- ISL_STALL_CNT.count. -/
def F.islStallCnt_count : Fld := ⟨0, 32, 0, .ro⟩
/-- ISL_STALL_CNT.episodes. -/
def F.islStallCnt_episodes : Fld := ⟨32, 16, 0, .ro⟩
/-- ISL_STALL_CNT.max_run. -/
def F.islStallCnt_maxRun : Fld := ⟨48, 16, 0, .ro⟩
/-- ISL_STALL_CAUSE.mailbox_cycles. -/
def F.islStallCause_mailboxCycles : Fld := ⟨0, 21, 0, .ro⟩
/-- ISL_STALL_CAUSE.counter_cycles. -/
def F.islStallCause_counterCycles : Fld := ⟨21, 21, 0, .ro⟩
/-- ISL_STALL_CAUSE.crossing_cycles. -/
def F.islStallCause_crossingCycles : Fld := ⟨42, 21, 0, .ro⟩
/-- ISL_STALL_LAST.count. -/
def F.islStallLast_count : Fld := ⟨0, 32, 0, .ro⟩
/-- ISL_STALL_LAST.episodes. -/
def F.islStallLast_episodes : Fld := ⟨32, 16, 0, .ro⟩
/-- ISL_STALL_LAST.max_run. -/
def F.islStallLast_maxRun : Fld := ⟨48, 16, 0, .ro⟩
/-- ISL_STALL_FIRST.cyc. -/
def F.islStallFirst_cyc : Fld := ⟨0, 32, 0, .ro⟩
/-- ISL_STALL_FIRST.unit. -/
def F.islStallFirst_unit : Fld := ⟨32, 10, 0, .ro⟩
/-- ISL_STALL_FIRST.cause. -/
def F.islStallFirst_cause : Fld := ⟨42, 2, 0, .ro⟩
/-- ISL_STALL_FIRST.id. -/
def F.islStallFirst_id : Fld := ⟨44, 12, 0, .ro⟩
/-- ISL_STALL_FIRST.valid. -/
def F.islStallFirst_valid : Fld := ⟨56, 1, 0, .ro⟩
/-- ISL_STALL_LIMIT.cycles. -/
def F.islStallLimit_cycles : Fld := ⟨0, 32, 16777216, .rw⟩
/-- ISL_MBX_HOLD.cycles. -/
def F.islMbxHold_cycles : Fld := ⟨0, 32, 0, .rc⟩
/-- ISL_RMEM_LOG.status. -/
def F.islRmemLog_status : Fld := ⟨0, 8, 0, .rc⟩
/-- ISL_RMEM_LOG.op. -/
def F.islRmemLog_op : Fld := ⟨8, 3, 0, .rc⟩
/-- ISL_RMEM_LOG.unit. -/
def F.islRmemLog_unit : Fld := ⟨11, 10, 0, .rc⟩
/-- ISL_RMEM_LOG.count. -/
def F.islRmemLog_count : Fld := ⟨21, 16, 0, .rc⟩
/-- ISL_RMEM_LOG.valid. -/
def F.islRmemLog_valid : Fld := ⟨37, 1, 0, .rc⟩
/-- ISL_SUSP.reason. -/
def F.islSusp_reason : Fld := ⟨0, 16, 0, .ro⟩
/-- ISL_SUSP.unit. -/
def F.islSusp_unit : Fld := ⟨16, 10, 0, .ro⟩
/-- ISL_SUSP.count. -/
def F.islSusp_count : Fld := ⟨26, 16, 0, .ro⟩
/-- ISL_SUSP.valid. -/
def F.islSusp_valid : Fld := ⟨42, 1, 0, .ro⟩
/-- ISL_WAIT_LATE.count. -/
def F.islWaitLate_count : Fld := ⟨0, 32, 0, .rc⟩
/-- ISL_CORE_FAULT.code (R117, R118). -/
def F.islCoreFault_code : Fld := ⟨0, 8, 0, .ro⟩
/-- ISL_CORE_FAULT.slot. -/
def F.islCoreFault_slot : Fld := ⟨8, 2, 3, .ro⟩
/-- ISL_CORE_FAULT.addr. -/
def F.islCoreFault_addr : Fld := ⟨10, 11, 0, .ro⟩
/-- ISL_CORE_FAULT.more. -/
def F.islCoreFault_more : Fld := ⟨21, 1, 0, .ro⟩
/-- ISL_CORE_FAULT.cyc. -/
def F.islCoreFault_cyc : Fld := ⟨22, 32, 0, .ro⟩
/-- ISL_CORE_ECC.tm_corrected (R120). -/
def F.islCoreEcc_tmCorrected : Fld := ⟨0, 16, 0, .rc⟩
/-- ISL_CORE_ECC.is_corrected. -/
def F.islCoreEcc_isCorrected : Fld := ⟨16, 16, 0, .rc⟩
/-- ISL_CORE_ECC.tm_uncorrected. -/
def F.islCoreEcc_tmUncorrected : Fld := ⟨32, 4, 0, .rc⟩
/-- ISL_CORE_ECC.is_uncorrected. -/
def F.islCoreEcc_isUncorrected : Fld := ⟨36, 4, 0, .rc⟩
/-- ISL_CORE_ISSUE.addr. -/
def F.islCoreIssue_addr : Fld := ⟨0, 11, 0, .ro⟩
/-- ISL_CORE_ISSUE.state. -/
def F.islCoreIssue_state : Fld := ⟨11, 2, 0, .ro⟩
/-- ISL_CORE_ISSUE.prov. -/
def F.islCoreIssue_prov : Fld := ⟨13, 2, 0, .ro⟩
/-- ISL_SYNC.value. -/
def F.islSync_value : Fld := ⟨0, 32, 0, .ro⟩
/-- ISL_PUT_BIND.port. -/
def F.islPutBind_port : Fld := ⟨0, 6, 0, .rw⟩
/-- ISL_PUT_BIND.queue. -/
def F.islPutBind_queue : Fld := ⟨6, 6, 0, .rw⟩
/-- ISL_PUT_BIND.valid. -/
def F.islPutBind_valid : Fld := ⟨12, 1, 0, .rw⟩
/-- ISL_PUT_BIND.quarters. -/
def F.islPutBind_quarters : Fld := ⟨13, 2, 0, .ro⟩
/-- ISL_CALIB.fwd_meas. -/
def F.islCalib_fwdMeas : Fld := ⟨0, 4, 0, .ro⟩
/-- ISL_CALIB.ret_meas. -/
def F.islCalib_retMeas : Fld := ⟨4, 4, 0, .ro⟩
/-- ISL_CALIB.fwd. -/
def F.islCalib_fwd : Fld := ⟨8, 4, 0, .ro⟩
/-- ISL_CALIB.ret. -/
def F.islCalib_ret : Fld := ⟨12, 4, 0, .ro⟩
/-- ISL_CALIB.margin. -/
def F.islCalib_margin : Fld := ⟨16, 10, 0, .ro⟩
/-- ISL_CALIB.pass. -/
def F.islCalib_pass : Fld := ⟨26, 1, 0, .ro⟩
/-- ISL_CALIB.connected. -/
def F.islCalib_connected : Fld := ⟨27, 1, 0, .ro⟩
/-- ISL_CALIB.valid. -/
def F.islCalib_valid : Fld := ⟨28, 1, 0, .ro⟩
/-- ISL_SW_STATUS.state. -/
def F.islSwStatus_state : Fld := ⟨0, 2, 0, .ro⟩
/-- ISL_SW_STATUS.code. -/
def F.islSwStatus_code : Fld := ⟨2, 8, 0, .ro⟩
/-- ISL_SW_STATUS.word. -/
def F.islSwStatus_word : Fld := ⟨10, 11, 0, .ro⟩
/-- ISL_SW_STATUS.cyc. -/
def F.islSwStatus_cyc : Fld := ⟨21, 32, 0, .ro⟩
/-- FLD_CHANNELS.active. -/
def F.fldChannels_active : Fld := ⟨0, 16, 0, .ro⟩
/-- FLD_CHANNELS.count. -/
def F.fldChannels_count : Fld := ⟨16, 5, 0, .ro⟩
/-- FLD_CHANNELS.pending. -/
def F.fldChannels_pending : Fld := ⟨21, 16, 0, .ro⟩
/-- FLD_STG_ECC.corrected. -/
def F.fldStgEcc_corrected : Fld := ⟨0, 16, 0, .rc⟩
/-- FLD_STG_ECC.uncorrected. -/
def F.fldStgEcc_uncorrected : Fld := ⟨16, 8, 0, .rc⟩
/-- FLD_CH_ECC.corrected. -/
def F.fldChEcc_corrected : Fld := ⟨0, 16, 0, .rc⟩
/-- FLD_CH_ECC.uncorrected. -/
def F.fldChEcc_uncorrected : Fld := ⟨16, 8, 0, .rc⟩
/-- FLD_CH_ECC.link. -/
def F.fldChEcc_link : Fld := ⟨24, 16, 0, .rc⟩
/-- FLD_CH_ECC.ondie. -/
def F.fldChEcc_ondie : Fld := ⟨40, 16, 0, .rc⟩
/-- FLD_CH_STATE.state. -/
def F.fldChState_state : Fld := ⟨0, 3, 0, .ro⟩
/-- FLD_CH_STATE.hot. -/
def F.fldChState_hot : Fld := ⟨3, 1, 0, .ro⟩
/-- FLD_CH_STATE.over. -/
def F.fldChState_over : Fld := ⟨4, 1, 0, .ro⟩
/-- STM_STATUS.state. -/
def F.stmStatus_state : Fld := ⟨0, 2, 0, .ro⟩
/-- STM_STATUS.index. -/
def F.stmStatus_index : Fld := ⟨2, 10, 0, .ro⟩
/-- STM_STATUS.credits. -/
def F.stmStatus_credits : Fld := ⟨12, 4, 0, .ro⟩
/-- STM_FAULT.code. -/
def F.stmFault_code : Fld := ⟨0, 8, 0, .ro⟩
/-- STM_FAULT.index. -/
def F.stmFault_index : Fld := ⟨8, 10, 0, .ro⟩
/-- STM_FAULT.valid. -/
def F.stmFault_valid : Fld := ⟨18, 1, 0, .ro⟩
/-- STM_MOVED.bytes. -/
def F.stmMoved_bytes : Fld := ⟨0, 48, 0, .rc⟩
/-- STM_WAITED.cycles. -/
def F.stmWaited_cycles : Fld := ⟨0, 48, 0, .rc⟩
/-- STM_CTR.value. -/
def F.stmCtr_value : Fld := ⟨0, 32, 0, .ro⟩
/-- CRP_CONFIG.arrival. -/
def F.crpConfig_arrival : Fld := ⟨0, 10, 0, .ro⟩
/-- CRP_CONFIG.slot_bank. -/
def F.crpConfig_slotBank : Fld := ⟨10, 1, 0, .ro⟩
/-- CRP_CONFIG.lq_bank. -/
def F.crpConfig_lqBank : Fld := ⟨11, 1, 0, .ro⟩
/-- CRP_CONFIG.sched. -/
def F.crpConfig_sched : Fld := ⟨12, 2, 0, .ro⟩
/-- CRP_DELAY.physical. -/
def F.crpDelay_physical : Fld := ⟨0, 16, 0, .ro⟩
/-- CRP_DELAY.min_margin. -/
def F.crpDelay_minMargin : Fld := ⟨16, 8, 255, .rc⟩
/-- CRP_LATE.launches. -/
def F.crpLate_launches : Fld := ⟨0, 24, 0, .rc⟩
/-- CRP_LATE.held. -/
def F.crpLate_held : Fld := ⟨24, 24, 0, .rc⟩
/-- CRP_LATE.relays. -/
def F.crpLate_relays : Fld := ⟨48, 16, 0, .rc⟩
/-- CRP_ARRIVE.late. -/
def F.crpArrive_late : Fld := ⟨0, 24, 0, .rc⟩
/-- CRP_ARRIVE.overflow. -/
def F.crpArrive_overflow : Fld := ⟨24, 16, 0, .rc⟩
/-- CRP_ARRIVE.misrouted. -/
def F.crpArrive_misrouted : Fld := ⟨40, 16, 0, .rc⟩
/-- CRP_FAULT.code. -/
def F.crpFault_code : Fld := ⟨0, 8, 0, .ro⟩
/-- CRP_FAULT.slot. -/
def F.crpFault_slot : Fld := ⟨8, 23, 0, .ro⟩
/-- CRP_FAULT.valid. -/
def F.crpFault_valid : Fld := ⟨31, 1, 0, .ro⟩
/-- CRP_LQ_BIND.stream. -/
def F.crpLqBind_stream : Fld := ⟨0, 12, 0, .ro⟩
/-- CRP_LQ_BIND.valid. -/
def F.crpLqBind_valid : Fld := ⟨12, 1, 0, .ro⟩
/-- CRP_LQ_STATE.occupancy. -/
def F.crpLqState_occupancy : Fld := ⟨0, 3, 0, .ro⟩
/-- CRP_LQ_STATE.owed. -/
def F.crpLqState_owed : Fld := ⟨3, 21, 0, .ro⟩
/-- CRP_LQ_STATE.launched. -/
def F.crpLqState_launched : Fld := ⟨24, 32, 0, .ro⟩
/-- CRP_FABRIC.stream_bank. -/
def F.crpFabric_streamBank : Fld := ⟨0, 1, 0, .ro⟩
/-- CRP_FABRIC.detour_share. -/
def F.crpFabric_detourShare : Fld := ⟨1, 2, 0, .ro⟩
/-- CRP_FABRIC.patches. -/
def F.crpFabric_patches : Fld := ⟨3, 8, 0, .ro⟩
/-- CRP_DRONE.state. -/
def F.crpDrone_state : Fld := ⟨0, 48, 0, .ro⟩
/-- CRP_PATCH_DIR.base. -/
def F.crpPatchDir_base : Fld := ⟨5, 37, 0, .ro⟩
/-- CRP_PATCH_DIR.count. -/
def F.crpPatchDir_count : Fld := ⟨42, 16, 0, .ro⟩
/-- CRP_PATCH_LOG.activations. -/
def F.crpPatchLog_activations : Fld := ⟨0, 16, 0, .rc⟩
/-- CRP_PATCH_LOG.refused. -/
def F.crpPatchLog_refused : Fld := ⟨16, 16, 0, .rc⟩
/-- CRP_PATCH_LOG.last. -/
def F.crpPatchLog_last : Fld := ⟨32, 19, 0, .ro⟩
/-- CRP_STREAM_ERR.crc_fail. -/
def F.crpStreamErr_crcFail : Fld := ⟨0, 16, 0, .rc⟩
/-- CRP_STREAM_ERR.first. -/
def F.crpStreamErr_first : Fld := ⟨16, 12, 0, .ro⟩
/-- CRP_STREAM_ERR.valid. -/
def F.crpStreamErr_valid : Fld := ⟨28, 1, 0, .ro⟩
/-- CRP_CC.value. -/
def F.crpCc_value : Fld := ⟨0, 32, 0, .ro⟩
/-- CRP_SEQ.value. -/
def F.crpSeq_value : Fld := ⟨0, 32, 0, .ro⟩
/-- LNK_STATE.state. -/
def F.lnkState_state : Fld := ⟨0, 4, 0, .ro⟩
/-- LNK_STATE.lanes. -/
def F.lnkState_lanes : Fld := ⟨4, 4, 0, .ro⟩
/-- LNK_STATE.spare. -/
def F.lnkState_spare : Fld := ⟨8, 1, 0, .ro⟩
/-- LNK_STATE.spare_wl. -/
def F.lnkState_spareWl : Fld := ⟨9, 4, 15, .ro⟩
/-- LNK_STATE.retrain_pending. -/
def F.lnkState_retrainPending : Fld := ⟨13, 1, 0, .ro⟩
/-- LNK_STATE.leader. -/
def F.lnkState_leader : Fld := ⟨14, 1, 0, .ro⟩
/-- LNK_STATE.long_rtt. -/
def F.lnkState_longRtt : Fld := ⟨15, 1, 0, .ro⟩
/-- LNK_STATE.down_cause. -/
def F.lnkState_downCause : Fld := ⟨16, 3, 0, .ro⟩
/-- LNK_LANES.map. -/
def F.lnkLanes_map : Fld := ⟨0, 32, 0, .ro⟩
/-- LNK_LANES.failed. -/
def F.lnkLanes_failed : Fld := ⟨32, 9, 0, .ro⟩
/-- LNK_RTT.rtt. -/
def F.lnkRtt_rtt : Fld := ⟨0, 12, 0, .ro⟩
/-- LNK_RTT.skew. -/
def F.lnkRtt_skew : Fld := ⟨12, 10, 0, .ro⟩
/-- LNK_REPLAY.nak_replays. -/
def F.lnkReplay_nakReplays : Fld := ⟨0, 16, 0, .rc⟩
/-- LNK_REPLAY.go_backs. -/
def F.lnkReplay_goBacks : Fld := ⟨16, 16, 0, .rc⟩
/-- LNK_REPLAY.duplicates. -/
def F.lnkReplay_duplicates : Fld := ⟨32, 16, 0, .rc⟩
/-- LNK_REPLAY.beyond. -/
def F.lnkReplay_beyond : Fld := ⟨48, 8, 0, .rc⟩
/-- LNK_REPLAY.full. -/
def F.lnkReplay_full : Fld := ⟨56, 8, 0, .rc⟩
/-- LNK_PARITY.failed. -/
def F.lnkParity_failed : Fld := ⟨0, 32, 0, .rc⟩
/-- LNK_PARITY.window_max. -/
def F.lnkParity_windowMax : Fld := ⟨32, 11, 0, .rc⟩
/-- LNK_CREDIT.window. -/
def F.lnkCredit_window : Fld := ⟨0, 42, 0, .ro⟩
/-- LNK_CREDIT.low. -/
def F.lnkCredit_low : Fld := ⟨42, 6, 0, .ro⟩
/-- LNK_CREDIT.leaks. -/
def F.lnkCredit_leaks : Fld := ⟨48, 16, 0, .rc⟩
/-- LNK_PARTNER.serial. -/
def F.lnkPartner_serial : Fld := ⟨0, 64, 0, .ro⟩
/-- LNK_EVENTS.swaps. -/
def F.lnkEvents_swaps : Fld := ⟨0, 8, 0, .rc⟩
/-- LNK_EVENTS.retrains. -/
def F.lnkEvents_retrains : Fld := ⟨8, 8, 0, .rc⟩
/-- LNK_EVENTS.downs. -/
def F.lnkEvents_downs : Fld := ⟨16, 8, 0, .rc⟩
/-- LNK_EVENTS.withdrawn. -/
def F.lnkEvents_withdrawn : Fld := ⟨24, 8, 0, .rc⟩
/-- LNK_CTL.retrain. -/
def F.lnkCtl_retrain : Fld := ⟨0, 1, 0, .wo⟩
/-- LNK_WL_ERR.parity. -/
def F.lnkWlErr_parity : Fld := ⟨0, 16, 0, .rc⟩
/-- LNK_WL_ERR.fec_corrected. -/
def F.lnkWlErr_fecCorrected : Fld := ⟨16, 32, 0, .rc⟩
/-- LNK_WL_ERR.fec_failed. -/
def F.lnkWlErr_fecFailed : Fld := ⟨48, 8, 0, .rc⟩
/-- LNK_WL_OPT.rx_power. -/
def F.lnkWlOpt_rxPower : Fld := ⟨0, 16, 0, .ro⟩
/-- LNK_WL_OPT.tx_power. -/
def F.lnkWlOpt_txPower : Fld := ⟨16, 16, 0, .ro⟩
/-- LNK_WL_OPT.full. -/
def F.lnkWlOpt_full : Fld := ⟨32, 1, 0, .ro⟩
/-- LNK_WL_OPT.los. -/
def F.lnkWlOpt_los : Fld := ⟨33, 1, 1, .ro⟩
/-- LNK_INJ_CTL.permitted. -/
def F.lnkInjCtl_permitted : Fld := ⟨0, 1, 0, .ro⟩
/-- LNK_INJ_CTL.enable. -/
def F.lnkInjCtl_enable : Fld := ⟨1, 1, 0, .rw⟩
/-- LNK_INJ_CTL.count. -/
def F.lnkInjCtl_count : Fld := ⟨2, 1, 0, .rw⟩
/-- LNK_INJ_CTL.injected. -/
def F.lnkInjCtl_injected : Fld := ⟨3, 32, 0, .rc⟩
/-- LNK_INJ_DROP.n. -/
def F.lnkInjDrop_n : Fld := ⟨0, 16, 0, .rw⟩
/-- LNK_INJ_PARITY.lanes. -/
def F.lnkInjParity_lanes : Fld := ⟨0, 8, 0, .rw⟩
/-- LNK_INJ_PARITY.n. -/
def F.lnkInjParity_n : Fld := ⟨8, 16, 0, .rw⟩
/-- LNK_INJ_ACK.mode. -/
def F.lnkInjAck_mode : Fld := ⟨0, 2, 0, .rw⟩
/-- LNK_INJ_ACK.n. -/
def F.lnkInjAck_n : Fld := ⟨2, 16, 0, .rw⟩
/-- LNK_INJ_ACK.k. -/
def F.lnkInjAck_k : Fld := ⟨18, 10, 0, .rw⟩
/-- LNK_INJ_REORDER.n. -/
def F.lnkInjReorder_n : Fld := ⟨0, 16, 0, .rw⟩
/-- LNK_INJ_REORDER.hold. -/
def F.lnkInjReorder_hold : Fld := ⟨16, 12, 0, .rw⟩
/-- GMU_CFG.timeout. -/
def F.gmuCfg_timeout : Fld := ⟨0, 14, 200, .ro⟩
/-- GMU_CFG.admitted. -/
def F.gmuCfg_admitted : Fld := ⟨14, 1, 0, .ro⟩
/-- GMU_SLICE.low. -/
def F.gmuSlice_low : Fld := ⟨0, 14, 0, .ro⟩
/-- GMU_SLICE.extent_m1. -/
def F.gmuSlice_extentM1 : Fld := ⟨14, 14, 0, .ro⟩
/-- GMU_SLICE.own. -/
def F.gmuSlice_own : Fld := ⟨28, 3, 0, .ro⟩
/-- GMU_SLICE.torus_m1. -/
def F.gmuSlice_torusM1 : Fld := ⟨31, 14, 0, .ro⟩
/-- GMU_EPOCH.inject. -/
def F.gmuEpoch_inject : Fld := ⟨0, 1, 0, .ro⟩
/-- GMU_EPOCH.bank0. -/
def F.gmuEpoch_bank0 : Fld := ⟨1, 2, 0, .ro⟩
/-- GMU_EPOCH.bank1. -/
def F.gmuEpoch_bank1 : Fld := ⟨3, 2, 0, .ro⟩
/-- GMU_EPOCH.changes. -/
def F.gmuEpoch_changes : Fld := ⟨5, 16, 0, .ro⟩
/-- GMU_THROTTLE.engaged. -/
def F.gmuThrottle_engaged : Fld := ⟨0, 1, 0, .ro⟩
/-- GMU_THROTTLE.rate. -/
def F.gmuThrottle_rate : Fld := ⟨1, 16, 32, .rw⟩
/-- GMU_THROTTLE.burst. -/
def F.gmuThrottle_burst : Fld := ⟨17, 16, 1024, .rw⟩
/-- GMU_THROTTLE.episodes. -/
def F.gmuThrottle_episodes : Fld := ⟨33, 16, 0, .rc⟩
/-- GMU_TRACK.open. -/
def F.gmuTrack_open : Fld := ⟨0, 24, 0, .ro⟩
/-- GMU_TRACK.retries. -/
def F.gmuTrack_retries : Fld := ⟨24, 24, 0, .rc⟩
/-- GMU_TRACK.timeouts. -/
def F.gmuTrack_timeouts : Fld := ⟨48, 16, 0, .rc⟩
/-- GMU_DROP.lifetime. -/
def F.gmuDrop_lifetime : Fld := ⟨0, 16, 0, .rc⟩
/-- GMU_DROP.epoch. -/
def F.gmuDrop_epoch : Fld := ⟨16, 16, 0, .rc⟩
/-- GMU_DROP.crc. -/
def F.gmuDrop_crc : Fld := ⟨32, 16, 0, .rc⟩
/-- GMU_DROP.noroute. -/
def F.gmuDrop_noroute : Fld := ⟨48, 16, 0, .rc⟩
/-- GMU_LATE.discarded. -/
def F.gmuLate_discarded : Fld := ⟨0, 32, 0, .rc⟩
/-- GMU_DEDUP.done_used. -/
def F.gmuDedup_doneUsed : Fld := ⟨0, 15, 0, .ro⟩
/-- GMU_DEDUP.put_used. -/
def F.gmuDedup_putUsed : Fld := ⟨15, 12, 0, .ro⟩
/-- GMU_DEDUP.dup_hits. -/
def F.gmuDedup_dupHits : Fld := ⟨27, 16, 0, .rc⟩
/-- GMU_DEDUP.busy. -/
def F.gmuDedup_busy : Fld := ⟨43, 16, 0, .rc⟩
/-- GMU_FENCE.fenced. -/
def F.gmuFence_fenced : Fld := ⟨0, 48, 0, .ro⟩
/-- GMU_FENCE.dropped. -/
def F.gmuFence_dropped : Fld := ⟨48, 16, 0, .rc⟩
/-- GMU_ROUTE.ports. -/
def F.gmuRoute_ports : Fld := ⟨0, 48, 0, .rw⟩
/-- GMU_ROUTE.valid. -/
def F.gmuRoute_valid : Fld := ⟨48, 1, 0, .rw⟩
/-- TIM_BEAT.beat. -/
def F.timBeat_beat : Fld := ⟨0, 64, 0, .ro⟩
/-- TIM_INCR.incr. -/
def F.timIncr_incr : Fld := ⟨0, 40, 27487790694, .rw⟩
/-- TIM_PHASE.step. -/
def F.timPhase_step : Fld := ⟨0, 64, 0, .wo⟩
/-- TIM_STATUS.root. -/
def F.timStatus_root : Fld := ⟨0, 1, 0, .ro⟩
/-- TIM_STATUS.locked. -/
def F.timStatus_locked : Fld := ⟨1, 1, 0, .ro⟩
/-- TIM_STATUS.holdover. -/
def F.timStatus_holdover : Fld := ⟨2, 1, 0, .ro⟩
/-- TIM_STATUS.parent. -/
def F.timStatus_parent : Fld := ⟨3, 6, 63, .ro⟩
/-- TIM_STATUS.depth. -/
def F.timStatus_depth : Fld := ⟨9, 6, 63, .ro⟩
/-- TIM_STATUS.refclk. -/
def F.timStatus_refclk : Fld := ⟨15, 1, 0, .ro⟩
/-- TIM_STATUS.refclk_fail. -/
def F.timStatus_refclkFail : Fld := ⟨16, 2, 0, .rw1c⟩
/-- TIM_STATUS.root_index. -/
def F.timStatus_rootIndex : Fld := ⟨18, 14, 0, .ro⟩
/-- TIM_STATUS.steps. -/
def F.timStatus_steps : Fld := ⟨32, 16, 0, .rc⟩
/-- TIM_OFFSET.offset. -/
def F.timOffset_offset : Fld := ⟨0, 32, 0, .ro⟩
/-- TIM_OFFSET.delay. -/
def F.timOffset_delay : Fld := ⟨32, 32, 0, .ro⟩
/-- TIM_TRIG.beat. -/
def F.timTrig_beat : Fld := ⟨0, 64, 0, .rw⟩
/-- TIM_TRIG_STATE.armed. -/
def F.timTrigState_armed : Fld := ⟨0, 1, 0, .ro⟩
/-- TIM_TRIG_STATE.late. -/
def F.timTrigState_late : Fld := ⟨1, 1, 0, .rw1c⟩
/-- TIM_TRIG_STATE.fired. -/
def F.timTrigState_fired : Fld := ⟨2, 32, 0, .ro⟩
/-- TIM_CORR.tx (fused). -/
def F.timCorr_tx : Fld := ⟨0, 16, 10568, .ro⟩
/-- TIM_CORR.rx (fused). -/
def F.timCorr_rx : Fld := ⟨16, 16, 12124, .ro⟩
/-- TIM_CORR.deskew. -/
def F.timCorr_deskew : Fld := ⟨32, 16, 0, .ro⟩
/-- TIM_TLQ_BEAT.value. -/
def F.timTlqBeat_value : Fld := ⟨0, 64, 0, .rw⟩
/-- TIM_TLQ_CTL.dest. -/
def F.timTlqCtl_dest : Fld := ⟨0, 14, 0, .rw⟩
/-- TIM_TLQ_CTL.bcast. -/
def F.timTlqCtl_bcast : Fld := ⟨14, 1, 0, .rw⟩
/-- TIM_TLQ_CTL.local. -/
def F.timTlqCtl_local : Fld := ⟨15, 1, 0, .rw⟩
/-- TIM_TLQ_CTL.arm. -/
def F.timTlqCtl_arm : Fld := ⟨16, 1, 0, .rw⟩
/-- TIM_TLQ_CTL.sent. -/
def F.timTlqCtl_sent : Fld := ⟨17, 1, 0, .ro⟩
/-- TIM_TLQ_CTL.late_slots. -/
def F.timTlqCtl_lateSlots : Fld := ⟨18, 12, 0, .ro⟩
/-- TIM_TLQ_MSG0.value. -/
def F.timTlqMsg0_value : Fld := ⟨0, 64, 0, .rw⟩
/-- TIM_TLQ_MSG1.value. -/
def F.timTlqMsg1_value : Fld := ⟨0, 64, 0, .rw⟩
/-- FLT_STATE.role. -/
def F.fltState_role : Fld := ⟨0, 2, 0, .ro⟩
/-- FLT_STATE.successor. -/
def F.fltState_successor : Fld := ⟨2, 2, 0, .ro⟩
/-- FLT_STATE.recovery. -/
def F.fltState_recovery : Fld := ⟨4, 3, 0, .ro⟩
/-- FLT_STATE.replaying. -/
def F.fltState_replaying : Fld := ⟨7, 1, 0, .ro⟩
/-- FLT_STATE.lead. -/
def F.fltState_lead : Fld := ⟨8, 14, 0, .ro⟩
/-- FLT_STEP.committed. -/
def F.fltStep_committed : Fld := ⟨0, 48, 0, .ro⟩
/-- FLT_STEP.entry. -/
def F.fltStep_entry : Fld := ⟨48, 16, 0, .ro⟩
/-- FLT_TAG.state. -/
def F.fltTag_state : Fld := ⟨0, 2, 0, .ro⟩
/-- FLT_TAG.regions. -/
def F.fltTag_regions : Fld := ⟨2, 14, 0, .ro⟩
/-- FLT_TAG.step. -/
def F.fltTag_step : Fld := ⟨16, 48, 0, .ro⟩
/-- FLT_SUSP.older. -/
def F.fltSusp_older : Fld := ⟨0, 8, 0, .ro⟩
/-- FLT_SUSP.newer. -/
def F.fltSusp_newer : Fld := ⟨8, 8, 0, .ro⟩
/-- FLT_THRESH.tile. -/
def F.fltThresh_tile : Fld := ⟨0, 8, 4, .rw⟩
/-- FLT_THRESH.staging. -/
def F.fltThresh_staging : Fld := ⟨8, 8, 16, .rw⟩
/-- FLT_THRESH.lpddr. -/
def F.fltThresh_lpddr : Fld := ⟨16, 8, 16, .rw⟩
/-- FLT_RECOVERY.restarts. -/
def F.fltRecovery_restarts : Fld := ⟨0, 16, 0, .rc⟩
/-- FLT_RECOVERY.promotions. -/
def F.fltRecovery_promotions : Fld := ⟨16, 8, 0, .rc⟩
/-- FLT_RECOVERY.replays. -/
def F.fltRecovery_replays : Fld := ⟨24, 16, 0, .rc⟩
/-- FLT_RECOVERY.disagreed. -/
def F.fltRecovery_disagreed : Fld := ⟨40, 8, 0, .rc⟩
/-- FLT_RECOVERY.swaps. -/
def F.fltRecovery_swaps : Fld := ⟨48, 8, 0, .rc⟩
/-- FLT_LEDGER.minutes. -/
def F.fltLedger_minutes : Fld := ⟨0, 32, 0, .ro⟩
/-- FLT_LEDGER.used. -/
def F.fltLedger_used : Fld := ⟨32, 20, 0, .ro⟩
/-- FLT_LEDGER.pending. -/
def F.fltLedger_pending : Fld := ⟨52, 8, 0, .ro⟩
/-- FLT_LEDGER.mirror_ok. -/
def F.fltLedger_mirrorOk : Fld := ⟨60, 1, 0, .ro⟩
/-- FLT_RING.head. -/
def F.fltRing_head : Fld := ⟨0, 32, 0, .ro⟩
/-- FLT_RING.read. -/
def F.fltRing_read : Fld := ⟨32, 16, 0, .rw⟩
/-- FLT_RING.overwritten. -/
def F.fltRing_overwritten : Fld := ⟨48, 16, 0, .rc⟩
/-- FLT_SUBST_DIR.base. -/
def F.fltSubstDir_base : Fld := ⟨5, 37, 0, .ro⟩
/-- FLT_SUBST_DIR.count. -/
def F.fltSubstDir_count : Fld := ⟨42, 16, 0, .ro⟩
/-- FLT_SUBST.lost. -/
def F.fltSubst_lost : Fld := ⟨0, 14, 0, .ro⟩
/-- FLT_SUBST.spare. -/
def F.fltSubst_spare : Fld := ⟨14, 14, 0, .ro⟩
/-- FLT_SUBST.valid. -/
def F.fltSubst_valid : Fld := ⟨28, 1, 0, .ro⟩
/-- FLT_HEALTH.word. -/
def F.fltHealth_word : Fld := ⟨0, 64, 0, .ro⟩
/-- FLT_EVENT.word. -/
def F.fltEvent_word : Fld := ⟨0, 64, 0, .ro⟩
/-- FLT_CORE_CHK.count. -/
def F.fltCoreChk_count : Fld := ⟨0, 32, 0, .ro⟩
/-- FLT_CAPTURE.word. -/
def F.fltCapture_word : Fld := ⟨0, 64, 0, .ro⟩
/-- SEC_STATE.owned. -/
def F.secState_owned : Fld := ⟨0, 1, 0, .ro⟩
/-- SEC_STATE.owner_gen. -/
def F.secState_ownerGen : Fld := ⟨1, 7, 0, .ro⟩
/-- SEC_STATE.locked (fused). -/
def F.secState_locked : Fld := ⟨8, 1, 1, .ro⟩
/-- SEC_STATE.debug. -/
def F.secState_debug : Fld := ⟨9, 1, 0, .ro⟩
/-- SEC_STATE.keys. -/
def F.secState_keys : Fld := ⟨10, 1, 0, .ro⟩
/-- SEC_STATE.slot. -/
def F.secState_slot : Fld := ⟨11, 1, 0, .ro⟩
/-- SEC_STATE.fallback. -/
def F.secState_fallback : Fld := ⟨12, 1, 0, .ro⟩
/-- SEC_STATE.trial. -/
def F.secState_trial : Fld := ⟨13, 1, 0, .ro⟩
/-- SEC_STATE.sessions. -/
def F.secState_sessions : Fld := ⟨14, 4, 0, .ro⟩
/-- SEC_COUNTERS.ctr0 (fused). -/
def F.secCounters_ctr0 : Fld := ⟨0, 7, 0, .ro⟩
/-- SEC_COUNTERS.ctr1 (fused). -/
def F.secCounters_ctr1 : Fld := ⟨8, 7, 0, .ro⟩
/-- SEC_COUNTERS.ctr2 (fused). -/
def F.secCounters_ctr2 : Fld := ⟨16, 7, 0, .ro⟩
/-- SEC_COUNTERS.ctr3 (fused). -/
def F.secCounters_ctr3 : Fld := ⟨24, 7, 0, .ro⟩
/-- SEC_FWKEYS.revoked (fused). -/
def F.secFwkeys_revoked : Fld := ⟨0, 4, 0, .ro⟩
/-- SEC_FWKEYS.signer. -/
def F.secFwkeys_signer : Fld := ⟨4, 2, 0, .ro⟩
/-- SEC_AUTH.verified. -/
def F.secAuth_verified : Fld := ⟨0, 32, 0, .rc⟩
/-- SEC_AUTH.failed. -/
def F.secAuth_failed : Fld := ⟨32, 16, 0, .rc⟩
/-- SEC_AUTH.port. -/
def F.secAuth_port : Fld := ⟨48, 6, 0, .ro⟩
/-- SEC_AUTH.valid. -/
def F.secAuth_valid : Fld := ⟨54, 1, 0, .ro⟩
/-- SEC_REFUSALS.signature. -/
def F.secRefusals_signature : Fld := ⟨0, 16, 0, .rc⟩
/-- SEC_REFUSALS.rollback. -/
def F.secRefusals_rollback : Fld := ⟨16, 16, 0, .rc⟩
/-- SEC_REFUSALS.binding. -/
def F.secRefusals_binding : Fld := ⟨32, 16, 0, .rc⟩
/-- SEC_REFUSALS.other. -/
def F.secRefusals_other : Fld := ⟨48, 16, 0, .rc⟩
/-- SEC_MEAS.value. -/
def F.secMeas_value : Fld := ⟨0, 64, 0, .ro⟩
/-- BOC_STATE.state. -/
def F.bocState_state : Fld := ⟨0, 3, 0, .ro⟩
/-- BOC_STATE.step. -/
def F.bocState_step : Fld := ⟨3, 4, 0, .ro⟩
/-- BOC_STATE.twin. -/
def F.bocState_twin : Fld := ⟨7, 1, 0, .ro⟩
/-- BOC_STATE.manifest. -/
def F.bocState_manifest : Fld := ⟨8, 1, 0, .ro⟩
/-- BOC_STATE.grant. -/
def F.bocState_grant : Fld := ⟨9, 1, 0, .ro⟩
/-- BOC_STATE.image. -/
def F.bocState_image : Fld := ⟨10, 1, 0, .ro⟩
/-- BOC_STATE.ready. -/
def F.bocState_ready : Fld := ⟨11, 1, 0, .ro⟩
/-- BOC_STATE.admitted. -/
def F.bocState_admitted : Fld := ⟨12, 1, 0, .ro⟩
/-- BOC_STATE.withdrawing. -/
def F.bocState_withdrawing : Fld := ⟨13, 1, 0, .ro⟩
/-- BOC_STATE.slot_id. -/
def F.bocState_slotId : Fld := ⟨14, 6, 0, .ro⟩
/-- BOC_RESET_CAUSE.cause. -/
def F.bocResetCause_cause : Fld := ⟨0, 4, 1, .ro⟩
/-- BOC_RESET_CAUSE.count. -/
def F.bocResetCause_count : Fld := ⟨4, 16, 0, .ro⟩
/-- BOC_ADMIT.beat. -/
def F.bocAdmit_beat : Fld := ⟨0, 64, 0, .ro⟩
/-- BOC_BRQ.accepted. -/
def F.bocBrq_accepted : Fld := ⟨0, 16, 0, .rc⟩
/-- BOC_BRQ.refused. -/
def F.bocBrq_refused : Fld := ⟨16, 16, 0, .rc⟩
/-- BOC_BRQ.dropped. -/
def F.bocBrq_dropped : Fld := ⟨32, 16, 0, .rc⟩
/-- BOC_BRQ.ctl_dropped. -/
def F.bocBrq_ctlDropped : Fld := ⟨48, 8, 0, .rc⟩
/-- BOC_CAPACITY.valid. -/
def F.bocCapacity_valid : Fld := ⟨0, 1, 0, .ro⟩
/-- BOC_CAPACITY.class. -/
def F.bocCapacity_class : Fld := ⟨1, 2, 0, .ro⟩
/-- BOC_CAPACITY.islands_per_field. -/
def F.bocCapacity_islandsPerField : Fld := ⟨3, 6, 0, .ro⟩
/-- BOC_CAPACITY.logical_islands. -/
def F.bocCapacity_logicalIslands : Fld := ⟨9, 9, 0, .ro⟩
/-- BOC_CAPACITY.lpddr_channels. -/
def F.bocCapacity_lpddrChannels : Fld := ⟨18, 8, 0, .ro⟩
/-- BOC_CAPACITY.ports_px. -/
def F.bocCapacity_portsPx : Fld := ⟨26, 4, 0, .ro⟩
/-- BOC_CAPACITY.ports_mx. -/
def F.bocCapacity_portsMx : Fld := ⟨30, 4, 0, .ro⟩
/-- BOC_CAPACITY.ports_py. -/
def F.bocCapacity_portsPy : Fld := ⟨34, 4, 0, .ro⟩
/-- BOC_CAPACITY.ports_my. -/
def F.bocCapacity_portsMy : Fld := ⟨38, 4, 0, .ro⟩
/-- BOC_CAPACITY.ports_pz. -/
def F.bocCapacity_portsPz : Fld := ⟨42, 4, 0, .ro⟩
/-- BOC_CAPACITY.ports_mz. -/
def F.bocCapacity_portsMz : Fld := ⟨46, 4, 0, .ro⟩
/-- BOC_REPRO_KEY.stepping (fused). -/
def F.bocReproKey_stepping : Fld := ⟨0, 16, 2, .ro⟩
/-- BOC_REPRO_KEY.arith_rev (fused). -/
def F.bocReproKey_arithRev : Fld := ⟨16, 12, 1, .ro⟩
/-- BOC_REPRO_KEY.gen_rev (fused). -/
def F.bocReproKey_genRev : Fld := ⟨28, 12, 1, .ro⟩
/-- BOC_REPRO_KEY.func_rev (fused). -/
def F.bocReproKey_funcRev : Fld := ⟨40, 12, 1, .ro⟩
/-- BOC_REPRO_KEY.errata_rev (fused). -/
def F.bocReproKey_errataRev : Fld := ⟨52, 12, 1, .ro⟩
/-- BOC_BTABLE.base. -/
def F.bocBtable_base : Fld := ⟨5, 37, 0, .rw⟩
/-- BOC_BTABLE.count_m1. -/
def F.bocBtable_countM1 : Fld := ⟨42, 16, 0, .rw⟩
/-- BOC_BREATH.index. -/
def F.bocBreath_index : Fld := ⟨0, 64, 0, .ro⟩
/-- BOC_T_NEXT.beat. -/
def F.bocTNext_beat : Fld := ⟨0, 64, 0, .ro⟩
/-- BOC_SLIP.total. -/
def F.bocSlip_total : Fld := ⟨0, 48, 0, .ro⟩
/-- BOC_SLIP.count. -/
def F.bocSlip_count : Fld := ⟨48, 16, 0, .ro⟩
/-- BOC_SLIP_CFG.window. -/
def F.bocSlipCfg_window : Fld := ⟨0, 17, 0, .ro⟩
/-- BOC_SLIP_CFG.quantum. -/
def F.bocSlipCfg_quantum : Fld := ⟨17, 20, 0, .ro⟩
/-- BOC_SETPOINT.current. -/
def F.bocSetpoint_current : Fld := ⟨0, 5, 0, .ro⟩
/-- BOC_SETPOINT.request. -/
def F.bocSetpoint_request : Fld := ⟨5, 5, 0, .rw⟩
/-- BOC_SETPOINT.image_min. -/
def F.bocSetpoint_imageMin : Fld := ⟨10, 5, 0, .ro⟩
/-- BOC_SETPOINT.grade_max (fused). -/
def F.bocSetpoint_gradeMax : Fld := ⟨15, 5, 24, .ro⟩
/-- BOC_SETPOINT.pending. -/
def F.bocSetpoint_pending : Fld := ⟨20, 1, 0, .ro⟩
/-- BOC_FREQ_LOG.changes. -/
def F.bocFreqLog_changes : Fld := ⟨0, 16, 0, .rc⟩
/-- BOC_FREQ_LOG.last_stop. -/
def F.bocFreqLog_lastStop : Fld := ⟨16, 11, 0, .ro⟩
/-- BOC_START_LOG.missed. -/
def F.bocStartLog_missed : Fld := ⟨0, 16, 0, .rc⟩
/-- BOC_START_LOG.requests. -/
def F.bocStartLog_requests : Fld := ⟨16, 16, 0, .rc⟩
/-- BOC_START_LOG.late_requests. -/
def F.bocStartLog_lateRequests : Fld := ⟨32, 16, 0, .rc⟩
/-- BOC_POWER.input_power. -/
def F.bocPower_inputPower : Fld := ⟨0, 16, 0, .ro⟩
/-- BOC_POWER.input_voltage. -/
def F.bocPower_inputVoltage : Fld := ⟨16, 16, 0, .ro⟩
/-- BOC_POWER.limit. -/
def F.bocPower_limit : Fld := ⟨32, 16, 0, .ro⟩
/-- BOC_POWER.state. -/
def F.bocPower_state : Fld := ⟨48, 3, 0, .ro⟩
/-- BOC_POWER.derated. -/
def F.bocPower_derated : Fld := ⟨51, 1, 0, .ro⟩
/-- BOC_POWER.low_input. -/
def F.bocPower_lowInput : Fld := ⟨52, 1, 0, .rw1c⟩
/-- BOC_POWER.lowered. -/
def F.bocPower_lowered : Fld := ⟨53, 1, 0, .ro⟩
/-- BOC_POWER_CFG.limit. -/
def F.bocPowerCfg_limit : Fld := ⟨0, 16, 1250, .rw⟩
/-- BOC_THERMAL.hottest. -/
def F.bocThermal_hottest : Fld := ⟨0, 16, 0, .ro⟩
/-- BOC_THERMAL.threshold. -/
def F.bocThermal_threshold : Fld := ⟨16, 7, 95, .rw⟩
/-- BOC_THERMAL.throttling. -/
def F.bocThermal_throttling : Fld := ⟨23, 8, 0, .ro⟩
/-- BOC_THERMAL.lpddr_over. -/
def F.bocThermal_lpddrOver : Fld := ⟨31, 8, 0, .ro⟩
/-- BOC_COOLANT.inlet. -/
def F.bocCoolant_inlet : Fld := ⟨0, 16, 0, .ro⟩
/-- BOC_COOLANT.outlet. -/
def F.bocCoolant_outlet : Fld := ⟨16, 16, 0, .ro⟩
/-- BOC_COOLANT.flow. -/
def F.bocCoolant_flow : Fld := ⟨32, 16, 0, .ro⟩
/-- BOC_COOLANT.drop. -/
def F.bocCoolant_drop : Fld := ⟨48, 10, 0, .ro⟩
/-- BOC_DISC.class. -/
def F.bocDisc_class : Fld := ⟨0, 3, 0, .ro⟩
/-- BOC_DISC.partner. -/
def F.bocDisc_partner : Fld := ⟨3, 14, 0, .ro⟩
/-- BOC_DISC.partner_port. -/
def F.bocDisc_partnerPort : Fld := ⟨17, 6, 0, .ro⟩
/-- BOC_DISC.used. -/
def F.bocDisc_used : Fld := ⟨23, 1, 0, .ro⟩
/-- BOC_FIELD_TEMP.temp. -/
def F.bocFieldTemp_temp : Fld := ⟨0, 16, 0, .ro⟩
/-- BOC_FIELD_TEMP.max. -/
def F.bocFieldTemp_max : Fld := ⟨16, 16, 0, .rc⟩
/-- BOC_FIELD_TEMP.throttle. -/
def F.bocFieldTemp_throttle : Fld := ⟨32, 3, 0, .ro⟩
/-- ROUTE_TABLE.word. -/
def F.routeTable_word : Fld := ⟨0, 64, 0, .ro⟩
/-- PROGRAM_STORE.word. -/
def F.programStore_word : Fld := ⟨0, 64, 0, .ro⟩
/-- SLOT_TABLE.word. -/
def F.slotTable_word : Fld := ⟨0, 64, 0, .ro⟩
/-- PATCH_LIST.word. -/
def F.patchList_word : Fld := ⟨0, 64, 0, .ro⟩
/-- STREAM_TABLE.word. -/
def F.streamTable_word : Fld := ⟨0, 64, 0, .ro⟩

/-- The registers and word tables of the control space. -/
inductive RegName where
  | islBreath
  | islProgress
  | islClock
  | islStretch
  | islOverrun
  | islThrottle
  | islReset
  | islResidue
  | islStallCnt
  | islStallCause
  | islStallLast
  | islStallFirst
  | islStallLimit
  | islMbxHold
  | islRmemLog
  | islSusp
  | islWaitLate
  | islCoreFault
  | islCoreEcc
  | islCoreIssue
  | islSync
  | islPutBind
  | islCalib
  | islSwStatus
  | fldChannels
  | fldStgEcc
  | fldChEcc
  | fldChState
  | stmStatus
  | stmFault
  | stmMoved
  | stmWaited
  | stmCtr
  | crpConfig
  | crpDelay
  | crpLate
  | crpArrive
  | crpFault
  | crpLqBind
  | crpLqState
  | crpFabric
  | crpDrone
  | crpPatchDir
  | crpPatchLog
  | crpStreamErr
  | crpCc
  | crpSeq
  | lnkState
  | lnkLanes
  | lnkRtt
  | lnkReplay
  | lnkParity
  | lnkCredit
  | lnkPartner
  | lnkEvents
  | lnkCtl
  | lnkWlErr
  | lnkWlOpt
  | lnkInjCtl
  | lnkInjDrop
  | lnkInjParity
  | lnkInjAck
  | lnkInjReorder
  | gmuCfg
  | gmuSlice
  | gmuEpoch
  | gmuThrottle
  | gmuTrack
  | gmuDrop
  | gmuLate
  | gmuDedup
  | gmuFence
  | gmuRoute
  | timBeat
  | timIncr
  | timPhase
  | timStatus
  | timOffset
  | timTrig
  | timTrigState
  | timCorr
  | timTlqBeat
  | timTlqCtl
  | timTlqMsg0
  | timTlqMsg1
  | fltState
  | fltStep
  | fltTag
  | fltSusp
  | fltThresh
  | fltRecovery
  | fltLedger
  | fltRing
  | fltSubstDir
  | fltSubst
  | fltHealth
  | fltEvent
  | fltCoreChk
  | fltCapture
  | secState
  | secCounters
  | secFwkeys
  | secAuth
  | secRefusals
  | secMeas
  | bocState
  | bocResetCause
  | bocAdmit
  | bocBrq
  | bocCapacity
  | bocReproKey
  | bocBtable
  | bocBreath
  | bocTNext
  | bocSlip
  | bocSlipCfg
  | bocSetpoint
  | bocFreqLog
  | bocStartLog
  | bocPower
  | bocPowerCfg
  | bocThermal
  | bocCoolant
  | bocDisc
  | bocFieldTemp
  | routeTable
  | programStore
  | slotTable
  | patchList
  | streamTable
deriving DecidableEq, Repr

/-- The fields of a register, in the order of its field table. -/
def RegName.fields : RegName → List Fld
  | .islBreath => [F.islBreath_index, F.islBreath_state, F.islBreath_complete, F.islBreath_loadsDone]
  | .islProgress => [F.islProgress_lag, F.islProgress_position]
  | .islClock => [F.islClock_setpoint, F.islClock_throttle, F.islClock_locked]
  | .islStretch => [F.islStretch_droop, F.islStretch_windowMax, F.islStretch_excess]
  | .islOverrun => [F.islOverrun_crossingCycles, F.islOverrun_behind, F.islOverrun_missed]
  | .islThrottle => [F.islThrottle_cycles]
  | .islReset => [F.islReset_req, F.islReset_pending]
  | .islResidue => [F.islResidue_queues, F.islResidue_valid]
  | .islStallCnt => [F.islStallCnt_count, F.islStallCnt_episodes, F.islStallCnt_maxRun]
  | .islStallCause => [F.islStallCause_mailboxCycles, F.islStallCause_counterCycles, F.islStallCause_crossingCycles]
  | .islStallLast => [F.islStallLast_count, F.islStallLast_episodes, F.islStallLast_maxRun]
  | .islStallFirst => [F.islStallFirst_cyc, F.islStallFirst_unit, F.islStallFirst_cause, F.islStallFirst_id, F.islStallFirst_valid]
  | .islStallLimit => [F.islStallLimit_cycles]
  | .islMbxHold => [F.islMbxHold_cycles]
  | .islRmemLog => [F.islRmemLog_status, F.islRmemLog_op, F.islRmemLog_unit, F.islRmemLog_count, F.islRmemLog_valid]
  | .islSusp => [F.islSusp_reason, F.islSusp_unit, F.islSusp_count, F.islSusp_valid]
  | .islWaitLate => [F.islWaitLate_count]
  | .islCoreFault => [F.islCoreFault_code, F.islCoreFault_slot, F.islCoreFault_addr, F.islCoreFault_more, F.islCoreFault_cyc]
  | .islCoreEcc => [F.islCoreEcc_tmCorrected, F.islCoreEcc_isCorrected, F.islCoreEcc_tmUncorrected, F.islCoreEcc_isUncorrected]
  | .islCoreIssue => [F.islCoreIssue_addr, F.islCoreIssue_state, F.islCoreIssue_prov]
  | .islSync => [F.islSync_value]
  | .islPutBind => [F.islPutBind_port, F.islPutBind_queue, F.islPutBind_valid, F.islPutBind_quarters]
  | .islCalib => [F.islCalib_fwdMeas, F.islCalib_retMeas, F.islCalib_fwd, F.islCalib_ret, F.islCalib_margin, F.islCalib_pass, F.islCalib_connected, F.islCalib_valid]
  | .islSwStatus => [F.islSwStatus_state, F.islSwStatus_code, F.islSwStatus_word, F.islSwStatus_cyc]
  | .fldChannels => [F.fldChannels_active, F.fldChannels_count, F.fldChannels_pending]
  | .fldStgEcc => [F.fldStgEcc_corrected, F.fldStgEcc_uncorrected]
  | .fldChEcc => [F.fldChEcc_corrected, F.fldChEcc_uncorrected, F.fldChEcc_link, F.fldChEcc_ondie]
  | .fldChState => [F.fldChState_state, F.fldChState_hot, F.fldChState_over]
  | .stmStatus => [F.stmStatus_state, F.stmStatus_index, F.stmStatus_credits]
  | .stmFault => [F.stmFault_code, F.stmFault_index, F.stmFault_valid]
  | .stmMoved => [F.stmMoved_bytes]
  | .stmWaited => [F.stmWaited_cycles]
  | .stmCtr => [F.stmCtr_value]
  | .crpConfig => [F.crpConfig_arrival, F.crpConfig_slotBank, F.crpConfig_lqBank, F.crpConfig_sched]
  | .crpDelay => [F.crpDelay_physical, F.crpDelay_minMargin]
  | .crpLate => [F.crpLate_launches, F.crpLate_held, F.crpLate_relays]
  | .crpArrive => [F.crpArrive_late, F.crpArrive_overflow, F.crpArrive_misrouted]
  | .crpFault => [F.crpFault_code, F.crpFault_slot, F.crpFault_valid]
  | .crpLqBind => [F.crpLqBind_stream, F.crpLqBind_valid]
  | .crpLqState => [F.crpLqState_occupancy, F.crpLqState_owed, F.crpLqState_launched]
  | .crpFabric => [F.crpFabric_streamBank, F.crpFabric_detourShare, F.crpFabric_patches]
  | .crpDrone => [F.crpDrone_state]
  | .crpPatchDir => [F.crpPatchDir_base, F.crpPatchDir_count]
  | .crpPatchLog => [F.crpPatchLog_activations, F.crpPatchLog_refused, F.crpPatchLog_last]
  | .crpStreamErr => [F.crpStreamErr_crcFail, F.crpStreamErr_first, F.crpStreamErr_valid]
  | .crpCc => [F.crpCc_value]
  | .crpSeq => [F.crpSeq_value]
  | .lnkState => [F.lnkState_state, F.lnkState_lanes, F.lnkState_spare, F.lnkState_spareWl, F.lnkState_retrainPending, F.lnkState_leader, F.lnkState_longRtt, F.lnkState_downCause]
  | .lnkLanes => [F.lnkLanes_map, F.lnkLanes_failed]
  | .lnkRtt => [F.lnkRtt_rtt, F.lnkRtt_skew]
  | .lnkReplay => [F.lnkReplay_nakReplays, F.lnkReplay_goBacks, F.lnkReplay_duplicates, F.lnkReplay_beyond, F.lnkReplay_full]
  | .lnkParity => [F.lnkParity_failed, F.lnkParity_windowMax]
  | .lnkCredit => [F.lnkCredit_window, F.lnkCredit_low, F.lnkCredit_leaks]
  | .lnkPartner => [F.lnkPartner_serial]
  | .lnkEvents => [F.lnkEvents_swaps, F.lnkEvents_retrains, F.lnkEvents_downs, F.lnkEvents_withdrawn]
  | .lnkCtl => [F.lnkCtl_retrain]
  | .lnkWlErr => [F.lnkWlErr_parity, F.lnkWlErr_fecCorrected, F.lnkWlErr_fecFailed]
  | .lnkWlOpt => [F.lnkWlOpt_rxPower, F.lnkWlOpt_txPower, F.lnkWlOpt_full, F.lnkWlOpt_los]
  | .lnkInjCtl => [F.lnkInjCtl_permitted, F.lnkInjCtl_enable, F.lnkInjCtl_count, F.lnkInjCtl_injected]
  | .lnkInjDrop => [F.lnkInjDrop_n]
  | .lnkInjParity => [F.lnkInjParity_lanes, F.lnkInjParity_n]
  | .lnkInjAck => [F.lnkInjAck_mode, F.lnkInjAck_n, F.lnkInjAck_k]
  | .lnkInjReorder => [F.lnkInjReorder_n, F.lnkInjReorder_hold]
  | .gmuCfg => [F.gmuCfg_timeout, F.gmuCfg_admitted]
  | .gmuSlice => [F.gmuSlice_low, F.gmuSlice_extentM1, F.gmuSlice_own, F.gmuSlice_torusM1]
  | .gmuEpoch => [F.gmuEpoch_inject, F.gmuEpoch_bank0, F.gmuEpoch_bank1, F.gmuEpoch_changes]
  | .gmuThrottle => [F.gmuThrottle_engaged, F.gmuThrottle_rate, F.gmuThrottle_burst, F.gmuThrottle_episodes]
  | .gmuTrack => [F.gmuTrack_open, F.gmuTrack_retries, F.gmuTrack_timeouts]
  | .gmuDrop => [F.gmuDrop_lifetime, F.gmuDrop_epoch, F.gmuDrop_crc, F.gmuDrop_noroute]
  | .gmuLate => [F.gmuLate_discarded]
  | .gmuDedup => [F.gmuDedup_doneUsed, F.gmuDedup_putUsed, F.gmuDedup_dupHits, F.gmuDedup_busy]
  | .gmuFence => [F.gmuFence_fenced, F.gmuFence_dropped]
  | .gmuRoute => [F.gmuRoute_ports, F.gmuRoute_valid]
  | .timBeat => [F.timBeat_beat]
  | .timIncr => [F.timIncr_incr]
  | .timPhase => [F.timPhase_step]
  | .timStatus => [F.timStatus_root, F.timStatus_locked, F.timStatus_holdover, F.timStatus_parent, F.timStatus_depth, F.timStatus_refclk, F.timStatus_refclkFail, F.timStatus_rootIndex, F.timStatus_steps]
  | .timOffset => [F.timOffset_offset, F.timOffset_delay]
  | .timTrig => [F.timTrig_beat]
  | .timTrigState => [F.timTrigState_armed, F.timTrigState_late, F.timTrigState_fired]
  | .timCorr => [F.timCorr_tx, F.timCorr_rx, F.timCorr_deskew]
  | .timTlqBeat => [F.timTlqBeat_value]
  | .timTlqCtl => [F.timTlqCtl_dest, F.timTlqCtl_bcast, F.timTlqCtl_local, F.timTlqCtl_arm, F.timTlqCtl_sent, F.timTlqCtl_lateSlots]
  | .timTlqMsg0 => [F.timTlqMsg0_value]
  | .timTlqMsg1 => [F.timTlqMsg1_value]
  | .fltState => [F.fltState_role, F.fltState_successor, F.fltState_recovery, F.fltState_replaying, F.fltState_lead]
  | .fltStep => [F.fltStep_committed, F.fltStep_entry]
  | .fltTag => [F.fltTag_state, F.fltTag_regions, F.fltTag_step]
  | .fltSusp => [F.fltSusp_older, F.fltSusp_newer]
  | .fltThresh => [F.fltThresh_tile, F.fltThresh_staging, F.fltThresh_lpddr]
  | .fltRecovery => [F.fltRecovery_restarts, F.fltRecovery_promotions, F.fltRecovery_replays, F.fltRecovery_disagreed, F.fltRecovery_swaps]
  | .fltLedger => [F.fltLedger_minutes, F.fltLedger_used, F.fltLedger_pending, F.fltLedger_mirrorOk]
  | .fltRing => [F.fltRing_head, F.fltRing_read, F.fltRing_overwritten]
  | .fltSubstDir => [F.fltSubstDir_base, F.fltSubstDir_count]
  | .fltSubst => [F.fltSubst_lost, F.fltSubst_spare, F.fltSubst_valid]
  | .fltHealth => [F.fltHealth_word]
  | .fltEvent => [F.fltEvent_word]
  | .fltCoreChk => [F.fltCoreChk_count]
  | .fltCapture => [F.fltCapture_word]
  | .secState => [F.secState_owned, F.secState_ownerGen, F.secState_locked, F.secState_debug, F.secState_keys, F.secState_slot, F.secState_fallback, F.secState_trial, F.secState_sessions]
  | .secCounters => [F.secCounters_ctr0, F.secCounters_ctr1, F.secCounters_ctr2, F.secCounters_ctr3]
  | .secFwkeys => [F.secFwkeys_revoked, F.secFwkeys_signer]
  | .secAuth => [F.secAuth_verified, F.secAuth_failed, F.secAuth_port, F.secAuth_valid]
  | .secRefusals => [F.secRefusals_signature, F.secRefusals_rollback, F.secRefusals_binding, F.secRefusals_other]
  | .secMeas => [F.secMeas_value]
  | .bocState => [F.bocState_state, F.bocState_step, F.bocState_twin, F.bocState_manifest, F.bocState_grant, F.bocState_image, F.bocState_ready, F.bocState_admitted, F.bocState_withdrawing, F.bocState_slotId]
  | .bocResetCause => [F.bocResetCause_cause, F.bocResetCause_count]
  | .bocAdmit => [F.bocAdmit_beat]
  | .bocBrq => [F.bocBrq_accepted, F.bocBrq_refused, F.bocBrq_dropped, F.bocBrq_ctlDropped]
  | .bocCapacity => [F.bocCapacity_valid, F.bocCapacity_class, F.bocCapacity_islandsPerField, F.bocCapacity_logicalIslands, F.bocCapacity_lpddrChannels, F.bocCapacity_portsPx, F.bocCapacity_portsMx, F.bocCapacity_portsPy, F.bocCapacity_portsMy, F.bocCapacity_portsPz, F.bocCapacity_portsMz]
  | .bocReproKey => [F.bocReproKey_stepping, F.bocReproKey_arithRev, F.bocReproKey_genRev, F.bocReproKey_funcRev, F.bocReproKey_errataRev]
  | .bocBtable => [F.bocBtable_base, F.bocBtable_countM1]
  | .bocBreath => [F.bocBreath_index]
  | .bocTNext => [F.bocTNext_beat]
  | .bocSlip => [F.bocSlip_total, F.bocSlip_count]
  | .bocSlipCfg => [F.bocSlipCfg_window, F.bocSlipCfg_quantum]
  | .bocSetpoint => [F.bocSetpoint_current, F.bocSetpoint_request, F.bocSetpoint_imageMin, F.bocSetpoint_gradeMax, F.bocSetpoint_pending]
  | .bocFreqLog => [F.bocFreqLog_changes, F.bocFreqLog_lastStop]
  | .bocStartLog => [F.bocStartLog_missed, F.bocStartLog_requests, F.bocStartLog_lateRequests]
  | .bocPower => [F.bocPower_inputPower, F.bocPower_inputVoltage, F.bocPower_limit, F.bocPower_state, F.bocPower_derated, F.bocPower_lowInput, F.bocPower_lowered]
  | .bocPowerCfg => [F.bocPowerCfg_limit]
  | .bocThermal => [F.bocThermal_hottest, F.bocThermal_threshold, F.bocThermal_throttling, F.bocThermal_lpddrOver]
  | .bocCoolant => [F.bocCoolant_inlet, F.bocCoolant_outlet, F.bocCoolant_flow, F.bocCoolant_drop]
  | .bocDisc => [F.bocDisc_class, F.bocDisc_partner, F.bocDisc_partnerPort, F.bocDisc_used]
  | .bocFieldTemp => [F.bocFieldTemp_temp, F.bocFieldTemp_max, F.bocFieldTemp_throttle]
  | .routeTable => [F.routeTable_word]
  | .programStore => [F.programStore_word]
  | .slotTable => [F.slotTable_word]
  | .patchList => [F.patchList_word]
  | .streamTable => [F.streamTable_word]

end Sys2Proof.Machine
end

