-- ==== Sys2Proof/Machine/StMgmt.lean ====
section
/-! DEFINITION. What the Bocal holds beside its registers: the slice manifest (R451), the control messages that wait to be
sent (R315, R480), the fault ledger and the event rate limits (R399 to R402, R433). -/

namespace Sys2Proof.Machine

/-- A member record of a manifest (R451). -/
structure Member where
  index  : Nat
  spare  : Bool
  buddy  : Nat
  serial : BitVec 64
  slot0  : Nat
  slot1  : Nat
  spares : List Nat
deriving DecidableEq, Repr

/-- A slice manifest (R451), as held after acceptance; `self` is the package's own index in it. -/
structure Manifest where
  self        : Nat
  flags       : Nat
  job         : BitVec 64
  torusM1     : Nat
  low         : Nat
  extentM1    : Nat
  workLow     : Nat
  workExtM1   : Nat
  partnerLow  : Nat
  rotation    : Nat
  leads       : List Nat
  timeRoot    : Nat
  window      : Nat
  quantum     : Nat
  timeout     : Nat
  cadence     : Nat
  replayLimit : Nat
  toneHours   : Nat
  key         : BitVec 64
  imageDigest : BitVec 512
  members     : List Member
  exceptions  : List Nat
  digest      : BitVec 512
deriving DecidableEq, Repr

/-- A control message with its routing word's fields (R315). -/
structure Ctl where
  dest   : Nat
  bcast  : Bool
  local_ : Bool
  source : Nat
  msg    : Msg
deriving DecidableEq, Repr

/-- A fault ledger record (R401); its sequence number and check are computed when it is read. -/
structure Ledger where
  kind    : Nat
  cause   : Nat
  unit    : Nat
  minutes : Nat
  detail  : Nat
  beat    : Beat
  seq     : Nat
deriving DecidableEq, Repr

/-- How often an event of one code and unit has occurred in the running second (R433). -/
structure EvCount where
  code  : Nat
  unit  : Nat
  count : Nat
deriving DecidableEq, Repr

/-- The control messages of the package: those that wait for each port, those no port can take yet (R480), and those the
package has addressed to itself (R209, R481), which reach it as commands of their own. -/
structure CtlNet where
  queue : Tbl (List Ctl)
  held  : List Ctl
  loop  : List Msg
deriving DecidableEq, Repr

/-- The Bocal's fault state: the ledger, the event rate limits, the retired units of the valve map (R396), the units retired
since power-up that still stand in it, the placements that swaps during the job have changed (R397): logical to physical core,
island, and the unused lane; and the corrected errors of the step that runs, per memory (R406). -/
structure FltSt where
  ledger   : List Ledger
  events   : List EvCount
  retired  : List (BitVec 32)
  newly    : List (BitVec 32)
  coreOver : Tbl (Option Nat)
  islOver  : Tbl (Option Nat)
  laneOver : Tbl (Option Nat)
  bursts   : Tbl Nat
deriving DecidableEq, Repr

/-- No control message anywhere. -/
def CtlNet.reset : CtlNet := ⟨[], [], []⟩

/-- No fault known. -/
def FltSt.reset : FltSt := ⟨[], [], [], [], [], [], [], []⟩

/-! ### Recovery -/

/-- A step report the lead holds (R407): member, step and causes. -/
structure Report where
  member : Nat
  step   : Nat
  causes : Nat
deriving DecidableEq, Repr

/-- One part of a package digest as the lead has received it (R417). -/
structure DigPart where
  package  : Nat
  step     : Nat
  part     : Nat
  bits     : BitVec 64
  replayer : Bool
deriving DecidableEq, Repr

/-- A shadow replay the lead has ordered (R417): its step, the suspect members with their replayers, and whether its limit has
passed. -/
structure Replay where
  step  : Nat
  pairs : List (Nat × Nat)
  above  : Bool
deriving DecidableEq, Repr

/-- Commit and recovery (R407 to R432). On the lead: the beats of the last heartbeats heard, the step
reports and sweep-done messages held, the step up to which another lead has heard of sweeps (R411), the last step it has committed, the replay under way and the digest parts received, how
often in a row each member's replays disagreed, the suspect step that waits for management, the members lost and the spares
used, the links reported down, whether the slice has been stopped (R428), and the members that are ready (R493). On every member:
the commit to apply at the next boundary, the entry each tag's step began with, the replay order it runs (step, suspect member) and
whether its launch queues run in shadow mode for it (R415),
field controller errors in the job, the operating minute of the last scheduled tone run, the
steps whose report waits for fabric tags (R463), the job's counts for the health digest (restarts, replays) and of units
retired since power-up (R435), the swaps made in the job (R398), and the cause of the recovery under way. Also on the lead: whether it
owes a restart, the step to regenerate from (R430), the links that have failed authentication in the job
(R463), and the packages that notices of admission have named (R485, R487). On every member: whether a retirement has made it lost to its
slice (R26, R27). -/
structure Recov where
  heard    : Tbl Nat
  reports  : List Report
  swept    : List (Nat × Nat)
  sweepFrom : Nat
  decided  : Nat
  replay   : Option Replay
  digests  : List DigPart
  streaks  : Tbl Nat
  waits    : Option Nat
  lost     : List Nat
  spares   : List Nat
  downs    : List Nat
  stopped  : Bool
  ready    : List Nat
  toCommit : Option Nat
  firsts   : Tbl Nat
  shadow   : Option (Nat × Nat)
  folds    : Bool
  errors   : Tbl Nat
  toneMin  : Nat
  report   : Option (Nat × Nat)
  restarts : Nat
  replays  : Nat
  retired  : Nat
  swaps    : Nat
  cause    : Nat
  restart  : Bool
  regen    : Option Nat
  badAuth  : List Nat
  joiners  : List Nat
  gone     : Bool
deriving DecidableEq, Repr

/-- Nothing reported, nothing to recover. -/
def Recov.reset : Recov :=
  { heard := [], reports := [], swept := [], sweepFrom := 0, decided := 0, replay := none, digests := [], streaks := [], waits := none, lost := [],
    spares := [], downs := [], stopped := false, ready := [], toCommit := none, firsts := [], shadow := none, folds := false, errors := [],
    toneMin := 0, report := none, restarts := 0, replays := 0, retired := 0, swaps := 0, cause := 0, restart := false,
    regen := none, badAuth := [], joiners := [], gone := false }

/-! ### What survives a reset -/

/-- A link of the ownership chain (R448): its generation and the SHA3-512 of its owner's public key. -/
structure Owner where
  gen : Nat
  key : BitVec 512
deriving DecidableEq, Repr

/-- A held authority record (R450): its generation, number, serial, permissions and the SHA3-512 of its key. -/
structure Auth where
  gen    : Nat
  number : Nat
  serial : BitVec 64
  perms  : Nat
  key    : BitVec 512
deriving DecidableEq, Repr

/-- The boot control record (R478). -/
structure Bcr where
  preferred : Nat
  trial     : Bool
  boots     : Nat
deriving DecidableEq, Repr

/-- What fuses and the boot NOR devices hold beside the ledger (R437, R444, R448, R450, R478): the owner-enrolment hash, the
ownership chain from its first generation on, the authority records, the boot control record, the bytes of the firmware
slots (slot B from 32 MiB on), and the units the factory valve map lists as retired (R396). -/
structure NonVol where
  enrolled : BitVec 512
  chain    : List Owner
  auths    : List Auth
  bcr      : Bcr
  slots    : Tbl (BitVec 8)
  factory  : List (BitVec 32)
deriving DecidableEq, Repr

/-- A part as it leaves manufacture, before its first enrolment. -/
def NonVol.blank : NonVol :=
  { enrolled := 0, chain := [], auths := [], bcr := { preferred := 0, trial := false, boots := 0 }, slots := [], factory := [] }

/-! ### Management -/

/-- A BRQ response (R500, R501): the session it goes out in and its counter there, its request code, request id, status and
data. -/
structure Resp where
  session : BitVec 64
  counter : Nat
  code    : Nat
  rid     : BitVec 32
  status  : Nat
  data    : List Byte
deriving DecidableEq, Repr

/-- An open management session (R454 to R456, R501): its id, whether the owner opened it, the authority record and permissions
it was opened with, the next counter above every accepted one, the counters accepted in the window below it, its own next
counter, and the responses it keeps. -/
structure Session where
  id      : BitVec 64
  owner   : Bool
  record  : Nat
  perms   : Nat
  top     : Nat
  seen    : List Nat
  out     : Nat
  answers : List Resp
deriving DecidableEq, Repr

/-- An object being written (R504): its session, its id and index, and its chunks, latest last. -/
structure ObjWrite where
  session : BitVec 64
  object  : Nat
  index   : Nat
  chunks  : List (Nat × List Byte)
deriving DecidableEq, Repr

/-- An installed long-tone pack (R422). -/
structure Pack where
  number : Nat
  signer : Nat
  use    : Nat
  count  : Nat
deriving DecidableEq, Repr

/-- A part record of the image directory (R489). -/
structure PartRec where
  index    : Nat
  ports    : Nat
  channels : Nat
  length   : Nat
  digest   : BitVec 512
deriving DecidableEq, Repr

/-- An accepted image envelope (R453, R489). -/
structure Envelope where
  cls     : Nat
  minSet  : Nat
  digest  : BitVec 512
  detour  : Nat
  budget  : Nat
  parts   : List PartRec
deriving DecidableEq, Repr

/-- An accepted image part's header (R490): the member it belongs to, its ports' arrival delays, the breath table's base and last entry,
the patch and substitution directories and the digest regions, each an address and a count, and the ports it uses (R489). -/
structure Part where
  index    : Nat
  arrivals : List Nat
  table    : Nat × Nat
  patches  : Nat × Nat
  substs   : Nat × Nat
  regions  : Nat × Nat
  ports    : Nat
deriving DecidableEq, Repr

/-- The I3C target (R507, R508): its dynamic address, the read pointer, the mirror, and what the last read returned. -/
structure I3c where
  addr    : Option (BitVec 7)
  ptr     : Nat
  mirror  : List Byte
  answer  : List Byte
deriving DecidableEq, Repr

/-- The target without an address. -/
def I3c.reset : I3c := { addr := none, ptr := 0, mirror := [], answer := [] }

/-- How the module is powered (R517, R520): off, input present but held in reset, in thermal reset, or released. -/
inductive Power where
  | off
  | held
  | thermal
  | on
deriving DecidableEq, Repr

/-- The Bocal beside its registers: whether its lockstep self-check or a watchdog has failed (R474, R475) and whether both
Bocals have; whether the boot ROM runs the recovery service (R479); the islands per field of the class in force when it is not
the package's own (R25); the beat an admission is due at and whether it
has begun (R487); a pending withdrawal's closing beat (R495); sessions, object writes and the last response; the session challenge and the number of
KEM keys drawn; the last report and checkpoint block; the installed packs; the accepted envelope and manifest bytes; the parts accepted and the
list of digest regions in force (R490); how many checkpoint blocks have been made (R464); and the security version of the running bundle
(R446). -/
structure BocSt where
  selfCheckFailed : Bool
  dead      : Bool
  recovery  : Bool
  force     : Option Nat
  admitAt   : Option Beat
  joining   : Bool
  closeAt   : Option Beat
  sessions  : List Session
  writes    : List ObjWrite
  resp      : Option Resp
  challenge : BitVec 256
  kems      : Nat
  report    : List Byte
  ckpt      : List Byte
  packs     : List Pack
  envelope  : Option Envelope
  manBytes  : List Byte
  parts     : List Part
  regions   : Nat × Nat
  blocks    : Nat
  secVer    : Nat
deriving DecidableEq, Repr

/-- The Bocal after reset. -/
def BocSt.reset : BocSt :=
  { selfCheckFailed := false, dead := false, recovery := false, force := none, admitAt := none, joining := false, closeAt := none,
    sessions := [], writes := [], resp := none, challenge := 0, kems := 0, report := [], ckpt := [], packs := [],
    envelope := none, manBytes := [], parts := [], regions := (0, 0), blocks := 0, secVer := 0 }

/-- The module's pins and what its samplers count (R517 to R533): power, whether the module drives THERM_TRIP_N low, the
pending phase step of the beat counter (R378), how many updates in a row the median offset has allowed or denied the lock (R390),
power control's ceiling, the setpoint code that the compute supply's level allows (R231) and the seconds below 90 % of the limit (R522), how often in a row each field has read 110 °C (R527), the
samples since each field's throttle last stepped, whether the breath-start trigger was last armed with a beat already reached (R392), and
the test access port: the scope of the debug unlock in force (R469) and
the instruction it has selected (R468). -/
structure Pins where
  power    : Power
  trip     : Bool
  phase    : Option (BitVec 64)
  good     : Nat
  bad      : Nat
  ceiling  : Nat
  supply   : Nat
  cool     : Nat
  hot      : Tbl Nat
  tick     : Tbl Nat
  lateArm  : Bool
  tap      : Nat
  tapInstr : TapInstr
deriving DecidableEq, Repr

/-- The pins of a module whose reset is held. -/
def Pins.reset : Pins :=
  { power := .held, trip := false, phase := none, good := 0, bad := 0, ceiling := 0, supply := 0, cool := 0, hot := [], tick := [],
    lateArm := false, tap := 0,
    tapInstr := .idcode }

end Sys2Proof.Machine
end

