-- ==== Sys2Proof/Machine/StFabric.lean ====
section
/-! DEFINITION. What the memory tier's engines (R248, R256 to R264), the Craup ports (R276 to R292), their links (R316 to
R343) and the global memory unit (R352 to R371) hold beside their registers. -/

namespace Sys2Proof.Machine

/-! ### Stream engines and the LPDDR5X tier -/

/-- A stream engine: its store's entry index, whether it waits at an end descriptor for a credit (R261), whether its present
descriptor has passed its wait, the weight-tree parts of that descriptor already sent, and the signals of descriptors that are
not complete yet, in list order. -/
structure Engine where
  entry   : Nat
  parked  : Bool
  begun   : Bool
  parts   : Nat
  signals : List Signal
deriving DecidableEq, Repr

/-- An engine after image load (R261). -/
def Engine.reset : Engine := { entry := 0, parked := true, begun := false, parts := 0, signals := [] }

/-- The LPDDR5X tier and the engines: the rewrite queues (R248), the key each line was written under and the key in force (0
none, R247), how many keys there have been, the engines, their descriptor stores (R256), the owners of the islands' trees
(R264), and the tag directory: by 4 MiB region, bit t when a line has been written there with tag t (R410); and by channel the chunks in which uncorrectable lines were found, with the
beats (R267). -/
structure Tier where
  rewrite : Tbl (List Nat)
  lineKey : Tbl Nat
  key     : Nat
  keys    : Nat
  engines : Tbl Engine
  descs   : Tbl Nat
  owners  : Tbl (Option Nat)
  tagDir  : Tbl Nat
  badChunks : Tbl (List (Nat × Beat))
deriving DecidableEq, Repr

/-- No key, no descriptor, every engine as after image load. -/
def Tier.reset : Tier := { rewrite := [], lineKey := [], key := 0, keys := 0, engines := [], descs := [], owners := [], tagDir := [], badChunks := [] }

/-! ### Scheduled traffic -/

/-- A flit in a launch queue: the beat at which it entered, its stream id, unless its queue was not bound then, its tag and its payload
(R277, R286). -/
structure QFlit where
  since  : Beat
  stream : Option Nat
  prov   : BitVec 2
  q0     : Line
  q1     : Line
  q2     : Line
  q3     : Line
deriving DecidableEq, Repr

/-- A launch queue: its flits, for each owed claim that is its queue's last of a breath the number of owed claims up to it,
and the group that is open: its flits and its CRC so far (R277, R278, R292). -/
structure LaunchQ where
  flits    : List QFlit
  owedEnds : List Nat
  group    : Nat
  crc      : BitVec 32
deriving DecidableEq, Repr

/-- An empty launch queue with no group open. -/
def LaunchQ.reset : LaunchQ := { flits := [], owedEnds := [], group := 0, crc := 0xFFFFFFFF#32 }

/-- A flit that waits to be relayed: the flit, the slot it is due in, and whether it is late (R287). -/
structure Relay where
  flit : Flit
  due  : Nat
  late : Bool
deriving DecidableEq, Repr

/-- A flit in the landing stage with the descriptor it lands by (R285, R289). -/
structure Stage64 where
  flit : Flit
  desc : BitVec 128
deriving DecidableEq, Repr

/-- A scheduled flit released by its link and not presented yet, with the slot it was released in (R281). -/
structure Arrived where
  flit : Flit
  slot : Nat
deriving DecidableEq, Repr

/-! ### Links -/

/-- A spare swap or fast retrain of a port (R333, R335, R337): none; spare asked for a lane, or served for a lane on a
wavelength; retrain asked with a cause, or granted and waiting for its quiet start, the start beat of a breath (bits 31:0 of its index) or a slot
boundary; quiet; relocked. -/
inductive LinkProc where
  | none
  | spareAsked (lane : Nat)
  | spareLocking (lane wl : Nat)
  | spareServed (lane wl : Nat)
  | retrainAsked (cause : Nat)
  | retrainWait (breath : Option Nat) (tq : Beat)
  | quiet
  | relocked
deriving DecidableEq, Repr

/-- A flit that failed parity in the last millisecond: the beat and the failing lanes (R333). -/
structure ParFail where
  beat  : Beat
  lanes : BitVec 8
deriving DecidableEq, Repr

/-- A packet's flit held back by reorder injection, with the slots it still waits (R343). -/
structure Held where
  vc   : Nat
  flit : Flit
  left : Nat
deriving DecidableEq, Repr

/-- A time-exchange sample (R387): offset to the peer and one-way delay. -/
structure TimeSample where
  offset : BitVec 64
  delay  : BitVec 64
deriving DecidableEq, Repr

/-- What a peer's idles say of its time root (R386, R388). -/
structure PeerTime where
  root  : Nat
  depth : Nat
  flags : Nat
deriving DecidableEq, Repr

/-- One Craup port beside its registers. Scheduled traffic: launch queues, slot last used, released flits, landing stage, presented flits
that found it full, relay buffer. Link: sequence numbers, unacked flits, replay timer and queue, the flits whose round trip is being
measured with the slots they left in and how many measurements are left (R309), receive window, credits and totals by VC, receive buffers,
output queues, housekeeping counts, the running procedure and the requests kept for after it, the 288 bytes on the fibre in the present
slot (R310), injection counts, the time exchange, and training: the peer's lane map and the spare it leaves, the step, whether the peer's
record of it has been received, the peer's width, its latest stamp and that one's arrival, and its certificate digest (R307, R308). Fabric encryption (R460 to R463): whether each
direction is encrypted, the extended sequence numbers of the next flit sent and released, how far tags have been sent and
verified, tags that wait for their flits, and failures in the job. -/
structure Port where
  queues    : Tbl LaunchQ
  used      : Option Nat
  arrived   : List Arrived
  stage     : List Stage64
  blocked   : List Stage64
  relays    : List Relay
  next      : Nat
  buf       : List Flit
  timer     : Option Nat
  lastNak   : Tbl (Option Nat)
  sentAt    : List (Nat × Nat)
  rttLeft   : Nat
  replay    : List Nat
  exp       : Nat
  held      : List Flit
  lost      : List Nat
  credit    : Tbl Nat
  pend      : Tbl Nat
  grant     : Tbl Nat
  receipt   : Tbl Nat
  leaked    : Tbl Nat
  vcs       : Tbl (List Flit)
  ctlIn     : List (List Ctl)
  out       : Tbl (List Flit)
  sinceIdle : Nat
  full      : Bool
  fails     : List ParFail
  proc      : LinkProc
  later     : List LinkProc
  wire      : Option (BitVec 2304)
  injRx     : Nat
  injPar    : Nat
  injAck    : Nat
  injOut    : Nat
  prevAck   : Nat
  heldOut   : List Held
  idleDep   : BitVec 64
  idleArr   : BitVec 64
  samples   : List TimeSample
  peer      : Option PeerTime
  txMap     : Nat
  txSpare   : Nat
  trainStep : Nat
  trainGot  : Bool
  peerHalf  : Bool
  echo      : Beat
  echoArr   : Beat
  peerCert  : BitVec 256
  partner   : Option Nat
  partPort  : Nat
  expectTo  : Option Beat
  random    : BitVec 128
  peerRand  : BitVec 128
  encTx     : Bool
  encRx     : Bool
  eTx       : Nat
  eRx       : Nat
  tagged    : Nat
  covered   : Nat
  tagWait   : List (Nat × Bool)
  authBad   : Nat
deriving DecidableEq, Repr

/-- A port that has never trained. -/
def Port.reset : Port :=
  { queues := [], used := none, arrived := [], stage := [], blocked := [], relays := [], next := 0, buf := [], timer := none, lastNak := [],
    sentAt := [], rttLeft := 0,
    replay := [], exp := 0, held := [], lost := [], credit := [], pend := [], grant := [], receipt := [], leaked := [], vcs := [],
    ctlIn := [], out := [], sinceIdle := 0, full := false, fails := [], proc := .none, later := [], wire := none, injRx := 0, injPar := 0,
    injAck := 0, injOut := 0, prevAck := 4095, heldOut := [], idleDep := 0, idleArr := 0, samples := [], peer := none,
    txMap := 0, txSpare := 15, trainStep := 0, trainGot := false, peerHalf := false, echo := 0, echoArr := 0, peerCert := 0, partner := none,
    partPort := 0, expectTo := none, random := 0, peerRand := 0, encTx := false, encRx := false, eTx := 0,
    eRx := 0, tagged := 0, covered := 0, tagWait := [], authBad := 0 }

/-- The package fabric: the CRC so far of each landing stream's open group, xor its initial value (R292), the active
patches' link keys in order of activation with the breath each applies from (R295, R296), the patches applied to each bank, the
inactive banks cleared and written for the next breath (R275), the outbound digests of the open tags (R416) and how many flits
of each stream have been launched in the step. -/
structure Fabric where
  groups   : Tbl (BitVec 32)
  patches  : List (Nat × Nat)
  applied  : List (Nat × Nat)
  written  : List Nat
  digests  : Tbl (BitVec 256)
  launches : Tbl Nat
  parts    : Tbl (List Line)
deriving DecidableEq, Repr

/-- No stream, no patch. -/
def Fabric.reset : Fabric := { groups := [], patches := [], applied := [], written := [], digests := [], launches := [], parts := [] }

/-! ### The global memory unit -/

/-- The latest answer to a packet of a request: its status and the data it returned (R358 to R360). -/
structure Answer where
  status : Nat
  data   : List Byte
deriving DecidableEq, Repr

/-- A departed request of a tracker: its birth in ns, its attempt, and the answers by packet index (R357 to R360). -/
structure Req where
  birth   : Nat
  attempt : Nat
  answers : Tbl (Option Answer)
deriving DecidableEq, Repr

/-- A packet key (R364): source, requester, birth and index. -/
structure PktKey where
  source : Nat
  reqr   : Nat
  birth  : Nat
  index  : Nat
deriving DecidableEq, Repr

/-- A done entry (R364). -/
structure Done where
  key    : PktKey
  status : Nat
  word   : List Byte
deriving DecidableEq, Repr

/-- A put entry (R365): the put's key (index 0), its total and the indices written. -/
structure PutEntry where
  key     : PktKey
  total   : Nat
  indices : List Nat
deriving DecidableEq, Repr

/-- The global memory unit beside its registers: departed requests by core tracker, the done and put tables, packets of this
package that wait for a port and those addressed to itself (R348), whether throttling was engaged when it was last looked at, the
token bucket in 2⁻¹⁶ ns × tokens per µs (65,536,000 to a token) and the beat it was last filled, the flip
beat of a routing change (R369), the links the lead has sent as down (R368), and on the lead the changes that wait for the
change under way, the changes under way, and the members that have answered them. -/
structure Gmu where
  reqs    : Tbl (Option Req)
  done    : List Done
  puts    : List PutEntry
  waiting : List Packet
  own     : List Packet
  engaged : Bool
  tokens  : Nat
  filled  : Beat
  flip    : Option Nat
  changes : List (Nat × Bool)
  ready   : List (Nat × Nat)
  downs   : List Nat
  asked   : List (Nat × Bool)
deriving DecidableEq, Repr

/-- The unit at reset: the bucket full (R371). -/
def Gmu.reset : Gmu :=
  { reqs := [], done := [], puts := [], waiting := [], own := [], engaged := false, tokens := 1024 * 65536000, filled := 0, flip := none, changes := [],
    ready := [], downs := [], asked := [] }

end Sys2Proof.Machine
end

