-- ==== Sys2Proof/Machine/State.lean ====
section
/-! DEFINITION. The machine's state: everything the spec gives one KM1 package (INVENTORY.md, '## State'), the commands
that wait, what it has sent, the reasons a step can stop, and the state after power-on reset. -/

namespace Sys2Proof.Machine

/-- One control core of the Bocal (R474): 64-bit scalars, predicates, its transfer state, whether it has stopped, and
what is left of its watchdog in microseconds. -/
structure CtlCore where
  sregs    : Tbl (BitVec 64)
  preds    : Tbl Bool
  pc       : Nat
  groupPc  : Nat
  open_    : Bool
  eog      : Bool
  group    : Nat
  taken    : Option Nat
  dests    : List (Nat × Nat)
  writes   : List (Nat × BitVec 64)
  pwrites  : List (Nat × Bool)
  stopped  : Bool
  watchdog : Nat
deriving DecidableEq, Repr

/-- A control core after reset. -/
def CtlCore.reset : CtlCore :=
  { sregs := [], preds := [], pc := 0, groupPc := 0, open_ := false, eog := false, group := 0, taken := none, dests := [],
    writes := [], pwrites := [], stopped := false, watchdog := 0 }

/-- The package's breath state beside its registers (R195 to R235): whether the breath has been aborted; whether a job has
its T_0 and has not ended; whether breath 0's load list is the next one; the breath that runs (its table entry, start beat and
check position); the next breath's index and entry, its load records that have finished, and whether it begins a step; the
number of the step that runs; whether the boundary is taken, condition 1 examined, the overrun check made, the start missed;
on the slice lead the causes of the slip requests received for the next breath; and the supply's voltage ramp (R231). -/
structure BreathSt where
  aborted   : Bool
  job       : Bool
  running   : Bool
  entry     : Nat
  start     : Beat
  check     : Nat
  next      : Nat
  nextEntry : Nat
  loadsDone : List Nat
  stepFirst : Bool
  step      : Nat
  taken     : Bool
  examined  : Bool
  checked   : Bool
  missed    : Bool
  asked     : Option Nat
  stopping  : Bool
deriving DecidableEq, Repr

/-- No breath has run. -/
def BreathSt.reset : BreathSt :=
  { aborted := false, job := false, running := false, entry := 0, start := 0, check := 0, next := 0, nextEntry := 0,
    loadsDone := [], stepFirst := true, step := 0, taken := false, examined := false, checked := false, missed := false,
    asked := none, stopping := false }

/-- What the last control-space access or bus request was answered with (R8, R10): an access error, or the word read. -/
structure BusRes where
  err  : Bool
  data : Word
deriving DecidableEq, Repr

/-- The state of the package. -/
structure State where
  regs     : Tbl Nat
  mem      : List Host.Cell
  tags     : Tbl (BitVec 2)
  bad      : Tbl Bool
  cores    : Tbl Core
  clusters : Tbl Cluster
  islands  : Tbl Island
  ctls     : Tbl CtlCore
  sram     : Tbl (BitVec 8)
  beatAcc  : BitVec 80
  ctl      : CtlNet
  flt      : FltSt
  manifest : Option Manifest
  brt      : BreathSt
  boc      : BocSt
  tier     : Tier
  ports    : Tbl Port
  fab      : Fabric
  gmu      : Gmu
  rcv      : Recov
  nv       : NonVol
  i3c      : I3c
  pins     : Pins
  bus      : BusRes
  fresh    : Nat
  pending  : List Instr
deriving DecidableEq, Repr

/-- Why a command cannot be executed at all. Its constructor is raised by the commands that name a unit; stopping is
safe: nothing is proved about what the hardware does there. -/
inductive Fault where
  /-- The command names a unit (an island, core, cluster, port, engine, channel, device) that the package does not have
  (R7, R22, R93, R219). Safe. -/
  | absentUnit
deriving DecidableEq, Repr

/-- Why the model gives a command no meaning. -/
inductive Refusal where
  /-- Raised by an arm of exec whose command has no meaning yet. Safe. -/
  | notModelled (mnemonic : String)
deriving DecidableEq, Repr

/-- The register values that differ from the register map's Reset column: the fused stamp corrections of the two management ports
(R381), held as State.getF reads them. -/
def fusedRegs : Tbl Nat :=
  [(aTimCorr 48 * 64, 10568 ^^^ 2458), (aTimCorr 48 * 64 + 16, 12124 ^^^ 3604),
   (aTimCorr 49 * 64, 10568 ^^^ 2458), (aTimCorr 49 * 64 + 16, 12124 ^^^ 3604)]

/-- The package after power-on reset, held at the first step of power-up (R477). -/
def State.reset : State :=
  { regs := fusedRegs, mem := [], tags := [], bad := [], cores := [], clusters := [], islands := [], ctls := [], sram := [],
    beatAcc := 0, ctl := CtlNet.reset, flt := FltSt.reset, manifest := none, brt := BreathSt.reset, boc := BocSt.reset,
    tier := Tier.reset, ports := [], fab := Fabric.reset, gmu := Gmu.reset,
    rcv := Recov.reset, nv := NonVol.blank, i3c := I3c.reset, pins := Pins.reset, bus := ⟨false, 0⟩, fresh := 0, pending := [] }

end Sys2Proof.Machine
end

