-- ==== Sys2Proof/Machine/Ops.lean ====
section
/-! DEFINITION. The named operations every command is written from: register fields (R8 to R14), memory and its tags
(R97, R238 to R242), the shape of the package (R7, R22, R23, R93), physical places (R396), control messages (R315, R480 to
R482), events and the ledger (R401, R402, R433), and the fault report (R425). -/

namespace Sys2Proof.Machine

/-! ### Register fields -/

/-- The key of a field in the register file: its register's address and its lowest bit. -/
def fkey (a : Nat) (f : Fld) : Nat := a * 64 + f.lo

/-- The value of field `f` of the register at `a`. The file holds each value xor its reset value, so that an unlisted field
reads its reset value. -/
def State.getF (s : State) (a : Nat) (f : Fld) : Nat := Tbl.get 0 s.regs (fkey a f) ^^^ f.reset

/-- Field `f` of the register at `a` set to `v`, cut to the field's width. -/
def State.setF (s : State) (a : Nat) (f : Fld) (v : Nat) : State :=
  { s with regs := Tbl.set 0 s.regs (fkey a f) ((v % 2 ^ f.width) ^^^ f.reset) }

/-- A counter field raised by `n`, saturating (R12). -/
def State.bump (s : State) (a : Nat) (f : Fld) (n : Nat) : State :=
  s.setF a f (min (s.getF a f + n) (2 ^ f.width - 1))

/-- A counter field raised by `n` modulo its width (R174). -/
def State.wrapAdd (s : State) (a : Nat) (f : Fld) (n : Nat) : State := s.setF a f (s.getF a f + n)

/-- A one-bit field as a truth value. -/
def State.flag (s : State) (a : Nat) (f : Fld) : Bool := decide (s.getF a f ≠ 0)

/-- A one-bit field set from a truth value. -/
def State.setFlag (s : State) (a : Nat) (f : Fld) (b : Bool) : State := s.setF a f (if b then 1 else 0)

/-- Fields set one after the other. -/
def State.setFs (s : State) (a : Nat) (l : List (Fld × Nat)) : State := l.foldl (fun s p => s.setF a p.1 p.2) s

/-- Every field of a list back at its reset value. -/
def State.clearFs (s : State) (a : Nat) (l : List Fld) : State := l.foldl (fun s f => s.setF a f f.reset) s

/-- Every word of a span of registers at its reset value. -/
def State.clearSpan (s : State) (a n : Nat) : State :=
  { s with regs := s.regs.filter fun p => !(decide (64 * a ≤ p.1 ∧ p.1 < 64 * (a + n))) }

/-- One field of every register of a span at its reset value. -/
def State.clearField (s : State) (a n : Nat) (f : Fld) : State :=
  { s with regs := s.regs.filter fun p => !(decide (64 * a ≤ p.1 ∧ p.1 < 64 * (a + n)) && decide ((p.1 - 64 * a) % 512 = f.lo)) }

/-! ### Memory -/

/-- The canonical form of memory: addresses strictly rise, and no byte listed is the zero an unlisted address reads as. -/
def Memory.wf (m : List Host.Cell) : Bool := Tbl.wf (0 : Byte) m

/-- The byte at a local address (R240). -/
def State.readByte (s : State) (a : Nat) : Byte := Tbl.get 0 s.mem a

/-- One byte written, the canonical form kept. -/
def State.writeByte (s : State) (a : Nat) (b : Byte) : State := { s with mem := Tbl.set 0 s.mem a b }

/-- `n` bytes from address `a` on, lowest address first. -/
def State.readBytes (s : State) (a n : Nat) : List Byte := (List.range n).map fun i => s.readByte (a + i)

/-- Bytes written from address `a` on. -/
def State.writeBytes (s : State) (a : Nat) : List Byte → State
  | [] => s
  | b :: bs => (s.writeByte a b).writeBytes (a + 1) bs

/-- A little-endian number of bytes (R14). -/
def natOfBytes : List Byte → Nat
  | [] => 0
  | b :: bs => b.toNat + 256 * natOfBytes bs

/-- The low `n` bytes of a number, lowest first (R14). -/
def bytesOfNat : Nat → Nat → List Byte
  | 0, _ => []
  | n + 1, x => BitVec.ofNat 8 x :: bytesOfNat n (x / 256)

/-- `n` bytes read as a little-endian number. -/
def State.readNat (s : State) (a n : Nat) : Nat := natOfBytes (s.readBytes a n)

/-- A 64-byte line read. -/
def State.readLine (s : State) (a : Nat) : Line := BitVec.ofNat 512 (s.readNat a 64)

/-- The provisional tag of the 64-byte line that holds an address (R97, R246). -/
def State.tagAt (s : State) (a : Nat) : BitVec 2 := Tbl.get 0 s.tags (a / 64)

/-- A tag given to every line that `n` bytes from `a` on touch. -/
def State.setTags (s : State) (a n : Nat) (tag : BitVec 2) : State :=
  if n = 0 then s
  else
    let first := a / 64
    let last := (a + n - 1) / 64
    { s with tags := (List.range (last - first + 1)).foldl (fun t i => Tbl.set 0 t (first + i) tag) s.tags }

/-- Whether some 8-byte word of `n` bytes from `a` on is known to hold an uncorrectable error (R102, R106, R248). -/
def State.anyBad (s : State) (a n : Nat) : Bool :=
  s.bad.any fun p => p.2 && decide (a / 8 ≤ p.1 ∧ p.1 < (a + n + 7) / 8)

/-- The 8-byte word that holds an address is known uncorrectable. -/
def State.markBad (s : State) (a : Nat) : State := { s with bad := Tbl.set false s.bad (a / 8) true }

/-- Words that `n` bytes from `a` on cover whole hold good data again (R243). -/
def State.repair (s : State) (a n : Nat) : State :=
  if s.bad.isEmpty then s
  else { s with bad := s.bad.filter fun p => !(decide (a ≤ 8 * p.1 ∧ 8 * p.1 + 8 ≤ a + n)) }

/-- A write of bytes with its tag: the bytes, the tags of the lines touched, and the repair of words written whole. -/
def State.store (s : State) (a : Nat) (bs : List Byte) (tag : BitVec 2) : State :=
  ((s.writeBytes a bs).setTags a bs.length tag).repair a bs.length

/-! ### The shape of the package -/

/-- Logical islands per field in the class in force (R22, R25): that of the image held, else BOC_CAPACITY's value, or 40 while
that is 0: before self-test, and in a package of no class (R24; DESIGN CHOICE, log 8). -/
def State.perField (s : State) : Nat :=
  match s.boc.force with
  | some k => k
  | none =>
    let k := s.getF aBocCapacity F.bocCapacity_islandsPerField
    if k = 0 then 40 else k

/-- The core-count class in force (R25, R398): the image's while one is held, else the package's own. -/
def State.classInForce (s : State) : Nat :=
  match s.boc.force with
  | some k => 40 - k
  | none => s.getF aBocCapacity F.bocCapacity_class

/-- The number of logical islands. -/
def State.numIslands (s : State) : Nat := 8 * s.perField

/-- The field of a logical island (R23). -/
def State.fieldOf (s : State) (n : Nat) : Nat := n / s.perField

/-- The index of a logical island within its field (R23). -/
def State.indexOf (s : State) (n : Nat) : Nat := n % s.perField

/-- Whether a core exists: an island of the class in force, a core's unit number (R93). -/
def State.hasCore (s : State) (n u : Nat) : Bool := decide (n < s.numIslands ∧ u < 960)

/-- Whether a cluster switch exists. -/
def State.hasCluster (s : State) (n cl : Nat) : Bool := decide (n < s.numIslands ∧ cl < 16)

/-- Ports of the package (R269). -/
def numPorts : Nat := 48

/-- The base address of a core's tile data memory in the tile-memory window (R241). -/
def State.tileBase (s : State) (n u : Nat) : Nat :=
  0x20000000000 + s.fieldOf n * 2 ^ 34 + s.indexOf n * 2 ^ 28 + u / 60 * 2 ^ 24 + u % 60 * 2 ^ 18

/-- The size of tile data memory (R98). -/
def tileSize : Nat := 0x28000

/-- The errata revision decides NaN results (R67). -/
def State.rev1 (s : State) : Bool := decide (s.getF aBocReproKey F.bocReproKey_errataRev = 1)

/-! ### Cores, switches, islands -/

/-- The table key of a core. -/
def ckey (n u : Nat) : Nat := 1024 * n + u

/-- A core's state. -/
def State.core (s : State) (n u : Nat) : Core := Tbl.get Core.reset s.cores (ckey n u)

/-- A core's state replaced. -/
def State.setCore (s : State) (n u : Nat) (c : Core) : State :=
  { s with cores := Tbl.set Core.reset s.cores (ckey n u) c }

/-- A switch's state. -/
def State.cluster (s : State) (n cl : Nat) : Cluster := Tbl.get Cluster.reset s.clusters (16 * n + cl)

/-- A switch's state replaced. -/
def State.setCluster (s : State) (n cl : Nat) (c : Cluster) : State :=
  { s with clusters := Tbl.set Cluster.reset s.clusters (16 * n + cl) c }

/-- An island's state. -/
def State.island (s : State) (n : Nat) : Island := Tbl.get Island.reset s.islands n

/-- An island's state replaced. -/
def State.setIsland (s : State) (n : Nat) (x : Island) : State :=
  { s with islands := Tbl.set Island.reset s.islands n x }

/-- The unit numbers of an island's cores that differ from the island-reset state. -/
def State.liveCores (s : State) (n : Nat) : List Nat :=
  (s.cores.filter fun p => decide (p.1 / 1024 = n)).map fun p => p.1 % 1024

/-- The clusters of an island whose switches differ from the island-reset state. -/
def State.liveClusters (s : State) (n : Nat) : List Nat :=
  (s.clusters.filter fun p => decide (p.1 / 16 = n)).map fun p => p.1 % 16

/-- A scalar register as read: s0 is zero (R96). -/
def Core.rs (c : Core) (r : BitVec 5) : BitVec 32 := if r = 0 then 0 else Tbl.get 0 c.sregs r.toNat

/-- The 64-bit value of a scalar pair, the named register low (R162, R169, R180). -/
def Core.rsPair (c : Core) (r : BitVec 5) : BitVec 64 := c.rs (r + 1) ++ c.rs r

/-- A predicate as read: p0 is true (R96). -/
def Core.rp (c : Core) (p : BitVec 3) : Bool := if p = 0 then true else Tbl.get false c.preds p.toNat

/-- A vector register. -/
def Core.rv (c : Core) (v : BitVec 5) : BitVec 512 := Tbl.get 0 c.vregs v.toNat

/-- The eight scale bytes of a vector register. -/
def Core.rvs (c : Core) (v : BitVec 5) : BitVec 64 := Tbl.get plainScales c.vscales v.toNat

/-- An accumulator entry. -/
def Core.rq (c : Core) (q : Nat) : QEntry := Tbl.get QEntry.zero c.qs q

/-- The active weight stage (R109). -/
def Core.activeStage (c : Core) : Stage := if c.active1 then c.w1 else c.w0

/-- The inactive weight stage (R109). -/
def Core.idleStage (c : Core) : Stage := if c.active1 then c.w0 else c.w1

/-- The number of the inactive stage. -/
def Core.idleNum (c : Core) : Nat := if c.active1 then 0 else 1

/-- The inactive weight stage replaced. -/
def Core.setIdleStage (c : Core) (st : Stage) : Core := if c.active1 then { c with w0 := st } else { c with w1 := st }

/-- A mailbox entry. -/
def Core.rm (c : Core) (e : Nat) : Mbx := Tbl.get Mbx.empty c.mbx e

/-! ### Physical places -/

/-- The unit id of a core or a larger unit (R400): level, field, physical island, cluster, physical core, index. -/
def unitId (level field island cluster core index : Nat) : BitVec 32 :=
  BitVec.ofNat 32 (level + field * 2 ^ 3 + island * 2 ^ 6 + cluster * 2 ^ 12 + core * 2 ^ 16 + index * 2 ^ 22)

/-- The j-th number below `n` that satisfies `ok` (R396), or `n` when there is none. -/
def nthUsable (n j : Nat) (ok : Nat → Bool) : Nat := ((List.range n).filter ok).getD j n

/-- The physical island a logical island is placed on (R396, R397). -/
def State.physIsland (s : State) (n : Nat) : Nat :=
  match Tbl.get none s.flt.islOver n with
  | some p => p
  | none =>
    let f := s.fieldOf n
    nthUsable 42 (s.indexOf n) fun p => !s.flt.retired.contains (unitId 4 f p 0 0 0)

/-- The physical core a logical core is placed on (R396, R397). -/
def State.physCore (s : State) (n u : Nat) : Nat :=
  match Tbl.get none s.flt.coreOver (ckey n u) with
  | some p => p
  | none =>
    nthUsable 64 (u % 60) fun p =>
      !s.flt.retired.contains (unitId 2 (s.fieldOf n) (s.physIsland n) (u / 60) p 0)

/-- The unit id of a logical core. -/
def State.coreId (s : State) (n u : Nat) : BitVec 32 :=
  unitId 2 (s.fieldOf n) (s.physIsland n) (u / 60) (s.physCore n u) 0

/-- The unit id of a logical island. -/
def State.islandId (s : State) (n : Nat) : BitVec 32 := unitId 4 (s.fieldOf n) (s.physIsland n) 0 0 0

/-! ### Beats -/

/-- The beat counter (R376). -/
def State.beat (s : State) : Beat := s.beatAcc.extractLsb' 16 64

/-- Whether beat `a` has reached beat `b` (R375): their difference, read as signed, is zero or positive. -/
def beatReached (a b : Beat) : Bool := decide (0 ≤ (a - b).toInt)

/-- A span of nanoseconds as a beat. -/
def nsBeat (ns : Nat) : Beat := BitVec.ofNat 64 (ns * 65536)

/-! ### Coordinates and control messages -/

/-- A package's coordinate on an axis: 0 X, 1 Y, 2 Z (R4). -/
def coordOn (axis idx : Nat) : Nat :=
  match axis with
  | 0 => idx % 32
  | 1 => idx / 32 % 32
  | _ => idx / 1024 % 16

/-- A package index with one coordinate replaced. -/
def withCoord (axis idx c : Nat) : Nat :=
  match axis with
  | 0 => idx / 32 * 32 + c
  | 1 => idx / 1024 * 1024 + c * 32 + idx % 32
  | _ => c * 1024 + idx % 1024

/-- The package's own index: the held manifest's (R451), or 0 while none is held. -/
def State.self (s : State) : Nat := match s.manifest with | some m => m.self | none => 0

/-- The torus extent on an axis, as the held manifest gives it (R451); 1 while none is held. -/
def State.torus (s : State) (axis : Nat) : Nat := match s.manifest with | some m => coordOn axis m.torusM1 + 1 | none => 1

/-- The slice's box extent on an axis. -/
def State.extent (s : State) (axis : Nat) : Nat := match s.manifest with | some m => coordOn axis m.extentM1 + 1 | none => 1

/-- The slice's low corner on an axis. -/
def State.lowCorner (s : State) (axis : Nat) : Nat := match s.manifest with | some m => coordOn axis m.low | none => 0

/-- Whether the slice owns the ring of an axis (R346). -/
def State.ownsRing (s : State) (axis : Nat) : Bool := s.manifest.isSome && decide (s.extent axis = s.torus axis)

/-- Whether a package is a member of the slice (R345). -/
def State.isMember (s : State) (p : Nat) : Bool :=
  s.manifest.isSome && (List.range 3).all fun a =>
    decide (s.lowCorner a ≤ coordOn a p ∧ coordOn a p < s.lowCorner a + s.extent a)

/-- Whether a port's link is up (R341). -/
def State.linkUp (s : State) (p : Nat) : Bool :=
  let st := s.getF (aLnkState p) F.lnkState_state
  decide (2 ≤ st ∧ st ≤ 5)

/-- Whether a port is fenced (R346, R484). -/
def State.fenced (s : State) (p : Nat) : Bool := (s.getF aGmuFence F.gmuFence_fenced).testBit p

/-- Whether a port can carry control messages (R480): its link is up and it is neither fenced nor quarantined. -/
def State.ctlPort (s : State) (p : Nat) : Bool :=
  s.linkUp p && !s.fenced p && decide (s.getF (aBocDisc p) F.bocDisc_class ≠ 3)

/-- The lowest-numbered port of a direction (0 to 5) that can carry control messages. -/
def State.dirPort (s : State) (dir : Nat) : Option Nat :=
  ((List.range 8).map fun k => 8 * dir + k).find? fun p => s.ctlPort p

/-- The productive directions of an axis toward a destination (R367): up and down. -/
def State.productive (s : State) (axis dest : Nat) : Bool × Bool :=
  let h := coordOn axis s.self
  let t := coordOn axis dest
  if s.ownsRing axis then
    let e := s.torus axis
    let d := (t + e - h) % e
    (decide (0 < d ∧ 2 * d ≤ e), decide (2 * d ≥ e ∧ d ≠ 0))
  else (decide (t > h), decide (t < h))

/-- The port a unicast control message leaves by (R480): the first differing axis in the order X, Y, Z whose productive
direction has a usable port. -/
def State.ctlRoute (s : State) (dest : Nat) : Option Nat :=
  ((List.range 3).filter fun a => decide (coordOn a s.self ≠ coordOn a dest)).findSome? fun a =>
    s.dirPort (2 * a + (if (s.productive a dest).1 then 0 else 1))

/-- A message waits for a port (R542). -/
def State.queueCtl (s : State) (p : Nat) (c : Ctl) : State :=
  { s with ctl := { s.ctl with queue := Tbl.set [] s.ctl.queue p (Tbl.get [] s.ctl.queue p ++ [c]) } }

/-- A message that no port can take is held (R480). -/
def State.holdCtl (s : State) (c : Ctl) : State := { s with ctl := { s.ctl with held := s.ctl.held ++ [c] } }

/-- A message the package delivers to itself. -/
def State.loopCtl (s : State) (m : Msg) : State := { s with ctl := { s.ctl with loop := s.ctl.loop ++ [m] } }

/-- A unicast message on its way (R480). -/
def State.unicast (s : State) (c : Ctl) : State :=
  if c.dest = s.self then s.loopCtl c.msg
  else match s.ctlRoute c.dest with
    | some p => s.queueCtl p c
    | none => s.holdCtl c

/-- Whether a broadcast from source `src` is forwarded on an axis, upward and downward (R481). -/
def State.bcastDirs (s : State) (axis src : Nat) : Bool × Bool :=
  let same := (List.range 3).all fun a => decide (a ≤ axis) || decide (coordOn a s.self = coordOn a src)
  if !same then (false, false)
  else
    let h := coordOn axis s.self
    let sa := coordOn axis src
    let ext := s.extent axis
    let low := s.lowCorner axis
    if s.ownsRing axis then
      let d := (h + ext - sa % ext) % ext
      let m := ext / 2
      (decide (d < m), decide (d > m + 1) || (decide (d = 0) && decide (ext - 1 > m)))
    else
      (decide (h ≥ sa ∧ h + 1 < low + ext), decide (h ≤ sa ∧ low < h))

/-- The neighbour of the package one step along a direction. -/
def State.neighbour (s : State) (dir : Nat) : Nat :=
  let a := dir / 2
  let e := s.torus a
  let h := coordOn a s.self
  withCoord a s.self (if dir % 2 = 0 then (h + 1) % e else (h + e - 1) % e)

/-- A broadcast message forwarded along its tree (R481), as a unicast to a neighbour that has no usable port toward it
(R482). -/
def State.forwardBcast (s : State) (c : Ctl) : State :=
  (List.range 6).foldl (fun s dir =>
    let (up, down) := s.bcastDirs (dir / 2) c.source
    if (if dir % 2 = 0 then up else down) then
      match s.dirPort dir with
      | some p => s.queueCtl p c
      | none => s.unicast { c with bcast := false, dest := s.neighbour dir }
    else s) s

/-- A message from this package to every member, itself included (R481). -/
def State.sendAll (s : State) (m : Msg) : State :=
  (s.forwardBcast { dest := 0, bcast := true, local_ := false, source := s.self, msg := m }).loopCtl m

/-- A message from this package to one package. -/
def State.sendTo (s : State) (dest : Nat) (m : Msg) : State :=
  s.unicast { dest := dest, bcast := false, local_ := false, source := s.self, msg := m }

/-- A link message to the far end of a port's link (R338). -/
def State.sendLink (s : State) (p : Nat) (m : Msg) : State :=
  s.queueCtl p { dest := 0, bcast := false, local_ := true, source := s.self, msg := m }

/-- A port's state. -/
def State.port (s : State) (p : Nat) : Port := Tbl.get Port.reset s.ports p

/-- A port's state replaced. -/
def State.setPort (s : State) (p : Nat) (x : Port) : State := { s with ports := Tbl.set Port.reset s.ports p x }

/-- A control message the package acts on leaves the place it waits in: the package's own queue of messages to itself, or a
port's control buffer, whose entry is free once every message of its flit is taken (R315, R324). -/
def State.takeMsg (s : State) (m : Msg) : State :=
  if s.ctl.loop.contains m then { s with ctl := { s.ctl with loop := s.ctl.loop.erase m } }
  else
    match (List.range numPorts).find? fun p => (s.port p).ctlIn.any fun g => g.any fun c => decide (c.msg = m) with
    | some p =>
      let x := s.port p
      let drop := fun (g : List Ctl) => match g.find? fun c => decide (c.msg = m) with | some c => g.erase c | none => g
      let rec first : List (List Ctl) → List (List Ctl)
        | [] => []
        | g :: l => if g.any fun c => decide (c.msg = m) then (let h := drop g; if h.isEmpty then l else h :: l) else g :: first l
      s.setPort p { x with ctlIn := first x.ctlIn }
    | none => s

/-- The package index of the current slice lead (R436). -/
def State.lead (s : State) : Nat := s.getF aFltState F.fltState_lead

/-- Whether this package is the slice lead. -/
def State.isLead (s : State) : Bool := decide (s.getF aFltState F.fltState_role = 1)

/-- A message of this package from its kind and its fields above bit 23, with its own index in bits 21:8 (R209, R425). -/
def State.msgOf (s : State) (kind : Nat) (fields : List (Nat × Nat)) : Msg :=
  BitVec.ofNat 128 (kind + s.self * 2 ^ 8 + (fields.map fun p => p.2 * 2 ^ p.1).sum)

/-- Bits lo + w − 1 : lo of a message. -/
def msgBits (m : Msg) (lo w : Nat) : Nat := m.toNat / 2 ^ lo % 2 ^ w

/-! ### Events and the ledger -/

/-- An event written into the ring (R433): class, code, flag bits, unit id and detail. The next sequence number, FLT_RING.head, goes on from
all-ones to 0 (DESIGN CHOICE, log 148: neither its table nor R433 says). -/
def State.writeEvent (s : State) (cls code flags : Nat) (unit : BitVec 32) (detail : Nat) : State :=
  let seq := s.getF aFltRing F.fltRing_head
  let rd := s.getF aFltRing F.fltRing_read
  let i := seq % 4096
  let img := seq + s.beat.toNat * 2 ^ 32 + cls * 2 ^ 96 + code * 2 ^ 104 + flags * 2 ^ 112 + unit.toNat * 2 ^ 128
    + s.brt.step * 2 ^ 160 + s.getF aBocBreath F.bocBreath_index * 2 ^ 224
    + detail * 2 ^ 288
  let s := (List.range 8).foldl (fun s k => s.setF (aFltEvent i k) F.fltEvent_word (img / 2 ^ (64 * k))) s
  let full := decide ((seq + 65536 - rd) % 65536 ≥ 4096)
  let s := if full then (s.bump aFltRing F.fltRing_overwritten 1).setF aFltRing F.fltRing_read (rd + 1) else s
  s.setF aFltRing F.fltRing_head (seq + 1)

/-- An event raised: written, unless sixteen of its code and unit have been written in this second (R433). -/
def State.event (s : State) (cls code flags : Nat) (unit : BitVec 32) (detail : Nat) : State :=
  let n := match s.flt.events.find? fun e => decide (e.code = code ∧ e.unit = unit.toNat) with
    | some e => e.count
    | none => 0
  let rest := s.flt.events.filter fun e => !(decide (e.code = code ∧ e.unit = unit.toNat))
  let s1 := { s with flt := { s.flt with events := rest ++ [⟨code, unit.toNat, n + 1⟩] } }
  if n < 16 then s1.writeEvent cls code flags unit detail else s1

/-- A ledger record written unless the rate limit suppresses it (R402): at most one per unit, cause and kind in ten minutes
and sixteen in a minute; retirements (0x04) and BIST failures (0x05) are never limited. -/
def State.ledgerRecord (s : State) (kind cause : Nat) (unit : BitVec 32) (detail : Nat) : State :=
  let now := s.getF aFltLedger F.fltLedger_minutes
  let same := s.flt.ledger.any fun r =>
    decide (r.kind = kind ∧ r.cause = cause ∧ r.unit = unit.toNat ∧ now < r.minutes + 10)
  let many := decide ((s.flt.ledger.filter fun r => decide (r.minutes = now)).length ≥ 16)
  if kind ≠ 4 ∧ kind ≠ 5 ∧ (same ∨ many) then s.bump aFltLedger F.fltLedger_pending 1
  else
    let used := s.getF aFltLedger F.fltLedger_used
    let seq := match s.flt.ledger.getLast? with | some r => r.seq + 1 | none => 0
    let s := s.setF aFltLedger F.fltLedger_used (used + 1)
    { s with flt := { s.flt with ledger := s.flt.ledger ++
        [{ kind := kind, cause := cause, unit := unit.toNat, minutes := now, detail := detail, beat := s.beat, seq := seq }] } }

/-- The level of a unit id (R400). -/
def unitLevel (u : BitVec 32) : Nat := u.toNat % 8

/-- The unit of a level that holds a unit, its id cut to `bits` bits (R400). -/
def unitOwner (level bits : Nat) (u : BitVec 32) : BitVec 32 := BitVec.ofNat 32 (level + u.toNat % 2 ^ bits / 8 * 8)

/-- Units added to a list that lacks them. -/
def addUnits (l xs : List (BitVec 32)) : List (BitVec 32) := l ++ (xs.filter fun x => !l.contains x).eraseDups

/-- The units of a list whose owners at a level have at least `n` members of `level` in the list. -/
def exhausted (level up bits n : Nat) (l : List (BitVec 32)) : List (BitVec 32) :=
  let os := (l.filter fun u => decide (unitLevel u = level)).map (unitOwner up bits)
  os.eraseDups.filter fun o => decide (n ≤ (os.filter fun x => decide (x = o)).length)

/-- The retired set with the units whose repair is used up (R19): a second lane retires its core, a fifth core its cluster, a cluster
its island. -/
def closeRetired (l : List (BitVec 32)) : List (BitVec 32) :=
  let l := addUnits l (exhausted 1 2 22 2 l)
  let l := addUnits l (exhausted 2 3 16 5 l)
  addUnits l (exhausted 3 4 12 1 l)

/-- Whether a unit has been retired: at the last power-up, since, or by a record (R396, R403). -/
def State.isRetired (s : State) (u : BitVec 32) : Bool :=
  s.flt.retired.contains u || s.flt.newly.contains u || s.flt.ledger.any fun r => decide (r.kind = 4 ∧ r.unit = u.toNat)

/-- Every unit that is retired, or out of use because its repair is used up (R19, R403). -/
def State.retiredSet (s : State) : List (BitVec 32) :=
  closeRetired (addUnits (addUnits s.flt.retired s.flt.newly)
    ((s.flt.ledger.filter fun r => decide (r.kind = 4)).map fun r => BitVec.ofNat 32 r.unit))

/-- Usable physical islands of a field (R22, R24), given the retired set: none when the field is retired. -/
def usableIslands (l : List (BitVec 32)) (f : Nat) : Nat :=
  if l.contains (unitId 5 f 0 0 0 0) then 0
  else ((List.range 42).filter fun i => !l.contains (unitId 4 f i 0 0 0)).length

/-- The usable physical islands of the weakest field (R22). -/
def State.weakestField (s : State) : Nat :=
  let l := s.retiredSet
  (List.range 8).foldl (fun m f => min m (usableIslands l f)) 42

/-- Logical islands per field of a core-count class (R22): 0 for no class. -/
def classIslands (c : Nat) : Nat := match c with | 0 => 40 | 1 => 39 | 2 => 38 | _ => 0

/-- The core-count class (R22, R24): the largest whose count the weakest field has. -/
def State.ownClass (s : State) : Nat :=
  let weakest := s.weakestField
  if 40 ≤ weakest then 0 else if weakest = 39 then 1 else if weakest = 38 then 2 else 3

/-- The LPDDR5X channels of a field that remain (R21, R28): those of the map that no retirement waits for. -/
def State.channelsLeft (s : State) (f : Nat) : Nat :=
  let a := aFldChannels f
  ((List.range 16).filter fun c => (s.getF a F.fldChannels_active).testBit c && !(s.getF a F.fldChannels_pending).testBit c).length

/-- BOC_CAPACITY's class, islands and channels brought up to date, once self-test has made them valid (R22, R24, R28). -/
def State.showUnits (s : State) : State :=
  if s.flag aBocCapacity F.bocCapacity_valid then
    let c := s.ownClass
    s.setFs aBocCapacity [(F.bocCapacity_class, c), (F.bocCapacity_islandsPerField, classIslands c),
      (F.bocCapacity_logicalIslands, 8 * classIslands c), (F.bocCapacity_lpddrChannels, ((List.range 8).map s.channelsLeft).sum)]
  else s

/-- The package is lost to its slice (R26, R27): its breath stops, and it sends the lead nothing more, which the lead takes for its loss
(DESIGN CHOICE, log 147: no message of R425 says so). -/
def State.lostToSlice (s : State) : State :=
  { s with rcv := { s.rcv with gone := true }, brt := { s.brt with aborted := s.brt.aborted || s.brt.running } }

/-- What a retirement does to the package's capacity: outside a job BOC_CAPACITY follows it at once (R28); in a job one that leaves a field
fewer islands than the class in force has, or that takes an LPDDR5X channel, is loss of the package (R26, R27). -/
def State.capacityAfter (s : State) (unit : BitVec 32) : State :=
  if !s.brt.job then s.showUnits
  else if unitLevel unit = 6 ∨ s.weakestField < s.perField then s.lostToSlice
  else s

/-- A unit retired (R403): a retirement record and an event; during a job it waits for its swap (R397), and the valve map takes
it up at the next power-up (R396). -/
def State.retireUnit (s : State) (unit : BitVec 32) (cause detail : Nat) : State :=
  if s.flt.retired.contains unit || s.flt.newly.contains unit then s
  else
    let s := (s.ledgerRecord 4 cause unit detail).event 8 0x70 2 unit 0
    State.capacityAfter
      { s with flt := { s.flt with newly := s.flt.newly ++ [unit] }, rcv := { s.rcv with retired := s.rcv.retired + 1 } } unit

/-- A fault detected in a unit (R401, R403): recorded; the third within 60,000 operating minutes retires the unit. -/
def State.faultDetected (s : State) (unit : BitVec 32) (cause detail : Nat) : State :=
  let s := s.ledgerRecord 2 cause unit detail
  let now := s.getF aFltLedger F.fltLedger_minutes
  if 3 ≤ (s.flt.ledger.filter fun r => decide (r.kind = 2 ∧ r.unit = unit.toNat ∧ now ≤ r.minutes + 60000)).length
    then s.retireUnit unit cause detail else s

/-- A suspect cause of the step that is running (R406, R407): bit `b` of the newer uncommitted step's causes. -/
def State.suspect (s : State) (b : Nat) : State :=
  s.setF aFltSusp F.fltSusp_newer (s.getF aFltSusp F.fltSusp_newer ||| 2 ^ b)

/-- A suspect cause of step `k` (R182, R407): the older uncommitted step's when `k` is that step, else the running step's. -/
def State.suspectStep (s : State) (k b : Nat) : State :=
  if k + 1 = s.brt.step ∧ s.getF aFltStep F.fltStep_committed < k then
    s.setF aFltSusp F.fltSusp_older (s.getF aFltSusp F.fltSusp_older ||| 2 ^ b)
  else s.suspect b

/-- The memories whose corrected errors R406 counts: a core's tile memory or instruction store, a field's staging, an
LPDDR5X channel. -/
inductive BurstMem where
  | core (n u : Nat)
  | staging (field : Nat)
  | channel (field ch : Nat)
deriving DecidableEq, Repr

/-- The table key of a memory. -/
def BurstMem.key : BurstMem → Nat
  | .core n u => ckey n u
  | .staging f => 2 ^ 20 + f
  | .channel f ch => 2 ^ 21 + 16 * f + ch

/-- A corrected error counted toward its memory's burst threshold (R406): the error that passes it makes the step suspect
and writes event 0x02. -/
def State.corrected (s : State) (m : BurstMem) : State :=
  let k := Tbl.get 0 s.flt.bursts m.key + 1
  let limit := match m with
    | .core _ _ => s.getF aFltThresh F.fltThresh_tile
    | .staging _ => s.getF aFltThresh F.fltThresh_staging
    | .channel _ _ => s.getF aFltThresh F.fltThresh_lpddr
  let s := { s with flt := { s.flt with bursts := Tbl.set 0 s.flt.bursts m.key k } }
  if k = limit + 1 then (s.event 1 0x02 1 0 (m.key + k * 2 ^ 32)).suspect 1 else s

/-- A fault report to the slice lead (R425): its cause, the breath index, and the fields of the cause. -/
def State.faultReport (s : State) (cause : Nat) (fields : List (Nat × Nat)) : State :=
  s.sendTo s.lead (s.msgOf 0x20 ([(24, cause), (32, s.getF aBocBreath F.bocBreath_index)] ++ fields))

end Sys2Proof.Machine
end

