-- ==== Sys2Proof/Machine/Cycle.lean ====
section
/-! DEFINITION. The island's cycles: how effects deliver (R81, R82, R84, R100, R133, R174, R175), how the switches move data
(R184 to R193), how landings and the weight tree enter (R108, R191, R266), how bundles and groups close (R79, R129), core and
switch faults (R116, R119, R192, R193, R235), and how an island holds (R86 to R94). -/

namespace Sys2Proof.Machine

/-! ### Faults of an island -/

/-- The island's position in the package grid (R218): row and column. -/
def State.gridOf (s : State) (n : Nat) : Nat × Nat :=
  let f := s.fieldOf n
  let i := s.indexOf n
  (5 * (f / 4) + i / 8, 8 * (f % 4) + i % 8)

/-- The island at a place of the package grid, if the class in force has one there (R218, R219). -/
def State.islandAt (s : State) (row col : Nat) : Option Nat :=
  if row < 10 ∧ col < 32 then
    let f := 4 * (row / 5) + col / 8
    let i := 8 * (row % 5) + col % 8
    if i < s.perField then some (f * s.perField + i) else none
  else none

/-- The island that faces an edge in direction 0 north, 1 east, 2 south, 3 west; north is the row above (R218). -/
def State.facing (s : State) (n dir : Nat) : Option Nat :=
  let (r, c) := s.gridOf n
  match dir with
  | 0 => if r = 0 then none else s.islandAt (r - 1) c
  | 1 => s.islandAt r (c + 1)
  | 2 => s.islandAt (r + 1) c
  | _ => if c = 0 then none else s.islandAt r (c - 1)

/-- The queue number by which the neighbour knows queue `q` (R218). -/
def oppQueue (q : Nat) : Nat := (q + 8) % 16

/-- Whether an island is fenced (R235). -/
def State.isFenced (s : State) (n : Nat) : Bool := decide (s.getF (aIslBreath n) F.islBreath_state = 2)

/-- The entries of an island's queues discarded, in both directions (R235). -/
def State.dropQueues (s : State) (n : Nat) : State :=
  let s := s.setIsland n { s.island n with inbound := [], taken := [] }
  (List.range 16).foldl (fun s q =>
    match s.facing n (q / 4) with
    | some m =>
      let y := s.island m
      s.setIsland m { y with inbound := Tbl.set [] y.inbound (oppQueue q) [], taken := Tbl.set [] y.taken (oppQueue q) [] }
    | none => s) s

/-- An unplanned island fault (R235): the island fences its queues, the breath is aborted on the whole package, and the
fault is reported to the slice lead (R425) and the event ring (R434). -/
def State.islandFault (s : State) (n code residue : Nat) : State :=
  if s.isFenced n then s
  else
    let s := (s.setF (aIslBreath n) F.islBreath_state 2).dropQueues n
    let s := { s with brt := { s.brt with aborted := true } }
    let s := s.event 3 0x20 0 (s.islandId n) (n + code * 2 ^ 16)
    s.faultReport 1 [(96, n), (105, code), (113, residue)]

/-- The slots that causes of one kind name. -/
def causeSlots (k : CauseKind) (cs : List Cause) : List Nat := (cs.filter fun c => decide (c.kind = k)).map Cause.slot

/-- The lowest slot of a list, 3 when there is none: the order is S, M, X. -/
def lowSlot (l : List Nat) : Nat := l.foldl min 3

/-- The slot that an illegal bundle records (R119): the first with a reserved encoding, else the first with a duplicate destination, else
S for a second taken transfer, else none; no answer when the bundle is legal. -/
def illegalSlot (cs : List Cause) : Option Nat :=
  if causeSlots .reserved cs ≠ [] then some (lowSlot (causeSlots .reserved cs))
  else if causeSlots .duplicate cs ≠ [] then some (lowSlot (causeSlots .duplicate cs))
  else if causeSlots .secondJump cs ≠ [] then some 0
  else if causeSlots .header cs ≠ [] then some 3 else none

/-- What ISL_CORE_FAULT records of a bundle's causes (R116, R119): slot, code, and whether another slot faulted too. A fault of the
fetch stands alone; an illegal bundle and the faults of execution rank by slot, in the order S, M, X, an illegality in no slot first. -/
def faultOf (cs : List Cause) : Nat × Nat × Bool :=
  match cs.find? fun c => decide (c.kind = .fetch) with
  | some c => (3, c.code, false)
  | none =>
    let ex := cs.filter fun c => decide (c.kind = .execution)
    let low := lowSlot (ex.map Cause.slot)
    let (slot, code, dup) : Nat × Nat × Bool :=
      match illegalSlot cs with
      | some k => if k = 3 ∨ ex = [] ∨ k ≤ low then (k, 0x01, decide (causeSlots .reserved cs = [] ∧ causeSlots .duplicate cs ≠ []))
        else (low, ((ex.find? fun c => decide (c.slot = low)).map Cause.code).getD 0, false)
      | none => (low, ((ex.find? fun c => decide (c.slot = low)).map Cause.code).getD 0, false)
    let dups := (causeSlots .duplicate cs).eraseDups
    let others := causeSlots .reserved cs ++ causeSlots .secondJump cs ++ ex.map Cause.slot ++
      (if dup ∧ dups.length < 3 then [] else dups)
    (slot, code, others.any fun k => decide (k ≠ slot))

/-- Effects that only count what the hardware met: a fault of their bundle does not cancel them. -/
def Eff.counts : Eff → Bool
  | .corrected | .fetchCorrected | .check _ _ => true
  | _ => false

/-- A core fault (R116, R119): nothing its bundle writes is written, the core stops, the first fault since island reset is recorded, and
the island takes the fault. Later causes of the same bundle complete the record. -/
def State.coreFault (s : State) (n u : Nat) (cs : List Cause) : State :=
  let c := s.core n u
  let a := aIslCoreFault n u
  let cyc := (s.island n).cyc
  let all := c.causes ++ cs
  let (slot, code, more) := faultOf all
  let s1 := s.setCore n u { c with flight := c.flight.filter fun f => !f.fresh || f.eff.counts, run := .faulted, causes := all }
  let mine := decide (c.causes ≠ [] ∧ s.getF a F.islCoreFault_addr = c.pc ∧ s.getF a F.islCoreFault_cyc = cyc)
  let s2 :=
    if s.getF a F.islCoreFault_code = 0 ∨ mine then
      s1.setFs a [(F.islCoreFault_code, code), (F.islCoreFault_slot, slot), (F.islCoreFault_addr, c.pc),
        (F.islCoreFault_more, if more then 1 else 0), (F.islCoreFault_cyc, cyc)]
    else s1
  s2.islandFault n code 0

/-- A switch fault (R192, R193): its word moves nothing, the first fault is recorded, and the island takes the fault. -/
def State.switchFault (s : State) (n cl code : Nat) : State :=
  let c := s.cluster n cl
  let a := aIslSwStatus n cl
  let s := s.setCluster n cl { c with faulted := true, word := none, outs := [], writes := [], reads := [], served := [] }
  let s :=
    if s.getF a F.islSwStatus_code = 0 then
      s.setFs a [(F.islSwStatus_state, 3), (F.islSwStatus_code, code), (F.islSwStatus_word, c.pc),
        (F.islSwStatus_cyc, (s.island n).cyc)]
    else s
  s.islandFault n code 0

/-! ### Delivery -/

/-- Spread a byte mask over bits. -/
def byteMask (m : BitVec 64) : Nat := packLanes 8 64 fun i => if m.getLsbD i then 255 else 0

/-- Spread a segment mask over the eight scale bytes. -/
def scaleMask (m : BitVec 8) : Nat := packLanes 8 8 fun i => if m.getLsbD i then 255 else 0

/-- New bits where the mask is set, old bits elsewhere. -/
def mergeBits {w : Nat} (old new mask : BitVec w) : BitVec w := (old &&& ~~~mask) ||| (new &&& mask)

/-- The mma effects of a core's flights on entries qa to qb dropped: a clear discards them (R84). -/
def dropAdds (qa qb : Nat) (l : List Flight) : List Flight :=
  l.filter fun f => match f.eff with
    | .accAdd q _ => !(decide (qa ≤ q ∧ q ≤ qb))
    | _ => true

/-- The lanes of an entry after the contributions of one mma (R47). -/
def QEntry.addLanes (q : QEntry) (ls : List LaneAdd) : QEntry :=
  { q with lanes := (ls.zipIdx).foldl (fun t p => Tbl.set Lane.zero t p.2 ((Tbl.get Lane.zero t p.2).add p.1)) q.lanes }

/-- An effect on the core's own registers; `cyc` is the cycle count of the cycle that ends. -/
def Core.apply (c : Core) (cyc : Nat) : Eff → Core
  | .setS r x => if r = 0 then c else { c with sregs := Tbl.set 0 c.sregs r x }
  | .setCyc r => if r = 0 then c else { c with sregs := Tbl.set 0 c.sregs r (BitVec.ofNat 32 cyc) }
  | .setP p b => if p = 0 then c else { c with preds := Tbl.set false c.preds p b }
  | .setV v mask data smask scales =>
    let old := Tbl.get 0 c.vregs v
    let olds := Tbl.get plainScales c.vscales v
    { c with vregs := Tbl.set 0 c.vregs v (mergeBits old data (BitVec.ofNat 512 (byteMask mask))),
             vscales := Tbl.set plainScales c.vscales v (mergeBits olds scales (BitVec.ofNat 64 (scaleMask smask))) }
  | .setKey k x => { c with keys := Tbl.set 0 c.keys k x }
  | .setTensor x => { c with tensor := x &&& 0x7FFFFFFF#32 }
  | .setAstat x => { c with astat := x }
  | .orAstat x => { c with astat := c.astat ||| x }
  | .setStep x => { c with step := x }
  | .setProv x => { c with prov := x }
  | .swap =>
    let d := { c with active1 := !c.active1 }
    d.setIdleStage Stage.empty
  | .accAdd q ls => { c with qs := Tbl.set QEntry.zero c.qs q ((c.rq q).addLanes ls) }
  | .accClear qa qb anchor =>
    { c with
      qs := (List.range (qb - qa + 1)).foldl (fun t i => Tbl.set QEntry.zero t (qa + i) { anchor := anchor, lanes := [] }) c.qs,
      flight := dropAdds qa qb c.flight }
  | .takeMbx e => { c with mbx := Tbl.set Mbx.empty c.mbx e { c.rm e with full := false } }
  | .present p => { c with port := some p }
  | .remote t r => { c with trk := Tbl.set none c.trk t (some r) }
  | .fillPart fmt part data => c.setIdleStage (c.idleStage.fill fmt part data)
  | .endBreath => { c with ending := true }
  | .readSync r _ x => if r = 0 then c else { c with sregs := Tbl.set 0 c.sregs r x }
  | _ => c

/-- The launch queue that a put channel is bound to (R166), as one number. -/
def State.putQueue (s : State) (n u ch : Nat) : Nat :=
  64 * s.getF (aIslPutBind n u ch) F.islPutBind_port + s.getF (aIslPutBind n u ch) F.islPutBind_queue

/-- A quarter of a flit pushed (R167): it joins the quarters that the bound queue's channels hold, in the order they arrive; the channel's
fourth takes the first four of them, its own unless another channel is bound to the same queue, into the path to that queue. -/
def State.putQuarter (s : State) (n u ch : Nat) (data : Line) (prov : BitVec 2) : State :=
  let c := s.core n u
  let h := Tbl.get Chan.empty c.chans ch
  let a := aIslPutBind n u ch
  let key := s.putQueue n u ch
  let l := Tbl.get [] s.fab.parts key ++ [data]
  let pv := match h.quarters with | [] => prov | _ => h.prov
  if h.quarters.length < 3 then
    let s := s.setCore n u { c with chans := Tbl.set Chan.empty c.chans ch { quarters := h.quarters ++ [data], prov := pv } }
    { s.setF a F.islPutBind_quarters (h.quarters.length + 1) with fab := { s.fab with parts := Tbl.set [] s.fab.parts key l } }
  else
    let own := h.quarters ++ [data]
    let q := if l.length < 4 then own else l.take 4
    let x := s.island n
    let flit : PutFlit := { port := s.getF a F.islPutBind_port, queue := s.getF a F.islPutBind_queue, prov := h.prov,
                            q0 := q.getD 0 0, q1 := q.getD 1 0, q2 := q.getD 2 0, q3 := q.getD 3 0 }
    let s := s.setCore n u { c with chans := Tbl.set Chan.empty c.chans ch Chan.empty }
    let s := (s.setIsland n { x with launchOut := x.launchOut ++ [flit] }).setF a F.islPutBind_quarters 0
    { s with fab := { s.fab with parts := Tbl.set [] s.fab.parts key (l.drop 4) } }

/-- Whether capture record `r` of a cluster's buffer is empty: its operands' class bytes read zero (R419). -/
def State.captureEmpty (s : State) (n cl r : Nat) : Bool := decide (s.getF (aFltCapture n cl r 0) F.fltCapture_word % 65536 = 0)

/-- A capture record stored in the first empty slot of the cluster's buffer (R419). -/
def State.capture (s : State) (n cl img : Nat) : State :=
  match (List.range 4).find? fun r => s.captureEmpty n cl r with
  | some r => (List.range 128).foldl (fun s k => s.setF (aFltCapture n cl r k) F.fltCapture_word (img / 2 ^ (64 * k))) s
  | none => s

/-- Check failures of one instruction (R71, R406, R419, R434): the counter rises by the failing lanes, the step is suspect,
an event is written and the operands are captured. The spec does not say in which cycle a failure is found: the counter rises in the
instruction's issue cycle (DESIGN CHOICE, log 167). -/
def State.checkFail (s : State) (n u k : Nat) (image : Option Nat) : State :=
  let s := (s.bump (aFltCoreChk n u) F.fltCoreChk_count k).suspect 0
  let s := s.event 1 0x01 1 (s.coreId n u) (s.getF (aFltCoreChk n u) F.fltCoreChk_count)
  match image with
  | some img => s.capture n (u / 60) img
  | none => s

/-- A susp.set report (R182): counted, the first of the breath recorded, and the step it names suspect. -/
def State.suspReport (s : State) (n u : Nat) (step : BitVec 64) (reason : BitVec 16) : State :=
  let a := aIslSusp n
  let s := if s.flag a F.islSusp_valid then s
    else s.setFs a [(F.islSusp_reason, reason.toNat), (F.islSusp_unit, u), (F.islSusp_valid, 1)]
  (s.bump a F.islSusp_count 1).suspectStep step.toNat 5

/-- An effect delivered. -/
def State.deliver (s : State) (n u : Nat) (e : Eff) : State :=
  match e with
  | .store addr bytes tag => s.store (s.tileBase n u + addr) bytes tag
  | .put ch data prov => s.putQuarter n u ch data prov
  | .syncSet ctr x => s.setF (aIslSync n ctr) F.islSync_value x.toNat
  | .syncAdd ctr x => s.wrapAdd (aIslSync n ctr) F.islSync_value x.toNat
  | .suspect step reason => s.suspReport n u step reason
  | .corrected => (s.bump (aIslCoreEcc n u) F.islCoreEcc_tmCorrected 1).corrected (.core n u)
  | .fetchCorrected => (s.bump (aIslCoreEcc n u) F.islCoreEcc_isCorrected 1).corrected (.core n u)
  | .check lanes image => s.checkFail n u lanes image
  | .waitLate => s.bump (aIslWaitLate n) F.islWaitLate_count 1
  | .remote t r => ((s.setCore n u ((s.core n u).apply 0 (.remote t r))).bump aGmuTrack F.gmuTrack_open 1)
  | e => s.setCore n u ((s.core n u).apply (s.island n).cyc e)

/-- Whether an effect is a counter set, a counter addition, or neither: the order of R175 within a cycle. -/
def Eff.phase : Eff → Nat
  | .syncSet _ _ => 1
  | .syncAdd _ _ => 2
  | _ => 0

/-- Whether an effect is an smov write of astat, which takes effect before the conditions of its cycle (R133). -/
def Eff.setsAstat : Eff → Bool
  | .setAstat _ => true
  | _ => false

/-- The effects of a core that deliver when the cycle ends, in issue order (R81, R82), astat writes first (R133). -/
def Core.due (c : Core) : List Eff :=
  let l := (c.flight.filter fun f => decide (f.left ≤ 1)).map Flight.eff
  (l.filter Eff.setsAstat) ++ l.filter fun e => !e.setsAstat

/-- The flights that stay in flight, one issue cycle nearer. -/
def Core.tickFlights (c : Core) : Core :=
  { c with flight := (c.flight.filter fun f => decide (1 < f.left)).map fun f => { f with left := f.left - 1, fresh := false } }

/-- Every due effect of an island's cores in one phase, cores in the order given. -/
def State.deliverPhase (s : State) (n ph : Nat) (due : List (Nat × List Eff)) : State :=
  due.foldl (fun s p => (p.2.filter fun e => decide (e.phase = ph)).foldl (fun s e => s.deliver n p.1 e) s) s

/-- A request tracker freed, its request's completion having been counted (R171). -/
def State.freeTracker (s : State) (n u k : Nat) : State :=
  let c := s.core n u
  s.setCore n u { c with counting := c.counting.filter fun t => decide (t ≠ k) }

/-- The additions that arrived from outside in this cycle, applied after its sets (R175); each frees the tracker whose completion it counts
(R171). -/
def State.applyAdds (s : State) (n : Nat) : State :=
  let x := s.island n
  (x.adds.foldl (fun s p =>
    let s := s.wrapAdd (aIslSync n p.ctr) F.islSync_value p.amt.toNat
    match p.free with | some (u, k) => s.freeTracker n u k | none => s) s).setIsland n { x with adds := [] }

/-! ### Switches -/

/-- Route ids a route word names (R186). -/
def wordRoutes (w : BitVec 128) : List Nat :=
  ((List.range 8).filter fun i => w.getLsbD (18 + 9 * i + 8)).map fun i => bitsAt w.toNat (18 + 9 * i) 8

/-- A route table entry (R185). -/
def State.route (s : State) (n cl id : Nat) : BitVec 128 :=
  BitVec.ofNat 128 (s.getF (aRouteTable n cl id 0) F.routeTable_word + s.getF (aRouteTable n cl id 1) F.routeTable_word * 2 ^ 64)

/-- The source of a route entry (R185). -/
def routeSrc (e : BitVec 128) : Nat := bitsAt e.toNat 0 7

/-- Whether a source code is one R185 lists. -/
def srcOk (src : Nat) : Bool := decide (src < 60 ∨ (64 ≤ src ∧ src < 68))

/-- Mesh outputs of a route entry. -/
def routeMesh (e : BitVec 128) : List Nat := (List.range 4).filter fun d => e.getLsbD (16 + d)

/-- Mailboxes of a route entry. -/
def routeCores (e : BitVec 128) : List Nat := (List.range 60).filter fun k => e.getLsbD (24 + k)

/-- The neighbouring cluster in a direction, or none at the island's edge (R184). -/
def meshNeighbour (cl dir : Nat) : Option Nat :=
  match dir with
  | 0 => if cl < 4 then none else some (cl - 4)
  | 1 => if cl % 4 = 3 then none else some (cl + 1)
  | 2 => if 12 ≤ cl then none else some (cl + 4)
  | _ => if cl % 4 = 0 then none else some (cl - 1)

/-- The crossing queue a cluster's edge port belongs to (R184). -/
def edgeQueue (cl dir : Nat) : Nat := 4 * dir + (if dir % 2 = 0 then cl % 4 else cl / 4)

/-- The rated release latency L_f at a setpoint code (R223). -/
def ratedFwd (code : Nat) : Nat := if code ≤ 14 then 6 else if code ≤ 18 then 7 else if code ≤ 22 then 8 else 9

/-- The rated return latency L_r at a setpoint code (R223). -/
def ratedRet (code : Nat) : Nat := if code ≤ 14 then 3 else if code ≤ 22 then 4 else 5

/-- The rated latency of the field-side crossings at a setpoint code (R226). -/
def ratedSide (code : Nat) : Nat := if code ≤ 14 then 4 else if code ≤ 18 then 5 else if code ≤ 22 then 6 else 7

/-- The release latency L_f in force, which calibration sets to the rated one (R221, R223). -/
def State.latF (s : State) : Nat := ratedFwd (s.getF aBocSetpoint F.bocSetpoint_current)

/-- The return latency L_r in force (R222, R223). -/
def State.latR (s : State) : Nat := ratedRet (s.getF aBocSetpoint F.bocSetpoint_current)

/-- The visible entry at the head of an inbound queue, if there is one (R221). -/
def State.xHead (s : State) (n q : Nat) : Option XEntry :=
  match Tbl.get [] (s.island n).inbound q with
  | e :: _ => if e.arrived ∧ e.stamp + s.latF ≤ (s.island n).cyc then some e else none
  | [] => none

/-- Entries of an outbound queue that are not free to the writer (R222): those the reader still holds, and those read whose
free indication has not arrived or is too early in this breath. -/
def State.xUsed (s : State) (n q : Nat) : Nat :=
  let cyc := (s.island n).cyc
  let waiting := (Tbl.get [] (s.island n).taken q).filter fun f =>
    !(f.arrived && (f.old || decide (f.cyc + s.latR ≤ cyc)))
  match s.facing n (q / 4) with
  | some m => (Tbl.get [] (s.island m).inbound (oppQueue q)).length + waiting.length
  | none => 16

/-- Whether a write into an outbound queue finds no free entry (R190, R219). A fenced island discards writes (R235). -/
def State.xFull (s : State) (n q : Nat) : Bool :=
  match s.facing n (q / 4) with
  | some m => if s.isFenced m then false else decide (16 ≤ s.xUsed n q)
  | none => true

/-- What a source presents in this cycle to the route of index `id` (R187): a core port's data with that route id, a mesh
input's data, or the head of an edge queue. -/
def State.sourceData (s : State) (n cl id src : Nat) : Option Present :=
  if src < 60 then
    match (s.core n (60 * cl + src)).port with
    | some p => if p.rid = id then some p else none
    | none => none
  else
    let d := src - 64
    match meshNeighbour cl d with
    | some _ => Tbl.get none (s.cluster n cl).mesh d
    | none =>
      match s.xHead n (edgeQueue cl d) with
      | some e => some { rid := id, data := e.data, prov := e.prov }
      | none => none

/-- The crossing queues on which a word stalls its switch in this cycle (R190). -/
def State.wordStalls (s : State) (n cl : Nat) (w : BitVec 128) : List Nat :=
  (wordRoutes w).flatMap fun id =>
    let e := s.route n cl id
    let src := routeSrc e
    let rd := if 64 ≤ src ∧ (meshNeighbour cl (src - 64)).isNone ∧ (s.xHead n (edgeQueue cl (src - 64))).isNone
      then [edgeQueue cl (src - 64)] else []
    let wr := if (s.sourceData n cl id src).isSome then
        ((routeMesh e).filter fun d => (meshNeighbour cl d).isNone && s.xFull n (edgeQueue cl d)).map (edgeQueue cl)
      else []
    rd ++ wr

/-- Whether two named routes share a destination (R189). -/
def routesConflict : List (BitVec 128) → Bool
  | [] => false
  | e :: es => es.any (fun f => (routeMesh e).any (fun d => (routeMesh f).contains d) ||
      (routeCores e).any (fun k => (routeCores f).contains k)) || routesConflict es

/-- Whether a word or an entry it names is invalid (R189). -/
def State.wordInvalid (s : State) (n cl : Nat) (w : BitVec 128) : Bool :=
  decide (w.toNat / 2 ^ 90 ≠ 0) || decide (bitsAt w.toNat 0 2 = 3) ||
    (wordRoutes w).any fun id =>
      let e := s.route n cl id
      !e.getLsbD 127 || !srcOk (routeSrc e)

/-- A route word's moves in one cycle (R187): what goes to mesh outputs and mailboxes at the end of the cycle, which edge
queues are read, and which sources are delivered. -/
def State.moveWord (s : State) (n cl : Nat) (w : BitVec 128) (rep : Nat) : State :=
  (wordRoutes w).foldl (fun s id =>
    let e := s.route n cl id
    let src := routeSrc e
    match s.sourceData n cl id src with
    | none => s
    | some p =>
      let c := s.cluster n cl
      let entry := (bitsAt e.toNat 8 6 + (if e.getLsbD 14 then rep else 0)) % 64
      let edge := decide (64 ≤ src) && (meshNeighbour cl (src - 64)).isNone
      s.setCluster n cl { c with
        outs := c.outs ++ (routeMesh e).map fun d => (d, p),
        writes := c.writes ++ (routeCores e).map fun k => { core := k, entry := entry, data := p.data, prov := p.prov },
        reads := if edge then c.reads ++ [edgeQueue cl (src - 64)] else c.reads,
        served := c.served ++ [src] }) s

/-- One cycle of the word a switch is running: its checks, then its moves (R187, R189). -/
def State.runWord (s : State) (n cl : Nat) : State :=
  let c := s.cluster n cl
  match c.word with
  | none => s
  | some r =>
    if bitsAt r.word.toNat 0 2 ≠ 0 then
      if s.wordInvalid n cl r.word then s.switchFault n cl 0x42 else s
    else if s.wordInvalid n cl r.word then s.switchFault n cl 0x42
    else if routesConflict ((wordRoutes r.word).map (s.route n cl)) then s.switchFault n cl 0x41
    else s.moveWord n cl r.word r.rep

/-- The crossing stalls of an island's running words in this cycle. -/
def State.switchStalls (s : State) (n : Nat) : List StallAt :=
  (s.liveClusters n).flatMap fun cl =>
    match (s.cluster n cl).word with
    | some r =>
      if bitsAt r.word.toNat 0 2 = 0 ∧ !s.wordInvalid n cl r.word then
        (s.wordStalls n cl r.word).map fun q => { unit := 960 + cl, slot := 0, cause := 2, id := q }
      else []
    | none => []

/-- Data that no named route delivers in the cycle that ends (R189): the switches concerned. -/
def State.unrouted (s : State) (n : Nat) : List Nat :=
  ((s.liveCores n).filter fun u =>
      (s.core n u).port.isSome && !(s.cluster n (u / 60)).served.contains (u % 60)).map (· / 60)
    ++ (s.liveClusters n).filter fun cl =>
      (List.range 4).any fun d =>
        (Tbl.get none (s.cluster n cl).mesh d).isSome && !(s.cluster n cl).served.contains (64 + d)

/-- Whether a mailbox write would find its entry full: full, and no recv of this cycle takes it (R108, R188). -/
def State.overwrites (s : State) (n cl : Nat) (w : MbxWrite) : Bool :=
  let c := s.core n (60 * cl + w.core)
  (c.rm w.entry).full && !(c.due.any fun e => decide (e = .takeMbx w.entry))

/-- The faults a switch meets at the end of a cycle: unrouted data, then mailbox overwrite (R192). -/
def State.endFaults (s : State) (n : Nat) : State :=
  let s := (s.unrouted n).foldl (fun s cl => s.switchFault n cl 0x40) s
  ((s.liveClusters n).filter fun cl => (s.cluster n cl).writes.any fun w => s.overwrites n cl w).foldl
    (fun s cl => s.switchFault n cl 0x07) s

/-- A mailbox entry written (R107). -/
def State.writeMbx (s : State) (n u e : Nat) (data : Line) (prov : BitVec 2) : State :=
  let c := s.core n u
  s.setCore n u { c with mbx := Tbl.set Mbx.empty c.mbx e { data := data, full := true, prov := prov } }

/-- A parity mismatch of an entry of crossing `q` of island `n` at its release (R227): an event and a suspect cause; the entry is delivered
unchanged. -/
def State.crossingParity (s : State) (n q : Nat) (bad : Bool) : State :=
  if bad then (s.event 3 0x21 1 (s.islandId n) (n + q * 2 ^ 16)).suspect 2 else s

/-- An entry read from an edge queue: it leaves the reader's FIFO, and the writer learns of it in time (R222). -/
def State.xTake (s : State) (n q : Nat) : State :=
  if s.isFenced n then s
  else
  let x := s.island n
  let s1 := s.setIsland n { x with inbound := Tbl.set [] x.inbound q (Tbl.get [] x.inbound q).tail }
  let par := match Tbl.get [] x.inbound q with | e :: _ => e.badPar | [] => false
  let s2 := s1.crossingParity n q par
  match s.facing n (q / 4) with
  | some m =>
    let y := s2.island m
    let l := Tbl.get [] y.taken (oppQueue q) ++ [{ cyc := x.cyc, old := false, arrived := false }]
    s2.setIsland m { y with taken := Tbl.set [] y.taken (oppQueue q) l }
  | none => s2

/-- Data written to a mesh output at the end of a cycle (R184): the neighbour's mesh input, or the edge's crossing queue. -/
def State.meshOut (s : State) (n cl : Nat) (cyc : Nat) (d : Nat) (p : Present) : State :=
  match meshNeighbour cl d with
  | some m =>
    let y := s.cluster n m
    s.setCluster n m { y with mesh := Tbl.set none y.mesh ((d + 2) % 4) (some p) }
  | none =>
    let q := edgeQueue cl d
    match s.facing n d with
    | some m =>
      if s.isFenced m || s.isFenced n then s
      else
        let y := s.island m
        let l := Tbl.get [] y.inbound (oppQueue q) ++
          [{ data := p.data, prov := p.prov, stamp := cyc, arrived := false, badPar := false }]
        s.setIsland m { y with inbound := Tbl.set [] y.inbound (oppQueue q) l }
    | none => s

/-- The end of a cycle for the switches: mesh inputs empty, then the words' mailbox writes, mesh writes and queue reads. -/
def State.endSwitches (s : State) (n : Nat) : State :=
  let cls := s.liveClusters n
  let old := cls.map fun cl => (cl, s.cluster n cl)
  let s := cls.foldl (fun s cl =>
    let c := s.cluster n cl
    s.setCluster n cl { c with mesh := [], outs := [], writes := [], reads := [], served := [] }) s
  let cyc := (s.island n).cyc
  old.foldl (fun s p =>
    let s := p.2.writes.foldl (fun s w => s.writeMbx n (60 * p.1 + w.core) w.entry w.data w.prov) s
    let s := p.2.reads.foldl (fun s q => s.xTake n q) s
    p.2.outs.foldl (fun s o => s.meshOut n p.1 cyc o.1 o.2) s) s

/-- An addition to an island counter sent through the island's side-port crossing (R175, R226); one that counts the completion of a remote
operation names the tracker it frees (R171). -/
def State.addCounter (s : State) (n c : Nat) (x : BitVec 32) (free : Option (Nat × Nat)) : State :=
  let y := s.island n
  s.setIsland n { y with side := y.side ++ [{ ctr := c, amt := x, free := free }] }

/-- The test of R174 on 32-bit counts: `x` has reached `y`. -/
def reached32 (x y : Nat) : Bool := decide (0 ≤ (BitVec.ofNat 32 x - BitVec.ofNat 32 y).toInt)

/-- A signal applied (R259, R285): to a staging counter at once, to an island counter through its side port. -/
def State.applySignal (s : State) (g : Signal) : State :=
  match g.kind with
  | 1 => s.wrapAdd (aStmCtr g.loc g.ctr) F.stmCtr_value g.amt.toNat
  | 2 => s.addCounter g.loc g.ctr g.amt none
  | _ => s

/-- A landing completes (R285): its stream's completion counter rises, and its signal is applied when it is due. -/
def State.landEnd (s : State) (e : LandEnd) : State :=
  let s := s.wrapAdd (aCrpCc e.stream) F.crpCc_value 1
  match e.sig with
  | some g => s.applySignal g
  | none => s

/-- A landing's entry written into its mailbox; the fourth completes the landing (R285). -/
def State.landWrite (s : State) (n : Nat) (w : LandWrite) (rest : List LandWrite) : State :=
  let s := s.writeMbx n w.unit w.entry w.data w.prov
  let s := s.setIsland n { s.island n with released := rest }
  match w.fin with
  | some e => s.landEnd e
  | none => s

/-- Released landings written into their mailboxes (R191, R108): the oldest enters unless its entry is full, a route has
written that mailbox in this cycle, or a landing has entered one already; `busy` lists the mailboxes the routes write. A cycle in which it
waits on a full entry is counted. -/
def State.landOne (s : State) (n : Nat) (busy : List Nat) : State :=
  let x := s.island n
  match x.released with
  | [] => s
  | w :: ws =>
    if ((s.core n w.unit).rm w.entry).full then s.bump (aIslMbxHold n) F.islMbxHold_cycles 1
    else if x.landed || busy.contains w.unit then s
    else s.landWrite n w ws

/-- The unit numbers of the mailboxes that the routes of this cycle write (R191). -/
def State.routeBusy (s : State) (n : Nat) : List Nat :=
  (s.liveClusters n).flatMap fun cl => (s.cluster n cl).writes.map fun w => 60 * cl + w.core

/-- How many 16-byte pieces a part of a tile has (R265). -/
def partPieces (part : Nat) : Nat := if part = 2 then 1 else 4

/-- The part that follows a part of a tile, if its format needs one (R265). -/
def nextPart (fmt : BitVec 4) (part : Nat) : Option Nat :=
  if part = 0 then (if fmtBits fmt = 16 then none else some 1)
  else if part = 1 then (if fmtScaled fmt then some 2 else none) else none

/-- The cores a cluster mask names. -/
def maskCores (mask : BitVec 16) : List Nat :=
  ((List.range 16).filter fun cl => mask.getLsbD cl).flatMap fun cl => (List.range 60).map fun k => 60 * cl + k

/-- One island cycle of the distributor (R266): 16 bytes of the tile under way, when their part has arrived; a part that is
complete stands in every inactive stage of the mask. -/
def State.distribute (s : State) (n : Nat) : State :=
  let x := s.island n
  match x.fill, x.treeIn with
  | some f, p :: ps =>
    if f.pieces + 1 < partPieces f.part then s.setIsland n { x with fill := some { f with pieces := f.pieces + 1 } }
    else
      let s := s.setIsland n { x with
        treeIn := ps,
        fill := (nextPart f.fmt f.part).map fun k => { f with part := k, pieces := 0 } }
      (maskCores f.mask).foldl (fun s u =>
        let c := s.core n u
        s.setCore n u (c.setIdleStage (c.idleStage.fill p.fmt p.part p.data))) s
  | _, _ => s

/-! ### Bundles -/

/-- The fault that fetching the core's next bundle raises before it issues (R105, R106): outside the executable range, or an
uncorrectable word. -/
def State.fetchCode (s : State) (n u : Nat) (c : Core) (ecc : Ecc) : Option Nat :=
  if (match c.exec with | some e => decide (c.pc < e.first ∨ e.last < c.pc) | none => false) then some 0x05
  else if ecc = .uncorrectable ∨ s.anyBad (s.tileBase n u + tileSize + 16 * c.pc) 16 then some 0x04
  else none

/-- The first known-bad word's address among `len` bytes from `a` on, or `a`. -/
def State.badAt (s : State) (a len : Nat) : Nat :=
  match s.bad.find? fun p => p.2 && decide (a / 8 ≤ p.1 ∧ p.1 < (a + len + 7) / 8) with
  | some p => 8 * p.1
  | none => a

/-- A fault of the fetch (R105, R106, R116); an uncorrectable word is counted, reported and known from then on (R120, R434). -/
def State.fetchFaulted (s : State) (n u code : Nat) : State :=
  let s :=
    if code = 0x04 then
      let a := s.badAt (s.tileBase n u + tileSize + 16 * (s.core n u).pc) 16
      let s := (s.markBad a).bump (aIslCoreEcc n u) F.islCoreEcc_isUncorrected 1
      (s.event 2 0x10 2 (s.coreId n u) (a - s.tileBase n u)).faultDetected (s.coreId n u) 2 0x04
    else s
  s.coreFault n u [{ kind := .fetch, slot := 3, code := code }]

/-- A core in a breath that was given nothing in the cycle that ends issues the bundle at its address as a no-operation bundle (R77):
it is fetched and its header counts, with its end-of-group mark and its reserved bits (R79, R80, R105, R106, R122). -/
def State.fetchIdle (s : State) (n u : Nat) : State :=
  let c := s.core n u
  if c.open_ ∨ c.run ≠ .issuing then s
  else
    match s.fetchCode n u c .clean with
    | some code => s.fetchFaulted n u code
    | none =>
      let b := s.readByte (s.tileBase n u + tileSize + 16 * c.pc)
      if 8 ≤ c.group ∨ b.toNat / 16 % 4 ≠ 0 then s.coreFault n u [{ kind := .header, slot := 3, code := 0x01 }]
      else s.setCore n u { c with open_ := true, eog := b.getLsbD 3 }

/-- The bundle a core issued in the cycle that ends is closed: its group ends or goes on, a taken transfer and breath.end
take effect at the end of the group (R79, R129). A faulted core stays at its bundle (R116). -/
def Core.closeBundle (c : Core) : Core :=
  if c.run = .faulted then { c with open_ := false, slots := [], dests := [], cmds := [], jump := none, causes := [] }
  else if c.open_ then
    let t := match c.jump with | some t => some t | none => c.taken
    let c := { c with open_ := false, slots := [], dests := [], cmds := [], jump := none }
    if c.eog then
      { c with pc := (match t with | some t => t | none => (c.pc + 1) % 2048), taken := none, group := 0,
               run := if c.ending then .ended else c.run, ending := false }
    else { c with pc := (c.pc + 1) % 2048, taken := t, group := c.group + 1 }
  else c

/-- A bundle taken back, to issue whole when its island's hold ends (R86): its effects, destinations and transfer are gone. -/
def Core.undo (c : Core) : Core :=
  if c.open_ then
    { c with flight := c.flight.filter fun f => !f.fresh, open_ := false, eog := false, slots := [], dests := [], cmds := [],
             jump := none }
  else c

/-! ### Cycles -/

/-- The part of a cycle that passes whether the island issues or holds (R108, R175, R191, R216, R266). -/
def State.anyCycle (s : State) (n : Nat) (busy : List Nat) : State :=
  let s := (s.applyAdds n).landOne n busy
  let s := (s.setIsland n { s.island n with landed := false, ticks := (s.island n).ticks + 1 }).distribute n
  if s.getF (aIslClock n) F.islClock_throttle = 0 then s else s.bump (aIslThrottle n) F.islThrottle_cycles 1

/-- Running words step to their next repetition; a word whose repetitions are over ends (R187). -/
def Cluster.nextRep (c : Cluster) : Cluster :=
  match c.word with
  | some r => if r.rep < bitsAt r.word.toNat 2 16 then { c with word := some { r with rep := r.rep + 1 } } else { c with word := none }
  | none => c

/-- The island counts one more cycle (R87, saturating by R96). -/
def Island.nextCyc (x : Island) : Island := { x with cyc := min (x.cyc + 1) (2 ^ 32 - 1) }

/-- The effects of an issue cycle that ends (R81, R82, R84, R100, R133, R175): what is due delivers, the switches move, counters are set and
then added to, landings and the weight tree advance, and the bundles close. -/
def State.deliverCycle (s : State) (n : Nat) : State :=
  let us := s.liveCores n
  let due := us.map fun u => (u, (s.core n u).due)
  let busy := s.routeBusy n
  let s := us.foldl (fun s u => s.setCore n u { (s.core n u).tickFlights with port := none }) s
  let s := s.deliverPhase n 0 due
  let s := s.endSwitches n
  let s := s.deliverPhase n 1 due.reverse
  let s := s.deliverPhase n 2 due
  let s := s.anyCycle n busy
  (s.liveCores n).foldl (fun s u => s.setCore n u (s.core n u).closeBundle) s

/-- The words of an island's switches begin the new cycle (R187): the next repetition, moved unless one of them stalls (R190). -/
def State.beginCycle (s : State) (n : Nat) : State :=
  let s := (s.liveClusters n).foldl (fun s cl => s.setCluster n cl (s.cluster n cl).nextRep) s
  let st := s.switchStalls n
  if st.isEmpty then (s.liveClusters n).foldl (fun s cl => s.runWord n cl) s
  else s.setIsland n { s.island n with stalls := st, resume := true }

/-- An issue cycle ends and the next begins (R81, R87); once the breath is aborted the island ends the cycle under way and issues no more
(R235). -/
def State.issueCycle (s : State) (n : Nat) : State :=
  let s := (s.liveCores n).foldl (fun s u => s.fetchIdle n u) s
  let s := (s.endFaults n).deliverCycle n
  let x := (s.island n).nextCyc
  let s := s.setIsland n { x with cyc0 := x.cyc, lag0 := x.lag, waitMax := none, stallRun := 0, halted := s.brt.aborted }
  if s.brt.aborted then s else s.beginCycle n

/-- Up to `k` issue cycles; the cycles that a stall or an abort leaves over are answered (R86, R235). -/
def State.advance (n : Nat) : Nat → State → State × Nat
  | 0, s => (s, 0)
  | k + 1, s =>
    if (s.island n).stalls.isEmpty ∧ (s.island n).halted = false then State.advance n k (s.issueCycle n) else (s, k + 1)

/-- The lowest-numbered stalling unit (R93); of a switch that waits on several crossing queues, the first in the order of its word's routes
(DESIGN CHOICE, log 149: R93 does not say). -/
def firstStall : List StallAt → Option StallAt
  | [] => none
  | a :: l =>
    match firstStall l with
    | some b => if b.unit < a.unit then some b else some a
    | none => some a

/-- A stall cycle counted (R88, R91 to R93, R207), the island's cycle being `cyc`. -/
def State.countStall (s : State) (n cyc : Nat) : State :=
  let x := s.island n
  let run := x.stallRun + 1
  let has := fun k => x.stalls.any fun a => decide (a.cause = k)
  let a := aIslStallCnt n
  let s := s.bump a F.islStallCnt_count 1
  let s := if run = 1 then s.bump a F.islStallCnt_episodes 1 else s
  let s := if s.getF a F.islStallCnt_maxRun < run then s.setF a F.islStallCnt_maxRun (min run 65535) else s
  let c := aIslStallCause n
  let s := if has 0 then s.bump c F.islStallCause_mailboxCycles 1 else s
  let s := if has 1 then s.bump c F.islStallCause_counterCycles 1 else s
  let s := if has 2 then (s.bump c F.islStallCause_crossingCycles 1).bump (aIslOverrun n) F.islOverrun_crossingCycles 1 else s
  let f := aIslStallFirst n
  let s :=
    match s.flag f F.islStallFirst_valid, firstStall x.stalls with
    | false, some b =>
      s.setFs f [(F.islStallFirst_cyc, cyc), (F.islStallFirst_unit, b.unit), (F.islStallFirst_cause, b.cause),
        (F.islStallFirst_id, b.id), (F.islStallFirst_valid, 1)]
    | _, _ => s
  s.setIsland n { s.island n with stallRun := run, lag := x.lag + 1 }

/-- `k` cycles from cycle `cyc` on, which a wait.cyc held and in which a stall turns out to hold too, counted as stall cycles (R178). -/
def State.countHeld (n : Nat) : Nat → Nat → State → State
  | 0, _, s => s
  | k + 1, cyc, s => State.countHeld n k (cyc + 1) (s.countStall n cyc)

/-- The island stalls (R86): the bundles of the cycle under way are taken back and wait, with the stalling command behind them; the cycles
that a wait.cyc of this issue cycle has held count as stall cycles (R178, R207). Once the breath is aborted nothing waits (R235). -/
def State.stallWith (s : State) (n : Nat) (st : List StallAt) (i : Instr) : State :=
  if s.brt.aborted then s
  else
    let cmds := (s.liveCores n).flatMap fun u => (s.core n u).cmds
    let s := (s.liveCores n).foldl (fun s u => s.setCore n u (s.core n u).undo) s
    let x := s.island n
    let s := s.setIsland n { x with stalls := st, held := cmds.map (fun c => (0, c)) ++ x.held ++ [(0, i)],
                                    waitMax := none, lag := x.lag0, cyc0 := x.cyc }
    let s := State.countHeld n (x.cyc - x.cyc0) x.cyc0 s
    s.setIsland n { s.island n with lag0 := (s.island n).lag }

/-- The stall-timeout fault of every stalling unit (R90); the island, whose breath is over, holds no more. -/
def State.stallTimeoutFault (s : State) (n : Nat) : State :=
  let s := (s.island n).stalls.foldl (fun s a =>
    if a.unit < 960 then s.coreFault n a.unit [{ kind := .execution, slot := a.slot, code := 0x0A }]
    else s.switchFault n (a.unit - 960) 0x0A) s
  s.setIsland n { s.island n with stalls := [], held := [], skip := none, resume := false, halted := true }

/-- One island cycle in which the island stalls: counted, and a stall that has lasted longer than the limit faults (R88,
R90). -/
def State.stallCycle (s : State) (n : Nat) : State :=
  let s := (s.countStall n (s.island n).cyc).anyCycle n []
  let x := s.island n
  let s := s.setIsland n { x.nextCyc with cyc0 := x.nextCyc.cyc, lag0 := x.lag }
  if s.getF (aIslStallLimit n) F.islStallLimit_cycles < x.stallRun then s.stallTimeoutFault n else s

/-- Up to `k` stall cycles of an island, until it no longer stalls (R88, R90). -/
def State.stallFor (n : Nat) : Nat → State → State
  | 0, s => s
  | k + 1, s => if (s.island n).stalls.isEmpty then s else State.stallFor n k (s.stallCycle n)

/-- A sync.rd issued in the cycle that a wait.cyc holds reads the counter of the cycle in which the wait ends (R86, R175). -/
def State.rereadSync (s : State) (n u : Nat) : State :=
  let c := s.core n u
  s.setCore n u { c with flight := c.flight.map fun f =>
    match f.fresh, f.eff with
    | true, .readSync r k _ => { f with eff := .readSync r k (BitVec.ofNat 32 (s.getF (aIslSync n k) F.islSync_value)) }
    | _, _ => f }

/-- One island cycle held for wait.cyc (R86, R178): no unit issues, the crossings' traffic goes on. -/
def State.waitCycle (s : State) (n : Nat) : State :=
  let s := s.anyCycle n []
  let s := (s.liveCores n).foldl (fun s u => s.rereadSync n u) s
  s.setIsland n (s.island n).nextCyc

/-- `k` island cycles held for wait.cyc. -/
def State.waitFor (n : Nat) : Nat → State → State
  | 0, s => s
  | k + 1, s => State.waitFor n k (s.waitCycle n)

end Sys2Proof.Machine
end

