-- ==== Sys2Proof/Machine/Issue.lean ====
section
/-! DEFINITION. Issuing one instruction: what every Eumbe command shares (R77 to R81, R105, R106, R116, R119, R122 to R124),
for the logical cores and for the control cores of the Bocal (R474). An instruction's own meaning is its legality, its
destinations and its body. -/

namespace Sys2Proof.Machine

/-- The outcome type of every meaning. -/
abbrev Out := Host.Outcome State Fault Refusal

/-- What a body reads: the machine, the core's place and its registers at issue, and the slot header. -/
structure Ctx where
  s  : State
  n  : Nat
  u  : Nat
  c  : Core
  sl : Slot

/-- What an instruction with slot header `sl` of core `u` of island `n` reads when it issues at state `s`. -/
def State.ctx (s : State) (n u : Nat) (sl : Slot) : Ctx := { s := s, n := n, u := u, c := s.core n u, sl := sl }

/-- The seed the generator reads of a core (R58). -/
def Ctx.seed (x : Ctx) : Seed :=
  { key := (Tbl.get 0 x.c.keys 0, Tbl.get 0 x.c.keys 1, Tbl.get 0 x.c.keys 2, Tbl.get 0 x.c.keys 3),
    tensor := x.c.tensor, step := x.c.step }

/-- What an instruction's body answers: effects with their latencies (R83) and the capture bytes of its operands (byte offset and
value, R420), a taken transfer with effects, a wait for a cycle, a core fault code (of its own slot or of a named one), an uncorrectable
word at a local address (R102), or a stall with its cause and id. -/
inductive Body where
  | ok (effs : List (Nat × Eff)) (cap : List (Nat × Nat))
  | jump (effs : List (Nat × Eff)) (target : Nat)
  | wait (operand : Nat)
  | fault (code : Nat)
  | faultAt (slot code : Nat)
  | uncorrectable (addr : Nat)
  | stall (cause id : Nat)

/-- Slot numbers as ISL_CORE_FAULT records them (R119). -/
def slotS : Nat := 0
/-- The M slot. -/
def slotM : Nat := 1
/-- The X slot. -/
def slotX : Nat := 2
/-- No slot. -/
def slotNone : Nat := 3

/-- Destination codes for the same-destination test of R80: scalars 0–31, predicates from 32, vectors from 64, accumulator
entries from 128, special registers from 256. -/
def dS (r : BitVec 5) : Nat := r.toNat
/-- A predicate as a destination. -/
def dP (p : BitVec 3) : Nat := 32 + p.toNat
/-- A vector register as a destination. -/
def dV (v : BitVec 5) : Nat := 64 + v.toNat
/-- A special register as a destination. -/
def dSpecial (k : Nat) : Nat := 256 + k

/-- An instruction of a core as `issueCore` takes it: the command, its slot header and slot, whether its encoding is legal
(R123), its destinations, and its body. -/
structure Op where
  i     : Instr
  sl    : Slot
  slot  : Nat
  legal : Bool
  dests : List Nat
  body  : Ctx → Body

/-- The capture record of a failed check (R419, R420) as a number of 1,024 bytes, byte 0 lowest: the common fields, then the
operands the instruction gives. -/
def Ctx.captureImage (x : Ctx) (slot : Nat) (cap : List (Nat × Nat)) : Nat :=
  let base := [(6, x.sl.chk.toNat), (8, x.u % 60), (10, x.s.physCore x.n x.u), (12, (x.s.island x.n).cyc),
    (16, x.c.step.toNat), (24, x.c.pc + slot * 2 ^ 16), (992, x.sl.chk.toNat)]
  ((base ++ cap).map fun p => p.2 * 2 ^ (8 * p.1)).sum

/-- The check failures of one instruction (R71), counted when its issue cycle ends. -/
def Ctx.checkEffs (x : Ctx) (slot : Nat) (cap : List (Nat × Nat)) : List (Nat × Eff) :=
  if x.sl.chk = 0 then []
  else [(1, .check ((List.range 16).filter fun j => x.sl.chk.getLsbD j).length
    (if cap.isEmpty then none else some (x.captureImage slot cap)))]

/-- What the fetch of the core's bundle leaves to count (R106): a corrected word, at the bundle's first slot. -/
def Ctx.fetchEffs (x : Ctx) : List (Nat × Eff) :=
  if x.c.open_ = false ∧ x.sl.fetch = .corrected then [(1, .fetchCorrected)] else []

/-- Effects put in flight (R81). -/
def Core.launch (c : Core) (effs : List (Nat × Eff)) : Core :=
  { c with flight := c.flight ++ effs.map fun p => { left := p.1, fresh := true, eff := p.2 } }

/-- Whether a write to tile memory among new effects meets another on the write port in the same cycle (R99). -/
def portConflict (flight : List Flight) (effs : List (Nat × Eff)) : Bool :=
  effs.any fun p => match p.2 with
    | .store _ _ _ => flight.any fun f => match f.eff with
      | .store _ _ _ => decide (f.left = p.1)
      | _ => false
    | _ => false

/-- The core marks a slot of its open bundle as issued, opening the bundle if this is its first slot. -/
def Core.openSlot (c : Core) (i : Instr) (sl : Slot) (slot : Nat) (dests : List Nat) : Core :=
  { c with open_ := true, eog := sl.eog || (c.open_ && c.eog), slots := slot :: c.slots, cmds := c.cmds ++ [i],
           dests := c.dests ++ dests.map fun d => (slot, d) }

/-- A fault that fetching the bundle raises before any slot issues (R105, R106). -/
def Ctx.fetchFault (x : Ctx) : Option Nat := if x.c.open_ then none else x.s.fetchCode x.n x.u x.c x.sl.fetch

/-- Whether another slot of the bundle names one of these destinations (R80). -/
def dupDest (old : List (Nat × Nat)) (slot : Nat) (dests : List Nat) : Bool :=
  old.any fun p => decide (p.1 ≠ slot) && dests.contains p.2

/-- The causes of an illegal bundle that this slot brings (R80, R119, R122, R123): a group of more than eight bundles, reserved header
bits, a reserved encoding, a destination that another slot names. -/
def Ctx.illegal (x : Ctx) (op : Op) : List Cause :=
  (if (x.c.open_ = false ∧ 8 ≤ x.c.group) ∨ op.sl.hdr ≠ 0 then [{ kind := .header, slot := 3, code := 0x01 }] else []) ++
  (if op.legal = false ∨ op.sl.res = true then [{ kind := .reserved, slot := op.slot, code := 0x01 }] else []) ++
  (if dupDest x.c.dests op.slot op.dests then
    { kind := .duplicate, slot := op.slot, code := 0x01 } ::
      (x.c.dests.filter fun p => decide (p.1 ≠ op.slot) && op.dests.contains p.2).map fun p =>
        { kind := .duplicate, slot := p.1, code := 0x01 }
   else [])

/-- The causes of a fault that a body's answer brings (R80, R99, R116). -/
def Ctx.bodyCauses (x : Ctx) (slot : Nat) : Body → List Cause
  | .ok effs _ => if portConflict x.c.flight effs then [{ kind := .execution, slot := slot, code := 0x02 }] else []
  | .jump effs _ =>
    (if x.c.taken.isSome then [{ kind := .secondJump, slot := slotS, code := 0x01 }] else []) ++
    (if portConflict x.c.flight effs then [{ kind := .execution, slot := slot, code := 0x02 }] else [])
  | .fault code => [{ kind := .execution, slot := slot, code := code }]
  | .faultAt k code => [{ kind := .execution, slot := k, code := code }]
  | .uncorrectable _ => [{ kind := .execution, slot := slot, code := 0x03 }]
  | .wait _ | .stall _ _ => []

/-- Whether this slot's instruction executes (R78, R80): its encoding is legal and its predicate true. -/
def Ctx.executes (x : Ctx) (op : Op) : Bool := op.legal && !op.sl.res && x.c.rp op.sl.pred

/-- Every cause of a fault that this slot brings its bundle. -/
def Ctx.causes (x : Ctx) (op : Op) : List Cause :=
  x.illegal op ++ (if x.executes op then x.bodyCauses op.slot (op.body x) else [])

/-- The island stalls on this instruction: it waits, and with it everything the island is given (R86). -/
def State.stallOn (s : State) (x : Ctx) (op : Op) (cause id : Nat) : State :=
  s.stallWith x.n [{ unit := x.u, slot := op.slot, cause := cause, id := id }] op.i

/-- A wait.cyc issued (R178, R207): the island holds until cyc reaches the operand, or the wait was late and counts as such when its cycle
ends; the lag becomes cyc less the largest operand of the cycle. -/
def State.waitCyc (s : State) (n u operand : Nat) : State :=
  let x := s.island n
  let s := if operand < x.cyc0 then s.setCore n u ((s.core n u).launch [(1, .waitLate)]) else s
  let s := State.waitFor n (operand - x.cyc) s
  let top := match x.waitMax with | some m => max m operand | none => operand
  let y := s.island n
  s.setIsland n { y with lag := y.cyc - top, waitMax := some top }

/-- The instruction's body taken up, once nothing in its bundle faults: its stall, or its effects with what its fetch and its checks leave to
count (R71, R81, R106). -/
def State.takeBody (s : State) (x : Ctx) (op : Op) : State :=
  let issued := fun (effs : List (Nat × Eff)) (cap : List (Nat × Nat)) =>
    (x.c.openSlot op.i op.sl op.slot op.dests).launch (effs ++ x.fetchEffs ++ x.checkEffs op.slot cap)
  match op.body x with
  | .ok effs cap => s.setCore x.n x.u (issued effs cap)
  | .jump effs t => s.setCore x.n x.u { issued effs [] with jump := some t }
  | .wait operand => (s.setCore x.n x.u (issued [] [])).waitCyc x.n x.u operand
  | .stall cause id => s.stallOn x op cause id
  | _ => s

/-- What an uncorrectable word that the instruction reads leaves beside the fault (R102, R120, R434). -/
def State.readFaulted (s : State) (x : Ctx) (op : Op) : State :=
  if x.executes op then
    match op.body x with
    | .uncorrectable a =>
      let s := (s.markBad a).bump (aIslCoreEcc x.n x.u) F.islCoreEcc_tmUncorrected 1
      (s.event 2 0x10 2 (s.coreId x.n x.u) a).faultDetected (s.coreId x.n x.u) 2 0x03
    | _ => s
  else s

/-- A slot of a bundle that faults, or has faulted: the slot is noted, and its own causes complete the record (R116, R119). -/
def State.slotFaulted (s : State) (x : Ctx) (op : Op) (cs : List Cause) : State :=
  let s := (s.setCore x.n x.u ((x.c.openSlot op.i op.sl op.slot op.dests).launch x.fetchEffs)).readFaulted x op
  if cs.isEmpty then s else s.coreFault x.n x.u cs

/-- Issue in the present cycle of an island that does not hold (R77 to R80). A core that has ended issues nothing, nor does
one without an executable range in a breath (R105); one that has faulted only completes the record of that bundle (R116, R119). -/
def State.issueNow (s : State) (n u : Nat) (op : Op) : State :=
  let c := s.core n u
  let x := s.ctx n u op.sl
  if c.run = .ended ∨ (c.run = .idle ∧ s.getF (aIslBreath n) F.islBreath_state = 1) then s
  else if c.run = .faulted ∧ (c.causes = [] ∨ (c.causes.any fun k => decide (k.kind = .fetch))) then s
  else
    match x.fetchFault with
    | some code => s.fetchFaulted n u code
    | none =>
      if c.causes ≠ [] ∨ x.causes op ≠ [] then s.slotFaulted x op (x.causes op)
      else if !c.rp op.sl.pred then s.setCore n u ((c.openSlot op.i op.sl op.slot op.dests).launch x.fetchEffs)
      else s.takeBody x op

/-- Issue cycles to pass before the command: as commanded, or what a hold has left over, and one more when the core's bundle
of this cycle already has this slot. -/
def State.advOf (s : State) (n u : Nat) (op : Op) : Nat :=
  match (s.island n).skip with
  | some k => k
  | none => if op.sl.adv = 0 ∧ (s.core n u).open_ ∧ (s.core n u).slots.contains op.slot then 1 else op.sl.adv

/-- The issue cycles that a hold had left to a kept command are taken up. -/
def State.unskip (s : State) (n : Nat) : State :=
  if (s.island n).skip = none then s else s.setIsland n { s.island n with skip := none }

/-- A command kept until the island's hold ends (R86). -/
def State.keep (s : State) (n k : Nat) (i : Instr) : State :=
  let x := s.island n
  s.setIsland n { x with held := x.held ++ [(k, i)], skip := none }

/-- Whether a command still belongs to the cycle in which the island stalls: no cycle passes before it or before those kept already. -/
def State.sameCycle (s : State) (n k : Nat) : Bool := decide (k = 0) && (s.island n).held.all fun p => decide (p.1 = 0)

/-- A further core that stalls in the cycle in which its island stalls already (R85, R93). -/
def State.alsoStalls (s : State) (n u k : Nat) (op : Op) : State :=
  let c := s.core n u
  let x := s.ctx n u op.sl
  if s.sameCycle n k && decide (c.run = .issuing ∨ c.run = .idle) && x.executes op && decide (x.illegal op = []) &&
      x.fetchFault.isNone then
    match op.body x with
    | .stall cause id =>
      let y := s.island n
      s.setIsland n { y with stalls := y.stalls ++ [{ unit := u, slot := op.slot, cause := cause, id := id }] }
    | _ => s
  else s

/-- One instruction of a logical core: kept while its island holds, else issued after the cycles it lets pass. Nothing issues
once the breath is aborted, but for the rest of the cycle under way (R235). -/
def State.issueCore (s : State) (n u : Nat) (op : Op) : State :=
  let k := s.advOf n u op
  if !(s.island n).stalls.isEmpty then (s.alsoStalls n u k op).keep n k op.i
  else
    let (s1, left) := State.advance n k (s.unskip n)
    if !(s1.island n).stalls.isEmpty then (s1.alsoStalls n u left op).keep n left op.i
    else if (s1.island n).halted then s1
    else s1.issueNow n u op

/-! ### Control cores -/

/-- What an instruction's body answers on a control core (R474): register and predicate writes, a taken transfer, a state
with register writes after an access, a stop after an access that failed, or a stop of the core. -/
inductive CtlBody where
  | ok (regs : List (Nat × BitVec 64)) (preds : List (Nat × Bool))
  | jump (regs : List (Nat × BitVec 64)) (target : Nat)
  | access (s : State) (regs : List (Nat × BitVec 64))
  | refused (s : State)
  | watchdog (us : Nat)
  | stop

/-- A control core's state. -/
def State.ctlCore (s : State) (k : Nat) : CtlCore := Tbl.get CtlCore.reset s.ctls k

/-- A control core's state replaced. -/
def State.setCtlCore (s : State) (k : Nat) (c : CtlCore) : State :=
  { s with ctls := Tbl.set CtlCore.reset s.ctls k c }

/-- A 64-bit scalar as read: s0 is zero (R96, R474). -/
def CtlCore.rs (c : CtlCore) (r : BitVec 5) : BitVec 64 := if r = 0 then 0 else Tbl.get 0 c.sregs r.toNat

/-- A predicate as read. -/
def CtlCore.rp (c : CtlCore) (p : BitVec 3) : Bool := if p = 0 then true else Tbl.get false c.preds p.toNat

/-- The open bundle's writes delivered: before the next bundle reads (R81). -/
def CtlCore.flush (c : CtlCore) : CtlCore :=
  { c with
    sregs := c.writes.foldl (fun t p => if p.1 = 0 then t else Tbl.set 0 t p.1 p.2) c.sregs,
    preds := c.pwrites.foldl (fun t p => if p.1 = 0 then t else Tbl.set false t p.1 p.2) c.preds,
    writes := [], pwrites := [] }

/-- A control core's bundle closed: the next bundle's byte address, the group, a taken transfer (R79, R474). -/
def CtlCore.closeBundle (c : CtlCore) : CtlCore :=
  let c := c.flush
  if !c.open_ then c
  else
    let nxt := c.pc + 16
    let c := { c with open_ := false, dests := [] }
    if c.eog then
      let t := match c.taken with | some t => t | none => nxt
      { c with pc := t, groupPc := t, taken := none, group := 0 }
    else { c with pc := nxt, group := c.group + 1 }

/-- A control core stops and its lockstep self-check counts as failed (R474, R475). -/
def State.ctlStop (s : State) (k : Nat) : State :=
  { s.setCtlCore k { s.ctlCore k with stopped := true } with boc := { s.boc with selfCheckFailed := true } }

/-- The size of the Bocal SRAM (R473). -/
def sramSize : Nat := 2 * 2 ^ 20

/-- One instruction of a control core (R474): the bundle before it closes when cycles pass, then it issues in its own. -/
def State.issueCtl (s : State) (k : Nat) (sl : Slot) (legal : Bool) (slot : Nat) (dests : List Nat)
    (body : State → CtlCore → CtlBody) : State :=
  let c0 := s.ctlCore k
  if c0.stopped then s
  else
    let c := if sl.adv = 0 then c0 else c0.closeBundle
    let s := if sl.adv = 0 then s else s.setCtlCore k c
    if !legal ∨ sl.res = true ∨ sl.hdr ≠ 0 ∨ 8 ≤ c.group ∨ sramSize ≤ c.pc ∨ dupDest c.dests slot dests = true then s.ctlStop k
    else
      let opened := { c with open_ := true, eog := sl.eog || (c.open_ && c.eog),
                             dests := c.dests ++ dests.map fun d => (slot, d) }
      if !c.rp sl.pred then s.setCtlCore k opened
      else
        match body s c with
        | .ok regs preds =>
          s.setCtlCore k { opened with writes := opened.writes ++ regs, pwrites := opened.pwrites ++ preds }
        | .jump regs t =>
          if c.taken.isSome then s.ctlStop k
          else s.setCtlCore k { opened with writes := opened.writes ++ regs, taken := some t }
        | .access s1 regs => s1.setCtlCore k { opened with writes := opened.writes ++ regs }
        | .refused s1 => s1.ctlStop k
        | .watchdog us => s.setCtlCore k { opened with watchdog := us }
        | .stop => s.ctlStop k

/-- An instruction at its site: a logical core or a control core. Absent units do not exist to be commanded. -/
def issue (s : State) (op : Op) (ctlLegal : Bool) (ctlBody : State → CtlCore → CtlBody) : Out :=
  match op.sl.site with
  | .core n u => if s.hasCore n u then .next (s.issueCore n u op) else .fault .absentUnit
  | .ctl k => if k < 4 then .next (s.issueCtl k op.sl ctlLegal op.slot op.dests ctlBody) else .fault .absentUnit

/-- An instruction that the control profile does not offer: illegal there (R474). -/
def coreOnly (s : State) (op : Op) : Out := issue s op false fun _ _ => .stop

end Sys2Proof.Machine
end

