-- ==== Sys2Proof/Machine/Switch.lean ====
section
/-! DEFINITION. The cluster switches' words, the crossings, landings into mailboxes, counter additions from outside, the island
distributor and the scrubber (R108, R175, R184 to R191, R221, R222, R243, R266). -/

namespace Sys2Proof.Machine

/-- Issue cycles a switch still needs for the word it runs (R187): its remaining repetitions, the present one included. -/
def Cluster.left (c : Cluster) : Nat :=
  match c.word with
  | some r => bitsAt r.word.toNat 2 16 - r.rep + 1
  | none => 0

/-- Whether the next word would lie outside the program (R189): past word 2,047, or past the end of the loaded range. -/
def Cluster.outside (c : Cluster) : Bool := decide (2048 ≤ c.next) || (decide (0 < c.loaded) && decide (c.loaded ≤ c.next))

/-- A switch begins a word in the present cycle (R186, R187, R189, R190): it stalls, faults, ends, idles or moves data. -/
def State.beginWord (s : State) (i : Instr) (n cl : Nat) (word : BitVec 128) : State :=
  let c := s.cluster n cl
  if c.ended || c.faulted then s
  else if c.outside then s.switchFault n cl 0x43
  else
    let kind := bitsAt word.toNat 0 2
    let c1 := { c with pc := c.next, next := c.next + 1 }
    let s1 := s.setCluster n cl c1
    if s.wordInvalid n cl word then s1.switchFault n cl 0x42
    else if kind = 2 then
      (s1.setCluster n cl { c1 with ended := true, word := none }).setF (aIslSwStatus n cl) F.islSwStatus_state 0
    else if kind = 0 ∧ routesConflict ((wordRoutes word).map (s.route n cl)) then s1.switchFault n cl 0x41
    else
      match (if kind = 0 then s.wordStalls n cl word else []) with
      | [] => (s1.setCluster n cl { c1 with word := some { word := word, rep := 0 } }).runWord n cl
      | q => s.stallWith n (q.map fun k => { unit := 960 + cl, slot := 0, cause := 2, id := k }) i

/-- A further switch that stalls in the cycle in which its island stalls already (R85, R93). -/
def State.switchAlso (s : State) (n cl k : Nat) (word : BitVec 128) : State :=
  let c := s.cluster n cl
  if s.sameCycle n k && c.word.isNone && !c.ended && !c.faulted && !c.outside && decide (bitsAt word.toNat 0 2 = 0) && !s.wordInvalid n cl word then
    let y := s.island n
    s.setIsland n { y with
      stalls := y.stalls ++ (s.wordStalls n cl word).map fun q => { unit := 960 + cl, slot := 0, cause := 2, id := q } }
  else s

/-- A switch word of any kind: kept while the island holds, begun after the cycles it lets pass and once the switch's previous
word is over. -/
def switchWord (s : State) (i : Instr) (n cl : Nat) (word : BitVec 128) (adv : Nat) : Out :=
  if !s.hasCluster n cl then .fault .absentUnit
  else
    let k := match (s.island n).skip with | some k => k | none => adv
    if !(s.island n).stalls.isEmpty then .next ((s.switchAlso n cl k word).keep n k i)
    else
      let (s1, left) := State.advance n k (s.unskip n)
      if !(s1.island n).stalls.isEmpty then .next ((s1.switchAlso n cl left word).keep n left i)
      else
        let (s2, left2) := State.advance n (s1.cluster n cl).left s1
        if !(s2.island n).stalls.isEmpty then .next ((s2.switchAlso n cl left2 word).keep n left2 i)
        else .next (if (s2.island n).halted then s2 else s2.beginWord i n cl word)

/-- ROUTE_WORD: a switch begins a route word (R186, R187). -/
def execRouteWord (n cl : Nat) (word : BitVec 128) (adv : Nat) (s : State) : Out :=
  switchWord s (.routeWord n cl word adv) n cl word adv

/-- IDLE_WORD: a switch idles for the word's repeat count (R186). -/
def execIdleWord (n cl : Nat) (word : BitVec 128) (adv : Nat) (s : State) : Out :=
  switchWord s (.idleWord n cl word adv) n cl word adv

/-- END_WORD: a switch ends for the breath (R187). -/
def execEndWord (n cl : Nat) (word : BitVec 128) (adv : Nat) (s : State) : Out :=
  switchWord s (.endWord n cl word adv) n cl word adv

/-- The first element that satisfies `p` replaced by `f` of it. -/
def replaceFirst {α : Type} (p : α → Bool) (f : α → α) : List α → List α
  | [] => []
  | a :: l => if p a then f a :: l else a :: replaceFirst p f l

/-- CROSSING_ENTRY_VISIBLE: the oldest entry of a queue that has not arrived arrives; it becomes visible once the release
latency has passed as well (R221, R227). -/
def execCrossingEntryVisible (n q : Nat) (parityBad : Bool) (s : State) : Out :=
  if n < s.numIslands ∧ q < 16 then
    let x := s.island n
    let l := replaceFirst (fun e => !e.arrived) (fun e => { e with arrived := true, badPar := parityBad }) (Tbl.get [] x.inbound q)
    .next (s.setIsland n { x with inbound := Tbl.set [] x.inbound q l })
  else .fault .absentUnit

/-- CROSSING_FREE_INDICATION: the oldest free indication under way reaches the writer (R222); entries whose return latency has
passed are free. -/
def execCrossingFreeIndication (n q : Nat) (s : State) : Out :=
  if n < s.numIslands ∧ q < 16 then
    let x := s.island n
    let l := replaceFirst (fun f => !f.arrived) (fun f => { f with arrived := true }) (Tbl.get [] x.taken q)
    let keep := l.filter fun f => !(f.arrived && (f.old || decide (f.cyc + s.latR ≤ x.cyc)))
    .next (s.setIsland n { x with taken := Tbl.set [] x.taken q keep })
  else .fault .absentUnit

/-- LANDING_INPUT_RELEASE: the landing input releases its oldest entry toward its mailbox; it is written at the end of the
first cycle in which no route writes that mailbox and the entry is not full (R191, R108). `parityBad` says that an entry that is released fails its
parity (R227). -/
def execLandingInputRelease (entry : Crossed) (s : State) : Out :=
  let ⟨n, parityBad⟩ := entry
  if n < s.numIslands then
    let x := s.island n
    match x.landings with
    | [] => .next s
    | w :: ws => .next ((s.setIsland n { x with landings := ws, released := x.released ++ [w] }).crossingParity n 17 parityBad)
  else .fault .absentUnit

/-- HELD_LANDING_WRITE: the landing held on a full entry is written now that a recv has cleared the entry (R108), as this cycle's one landing,
unless a route of this cycle writes that mailbox (R191). -/
def execHeldLandingWrite (n : Nat) (s : State) : Out :=
  if n < s.numIslands then
    match (s.island n).released with
    | [] => .next s
    | w :: ws =>
      if ((s.core n w.unit).rm w.entry).full || (s.island n).landed || (s.routeBusy n).contains w.unit then .next s
      else
        let s := s.landWrite n w ws
        .next (s.setIsland n { s.island n with landed := true })
  else .fault .absentUnit

/-- SYNC_COUNTER_ADDITION: an addition becomes visible and counts in this cycle, after the cycle's sets (R175, R227). -/
def execSyncCounterAddition (entry : Crossed) (s : State) : Out :=
  let ⟨n, parityBad⟩ := entry
  if n < s.numIslands then
    let x := s.island n
    match x.side with
    | [] => .next s
    | a :: l => .next ((s.setIsland n { x with side := l, adds := x.adds ++ [a] }).crossingParity n 19 parityBad)
  else .fault .absentUnit

/-- DISTRIBUTOR_TILE: the distributor begins a tile once its first part is visible and the inactive stages of its clusters
are empty; the island's cycles then fill them (R266, R227). -/
def execDistributorTile (entry : Crossed) (s : State) : Out :=
  let ⟨n, parityBad⟩ := entry
  if n < s.numIslands then
    let x := s.island n
    match x.fill, x.treeIn with
    | none, p :: _ =>
      if p.part = 0 ∧ (maskCores p.mask).all fun u => (s.core n u).idleStage.isEmpty then
        .next ((s.setIsland n { x with fill := some { fmt := p.fmt, mask := p.mask, part := 0, pieces := 0 } }).crossingParity n 16 parityBad)
      else .next s
    | _, _ => .next s
  else .fault .absentUnit

/-- TILE_SCRUB: the scrubber reads one line of a core's 192 KiB; a corrected error is counted and written back, an
uncorrectable word is counted, reported and recorded, and left as it is (R243). -/
def execTileScrub (n u line : Nat) (ecc : Ecc) (s : State) : Out :=
  if s.hasCore n u ∧ line < 3072 then
    let a := s.tileBase n u + 64 * line
    let tile := decide (line < 2560)
    let e := if s.anyBad a 64 then Ecc.uncorrectable else ecc
    match e with
    | .clean | .link => .next s
    | .corrected =>
      .next ((s.bump (aIslCoreEcc n u) (if tile then F.islCoreEcc_tmCorrected else F.islCoreEcc_isCorrected) 1).corrected
        (.core n u))
    | .uncorrectable =>
      let s := if s.anyBad a 64 then s else s.markBad a
      let s := s.bump (aIslCoreEcc n u) (if tile then F.islCoreEcc_tmUncorrected else F.islCoreEcc_isUncorrected) 1
      let s := s.event 2 0x10 2 (s.coreId n u) (64 * line)
      .next (s.faultDetected (s.coreId n u) 2 0)
  else .fault .absentUnit

end Sys2Proof.Machine
end

