-- ==== Sys2Proof/Machine/Breath.lean ====
section
/-! DEFINITION. Breaths: the breath table (R196), completion of an island (R179, R203), overrun and slip (R206 to R211), island
reset (R234), droop stretches (R215) and setpoint changes (R230, R231). -/

namespace Sys2Proof.Machine

/-! ### The breath table -/

/-- Entry `i` of the breath table as one 256-bit number (R196). -/
def State.breathEntry (s : State) (i : Nat) : Nat := s.readNat (s.getF aBocBtable F.bocBtable_base * 32 + 32 * i) 32

/-- Nominal length in ns of a breath-table entry. -/
def entLength (e : Nat) : Nat := bitsAt e 0 24
/-- Check position of a breath-table entry. -/
def entCheck (e : Nat) : Nat := bitsAt e 32 32
/-- Index of the entry that follows. -/
def entNext (e : Nat) : Nat := bitsAt e 64 16
/-- Setpoint code of an entry, 0 for none. -/
def entSetpoint (e : Nat) : Nat := bitsAt e 80 5
/-- Whether an entry is a test breath. -/
def entTest (e : Nat) : Bool := e.testBit 88
/-- Whether an entry ends a step. -/
def entStepEnd (e : Nat) : Bool := e.testBit 89
/-- Whether the job ends after an entry. -/
def entLast (e : Nat) : Bool := e.testBit 90
/-- Address of an entry's load list. -/
def entLoads (e : Nat) : Nat := bitsAt e 128 42
/-- Number of load records of an entry. -/
def entLoadCount (e : Nat) : Nat := bitsAt e 192 24

/-- The start beat of the next breath (R201). -/
def State.tNext (s : State) : Beat := BitVec.ofNat 64 (s.getF aBocTNext F.bocTNext_beat)

/-- Whether an image is loaded (R492). -/
def State.hasImage (s : State) : Bool := s.flag aBocState F.bocState_image

/-- The package's islands. -/
def State.allIslands (s : State) : List Nat := List.range s.numIslands

/-! ### Island reset -/

/-- The register blocks an island reset clears (R234): sync counters, core faults, check counters, switch states, residue,
stall and overrun registers, and the breath state, which leaves fenced. -/
def State.resetCleared (_s : State) (n : Nat) (key : Nat) : Bool :=
  let a := key / 64
  let o := a - islBase n
  let inBlock := decide (islBase n ≤ a ∧ a < islBase n + 0x200000)
  (inBlock && (
    decide (0xC000 ≤ o ∧ o < 0xC800) ||
    (decide (0x1000 ≤ o ∧ o < 0x8800) && decide (o % 32 = 0)) ||
    (decide (0x100000 ≤ o) && decide (o % 0x10000 = 0x1000)) ||
    decide (o = 0x38 ∨ o = 0x200 ∨ o = 0x208 ∨ o = 0x210 ∨ o = 0x218 ∨ o = 0x228 ∨ o = 0x20))) ||
  decide (aFltCoreChk n 0 ≤ a ∧ a < aFltCoreChk n 960)

/-- An island's registers cleared by island reset; the put channels' held quarters are discarded with them (R234). -/
def State.clearIslandRegs (s : State) (n : Nat) : State :=
  let keep := s.regs.filter fun p => !s.resetCleared n p.1
  let putQ := fun (k : Nat) => let o := k / 64 - islBase n
    decide (islBase n + 0x20000 ≤ k / 64 ∧ o < 0x2F000 ∧ k % 64 = F.islPutBind_quarters.lo)
  { s with regs := keep.filter fun p => !putQ p.1 }

/-- An island reset (R234): the island-reset values of R95, the registers of `resetCleared`, empty executable ranges and
empty loaded ranges; tables, instruction stores, tile memory and ISL_STALL_LIMIT stay. Requests still open in its trackers are
forgotten, and what its field-side crossings hold is dropped (DESIGN CHOICE, log 172: R234 names the queues between islands only). -/
def State.resetIsland (s : State) (n : Nat) : State :=
  let s := s.dropQueues n
  let open_ := ((s.cores.filter fun p => decide (p.1 / 1024 = n)).map fun p => p.2.trk.length).sum
  let s := s.setF aGmuTrack F.gmuTrack_open (s.getF aGmuTrack F.gmuTrack_open - open_)
  let s := { s with
    gmu := { s.gmu with reqs := s.gmu.reqs.filter fun p => !decide (p.1 / 16384 = n) },
    cores := s.cores.filter fun p => !decide (p.1 / 1024 = n),
    clusters := s.clusters.filter fun p => !decide (p.1 / 16 = n),
    islands := Tbl.set Island.reset s.islands n Island.reset }
  let s := s.clearIslandRegs n
  (s.setF (aIslBreath n) F.islBreath_state 0).setF (aIslReset n) F.islReset_pending 0

/-- Whether the package is at a boundary (R233, R234): no breath runs, or the boundary of the running one is taken. -/
def State.atBoundary (s : State) : Bool := !s.brt.running || s.brt.taken

/-- ISLAND_RESET_REQUEST: a write of 1 to ISL_RESET.req is pending until the next boundary, and acts at once at one (R234). -/
def execIslandResetRequest (n : Nat) (value : Word) (s : State) : Out :=
  if n < s.numIslands then
    let s := { s with bus := ⟨false, 0⟩ }
    if !value.getLsbD 0 then .next s
    else if s.atBoundary && !s.brt.aborted then .next (s.resetIsland n)
    else .next (s.setF (aIslReset n) F.islReset_pending 1)
  else .fault .absentUnit

/-! ### Completion -/

/-- Whether everything of an island's breath has ended and delivered (R179). -/
def State.breathOver (s : State) (n : Nat) : Bool :=
  ((s.liveCores n).all fun u =>
    let c := s.core n u
    (decide (c.run = .ended) || decide (c.run = .idle)) && c.flight.isEmpty && c.port.isNone) &&
  (s.liveClusters n).all fun cl => (s.cluster n cl).ended || decide ((s.cluster n cl).loaded = 0)

/-- Whether an island's cores and switches have all issued what ends their breath (R179): breath.end in a bundle that closes its group,
or the end word. -/
def State.breathEnding (s : State) (n : Nat) : Bool :=
  ((s.liveCores n).all fun u =>
    let c := s.core n u
    decide (c.run ≠ .issuing) || (c.eog && (c.ending || c.flight.any fun f => decide (f.eff = .endBreath)))) &&
  (s.liveClusters n).all fun cl => (s.cluster n cl).ended || decide ((s.cluster n cl).loaded = 0)

/-- Cycles run on after breath.end as though each were an issue cycle, until everything has delivered (R179). -/
def State.drain (n : Nat) : Nat → State → State
  | 0, s => s
  | k + 1, s =>
    if s.breathOver n || (s.island n).halted || !(s.island n).stalls.isEmpty then s else State.drain n k (s.issueCycle n)

/-- The stall registers of a completed breath (R89). -/
def State.closeStalls (s : State) (n : Nat) : State :=
  let cnt := aIslStallCnt n
  let s := s.setFs (aIslStallLast n) [(F.islStallLast_count, s.getF cnt F.islStallCnt_count),
    (F.islStallLast_episodes, s.getF cnt F.islStallCnt_episodes), (F.islStallLast_maxRun, s.getF cnt F.islStallCnt_maxRun)]
  let s := s.clearFs cnt [F.islStallCnt_count, F.islStallCnt_episodes, F.islStallCnt_maxRun]
  let s := s.clearFs (aIslStallCause n) [F.islStallCause_mailboxCycles, F.islStallCause_counterCycles, F.islStallCause_crossingCycles]
  s.clearFs (aIslStallFirst n) [F.islStallFirst_cyc, F.islStallFirst_unit, F.islStallFirst_cause, F.islStallFirst_id, F.islStallFirst_valid]

/-- A load record's fields (R198). -/
def recKind (r : Nat) : Nat := bitsAt r 0 4
/-- The island (or engine, or port) a load record names. -/
def recIsland (r : Nat) : Nat := bitsAt r 4 9
/-- The unit of a load record. -/
def recUnit (r : Nat) : Nat := bitsAt r 13 10
/-- The source address of a load record. -/
def recSrc (r : Nat) : Nat := bitsAt r 64 42
/-- The number of 16-byte units of a load record. -/
def recCount (r : Nat) : Nat := bitsAt r 128 12
/-- The first unit a load record writes. -/
def recFirst (r : Nat) : Nat := bitsAt r 140 11
/-- First bundle address a breath may execute. -/
def recExecFirst (r : Nat) : Nat := bitsAt r 151 11
/-- Last bundle address a breath may execute. -/
def recExecLast (r : Nat) : Nat := bitsAt r 162 11
/-- The entry address of a load record. -/
def recEntry (r : Nat) : Nat := bitsAt r 173 11

/-- Load record `i` of the next breath. -/
def State.loadRecord (s : State) (i : Nat) : Nat := s.readNat (entLoads (s.breathEntry s.brt.nextEntry) + 32 * i) 32

/-- The number of load records of the next breath. -/
def State.loadTotal (s : State) : Nat := entLoadCount (s.breathEntry s.brt.nextEntry)

/-- Whether every load record of the next breath for an island has finished (ISL_BREATH.loads_done). -/
def State.islandLoaded (s : State) (n : Nat) : Bool :=
  (List.range s.loadTotal).all fun i =>
    let r := s.loadRecord i
    decide (4 ≤ recKind r) || decide (recIsland r ≠ n) || s.brt.loadsDone.contains i

/-- ISLAND_BREATH_COMPLETE: an island whose cores and switches have ended runs on until its work has delivered, then copies
and clears its stall registers and begins its load records (R179, R203). -/
def execIslandBreathComplete (n : Nat) (s : State) : Out :=
  if n < s.numIslands then
    let a := aIslBreath n
    if s.brt.aborted ∨ s.getF a F.islBreath_state ≠ 1 ∨ s.flag a F.islBreath_complete then .next s
    else
      let s1 := s.drain n 64
      if s1.breathOver n ∧ !s1.brt.aborted then
        let s1 := (s1.closeStalls n).setF a F.islBreath_complete 1
        .next (s1.setFlag a F.islBreath_loadsDone (s1.islandLoaded n))
      -- a fault met on the way belongs to the ending breath (R235)
      else .next (if s1.brt.aborted ∧ s.breathEnding n then s1 else s)
  else .fault .absentUnit

/-! ### Overrun and slip -/

/-- The notice window W in ns (R212). -/
def State.noticeW (s : State) : Nat := s.getF aBocSlipCfg F.bocSlipCfg_window

/-- An island that has not completed the running breath. -/
def State.incomplete (s : State) (n : Nat) : Bool := !s.flag (aIslBreath n) F.islBreath_complete

/-- Whether the package replays another one's step (R414): its breaths are not the slice's. -/
def State.replays (s : State) : Bool := s.rcv.shadow.isSome

/-- A missed start of breath `k` reported (R206): counted, counted for each island that had not completed the breath before it, and sent
to the slice lead. -/
def State.missStart (s : State) (k : Nat) : State :=
  if s.replays then s else
  let s := s.bump aBocStartLog F.bocStartLog_missed 1
  let late := if s.brt.running && decide (k = s.brt.next) then s.allIslands.filter s.incomplete else []
  let s := late.foldl (fun s n => s.bump (aIslOverrun n) F.islOverrun_missed 1) s
  { s with brt := { s.brt with missed := true } }.faultReport 2 []

/-- MISSED_START: the start beat of the next breath finds the boundary not taken (R206). -/
def execMissedStart (s : State) : Out :=
  if s.brt.job && s.brt.running && !s.brt.taken && !s.brt.missed && !s.brt.aborted then .next (s.missStart s.brt.next) else .next s

/-- An island's position (R207). -/
def Island.position (x : Island) : Nat := x.cyc - x.lag

/-- OVERRUN_CHECK: the check at W before the next start, once for each value the start beat takes (R208). -/
def execOverrunCheck (s : State) : Out :=
  if s.brt.job && s.brt.running && !s.brt.taken && !s.brt.checked && !s.brt.aborted then
    let late := s.allIslands.filter fun n => s.incomplete n && decide ((s.island n).position < s.brt.check)
    let trk := decide (s.getF aGmuTrack F.gmuTrack_open ≠ 0)
    let s1 := late.foldl (fun s n => s.bump (aIslOverrun n) F.islOverrun_behind 1) s
    let s1 := { s1 with brt := { s1.brt with checked := true } }
    -- a replayer asks the slice for no slip (log 166)
    if (late.isEmpty ∧ !trk) ∨ s.replays then .next s1
    else
      let cause := (if late.isEmpty then 0 else 1) + (if trk then 2 else 0)
      .next ((s1.bump aBocStartLog F.bocStartLog_requests 1).sendTo s1.lead
        (s1.msgOf 1 [(24, cause), (32, s1.brt.next)]))
  else .next s

/-- SLIP_REQUEST: the lead keeps a request for the next breath until its send beat, W/2 before the start; a later one is
discarded and counted (R209, R210). -/
def execSlipRequest (msg : Msg) (s : State) : Out :=
  let s := s.takeMsg msg
  if !s.isLead then .next s
  else
    let sendBeat := s.tNext - nsBeat (s.noticeW / 2)
    if msgBits msg 32 64 ≠ s.brt.next ∨ !s.brt.job ∨ beatReached s.beat sendBeat then
      .next (s.bump aBocStartLog F.bocStartLog_lateRequests 1)
    else
      let old := match s.brt.asked with | some c => c | none => 0
      .next { s with brt := { s.brt with asked := some (old ||| msgBits msg 24 8) } }

/-- The breath-start trigger armed with a beat (R392); a beat already reached is late, which the flag shows until software clears it. -/
def State.armTrigger (s : State) (beat : Nat) : State :=
  let s := s.setF aTimTrig F.timTrig_beat beat
  let s := s.setF aTimTrigState F.timTrigState_armed 1
  let late := beatReached s.beat (BitVec.ofNat 64 beat)
  let s := { s with pins := { s.pins with lateArm := late } }
  if late then s.setF aTimTrigState F.timTrigState_late 1 else s

/-- The next start moves by `ns` (R211): T is rewritten, in the trigger as well when it is armed, and the check is due again. -/
def State.slip (s : State) (ns : Nat) : State :=
  let t := s.tNext + nsBeat ns
  let s := s.setF aBocTNext F.bocTNext_beat t.toNat
  let s := if s.flag aTimTrigState F.timTrigState_armed then s.armTrigger t.toNat else s
  let s := (s.bump aBocSlip F.bocSlip_count 1).bump aBocSlip F.bocSlip_total ns
  { s with brt := { s.brt with checked := false } }

/-- SLIP_ORDER: every later start moves by the order's amount, on a standby as well; an order for a breath that has started, or whose start
beat the package has reached, is a missed start (R211). A replayer's breaths do not follow it (R417). -/
def execSlipOrder (msg : Msg) (s : State) : Out :=
  let s := s.takeMsg msg
  let k := msgBits msg 32 64
  if !s.brt.job ∨ s.replays then .next s
  else if k < s.brt.next ∨ (k = s.brt.next ∧ beatReached s.beat s.tNext) then .next (s.missStart k)
  else .next ({ s with brt := { s.brt with asked := none } }.slip (msgBits msg 96 32))

/-! ### Stretches and setpoints -/

/-- DROOP_STRETCH: the period is stretched by s/8; it counts as a droop stretch when throttling does not already stretch it as
far, and beyond 8 in 1,024 cycles as excess (R215, R216). -/
def execDroopStretch (n k : Nat) (s : State) : Out :=
  if n < s.numIslands then
    if k = 0 ∨ 4 < k ∨ k ≤ s.getF (aIslClock n) F.islClock_throttle then .next s
    else
      let x := s.island n
      let l := (x.droops.filter fun c => decide (x.ticks < c + 1024)) ++ [x.ticks]
      let a := aIslStretch n
      let s := (s.setIsland n { x with droops := l }).bump a F.islStretch_droop 1
      let s := if s.getF a F.islStretch_windowMax < l.length then s.setF a F.islStretch_windowMax (min l.length 15) else s
      .next (if 8 < l.length then s.bump a F.islStretch_excess 1 else s)
  else .fault .absentUnit

/-- Condition 3 of R204: every load record of the next breath has finished. -/
def State.loadsFinished (s : State) : Bool := (List.range s.loadTotal).all fun i => s.brt.loadsDone.contains i

/-- The entry of the breath that runs. -/
def State.curEntry (s : State) : Nat := s.breathEntry s.brt.entry

/-- Whether image acceptance still has its setpoint to apply (R233): an image is loaded and the package not yet ready. -/
def State.accepting (s : State) : Bool :=
  s.hasImage && !s.brt.job && !s.brt.running && !s.flag aBocState F.bocState_ready

/-- The setpoint that the entry of the next breath names, 0 for none (R230, R233): that of the breath after the running one, of the breath
a restart begins with, or at image acceptance of breath 0. -/
def State.namedSetpoint (s : State) : Nat :=
  let next := entSetpoint (s.breathEntry s.brt.nextEntry)
  if !s.hasImage then 0
  else if s.brt.running then (if entLast s.curEntry then 0 else next)
  else if s.brt.job then (if s.brt.next = 0 then 0 else next)
  else if s.accepting then next
  else 0

/-- Whether no entry names a setpoint that is not in force. -/
def State.namedSettled (s : State) : Bool :=
  decide (s.namedSetpoint = 0) || decide (s.namedSetpoint = s.getF aBocSetpoint F.bocSetpoint_current)

/-- The setpoint a pending request leads to, never below the image's minimum (R232, R233). -/
def State.requestedSetpoint (s : State) : Nat :=
  max (s.getF aBocSetpoint F.bocSetpoint_request) (s.getF aBocSetpoint F.bocSetpoint_imageMin)

/-- The setpoint to which the supply ramps (R231, R233): the largest that an entry, a request or the image's minimum asks for. -/
def State.rampGoal (s : State) : Nat :=
  let req := if s.getF aBocSetpoint F.bocSetpoint_request = 0 then 0 else s.requestedSetpoint
  max (max s.namedSetpoint req) (if s.brt.job then 0 else s.getF aBocSetpoint F.bocSetpoint_imageMin)

/-- Whether the supply stands at the level of a setpoint (R231). -/
def State.supplied (s : State) (code : Nat) : Bool :=
  decide (code ≤ s.getF aBocSetpoint F.bocSetpoint_current ∨ code ≤ s.pins.supply)

/-- BOC_SETPOINT.pending brought up to date: a change that an entry or a write requests waits (R230, R237). -/
def State.showPending (s : State) : State :=
  s.setF aBocSetpoint F.bocSetpoint_pending
    (if s.namedSettled && decide (s.getF aBocSetpoint F.bocSetpoint_request = 0) then 0 else 1)

/-- A setpoint request (R230, R231): zero withdraws. -/
def State.requestSetpoint (s : State) (code : Nat) : State :=
  (s.setF aBocSetpoint F.bocSetpoint_request code).showPending

/-- The ceiling of power control (R522), which a breath-table entry or a management write establishes. -/
def State.setCeiling (s : State) (code : Nat) : State :=
  { s.setF aBocPower F.bocPower_lowered 0 with pins := { s.pins with ceiling := code } }

/-- SETPOINT_REQUEST_WRITE: a request outside the image's and the grade's range is refused; zero withdraws (R230, R231). -/
def execSetpointRequestWrite (value : Word) (s : State) : Out :=
  let code := bitsAt value.toNat 5 5
  let lo := let m := s.getF aBocSetpoint F.bocSetpoint_imageMin; if m = 0 then 12 else m
  if code = 0 then .next { s.requestSetpoint 0 with bus := ⟨false, 0⟩ }
  else if code < lo ∨ s.getF aBocSetpoint F.bocSetpoint_gradeMax < code then .next { s with bus := ⟨true, 0⟩ }
  else .next { (s.requestSetpoint code).setCeiling code with bus := ⟨false, 0⟩ }

/-- VOLTAGE_RAMP_END: the supply has reached the level of the higher setpoint that is asked for (R231). -/
def execVoltageRampEnd (s : State) : Out :=
  .next { s with pins := { s.pins with supply := max s.pins.supply s.rampGoal } }

/-- The setpoint to which a stop at this boundary changes, if there is one (R230, R231, R233): the entry's, for whose ramp the boundary
waits, else a pending request whose ramp has ended, else outside a job the image's minimum. -/
def State.stopTarget (s : State) : Option Nat :=
  let cur := s.getF aBocSetpoint F.bocSetpoint_current
  let imin := s.getF aBocSetpoint F.bocSetpoint_imageMin
  if s.namedSetpoint ≠ 0 then (if s.namedSettled then none else some s.namedSetpoint)
  else if s.getF aBocSetpoint F.bocSetpoint_request ≠ 0 then
    (if s.supplied s.requestedSetpoint then some s.requestedSetpoint else none)
  else if !s.brt.job ∧ cur < imin then some imin else none

/-- Whether image acceptance has nothing left to apply (R233): the entry's setpoint is in force, or no request is left and the setpoint is not
below the image's minimum. -/
def State.acceptanceSettled (s : State) : Bool :=
  if s.namedSetpoint ≠ 0 then s.namedSettled
  else decide (s.getF aBocSetpoint F.bocSetpoint_request = 0) &&
    decide (s.getF aBocSetpoint F.bocSetpoint_imageMin ≤ s.getF aBocSetpoint F.bocSetpoint_current)

/-- Conditions 1 and 2 of R204: every island has completed with no free indication under way, and every tracker is resolved. -/
def State.breathDone (s : State) : Bool :=
  (s.allIslands.all fun n => !s.incomplete n && (s.island n).taken.all fun p => p.2.all fun f => f.old || f.arrived) &&
  decide (s.getF aGmuTrack F.gmuTrack_open = 0)

/-- Whether the stop to setpoint `t` can be taken now: no abort, the supply raised (R231), conditions 1 and 2 of R204, and at image acceptance
breath 0's load list finished (R233). -/
def State.canStop (s : State) (t : Nat) : Bool :=
  !s.brt.aborted && s.supplied t && (!s.brt.running || s.breathDone) && (!s.accepting || s.loadsFinished)

/-- SETPOINT_STOP: at a boundary every island gates, the clocks retune, the latencies of the new setpoint come into use, and the
registers report it; after a decrease the supply is lowered (R231). -/
def execSetpointStop (duration : Nat) (s : State) : Out :=
  match s.stopTarget with
  | none => .next s
  | some t =>
    if !s.canStop t then .next s
    else
      let lower := decide (t < s.getF aBocSetpoint F.bocSetpoint_current)
      let s1 := { s.setF aBocSetpoint F.bocSetpoint_current t with
        pins := { s.pins with supply := if lower then t else max s.pins.supply t } }
      let s1 := if s.namedSetpoint = 0 then s1.setF aBocSetpoint F.bocSetpoint_request 0 else s1.setCeiling t
      let s1 := s1.allIslands.foldl (fun s n => s.setFs (aIslClock n) [(F.islClock_setpoint, t), (F.islClock_locked, 1)]) s1
      .next ((s1.bump aBocFreqLog F.bocFreqLog_changes 1).setF aBocFreqLog F.bocFreqLog_lastStop duration).showPending

end Sys2Proof.Machine
end

