-- ==== Sys2Proof/Machine/Tier.lean ====
section
/-! DEFINITION. The memory tiers as the movers and remote requests see them: the local address space (R238, R241, R244,
R245), line reads and writes of the LPDDR5X tier with its code, its keys and its rewrite queues (R246 to R249), staging
(R254), the side port (R103, R242), and the tier's own events (R249, R251, R267, R528). -/

namespace Sys2Proof.Machine

/-! ### Addresses -/

/-- What lies at a local address (R238, R239, R241, R244). -/
inductive Region where
  | lpddr
  | tile (n u : Nat) (istore : Bool)
  | staging (f : Nat)
  | control
  | absent
deriving DecidableEq, Repr

/-- The size of a field's LPDDR5X region: 150 GiB (R244). -/
def lpField : Nat := 0x2580000000
/-- The usable bytes of one channel: 9.375 GiB (R244). -/
def lpChannelBytes : Nat := 0x258000000
/-- The end of the LPDDR5X range (R238). -/
def lpEnd : Nat := 0x12C00000000
/-- The base of staging SRAM (R239). -/
def stgBase : Nat := 0x30000000000
/-- The size of a field's staging SRAM (R239). -/
def stgSize : Nat := 0x4000000

/-- The number of a field's channels in the address map (R244). -/
def State.chanCount (s : State) (f : Nat) : Nat := s.getF (aFldChannels f) F.fldChannels_count

/-- A mapped LPDDR5X address (R244). -/
def State.lpMapped (s : State) (a : Nat) : Bool :=
  decide (a < lpEnd) && decide (a % lpField < s.chanCount (a / lpField) * lpChannelBytes)

/-- The region of a local address. -/
def State.region (s : State) (a : Nat) : Region :=
  if a < lpEnd then (if s.lpMapped a then .lpddr else .absent)
  else if 0x20000000000 ≤ a ∧ a < 0x22000000000 then
    let o := a % 2 ^ 18
    let core := bitsAt a 18 6
    let i := bitsAt a 28 6
    if core < 60 ∧ i < s.perField ∧ o < 0x30000 then
      .tile (bitsAt a 34 3 * s.perField + i) (60 * bitsAt a 24 4 + core) (decide (tileSize ≤ o))
    else .absent
  else if stgBase ≤ a ∧ a < stgBase + 8 * stgSize then .staging ((a - stgBase) / stgSize)
  else if 0x31000000000 ≤ a ∧ a < 0x38028000000 then .control
  else .absent

/-- The field channels in the address map, in ascending order (R245). -/
def State.activeChannels (s : State) (f : Nat) : List Nat :=
  let act := s.getF (aFldChannels f) F.fldChannels_active
  (List.range 16).filter fun c => act.testBit c

/-- Where a mapped LPDDR5X line lies in its device (R245): field, field channel, rank, bank, row, and the byte of its data line and of its
metadata entry within the page. -/
structure DramPlace where
  field : Nat
  ch    : Nat
  rank  : Nat
  bank  : Nat
  row   : Nat
  col   : Nat
  meta_ : Nat
deriving DecidableEq, Repr

/-- The map of R245. -/
def State.dramPlace (s : State) (a : Nat) : DramPlace :=
  let f := a / lpField
  let l := s.activeChannels f
  let ln := (a - f * lpField) / 64
  let c := ln / 15
  let h := c / l.length
  let pg := h / 2
  { field := f, ch := l.getD (c % l.length) 0, rank := pg / 16 % 2, bank := pg % 16, row := pg / 32,
    col := 1024 * (h % 2) + 64 * (ln % 15), meta_ := 1024 * (h % 2) + 960 + 4 * (ln % 15) }

/-- The field and field channel of a mapped LPDDR5X address (R245). -/
def State.channelOf (s : State) (a : Nat) : Nat × Nat := ((s.dramPlace a).field, (s.dramPlace a).ch)

/-- The chunk of 1 KiB of its field's region that holds an address: 15 data lines (R245, R246). -/
def chunkOf (a : Nat) : Nat := a % lpField / 64 / 15

/-- Whether a channel was retired during the job (R267). -/
def State.chanRetired (s : State) (f ch : Nat) : Bool := (s.getF (aFldChannels f) F.fldChannels_pending).testBit ch

/-! ### Lines of the LPDDR5X tier -/

/-- A line as the key in force decrypts it (R247). -/
def State.lpLine (s : State) (a : Nat) : Line :=
  let l := a / 64
  let k := Tbl.get 0 s.tier.lineKey l
  let raw := s.readLine (64 * l)
  if k = s.tier.key then raw else Config.staleLine k s.tier.key l raw

/-- A line as its device stores it: encrypted under the key it was written with (R247). -/
def State.lpStored (s : State) (a : Nat) : Line :=
  Config.xts (Tbl.get 0 s.tier.lineKey (a / 64)) (a / 64) (s.readLine (a / 64 * 64))

/-- The line reads as uncorrectable: its channel is retired, or it is known bad (R248, R267). -/
def State.lpBad (s : State) (a : Nat) : Bool :=
  let (f, ch) := s.channelOf a
  s.chanRetired f ch || s.anyBad (a / 64 * 64) 64

/-- A channel retired (R267): during a job its lines read uncorrectable and it is pending; at discovery the map shrinks.
A retirement record is written (R403) with an event. -/
def State.retireChannel (s : State) (f ch : Nat) : State :=
  let a := aFldChannels f
  let u := unitId 6 f 0 0 0 ch
  let s := s.setF (aFldChState f ch) F.fldChState_state 3
  let s := (if s.isRetired u then s else s.ledgerRecord 4 2 u 0).event 2 0x12 2 u ch
  if s.flag aBocState F.bocState_admitted then
    (s.setF a F.fldChannels_pending (s.getF a F.fldChannels_pending ||| 2 ^ ch)).capacityAfter u
  else
    let act := s.getF a F.fldChannels_active
    if act.testBit ch then
      (s.setFs a [(F.fldChannels_active, act ^^^ 2 ^ ch), (F.fldChannels_count, s.getF a F.fldChannels_count - 1)]).capacityAfter u
    else s

/-- The address map rebuilt without the channels that were retired in a job (R267): at discovery. -/
def State.rebuildMap (s : State) : State :=
  (List.range 8).foldl (fun s f =>
    let a := aFldChannels f
    let l := (s.activeChannels f).filter fun c => !s.chanRetired f c
    s.setFs a [(F.fldChannels_active, (l.map fun c => 2 ^ c).sum), (F.fldChannels_count, l.length), (F.fldChannels_pending, 0)]) s

/-- The chunks of a channel in which an uncorrectable line was found within the last hour, with the one that holds `a` (R267). -/
def State.recentBad (s : State) (k a : Nat) : List (Nat × Beat) :=
  let old := (Tbl.get [] s.tier.badChunks k).filter fun p => !beatReached s.beat (p.2 + nsBeat 3600000000000)
  if old.any fun p => decide (p.1 = chunkOf a) then old else old ++ [(chunkOf a, s.beat)]

/-- An uncorrectable line of a channel noted (R267, R403): the channel is retired once two different chunks within an hour have had one, or
its fault records reach the permanent threshold. -/
def State.noteBadLine (s : State) (f ch a : Nat) : State :=
  let k := 16 * f + ch
  let u := unitId 6 f 0 0 0 ch
  let l := s.recentBad k a
  let s := { s with tier := { s.tier with badChunks := Tbl.set [] s.tier.badChunks k l } }.faultDetected u 2 0
  if s.getF (aFldChState f ch) F.fldChState_state ≠ 3 ∧ (2 ≤ l.length ∨ s.isRetired u = true) then s.retireChannel f ch else s

/-- An uncorrectable error found by a mover or a request: counted where the memory counts it, with an event (R248, R254,
R434). -/
def State.lpUncorrectable (s : State) (a : Nat) : State :=
  let (f, ch) := s.channelOf a
  let s := if s.lpBad a then s else s.markBad (a / 64 * 64)
  let s := s.bump (aFldChEcc f ch) F.fldChEcc_uncorrected 1
  (s.event 2 0x10 0 (unitId 6 f 0 0 0 ch) (a / 64 * 64)).noteBadLine f ch a

/-- A corrected line: counted and put in the channel's rewrite queue, unless it is there already (R248). -/
def State.lpCorrected (s : State) (a : Nat) : State :=
  let (f, ch) := s.channelOf a
  let k := 16 * f + ch
  let q := Tbl.get [] s.tier.rewrite k
  if q.contains (a / 64) then s
  else
    let s := (s.bump (aFldChEcc f ch) F.fldChEcc_corrected 1).corrected (.channel f ch)
    if q.length < 16 then { s with tier := { s.tier with rewrite := Tbl.set [] s.tier.rewrite k (q ++ [a / 64]) } } else s

/-- Bits 31:24 of a line's metadata entry (R246): its provisional tag. -/
def State.metaTop (s : State) (a : Nat) : Nat := (s.tagAt (a / 64 * 64)).toNat

/-- A line's metadata entry (R246): the three check symbols over the 64 stored bytes and its top byte, and its tag. -/
def State.metaEntry (s : State) (a : Nat) : BitVec 32 :=
  BitVec.ofNat 32 ((Config.reedSolomon (s.lpStored a) (BitVec.ofNat 8 (s.metaTop a))).toNat + 2 ^ 24 * s.metaTop a)

/-- The metadata line of the chunk that holds an address (R246): one entry for each of its 15 data lines, and zeros. -/
def State.metaLine (s : State) (a : Nat) : BitVec 512 :=
  let base := a / lpField * lpField + chunkOf a * 960
  BitVec.ofNat 512 (((List.range 15).map fun i => (s.metaEntry (base + 64 * i)).toNat * 2 ^ (32 * i)).sum)

/-- What R246's code makes of a line with so many erroneous bytes among the 65 it covers: distance 4 corrects one and detects two. More may
escape it; the spec does not say what is then read, and no command gives such a line. -/
def eccOfBytes : Nat → Ecc
  | 0 => .clean
  | 1 => .corrected
  | _ => .uncorrectable

/-- Whether a line waits in its channel's rewrite queue, whose entry serves every read of it (R248). -/
def State.inRewrite (s : State) (a : Nat) : Bool :=
  let (f, ch) := s.channelOf a
  (Tbl.get [] s.tier.rewrite (16 * f + ch)).contains (a / 64)

/-- A line read (R248): the line, or none when it is uncorrectable. -/
def State.lpRead (s : State) (a : Nat) (ecc : Ecc) : State × Option Line :=
  if s.inRewrite a && !s.lpBad a then (s, some (s.lpLine a))
  else if s.lpBad a || decide (ecc = .uncorrectable) then (s.lpUncorrectable a, none)
  else
    let (f, ch) := s.channelOf a
    let s1 := if ecc = .corrected then s.lpCorrected a
      else if ecc = .link then s.bump (aFldChEcc f ch) F.fldChEcc_link 1 else s
    (s1, some (s.lpLine a))

/-- Bytes written inside one line: a partial write reads, merges and rewrites (R249); the line is then under the key in
force, with the writer's tag, which its region's directory notes (R410). -/
def State.lpWrite (s : State) (a : Nat) (bs : List Byte) (tag : BitVec 2) : State :=
  let l := a / 64
  let s1 := if bs.length < 64 ∧ Tbl.get 0 s.tier.lineKey l ≠ s.tier.key
    then s.writeBytes (64 * l) (bytesOfNat 64 (s.lpLine a).toNat) else s
  let s2 := (s1.store a bs tag)
  let dir := if tag = 0 then s2.tier.tagDir
    else Tbl.set 0 s2.tier.tagDir (a / 2 ^ 22) (Tbl.get 0 s2.tier.tagDir (a / 2 ^ 22) ||| 2 ^ tag.toNat)
  { s2 with tier := { s2.tier with lineKey := Tbl.set 0 s2.tier.lineKey l s2.tier.key, tagDir := dir } }

/-! ### Accesses of movers and requests -/

/-- An access cut at line boundaries: start and length of each piece. -/
def cutLines : Nat → Nat → Nat → List (Nat × Nat)
  | 0, _, _ => []
  | _ + 1, _, 0 => []
  | k + 1, a, n =>
    let m := min n (64 - a % 64)
    (a, m) :: cutLines k (a + m) (n - m)

/-- The pieces of an access of `n` bytes. -/
def pieces (a n : Nat) : List (Nat × Nat) := cutLines (n / 64 + 2) a n

/-- One piece read: the bytes, or none when they hold an uncorrectable error. -/
def State.readPiece (s : State) (a n : Nat) (ecc : Ecc) : State × Option (List Byte) :=
  match s.region a with
  | .lpddr =>
    match s.lpRead a ecc with
    | (s1, some l) => (s1, some ((bytesOfNat 64 l.toNat).drop (a % 64) |>.take n))
    | (s1, none) => (s1, none)
  | .tile i u istore =>
    let up := if istore then F.islCoreEcc_isUncorrected else F.islCoreEcc_tmUncorrected
    let cp := if istore then F.islCoreEcc_isCorrected else F.islCoreEcc_tmCorrected
    if s.anyBad a n || decide (ecc = .uncorrectable) then
      let s := if s.anyBad a n then s else s.markBad a
      ((s.bump (aIslCoreEcc i u) up 1).event 2 0x10 0 (s.coreId i u) (a % 2 ^ 18), none)
    else
      let s1 := if ecc = .corrected then (s.bump (aIslCoreEcc i u) cp 1).corrected (.core i u) else s
      (s1, some (s.readBytes a n))
  | .staging f =>
    if s.anyBad a n || decide (ecc = .uncorrectable) then
      let s := if s.anyBad a n then s else s.markBad a
      ((s.bump (aFldStgEcc f) F.fldStgEcc_uncorrected 1).event 2 0x10 0 (unitId 5 f 0 0 0 0) a, none)
    else
      let s1 := if ecc = .corrected then (s.bump (aFldStgEcc f) F.fldStgEcc_corrected 1).corrected (.staging f) else s
      (s1, some (s.readBytes a n))
  | _ => (s, none)

/-- Pieces read one after the other, each meeting what the list says. -/
def State.readPieces (s : State) (ecc : Eccs) : List (Nat × Nat) → State × Option (List Byte)
  | [] => (s, some [])
  | (a, n) :: l =>
    match s.readPiece a n (ecc.headD .clean) with
    | (s1, none) => (s1, none)
    | (s1, some bs) =>
      match s1.readPieces ecc.tail l with
      | (s2, some cs) => (s2, some (bs ++ cs))
      | (s2, none) => (s2, none)

/-- One piece written with a tag; staging keeps no tags (R254). -/
def State.writePiece (s : State) (a : Nat) (bs : List Byte) (tag : BitVec 2) : State :=
  match s.region a with
  | .lpddr => s.lpWrite a bs tag
  | .staging _ => (s.writeBytes a bs).repair a bs.length
  | .tile _ _ _ => s.store a bs tag
  | _ => s

/-- Pieces written one after the other. -/
def State.writePieces (s : State) (bs : List Byte) (tag : BitVec 2) : List (Nat × Nat) → State
  | [] => s
  | (a, n) :: l => (s.writePiece a (bs.take n) tag).writePieces (bs.drop n) tag l

/-- A write that would have to read an uncorrectable line, or that goes to a retired channel (R249, R267). -/
def State.writeBlocked (s : State) (a n : Nat) : Bool :=
  match s.region a with
  | .lpddr =>
    let (f, ch) := s.channelOf a
    s.chanRetired f ch || (decide (n < 64) && s.anyBad (a / 64 * 64) 64)
  | _ => false

/-- Pieces written one after the other, each line that a piece covers only in part read and checked first (R249): one that is uncorrectable, or
of a retired channel, is not written (R267). What is left of the list of outcomes is answered. -/
def State.writeChecked (s : State) (tag : BitVec 2) : Eccs → List Byte → List (Nat × Nat) → State × Eccs
  | ecc, _, [] => (s, ecc)
  | ecc, bs, (a, n) :: l =>
    let (f, ch) := s.channelOf a
    if s.region a = .lpddr ∧ (n < 64 ∨ s.chanRetired f ch) then
      match s.lpRead a (ecc.headD .clean) with
      | (s1, some _) => (s1.writePiece a (bs.take n) tag).writeChecked tag ecc.tail (bs.drop n) l
      | (s1, none) => s1.writeChecked tag ecc.tail (bs.drop n) l
    else (s.writePiece a (bs.take n) tag).writeChecked tag ecc (bs.drop n) l

/-! ### Events of the tier -/

/-- A field and a field channel that exist. -/
def hasChannel (f ch : Nat) : Bool := decide (f < 8 ∧ ch < 16)

/-- LPDDR_REWRITE: the oldest line of a rewrite queue is written back (R248). -/
def execLpddrRewrite (field ch : Nat) (s : State) : Out :=
  if hasChannel field ch then
    let k := 16 * field + ch
    .next { s with tier := { s.tier with rewrite := Tbl.set [] s.tier.rewrite k (Tbl.get [] s.tier.rewrite k).tail } }
  else .fault .absentUnit

/-- LPDDR_PATROL_SCRUB: the scrubber reads a mapped line; a corrected one is rewritten, an uncorrectable one is counted and
reported (R248, R249). -/
def execLpddrPatrolScrub (addr : Nat) (ecc : Ecc) (s : State) : Out :=
  if s.lpMapped addr then .next (s.lpRead addr ecc).1 else .next s

/-- ONDIE_COUNT_READ: the device's error-check-and-scrub count is added to the channel's (R248). -/
def execOndieCountRead (field ch count : Nat) (s : State) : Out :=
  if hasChannel field ch then .next (s.bump (aFldChEcc field ch) F.fldChEcc_ondie count) else .fault .absentUnit

/-- The field channels of an LPDDR5X device (R244). -/
def deviceChannels (device : Nat) : List (Nat × Nat) := (List.range 8).map fun j => (device / 2, 8 * (device % 2) + j)

/-- Whether a device of a field is over its operating limit. -/
def State.fieldOver (s : State) (f : Nat) : Bool := (List.range 16).any fun ch => s.flag (aFldChState f ch) F.fldChState_over

/-- BOC_THERMAL.lpddr_over: the fields with a device over its operating limit. -/
def State.overMask (s : State) : Nat := (((List.range 8).filter s.fieldOver).map fun f => 2 ^ f).sum

/-- DEVICE_TEMPERATURE_REPORT: a device's channels refresh at twice the rate above 85 °C; above its operating limit they say
so and an event is written for each (R251). -/
def execDeviceTemperatureReport (device : Nat) (hot above : Bool) (temp : Nat) (s : State) : Out :=
  if device < 16 then
    let s := (deviceChannels device).foldl (fun s p =>
      let a := aFldChState p.1 p.2
      let was := s.flag a F.fldChState_over
      let s := (s.setFlag a F.fldChState_hot hot).setFlag a F.fldChState_over above
      if above && !was then s.event 2 0x11 0 (unitId 6 p.1 0 0 0 p.2) (p.2 + temp * 2 ^ 16) else s) s
    .next (s.setF aBocThermal F.bocThermal_lpddrOver s.overMask)
  else .fault .absentUnit

/-- CHANNEL_RETIRE: a channel is retired (R267); during a job the package is lost to its slice (R27). -/
def execChannelRetire (field ch : Nat) (s : State) : Out :=
  if hasChannel field ch then
    if s.getF (aFldChState field ch) F.fldChState_state = 3 then .next s else .next (s.retireChannel field ch)
  else .fault .absentUnit

end Sys2Proof.Machine
end

