-- ==== Sys2Proof/Machine/Engines.lean ====
section
/-! DEFINITION. The stream engines (R256 to R266): descriptors, moves, trees, signals, start credits and faults. -/

namespace Sys2Proof.Machine

/-! ### State and descriptors -/

/-- An engine's own state. -/
def State.engine (s : State) (e : Nat) : Engine := Tbl.get Engine.reset s.tier.engines e

/-- An engine's own state replaced. -/
def State.setEngine (s : State) (e : Nat) (x : Engine) : State :=
  { s with tier := { s.tier with engines := Tbl.set Engine.reset s.tier.engines e x } }

/-- STM_STATUS of package-wide engine `e`. -/
def stmA (e : Nat) : Nat := aStmStatus (e / 16) (e % 16)

/-- The descriptor index an engine executes. -/
def State.stmIndex (s : State) (e : Nat) : Nat := s.getF (stmA e) F.stmStatus_index

/-- The descriptor an engine executes (R257). -/
def State.desc (s : State) (e : Nat) : Nat := Tbl.get 0 s.tier.descs (1024 * e + s.stmIndex e)

/-- Op of a descriptor. -/
def dOp (d : Nat) : Nat := bitsAt d 0 4
/-- Tag of a descriptor. -/
def dTag (d : Nat) : BitVec 2 := BitVec.ofNat 2 (bitsAt d 4 2)
/-- Wait kind. -/
def dWkind (d : Nat) : Nat := bitsAt d 6 2
/-- Signal kind. -/
def dSkind (d : Nat) : Nat := bitsAt d 8 2
/-- Counter waited on. -/
def dWctr (d : Nat) : Nat := bitsAt d 10 8
/-- Place of the counter waited on. -/
def dWloc (d : Nat) : Nat := bitsAt d 18 9
/-- Counter signalled. -/
def dSctr (d : Nat) : Nat := bitsAt d 27 8
/-- Place of the counter signalled. -/
def dSloc (d : Nat) : Nat := bitsAt d 35 9
/-- Amount signalled, 12 bits signed. -/
def dSamt (d : Nat) : Nat := bitsAt d 44 12
/-- Field mask of a move into staging. -/
def dFmask (d : Nat) : Nat := bitsAt d 56 8
/-- Wait target. -/
def dTarget (d : Nat) : Nat := bitsAt d 64 32
/-- Source address. -/
def dSrc (d : Nat) : Nat := bitsAt d 96 42
/-- Destination address, or island mask. -/
def dDst (d : Nat) : Nat := bitsAt d 138 42
/-- Lines per row, or tiles. -/
def dCount (d : Nat) : Nat := bitsAt d 180 24
/-- Rows of a move. -/
def dRows (d : Nat) : Nat := bitsAt d 204 12 + 1
/-- Source row stride of a move in lines. -/
def dSstride (d : Nat) : Nat := bitsAt d 216 20
/-- Destination row stride of a move in lines. -/
def dDstride (d : Nat) : Nat := bitsAt d 236 20
/-- Format of a tree. -/
def dFmt (d : Nat) : BitVec 4 := BitVec.ofNat 4 (bitsAt d 204 4)
/-- Cluster mask of a tree. -/
def dClusters (d : Nat) : BitVec 16 := BitVec.ofNat 16 (bitsAt d 208 16)

/-- Whether a counter's kind and place are reserved values (R257). -/
def State.badCtr (s : State) (kind loc : Nat) : Bool :=
  decide (kind = 3) || (decide (kind = 1) && decide (8 ≤ loc)) || (decide (kind = 2) && decide (s.numIslands ≤ loc))

/-- Whether a descriptor holds a reserved op, kind or value, or a nonzero unused field (R257, R263); only a move into staging uses the field
mask (notes/assumptions/51.md). -/
def State.descReserved (s : State) (d : Nat) : Bool :=
  let op := dOp d
  decide (3 < op) || s.badCtr (dWkind d) (dWloc d) || s.badCtr (dSkind d) (dSloc d) ||
  (decide (dSkind d ≠ 0) && decide (dSamt d = 0)) ||
  (decide (dWkind d = 0) && decide (dWctr d ≠ 0 ∨ dWloc d ≠ 0 ∨ dTarget d ≠ 0)) ||
  (decide (dSkind d = 0) && decide (dSctr d ≠ 0 ∨ dSloc d ≠ 0 ∨ dSamt d ≠ 0)) ||
  (decide (op = 0 ∨ op = 3) && decide (dTag d ≠ 0 ∨ d / 2 ^ 96 ≠ 0 ∨ dFmask d ≠ 0)) ||
  (decide (op = 1 ∨ op = 2) && decide (dCount d = 0)) ||
  (decide (op = 1 ∧ dFmask d ≠ 0) && (match s.region (dDst d) with | .staging _ => false | _ => true)) ||
  (decide (op = 2) && decide (dTag d ≠ 0 ∨ dFmask d ≠ 0 ∨ d / 2 ^ 224 ≠ 0 ∨ 2 ^ 40 ≤ dDst d))

/-- Whether a descriptor's wait counter has reached its target (R259). -/
def State.waitMet (s : State) (d : Nat) : Bool :=
  match dWkind d with
  | 1 => reached32 (s.getF (aStmCtr (dWloc d) (dWctr d)) F.stmCtr_value) (dTarget d)
  | 2 => reached32 (s.getF (aIslSync (dWloc d) (dWctr d)) F.islSync_value) (dTarget d)
  | _ => true

/-- The signal of a descriptor, if it gives one. -/
def descSignal (d : Nat) : List Signal :=
  if dSkind d = 0 then []
  else [{ kind := dSkind d, ctr := dSctr d, loc := dSloc d, amt := (BitVec.ofNat 12 (dSamt d)).signExtend 32 }]

/-! ### Faults -/

/-- A stream-engine fault (R263): the engine stops, the fault is recorded, the breath aborts, and the lead hears of it. -/
def State.stmFault (s : State) (e code : Nat) : State :=
  let i := s.stmIndex e
  let s := s.setF (stmA e) F.stmStatus_state 3
  let a := aStmFault (e / 16) (e % 16)
  let s := s.setFs a [(F.stmFault_code, code), (F.stmFault_index, i), (F.stmFault_valid, 1)]
  { s with brt := { s.brt with aborted := true } }.faultReport 4 []

/-- Whether an engine may run: it is not faulted and no breath has aborted (R263). -/
def State.stmRuns (s : State) (e : Nat) : Bool := decide (s.getF (stmA e) F.stmStatus_state ≠ 3) && !s.brt.aborted

/-! ### Credits -/

/-- A parked engine takes a start credit if it holds one and continues at its entry (R261). -/
def State.takeCredit (s : State) (e : Nat) : State :=
  let c := s.getF (stmA e) F.stmStatus_credits
  let x := s.engine e
  if x.parked ∧ c ≠ 0 then
    let s := (s.setEngine e { x with parked := false, begun := false, parts := 0 }).setFs (stmA e)
      [(F.stmStatus_credits, c - 1), (F.stmStatus_index, x.entry)]
    s.setF (stmA e) F.stmStatus_state (if dOp (s.desc e) = 0 then 0 else 1)
  else s

/-- Every engine gains a start credit at a breath start (R261); one that would exceed 15 faults. -/
def State.grantCredits (s : State) : State :=
  (List.range 128).foldl (fun s e =>
    let c := s.getF (stmA e) F.stmStatus_credits
    if 15 ≤ c then s.stmFault e 5 else (s.setF (stmA e) F.stmStatus_credits (c + 1)).takeCredit e) s

/-! ### Running a descriptor -/

/-- A descriptor of another op, a parked or a stopped engine: nothing of this command happens. -/
def State.stmReady (s : State) (e op : Nat) : Bool :=
  s.stmRuns e && !(s.engine e).parked && (decide (dOp (s.desc e) = op) || (decide (3 < dOp (s.desc e))))

/-- The descriptor begins: it faults when it is reserved, waits when its counter is short (one field cycle counted), else goes
on with `run` (R259, R263). -/
def State.stmBegin (s : State) (e : Nat) (run : State → State) : State :=
  let d := s.desc e
  if (s.engine e).begun then run s
  else if s.descReserved d then s.stmFault e 1
  else if s.waitMet d then run ((s.setEngine e { s.engine e with begun := true }).setF (stmA e) F.stmStatus_state 1)
  else (s.setF (stmA e) F.stmStatus_state 2).bump (aStmWaited (e / 16) (e % 16)) F.stmWaited_cycles 1

/-- The engine goes on to the next descriptor of its list. -/
def State.stmNext (s : State) (e : Nat) : State :=
  let x := s.engine e
  let s := (s.setEngine e { x with begun := false, parts := 0 }).setF (stmA e) F.stmStatus_index (s.stmIndex e + 1)
  s.setF (stmA e) F.stmStatus_state (if dOp (s.desc e) = 0 then 0 else 1)

/-- A signal given in list order: at once when none waits before it (R260). -/
def State.giveSignal (s : State) (e : Nat) (l : List Signal) (now : Bool) : State :=
  let x := s.engine e
  if now ∧ x.signals.isEmpty then l.foldl State.applySignal s else s.setEngine e { x with signals := x.signals ++ l }

/-! ### Moves -/

/-- Whether an engine of field `f` may read a line there (R258). -/
def State.moveFrom (s : State) (f a : Nat) : Bool :=
  match s.region a with
  | .lpddr => true
  | .staging g => decide (g = f)
  | .tile n _ istore => decide (s.fieldOf n = f) && !istore
  | _ => false

/-- Whether an engine of field `f` may write a line there; another field's staging only through a field mask (R258). -/
def State.moveTo (s : State) (f fmask a : Nat) : Bool :=
  match s.region a with
  | .staging g => decide (g = f) || decide (fmask ≠ 0)
  | .lpddr => decide (fmask = 0)
  | .tile n _ istore => decide (s.fieldOf n = f) && !istore && decide (fmask = 0)
  | _ => false

/-- One line of a move (R258, R262): the state, a fault code, 0 for none, and the bytes it wrote; a retired channel takes none (R267). -/
def State.moveLine (s : State) (f d i : Nat) (ecc : Ecc) : State × Nat × Nat :=
  let row := i / dCount d
  let col := i % dCount d
  let src := dSrc d + 64 * dSstride d * row + 64 * col
  let dst := dDst d + 64 * dDstride d * row + 64 * col
  if !s.moveFrom f src || !s.moveTo f (dFmask d) dst then (s, 2, 0)
  else
    match s.readPiece src 64 ecc with
    | (s1, none) => (s1, 3, 0)
    | (s1, some bs) =>
      let tag := match s.region src with | .staging _ => dTag d | _ => s.tagAt src
      match s.region dst with
      | .staging g =>
        let fs := if dFmask d = 0 then [g] else (List.range 8).filter fun k => (dFmask d).testBit k
        (fs.foldl (fun s k => s.writePiece (stgBase + stgSize * k + (dst - stgBase) % stgSize) bs 0) s1, 0, 64 * fs.length)
      | .lpddr => if s1.writeBlocked dst 64 then (s1, 0, 0) else (s1.writePiece dst bs tag, 0, 64)
      | _ => (s1.writePiece dst bs tag, 0, 64)

/-- Lines of a move from `i` on, until one fails: the state, the fault code, and the bytes written beside those of `done`. -/
def State.moveLines (f d : Nat) (ecc : Eccs) : Nat → Nat → Nat → State → State × Nat × Nat
  | 0, _, done, s => (s, 0, done)
  | k + 1, i, done, s =>
    match s.moveLine f d i (ecc.headD .clean) with
    | (s1, 0, w) => State.moveLines f d ecc.tail k (i + 1) (done + w) s1
    | (s1, code, _) => (s1, code, done)

/-- STM_MOVE: an engine at a move descriptor copies its rows (R258); the signal follows when the descriptor completes. `ecc` is what its lines
meet. -/
def execStmMove (engine : Nat) (ecc : Eccs) (s : State) : Out :=
  if engine < 128 then
    if s.stmReady engine 1 then
      .next (s.stmBegin engine fun s =>
        let d := s.desc engine
        if dSrc d % 64 ≠ 0 ∨ dDst d % 64 ≠ 0 then s.stmFault engine 2
        else
          let r := State.moveLines (engine / 16) d ecc (dRows d * dCount d) 0 0 s
          let s1 := r.1.bump (aStmMoved (engine / 16) (engine % 16)) F.stmMoved_bytes r.2.2
          if r.2.1 = 0 then (s1.giveSignal engine (descSignal d) false).stmNext engine else s1.stmFault engine r.2.1)
    else .next s
  else .fault .absentUnit

/-! ### Trees -/

/-- Bytes of a tile record (R258). -/
def tileBytes (fmt : BitVec 4) : Nat := if fmtScaled fmt then 144 else if fmtBits fmt = 16 then 64 else 128

/-- Parts of a tile (R265). -/
def tileParts (fmt : BitVec 4) : Nat := if fmtScaled fmt then 3 else if fmtBits fmt = 16 then 1 else 2

/-- The islands a tree descriptor of field `f` names (package-wide numbers). -/
def State.treeIslands (s : State) (f d : Nat) : List Nat :=
  ((List.range 40).filter fun i => (dDst d).testBit i).map fun i => f * s.perField + i

/-- Ownership of the trees a descriptor names (R264): the state with this engine their owner, or none when another is. -/
def State.ownTrees (s : State) (e : Nat) (l : List Nat) : Option State :=
  if l.any fun n => match Tbl.get none s.tier.owners n with | some o => decide (o ≠ e) | none => false then none
  else some { s with tier := { s.tier with owners := l.foldl (fun t n => Tbl.set none t n (some e)) s.tier.owners } }

/-- The address and length of a part of a tree descriptor's tiles (R258, R265). -/
def treeSource (d k : Nat) : Nat × Nat :=
  let fmt := dFmt d
  (dSrc d + tileBytes fmt * (k / tileParts fmt) + 64 * (k % tileParts fmt), if k % tileParts fmt = 2 then 16 else 64)

/-- The staging lines a part is read from. -/
def treeLines (d k : Nat) : Nat := (pieces (treeSource d k).1 (treeSource d k).2).length

/-- One part sent into every island of the mask (R265): the state and a fault code. -/
def State.treePart (s : State) (f d k : Nat) (l : List Nat) (ecc : Eccs) : State × Nat :=
  let fmt := dFmt d
  let part := k % tileParts fmt
  let (a, len) := treeSource d k
  let own := fun x => match s.region x with | .staging g => decide (g = f) | _ => false
  if !own a || !own (a + len - 1) then (s, 2)
  else
    match s.readPieces ecc (pieces a len) with
    | (s1, none) => (s1, 3)
    | (s1, some bs) =>
      let p : TreePart := { fmt := fmt, mask := dClusters d, part := part, data := BitVec.ofNat 512 (natOfBytes bs) }
      (l.foldl (fun s n => let x := s.island n; s.setIsland n { x with treeIn := x.treeIn ++ [p] }) s1, 0)

/-- Parts sent while every crossing of the mask has a free entry (R265): the state, the parts sent in all, a fault code. -/
def State.treeParts (f d total : Nat) (l : List Nat) (ecc : Eccs) : Nat → Nat → State → State × Nat × Nat
  | 0, k, s => (s, k, 0)
  | m + 1, k, s =>
    if total ≤ k ∨ l.any fun n => decide (16 ≤ (s.island n).treeIn.length) then (s, k, 0)
    else
      match s.treePart f d k l ecc with
      | (s1, 0) => State.treeParts f d total l (ecc.drop (treeLines d k)) m (k + 1) s1
      | (s1, code) => (s1, k, code)

/-- STM_TREE: an engine at a tree descriptor sends parts of its tiles while the islands' tree crossings have room; a later
command goes on where this one stops (R258, R264, R265). -/
def execStmTree (engine : Nat) (ecc : Eccs) (s : State) : Out :=
  if engine < 128 then
    if s.stmReady engine 2 then
      .next (s.stmBegin engine fun s =>
        let d := s.desc engine
        let f := engine / 16
        let l := s.treeIslands f d
        let total := dCount d * tileParts (dFmt d)
        if dSrc d % 16 ≠ 0 ∨ 2 ^ s.perField ≤ dDst d then s.stmFault engine 2
        else
          match s.ownTrees engine l with
          | none => s.stmFault engine 4
          | some s =>
            let from_ := (s.engine engine).parts
            let r := State.treeParts f d total l ecc (if l.isEmpty then total else 17) from_ s
            let k := r.2.1
            let s1 := r.1.bump (aStmMoved f (engine % 16)) F.stmMoved_bytes
              (((List.range (k - from_)).map fun i => (treeSource d (from_ + i)).2).sum)
            if r.2.2 ≠ 0 then s1.stmFault engine r.2.2
            else if k = total then (s1.giveSignal engine (descSignal d) false).stmNext engine
            else s1.setEngine engine { s1.engine engine with parts := k })
    else .next s
  else .fault .absentUnit

/-- STM_SYNC: an engine at a sync descriptor performs its wait and its signal (R258). -/
def execStmSync (engine : Nat) (s : State) : Out :=
  if engine < 128 then
    if s.stmReady engine 3 then
      .next (s.stmBegin engine fun s => (s.giveSignal engine (descSignal (s.desc engine)) true).stmNext engine)
    else .next s
  else .fault .absentUnit

/-- STM_END: an engine at an end descriptor performs its wait and its signal, then takes a start credit and continues at its
entry index; with no credit it waits there (R258, R261). -/
def execStmEnd (engine : Nat) (s : State) : Out :=
  if engine < 128 then
    if s.stmRuns engine ∧ (s.engine engine).parked then .next (s.takeCredit engine)
    else if s.stmReady engine 0 then
      .next (s.stmBegin engine fun s =>
        let s := s.giveSignal engine (descSignal (s.desc engine)) true
        ((s.setEngine engine { s.engine engine with parked := true, begun := false }).setF (stmA engine) F.stmStatus_state 0).takeCredit
          engine)
    else .next s
  else .fault .absentUnit

/-- STM_DESCRIPTOR_COMPLETE: the oldest descriptor that has not signalled completes, and its signal is applied (R259, R260). -/
def execStmDescriptorComplete (engine : Nat) (s : State) : Out :=
  if engine < 128 then
    let x := s.engine engine
    match x.signals with
    | [] => .next s
    | g :: l => if s.brt.aborted then .next s else .next ((s.setEngine engine { x with signals := l }).applySignal g)
  else .fault .absentUnit

end Sys2Proof.Machine
end

