-- ==== Sys2Proof/Machine/Hash.lean ====
section
/-! DEFINITION. The check and digest functions the spec names by their standards: CRC-32C (R313, R350, R401) and SHA3-256
and SHA3-512 of FIPS 202 (R398, R416, R429, R441). -/

namespace Sys2Proof.Machine

/-- One bit of the reflected CRC-32C (R313). -/
def crcBit (c : BitVec 32) : BitVec 32 := if c.getLsbD 0 then (c >>> 1) ^^^ 0x82F63B78#32 else c >>> 1

/-- One byte taken into a CRC. -/
def crcByte (c : BitVec 32) (b : Byte) : BitVec 32 := (List.range 8).foldl (fun c _ => crcBit c) (c ^^^ b.setWidth 32)

/-- Bytes taken into a CRC that starts at all ones. -/
def crcBytes (c : BitVec 32) (bs : List Byte) : BitVec 32 := bs.foldl crcByte c

/-- The CRC's initial value. -/
def crcInit : BitVec 32 := 0xFFFFFFFF#32

/-- CRC-32C of a byte string (R313). -/
def crc32c (bs : List Byte) : BitVec 32 := ~~~(crcBytes crcInit bs)

/-- Lane x + 5y of a Keccak state. -/
def kl (a : List (BitVec 64)) (i : Nat) : BitVec 64 := a.getD i 0

/-- Rotation offsets of rho, lane x + 5y. -/
def keccakRot : List Nat :=
  [0, 1, 62, 28, 27, 36, 44, 6, 55, 20, 3, 10, 43, 25, 39, 41, 45, 15, 21, 8, 18, 2, 61, 56, 14]

/-- Round constants of iota. -/
def keccakRc : List (BitVec 64) :=
  [0x0000000000000001#64, 0x0000000000008082#64, 0x800000000000808A#64, 0x8000000080008000#64, 0x000000000000808B#64,
   0x0000000080000001#64, 0x8000000080008081#64, 0x8000000000008009#64] ++
  [0x000000000000008A#64, 0x0000000000000088#64, 0x0000000080008009#64, 0x000000008000000A#64, 0x000000008000808B#64,
   0x800000000000008B#64, 0x8000000000008089#64, 0x8000000000008003#64] ++
  [0x8000000000008002#64, 0x8000000000000080#64, 0x000000000000800A#64, 0x800000008000000A#64, 0x8000000080008081#64,
   0x8000000000008080#64, 0x0000000080000001#64, 0x8000000080008008#64]

/-- One round of Keccak-f[1600]. -/
def keccakRound (a : List (BitVec 64)) (rc : BitVec 64) : List (BitVec 64) :=
  let c := (List.range 5).map fun x => kl a x ^^^ kl a (x + 5) ^^^ kl a (x + 10) ^^^ kl a (x + 15) ^^^ kl a (x + 20)
  let d := (List.range 5).map fun x => kl c ((x + 4) % 5) ^^^ (kl c ((x + 1) % 5)).rotateLeft 1
  let t := (List.range 25).map fun i => (kl a i ^^^ kl d (i % 5)).rotateLeft (keccakRot.getD i 0)
  -- pi: lane (y, 2x + 3y) takes lane (x, y)
  let b := (List.range 25).map fun i =>
    let x := i % 5
    let y := i / 5
    kl t ((x + 3 * y) % 5 + 5 * x)
  let e := (List.range 25).map fun i =>
    let x := i % 5
    let y := i / 5
    kl b i ^^^ (~~~(kl b ((x + 1) % 5 + 5 * y)) &&& kl b ((x + 2) % 5 + 5 * y))
  match e with
  | h :: r => (h ^^^ rc) :: r
  | [] => []

/-- Keccak-f[1600]. -/
def keccakF (a : List (BitVec 64)) : List (BitVec 64) := keccakRc.foldl keccakRound a

/-- Eight bytes as a lane. -/
def laneOf (bs : List Byte) : BitVec 64 := BitVec.ofNat 64 (bs.foldr (fun b acc => b.toNat + 256 * acc) 0)

/-- A block of whole lanes taken into the state. -/
def keccakAbsorb (a : List (BitVec 64)) (bs : List Byte) : List (BitVec 64) :=
  keccakF ((List.range 25).map fun i => kl a i ^^^ laneOf ((bs.drop (8 * i)).take 8))

/-- Blocks of `r` bytes taken in one after the other; `n` bounds their number. -/
def keccakBlocks (r : Nat) : Nat → List (BitVec 64) → List Byte → List (BitVec 64)
  | 0, a, _ => a
  | n + 1, a, bs => if bs.isEmpty then a else keccakBlocks r n (keccakAbsorb a (bs.take r)) (bs.drop r)

/-- The SHA3 padding to whole blocks of `r` bytes. -/
def sha3Pad (r : Nat) (bs : List Byte) : List Byte :=
  let k := r - bs.length % r
  if k = 1 then bs ++ [0x86#8] else bs ++ [0x06#8] ++ List.replicate (k - 2) 0#8 ++ [0x80#8]

/-- SHA3 with rate `r` bytes: the state after the last block. -/
def sha3 (r : Nat) (bs : List Byte) : List (BitVec 64) :=
  let p := sha3Pad r bs
  keccakBlocks r (p.length / r) (List.replicate 25 0) p

/-- The first `n` lanes as a number, byte 0 lowest. -/
def lanesNat (a : List (BitVec 64)) (n : Nat) : Nat := (List.range n).foldr (fun i acc => (kl a i).toNat + 2 ^ 64 * acc) 0

/-- SHA3-256. -/
def sha3_256 (bs : List Byte) : BitVec 256 := BitVec.ofNat 256 (lanesNat (sha3 136 bs) 4)

/-- SHA3-512. -/
def sha3_512 (bs : List Byte) : BitVec 512 := BitVec.ofNat 512 (lanesNat (sha3 72 bs) 8)

end Sys2Proof.Machine
end

