-- ==== Sys2Proof/Machine/LinkOps.lean ====
section
/-! DEFINITION. What every port does with flits: headers (R312, R313), sequence numbers and the replay buffer (R316 to R318),
acks (R319), credits (R326 to R330), the idle (R314, R386), control flits (R315, R542), injection (R343) and encryption
(R459 to R461). -/

namespace Sys2Proof

/-! ### Flits -/

/-- A flit's type: 0 idle, 1 scheduled, 2 unscheduled, 3 control (R312). -/
def Flit.kind (f : Flit) : Nat := Machine.bitsAt f.hdr.toNat 0 2
/-- Sequence number. -/
def Flit.seq (f : Flit) : Nat := Machine.bitsAt f.hdr.toNat 2 12
/-- Cumulative ack. -/
def Flit.ack (f : Flit) : Nat := Machine.bitsAt f.hdr.toNat 14 12
/-- NAK bit `i`. -/
def Flit.nak (f : Flit) (i : Nat) : Bool := f.hdr.getLsbD (26 + i)
/-- Credit increment of virtual channel `v`. -/
def Flit.credit (f : Flit) (v : Nat) : Nat := Machine.bitsAt f.hdr.toNat (32 + 6 * v) 6
/-- Bits of the type-dependent part of the header (R313, R349). -/
def Flit.field (f : Flit) (lo w : Nat) : Nat := Machine.bitsAt f.hdr.toNat lo w

/-- The 256 payload bytes as a number, byte 0 lowest. -/
def Flit.payload (f : Flit) : BitVec 2048 := f.q3 ++ f.q2 ++ f.q1 ++ f.q0

/-- Flits of the packet whose head a flit is (R349). -/
def Flit.packetFlits (f : Flit) : Nat := if f.hdr.getLsbD 87 then 2 else 1

/-- The payload bytes of a flit. -/
def Flit.bytes (f : Flit) : List Byte := Machine.bytesOfNat 256 f.payload.toNat

/-- The 272 bytes of a flit's content (R310): the header in bytes 15:0, the payload above. -/
def Flit.content (f : Flit) : BitVec 2176 := f.payload ++ f.hdr

/-- The parity of 34 bytes of content (R310): bit j is the XOR of the content bits b with b mod 16 = j. -/
def segParity (c : BitVec 272) : BitVec 16 := (List.range 17).foldl (fun p k => p ^^^ c.extractLsb' (16 * k) 16) 0

/-- A lane segment (R310): 34 bytes of content in bytes 33:0, their parity in bytes 35:34. -/
def segOf (c : BitVec 272) : BitVec 288 := segParity c ++ c

/-- Whether a segment fails parity (R311). -/
def segBad (g : BitVec 288) : Bool := decide (segParity (g.extractLsb' 0 272) ≠ g.extractLsb' 272 16)

/-- The 288 bytes of a flit (R310): segment i, carried on lane i, holds content bytes 34i + 33 : 34i. -/
def Flit.raw (f : Flit) : BitVec 2304 :=
  let g := fun i => segOf (f.content.extractLsb' (272 * i) 272)
  g 7 ++ g 6 ++ g 5 ++ g 4 ++ g 3 ++ g 2 ++ g 1 ++ g 0

/-- Segment i of 288 bytes. -/
def rawSeg (r : BitVec 2304) (i : Nat) : BitVec 288 := r.extractLsb' (288 * i) 288

/-- The flit whose content 288 bytes carry (R310). -/
def rawFlit (r : BitVec 2304) : Flit :=
  let g := fun i => (rawSeg r i).extractLsb' 0 272
  let c := g 7 ++ g 6 ++ g 5 ++ g 4 ++ g 3 ++ g 2 ++ g 1 ++ g 0
  { hdr := c.extractLsb' 0 128, q0 := c.extractLsb' 128 512, q1 := c.extractLsb' 640 512, q2 := c.extractLsb' 1152 512,
    q3 := c.extractLsb' 1664 512 }

/-- The lane that carries segment i (R306, R310): at half width lanes 0 to 3 carry segments 0 to 3 in the even slot of a pair and segments 4
to 7 in the odd one. -/
def segLane (half : Bool) (i : Nat) : Nat := if half then i % 4 else i

/-- The lanes on which some segment of 288 bytes fails parity (R311). -/
def badLanes (half : Bool) (r : BitVec 2304) : BitVec 8 :=
  ((List.range 8).filter fun i => segBad (rawSeg r i)).foldl (fun b i => b ||| BitVec.ofNat 8 (2 ^ segLane half i)) 0

/-- Parity bit 0 of every segment on the lanes of a mask inverted (R343). -/
def flipParity (half : Bool) (lanes : BitVec 8) (r : BitVec 2304) : BitVec 2304 :=
  ((List.range 8).filter fun i => lanes.getLsbD (segLane half i)).foldl (fun r i => r ^^^ BitVec.ofNat 2304 (2 ^ (288 * i + 272))) r

/-! ### Cold training -/

/-- The wavelengths usable after steps 2 to 4 (R307): locked, with a pre-FEC symbol error ratio below 10⁻⁴, and a skew of at most 16 ns after
the earliest one (R305). -/
def Optics.usable (o : Optics) : List Nat :=
  let lit := (List.range 9).filter fun w => o.locked.getLsbD w
  let first := lit.foldl (fun m w => min m (o.skew.getD w 0)) (o.skew.getD (lit.headD 0) 0)
  lit.filter fun w => decide (o.ratio.getD w 0 < 100000000 ∧ o.skew.getD w 0 ≤ first + 160)

/-- The usable wavelengths from the lowest error ratio on, among equals from the lowest code on (R307): of several that tie for the last lane or
the spare, the spare is the highest-coded. -/
def Optics.order (o : Optics) : List Nat :=
  o.usable.foldl (fun l w =>
    (l.filter fun v => decide (o.ratio.getD v 0 ≤ o.ratio.getD w 0)) ++ [w] ++ l.filter fun v => !decide (o.ratio.getD v 0 ≤ o.ratio.getD w 0)) []

/-- How many lanes a link takes of `n` usable wavelengths (R306): 8, 4, or none. -/
def lanesFor (n : Nat) : Nat := if 8 ≤ n then 8 else if 4 ≤ n then 4 else 0

/-- The wavelengths that failed training, as LNK_LANES shows them. -/
def Optics.failed (o : Optics) : Nat := 2 ^ 9 - 1 - (o.usable.map fun w => 2 ^ w).sum

/-- The largest skew between wavelengths of a list, in 0.1 ns (R305, LNK_RTT). -/
def Optics.skewOf (o : Optics) (l : List Nat) : Nat :=
  let sk := l.map fun w => o.skew.getD w 0
  sk.foldl max 0 - sk.foldl min (sk.headD 0)

end Sys2Proof

namespace Sys2Proof.Machine

/-! ### Ports -/

/-- A link's state code (R341). -/
def State.lnk (s : State) (p : Nat) : Nat := s.getF (aLnkState p) F.lnkState_state

/-- Whether a link is half width (R306): four active lanes. -/
def State.halfWidth (s : State) (p : Nat) : Bool := decide (s.getF (aLnkState p) F.lnkState_lanes = 4)

/-- The count of 1.44 ns slots by which a port's timers run (R309): the spec does not say how it goes on over a breath boundary, and the
model counts from beat 0 (DESIGN CHOICE, log 159). -/
def State.slotNow (s : State) : Nat := s.beat.toNat * 100 / 9437184

/-- The slot of the breath that contains a beat (R271): slot s begins at T_k + 1.44 × s ns. -/
def State.slotAt (s : State) (b : Beat) : Int := (b - s.brt.start).toInt * 100 / 9437184

/-- The slot of the breath that runs now (R271). -/
def State.breathSlot (s : State) : Nat := (s.slotAt s.beat).toNat

/-- The beat at which a slot of the breath begins (R271). -/
def State.slotBeat (s : State) (slot : Nat) : Beat := s.brt.start + BitVec.ofNat 64 ((slot * 9437184 + 99) / 100)

/-- A link's round trip in slots (R309). -/
def State.rtt (s : State) (p : Nat) : Nat := s.getF (aLnkRtt p) F.lnkRtt_rtt

/-- The distance of R316: (b − a) mod 4,096. -/
def seqDist (a b : Nat) : Nat := (b + 4096 - a % 4096) % 4096

/-- A flit with a payload. -/
def flitOf (hdr : Nat) (payload : Nat) : Flit :=
  { hdr := BitVec.ofNat 128 hdr, q0 := BitVec.ofNat 512 payload, q1 := BitVec.ofNat 512 (payload / 2 ^ 512),
    q2 := BitVec.ofNat 512 (payload / 2 ^ 1024), q3 := BitVec.ofNat 512 (payload / 2 ^ 1536) }

/-! ### Link fields -/

/-- The nominal windows N_v of the credited channels (R323). -/
def nominal (v : Nat) : Nat := if v = 0 ∨ v = 3 then 80 else 24

/-- The receiver's ack: every flit up to it has been received (R312). -/
def Port.ackNow (x : Port) : Nat := (x.exp + 4095) % 4096

/-- Whether the receiver holds a flit of this sequence number. -/
def Port.holds (x : Port) (sq : Nat) : Bool := x.held.any fun f => decide (f.seq = sq % 4096)

/-- NAK bit `i` as sent (R319): flit ack + 1 + i is missing while a later flit is held,
or an idle has named it. -/
def Port.nakBit (x : Port) (i : Nat) : Bool :=
  let sq := (x.exp + i) % 4096
  !x.holds sq && (x.lost.contains sq || x.held.any fun f => let d := seqDist sq f.seq; decide (0 < d ∧ d < 2048))

/-- The link fields filled in at a transmission (R316, R327): ack, NAK bits and the pending increments, which the grant totals
count from then on (R329). -/
def Port.linkFields (x : Port) (ack : Nat) : Nat × Port :=
  let k := fun v => min (Tbl.get 0 x.pend v) 63
  let nak := ((List.range 6).map fun i => if x.nakBit i then 2 ^ i else 0).sum
  let cr := ((List.range 6).map fun v => k v * 2 ^ (6 * v)).sum
  let x1 := (List.range 6).foldl (fun x v =>
    { x with pend := Tbl.set 0 x.pend v (Tbl.get 0 x.pend v - k v),
             grant := Tbl.set 0 x.grant v ((Tbl.get 0 x.grant v + k v) % 65536) }) x
  (ack * 2 ^ 14 + nak * 2 ^ 26 + cr * 2 ^ 32, x1)

/-- Injection in the transmitting end's acks (R343): every Nth flit repeats the previous ack or sends an older one. -/
def State.injectAck (s : State) (p : Nat) (x : Port) : Nat × Bool :=
  let a := aLnkInjAck p
  let n := s.getF a F.lnkInjAck_n
  let on := s.flag (aLnkInjCtl p) F.lnkInjCtl_enable && decide (n ≠ 0) && decide ((x.injAck + 1) % n = 0)
  match s.getF a F.lnkInjAck_mode with
  | 1 => if on then (x.prevAck, true) else (x.ackNow, false)
  | 2 => if on then ((x.ackNow + 4096 - s.getF a F.lnkInjAck_k) % 4096, true) else (x.ackNow, false)
  | _ => (x.ackNow, false)

/-- Injection into the parity of a transmitted flit (R343): the lanes inverted in every Nth flit. -/
def State.injectParity (s : State) (p : Nat) (x : Port) : BitVec 8 × Bool :=
  let n := s.getF (aLnkInjParity p) F.lnkInjParity_n
  if s.flag (aLnkInjCtl p) F.lnkInjCtl_enable ∧ n ≠ 0 ∧ (x.injPar + 1) % n = 0 then
    (BitVec.ofNat 8 (s.getF (aLnkInjParity p) F.lnkInjParity_lanes), true)
  else (0, false)

/-- The payload as it leaves (R459, R461): encrypted on an encrypted direction, but for idles. -/
def Port.sealed (x : Port) (p key : Nat) (f : Flit) : BitVec 2048 :=
  if x.encTx ∧ f.kind ≠ 0 then
    -- the flit's extended sequence number lies below the next one's and has its low 12 bits
    Config.linkCipher p key x.random x.peerRand (x.eTx - 1 - seqDist f.seq (x.eTx + 4095)) f.payload
  else f.payload

/-- A flit transmitted in the present slot (R310, R316): its link fields are filled in and its segments stand on the fibre. -/
def State.transmit (s : State) (p : Nat) (f : Flit) : State :=
  let x := s.port p
  let (ack, ia) := s.injectAck p x
  let (bad, ip) := s.injectParity p x
  let (lf, x1) := x.linkFields ack
  let h := f.hdr.toNat % 2 ^ 14 + lf + f.hdr.toNat / 2 ^ 68 * 2 ^ 68
  let out := flitOf h (x.sealed p s.tier.keys f).toNat
  let x1 := { x1 with wire := some (flipParity (s.halfWidth p) bad out.raw), prevAck := ack, injAck := x.injAck + 1, injPar := x.injPar + 1,
                      sinceIdle := if f.kind = 0 then 0 else x.sinceIdle + (if s.halfWidth p then 2 else 1) }
  let s := s.setPort p x1
  if ia || ip then s.bump (aLnkInjCtl p) F.lnkInjCtl_injected ((if ia then 1 else 0) + if ip then 1 else 0) else s

/-- Whether the replay buffer has room for a new sequenced flit (R317). -/
def Port.canSend (x : Port) : Bool := decide (x.buf.length < 1024)

/-- The oldest unacked sequence number. -/
def Port.oldest (x : Port) : Nat := (x.next + 4096 - x.buf.length) % 4096

/-- A replay queued (R318): once, and in sequence order. -/
def Port.queueReplay (x : Port) (sq : Nat) : List Nat :=
  if x.replay.contains sq then x.replay
  else
    let before := fun q => decide (seqDist x.oldest q < seqDist x.oldest sq)
    x.replay.filter before ++ [sq] ++ x.replay.filter fun q => !before q

/-- A new sequenced flit sent (R316 to R318): it takes the next number, is kept until acked, and starts the timer. A buffer it
fills begins an episode of a full buffer. The first 64 flits after a training or retrain are measured for the round trip (R309). -/
def State.sendNew (s : State) (p : Nat) (f : Flit) : State :=
  let x := s.port p
  let h := f.hdr.toNat / 2 ^ 14 * 2 ^ 14 + x.next * 2 ^ 2 + f.kind
  let f := { f with hdr := BitVec.ofNat 128 h }
  let timer := match x.timer with | none => some (s.slotNow + 2 * s.rtt p) | t => t
  let x1 := { x with next := (x.next + 1) % 4096, buf := x.buf ++ [f], timer := timer, eTx := x.eTx + 1,
                      sentAt := if 0 < x.rttLeft then x.sentAt ++ [(x.next, s.slotNow)] else x.sentAt, rttLeft := x.rttLeft - 1 }
  let filled := decide (x1.buf.length = 1024) && !x.full
  let s := (s.setPort p { x1 with full := x.full || filled }).transmit p f
  if filled then s.bump (aLnkReplay p) F.lnkReplay_full 1 else s

/-- A queued replay sent (R318): the flit keeps its number, type and content. -/
def State.sendReplay (s : State) (p : Nat) : State :=
  let x := s.port p
  match x.replay with
  | [] => s
  | sq :: l =>
    let s := s.setPort p { x with replay := l }
    match x.buf.find? fun f => decide (f.seq = sq) with
    | some f => s.transmit p f
    | none => s

/-- The departure stamp of a port at its reference plane (R380, R381). -/
def State.depart (s : State) (p : Nat) : Beat :=
  s.beat + BitVec.ofNat 64 (s.getF (aTimCorr p) F.timCorr_tx * 256)

/-- The arrival stamp of a port at its reference plane (R380, R381). -/
def State.arrive (s : State) (p : Nat) : Beat :=
  s.beat - BitVec.ofNat 64 (s.getF (aTimCorr p) F.timCorr_rx * 256) - BitVec.ofNat 64 (s.getF (aTimCorr p) F.timCorr_deskew * 256)

/-- The idle flit of this slot (R314, R386): the grant totals, the increments of its own header included, and the time
exchange. -/
def State.idleFlit (s : State) (p : Nat) : Flit :=
  let x := s.port p
  let (_, x1) := x.linkFields 0
  let audit := ((List.range 6).map fun v => Tbl.get 0 x1.grant v * 2 ^ (16 * v)).sum
  let st := aTimStatus
  let depth := let d := s.getF st F.timStatus_depth; if d = 0x3F then 0xFF else d
  let flags := s.getF st F.timStatus_locked + 2 * s.getF st F.timStatus_holdover + 4 * s.getF st F.timStatus_root
  flitOf (x.next * 4) (audit + (s.depart p).toNat * 2 ^ 128 + x.idleDep.toNat * 2 ^ 192 + x.idleArr.toNat * 2 ^ 256
    + s.getF st F.timStatus_rootIndex * 2 ^ 320 + depth * 2 ^ 336 + flags * 2 ^ 344)

/-- An idle sent. -/
def State.sendIdle (s : State) (p : Nat) : State := s.transmit p (s.idleFlit p)

/-! ### Control flits -/

/-- Whether two waiting messages share a routing word (R542): destination, broadcast and local together. -/
def Ctl.sameRoute (a b : Ctl) : Bool := decide (a.dest = b.dest ∧ a.bcast = b.bcast ∧ a.local_ = b.local_)

/-- The broadcast kinds but 0x27 (R482). Each carries its originator in bits 21:8 (R209, R297, R370, R425). -/
def bcastKinds : List Nat := [0x02, 0x03, 0x04, 0x06, 0x22, 0x23, 0x24, 0x28, 0x29, 0x72]

/-- A control message of a flit with routing word `r` (R315). A flit may hold messages of several originators (R542), and its source field
one of them; the trees of R481 need a broadcast's own one, which the message names (DEDUCED, log 62). -/
def ctlOf (r : Nat) (m : Msg) : Ctl :=
  { dest := bitsAt r 0 14, bcast := r.testBit 14, local_ := r.testBit 15, msg := m,
    source := if bcastKinds.contains (msgBits m 0 8) ∨ msgBits m 0 8 = 0x27 then msgBits m 8 14 else bitsAt r 16 14 }

/-- A control flit of messages with one routing word (R315). -/
def ctlFlit (c : Ctl) (msgs : List Msg) : Flit :=
  let word := c.dest + (if c.bcast then 2 ^ 14 else 0) + (if c.local_ then 2 ^ 15 else 0) + c.source * 2 ^ 16 + msgs.length * 2 ^ 30
  flitOf 3 (word + (msgs.zipIdx.map fun m => m.1.toNat * 2 ^ (128 * (m.2 + 1))).sum)

/-- The messages a port may send: on a fenced port only link messages (R346). -/
def State.ctlWaiting (s : State) (p : Nat) : List Ctl :=
  (Tbl.get [] s.ctl.queue p).filter fun c => c.local_ || !s.fenced p

/-- The next control flit of a port sent (R542): the oldest message and those with its routing word, up to 15. -/
def State.sendCtl (s : State) (p : Nat) : State :=
  match s.ctlWaiting p with
  | [] => s
  | c :: l =>
    let same := (c :: l.filter c.sameRoute).take 15
    let rest := same.foldl (fun q m => q.erase m) (Tbl.get [] s.ctl.queue p)
    let s := { s with ctl := { s.ctl with queue := Tbl.set [] s.ctl.queue p rest } }
    s.sendNew p (ctlFlit c (same.map Ctl.msg))

/-! ### Unscheduled flits -/

/-- The channel whose flit a port sends next: the first one with a flit and a credit (R326); a response never waits for a request (R324), and
among the channels of one kind the lower number goes first (log 32). -/
def State.vcReady (s : State) (p : Nat) : Option Nat :=
  let x := s.port p
  [3, 4, 5, 0, 1, 2].find? fun v => !(Tbl.get [] x.out v).isEmpty && decide (0 < Tbl.get 0 x.credit v)

/-- Reorder injection (R343): every Nth unscheduled packet is held back H slots before it takes a sequence number. -/
def State.reorder (s : State) (p : Nat) : Bool :=
  let n := s.getF (aLnkInjReorder p) F.lnkInjReorder_n
  s.flag (aLnkInjCtl p) F.lnkInjCtl_enable && decide (n ≠ 0) && decide (((s.port p).injOut + 1) % n = 0)

/-- An unscheduled flit sent on a channel, one credit used (R326). -/
def State.sendVcFlit (s : State) (p v : Nat) : State :=
  let x := s.port p
  match Tbl.get [] x.out v with
  | [] => s
  | f :: l =>
    (s.setPort p { x with out := Tbl.set [] x.out v l, credit := Tbl.set 0 x.credit v (Tbl.get 0 x.credit v - 1),
                          injOut := x.injOut + (if f.hdr.getLsbD 86 then 1 else 0) }).sendNew p f

/-- A whole packet held back by reorder injection, its credits used (R343). -/
def State.holdBack (s : State) (p v : Nat) (f : Flit) : State :=
  let x := s.port p
  let k := f.packetFlits
  let q := Tbl.get [] x.out v
  let hold := s.getF (aLnkInjReorder p) F.lnkInjReorder_hold
  (s.setPort p { x with out := Tbl.set [] x.out v (q.drop k), credit := Tbl.set 0 x.credit v (Tbl.get 0 x.credit v - k),
                        injOut := x.injOut + 1,
                        heldOut := x.heldOut ++ (q.take k).map fun f => { vc := v, flit := f, left := hold } }).bump (aLnkInjCtl p)
    F.lnkInjCtl_injected 1

/-- Whether the packet at the head of a channel's queue is to be held back: it begins there, whole and with credit. -/
def State.holdsBack (s : State) (p v : Nat) : Option Flit :=
  let x := s.port p
  match Tbl.get [] x.out v with
  | f :: l =>
    if s.reorder p && f.hdr.getLsbD 86 && decide (f.packetFlits ≤ l.length + 1 ∧ f.packetFlits ≤ Tbl.get 0 x.credit v) then some f
    else none
  | [] => none

/-- The unscheduled flit of a slot (R273, R326, R343): that of the channel given, or, when its packet is held back, that of the next
channel that has one; an idle when none has. -/
def State.sendVc (s : State) (p v : Nat) : State :=
  match s.holdsBack p v with
  | none => s.sendVcFlit p v
  | some f =>
    let s1 := s.holdBack p v f
    match s1.vcReady p with
    | some w => if (s1.holdsBack p w).isSome then s1.sendIdle p else s1.sendVcFlit p w
    | none => s1.sendIdle p

/-- One slot passes for the flits that reorder injection holds back. -/
def Port.tickHeld (x : Port) : Port := { x with heldOut := x.heldOut.map fun h => { h with left := h.left - 1 } }

/-- A held-back flit whose slots have passed; it waits while the second flit of another packet of its channel is due (R367). -/
def Port.heldReady (x : Port) : Option Held :=
  x.heldOut.find? fun h => decide (h.left = 0) && (match Tbl.get [] x.out h.vc with | f :: _ => f.hdr.getLsbD 86 | [] => true)

/-! ### Training records -/

/-- BOC_REPRO_KEY (R509). -/
def State.reproKey (s : State) : Nat :=
  let f := s.getF aBocReproKey
  f F.bocReproKey_stepping + f F.bocReproKey_arithRev * 2 ^ 16 + f F.bocReproKey_genRev * 2 ^ 28 + f F.bocReproKey_funcRev * 2 ^ 40 +
    f F.bocReproKey_errataRev * 2 ^ 52

/-- The identity certificate (R465). -/
def State.certificate (s : State) : List Byte :=
  bytesOfNat 2 1 ++ bytesOfNat 2 0 ++ bytesOfNat 8 Config.serial.toNat ++ bytesOfNat 8 (s.reproKey) ++ bytesOfNat 12 0 ++
    bytesOfNat 2592 Config.identityKey.toNat ++ bytesOfNat 7228 Config.certSignature.toNat

/-- The training record a port in cold training sends in every slot (R308): its header is zero but for the type; the record names version,
step, whether the peer's record of this step has come, and the width chosen; in step 5 the lane map chosen; serial, package and port; in step
6 random link value and certificate digest; in step 7 the stamps. -/
def State.trainingFlit (s : State) (p : Nat) : Flit :=
  let x := s.port p
  let st := x.trainStep
  let on := fun (k v : Nat) => if st = k then v else 0
  flitOf 3 (2 ^ 15 + s.self * 2 ^ 16 + 2 ^ 128 + st * 2 ^ 144 + (if x.trainGot then 2 ^ 152 else 0) +
    (if s.getF (aLnkState p) F.lnkState_lanes = 4 then 2 ^ 153 else 0) + on 5 (s.getF (aLnkLanes p) F.lnkLanes_map) * 2 ^ 160 +
    Config.serial.toNat * 2 ^ 192 + (if s.manifest.isSome then s.self else 2 ^ 15) * 2 ^ 256 + p * 2 ^ 272 + on 6 x.random.toNat * 2 ^ 288 +
    on 6 (sha3_256 s.certificate).toNat * 2 ^ 416 + on 7 (s.depart p).toNat * 2 ^ 672 + on 7 x.echo.toNat * 2 ^ 736 + on 7 x.echoArr.toNat * 2 ^ 800)

end Sys2Proof.Machine
end

