-- ==== Sys2Proof/Machine/Fabric.lean ====
section
/-! DEFINITION. Scheduled traffic (R271 to R297): slot claims, launch queues, late flits, groups, presentation, relays and
landings, port faults and patch orders. -/

namespace Sys2Proof.Machine

/-! ### Tables -/

/-- The nonzero words of the control space from `lo` to below `hi`. -/
def State.wordsIn (s : State) (lo hi : Nat) : List Nat :=
  s.regs.filterMap fun p => if 64 * lo ≤ p.1 ∧ p.1 < 64 * hi then some p.2 else none

/-- First slot of a slot-table entry (R276). -/
def slStart (e : Nat) : Nat := bitsAt e 0 23
/-- Launch queue of an entry. -/
def slQueue (e : Nat) : Nat := bitsAt e 23 6
/-- Whether an entry claims slots. -/
def slValid (e : Nat) : Bool := e.testBit 29
/-- Count minus 1 of an entry. -/
def slCountM1 (e : Nat) : Nat := bitsAt e 32 20
/-- Stride of an entry. -/
def slStride (e : Nat) : Nat := bitsAt e 52 12

/-- Whether an entry claims a slot (R276): start + stride × i for i up to count − 1. -/
def slClaims (e slot : Nat) : Bool :=
  slValid e && decide (slStart e ≤ slot) && decide ((slot - slStart e) % slStride e = 0) &&
    decide ((slot - slStart e) / slStride e ≤ slCountM1 e) && decide (slStride e ≠ 0 ∨ slot = slStart e)

/-! ### Patches in force -/

/-- Where a patch's records lie: the entry of its link in the patch directory (R293), or for a substitution (key
2^28 + lost + spare × 2^14) that of the substitution directory (R431). -/
def State.patchDir (s : State) (key : Nat) : Option Nat :=
  let subst := decide (2 ^ 28 ≤ key)
  let base := 32 * (if subst then s.getF aFltSubstDir F.fltSubstDir_base else s.getF aCrpPatchDir F.crpPatchDir_base)
  let count := if subst then s.getF aFltSubstDir F.fltSubstDir_count else s.getF aCrpPatchDir F.crpPatchDir_count
  ((List.range count).map fun i => s.readNat (base + 16 * i) 16).find? fun e =>
    if subst then decide (bitsAt e 0 28 = key - 2 ^ 28) else decide (bitsAt e 0 19 = key)

/-- Every record of a patch (R293, R294). -/
def State.patchAll (s : State) (key : Nat) : List Nat :=
  match s.patchDir key with
  | some e => (List.range (bitsAt e 106 16)).map fun i => s.readNat (bitsAt e 64 42 + 32 * i) 32
  | none => []

/-- The records of a patch that this package applies (R294). -/
def State.patchRecords (s : State) (key : Nat) : List Nat := (s.patchAll key).filter fun r => r.testBit 18 || decide (bitsAt r 4 14 = s.self)

/-- The package's patches are active no longer. -/
def State.dropPatches (s : State) : State := { s.setF aCrpFabric F.crpFabric_patches 0 with fab := { s.fab with patches := [], applied := [] } }

/-- A patch entered as active from a breath on, and counted (R296, R301). -/
def State.activate (s : State) (key breath : Nat) : State :=
  let s := { s with fab := { s.fab with patches := s.fab.patches ++ [(key, breath)] } }
  (s.bump aCrpFabric F.crpFabric_patches 1).bump aCrpPatchLog F.crpPatchLog_activations 1

/-- The lead orders a link's patch, if the image has one, from the next breath on (R296, R297). -/
def State.orderPatch (s : State) (key : Nat) : State :=
  if (s.patchDir key).isSome then s.sendAll (s.msgOf 0x03 [(32, s.brt.next), (96, key)]) else s

/-- The ports whose links a patch record uses for scheduled flits (R294): that of a slot entry, a binding or a put binding, and those a
descriptor arrives on and is relayed to. -/
def recordPorts (r : Nat) : List Nat :=
  let c := r / 2 ^ 128
  match bitsAt r 0 4 with
  | 1 => [bitsAt r 36 6]
  | 2 => if bitsAt c 0 3 = 0 then [] else if bitsAt c 0 3 = 1 then [bitsAt c 3 6] else [bitsAt c 3 6, bitsAt c 9 6]
  | 3 => [bitsAt c 0 6]
  | 4 => [bitsAt r 36 6]
  | _ => []

/-- Whether a patch of the running breath names a port's link (R300). -/
def State.patchNames (s : State) (p : Nat) : Bool :=
  s.fab.patches.any fun k => decide (k.2 < s.brt.next) && (s.patchRecords k.1).any fun r => (recordPorts r).contains p

/-- Whether a port's scheduled service meets its arrival delay (R281): P ≤ A − 22, in sixteenths of a slot. -/
def State.delayFits (s : State) (p : Nat) : Bool :=
  decide (s.getF (aCrpDelay p) F.crpDelay_physical + 22 * 16 ≤ s.getF (aCrpConfig p) F.crpConfig_arrival * 16)

/-- Whether a link lies across a bypass or has fewer than 8 active wavelengths (R300, R483). -/
def State.lesserLink (s : State) (p : Nat) : Bool := decide (s.getF (aBocDisc p) F.bocDisc_class = 4) || s.halfWidth p

/-- Whether a port carries scheduled traffic: not when it is out of plan (R281) or has trained again in the job (R340), and a link across a
bypass or at half width only under a patch that names it, at an arrival delay that fits (R300). In shadow mode nothing is sent, and every claim
counts (R415). -/
def State.carriesSched (s : State) (p : Nat) : Bool :=
  let sched := s.getF (aCrpConfig p) F.crpConfig_sched
  s.rcv.folds || decide (sched ≠ 2 ∧ sched ≠ 3) && (!s.lesserLink p || (s.patchNames p && s.delayFits p))

/-- The entries of a port's active slot table; none count on a link that carries scheduled traffic only under a patch (R300). -/
def State.slotEntries (s : State) (p : Nat) : List Nat :=
  let b := s.getF (aCrpConfig p) F.crpConfig_slotBank
  if s.lesserLink p && !s.rcv.folds then [] else s.wordsIn (aSlotTable p b 0) (aSlotTable p b 65536)

/-- The entries of a port's patch list (R295). -/
def State.patchEntries (s : State) (p : Nat) : List Nat := s.wordsIn (aPatchList p 0) (aPatchList p 4096)

/-- The queues that claim a slot of a port; of a port that carries no scheduled traffic, none. -/
def State.claims (s : State) (p slot : Nat) : List Nat :=
  if s.carriesSched p then ((s.slotEntries p ++ s.patchEntries p).filter fun e => slClaims e slot).map slQueue else []

/-- Whether a slot is reserved for detours at the image's share (R272). -/
def State.isDetour (s : State) (slot : Nat) : Bool :=
  match s.getF aCrpFabric F.crpFabric_detourShare with
  | 1 => decide (slot % 16 = 3)
  | 2 => decide (slot % 8 = 3)
  | _ => false

/-- The last slot a queue claims in the breath (R292). -/
def State.lastClaim (s : State) (p q : Nat) : Nat :=
  ((s.slotEntries p ++ s.patchEntries p).filter fun e => slValid e && decide (slQueue e = q)).foldl
    (fun m e => max m (slStart e + slStride e * slCountM1 e)) 0

/-- A port fault (R291): recorded, the breath aborted, and the fault reported to the lead. -/
def State.portFault (s : State) (p code slot : Nat) : State :=
  let a := aCrpFault p
  let s := if s.flag a F.crpFault_valid then s
    else s.setFs a [(F.crpFault_code, code), (F.crpFault_slot, slot), (F.crpFault_valid, 1)]
  { s with brt := { s.brt with aborted := true } }.faultReport 5 []

/-! ### Launch queues -/

/-- A launch queue. -/
def State.lq (s : State) (p q : Nat) : LaunchQ := Tbl.get LaunchQ.reset (s.port p).queues q

/-- A launch queue replaced; CRP_LQ_STATE shows how many flits it holds. -/
def State.setLq (s : State) (p q : Nat) (l : LaunchQ) : State :=
  let x := s.port p
  (s.setPort p { x with queues := Tbl.set LaunchQ.reset x.queues q l }).setF (aCrpLqState p q) F.crpLqState_occupancy
    l.flits.length

/-- The binding of a queue in the active bank, if it is bound (R277). -/
def State.binding (s : State) (p q : Nat) : Option Nat :=
  let a := aCrpLqBind p (s.getF (aCrpConfig p) F.crpConfig_lqBank) q
  if s.flag a F.crpLqBind_valid then some (s.getF a F.crpLqBind_stream) else none

/-- A queue's owed count (R277). -/
def State.owed (s : State) (p q : Nat) : Nat := s.getF (aCrpLqState p q) F.crpLqState_owed

/-- The flit a queue can launch: its head, with the stream it took when it entered, or the binding in force when its queue
was not bound then (notes/assumptions/31.md). -/
def State.lqHead (s : State) (p q : Nat) : Option (QFlit × Nat) :=
  match (s.lq p q).flits with
  | [] => none
  | f :: _ =>
    match f.stream with
    | some k => some (f, k)
    | none => (s.binding p q).map fun k => (f, k)

/-- Whether a queue had its head flit at the fetch point of a slot (R277): 8 slots before it, and T_k itself for slots 0 to 7. -/
def State.fetched (s : State) (p q slot : Nat) : Bool :=
  match s.lqHead p q with
  | some (f, _) => beatReached (s.slotBeat (slot - 8)) f.since
  | none => false

/-- LAUNCH_QUEUE_ENTRY: the oldest completed flit of an island enters its launch queue, if that has room, with the stream id of
the binding then in force (R277). -/
def execLaunchQueueEntry (entry : Crossed) (s : State) : Out :=
  let ⟨n, parityBad⟩ := entry
  if n < s.numIslands then
    let x := s.island n
    match x.launchOut with
    | [] => .next s
    | f :: l =>
      let q := s.lq f.port f.queue
      if 4 ≤ q.flits.length then .next s
      else
        let e : QFlit := { since := s.beat, stream := s.binding f.port f.queue, prov := f.prov, q0 := f.q0, q1 := f.q1, q2 := f.q2, q3 := f.q3 }
        .next (((s.setIsland n { x with launchOut := l }).setLq f.port f.queue { q with flits := q.flits ++ [e] }).crossingParity n 18 parityBad)
  else .fault .absentUnit

/-- A claim that finds nothing to launch is owed (R277); `last` when it is the queue's last of the breath. -/
def State.owe (s : State) (p q : Nat) (last : Bool) : State :=
  let s := s.bump (aCrpLqState p q) F.crpLqState_owed 1
  if last then
    let l := s.lq p q
    s.setLq p q { l with owedEnds := l.owedEnds ++ [s.owed p q] }
  else s

/-- The 256 payload bytes of a queued flit. -/
def QFlit.payload (f : QFlit) : BitVec 2048 := f.q3 ++ f.q2 ++ f.q1 ++ f.q0

/-- A scheduled flit's own header bits (R313). -/
def schedHeader (stream slot : Nat) (late : Bool) (prov : BitVec 2) (gend : Bool) (check : BitVec 32) : Nat :=
  1 + stream * 2 ^ 68 + slot % 4096 * 2 ^ 80 + (if late then 2 ^ 92 else 0) + prov.toNat * 2 ^ 93 +
    (if gend then 2 ^ 95 + check.toNat * 2 ^ 96 else 0)

/-- A launched flit counted into the outbound digest of its tag's step (R416). -/
def State.digestLaunch (s : State) (stream : Nat) (prov : BitVec 2) (payload : BitVec 2048) : State :=
  let t := prov.toNat
  let k := Tbl.get 0 s.fab.launches stream
  let s := { s with fab := { s.fab with launches := Tbl.set 0 s.fab.launches stream (k + 1) } }
  if t = 0 ∨ s.getF (aFltTag t) F.fltTag_state ≠ 1 then s
  else
    let h := sha3_256 (bytesOfNat 2 stream ++ bytesOfNat 4 k ++ bytesOfNat 8 (s.getF (aFltTag t) F.fltTag_step) ++
      bytesOfNat 256 payload.toNat)
    { s with fab := { s.fab with digests := Tbl.set 0 s.fab.digests t (Tbl.get 0 s.fab.digests t + h) } }

/-- The head flit of a queue launched in a slot (R277, R278, R292): on time, or late with the owed count one lower; it closes its
group when it is the sixteenth or settles the queue's last claim. `lastOwn` says the slot is the queue's own last claim; when it carries a
late flit and claims are still owed, the flit that settles the last of those closes the group. In shadow mode it goes into the outbound digest
and is not sent (R415). -/
def State.launchHead (s : State) (p q slot : Nat) (late lastOwn : Bool) : State :=
  match s.lqHead p q with
  | none => s
  | some (f, stream) =>
    let l := s.lq p q
    let s := if late then (s.setF (aCrpLqState p q) F.crpLqState_owed (s.owed p q - 1)).bump (aCrpLate p) F.crpLate_launches 1 else s
    let ends := if late then l.owedEnds.map (· - 1) else l.owedEnds
    let ends := if lastOwn && decide (s.owed p q ≠ 0) then ends ++ [s.owed p q] else ends
    let closes := ends.contains 0 || (lastOwn && decide (s.owed p q = 0)) || decide (l.group = 15)
    let crc := crcBytes l.crc (bytesOfNat 256 f.payload.toNat)
    let l1 : LaunchQ := { flits := l.flits.tail, owedEnds := ends.filter (· ≠ 0), group := if closes then 0 else l.group + 1,
                          crc := if closes then crcInit else crc }
    let s := (s.setLq p q l1).wrapAdd (aCrpLqState p q) F.crpLqState_launched 1
    let s := s.digestLaunch stream f.prov f.payload
    if s.rcv.folds then s else s.sendNew p (flitOf (schedHeader stream slot late f.prov closes (~~~crc)) f.payload.toNat)

/-! ### Relays -/

/-- A relayed flit leaves (R287): with its late flag as given, in this slot. -/
def State.sendRelay (s : State) (p slot : Nat) (r : Relay) (late : Bool) : State :=
  let h := r.flit.hdr.toNat
  let h1 := 1 + bitsAt h 68 12 * 2 ^ 68 + slot % 4096 * 2 ^ 80 + (if late then 2 ^ 92 else 0) + h / 2 ^ 93 * 2 ^ 93
  let x := s.port p
  let s := s.setPort p { x with relays := x.relays.erase r }
  let s := if late then s.bump (aCrpLate p) F.crpLate_relays 1 else s
  s.sendNew p (flitOf h1 r.flit.payload.toNat)

/-- The slot in which a port's flit starts: on a half-width link the even slot of its pair (R306). -/
def State.evenSlot (s : State) (p slot : Nat) : Nat := if s.halfWidth p then slot / 2 * 2 else slot

/-- The slot that claims and reservations name: on a half-width link the odd slot of the pair that starts in `slot` (R306). -/
def State.oddSlot (s : State) (p slot : Nat) : Nat := if s.halfWidth p then slot / 2 * 2 + 1 else slot

/-- The relays of a port due in a slot, or in the pair of slots that starts in it (R287, R306). -/
def State.relaysDue (s : State) (p slot : Nat) : List Relay :=
  (s.port p).relays.filter fun r => !r.late && decide (s.evenSlot p r.due = slot)

/-- A relay that misses its slot is late from then on (R287, R317, R335). -/
def State.lateRelay (s : State) (p : Nat) (r : Relay) : State :=
  let x := s.port p
  s.setPort p { x with relays := x.relays.map fun y => if y = r then { y with late := true } else y }

/-! ### Timed launches -/

/-- Whether entry `e` of a port's timed launch queue is armed (R393); a fenced port sends link messages only (R346). -/
def State.tlqArmed (s : State) (p e : Nat) : Bool :=
  s.flag (aTimTlqCtl p e) F.timTlqCtl_arm && (s.flag (aTimTlqCtl p e) F.timTlqCtl_local || !s.fenced p)

/-- The launch beat of a timed entry. -/
def State.tlqBeat (s : State) (p e : Nat) : Beat := BitVec.ofNat 64 (s.getF (aTimTlqBeat p e) F.timTlqBeat_value)

/-- Whether an armed entry goes before another: the earlier beat, and among equal beats the lower entry (R393). -/
def State.tlqBefore (s : State) (p e f : Nat) : Bool :=
  decide ((s.tlqBeat p e - s.tlqBeat p f).toInt < 0) || (decide (s.tlqBeat p e = s.tlqBeat p f) && decide (e < f))

/-- Whether an entry is the first of a port's armed ones. -/
def State.tlqFirst (s : State) (p e : Nat) : Bool :=
  s.tlqArmed p e && (List.range 4).all fun f => !s.tlqArmed p f || decide (f = e) || !s.tlqBefore p f e

/-- The armed entry that the next control slot carries (R393): the first one whose beat has been reached. -/
def State.tlqNext (s : State) (p : Nat) : Option Nat :=
  (List.range 4).find? fun e => s.tlqFirst p e && beatReached s.beat (s.tlqBeat p e)

/-- An armed entry launched (R393): a control flit with its message alone; the entry disarms, and says how many slots late it
left. -/
def State.timedSend (s : State) (p e : Nat) : State :=
  let a := aTimTlqCtl p e
  let c : Ctl := { dest := s.getF a F.timTlqCtl_dest, bcast := s.flag a F.timTlqCtl_bcast, local_ := s.flag a F.timTlqCtl_local,
                   source := s.self,
                   msg := BitVec.ofNat 128 (s.getF (aTimTlqMsg0 p e) F.timTlqMsg0_value + s.getF (aTimTlqMsg1 p e) F.timTlqMsg1_value * 2 ^ 64) }
  let late := (s.slotAt s.beat - s.slotAt (s.tlqBeat p e)).toNat
  let s := s.setFs a [(F.timTlqCtl_arm, 0), (F.timTlqCtl_sent, 1), (F.timTlqCtl_lateSlots, min late 4095)]
  s.sendNew p (ctlFlit c [c.msg])

/-! ### Slots -/

/-- The launch queue whose late head flit a free slot carries: the lowest-numbered one (log 32). -/
def State.lateQueue (s : State) (p : Nat) : Option Nat :=
  if s.brt.aborted || !s.carriesSched p then none
  else (List.range 64).find? fun q => decide (0 < s.owed p q) && (s.lqHead p q).isSome

/-- The oldest late relay of a port, while it may leave (R287, R426). -/
def State.lateRelayOf (s : State) (p : Nat) : Option Relay :=
  if s.brt.aborted || !s.carriesSched p then none else (s.port p).relays.find? fun r => r.late

/-- What a slot of a port carries: nothing (it has been used, or the port sends no flits); a training record; an idle; a slot conflict, which
carries nothing; a claim's flit of a queue, late or not, in the queue's last claim or not; a relay, late or not; a replay; a late launch; a
timed control message; waiting control messages; a packet flit held back by injection; an unscheduled flit. -/
inductive SlotUse where
  | nothing
  | training
  | idle
  | conflict
  | claim (q : Nat) (late last : Bool)
  | relay (r : Relay) (late : Bool)
  | replay
  | lateHead (q : Nat)
  | timed (e : Nat)
  | ctl
  | held (h : Held)
  | vc (v : Nat)
deriving DecidableEq, Repr

/-- What a free slot carries (R273): a replay, a late launch or relay, a control flit, of which timed ones go first (R393), an
unscheduled flit, or an idle; a retry slot without a replay carries an idle when none has left for 1,024 slots (R331), and a full replay
buffer lets nothing new leave (R317). -/
def State.freeUse (s : State) (p slot : Nat) : SlotUse :=
  let x := s.port p
  if !x.replay.isEmpty then .replay
  else if s.oddSlot p slot % 32 = 31 ∧ 1024 ≤ x.sinceIdle then .idle
  else if !x.canSend then .idle
  else
    match s.lateQueue p, s.lateRelayOf p, s.tlqNext p with
    | some q, _, _ => .lateHead q
    | none, some r, _ => .relay r true
    | none, none, some e => .timed e
    | none, none, none =>
      if !(s.ctlWaiting p).isEmpty then .ctl
      else if s.fenced p then .idle
      else
        match x.heldReady, s.vcReady p with
        | some h, _ => .held h
        | none, some v => .vc v
        | none, none => .idle

/-- Whether a port sends flits (R341): up, not quiet. -/
def State.sending (s : State) (p : Nat) : Bool := decide (2 ≤ s.lnk p ∧ s.lnk p ≤ 4)

/-- What a port's slot carries that no claim and no due relay takes: by the state of its link (R308, R341), or what a free slot carries. -/
def State.restUse (s : State) (p slot : Nat) : SlotUse :=
  if s.lnk p = 6 then .idle
  else if s.lnk p = 1 ∧ 5 ≤ (s.port p).trainStep ∧ (s.port p).trainStep ≤ 7 then .training
  else if s.sending p then s.freeUse p slot
  else .nothing

/-- Whether some claim of a slot is in conflict (R291): two claims, a claim and a relay, two relays, a patch entry outside the detour slots, or
a patch entry's claim on a half-width link that is not the odd slot of a pair. -/
def State.slotConflict (s : State) (p slot claimSlot : Nat) : Bool :=
  decide (1 < (s.claims p claimSlot).length + (s.relaysDue p slot).length) ||
  ((s.patchEntries p).any fun e => slClaims e claimSlot && !s.isDetour claimSlot) ||
  (s.halfWidth p && ((s.patchEntries p).any fun e => slClaims e slot))

/-- The plan of a port's slot (R273, R277, R278, R287): what it carries, and the port after its claim or relay has been settled. A claim whose
queue had no flit at the fetch point is owed; so is one that finds the replay buffer full, which is counted (R277), and one on a link that
sends no flits (R335). A due relay that cannot leave is late from then on. -/
def State.slotPlan (s : State) (p slot0 : Nat) : State × SlotUse :=
  let slot := s.evenSlot p slot0
  let claimSlot := s.oddSlot p slot0
  let x := s.port p
  if x.used = some slot then (s, .nothing)
  else
    let s1 := s.setPort p { x with used := some slot, heldOut := x.tickHeld.heldOut }
    let runs := s.brt.running && !s.brt.aborted
    let cl := if runs then s1.claims p claimSlot else []
    let due := if runs then s1.relaysDue p slot else []
    let rest := fun (t : State) => (t, t.restUse p slot)
    if runs ∧ s1.slotConflict p slot claimSlot then (s1, .conflict)
    else
      match cl, due with
      | q :: _, _ =>
        let last := decide (claimSlot = s.lastClaim p q)
        if !s1.fetched p q slot || !(s1.sending p || s1.rcv.folds) then rest (s1.owe p q last)
        else if !x.canSend && !s1.rcv.folds then rest ((s1.owe p q last).bump (aCrpLate p) F.crpLate_held 1)
        else (s1, .claim q (decide (0 < s1.owed p q)) last)
      | [], r :: _ => if s1.sending p && s1.carriesSched p && x.canSend then (s1, .relay r false) else rest (s1.lateRelay p r)
      | [], [] => rest s1

/-- A launch in a slot; in shadow mode, in which the flit is not sent, the slot carries an idle (R415, log 166). -/
def State.carryHead (s : State) (p q slot : Nat) (late last : Bool) : State :=
  let t := s.launchHead p q slot late last
  if t.rcv.folds && t.sending p then t.sendIdle p else t

/-- A port's fibre carries what its slot is planned to carry. -/
def State.carry (s : State) (p slot : Nat) : SlotUse → State
  | .nothing => s
  | .training => s.setPort p { s.port p with wire := some (s.trainingFlit p).raw }
  | .idle => s.sendIdle p
  | .conflict => s.portFault p 1 slot
  | .claim q late last => s.carryHead p q slot late last
  | .relay r late => s.sendRelay p slot r late
  | .replay => s.sendReplay p
  | .lateHead q => s.carryHead p q slot true false
  | .timed e => s.timedSend p e
  | .ctl => s.sendCtl p
  | .held h => (s.setPort p { s.port p with heldOut := (s.port p).heldOut.erase h }).sendNew p h.flit
  | .vc v => s.sendVc p v

/-- A port's slot (R273). -/
def State.slotLaunch (s : State) (p slot : Nat) : State :=
  let (t, u) := s.slotPlan p slot
  t.carry p (s.evenSlot p slot) u

/-- A port that exists. -/
def hasPort (p : Nat) : Bool := decide (p < numPorts)

/-- SLOT_LAUNCH: a port's slot (R277). -/
def execSlotLaunch (port slot : Nat) (s : State) : Out :=
  if hasPort port then .next (s.slotLaunch port slot) else .fault .absentUnit

/-- TIMED_LAUNCH: the armed timed entry whose beat has been reached leaves in a slot that R273 gives to a control flit (R393); the slot's claim, if
it has one, is settled as in every slot. In any other slot nothing happens. -/
def execTimedLaunch (port entry slot : Nat) (s : State) : Out :=
  if port < numPorts ∧ entry < 4 then
    match (s.slotPlan port slot).2 with
    | .timed e => if e = entry then .next (s.slotLaunch port slot) else .next s
    | _ => .next s
  else .fault .absentUnit

/-- RELAY_LAUNCH: the relay due in the slot leaves, or a late one where R273 gives it the slot (R287); a due relay in conflict raises the port
fault (R291). In any other slot nothing happens. -/
def execRelayLaunch (port slot : Nat) (s : State) : Out :=
  if hasPort port then
    match (s.slotPlan port slot).2 with
    | .relay _ _ => .next (s.slotLaunch port slot)
    | .conflict => if (s.relaysDue port (s.evenSlot port slot)).isEmpty then .next s else .next (s.slotLaunch port slot)
    | _ => .next s
  else .fault .absentUnit

/-! ### Presentation and landing -/

/-- A stream's descriptor in the active bank (R284). -/
def State.streamDesc (s : State) (stream : Nat) : BitVec 128 :=
  let b := s.getF aCrpFabric F.crpFabric_streamBank
  BitVec.ofNat 128 (s.getF (aStreamTable b stream 0) F.streamTable_word + s.getF (aStreamTable b stream 1) F.streamTable_word * 2 ^ 64)

/-- Field of a descriptor. -/
def sd (d : BitVec 128) (lo w : Nat) : Nat := bitsAt d.toNat lo w

/-- How many slots the presentation slot of a released flit lies before `slot`, modulo 4,096 (R280, R292): it left its last port in the slot its
tag names, and is presented A slots after that one. -/
def State.sinceDue (s : State) (p slot : Nat) (f : Flit) : Nat :=
  (slot % 4096 + 8192 - f.field 80 12 - s.getF (aCrpConfig p) F.crpConfig_arrival) % 4096

/-- Whether a released flit waits for its presentation slot (R280, R281): it is not flagged late, and that slot lies ahead. -/
def State.waitsSlot (s : State) (p slot : Nat) (f : Flit) : Bool := !f.hdr.getLsbD 92 && decide (2048 ≤ s.sinceDue p slot f)

/-- Whether a flit is presented late (R283, R287): it is flagged, or its presentation slot has passed. -/
def State.lateAt (s : State) (p slot : Nat) (f : Flit) : Bool := f.hdr.getLsbD 92 || decide (s.sinceDue p slot f ≠ 0)

/-- A presented flit goes to the landing stage (R289), or waits before it while that holds 64 flits. -/
def Port.toStage (x : Port) (g : Stage64) : Port :=
  if x.stage.length < 64 ∧ x.blocked.isEmpty then { x with stage := x.stage ++ [g] } else { x with blocked := x.blocked ++ [g] }

/-- The oldest flit of the landing stage has left it; the oldest one that waits takes its place. -/
def Port.unstage (x : Port) : Port := { x with stage := x.stage.tail ++ x.blocked.take 1, blocked := x.blocked.drop 1 }

/-- A late flit counted, or how long an on-time one has waited (R283, CRP_DELAY). -/
def State.countPresent (s : State) (p slot : Nat) (a : Arrived) (late : Bool) : State :=
  if late then s.bump (aCrpArrive p) F.crpArrive_late 1
  else if slot - a.slot < s.getF (aCrpDelay p) F.crpDelay_minMargin then s.setF (aCrpDelay p) F.crpDelay_minMargin (slot - a.slot)
  else s

/-- FLIT_PRESENT: the oldest released scheduled flit is presented to landing and relay in its presentation slot, or at once when it is late (R280
to R289); before that slot it waits. -/
def execFlitPresent (port slot : Nat) (s : State) : Out :=
  if hasPort port then
    let x := s.port port
    match x.arrived with
    | [] => .next s
    | a :: l =>
      let f := a.flit
      if s.waitsSlot port slot f then .next s
      else
        let stream := f.field 68 12
        let late := s.lateAt port slot f
        let s := (s.setPort port { x with arrived := l }).countPresent port slot a late
        let d := s.streamDesc stream
        let kind := sd d 0 3
        if kind = 0 ∨ 4 ≤ kind ∨ sd d 3 6 ≠ port then
          .next ((s.bump (aCrpArrive port) F.crpArrive_misrouted 1).event 4 0x31 0 0 (port + stream * 2 ^ 8))
        else
          let s := if kind % 2 = 1 then s.setPort port ((s.port port).toStage { flit := f, desc := d }) else s
          if kind = 1 then .next s
          else
            let o := sd d 9 6
            let y := s.port o
            if 64 ≤ y.relays.length then .next (s.portFault o 2 slot)
            else .next (s.setPort o { y with relays := y.relays ++ [{ flit := f, due := slot + sd d 15 6, late := late }] })
  else .fault .absentUnit

/-- A landing flit taken into its stream's group check (R292): a group end compares and starts afresh. -/
def State.groupCheck (s : State) (stream : Nat) (f : Flit) : State :=
  let c := crcBytes (Tbl.get 0 s.fab.groups stream ^^^ crcInit) f.bytes
  if f.hdr.getLsbD 95 then
    let s1 := { s with fab := { s.fab with groups := Tbl.set 0 s.fab.groups stream 0 } }
    if (~~~c).toNat = f.field 96 32 then s1
    else
      let s2 := (s1.bump aCrpStreamErr F.crpStreamErr_crcFail 1).suspect 3
      if s2.flag aCrpStreamErr F.crpStreamErr_valid then s2
      else s2.setFs aCrpStreamErr [(F.crpStreamErr_first, stream), (F.crpStreamErr_valid, 1)]
  else { s with fab := { s.fab with groups := Tbl.set 0 s.fab.groups stream (c ^^^ crcInit) } }

/-- What a landing's completion raises (R285): the stream's counter, and the signal when this is an Nth landed flit. -/
def landEndOf (stream q : Nat) (d : BitVec 128) : LandEnd :=
  { stream := stream,
    sig := if sd d 84 2 = 0 ∨ (q + 1) % (sd d 103 8 + 1) ≠ 0 then none
      else some { kind := sd d 84 2, ctr := sd d 86 8, loc := sd d 94 9, amt := (BitVec.ofNat 12 (sd d 111 12)).signExtend 32 } }

/-- FLIT_LANDING: the oldest flit of a landing stage lands (R285, R286): into four mailbox entries through the landing input,
when that has room for them, or into tile memory or staging. -/
def execFlitLanding (port : Nat) (s : State) : Out :=
  if hasPort port then
    let x := s.port port
    match x.stage with
    | [] => .next s
    | g :: _ =>
      let f := g.flit
      let d := g.desc
      let stream := f.field 68 12
      let q := s.getF (aCrpSeq stream) F.crpSeq_value
      let prov := BitVec.ofNat 2 (f.field 93 2)
      let fin := landEndOf stream q d
      let begin_ := fun (s : State) => ((s.setPort port (s.port port).unstage).wrapAdd (aCrpSeq stream) F.crpSeq_value 1).groupCheck stream f
      match sd d 21 2 with
      | 0 =>
        let n := sd d 24 9
        let unit := 60 * sd d 33 4 + sd d 37 6
        let e := sd d 43 6 + 4 * (q % (sd d 49 4 + 1))
        let y := s.island n
        if 16 < y.landings.length + 4 then .next s
        else
          let w := fun (k : Nat) (data : Line) (z : Option LandEnd) =>
            ({ unit := unit, entry := (e + k) % 64, data := data, prov := prov, fin := z } : LandWrite)
          let s := begin_ s
          .next (s.setIsland n { s.island n with
            landings := (s.island n).landings ++ [w 0 f.q0 none, w 1 f.q1 none, w 2 f.q2 none, w 3 f.q3 (some fin)] })
      | 1 =>
        let a := s.tileBase (sd d 24 9) (60 * sd d 33 4 + sd d 37 6) + sd d 43 18 + 256 * (q % (sd d 64 20 + 1))
        .next (((begin_ s).store a f.bytes prov).landEnd fin)
      | _ =>
        let a := stgBase + stgSize * sd d 24 3 + (sd d 27 26 + 256 * (q % (sd d 64 20 + 1))) % stgSize
        .next ((((begin_ s).writeBytes a f.bytes).repair a 256).landEnd fin)
  else .fault .absentUnit

end Sys2Proof.Machine
end

