-- ==== Sys2Proof/Machine/Links.lean ====
section
/-! DEFINITION. The link commands (R307 to R343): training, reception, replay timers, lane sparing, fast retrain, collisions,
link down, injection, and how a trained port is classed (R483, R484). -/

namespace Sys2Proof.Machine

/-! ### Discovery classes -/

/-- The port opposite to a port (R269). -/
def oppositePort (p : Nat) : Nat := (if p / 8 % 2 = 0 then p / 8 + 1 else p / 8 - 1) * 8 + p % 8

/-- The package one further along a direction. -/
def State.further (s : State) (dir : Nat) : Nat :=
  let a := dir / 2
  let e := s.torus a
  let h := coordOn a s.self
  withCoord a s.self (if dir % 2 = 0 then (h + 2) % e else (h + 2 * e - 2) % e)

/-- The key of a port's link when its far end is package `far` (R270): package of the + end, axis, port index. -/
def State.keyTo (s : State) (p far : Nat) : Nat := (if p / 8 % 2 = 0 then s.self else far) + p / 8 / 2 * 2 ^ 14 + p % 8 * 2 ^ 16

/-- The kind of a link exception of the manifest (R451) with a key. -/
def State.exceptionAt (s : State) (key : Nat) : Option Nat :=
  match s.manifest with
  | some m => (m.exceptions.find? fun x => decide (x % 2 ^ 19 = key)).map fun x => bitsAt x 19 2
  | none => none

/-- A link's exception kind (R451), if it has one. The − end of a link across a bypass names the package one further as the + end (R270, R299). -/
def State.exceptionOf (s : State) (p : Nat) : Option Nat :=
  if s.exceptionAt (s.keyTo p (s.further (p / 8))) = some 1 then some 1 else s.exceptionAt (s.keyTo p (s.neighbour (p / 8)))

/-- The package at the far end of a port's link: one further when the link runs across a closed bypass, by plan (R451) or as it has trained
(R299). -/
def State.farEnd (s : State) (p : Nat) : Nat :=
  if s.exceptionOf p = some 1 ∨ (s.port p).partner = some (s.further (p / 8)) then s.further (p / 8) else s.neighbour (p / 8)

/-- The link key of a port's link (R270). -/
def State.linkKey (s : State) (p : Nat) : Nat := s.keyTo p (s.farEnd p)

/-- The port of this package on a link, if it is one of its ends. -/
def State.portOfKey (s : State) (key : Nat) : Option Nat := (List.range numPorts).find? fun p => decide (s.linkKey p = key)

/-- Whether a port faces outside the box on an axis whose ring the slice does not own (R346). -/
def State.facesOut (s : State) (p : Nat) : Bool :=
  let dir := p / 8
  let a := dir / 2
  let h := coordOn a s.self
  s.manifest.isSome && !s.ownsRing a &&
    (if dir % 2 = 0 then decide (h + 1 = s.lowCorner a + s.extent a) else decide (h = s.lowCorner a))

/-- A member's serial (R451). -/
def State.serialOf (s : State) (pkg : Nat) : Option (BitVec 64) :=
  match s.manifest with
  | some m => (m.members.find? fun r => decide (r.index = pkg)).map Member.serial
  | none => none

/-- A port's discovery class (R483). -/
def State.classOf (s : State) (p : Nat) : Nat :=
  let x := s.port p
  let up := s.linkUp p || decide (s.lnk p = 6)
  let ser := BitVec.ofNat 64 (s.getF (aLnkPartner p) F.lnkPartner_serial)
  let exc := s.exceptionOf p
  let expected := if exc = some 1 then s.further (p / 8) else s.neighbour (p / 8)
  if s.manifest.isNone then 0
  else if s.facesOut p then 5
  else if !up then (if exc = some 0 then 7 else if ser = 0 then 0 else if s.isMember expected then 2 else 0)
  else if ser = Config.serial then 6
  else if exc = some 0 then 3
  else if s.serialOf expected = some ser ∧ x.partPort = oppositePort p then 1
  else if s.isMember (s.further (p / 8)) ∧ s.serialOf (s.further (p / 8)) = some ser ∧ x.partPort = oppositePort p then 4
  else 3

/-- A port fenced or not (R346, R484). -/
def State.setFence (s : State) (p : Nat) (b : Bool) : State :=
  let f := s.getF aGmuFence F.gmuFence_fenced
  s.setF aGmuFence F.gmuFence_fenced (if b then f ||| 2 ^ p else if f.testBit p then f - 2 ^ p else f)

/-- A port takes its class (R483) with its treatment: outside the box it is fenced; quarantined or looped it is fenced, its link
idles, and an event is written (R484); before the job starts a change of a used port takes readiness away (R492). -/
def State.classify (s : State) (p : Nat) : State :=
  let c := s.classOf p
  let x := s.port p
  let moved := s.flag (aBocDisc p) F.bocDisc_used && !s.brt.job && decide (s.getF (aBocDisc p) F.bocDisc_class ≠ c)
  let s := if moved then s.setF aBocState F.bocState_ready 0 else s
  let s := s.setFs (aBocDisc p) [(F.bocDisc_class, c), (F.bocDisc_partner, match x.partner with | some k => k | none => 0),
    (F.bocDisc_partnerPort, x.partPort)]
  let s := s.setFence p (decide (c = 5 ∨ c = 3 ∨ c = 6))
  if c = 3 ∨ c = 6 then
    (s.setF (aLnkState p) F.lnkState_state 6).event 4 0x33 0 0 (p + s.getF (aLnkPartner p) F.lnkPartner_serial * 2 ^ 8)
  else s

/-! ### Training -/

/-- Whether the breath that runs still uses a port's link (R296): scheduled flits in flight, or claims that lie ahead. -/
def State.stillUses (s : State) (p : Nat) : Bool :=
  let x := s.port p
  s.brt.running && (x.buf.any (fun f => decide (f.kind = 1)) || !x.relays.isEmpty ||
    (s.slotEntries p ++ s.patchEntries p).any fun e => slValid e && decide (s.breathSlot < slStart e + slStride e * slCountM1 e))

/-- A port whose measured delay no longer fits its arrival delay is out of plan (R281), and the lead, which treats its link as failed, is told
as of a link that goes down (DEDUCED, log 160); one that failed during the job stays so (R340). -/
def State.checkDelay (s : State) (p : Nat) : State :=
  let a := aCrpConfig p
  let st := s.getF a F.crpConfig_sched
  if st ≠ 1 ∧ st ≠ 3 then s
  else if s.delayFits p then s.setF a F.crpConfig_sched 1
  else
    let t := s.setF a F.crpConfig_sched 3
    if st = 3 then t else t.faultReport 3 [(96, s.linkKey p), (115, if s.stillUses p then 1 else 0)]

/-- The job has ended: its patches with it (R296), and a port that failed in it is in the state its delay gives it (R340). -/
def State.endJob (s : State) : State :=
  let s := { s with brt := { s.brt with job := false } }.dropPatches
  ((List.range numPorts).filter fun p => decide (s.getF (aCrpConfig p) F.crpConfig_sched = 2)).foldl (fun s p =>
    s.setF (aCrpConfig p) F.crpConfig_sched (if !s.flag (aBocDisc p) F.bocDisc_used then 0 else if s.delayFits p then 1 else 3)) s

/-- Whether a link's flits are encrypted from its first one (R459, R460): an accepted grant, and a member at the far end. -/
def State.encrypts (s : State) (p : Nat) : Bool :=
  decide (s.getF aBocState F.bocState_grant = 1) && (match (s.port p).partner with | some k => s.isMember k | none => false) &&
    !s.fenced p

/-- The nominal totals and credits (R326, R329). -/
def nominalTbl : Tbl Nat := (List.range 6).map fun v => (v, nominal v)

/-- Sequence, ack, credit and buffer state as training sets it (R316, R329); what is queued for launch stays. -/
def Port.initLink (x : Port) : Port :=
  { x with next := 0, buf := [], timer := none, lastNak := [], replay := [], exp := 0, held := [], lost := [], credit := nominalTbl,
           pend := [], grant := nominalTbl, receipt := nominalTbl, leaked := [], vcs := [], ctlIn := [], out := [],
           sinceIdle := 0, full := false, fails := [], proc := .none, later := [], sentAt := [], rttLeft := 64, prevAck := 4095, heldOut := [], idleDep := 0, idleArr := 0,
           encTx := false, encRx := false, eTx := 0, eRx := 0, tagged := 0, covered := 0, tagWait := [] }

/-- The usable windows as LNK_CREDIT shows them (R330). -/
def windowWord (leaked : Tbl Nat) : Nat := ((List.range 6).map fun v => (nominal v - Tbl.get 0 leaked v) * 2 ^ (7 * v)).sum

/-- The link comes up (R306, R307, R341): width by the lanes found, sequence and credit state fresh. A link that trains again during a job
carries no scheduled traffic until the job ends (R340). -/
def State.bringUp (s : State) (p map lanes spare failed delay16 rtt skew deskew : Nat) : State :=
  let again := s.brt.job && decide (s.getF (aLnkState p) F.lnkState_downCause ≠ 0)
  let s := s.setPort p (s.port p).initLink
  let s := if again then s.setF (aCrpConfig p) F.crpConfig_sched 2 else s
  let ser := s.getF (aLnkPartner p) F.lnkPartner_serial
  let s := s.setFs (aLnkState p) [(F.lnkState_state, if lanes = 8 then 2 else 3), (F.lnkState_lanes, lanes),
    (F.lnkState_spare, if spare = 15 then 0 else 1), (F.lnkState_spareWl, spare), (F.lnkState_retrainPending, 0),
    (F.lnkState_leader, if Config.serial.toNat < ser then 1 else 0), (F.lnkState_longRtt, if 1024 < rtt then 1 else 0),
    (F.lnkState_downCause, 0)]
  let s := s.setFs (aLnkLanes p) [(F.lnkLanes_map, map), (F.lnkLanes_failed, failed)]
  let s := s.setFs (aLnkRtt p) [(F.lnkRtt_rtt, min rtt 4095), (F.lnkRtt_skew, skew)]
  let s := s.setFs (aLnkCredit p) [(F.lnkCredit_window, windowWord []), (F.lnkCredit_low, 0)]
  let s := (s.setF (aCrpDelay p) F.crpDelay_physical delay16).setF (aTimCorr p) F.timCorr_deskew deskew
  let s := (s.checkDelay p).classify p
  let e := s.encrypts p
  s.setPort p { s.port p with encTx := e, encRx := e }

/-- A lane map: lane i on the i-th wavelength of a list. -/
def mapOf (l : List Nat) : Nat := (l.zipIdx.map fun w => w.1 * 2 ^ (4 * w.2)).sum

/-- The spare that a lane map of the sending direction leaves (R302, R307): the one wavelength that carries no lane of a full-width map; none
at half width, and of a map without eight codes. -/
def mapSpare (map : Nat) (half : Bool) : Nat :=
  let codes := (List.range 8).map fun i => bitsAt map (4 * i) 4
  match (List.range 9).filter fun w => !codes.contains w with
  | [w] => if half then 15 else w
  | _ => 15

/-- Training fails on a link (R306, R307). -/
def State.trainFail (s : State) (p failed : Nat) : State :=
  (s.setFs (aLnkState p) [(F.lnkState_state, 0), (F.lnkState_lanes, 0), (F.lnkState_downCause, 3)]).setF (aLnkLanes p) F.lnkLanes_failed failed

/-- COLD_TRAINING: a link trains as its optics and its peer allow (R305 to R308): with fewer than four usable wavelengths it fails; else the
best become lanes, a ninth the spare, and the link comes up with the peer's identity, at half width when either end chose that. -/
def execColdTraining (port : Nat) (env : TrainEnv) (s : State) : Out :=
  if hasPort port then
    if 2 ≤ s.lnk port ∧ s.lnk port ≤ 5 then .next s
    else
      let good := env.optics.order
      if good.length < 4 then .next (s.trainFail port env.optics.failed)
      else
        let lanes := if env.peerHalf then 4 else lanesFor good.length
        let spare := if 9 ≤ good.length ∧ lanes = 8 then good.getD 8 15 else 15
        let s := s.setF (aLnkPartner port) F.lnkPartner_serial env.serial.toNat
        let s := { s.setPort port { s.port port with
          partner := if env.hasIndex then some env.package else none, partPort := env.port, random := Config.linkRandom s.fresh,
          peerRand := env.peerRand, peerCert := env.cert, peerHalf := env.peerHalf, trainStep := 8, txMap := env.peerMap.toNat,
          txSpare := mapSpare env.peerMap.toNat (decide (lanes = 4)) } with fresh := s.fresh + 1 }
        .next (s.bringUp port (mapOf (good.take lanes)) lanes spare env.optics.failed env.delay16 env.rtt
          (env.optics.skewOf (good.take lanes)) env.deskew)
  else .fault .absentUnit

/-- COLD_TRAINING_RETRY: a link that is down begins cold training again (R307, R340): steps 1 to 4 measure its wavelengths; with four usable ones
it chooses width and lane map, draws its link value (R308), and sends training records from step 5 on. -/
def execColdTrainingRetry (retry : Retry) (s : State) : Out :=
  let ⟨port, optics⟩ := retry
  if hasPort port then
    if s.lnk port = 0 then
      let good := optics.order
      if good.length < 4 then .next (s.trainFail port optics.failed)
      else
        let lanes := lanesFor good.length
        let s := { s.setPort port { s.port port with
          trainStep := 5, trainGot := false, peerHalf := false, echo := 0, echoArr := 0, random := Config.linkRandom s.fresh } with
          fresh := s.fresh + 1 }
        let s := s.setFs (aLnkState port) [(F.lnkState_state, 1), (F.lnkState_lanes, lanes), (F.lnkState_spareWl, if 9 ≤ good.length then good.getD 8 15 else 15)]
        let s := s.setFs (aLnkLanes port) [(F.lnkLanes_map, mapOf (good.take lanes)), (F.lnkLanes_failed, optics.failed)]
        .next (s.setF (aLnkRtt port) F.lnkRtt_skew (optics.skewOf (good.take lanes)))
    else .next s
  else .fault .absentUnit

/-- What the peer's training record of the current step says is taken (R308): in step 5 its lane map and width, in step 6 its serial, package,
port, link value and certificate digest, in step 7 its stamp and its arrival. -/
def State.takeRecord (s : State) (p b : Nat) : State :=
  let x := s.port p
  match x.trainStep with
  | 5 =>
    let half := b.testBit 153
    s.setPort p { x with trainGot := true, peerHalf := half, txMap := bitsAt b 160 32,
                         txSpare := mapSpare (bitsAt b 160 32) (half || decide (s.getF (aLnkState p) F.lnkState_lanes = 4)) }
  | 6 =>
    (s.setPort p { x with trainGot := true, partner := if b.testBit 271 then none else some (bitsAt b 256 14), partPort := bitsAt b 272 8,
                          peerRand := BitVec.ofNat 128 (b / 2 ^ 288), peerCert := BitVec.ofNat 256 (b / 2 ^ 416) }).setF (aLnkPartner p)
      F.lnkPartner_serial (bitsAt b 192 64)
  | _ => s.setPort p { x with trainGot := true, echo := BitVec.ofNat 64 (b / 2 ^ 672), echoArr := s.arrive p }

/-- The training record a port receives (R308, R311): checked by segment parity only, of version 1, a control flit to the link controller that
holds no message. -/
def recordOf (half : Bool) (raw : BitVec 2304) : Option Nat :=
  let f := rawFlit raw
  let b := f.payload.toNat
  if badLanes half raw ≠ 0 ∨ f.kind ≠ 3 ∨ !b.testBit 15 ∨ bitsAt b 30 4 ≠ 0 ∨ bitsAt b 128 16 ≠ 1 then none else some b

/-- TRAINING_RECORD: the peer's record of the current step is taken (R308); with its received flag set, the end goes on to the
next step, and after step 7 the link is up, at half width when either end chose that. -/
def execTrainingRecord (port : Nat) (raw : BitVec 2304) (s : State) : Out :=
  if hasPort port then
    match recordOf false raw with
    | none => .next s
    | some b =>
      let x := s.port port
      if s.lnk port ≠ 1 ∨ bitsAt b 144 8 ≠ x.trainStep then .next s
      else
        let s := s.takeRecord port b
        if !b.testBit 152 then .next s
        else if x.trainStep = 7 then
          let stamp := BitVec.ofNat 64 (b / 2 ^ 672)
          let echo := BitVec.ofNat 64 (b / 2 ^ 736)
          let earr := BitVec.ofNat 64 (b / 2 ^ 800)
          -- P is half the round trip of the stamps, in sixteenths of a slot: units of 2⁻¹⁶ ns × 16 / 1.44 ns
          let trip := ((s.arrive port - stamp) + (earr - echo)).toNat
          let d16 := (trip * 8 * 100 + 144 * 2 ^ 15) / (144 * 2 ^ 16)
          let lanes := if (s.port port).peerHalf then 4 else s.getF (aLnkState port) F.lnkState_lanes
          let spare := if lanes = 8 then s.getF (aLnkState port) F.lnkState_spareWl else 15
          .next ((s.setPort port { s.port port with trainStep := 8 }).bringUp port (s.getF (aLnkLanes port) F.lnkLanes_map % 2 ^ (4 * lanes)) lanes
            spare (s.getF (aLnkLanes port) F.lnkLanes_failed) d16 (d16 / 8) (s.getF (aLnkRtt port) F.lnkRtt_skew)
            (s.getF (aTimCorr port) F.timCorr_deskew))
        else .next (s.setPort port { s.port port with trainStep := x.trainStep + 1, trainGot := false })
  else .fault .absentUnit

/-! ### Link messages -/

/-- A link message (R338): its kind, this device's serial in bits 71:8, and fields above. -/
def linkMsg (kind : Nat) (fields : List (Nat × Nat)) : Msg :=
  BitVec.ofNat 128 (kind + Config.serial.toNat * 2 ^ 8 + (fields.map fun f => f.2 * 2 ^ f.1).sum)

/-- A message taken out of a port's control buffer, if it stands there (R319). -/
def State.takeCtl (s : State) (p : Nat) (m : Msg) : State :=
  let x := s.port p
  s.setPort p { x with ctlIn := (x.ctlIn.map fun g => g.filter fun c => c.msg ≠ m).filter fun g => !g.isEmpty }

/-- The state code of a link that sends flits, by its width (R341). -/
def State.upState (s : State) (p : Nat) : Nat := if s.halfWidth p then 3 else 2

/-- A port's running procedure replaced; the link shows a spare swap or its plain state (R341). -/
def State.setProc (s : State) (p : Nat) (q : LinkProc) : State :=
  let s := s.setPort p { s.port p with proc := q }
  match q with
  | .spareLocking _ _ => s.setF (aLnkState p) F.lnkState_state 4
  | .spareServed _ _ => s.setF (aLnkState p) F.lnkState_state 4
  | .quiet => s.setF (aLnkState p) F.lnkState_state 5
  | .relocked => s.setF (aLnkState p) F.lnkState_state 5
  | _ => s.setF (aLnkState p) F.lnkState_state (s.upState p)

/-- Whether a procedure is a spare swap. -/
def LinkProc.isSwap : LinkProc → Bool
  | .spareAsked _ => true
  | .spareServed _ _ => true
  | .spareLocking _ _ => true
  | _ => false

/-- A request kept for when the running procedure has ended. -/
def Port.keep (x : Port) (q : LinkProc) : Port := if x.later.contains q then x else { x with later := x.later ++ [q] }

/-- A fast retrain requested (R336): at once, or after a spare swap that runs; a port that is retraining already needs no second one
(R337). -/
def State.askRetrain (s : State) (p cause : Nat) : State :=
  let x := s.port p
  if !s.sending p then s
  else if x.proc = .none then (s.setProc p (.retrainAsked cause)).sendLink p (linkMsg 0x13 [(72, cause)])
  else if x.proc.isSwap then s.setPort p (x.keep (.retrainAsked cause))
  else s

/-- A spare swap requested for a lane (R333): at once, or after the procedure that runs (R337). -/
def State.askSpare (s : State) (p lane : Nat) : State :=
  let x := s.port p
  if !s.sending p then s
  else if x.proc = .none then (s.setProc p (.spareAsked lane)).sendLink p (linkMsg 0x10 [(72, lane)])
  else if x.proc = .spareAsked lane then s
  else s.setPort p (x.keep (.spareAsked lane))

/-- The flits that failed parity in the last millisecond (R309, R333). -/
def Port.recent (x : Port) (now : Beat) : List ParFail := x.fails.filter fun f => !beatReached now (f.beat + nsBeat 1000000)

/-- Whether the condition of a request that waited or was withdrawn still holds (R333, R336, R337), after a retrain or a spare swap: a write
to LNK_CTL asks for one retrain, whoever led it, and encryption starts with any retrain. -/
def State.stillHolds (s : State) (p : Nat) (retrain : Bool) : LinkProc → Bool
  | .spareAsked lane =>
    s.flag (aLnkState p) F.lnkState_spare && decide (16 < (((s.port p).recent s.beat).filter fun f => f.lanes.getLsbD lane).length)
  | .retrainAsked 0 => decide (s.getF (aLnkCredit p) F.lnkCredit_low ≠ 0)
  | .retrainAsked 1 => s.flag (aLnkState p) F.lnkState_spare && decide (64 < ((s.port p).recent s.beat).length)
  | .retrainAsked _ => !retrain
  | _ => false

/-- A request made again (R337): the first of a list; the others wait for its end. -/
def State.askAgain (s : State) (p : Nat) : List LinkProc → State
  | [] => s
  | q :: l =>
    let s := match q with
      | .spareAsked lane => s.askSpare p lane
      | .retrainAsked cause => s.askRetrain p cause
      | _ => s
    l.foldl (fun s q => s.setPort p ((s.port p).keep q)) s

/-- A procedure has ended (R336, R337): the requests that waited for it, or were withdrawn for it, are made again as far as their conditions
still hold. -/
def State.procEnd (s : State) (p : Nat) (retrain : Bool) : State :=
  let l := (s.port p).later
  let s1 := s.setProc p .none
  let s2 := s1.setPort p { s1.port p with later := [] }
  s2.askAgain p (l.filter fun q => s2.stillHolds p retrain q)

/-- A tag request for the flits a port released (R462): kind 0x30, the port, and the highest extended sequence number. -/
def State.askTag (s : State) (p : Nat) : State :=
  let x := s.port p
  match x.partner with
  | some k =>
    if x.encRx ∧ x.covered < x.eRx then
      s.sendTo k (BitVec.ofNat 128 (0x30 + p * 2 ^ 8 + (x.eRx - 1) % 2 ^ 24 * 2 ^ 14))
    else s
  | none => s

/-- The control messages that waited for a port find other ways (R480, R482); link messages are lost with the link. -/
def State.rerouteCtl (s : State) (p : Nat) : State :=
  let q := Tbl.get [] s.ctl.queue p
  let s := { s with ctl := { s.ctl with queue := Tbl.set [] s.ctl.queue p [] } }
  q.foldl (fun s c => if c.local_ then s else s.unicast (if c.bcast then { c with bcast := false, dest := s.neighbour (p / 8) } else c)) s

/-- Whether a partner change is expected on a port, from the notice's B for 10 s (R486). -/
def State.changeExpected (s : State) (p : Nat) : Bool :=
  match (s.port p).expectTo with
  | some b => beatReached s.beat b && !beatReached s.beat (b + nsBeat 10000000000)
  | none => false

/-- A link declared down (R339, R340, R462): a down notice if it can still be sent, the replay buffer discarded, an event and a
report with the link key and whether the breath still uses the link, and a tag request for what it had released; a parent link leaves the package in
holdover (R391). -/
def State.linkDown (s : State) (p cause : Nat) : State :=
  if !s.linkUp p then s
  else
    let key := s.linkKey p
    let x := s.port p
    let uses := s.stillUses p
    let s := if s.sending p ∧ x.canSend then s.sendNew p (ctlFlit { dest := 0, bcast := false, local_ := true, source := s.self, msg := 0 }
      [linkMsg 0x16 [(72, cause)]]) else s
    let s := s.askTag p
    let x := s.port p
    let s := s.setPort p { x with buf := [], replay := [], timer := none, held := [], lost := [], vcs := [], ctlIn := [], out := [],
                                  fails := [], proc := .none, later := [], wire := none, trainStep := 0, full := false, heldOut := [],
                                  sentAt := [], rttLeft := 0 }
    let s := s.setFs (aLnkState p) [(F.lnkState_state, 0), (F.lnkState_lanes, 0), (F.lnkState_retrainPending, 0),
      (F.lnkState_downCause, cause)]
    let s := s.bump (aLnkEvents p) F.lnkEvents_downs 1
    let s := if s.brt.job then s.setF (aCrpConfig p) F.crpConfig_sched 2 else s
    let s := if s.getF aTimStatus F.timStatus_parent = p then s.setF aTimStatus F.timStatus_holdover 1 else s
    let s := (s.classify p).rerouteCtl p
    let s := s.event 4 0x30 0 0 (key + cause * 2 ^ 32)
    if s.changeExpected p then s else s.faultReport 3 [(96, key), (115, if uses then 1 else 0)]

/-! ### Reception -/

/-- The wavelength a receive lane stands on. -/
def State.laneWl (s : State) (p i : Nat) : Nat := bitsAt (s.getF (aLnkLanes p) F.lnkLanes_map) (4 * i) 4

/-- A flit that fails parity (R311, R333, R336, R339): counted, and the thresholds of its last millisecond examined. -/
def State.parityFail (s : State) (p : Nat) (bad : BitVec 8) (counts : Bool) : State :=
  let s := s.bump (aLnkParity p) F.lnkParity_failed 1
  let s := ((List.range 8).filter fun i => bad.getLsbD i).foldl (fun s i => s.bump (aLnkWlErr p (s.laneWl p i)) F.lnkWlErr_parity 1) s
  if !counts then s
  else
    let x := s.port p
    let fails := x.recent s.beat ++ [{ beat := s.beat, lanes := bad }]
    let s := s.setPort p { x with fails := fails }
    let s := if s.getF (aLnkParity p) F.lnkParity_windowMax < fails.length
      then s.setF (aLnkParity p) F.lnkParity_windowMax (min fails.length 2047) else s
    let above := (List.range 8).find? fun i => decide (16 < (fails.filter fun f => f.lanes.getLsbD i).length)
    if s.flag (aLnkState p) F.lnkState_spare then
      match above with
      | some i => s.askSpare p i
      | none => if 64 < fails.length then s.askRetrain p 1 else s
    else if 64 < fails.length then s.linkDown p 1 else s

/-- The round trip of flits an ack covers (R309): from their transmission to this ack; the largest value is kept. -/
def State.measureTrip (s : State) (p : Nat) (covered : List Nat) : State :=
  let x := s.port p
  let (now, rest) := x.sentAt.partition fun m => covered.contains m.1
  let longest := (now.map fun m => s.slotNow - m.2).foldl max 0
  let s1 := s.setPort p { x with sentAt := rest }
  if s.rtt p < longest then
    (s1.setF (aLnkRtt p) F.lnkRtt_rtt (min longest 4095)).setF (aLnkState p) F.lnkState_longRtt (if 1024 < longest then 1 else 0)
  else s1

/-- Link fields of a valid flit: the ack (R318, R321). -/
def State.takeAck (s : State) (p ack : Nat) : State :=
  let n := seqDist (s.port p).oldest (ack + 1)
  if 1 ≤ n ∧ n ≤ (s.port p).buf.length then
    let s := s.measureTrip p ((s.port p).buf.take n |>.map Flit.seq)
    let x := s.port p
    let buf := x.buf.drop n
    s.setPort p { x with buf := buf, timer := if buf.isEmpty then none else some (s.slotNow + 2 * s.rtt p),
                         replay := x.replay.filter fun sq => buf.any fun f => decide (f.seq = sq),
                         full := x.full && decide (1024 ≤ buf.length) }
  else s

/-- Link fields of a valid flit: one NAK bit (R318). -/
def State.takeNak (s : State) (p sq : Nat) : State :=
  let x := s.port p
  let now := s.slotNow
  let again : Bool := match Tbl.get none x.lastNak (sq % 1024) with | some t => decide (t + s.rtt p ≤ now) | none => true
  if decide (seqDist x.oldest sq < x.buf.length) && again then
    (s.setPort p { x with lastNak := Tbl.set none x.lastNak (sq % 1024) (some now), replay := x.queueReplay sq }).bump (aLnkReplay p)
      F.lnkReplay_nakReplays 1
  else s

/-- Link fields of a valid flit (R318, R326, R329): ack, NAKs, credit increments. -/
def State.takeLink (s : State) (p : Nat) (f : Flit) : State :=
  let s := s.takeAck p f.ack
  let s := ((List.range 6).filter fun i => f.nak i).foldl (fun s i => s.takeNak p ((f.ack + 1 + i) % 4096)) s
  (List.range 6).foldl (fun s v =>
    let x := s.port p
    s.setPort p { x with credit := Tbl.set 0 x.credit v (Tbl.get 0 x.credit v + f.credit v),
                         receipt := Tbl.set 0 x.receipt v ((Tbl.get 0 x.receipt v + f.credit v) % 65536) }) s

/-- An idle's credit audit (R330, R332): leaked credits, the usable windows, and a retrain when one falls below half. -/
def State.creditAudit (s : State) (p : Nat) (f : Flit) : State :=
  let x := s.port p
  let leak := fun v => (bitsAt f.payload.toNat (16 * v) 16 + 65536 - Tbl.get 0 x.receipt v) % 65536
  let fresh := ((List.range 6).map fun v => leak v - Tbl.get 0 x.leaked v).sum
  let leaked := (List.range 6).foldl (fun t v => Tbl.set 0 t v (leak v)) x.leaked
  let low := (List.range 6).filter fun v => decide (2 * (nominal v - leak v) < nominal v)
  let s := s.setPort p { x with leaked := leaked }
  let s := s.setFs (aLnkCredit p) [(F.lnkCredit_window, windowWord leaked), (F.lnkCredit_low, (low.map fun v => 2 ^ v).sum)]
  let s := s.bump (aLnkCredit p) F.lnkCredit_leaks fresh
  if low.isEmpty then s else s.askRetrain p 0

/-- Half of a modular difference, as a signed value. -/
def halfSigned (x : BitVec 64) : BitVec 64 := x.sshiftRight 1

/-- An idle's time exchange (R386, R387). -/
def State.timeExchange (s : State) (p : Nat) (f : Flit) : State :=
  let b := f.payload.toNat
  let dep := BitVec.ofNat 64 (b / 2 ^ 128)
  let edep := BitVec.ofNat 64 (b / 2 ^ 192)
  let earr := BitVec.ofNat 64 (b / 2 ^ 256)
  let a := s.arrive p
  let x := s.port p
  let samples := if edep = 0 then x.samples
    else x.samples ++ [{ offset := halfSigned ((a - dep) - (earr - edep)), delay := halfSigned ((a - dep) + (earr - edep)) }]
  s.setPort p { x with idleDep := dep, idleArr := a, samples := samples,
                       peer := some { root := bitsAt b 320 14, depth := bitsAt b 336 8, flags := bitsAt b 344 8 } }

/-- The control messages of a control flit (R315). -/
def flitMessages (f : Flit) : List Ctl :=
  let b := f.payload.toNat
  (List.range (bitsAt b 30 4)).map fun m => ctlOf (b % 2 ^ 128) (BitVec.ofNat 128 (b / 2 ^ (128 * (m + 1))))

/-- A port quarantined (R428, R484). -/
def State.quarantine (s : State) (p : Nat) : State :=
  let s := ((s.setF (aBocDisc p) F.bocDisc_class 3).setFence p true).setF (aLnkState p) F.lnkState_state 6
  s.event 4 0x33 0 0 (p + s.getF (aLnkPartner p) F.lnkPartner_serial * 2 ^ 8)

/-- A released flit's tag coverage (R463): a tag that waited for it is judged. -/
def State.judgeTag (s : State) (p e : Nat) (ok : Bool) : State :=
  let x := s.port p
  if ok then s.setPort p { x with covered := max x.covered (e + 1) }
  else
    let s := s.setPort p { x with authBad := x.authBad + 1 }
    let a := aSecAuth
    let s := s.bump a F.secAuth_failed 1
    let s := if s.flag a F.secAuth_valid then s else s.setFs a [(F.secAuth_port, p), (F.secAuth_valid, 1)]
    let s := (s.event 4 0x34 0 0 p).faultReport 6 [(96, p)]
    if 2 ≤ x.authBad + 1 then s.quarantine p else s

/-- Tags whose flits are all released are judged (R463). -/
def State.judgeTags (s : State) (p : Nat) : State :=
  let x := s.port p
  let now := x.tagWait.filter fun t => decide (t.1 < x.eRx)
  let s := s.setPort p { x with tagWait := x.tagWait.filter fun t => !decide (t.1 < x.eRx) }
  now.foldl (fun s t =>
    let s := if t.2 then s.bump aSecAuth F.secAuth_verified 1 else s
    s.judgeTag p t.1 t.2) s

/-- A flit released in order (R319, R346): scheduled flits to presentation, unscheduled ones to their channel's buffer, control
flits to the control buffer; what may not cross a fenced port is discarded and counted. -/
def State.release (s : State) (p : Nat) (f : Flit) : State :=
  let x := s.port p
  let s := if x.encRx then s.setPort p { x with eRx := x.eRx + 1 } else s
  let x := s.port p
  let msgs := flitMessages f
  let link := decide (f.kind = 3) && msgs.all fun c => c.local_
  if s.fenced p ∧ !link then s.bump aGmuFence F.gmuFence_dropped 1
  else
    match f.kind with
    | 1 =>
      s.setPort p { x with arrived := x.arrived ++ [{ flit := f, slot := s.breathSlot }] }
    | 2 =>
      let v := f.field 68 3
      s.setPort p { x with vcs := Tbl.set [] x.vcs v (Tbl.get [] x.vcs v ++ [f]) }
    | _ => s.setPort p { x with ctlIn := x.ctlIn ++ [msgs] }

/-- Flits released while the next expected one is held (R319); `n` bounds their number. -/
def State.releaseHeld (p : Nat) : Nat → State → State
  | 0, s => s
  | n + 1, s =>
    let x := s.port p
    match x.held.find? fun f => decide (f.seq = x.exp) with
    | some f =>
      let s := s.setPort p { x with held := x.held.erase f, exp := (x.exp + 1) % 4096, lost := x.lost.filter fun q => q ≠ x.exp }
      State.releaseHeld p n (s.release p f)
    | none => s

/-- Room for a flit at its destination (R319, R289): the landing stage, the channel's buffer, or the control buffer. Flits held behind a missing
one count in the buffer they will be released to, so that it never overfills; of the control buffer a flit that is held leaves the last place
to a missing one (DESIGN CHOICE, log 158). -/
def Port.room (x : Port) (f : Flit) : Bool :=
  let behind := fun (k : Flit → Bool) => (x.held.filter k).length
  match f.kind with
  | 1 => decide (x.stage.length < 64) && x.blocked.isEmpty
  | 2 =>
    let v := f.field 68 3
    decide ((Tbl.get [] x.vcs v).length + behind (fun g => decide (g.kind = 2 ∧ g.field 68 3 = v)) < nominal v)
  | _ => decide (x.ctlIn.length + behind (fun g => decide (g.kind = 3)) + (if f.seq = x.exp then 0 else 1) < 16)

/-- A valid flit (R319). -/
def State.onFlit (s : State) (p : Nat) (f : Flit) : State :=
  let s := s.takeLink p f
  let x := s.port p
  if f.kind = 0 then
    let n := min (seqDist x.exp f.seq) 64
    let gone := ((List.range n).map fun i => (x.exp + i) % 4096).filter fun q => !x.holds q && !x.lost.contains q
    ((s.setPort p { x with lost := x.lost ++ gone }).creditAudit p f).timeExchange p f
  else
    let d := seqDist x.exp f.seq
    if 2048 ≤ d ∨ x.holds f.seq then s.bump (aLnkReplay p) F.lnkReplay_duplicates 1
    else if 64 ≤ d then s.bump (aLnkReplay p) F.lnkReplay_beyond 1
    else if !x.room f then s.bump (aCrpArrive p) F.crpArrive_overflow 1
    else (State.releaseHeld p 65 (s.setPort p { x with held := x.held ++ [f] })).judgeTags p

/-- Drop injection (R343): every Nth valid sequenced flit is discarded before its link fields are taken. -/
def State.injectDrop (s : State) (p : Nat) (f : Flit) : Bool :=
  let n := s.getF (aLnkInjDrop p) F.lnkInjDrop_n
  s.flag (aLnkInjCtl p) F.lnkInjCtl_enable && decide (n ≠ 0) && decide (f.kind ≠ 0) && decide (((s.port p).injRx + 1) % n = 0)

/-- What FEC reports of a wavelength is counted (R304); it never discards a flit. -/
def State.countFec (s : State) (p : Nat) (l : List FecCount) : State :=
  (l.filter fun c => decide (c.wl < 9)).foldl (fun s c =>
    (s.bump (aLnkWlErr p c.wl) F.lnkWlErr_fecCorrected c.corrected).bump (aLnkWlErr p c.wl) F.lnkWlErr_fecFailed c.failed) s

/-- FLIT_RECEIVE: the 288 bytes of a flit arrive (R310), at half width over two slots (R306); a flit any of whose parity bits fails is
discarded whole (R311), any other one is taken (R319). -/
def execFlitReceive (port : Nat) (raw : BitVec 2304) (fec : List FecCount) (s : State) : Out :=
  if hasPort port then
    if !(s.linkUp port || decide (s.lnk port = 6)) then .next s
    else
      let s := s.countFec port fec
      let bad := badLanes (s.halfWidth port) raw
      let flit := rawFlit raw
      if bad ≠ 0 then .next (s.parityFail port bad true)
      else
        let drop := s.injectDrop port flit
        let x := s.port port
        let s := if flit.kind = 0 then s else s.setPort port { x with injRx := x.injRx + 1 }
        if drop then
          .next ((s.bump (aLnkInjCtl port) F.lnkInjCtl_injected 1).parityFail port 0 (s.flag (aLnkInjCtl port) F.lnkInjCtl_count))
        else .next (s.onFlit port flit)
  else .fault .absentUnit

/-- REPLAY_TIMER: the timer has expired, and every unacked flit is queued for replay (R318). The expiry takes effect when its slot has passed, so
that an ack that arrives in that slot is taken first (R321). -/
def execReplayTimer (port : Nat) (s : State) : Out :=
  if hasPort port then
    let x := s.port port
    match x.timer with
    | none => .next s
    | some t =>
      if t < s.slotNow then
        .next ((s.setPort port { x with replay := x.buf.map Flit.seq, timer := some (t + 2 * s.rtt port) }).bump (aLnkReplay port)
          F.lnkReplay_goBacks 1)
      else .next s
  else .fault .absentUnit

/-! ### Spare swaps -/

/-- Whether this end leads a collision (R337): its serial is the lower. -/
def State.leads (s : State) (p : Nat) : Bool := s.flag (aLnkState p) F.lnkState_leader

/-- The kind of a request this end has pending (R337). -/
def LinkProc.asked : LinkProc → Option Nat
  | .spareAsked _ => some 0x10
  | .retrainAsked _ => some 0x13
  | _ => Option.none

/-- A peer's request meets this end's procedure (R337): none when this end's own request or procedure stands, else the state
in which the request can be answered, this end's own request withdrawn and kept until the leader's procedure ends. -/
def State.yieldTo (s : State) (p : Nat) : Option State :=
  let x := s.port p
  match x.proc, x.proc.asked with
  | .none, _ => some s
  | _, some k =>
    if s.leads p then none
    else
      let s1 := (s.setPort p (x.keep x.proc)).setProc p .none
      some ((s1.bump (aLnkEvents p) F.lnkEvents_withdrawn 1).sendLink p (linkMsg 0x15 [(72, k)]))
  | _, none => none

/-- SPARE_REQUEST: the transmitting end sends the lane on its spare wavelength too and grants it (R333). -/
def execSpareRequest (port : Nat) (msg : Msg) (s : State) : Out :=
  if hasPort port then
    let s := s.takeCtl port msg
    if !s.sending port then .next s
    else
      match s.yieldTo port with
      | none => .next s
      | some s =>
        let lane := msgBits msg 72 3
        let wl := (s.port port).txSpare
        .next ((s.setProc port (.spareServed lane wl)).sendLink port (linkMsg 0x11 [(72, lane), (76, wl)]))
  else .fault .absentUnit

/-- SPARE_GRANT: the receiving end locks and deskews the granted spare (R333). -/
def execSpareGrant (port : Nat) (msg : Msg) (s : State) : Out :=
  if hasPort port then
    let s := s.takeCtl port msg
    match (s.port port).proc with
    | .spareAsked lane =>
      if lane = msgBits msg 72 3 then .next (s.setProc port (.spareLocking lane (msgBits msg 76 4))) else .next s
    | _ => .next s
  else .fault .absentUnit

/-- A nibble of a lane map replaced. -/
def setNibble (map i w : Nat) : Nat := map - bitsAt map (4 * i) 4 * 2 ^ (4 * i) + w % 16 * 2 ^ (4 * i)

/-- SPARE_LOCK_COMPLETE: the lane is read from the spare; the old wavelength is failed, the direction has no spare left, and
spare done is sent (R333). -/
def execSpareLockComplete (port : Nat) (s : State) : Out :=
  if hasPort port then
    match (s.port port).proc with
    | .spareLocking lane wl =>
      let old := s.laneWl port lane
      let a := aLnkLanes port
      let s := s.setFs a [(F.lnkLanes_map, setNibble (s.getF a F.lnkLanes_map) lane wl),
        (F.lnkLanes_failed, s.getF a F.lnkLanes_failed ||| 2 ^ old)]
      let s := s.setFs (aLnkState port) [(F.lnkState_spare, 0), (F.lnkState_spareWl, 15)]
      let s := (s.bump (aLnkEvents port) F.lnkEvents_swaps 1).sendLink port (linkMsg 0x12 [(72, lane), (76, wl), (80, old)])
      .next (s.procEnd port false)
    | _ => .next s
  else .fault .absentUnit

/-- SPARE_DONE: the transmitting end stops sending on the old wavelength and marks it failed (R333). -/
def execSpareDone (port : Nat) (msg : Msg) (s : State) : Out :=
  if hasPort port then
    let s := s.takeCtl port msg
    match (s.port port).proc with
    | .spareServed lane wl =>
      let x := s.port port
      let s := s.setPort port { x with txMap := setNibble x.txMap lane wl, txSpare := 15 }
      let a := aLnkLanes port
      let s := s.setF a F.lnkLanes_failed (s.getF a F.lnkLanes_failed ||| 2 ^ msgBits msg 80 4)
      .next ((s.bump (aLnkEvents port) F.lnkEvents_swaps 1).procEnd port false)
    | _ => .next s
  else .fault .absentUnit

/-! ### Fast retrain -/

/-- The first slot boundary at least `ns` after now (R271, R335). -/
def State.slotAfter (s : State) (ns : Nat) : Beat :=
  let t := (s.beat + nsBeat ns - s.brt.start).toNat
  s.slotBeat ((t * 100 + 9437183) / 9437184)

/-- The start beat of breath `j`, for the next breath and the one after it. -/
def State.startOf (s : State) (j : Nat) : Beat :=
  if j % 2 ^ 32 = s.brt.next % 2 ^ 32 then s.tNext
  else s.tNext + nsBeat (entLength (s.breathEntry s.brt.nextEntry))

/-- This end waits for its quiet start (R335): the start of a breath or a beat. -/
def State.waitQuiet (s : State) (p : Nat) (breath : Option Nat) (tq : Beat) : State :=
  (s.setProc p (.retrainWait breath tq)).setF (aLnkState p) F.lnkState_retrainPending 1

/-- Whether a quiet start has come (R335); a slip moves that of a breath (R211). -/
def State.quietDue (s : State) (breath : Option Nat) (tq : Beat) : Bool :=
  match breath with
  | none => beatReached s.beat tq
  | some j =>
    if j = s.brt.next % 2 ^ 32 ∨ j = (s.brt.next + 1) % 2 ^ 32 then beatReached s.beat (s.startOf j) else true

/-- RETRAIN_REQUEST: the peer asks for a fast retrain; the grant fixes the quiet starts in breath mode when the port is in plan and
a job runs, else in link mode (R335, R337). -/
def execRetrainRequest (port : Nat) (msg : Msg) (s : State) : Out :=
  if hasPort port then
    let s := s.takeCtl port msg
    if !s.sending port then .next s
    else
      match s.yieldTo port with
      | none => .next s
      | some s =>
        if s.getF (aBocDisc port) F.bocDisc_class = 1 ∧ s.brt.job then
          let j := if beatReached s.tNext (s.beat + nsBeat 5000) then s.brt.next else s.brt.next + 1
          .next ((s.waitQuiet port (some (j % 2 ^ 32)) (s.startOf j)).sendLink port (linkMsg 0x14 [(72, j % 2 ^ 32)]))
        else .next ((s.waitQuiet port none (s.slotAfter 10000)).sendLink port (linkMsg 0x14 [(104, 1)]))
  else .fault .absentUnit

/-- RETRAIN_GRANT: the requesting end fixes its quiet start (R335). -/
def execRetrainGrant (port : Nat) (msg : Msg) (s : State) : Out :=
  if hasPort port then
    let s := s.takeCtl port msg
    match (s.port port).proc with
    | .retrainAsked _ =>
      .next (if msg.getLsbD 104 then s.waitQuiet port none (s.slotAfter 10000)
        else s.waitQuiet port (some (msgBits msg 72 32)) (s.startOf (msgBits msg 72 32)))
    | _ => .next s
  else .fault .absentUnit

/-- QUIET_START: at its quiet start, not before, an end stops sending flits (R335). -/
def execQuietStart (port : Nat) (s : State) : Out :=
  if hasPort port then
    match (s.port port).proc with
    | .retrainWait breath tq =>
      if s.quietDue breath tq then
        let s := s.setPort port { s.port port with wire := none }
        .next ((s.setProc port .quiet).setF (aLnkState port) F.lnkState_retrainPending 0)
      else .next s
    | _ => .next s
  else .fault .absentUnit

/-- RELOCK_COMPLETE: the lanes are relocked and P and rtt measured afresh; what is held beyond the ack is discarded and resync is
sent with the occupancy of each channel (R335), as soon as the replay buffer has room (R317). -/
def execRelockComplete (port delay16 rtt : Nat) (s : State) : Out :=
  if hasPort port then
    match (s.port port).proc with
    | .quiet =>
      let s := (s.setF (aCrpDelay port) F.crpDelay_physical delay16).setF (aLnkRtt port) F.lnkRtt_rtt (min rtt 4095)
      let s := (s.setF (aLnkState port) F.lnkState_longRtt (if 1024 < rtt then 1 else 0)).checkDelay port
      let x := s.port port
      let occ := (List.range 6).map fun v => (72 + 8 * v, (Tbl.get [] x.vcs v).length)
      let s := s.setPort port { x with held := [], lost := [], pend := [], sentAt := [], rttLeft := 64 }
      let s := s.setProc port .relocked
      .next (if x.canSend then
        s.sendNew port (ctlFlit { dest := 0, bcast := false, local_ := true, source := s.self, msg := 0 } [linkMsg 0x17 occ])
        else s.sendLink port (linkMsg 0x17 occ))
    | _ => .next s
  else .fault .absentUnit

/-- RESYNC: the peer's resync resets credits and totals, and sending resumes, replays first (R335, R460). -/
def execResync (port : Nat) (msg : Msg) (ack : BitVec 12) (s : State) : Out :=
  if hasPort port then
    let s := s.takeCtl port msg
    match (s.port port).proc with
    | .relocked =>
      let s := s.takeAck port ack.toNat
      let x := s.port port
      let un := fun v => (x.buf.filter fun f => decide (f.kind = 2) && decide (f.field 68 3 = v)).length
      let cr := (List.range 6).foldl (fun t v => Tbl.set 0 t v (nominal v - msgBits msg (72 + 8 * v) 8 - un v)) x.credit
      let e := s.encrypts port
      let s := s.setPort port { x with
        credit := cr, grant := nominalTbl, receipt := nominalTbl, leaked := [],
        replay := x.buf.map Flit.seq, encTx := x.encTx || e, encRx := x.encRx || e, tagged := if x.encTx then x.tagged else x.eTx,
        eRx := if x.encRx then x.eRx else x.exp, covered := if x.encRx then x.covered else x.exp }
      let s := s.setFs (aLnkCredit port) [(F.lnkCredit_window, windowWord []), (F.lnkCredit_low, 0)]
      .next ((s.bump (aLnkEvents port) F.lnkEvents_retrains 1).procEnd port true)
    | _ => .next s
  else .fault .absentUnit

/-- RETRAIN_TIMEOUT: the lanes have not relocked in time, and the link goes down (R335, R339). -/
def execRetrainTimeout (port : Nat) (s : State) : Out :=
  if hasPort port then
    match (s.port port).proc with
    | .quiet => .next (s.linkDown port 3)
    | _ => .next s
  else .fault .absentUnit

/-- LINK_WITHDRAW: the peer withdraws its colliding request; this end's own stands (R337). -/
def execLinkWithdraw (port : Nat) (msg : Msg) (s : State) : Out :=
  if hasPort port then .next (s.takeCtl port msg) else .fault .absentUnit

/-- DOWN_NOTICE: the peer has declared the link down (R339). -/
def execDownNotice (port : Nat) (msg : Msg) (s : State) : Out :=
  if hasPort port then .next ((s.takeCtl port msg).linkDown port 4) else .fault .absentUnit

/-- NO_VALID_FLIT_TIMEOUT: no valid flit for 10 µs; suspended during a retrain's quiet (R336, R339). -/
def execNoValidFlitTimeout (port : Nat) (s : State) : Out :=
  if hasPort port then
    match (s.port port).proc with
    | .quiet => .next s
    | .relocked => .next s
    | _ => .next (s.linkDown port 2)
  else .fault .absentUnit

/-- LINK_RETRAIN_WRITE: a write of 1 to LNK_CTL.retrain requests a fast retrain (R336). -/
def execLinkRetrainWrite (port : Nat) (value : Word) (s : State) : Out :=
  if hasPort port then
    let s := { s with bus := ⟨false, 0⟩ }
    if value.getLsbD 0 then .next (s.askRetrain port 2) else .next s
  else .fault .absentUnit

/-- Whether a value holds a reserved encoding of an injection register (R13, R344). -/
def injReserved (offset : Nat) (v : Word) : Bool :=
  let f := fun lo w => bitsAt v.toNat lo w
  match offset with
  | 0x8218 => decide (f 0 2 = 3) || (decide (f 0 2 ≠ 0) && decide (f 2 16 = 0)) || (decide (f 0 2 = 2) && decide (f 18 10 = 0))
  | 0x8220 => decide (f 0 16 ≠ 0) && decide (f 16 12 = 0)
  | _ => false

/-- INJECTION_CONTROL_WRITE: an injection register is written only while the manifest permits injection (R342). -/
def execInjectionControlWrite (port offset : Nat) (value : Word) (s : State) : Out :=
  if hasPort port ∧ offset % 8 = 0 ∧ 0x8200 ≤ offset ∧ offset ≤ 0x8220 then
    if !s.flag (aLnkInjCtl port) F.lnkInjCtl_permitted ∨ injReserved offset value then .next { s with bus := ⟨true, 0⟩ }
    else
      let v := value.toNat
      let s := { s with bus := ⟨false, 0⟩ }
      match offset with
      | 0x8200 => .next (s.setFs (aLnkInjCtl port) [(F.lnkInjCtl_enable, bitsAt v 1 1), (F.lnkInjCtl_count, bitsAt v 2 1)])
      | 0x8208 => .next (s.setF (aLnkInjDrop port) F.lnkInjDrop_n (bitsAt v 0 16))
      | 0x8210 => .next (s.setFs (aLnkInjParity port) [(F.lnkInjParity_lanes, bitsAt v 0 8), (F.lnkInjParity_n, bitsAt v 8 16)])
      | 0x8218 => .next (s.setFs (aLnkInjAck port) [(F.lnkInjAck_mode, bitsAt v 0 2), (F.lnkInjAck_n, bitsAt v 2 16),
          (F.lnkInjAck_k, bitsAt v 18 10)])
      | _ => .next (s.setFs (aLnkInjReorder port) [(F.lnkInjReorder_n, bitsAt v 0 16), (F.lnkInjReorder_hold, bitsAt v 16 12)])
  else .fault .absentUnit

end Sys2Proof.Machine
end

