-- ==== Sys2Proof/Machine/Steps.lean ====
section
/-! DEFINITION. Steps and their tags (R407 to R416), the health digest (R435), and the capture buffers (R419): what the boundary
and the commands of recovery share. -/

namespace Sys2Proof.Machine

/-! ### Tags -/

/-- The tag of a step (R408). -/
def tagOf (step : Nat) : Nat := step % 3 + 1

/-- The last committed step. -/
def State.committed (s : State) : Nat := s.getF aFltStep F.fltStep_committed

/-- A tag's state (R408): 0 free, 1 open, 2 sweeping, 3 discarded. -/
def State.tagState (s : State) (t : Nat) : Nat := s.getF (aFltTag t) F.fltTag_state

/-- The step a tag last marked. -/
def State.tagStep (s : State) (t : Nat) : Nat := s.getF (aFltTag t) F.fltTag_step

/-- Whether a tag marks provisional or dead data (R409): open or discarded. -/
def State.tagLive (s : State) (t : BitVec 2) : Bool :=
  decide (t ≠ 0) && (decide (s.tagState t.toNat = 1) || decide (s.tagState t.toNat = 3))

/-- Whether one of the 64-byte lines that `n` bytes from `a` on touch carries a live tag (R409). -/
def State.anyLive (s : State) (a n : Nat) : Bool :=
  s.tags.any fun p => decide (a / 64 ≤ p.1 ∧ 64 * p.1 < a + n) && s.tagLive p.2

/-- The 4 MiB regions that hold lines of a tag (R410). -/
def State.markedRegions (s : State) (t : Nat) : List Nat := (s.tier.tagDir.filter fun p => p.2.testBit t).map Prod.fst

/-- FLT_TAG.regions, in thousands, rounded up (R436). -/
def State.showRegions (s : State) (t : Nat) : State :=
  s.setF (aFltTag t) F.fltTag_regions (((s.markedRegions t).length + 999) / 1000)

/-- A sweeping tag with no region left becomes free, and the lead is told (R410). -/
def State.sweepEnd (s : State) (t : Nat) : State :=
  let s := s.showRegions t
  if s.tagState t = 2 ∧ (s.markedRegions t).isEmpty then
    (s.setF (aFltTag t) F.fltTag_state 0).sendTo s.lead (s.msgOf 0x2A [(24, t), (26, s.tagStep t % 2 ^ 46)])
  else s

/-- The words of a capture record lie at 1 KiB steps of the capture area; word 2 holds its step (R419, R420). -/
def State.captureStep (s : State) (a : Nat) : Nat := s.getF (a / 1024 * 1024 + 16) F.fltCapture_word

/-- The capture area (R419). -/
def inCapture (a : Nat) : Bool := decide (fltBase + 0x10000000 ≤ a ∧ a < fltBase + 0x11400000)

/-- The capture records of the steps that `which` names cleared (R419). -/
def State.clearCaptures (s : State) (which : Nat → Bool) : State :=
  { s with regs := s.regs.filter fun p => !(inCapture (p.1 / 64) && which (s.captureStep (p.1 / 64))) }

/-- The match-clear of a tag in tile memory and the mailboxes (R410). -/
def State.clearTileTag (s : State) (t : BitVec 2) : State :=
  { s with
    tags := s.tags.filter fun p => !(decide (lpEnd / 64 ≤ p.1) && decide (p.2 = t)),
    cores := Tbl.update Core.reset (fun _ c => { c with mbx := Tbl.update Mbx.empty (fun _ e => if e.prov = t then { e with prov := 0 } else e) c.mbx }) s.cores }

/-- A commit applied at a boundary (R410): the step's tag sweeps, tile memory and mailboxes are cleared of it, its causes and
captures go, and the oldest uncommitted step is the next one. -/
def State.applyCommit (s : State) (step : Nat) : State :=
  let t := tagOf step
  let s := s.setF aFltStep F.fltStep_committed step
  let begun := decide (step < s.brt.step)
  let s := s.setF aFltStep F.fltStep_entry
    (if begun then Tbl.get 0 s.rcv.firsts (tagOf (step + 1)) else s.brt.nextEntry)
  let s := if begun then s.setF aFltSusp F.fltSusp_older 0 else s.setFs aFltSusp [(F.fltSusp_older, 0), (F.fltSusp_newer, 0)]
  let s := s.clearCaptures fun k => decide (k = step)
  if s.tagState t = 1 ∧ s.tagStep t = step then
    ((s.setF (aFltTag t) F.fltTag_state 2).clearTileTag (BitVec.ofNat 2 t)).sweepEnd t
  else s

/-- The commit that waits for a boundary (R412). -/
def State.takeCommit (s : State) : State :=
  match s.rcv.toCommit with
  | some m => { s with rcv := { s.rcv with toCommit := none } }.applyCommit m
  | none => s

/-- The first breath of a step starts (R408): what an earlier run of it captured is gone (R419), its tag opens, the causes of the step before become the older ones, and its
outbound digest and launch counts start afresh (R416). -/
def State.openStep (s : State) (step entry : Nat) : State :=
  let s := s.clearCaptures fun k => decide (step ≤ k)
  let t := tagOf step
  let older := s.getF aFltSusp F.fltSusp_newer
  let s := s.setFs aFltSusp [(F.fltSusp_older, older), (F.fltSusp_newer, 0)]
  let s := s.setFs (aFltTag t) [(F.fltTag_state, 1), (F.fltTag_step, step)]
  let s := if s.committed + 1 = step then s.setF aFltStep F.fltStep_entry entry else s
  { s with
    rcv := { s.rcv with firsts := Tbl.set 0 s.rcv.firsts t entry },
    flt := { s.flt with bursts := [] },
    fab := { s.fab with digests := Tbl.set 0 s.fab.digests t 0, launches := [] } }.showRegions t

/-! ### Step reports -/

/-- The tag message over the flits of a port's sending direction up to extended sequence number `e` (R461, R462). -/
def State.authTagMsg (s : State) (p e : Nat) : Msg :=
  let x := s.port p
  BitVec.ofNat 128 (0x40 + p + e % 2 ^ 24 * 2 ^ 8 + (Config.linkTag p s.tier.keys x.random x.peerRand e).toNat * 2 ^ 32)

/-- A tag over the flits a port has sent, when it has sent encrypted ones since its previous tag (R462). -/
def State.sendTag (s : State) (p : Nat) : State :=
  let x := s.port p
  match x.partner with
  | some k =>
    if x.encTx ∧ x.tagged < x.eTx then
      (s.setPort p { x with tagged := x.eTx }).sendTo k (s.authTagMsg p (x.eTx - 1))
    else s
  | none => s

/-- Whether every flit released so far on an encrypted link is covered by a verified tag (R463). -/
def State.allCovered (s : State) : Bool :=
  (List.range numPorts).all fun p => let x := s.port p; !x.encRx || decide (x.eRx ≤ x.covered)

/-- The step report of an ended step (R407): sent when every flit released before the boundary is covered (R463), else held. -/
def State.stepReport (s : State) (step causes : Nat) : State :=
  if s.allCovered then s.sendTo s.lead (s.msgOf 0x21 [(24, step), (72, causes)])
  else { s with rcv := { s.rcv with report := some (step, causes) } }

/-- A held step report goes once the flits are covered (R463). -/
def State.reportLate (s : State) : State :=
  match s.rcv.report with
  | some (step, causes) => if s.allCovered then { s with rcv := { s.rcv with report := none } }.stepReport step causes else s
  | none => s

/-! ### The health digest -/

/-- The health state (R435, byte 5). -/
def State.health (s : State) : Nat :=
  let step := s.getF aBocState F.bocState_step
  if s.boc.recovery || s.rcv.stopped then 7
  else if s.flag aBocState F.bocState_withdrawing then 6
  else if s.getF aFltState F.fltState_recovery ≠ 0 then 5
  else if s.brt.job then 4
  else if s.flag aBocState F.bocState_admitted then 3
  else if step < 8 then 0 else if step = 8 then 1 else 2

/-- Whether a port is usable: at least four of its wavelengths are not failed (R20, R306). -/
def State.portUsable (s : State) (p : Nat) : Bool :=
  decide (4 ≤ ((List.range 9).filter fun w => !(s.getF (aLnkLanes p) F.lnkLanes_failed).testBit w).length)

/-- The usable ports of a direction. -/
def State.usablePorts (s : State) (dir : Nat) : Nat := ((List.range 8).filter fun k => s.portUsable (8 * dir + k)).length

/-- BOC_CAPACITY's port counts brought up to date (R28). -/
def State.updatePorts (s : State) : State :=
  s.setFs aBocCapacity [(F.bocCapacity_portsPx, s.usablePorts 0), (F.bocCapacity_portsMx, s.usablePorts 1),
    (F.bocCapacity_portsPy, s.usablePorts 2), (F.bocCapacity_portsMy, s.usablePorts 3), (F.bocCapacity_portsPz, s.usablePorts 4),
    (F.bocCapacity_portsMz, s.usablePorts 5)]

/-- Whether some port has injection enabled (R342). -/
def State.injecting (s : State) : Bool := (List.range numPorts).any fun p => s.flag (aLnkInjCtl p) F.lnkInjCtl_enable

/-- The health digest as one 512-bit number (R435). -/
def State.healthImage (s : State) : Nat :=
  let b := fun (c : Bool) (k : Nat) => if c then 2 ^ k else 0
  let bits := b (decide (s.getF aFltSusp F.fltSusp_older ≠ 0 ∨ s.getF aFltSusp F.fltSusp_newer ≠ 0)) 0 + b s.injecting 1 +
    b (s.flag aTimStatus F.timStatus_locked) 2 + b s.isLead 3 + b s.boc.recovery 4
  let ports := ((List.range 6).map s.usablePorts).sum
  let newest := (s.getF aFltRing F.fltRing_head + 2 ^ 32 - 1) % 2 ^ 32
  1 + s.self * 2 ^ 16 + s.getF aBocCapacity F.bocCapacity_class * 2 ^ 32 + s.health * 2 ^ 40 + bits * 2 ^ 48 + s.beat.toNat * 2 ^ 64
    + s.committed * 2 ^ 128 + newest * 2 ^ 192 + s.getF aFltRing F.fltRing_overwritten * 2 ^ 224
    + s.getF aBocThermal F.bocThermal_hottest * 2 ^ 256 + s.getF aBocPower F.bocPower_inputPower * 2 ^ 272
    + s.rcv.retired % 65536 * 2 ^ 288 + ports * 2 ^ 304 + s.rcv.restarts % 2 ^ 32 * 2 ^ 320 + s.rcv.replays % 2 ^ 32 * 2 ^ 352

/-- The package index with bit 15 set when there is none (R466, R508). -/
def State.indexOrNone (s : State) : Nat := match s.manifest with | some m => m.self | none => 0x8000

/-- The 64 bytes of the I3C mirror with a refresh count (R508). -/
def State.mirrorBytes (s : State) (count : Nat) : List Byte :=
  let b := fun (c : Bool) (k : Nat) => if c then 2 ^ k else 0
  let flags := b (s.flag aBocState F.bocState_admitted) 0 + b s.isLead 1 + b (s.flag aTimStatus F.timStatus_locked) 2 +
    b (s.flag aSecState F.secState_fallback) 3 + b (s.flag aSecState F.secState_trial) 4 + b (s.flag aSecState F.secState_debug) 5 +
    b s.boc.recovery 6 + b (s.flag aBocState F.bocState_twin) 7
  bytesOfNat 1 1 ++ bytesOfNat 1 s.health ++ bytesOfNat 1 (s.getF aBocState F.bocState_step) ++ bytesOfNat 1 flags ++ bytesOfNat 2 s.indexOrNone ++
    bytesOfNat 1 (s.getF aBocState F.bocState_slotId) ++ bytesOfNat 1 (s.getF aBocCapacity F.bocCapacity_class) ++
    bytesOfNat 8 Config.serial.toNat ++ bytesOfNat 2 (s.getF aBocThermal F.bocThermal_hottest) ++
    bytesOfNat 2 (s.getF aBocPower F.bocPower_inputPower) ++ bytesOfNat 2 (s.getF aBocPower F.bocPower_inputVoltage) ++
    bytesOfNat 1 ((List.range 6).map s.usablePorts).sum ++ bytesOfNat 1 s.flt.newly.length ++
    bytesOfNat 4 (s.getF aFltRing F.fltRing_head + 2 ^ 32 - 1) ++ bytesOfNat 4 (s.getF aFltRing F.fltRing_overwritten) ++
    bytesOfNat 6 s.committed ++ bytesOfNat 4 (s.beat.toNat / 65536 / 10 ^ 9) ++ bytesOfNat 1 (s.getF aBocResetCause F.bocResetCause_cause) ++
    bytesOfNat 1 s.boc.sessions.length ++ bytesOfNat 19 0 ++ bytesOfNat 1 count

/-- The mirror refreshed (R508): its refresh count rises by one, modulo 256. -/
def State.refreshMirror (s : State) : State :=
  { s with i3c := { s.i3c with mirror := s.mirrorBytes ((s.i3c.mirror.getD 63 0).toNat + 1) } }

/-- The health digest updated (R435), and BOC_STATE.state with it (R509); a change of state refreshes the mirror (R508). -/
def State.updateHealth (s : State) : State :=
  let img := s.healthImage
  let s := (List.range 8).foldl (fun s k => s.setF (aFltHealth k) F.fltHealth_word (img / 2 ^ (64 * k))) s
  let was := s.getF aBocState F.bocState_state
  let s := s.setF aBocState F.bocState_state s.health
  if s.health = was then s else s.refreshMirror

end Sys2Proof.Machine
end

