-- ==== Sys2Proof/Machine/Boundary.lean ====
section
/-! DEFINITION. Breath starts, load records and package boundaries (R198 to R206, R256, R274, R275, R295, R392, R408, R423). -/

namespace Sys2Proof.Machine

/-! ### Load records -/

/-- Whether a record's target may be loaded now (R200, R256, R275): an island that has completed its breath, an engine parked
with no credit, a port's table at any time. -/
def State.targetReady (s : State) (r : Nat) : Bool :=
  let n := recIsland r
  if recKind r < 4 then !s.brt.running || s.flag (aIslBreath n) F.islBreath_complete
  else if recKind r = 5 then (s.engine n).parked && decide (s.getF (stmA n) F.stmStatus_credits = 0)
  else true

/-- The target of a record: its kind of target and its number; records of one target run in list order (R200, R540). -/
def recTarget (r : Nat) : Nat × Nat := (if recKind r < 4 then 0 else recKind r, recIsland r)

/-- Whether every earlier record of the same target has finished. -/
def State.earlierDone (s : State) (i : Nat) : Bool :=
  (List.range i).all fun j => s.brt.loadsDone.contains j || decide (recTarget (s.loadRecord j) ≠ recTarget (s.loadRecord i))

/-- Words of 64 bits of a byte list. -/
def words64 : Nat → List Byte → List Nat
  | 0, _ => []
  | k + 1, bs => natOfBytes (bs.take 8) :: words64 k (bs.drop 8)

/-- Words written from an index on, each by `w`. -/
def State.putWords (s : State) (i : Nat) (ws : List Nat) (w : State → Nat → Nat → State) : State :=
  (ws.zipIdx i).foldl (fun s p => w s p.2 p.1) s

/-- A table that has banks (R274): the slot table or bindings of a port, or the stream table, numbered 0–47, 64–111 and 128. -/
def tableId (port table : Nat) : Nat := if table = 2 then 128 else 64 * table + port

/-- The bank of a table that a record writes: the inactive one (R275). -/
def State.loadBank (s : State) (port table : Nat) : Nat :=
  1 - (if table = 0 then s.getF (aCrpConfig port) F.crpConfig_slotBank
       else if table = 1 then s.getF (aCrpConfig port) F.crpConfig_lqBank
       else s.getF aCrpFabric F.crpFabric_streamBank)

/-- Where a bank lies: its first address and its length in bytes. -/
def bankSpan (port table bank : Nat) : Nat × Nat :=
  if table = 0 then (aSlotTable port bank 0, 65536 * 8)
  else if table = 1 then (aCrpLqBind port bank 0, 512)
  else (aStreamTable bank 0 0, 65536)

/-- The first record that names a table clears its inactive bank (R275); patches applied to that bank are gone with it. -/
def State.openBank (s : State) (port table : Nat) : State :=
  let id := tableId port table
  if s.fab.written.contains id then s
  else
    let b := s.loadBank port table
    let (a, n) := bankSpan port table b
    let s := s.clearSpan a n
    { s with fab := { s.fab with
        written := s.fab.written ++ [id],
        applied := s.fab.applied.filter fun p => p.2 ≠ 2 * id + b } }

/-- The 64-bit word of a table's bank at byte offset `o` of the bank (R274, R276, R277, R284). -/
def State.putTableWord (s : State) (port table bank o w : Nat) : State :=
  if table = 0 then s.setF (aSlotTable port bank (o / 8)) F.slotTable_word w
  else if table = 1 then
    s.setFs (aCrpLqBind port bank (o / 8)) [(F.crpLqBind_stream, w), (F.crpLqBind_valid, w / 2 ^ 12)]
  else s.setF (aStreamTable bank (o / 16) (o / 8 % 2)) F.streamTable_word w

/-- A put binding set (R166). -/
def State.putBind (s : State) (n u ch w : Nat) : State :=
  s.setFs (aIslPutBind n u ch) [(F.islPutBind_port, w), (F.islPutBind_queue, w / 2 ^ 6), (F.islPutBind_valid, w / 2 ^ 12)]

/-- A load record's data written to its target (R105, R166, R185, R198, R256, R274, R275). -/
def State.loadData (s : State) (r : Nat) (bs : List Byte) : State :=
  let n := recIsland r
  let u := recUnit r
  let first := recFirst r
  let ws := words64 (bs.length / 8) bs
  match recKind r with
  | 0 =>
    let s := s.store (s.tileBase n u + tileSize + 16 * first) bs 0
    s.setCore n u { s.core n u with exec := some { first := recExecFirst r, last := recExecLast r, entry := recEntry r } }
  | 1 => s.putWords (2 * first) ws fun s i w => s.setF (aRouteTable n (u - 960) (i / 2) (i % 2)) F.routeTable_word w
  | 2 =>
    let cl := u - 960
    let s := s.putWords (2 * first) ws fun s i w => s.setF (aProgramStore n cl (i / 2) (i % 2)) F.programStore_word w
    let c := s.cluster n cl
    s.setCluster n cl { c with loaded := max c.loaded (first + recCount r) }
  | 3 => s.putWords 0 ws fun s i w => s.putBind n u i w
  | 4 =>
    let table := bitsAt u 6 4
    let s := s.openBank n table
    let b := s.loadBank n table
    s.putWords (2 * (2048 * bitsAt u 0 6 + first)) ws fun s i w => s.putTableWord n table b (8 * i) w
  | _ =>
    let ds := (List.range (bs.length / 32)).map fun i => natOfBytes ((bs.drop (32 * i)).take 32)
    let descs := (ds.zipIdx (1024 * n + first / 2)).foldl (fun t p => Tbl.set 0 t p.2 p.1) s.tier.descs
    ({ s with tier := { s.tier with descs := descs } }).setEngine n { s.engine n with entry := recEntry r }

/-- LOAD_RECORD_RUN: a field controller runs a load record of the next breath whose turn it is (R200); its data is read and
written to its target. An uncorrectable line fails the record, and the boundary is then not taken (R248). -/
def execLoadRecordRun (index : Nat) (ecc : Eccs) (s : State) : Out :=
  let r := s.loadRecord index
  if s.hasImage ∧ !s.brt.aborted ∧ index < s.loadTotal ∧ !s.brt.loadsDone.contains index ∧ s.targetReady r ∧ s.earlierDone index then
    match s.readPieces ecc (pieces (recSrc r) (16 * recCount r)) with
    | (s1, none) => .next s1
    | (s1, some bs) =>
      let s2 := s1.loadData r bs
      let s2 := { s2 with brt := { s2.brt with loadsDone := s2.brt.loadsDone ++ [index] } }
      .next (if recKind r < 4 then s2.setFlag (aIslBreath (recIsland r)) F.islBreath_loadsDone (s2.islandLoaded (recIsland r)) else s2)
  else .next s

/-! ### Patches -/

/-- The patches active in the next breath. -/
def State.activePatches (s : State) : List Nat := (s.fab.patches.filter fun p => decide (p.2 ≤ s.brt.next)).map Prod.fst

/-- Whether a record fits the next breath's table entry (R294). -/
def State.patchFits (s : State) (r : Nat) : Bool := r.testBit 35 || decide (bitsAt r 19 16 = s.brt.nextEntry)

/-- The bank that is active in the next breath (R275). -/
def State.nextBank (s : State) (port table : Nat) : Nat :=
  let b := s.loadBank port table
  if s.fab.written.contains (tableId port table) then b else 1 - b

/-- One patch record applied to the tables of the next breath (R295); a full patch list takes no more (DESIGN CHOICE, log 150). -/
def State.applyRecord (s : State) (r : Nat) : State :=
  let c := r / 2 ^ 128
  match bitsAt r 0 4 with
  | 1 =>
    let p := bitsAt r 36 6
    match (List.range 4096).find? fun i => decide (s.getF (aPatchList p i) F.patchList_word = 0) with
    | some i => s.setF (aPatchList p i) F.patchList_word c
    | none => s
  | 2 =>
    let k := bitsAt r 36 12
    let b := s.nextBank 0 2
    (s.setF (aStreamTable b k 0) F.streamTable_word c).setF (aStreamTable b k 1) F.streamTable_word (c / 2 ^ 64)
  | 3 => s.putBind (bitsAt r 36 9) (bitsAt r 45 10) (bitsAt r 55 3) c
  | 4 => s.putTableWord (bitsAt r 36 6) 1 (s.nextBank (bitsAt r 36 6) 1) (8 * bitsAt r 42 6) c
  | _ => s

/-- The bank a record goes to, for the rule that no patch is applied twice to one bank (R295). -/
def State.recordBank (s : State) (r : Nat) : Option Nat :=
  match bitsAt r 0 4 with
  | 2 => some (2 * 128 + s.nextBank 0 2)
  | 4 => let p := bitsAt r 36 6; some (2 * tableId p 1 + s.nextBank p 1)
  | _ => none

/-- The active patches applied at a boundary (R295): the patch lists are rebuilt; descriptors and bindings go to the bank of
the next breath, once for each patch and bank. -/
def State.applyPatches (s : State) : State :=
  let s := (List.range numPorts).foldl (fun s p => s.clearSpan (aPatchList p 0) (8 * 4096)) s
  s.activePatches.foldl (fun s key =>
    let rs := (s.patchRecords key).filter s.patchFits
    let due := rs.filter fun r => match s.recordBank r with
      | some b => !s.fab.applied.contains (key, b)
      | none => true
    let banks := (rs.filterMap s.recordBank).eraseDups
    let s := due.foldl (fun s r => s.applyRecord r) s
    { s with fab := { s.fab with applied := s.fab.applied ++ (banks.map fun b => (key, b)).filter fun x => !s.fab.applied.contains x } }) s

/-- The overlays of the next breath: lengths and checks of the fitting kind-0 records (R294, R295). -/
def State.overlays (s : State) : List (Nat × Nat) :=
  s.activePatches.flatMap fun key =>
    (((s.patchRecords key).filter s.patchFits).filter fun r => decide (bitsAt r 0 4 = 0)).map fun r =>
      (bitsAt r 128 24, bitsAt r 160 32)

/-- Length and check position of the next breath: its entry's, or the largest length and the smallest check of its overlays
(R295). -/
def State.nextTimes (s : State) : Nat × Nat :=
  match s.overlays with
  | [] => (entLength (s.breathEntry s.brt.nextEntry), entCheck (s.breathEntry s.brt.nextEntry))
  | o :: l => l.foldl (fun m x => (max m.1 x.1, min m.2 x.2)) o

/-! ### Boundaries -/

/-- Condition 4 of R204: no setpoint stop is due at this boundary; one that the next entry names stays due until its ramp has ended and it
has been taken (R231). -/
def State.setpointSettled (s : State) : Bool := s.stopTarget.isNone

/-- The crossing residue of an island (R205): the mask of its inbound queues that hold an entry. -/
def State.residueOf (s : State) (n : Nat) : Nat :=
  (((List.range 16).filter fun q => !(Tbl.get [] (s.island n).inbound q).isEmpty).map fun q => 2 ^ q).sum

/-- The examination of every crossing queue (R205): an entry left over is an unplanned fault of the island that reads it. Every queue is
looked at before the first of those faults empties queues (R235). -/
def State.examine (s : State) : State :=
  let found := (s.allIslands.map fun n => (n, s.residueOf n)).filter fun p => decide (p.2 ≠ 0)
  found.foldl (fun s p =>
    (s.setFs (aIslResidue p.1) [(F.islResidue_queues, p.2), (F.islResidue_valid, 1)]).islandFault p.1 0 1)
    { s with brt := { s.brt with examined := true } }

/-- Tags sent by every port with an encrypted direction at a step's end (R462). -/
def State.boundaryTags (s : State) : State :=
  (List.range numPorts).foldl (fun s p => s.sendTag p) s

/-- A withdrawal goes on once its requests are resolved and no breath is under way (R495, steps 2 to 4): the withdraw notices of a member name
a closing beat 10 ms ahead, and the package starts no further breath. -/
def State.tryWithdraw (s : State) : State :=
  if s.flag aBocState F.bocState_withdrawing && s.boc.closeAt.isNone && decide (s.getF aGmuTrack F.gmuTrack_open = 0) &&
      (!s.brt.running || s.brt.taken) then
    let close := s.beat + nsBeat 10000000
    let m := s.msgOf 0x71 [(24, s.self), (40, close.toNat / 65536), (88, if s.brt.job then 1 else 0)]
    let near := (((List.range 6).map s.neighbour).filter fun p => s.isMember p && decide (p ≠ s.self ∧ p ≠ s.lead)).eraseDups
    let s := if s.flag aBocState F.bocState_admitted then near.foldl (fun s p => s.sendTo p m) (s.sendTo s.lead m) else s
    { s with boc := { s.boc with closeAt := some close }, brt := { s.brt with running := false } }.endJob
  else s

/-- A tag freed by a restart (R408, R426): an open or discarded one becomes free, a sweeping one goes on. -/
def State.freeTag (s : State) (t : Nat) : State :=
  if s.tagState t = 1 ∨ s.tagState t = 3 then s.setF (aFltTag t) F.fltTag_state 0 else s

/-- Every open or discarded tag freed. -/
def State.freeTags (s : State) : State := ((s.freeTag 1).freeTag 2).freeTag 3

/-! ### Shadow replay -/

/-- Bytes of memory as the key in force gives them (R247). -/
def State.plainBytes (s : State) (a n : Nat) : List Byte :=
  (pieces a n).flatMap fun p =>
    match s.region p.1 with
    | .lpddr => ((bytesOfNat 64 (s.lpLine p.1).toNat).drop (p.1 % 64)).take p.2
    | _ => s.readBytes p.1 p.2

/-- The region digest (R416): SHA3-256 over the digests of the image's digest regions, in their order. -/
def State.regionDigest (s : State) : BitVec 256 :=
  sha3_256 ((List.range s.boc.regions.2).flatMap fun i =>
    let a := s.boc.regions.1 + 16 * i
    bytesOfNat 32 (sha3_256 (s.plainBytes (s.readNat a 8) (s.readNat (a + 8) 8))).toNat)

/-- The package digest of a step (R416). -/
def State.packageDigest (s : State) (step : Nat) : BitVec 256 :=
  sha3_256 (bytesOfNat 32 s.regionDigest.toNat ++ bytesOfNat 32 (Tbl.get 0 s.fab.digests (tagOf step)).toNat)

/-- A digest sent to the lead in four messages (R417, R425). -/
def State.sendDigest (s : State) (step : Nat) (d : BitVec 256) (replayer : Bool) : State :=
  (List.range 4).foldl (fun s k =>
    s.sendTo s.lead (s.msgOf 0x26 [(24, step % 2 ^ 32), (56, k), (58, d.toNat / 2 ^ (64 * k) % 2 ^ 64), (122, if replayer then 1 else 0)])) s

/-- A replayer stands by again (R414): what it ran is dead, and its tags are free. -/
def State.endReplay (s : State) : State :=
  let s := (s.freeTags.setF aFltState F.fltState_replaying 0).setF aTimTrigState F.timTrigState_armed 0
  { s with
    rcv := { s.rcv with shadow := none, folds := false }
    brt := { BreathSt.reset with job := s.brt.job, aborted := s.brt.aborted, step := s.committed } }

/-- The boundary is taken: the step ends, a commit is applied, the last breath ends the job, requested island resets are carried
out, patches apply, the trigger is armed with the next start, and the registers of the boundary are brought up to date (R28,
R204, R234, R295, R407, R410, R435). -/
def State.takeBoundary (s : State) : State :=
  let e := s.curEntry
  if s.replays ∧ entStepEnd e then
    -- the replayer has run the step: its digest goes to the lead (R417)
    (s.sendDigest s.brt.step (s.packageDigest s.brt.step) true).endReplay
  else
  let s := { s with brt := { s.brt with taken := true } }
  let s := if entStepEnd e ∧ s.committed < s.brt.step then
      let causes := s.getF aFltSusp F.fltSusp_newer
      let s := if causes = 0 then s else s.event 6 0x50 0 0 causes
      s.boundaryTags.stepReport s.brt.step causes
    else s
  let s := s.takeCommit
  let s := (s.allIslands.filter fun n => s.flag (aIslReset n) F.islReset_pending).foldl (fun s n => s.resetIsland n) s
  let s := if entLast e then
      let s := s.allIslands.foldl (fun s n => s.setF (aIslBreath n) F.islBreath_state 0) s
      { s with brt := { s.brt with running := false } }.endJob
    else
      let s := s.applyPatches
      s.armTrigger s.tNext.toNat
  let s := if s.brt.stopping then { s with brt := { s.brt with stopping := false } }.sendAll
      (s.msgOf 0x29 [(32, s.brt.next), (96, 8)]) else s
  s.showPending.tryWithdraw.showUnits.updatePorts.updateHealth

/-- PACKAGE_BOUNDARY: when its breath has completed with every free indication back, the package examines the crossing queues; once
trackers, loads and setpoint stops have finished as well it takes the boundary (R38, R204, R205). -/
def execPackageBoundary (s : State) : Out :=
  let complete := s.allIslands.all fun n =>
    !s.incomplete n && (s.island n).taken.all fun p => p.2.all fun f => f.old || f.arrived
  if !s.brt.running || s.brt.taken || s.brt.aborted || !complete then .next s
  else
    let s1 := if s.brt.examined then s else s.examine
    if s1.brt.aborted ∨ s1.getF aGmuTrack F.gmuTrack_open ≠ 0 then .next s1
    else if (entLast s1.curEntry ∨ s1.loadsFinished) ∧ s1.setpointSettled then .next s1.takeBoundary
    else .next s1

/-! ### Breath starts -/

/-- A core at cycle 0 (R202): with an executable range it issues from its entry address, in a test breath it does not; test
breaths leave its registers as after island reset (R423). -/
def Core.startBreath (c : Core) (test : Bool) : Core :=
  let c := if test then
      { Core.reset with chans := c.chans, trk := c.trk, counting := c.counting, exec := c.exec }
    else c
  match c.exec with
  | some x => if test then { c with run := .idle } else { c with run := .issuing, pc := x.entry, group := 0 }
  | none => { c with run := .idle }

/-- A switch at cycle 0 (R185, R187): at word 0, ended when nothing is loaded. -/
def Cluster.startBreath (c : Cluster) (test : Bool) : Cluster :=
  { c with word := none, pc := 0, next := 0, ended := test || decide (c.loaded = 0), faulted := false, mesh := [], outs := [],
           writes := [], reads := [], served := [] }

/-- An island begins cycle 0 of breath `k` (R202): its counts and its breath registers. -/
def State.startIsland (s : State) (n k : Nat) (test : Bool) : State :=
  let x := s.island n
  let s := s.setIsland n { x with cyc := 0, lag := 0, cyc0 := 0, lag0 := 0, waitMax := none, stalls := [], stallRun := 0, skip := none,
                                  resume := false, halted := false, landed := false,
                                  taken := Tbl.update [] (fun _ l => l.map fun f => { f with old := true }) x.taken }
  let s := s.setFs (aIslBreath n) [(F.islBreath_index, k), (F.islBreath_state, 1), (F.islBreath_complete, 0), (F.islBreath_loadsDone, 0)]
  let s := s.clearFs (aIslSusp n) [F.islSusp_reason, F.islSusp_unit, F.islSusp_count, F.islSusp_valid]
  (List.range 16).foldl (fun s cl =>
    let c := (s.cluster n cl).startBreath test
    (s.setCluster n cl c).setF (aIslSwStatus n cl) F.islSwStatus_state (if c.ended then 0 else 1)) s

/-- Tables whose inactive bank was written switch (R275). -/
def State.switchBanks (s : State) : State :=
  let flip := fun (s : State) (a : Nat) (f : Fld) => s.setF a f (1 - s.getF a f)
  let s := s.fab.written.foldl (fun s id =>
    if id = 128 then flip s aCrpFabric F.crpFabric_streamBank
    else if id < 64 then flip s (aCrpConfig id) F.crpConfig_slotBank
    else flip s (aCrpConfig (id - 64)) F.crpConfig_lqBank) s
  { s with fab := { s.fab with written := [] } }

/-- Whether a test breath runs packs now (R423): the manifest's interval has passed. -/
def State.tonesDue (s : State) : Bool :=
  match s.manifest with
  | some m => decide (m.toneHours ≠ 0 ∧ s.rcv.toneMin + 60 * m.toneHours ≤ s.getF aFltLedger F.fltLedger_minutes)
  | none => false

/-- Long tones run on every physical unit (R423): the units on which a record of a pack gives another result than expected are
a free value of the run, and each has a reproduced fault and is retired (R401, R403). -/
def State.runTones (s : State) (packs : List Pack) : State :=
  packs.foldl (fun s p =>
    let bad := Config.toneFaults p.number s.fresh
    let s := { s with fresh := s.fresh + 1 }
    bad.foldl (fun s u => (s.ledgerRecord 3 6 u p.number).retireUnit u 6 p.number) s) s

/-- The packs of a scheduled run (R422): use 0 or 2. -/
def State.scheduledPacks (s : State) : List Pack := s.boc.packs.filter fun p => decide (p.use ≠ 1)

/-- Breath `k` starts (R201, R202, R231, R261, R264, R271, R275, R408, R423). -/
def State.startBreath (s : State) : State :=
  let k := s.brt.next
  let i := s.brt.nextEntry
  let e := s.breathEntry i
  let (len, check) := s.nextTimes
  let tk := BitVec.ofNat 64 (s.getF aTimTrig F.timTrig_beat)
  let test := entTest e
  let s := s.switchBanks
  let s := { s with
    brt := { s.brt with running := true, entry := i, start := tk, check := check, next := k + 1, nextEntry := entNext e, loadsDone := [],
                        taken := false, examined := false, checked := false, missed := false, asked := none },
    tier := { s.tier with owners := [] },
    ports := Tbl.update Port.reset (fun _ x => { x with used := none }) s.ports }
  let s := (s.setF aBocBreath F.bocBreath_index k).setF aBocTNext F.bocTNext_beat (tk + nsBeat len).toNat
  let s := if s.brt.stepFirst then
      let n := s.brt.step + 1
      let s := { s with brt := { s.brt with step := n } }
      -- a step run again to regenerate committed state opens no tag (R430)
      if s.committed < n then (s.setF aFltState F.fltState_recovery 0).openStep n i else s
    else s
  let s := { s with brt := { s.brt with stepFirst := entStepEnd e } }
  let s := { s with cores := Tbl.update Core.reset (fun _ c => c.startBreath test) s.cores }
  let s := s.allIslands.foldl (fun s n => s.startIsland n k test) s
  let s : State := if test && s.tonesDue then
      let s := s.runTones s.scheduledPacks
      { s with rcv := { s.rcv with toneMin := s.getF aFltLedger F.fltLedger_minutes } }
    else s
  (s.showPending.grantCredits.setF aBocState F.bocState_step 12).updateHealth

/-- TRIGGER_FIRE: the armed trigger disarms and counts; when a breath of the job is due and the package is ready, the breath starts
(R202, R392); a package that is not ready, or whose trigger was armed late, has missed the start (R206, R392). -/
def execTriggerFire (s : State) : Out :=
  if !s.flag aTimTrigState F.timTrigState_armed then .next s
  else
    let s := (s.setF aTimTrigState F.timTrigState_armed 0).wrapAdd aTimTrigState F.timTrigState_fired 1
    if !s.brt.job || !s.hasImage || s.brt.aborted || s.brt.missed then .next s
    else if s.replays && !(if s.brt.running then s.brt.taken else s.loadsFinished && s.namedSettled) then
      -- a replayer's start waits for its loads and its breath (log 166)
      let t := (s.beat + nsBeat 1000000).toNat
      .next ((s.setF aBocTNext F.bocTNext_beat t).armTrigger t)
    else if s.pins.lateArm then .next (s.missStart s.brt.next)
    else if s.brt.running then (if s.brt.taken then .next s.startBreath else .next s)
    else if s.loadsFinished ∧ s.namedSettled then .next s.applyPatches.startBreath
    else .next (s.missStart s.brt.next)

/-! ### Patch orders -/

/-- PATCH_ORDER: the link's patch is active from the named breath for the rest of the job; an order at or after the package's
own start is a missed start (R296, R297). An order that comes after the boundary has been taken is applied at once (R295). -/
def execPatchOrder (msg : Msg) (s : State) : Out :=
  let s := s.takeMsg msg
  if !s.brt.job then .next s
  else
    let b := msgBits msg 32 64
    let key := msgBits msg 96 19
    if !s.brt.aborted && !s.replays && (decide (b < s.brt.next) || (decide (b = s.brt.next) && beatReached s.beat s.tNext)) then .next (s.missStart b)
    else if s.fab.patches.any fun p => decide (p.1 = key) then .next s
    else
      let s := (s.activate key b).setF aCrpPatchLog F.crpPatchLog_last key
      .next (if s.brt.taken then s.applyPatches else s)

end Sys2Proof.Machine
end

