-- ==== Sys2Proof/Machine/Time.lean ====
section
/-! DEFINITION. Beat time (R375 to R393): the accumulator and its steering, the reference clocks, the time tree, and the timed
launch entries. -/

namespace Sys2Proof.Machine

/-! ### The counter -/

/-- The answer of a control-space write. -/
def State.busDone (s : State) (err : Bool) : State := { s with bus := ⟨err, 0⟩ }

/-- A value TIM_INCR accepts (R377). -/
def incrOk (v : Nat) : Bool := decide (27460302903 ≤ v ∧ v ≤ 27515278485)

/-- Whether a slice is admitted (R378, R487). -/
def State.admitted (s : State) : Bool := s.flag aBocState F.bocState_admitted

/-- TIM_INCR_WRITE: the increment from the next tick on; values outside ±1,000 ppm are reserved encodings (R377, R13). -/
def execTimIncrWrite (value : Word) (s : State) : Out :=
  let v := bitsAt value.toNat 0 40
  if incrOk v then .next ((s.setF aTimIncr F.timIncr_incr v).busDone false) else .next (s.busDone true)

/-- TIM_PHASE_WRITE: a signed step for the next tick; refused while a slice is admitted (R378). -/
def execTimPhaseWrite (value : Word) (s : State) : Out :=
  if s.admitted then .next (s.busDone true)
  else .next ({ s with pins := { s.pins with phase := some value } }.busDone false)

/-- TIM_TRIG_WRITE: the trigger is armed with a beat (R392). -/
def execTimTrigWrite (value : Word) (s : State) : Out := .next ((s.armTrigger value.toNat).busDone false)

/-- REFERENCE_CLOCK_TICK: the accumulator adds the increment and a pending phase step (R376 to R378). -/
def execReferenceClockTick (s : State) : Out :=
  if s.pins.power ≠ .on then .next s
  else
    let acc := s.beatAcc + BitVec.ofNat 80 (s.getF aTimIncr F.timIncr_incr)
    match s.pins.phase with
    | some step =>
      .next ({ s with beatAcc := acc + step.signExtend 80 <<< 16, pins := { s.pins with phase := none } }.bump aTimStatus
        F.timStatus_steps 1)
    | none => .next { s with beatAcc := acc }

/-- REFCLK_FAIL: the selected reference clock fails: the package takes the other, marks the failed one and writes an event
(R379). -/
def execRefclkFail (clock : Nat) (s : State) : Out :=
  if clock < 2 then
    if s.getF aTimStatus F.timStatus_refclk = clock then
      let s := s.setFs aTimStatus [(F.timStatus_refclk, 1 - clock),
        (F.timStatus_refclkFail, s.getF aTimStatus F.timStatus_refclkFail ||| 2 ^ clock)]
      .next (s.event 5 0x40 0 0 clock)
    else .next s
  else .fault .absentUnit

/-- HOLDOVER_TIMEOUT: the time root has had no steer for 10 s (R385). -/
def execHoldoverTimeout (s : State) : Out :=
  if s.flag aTimStatus F.timStatus_root then .next (s.setF aTimStatus F.timStatus_holdover 1) else .next s

/-! ### The time tree -/

/-- A list of offsets in rising order. -/
def insertSorted (x : Int) : List Int → List Int
  | [] => [x]
  | y :: l => if x ≤ y then x :: y :: l else y :: insertSorted x l

/-- The lower median of a list (notes/assumptions/40.md). -/
def median (l : List Int) : Int := (l.foldl (fun t x => insertSorted x t) []).getD ((l.length - 1) / 2) 0

/-- Whether a port can be a parent port (R388): its link is up, it is not fenced, and its peer has sent a time exchange. -/
def State.timePort (s : State) (p : Nat) : Bool := s.linkUp p && !s.fenced p && (s.port p).peer.isSome

/-- The root a port's peer reports and its depth; 0xFF is none (R386). -/
def State.peerRoot (s : State) (p : Nat) : Nat × Nat :=
  match (s.port p).peer with
  | some t => (t.root, t.depth)
  | none => (0, 0xFF)

/-- The direction one hop toward the root (R388). -/
def State.rootDir (s : State) (root : Nat) : Option Nat :=
  ((List.range 3).find? fun a => decide (coordOn a s.self ≠ coordOn a root)).map fun a =>
    2 * a + (if (s.productive a root).1 then 0 else 1)

/-- The parent port (R388): in the root's direction the lowest port that reports the same root, else the port whose peer reports
the smallest depth. -/
def State.parentPort (s : State) (root : Nat) : Option Nat :=
  let direct := match s.rootDir root with
    | some d => ((List.range 8).map fun k => 8 * d + k).find? fun p => s.timePort p && decide ((s.peerRoot p).1 = root)
    | none => none
  match direct with
  | some p => some p
  | none =>
    ((List.range numPorts).filter s.timePort).foldl (fun best p =>
      match best with
      | some b => if (s.peerRoot p).2 < (s.peerRoot b).2 then some p else some b
      | none => some p) none

/-- Depth by the parent's depth (R388): one more, or none beyond 40. -/
def depthFrom (d : Nat) : Option Nat := if d < 40 then some (d + 1) else none

/-- The increment after an update (R389): the change that removes the offset over 4 ms, held to 20 ppm and to the range of R377. -/
def steered (incr : Nat) (offset : Int) : Nat :=
  let want := -((incr : Int) * offset).tdiv (4000000 * 65536)
  let cap : Int := (incr : Int) * 20 / 1000000
  let step := max (-cap) (min cap want)
  (max 27460302903 (min 27515278485 ((incr : Int) + step))).toNat

/-- The lock after an update with median `m` (R390): eight updates within 0.05 ns lock it, two beyond 0.1 ns release it; losing it
during a job writes an event. Offsets count 2⁻¹⁶ ns. -/
def State.updateLock (s : State) (m : Int) (deep : Bool) : State :=
  let near := decide (m.natAbs * 20 ≤ 65536)
  let far := decide (65536 < m.natAbs * 10)
  let good := if near then s.pins.good + 1 else 0
  let bad := if far then s.pins.bad + 1 else 0
  let was := s.flag aTimStatus F.timStatus_locked
  let now := !deep && (if was then decide (bad < 2) else decide (8 ≤ good))
  let s := { s with pins := { s.pins with good := min good 8, bad := min bad 2 } }
  let s := s.setFlag aTimStatus F.timStatus_locked now
  if was ∧ !now ∧ s.brt.job then s.event 5 0x41 0 0 (m % 2 ^ 32).toNat else s

/-- TIME_STEER_UPDATE: a member takes the median of its parent port's samples, steers its increment, steps its phase while it is not
admitted and more than 1 µs off, and judges its lock (R388 to R391). The root does not steer itself. -/
def execTimeSteerUpdate (s : State) : Out :=
  let clear := fun (s : State) => { s with ports := Tbl.update Port.reset (fun _ x => { x with samples := [] }) s.ports }
  match s.manifest with
  | none => .next (clear s)
  | some _ =>
    if s.flag aTimStatus F.timStatus_root then .next (clear s)
    else
      let root := s.getF aTimStatus F.timStatus_rootIndex
      match s.parentPort root with
      | none =>
        .next (clear (s.setFs aTimStatus [(F.timStatus_parent, 0x3F), (F.timStatus_depth, 0x3F), (F.timStatus_locked, 0), (F.timStatus_holdover, 1)]))
      | some p =>
        let x := s.port p
        let s := s.setF aTimStatus F.timStatus_parent p
        let depth := depthFrom (s.peerRoot p).2
        let s := s.setF aTimStatus F.timStatus_depth (match depth with | some d => d | none => 0x3F)
        if x.samples.isEmpty then .next (clear s)
        else
          let m := median (x.samples.map fun t => t.offset.toInt)
          let d := median (x.samples.map fun t => t.delay.toInt)
          let s := s.setFs aTimOffset [(F.timOffset_offset, (m % 2 ^ 32).toNat), (F.timOffset_delay, (d % 2 ^ 32).toNat)]
          let s := s.setF aTimIncr F.timIncr_incr (steered (s.getF aTimIncr F.timIncr_incr) m)
          let s := s.setF aTimStatus F.timStatus_holdover 0
          let s := if !s.admitted ∧ 65536000 < m.natAbs then
              { s with pins := { s.pins with phase := some (BitVec.ofInt 64 (-m)) } }
            else s
          .next (clear (s.updateLock m depth.isNone))

/-! ### Timed launches -/

/-- TLQ_ARM: a write to TIM_TLQ_CTL arms an entry; while it is armed, a write that clears arm cancels it and any other is refused
(R393). -/
def execTlqArm (port entry : Nat) (value : Word) (s : State) : Out :=
  if port < numPorts ∧ entry < 4 then
    let a := aTimTlqCtl port entry
    let arm := value.getLsbD 16
    if s.flag a F.timTlqCtl_arm ∧ arm then .next (s.busDone true)
    else
      let v := value.toNat
      let s := s.setFs a [(F.timTlqCtl_dest, v), (F.timTlqCtl_bcast, v / 2 ^ 14), (F.timTlqCtl_local, v / 2 ^ 15), (F.timTlqCtl_arm, v / 2 ^ 16)]
      .next ((if arm then s.setF a F.timTlqCtl_sent 0 else s).busDone false)
  else .fault .absentUnit

end Sys2Proof.Machine
end

