-- ==== Sys2Proof/Machine/Power.lean ====
section
/-! DEFINITION. Power control, the management power limit, the input monitor and open-fibre control (R519, R522, R526, R533,
R539). -/

namespace Sys2Proof.Machine

/-- BOC_POWER_CFG_WRITE: the management power limit; values outside 300–1,250 are reserved (R539, R13). -/
def execBocPowerCfgWrite (value : Word) (s : State) : Out :=
  let v := bitsAt value.toNat 0 16
  if v < 300 ∨ 1250 < v then .next (s.busDone true)
  else .next ((s.setF aBocPowerCfg F.bocPowerCfg_limit v).busDone false)

/-- The coolant derating's limit in 10 W (R526): by inlet temperature in 0.1 °C, scaled for flows from 16 to 20 L/min, which are
counted in 0.01 L/min. -/
def deratedLimit (inlet flow : Nat) : Nat :=
  if 450 < inlet ∨ flow < 1600 then Config.unsupportedLimit inlet flow
  else
    let base := if inlet ≤ 350 then 1250 else if inlet ≤ 400 then 1100 else 900
    if flow < 2000 then base * flow / 2000 else base

/-- The module's measurements (R526, R539): coolant and input voltage. -/
def State.measure (s : State) : State :=
  let c := (Config.coolant s.fresh).toNat
  let s1 := s.setFs aBocCoolant [(F.bocCoolant_inlet, c), (F.bocCoolant_outlet, c / 2 ^ 16), (F.bocCoolant_flow, c / 2 ^ 32),
    (F.bocCoolant_drop, c / 2 ^ 48)]
  let s1 := s1.setF aBocPower F.bocPower_inputVoltage (Config.inputVoltage s.fresh).toNat
  { s1 with fresh := s.fresh + 1 }

/-- Power control's request (R522): one step down over the limit, one up after 10 s below 90 % of it. -/
def State.controlPower (s : State) (average limit : Nat) : State :=
  let cur := s.getF aBocSetpoint F.bocSetpoint_current
  let imin := s.getF aBocSetpoint F.bocSetpoint_imageMin
  let cool := if 10 * average < 9 * limit then min (s.pins.cool + 1) 10 else 0
  let s := { s with pins := { s.pins with cool := cool } }
  if limit < average then
    if imin < cur then (s.requestSetpoint (cur - 1)).setF aBocPower F.bocPower_lowered (if cur - 1 < s.pins.ceiling then 1 else 0)
    else s
  else if cool = 10 ∧ cur < s.pins.ceiling then
    (s.requestSetpoint (cur + 1)).setF aBocPower F.bocPower_lowered (if cur + 1 < s.pins.ceiling then 1 else 0)
  else s

/-- POWER_CONTROL_UPDATE: the average input power of the past second, in 10 W, and the limit in force; while a job runs the
setpoint follows (R522, R526). -/
def execPowerControlUpdate (average : Nat) (s : State) : Out :=
  let s := s.measure
  let cfg := s.getF aBocPowerCfg F.bocPowerCfg_limit
  let der := deratedLimit (s.getF aBocCoolant F.bocCoolant_inlet) (s.getF aBocCoolant F.bocCoolant_flow)
  let limit := min cfg der
  let s := s.setFs aBocPower [(F.bocPower_inputPower, average), (F.bocPower_limit, limit), (F.bocPower_derated, if der < cfg then 1 else 0)]
  .next (if s.brt.job then s.controlPower average limit else s)

/-- LOW_INPUT: the input has been below 40 V for 1 ms (R519). -/
def execLowInput (s : State) : Out :=
  if s.pins.power = .on then .next (s.setF aBocPower F.bocPower_lowInput 1) else .next s

/-- OPEN_FIBRE_CONTROL: with signal on four receivers for 1 ms a port's transmitters go to full power, and without it back to the
reduced level; loss of signal and the powers measured show in LNK_WL_OPT (R532, R533). -/
def execOpenFibreControl (port : Nat) (signals : BitVec 9) (s : State) : Out :=
  if port < numPorts then
    let full := if 4 ≤ ((List.range 9).filter fun w => signals.getLsbD w).length then 1 else 0
    let s1 := (List.range 9).foldl (fun s w =>
      let p := (Config.opticalPower port w s.fresh).toNat
      s.setFs (aLnkWlOpt port w) [(F.lnkWlOpt_rxPower, p), (F.lnkWlOpt_txPower, p / 2 ^ 16), (F.lnkWlOpt_full, full),
        (F.lnkWlOpt_los, if signals.getLsbD w then 0 else 1)]) s
    .next { s1 with fresh := s.fresh + 1 }
  else .fault .absentUnit

end Sys2Proof.Machine
end

