-- ==== Sys2Proof/Machine/Registers.lean ====
section
/-! DEFINITION. The control space (R8 to R13, R238, R239): which register lies at an address, what it reads as, and what a write
does, for the bus of the Bocal, for management, and for packets. The valve map image (R398) lies here too. -/

namespace Sys2Proof.Machine

/-! ### Which register lies at an address -/

/-- The register at an offset of a map. -/
def regIn (l : List (Nat × RegName)) (o : Nat) : Option RegName := (l.find? fun p => decide (p.1 = o)).map Prod.snd

/-- The island registers at single offsets (R94, R183, R236). -/
def islandMap : List (Nat × RegName) :=
  [(0x0, .islBreath), (0x8, .islProgress), (0x10, .islClock), (0x18, .islStretch), (0x20, .islOverrun), (0x28, .islThrottle),
   (0x30, .islReset), (0x38, .islResidue), (0x200, .islStallCnt), (0x208, .islStallCause), (0x210, .islStallLast),
   (0x218, .islStallFirst), (0x220, .islStallLimit), (0x228, .islMbxHold), (0x240, .islRmemLog), (0x248, .islSusp),
   (0x250, .islWaitLate)]

/-- The register at an offset of an island block (R118, R166, R176, R185, R229, R236). -/
def islandReg (o : Nat) : Option RegName :=
  if o < 0x1000 then regIn islandMap o
  else if o < 0x8800 then
    match o % 32 with
    | 0 => some .islCoreFault
    | 8 => some .islCoreEcc
    | 16 => some .islCoreIssue
    | _ => none
  else if 0xC000 ≤ o ∧ o < 0xC800 then some .islSync
  else if 0xE000 ≤ o ∧ o < 0xED00 then some .islCalib
  else if 0x20000 ≤ o ∧ o < 0x2F000 then some .islPutBind
  else if 0x100000 ≤ o then
    let w := o % 0x10000
    if w < 0x1000 then some .routeTable
    else if w = 0x1000 then some .islSwStatus
    else if 0x8000 ≤ w then some .programStore
    else none
  else none

/-- The register at an offset of a field block (R268). -/
def fieldReg (o : Nat) : Option RegName :=
  if o = 0 then some .fldChannels
  else if o = 8 then some .fldStgEcc
  else if 0x100 ≤ o ∧ o < 0x180 then some .fldChEcc
  else if 0x180 ≤ o ∧ o < 0x200 then some .fldChState
  else if 0x1000 ≤ o ∧ o < 0x1200 then
    match o % 32 with
    | 0 => some .stmStatus
    | 8 => some .stmFault
    | 16 => some .stmMoved
    | _ => some .stmWaited
  else if 0x8000 ≤ o ∧ o < 0x8800 then some .stmCtr
  else none

/-- The port registers at single offsets (R301, R344). -/
def portMap : List (Nat × RegName) :=
  [(0x0, .crpConfig), (0x8, .crpDelay), (0x10, .crpLate), (0x18, .crpArrive), (0x20, .crpFault), (0x8000, .lnkState),
   (0x8008, .lnkLanes), (0x8010, .lnkRtt), (0x8018, .lnkReplay), (0x8020, .lnkParity), (0x8028, .lnkCredit), (0x8030, .lnkPartner),
   (0x8038, .lnkEvents), (0x8040, .lnkCtl), (0x8200, .lnkInjCtl), (0x8208, .lnkInjDrop), (0x8210, .lnkInjParity),
   (0x8218, .lnkInjAck), (0x8220, .lnkInjReorder)]

/-- The register at an offset of a port block (R274, R301, R344). -/
def portReg (o : Nat) : Option RegName :=
  if 0x400 ≤ o ∧ o < 0x800 then some .crpLqBind
  else if 0x800 ≤ o ∧ o < 0xA00 then some .crpLqState
  else if 0x8100 ≤ o ∧ o < 0x8148 then some .lnkWlErr
  else if 0x8180 ≤ o ∧ o < 0x81C8 then some .lnkWlOpt
  else if 0x100000 ≤ o ∧ o < 0x200000 then some .slotTable
  else if 0x200000 ≤ o ∧ o < 0x208000 then some .patchList
  else regIn portMap o

/-- The register at an offset of the package fabric block (R301). -/
def fabricReg (o : Nat) : Option RegName :=
  if 0x10000 ≤ o ∧ o < 0x30000 then some .streamTable
  else if 0x30000 ≤ o ∧ o < 0x38000 then some .crpCc
  else if 0x40000 ≤ o ∧ o < 0x48000 then some .crpSeq
  else regIn [(0x0, .crpFabric), (0x8, .crpDrone), (0x10, .crpPatchDir), (0x18, .crpPatchLog), (0x20, .crpStreamErr)] o

/-- The register at an offset of the global memory unit's block (R373). -/
def gmuReg (o : Nat) : Option RegName :=
  if 0x10000 ≤ o ∧ o < 0x50000 then some .gmuRoute
  else regIn [(0x0, .gmuCfg), (0x8, .gmuSlice), (0x10, .gmuEpoch), (0x18, .gmuThrottle), (0x20, .gmuTrack), (0x28, .gmuDrop),
    (0x30, .gmuLate), (0x38, .gmuDedup), (0x40, .gmuFence)] o

/-- The register at an offset of the beat-time block (R394). -/
def timeReg (o : Nat) : Option RegName :=
  if 0x100 ≤ o ∧ o < 0x290 then some .timCorr
  else if 0x1000 ≤ o ∧ o < 0x2800 then
    match o % 32 with
    | 0 => some .timTlqBeat
    | 8 => some .timTlqCtl
    | 16 => some .timTlqMsg0
    | _ => some .timTlqMsg1
  else regIn [(0x0, .timBeat), (0x8, .timIncr), (0x10, .timPhase), (0x18, .timStatus), (0x20, .timOffset), (0x28, .timTrig),
    (0x30, .timTrigState)] o

/-- The register at an offset of the fault block (R436). -/
def faultReg (o : Nat) : Option RegName :=
  if 0x100 ≤ o ∧ o < 0x180 then some .fltSubst
  else if 0x200 ≤ o ∧ o < 0x240 then some .fltHealth
  else if 0x10000 ≤ o ∧ o < 0x50000 then some .fltEvent
  else if 0x100000 ≤ o ∧ o < 0x380000 then (if o / 8 % 1024 < 960 then some .fltCoreChk else none)
  else if 0x10000000 ≤ o ∧ o < 0x11400000 then some .fltCapture
  else regIn [(0x0, .fltState), (0x8, .fltStep), (0x10, .fltTag), (0x18, .fltTag), (0x20, .fltTag), (0x28, .fltSusp),
    (0x30, .fltThresh), (0x38, .fltRecovery), (0x40, .fltLedger), (0x48, .fltRing), (0x50, .fltSubstDir)] o

/-- The register at an offset of the Ligature's block (R470). -/
def secReg (o : Nat) : Option RegName :=
  if 0x1000 ≤ o ∧ o < 0x1400 then some .secMeas
  else regIn [(0x0, .secState), (0x8, .secCounters), (0x10, .secFwkeys), (0x18, .secAuth), (0x20, .secRefusals)] o

/-- The register at an offset of the Bocal's block (R28, R74, R237, R509, R539). -/
def bocReg (o : Nat) : Option RegName :=
  if 0x400 ≤ o ∧ o < 0x580 then some .bocDisc
  else if 0x640 ≤ o ∧ o < 0x680 then some .bocFieldTemp
  else regIn [(0x0, .bocState), (0x8, .bocResetCause), (0x10, .bocAdmit), (0x18, .bocBrq), (0x100, .bocCapacity), (0x108, .bocReproKey),
    (0x300, .bocBtable), (0x308, .bocBreath), (0x310, .bocTNext), (0x318, .bocSlip), (0x320, .bocSlipCfg), (0x328, .bocSetpoint),
    (0x330, .bocFreqLog), (0x338, .bocStartLog), (0x600, .bocPower), (0x608, .bocPowerCfg), (0x610, .bocThermal),
    (0x618, .bocCoolant)] o

/-- The register at a local address (R239), if one lies there. -/
def State.regAt (s : State) (a : Nat) : Option RegName :=
  if a % 8 ≠ 0 then none
  else if islBase 0 ≤ a then
    if a < islBase s.numIslands then islandReg ((a - islBase 0) % 0x200000) else none
  else if bocBase ≤ a then bocReg (a - bocBase)
  else if secBase ≤ a then secReg (a - secBase)
  else if fltBase ≤ a then faultReg (a - fltBase)
  else if timBase ≤ a then timeReg (a - timBase)
  else if gmuBase ≤ a then gmuReg (a - gmuBase)
  else if fabBase ≤ a then fabricReg (a - fabBase)
  else if prtBase 0 ≤ a then (if a < prtBase 48 then portReg ((a - prtBase 0) % 0x1000000) else none)
  else if fldBase 0 ≤ a ∧ a < fldBase 8 then fieldReg ((a - fldBase 0) % 0x1000000)
  else none

/-! ### The valve map -/

/-- The valve map's base address (R436). -/
def valveBase : Nat := fltBase + 0x400000
/-- The valve map's length (R398). -/
def valveSize : Nat := 667008

/-- The logical island placed on physical island `pi` of field `f`, if there is one. -/
def State.logicalIsland (s : State) (f pi : Nat) : Option Nat :=
  ((List.range s.perField).map fun i => f * s.perField + i).find? fun n => decide (s.physIsland n = pi)

/-- The physical core of logical core `k` on a physical island and cluster (R396, R397); 0xFF where none is left. -/
def State.valveCore (s : State) (f pi c k : Nat) : Nat :=
  let p := match s.logicalIsland f pi with
    | some n => s.physCore n (60 * c + k)
    | none => nthUsable 64 k fun q => !s.flt.retired.contains (unitId 2 f pi c q 0)
  if p < 64 then p else 0xFF

/-- The lane a physical core's matrix unit leaves unused (R396, R397): the seventeenth, or the one retired. -/
def State.valveLane (s : State) (q : Nat) : Nat :=
  match Tbl.get none s.flt.laneOver q with
  | some l => l
  | none =>
    let id := fun l => unitId 1 (q / 1024 / 42) (q / 1024 % 42) (q / 64 % 16) (q % 64) l
    match (List.range 17).find? fun l => s.flt.retired.contains (id l) with
    | some l => l
    | none => 16

/-- Byte `i` of the valve map image (R398). -/
def State.valveByte (s : State) (i : Nat) : Nat :=
  if i < 64 then
    match i with
    | 0 => 1
    | 2 => s.classInForce
    | 3 => s.perField
    | 4 => s.rcv.swaps % 256
    | 5 => s.rcv.swaps / 2 ^ 8 % 256
    | 6 => s.rcv.swaps / 2 ^ 16 % 256
    | 7 => s.rcv.swaps / 2 ^ 24 % 256
    | _ => 0
  else if i < 384 then
    let f := (i - 64) / 40
    let k := (i - 64) % 40
    if k < s.perField then (let p := s.physIsland (f * s.perField + k); if p < 42 then p else 0xFF) else 0xFF
  else if i < 322944 then
    let j := (i - 384) / 60
    s.valveCore (j / 16 / 42) (j / 16 % 42) (j % 16) ((i - 384) % 60)
  else s.valveLane (i - 322944)

/-- The valve map image. -/
def State.valveImage (s : State) : List Byte := (List.range valveSize).map fun i => BitVec.ofNat 8 (s.valveByte i)

/-! ### Reads -/

/-- ISL_CORE_ISSUE.state (R121): a core that issues reads as holding while its island stalls (R86). -/
def State.issueState (s : State) (n u : Nat) : Nat :=
  match (s.core n u).run with
  | .faulted => 3
  | .issuing => if (s.island n).stalls.isEmpty then 1 else 2
  | _ => 0

/-- ISL_SW_STATUS.state (R192): a switch that runs reads as holding while its island stalls (R86). -/
def State.switchState (s : State) (n cl : Nat) : Nat :=
  let k := s.getF (aIslSwStatus n cl) F.islSwStatus_state
  if k = 1 ∧ (s.island n).stalls ≠ [] then 2 else k

/-- The power state code of R520. -/
def State.powerCode (s : State) : Nat :=
  let step := s.getF aBocState F.bocState_step
  if s.brt.job then 4 else if s.admitted then 3 else if 9 ≤ step then 2 else if 2 ≤ step then 1 else 0

/-- Whether the package is throttled (R371): some request output queue holds more than 96 flits. -/
def State.throttled (s : State) : Bool :=
  (List.range numPorts).any fun p =>
    decide (96 < (((List.range 3).map fun v => (Tbl.get [] (s.port p).out v).length).sum))

/-- An entry of the calibration table (R226, R228, R229): at every setpoint up to the grade's maximum, once calibration has run, the rated
latencies of a connected queue and what was measured, which passed. -/
def State.calibEntry (s : State) (n code q : Nat) : List (Fld × Nat) :=
  if 7 ≤ s.getF aBocState F.bocState_step ∧ code ≤ s.getF aBocSetpoint F.bocSetpoint_gradeMax ∧ q < 20 then
    let m := (Config.calibration n code q).toNat
    let margin := max 5 (m / 2 ^ 8)
    if 16 ≤ q then
      [(F.islCalib_fwdMeas, min (m % 16) (ratedSide code)), (F.islCalib_retMeas, 0), (F.islCalib_fwd, ratedSide code), (F.islCalib_ret, 0),
       (F.islCalib_margin, margin), (F.islCalib_pass, 1), (F.islCalib_connected, 1), (F.islCalib_valid, 1)]
    else if (s.facing n (q / 4)).isSome then
      [(F.islCalib_fwdMeas, min (m % 16) (ratedFwd code)), (F.islCalib_retMeas, min (m / 16 % 16) (ratedRet code)),
       (F.islCalib_fwd, ratedFwd code), (F.islCalib_ret, ratedRet code), (F.islCalib_margin, margin), (F.islCalib_pass, 1),
       (F.islCalib_connected, 1), (F.islCalib_valid, 1)]
    else [(F.islCalib_pass, 1), (F.islCalib_valid, 1)]
  else []

/-- The fields of a register that the machine computes when they are read, brought up to date (R87, R121, R167, R207, R229, R364, R371, R376,
R435, R454, R520). -/
def State.refresh (s : State) (r : RegName) (a : Nat) : State :=
  let n := (a - islBase 0) / 0x200000
  let o := (a - islBase 0) % 0x200000
  match r with
  | .timBeat => s.setF a F.timBeat_beat s.beat.toNat
  | .islProgress =>
    let x := s.island n
    s.setFs a [(F.islProgress_lag, min x.lag (2 ^ 32 - 1)), (F.islProgress_position, x.cyc - x.lag)]
  | .islCoreIssue =>
    let u := (o - 0x1000) / 32
    let c := s.core n u
    s.setFs a [(F.islCoreIssue_addr, c.pc), (F.islCoreIssue_state, s.issueState n u), (F.islCoreIssue_prov, c.prov.toNat)]
  | .islSwStatus => s.setF a F.islSwStatus_state (s.switchState n ((o - 0x100000) / 0x10000))
  | .islPutBind =>
    let k := o - 0x20000
    s.setF a F.islPutBind_quarters (Tbl.get Chan.empty (s.core n (k / 64)).chans (k / 8 % 8)).quarters.length
  | .islCalib => s.setFs a (s.calibEntry n (12 + (o - 0xE000) / 0x100) (o % 0x100 / 8))
  | .gmuThrottle => s.setFlag a F.gmuThrottle_engaged s.throttled
  | .gmuDedup => s.setFs a [(F.gmuDedup_doneUsed, s.gmu.done.length), (F.gmuDedup_putUsed, s.gmu.puts.length)]
  | .bocState => s.setF a F.bocState_state s.health
  | .bocPower => s.setF a F.bocPower_state s.powerCode
  | .secState => s.setF a F.secState_sessions s.boc.sessions.length
  | _ => s

/-- The 64 bits a register reads as: write-only and reserved fields are zero (R10). -/
def State.readWord (s : State) (r : RegName) (a : Nat) : Nat :=
  let t := s.refresh r a
  (r.fields.map fun f => if f.acc = .wo then 0 else t.getF a f * 2 ^ f.lo).sum

/-- The fields that a read clears, cleared (R10). -/
def State.clearRc (s : State) (r : RegName) (a : Nat) : State :=
  s.clearFs a (r.fields.filter fun f => decide (f.acc = .rc))

/-- A read of one 64-bit word of the control space: the word, or none where nothing lies. -/
def State.ctlRead (s : State) (a : Nat) : State × Option Nat :=
  if valveBase ≤ a ∧ a < valveBase + valveSize ∧ a % 8 = 0 then
    (s, some (natOfBytes ((List.range 8).map fun i => BitVec.ofNat 8 (s.valveByte (a - valveBase + i)))))
  else
    match s.regAt a with
    | some r => (s.clearRc r a, some (s.readWord r a))
    | none => (s, none)

/-! ### Writes -/

/-- A plain write (R10): RW fields take the value, RW1C bits written with 1 clear. -/
def State.plainWrite (s : State) (r : RegName) (a : Nat) (v : Nat) : State :=
  r.fields.foldl (fun s f =>
    match f.acc with
    | .rw => s.setF a f (v / 2 ^ f.lo)
    | .rw1c => s.setF a f (s.getF a f - (s.getF a f &&& bitsAt v f.lo f.width))
    | _ => s) s

/-- Whether a value holds a reserved encoding of a plainly written register (R13, R94, R166, R373, R539). -/
def writeReserved (r : RegName) (v : Nat) : Bool :=
  match r with
  | .islStallLimit => decide (bitsAt v 0 32 = 0)
  | .islPutBind => decide (48 ≤ bitsAt v 0 6)
  | .gmuThrottle => decide (bitsAt v 1 16 = 0) || decide (bitsAt v 17 16 < 640)
  | .bocThermal => decide (bitsAt v 16 7 < 85) || decide (100 < bitsAt v 16 7)
  | _ => false

/-- Whether an island runs a breath (R166, R185). -/
def State.islandRuns (s : State) (n : Nat) : Bool := decide (s.getF (aIslBreath n) F.islBreath_state = 1)

/-- Whether a control-space write to a register is refused in the present state (R166, R176, R185, R237, R274, R374, R393, R436). -/
def State.writeRefused (s : State) (r : RegName) (a : Nat) : Bool :=
  let n := (a - islBase 0) / 0x200000
  match r with
  | .islSync => true
  | .islPutBind => s.islandRuns n
  | .routeTable => s.islandRuns n
  | .programStore => s.islandRuns n
  | .bocBtable => s.hasImage
  | .crpLqBind => true
  | .slotTable => true
  | .patchList => true
  | .streamTable => true
  | .gmuRoute => decide (s.getF aGmuEpoch (if (a - gmuBase) < 0x30000 then F.gmuEpoch_bank0 else F.gmuEpoch_bank1) ≠ 0)
  | .fltThresh => s.admitted
  | .timTlqBeat => s.flag (a + 8) F.timTlqCtl_arm
  | .timTlqMsg0 => s.flag (a - 8) F.timTlqCtl_arm
  | .timTlqMsg1 => s.flag (a - 16) F.timTlqCtl_arm
  | _ => false

/-- What a command of the control space leaves; every register it names exists. -/
def outState (s : State) : Out → State
  | .next t => t
  | _ => s

/-- A write of one 64-bit word to the control space (R8, R10, R13): registers with a command of their own act by it; an absent
address, a refused write and a reserved encoding change nothing and answer an access error. -/
def State.ctlWrite (s : State) (a : Nat) (v : Word) : State :=
  let n := (a - islBase 0) / 0x200000
  let p := (a - prtBase 0) / 0x1000000
  match s.regAt a with
  | none => s.busDone (!(decide (valveBase ≤ a ∧ a < valveBase + valveSize ∧ a % 8 = 0)))
  | some r =>
    match r with
    | .islReset => outState s (execIslandResetRequest n v s)
    | .lnkCtl => outState s (execLinkRetrainWrite p v s)
    | .lnkInjCtl => outState s (execInjectionControlWrite p 0x8200 v s)
    | .lnkInjDrop => outState s (execInjectionControlWrite p 0x8208 v s)
    | .lnkInjParity => outState s (execInjectionControlWrite p 0x8210 v s)
    | .lnkInjAck => outState s (execInjectionControlWrite p 0x8218 v s)
    | .lnkInjReorder => outState s (execInjectionControlWrite p 0x8220 v s)
    | .timIncr => outState s (execTimIncrWrite v s)
    | .timPhase => outState s (execTimPhaseWrite v s)
    | .timTrig => outState s (execTimTrigWrite v s)
    | .timTlqCtl => outState s (execTlqArm ((a - timBase - 0x1000) / 0x80) ((a - timBase) / 32 % 4) v s)
    | .bocSetpoint => outState s (execSetpointRequestWrite v s)
    | .bocPowerCfg => outState s (execBocPowerCfgWrite v s)
    | _ =>
      if s.writeRefused r a || writeReserved r v.toNat then s.busDone true
      else if r = .routeTable then (s.setF a F.routeTable_word v.toNat).busDone false
      else if r = .programStore then (s.setF a F.programStore_word v.toNat).busDone false
      else (s.plainWrite r a v.toNat).busDone false

/-- REGISTER_WRITE: a control-space write (R8, R10, R13). `hw` are the bits hardware sets in the same cycle: an RW1C bit they name stays
set (R11). -/
def execRegisterWrite (addr bytes : Nat) (value hw : Word) (s : State) : Out :=
  if bytes ≠ 8 ∨ addr % 8 ≠ 0 then .next (s.busDone true)
  else
    let s1 := s.ctlWrite addr value
    match s1.regAt addr with
    | some r =>
      .next ((r.fields.filter fun f => decide (f.acc = .rw1c)).foldl
        (fun s f => s.setF addr f (s.getF addr f ||| bitsAt hw.toNat f.lo f.width)) s1)
    | none => .next s1

/-- RC_CLEARING_READ: a control-space read returns the word and resets its RC fields; `same` lists, by lowest bit, what hardware counts
or records into RC fields in the same cycle, which stays after the clear (R10, R11). -/
def execRcClearingRead (addr bytes : Nat) (same : List (Nat × Nat)) (s : State) : Out :=
  if bytes ≠ 8 ∨ addr % 8 ≠ 0 then .next (s.busDone true)
  else
    match s.ctlRead addr with
    | (_, none) => .next (s.busDone true)
    | (s1, some w) =>
      let fs : List Fld := match s.regAt addr with | some r => r.fields.filter (fun f => decide (f.acc = .rc)) | none => []
      let s2 := fs.foldl (fun s f =>
        match same.find? (fun x => decide (x.1 = f.lo)) with
        | some x => s.setF addr f (min x.2 (2 ^ f.width - 1))
        | none => s) s1
      .next { s2 with bus := ⟨false, BitVec.ofNat 64 w⟩ }

end Sys2Proof.Machine
end

