-- ==== Sys2Proof/Machine/Drain.lean ====
section
/-! DEFINITION. How a member stops and drains for a restart (R413, R426 steps 1 to 3), and how requests that resolve let a drain
go on. -/

namespace Sys2Proof.Machine

/-- A port drained (R426): launch queues, relay buffer, released and staged flits are empty, and nothing is owed (R277). -/
def Port.drained (x : Port) : Port := { x with queues := [], relays := [], arrived := [], stage := [], blocked := [] }

/-- The landing sequence, completion and staging counters, the engines and the ports' queues after a drain (R426): engines stand as
after image load (R261). -/
def State.clearTraffic (s : State) : State :=
  let s := (s.clearSpan (aCrpSeq 0) (8 * 4096)).clearSpan (aCrpCc 0) (8 * 4096)
  let s := (List.range 8).foldl (fun s f => s.clearSpan (aStmCtr f 0) (8 * 256)) s
  let s := (List.range 128).foldl (fun s e => s.clearFs (stmA e) [F.stmStatus_state, F.stmStatus_index, F.stmStatus_credits]) s
  -- flits launched are counted from image load on (R301)
  let s := (List.range numPorts).foldl (fun s p =>
    (s.clearField (aCrpLqState p 0) (8 * 64) F.crpLqState_occupancy).clearField (aCrpLqState p 0) (8 * 64) F.crpLqState_owed) s
  { s with
    ports := Tbl.update Port.reset (fun _ x => x.drained) s.ports,
    tier := { s.tier with engines := [], owners := [] },
    fab := { s.fab with groups := [], launches := [], written := [] } }

/-- The drain of R426: every island is reset (R234), and scheduled traffic with its counters is cleared. -/
def State.drained (s : State) : State :=
  let s := s.allIslands.foldl (fun s n => s.resetIsland n) s
  let s := s.clearTraffic
  { s with brt := { s.brt with running := false, taken := false, loadsDone := [] } }

/-- The lead broadcasts the restart it owes, once it has drained itself and no routing change is under way (R426): the entry FLT_STEP
holds, the oldest uncommitted step or the one regeneration begins with (R430), and a start beat 1 ms after every member's requests
must have resolved, 2 s later still after a discard, for localisation (R421). -/
def State.leadResume (s : State) : State :=
  let phase := s.getF aFltState F.fltState_recovery
  if s.isLead && s.rcv.restart && s.brt.job && !s.rcv.stopped && decide (2 ≤ phase ∧ phase ≤ 4) && s.gmu.asked.isEmpty then
    let wait := 1000000 + 4000 * s.getF aGmuCfg F.gmuCfg_timeout + (if s.rcv.cause = 0 then 2000000000 else 0)
    let start := (s.beat + nsBeat wait).toNat / 65536
    let step := match s.rcv.regen with | some k => k | none => s.committed + 1
    { s with rcv := { s.rcv with restart := false, regen := none } }.sendAll
      (s.msgOf 0x24 [(24, s.getF aFltStep F.fltStep_entry), (40, start), (88, step % 2 ^ 40)])
  else s

/-- A recovery that no restart follows is over: the job has ended (R494). -/
def State.endRecovery (s : State) : State :=
  { s.setF aFltState F.fltState_recovery 0 with brt := { s.brt with aborted := false } }.tryWithdraw

/-- Drained once every request tracker has resolved (R426): FLT_STATE goes from freeze to drain, or to none after a stop (R494). -/
def State.tryDrain (s : State) : State :=
  if s.getF aFltState F.fltState_recovery = 1 ∧ s.getF aGmuTrack F.gmuTrack_open = 0 then
    let s := s.drained
    if s.brt.job then (s.setF aFltState F.fltState_recovery 2).leadResume
    else s.endRecovery
  else s.tryWithdraw

/-- The freeze of R426: a commit received before takes effect, islands, engines and launches stop, and the drain begins. -/
def State.freeze (s : State) (cause : Nat) : State :=
  let s := s.takeCommit
  { s.setF aFltState F.fltState_recovery 1 with
    brt := { s.brt with aborted := true },
    rcv := { s.rcv with cause := cause, report := none } }

end Sys2Proof.Machine
end

