-- ==== Sys2Proof/Machine/Movement.lean ====
section
/-! DEFINITION. The X slot, but for ld and st: tile loads and stores, send and recv, stream.put, remote operations, sync
counters, waits, breath end and step state, and the weight-stage load (R155 to R182). -/

namespace Sys2Proof.Machine

/-! ### Tile memory -/

/-- A core address and a signed offset (R161, R162): modulo 2^32. -/
def tileAddr (base : BitVec 32) (off : Int) : Nat := (base + BitVec.ofInt 32 off).toNat

/-- Whether `n` bytes at a core address lie in tile data memory, aligned to `al` (R101). -/
def tileOk (a n al : Nat) : Bool := decide (a % al = 0 ∧ a + n ≤ tileSize)

/-- What follows a read of tile memory (R101, R102): a tile-address fault, an uncorrectable word, or the body's answer with
the correction counted. -/
def Ctx.reading (x : Ctx) (a n al : Nat) (k : List (Nat × Eff) → Body) : Body :=
  let g := x.s.tileBase x.n x.u + a
  if !tileOk a n al then .fault 0x06
  else if x.sl.ecc = .uncorrectable ∨ x.s.anyBad g n then .uncorrectable (x.s.badAt g n)
  else k (if x.sl.ecc = .corrected then [(1, .corrected)] else [])

/-- The line at a core address. -/
def Ctx.line (x : Ctx) (a : Nat) : Line := x.s.readLine (x.s.tileBase x.n x.u + a)

/-- Bytes of a core's tile memory as a number. -/
def Ctx.tile (x : Ctx) (a n : Nat) : Nat := x.s.readNat (x.s.tileBase x.n x.u + a) n

/-- 64 six-bit elements unpacked one per byte (R40, R162). -/
def unpackSix (l : Line) : Nat := packLanes 8 64 fun i => sixAt l.toNat i

/-- Bits 5:0 of 64 bytes packed into 48 bytes (R40, R163). -/
def packSix (v : BitVec 512) : Nat := packLanes 6 64 fun i => byteAt v i

/-- VLD: a line into vd, in one of four modes (R162). -/
def execVld (sl : Slot) (vd sa : BitVec 5) (mode : BitVec 3) (sc : BitVec 5) (imm : BitVec 11) (s : State) : Out :=
  coreOnly s { i := .vld sl vd sa mode sc imm, sl := sl, slot := slotX,
               legal := decide (mode.toNat < 4) &&
                 (if mode.toNat < 2 then decide (sc = 0) else decide (sc.toNat % 2 = 0)),
               dests := [dV vd],
               body := fun x =>
                 let a := tileAddr (x.c.rs sa) (64 * imm.toInt)
                 x.reading a 64 64 fun more =>
                   let l := x.line a
                   let data := if mode.toNat % 2 = 0 then l else BitVec.ofNat 512 (unpackSix l)
                   let scales := if mode.toNat < 2 then plainScales else x.c.rsPair sc
                   .ok ([(3, .setV vd.toNat (BitVec.ofNat 64 (2 ^ 64 - 1)) data 0xFF#8 scales)] ++ more) [] }

/-- VST: vs as a line, whole or packed to six bits (R163). -/
def execVst (sl : Slot) (vs sa : BitVec 5) (mode : BitVec 3) (sc : BitVec 5) (imm : BitVec 11) (s : State) : Out :=
  coreOnly s { i := .vst sl vs sa mode sc imm, sl := sl, slot := slotX,
               legal := decide (mode.toNat < 2) && decide (sc = 0), dests := [],
               body := fun x =>
                 let a := tileAddr (x.c.rs sa) (64 * imm.toInt)
                 if !tileOk a 64 64 then .fault 0x06
                 else if mode = 0 then .ok [(1, .store a (bytesOfNat 64 (x.c.rv vs).toNat) x.c.prov)] []
                 else .ok [(1, .store a (bytesOfNat 48 (packSix (x.c.rv vs))) x.c.prov)] [] }

/-- VSTS: four scale bytes of va stored (R163). -/
def execVsts (sl : Slot) (va sa : BitVec 5) (h : Bool) (imm : BitVec 16) (s : State) : Out :=
  coreOnly s { i := .vsts sl va sa h imm, sl := sl, slot := slotX, legal := true, dests := [],
               body := fun x =>
                 let a := tileAddr (x.c.rs sa) imm.toInt
                 x.reading a 4 4 fun more =>
                   .ok ([(1, .store a (bytesOfNat 4 (bitsAt (x.c.rvs va).toNat (if h then 32 else 0) 32)) x.c.prov)] ++ more) [] }

/-! ### send and recv -/

/-- Whether a send presents in the same cycle as one already in flight (R164). -/
def Core.sendClash (c : Core) (left : Nat) : Bool :=
  c.flight.any fun f => match f.eff with | .present _ => decide (f.left = left) | _ => false

/-- SEND from a register: presented in the next issue cycle (R164). -/
def execSendRegister (sl : Slot) (rid : BitVec 8) (va : BitVec 5) (imm : BitVec 11) (s : State) : Out :=
  coreOnly s { i := .sendRegister sl rid va imm, sl := sl, slot := slotX, legal := decide (imm = 0), dests := [],
               body := fun x =>
                 if x.c.sendClash 1 then .fault 0x27
                 else .ok [(1, .present { rid := rid.toNat, data := x.c.rv va, prov := x.c.prov })] [] }

/-- SEND from tile memory: presented two issue cycles later (R164). -/
def execSendMemory (sl : Slot) (rid : BitVec 8) (sa : BitVec 5) (imm : BitVec 11) (s : State) : Out :=
  coreOnly s { i := .sendMemory sl rid sa imm, sl := sl, slot := slotX, legal := true, dests := [],
               body := fun x =>
                 let a := tileAddr (x.c.rs sa) (64 * imm.toInt)
                 x.reading a 64 64 fun more =>
                   if x.c.sendClash 2 then .fault 0x27
                   else .ok ([(2, .present { rid := rid.toNat, data := x.line a, prov := x.c.prov })] ++ more) [] }

/-- The entry a recv names (R165). -/
def recvEntry (c : Core) (ind : Bool) (entry : BitVec 6) (sa : BitVec 5) : Nat :=
  if ind then (c.rs sa).toNat % 64 else entry.toNat

/-- RECV into a vector register (R107, R165). -/
def execRecvVector (sl : Slot) (vd : BitVec 5) (ind : Bool) (entry : BitVec 6) (sa : BitVec 5) (s : State) : Out :=
  coreOnly s { i := .recvVector sl vd ind entry sa, sl := sl, slot := slotX, legal := true, dests := [dV vd],
               body := fun x =>
                 let e := recvEntry x.c ind entry sa
                 if !(x.c.rm e).full then .stall 0 e
                 else .ok [(2, .setV vd.toNat (BitVec.ofNat 64 (2 ^ 64 - 1)) (x.c.rm e).data 0xFF#8 plainScales),
                           (1, .takeMbx e)] [] }

/-- RECV of bits 31:0 into a scalar (R107, R165). -/
def execRecvScalar (sl : Slot) (rd : BitVec 5) (ind : Bool) (entry : BitVec 6) (sa : BitVec 5) (s : State) : Out :=
  coreOnly s { i := .recvScalar sl rd ind entry sa, sl := sl, slot := slotX, legal := true, dests := [dS rd],
               body := fun x =>
                 let e := recvEntry x.c ind entry sa
                 if !(x.c.rm e).full then .stall 0 e
                 else .ok [(2, .setS rd.toNat ((x.c.rm e).data.truncate 32)), (1, .takeMbx e)] [] }

/-! ### stream.put -/

/-- Flits the path from an island to the launch queues holds: the launch output's 16 entries of 64 bytes (R226). -/
def launchPath : Nat := 4

/-- Flits that the island's cores complete in the present cycle (R167): a fourth quarter in flight. -/
def State.putsUnderWay (s : State) (n : Nat) : Nat :=
  ((s.liveCores n).map fun u => ((s.core n u).flight.filter fun f => match f.eff with
    | .put ch _ _ => decide ((Tbl.get Chan.empty (s.core n u).chans ch).quarters.length = 3)
    | _ => false).length).sum

/-- STREAM.PUT: va's 64 bytes as the next quarter of the channel's flit (R167). -/
def execStreamPut (sl : Slot) (ch : BitVec 3) (va : BitVec 5) (s : State) : Out :=
  coreOnly s { i := .streamPut sl ch va, sl := sl, slot := slotX, legal := true, dests := [],
               body := fun x =>
                 let h := Tbl.get Chan.empty x.c.chans ch.toNat
                 if !x.s.flag (aIslPutBind x.n x.u ch.toNat) F.islPutBind_valid then .fault 0x24
                 else if !h.quarters.isEmpty ∧ h.prov ≠ x.c.prov then .fault 0x26
                 else if h.quarters.length = 3 ∧ launchPath ≤ (x.s.island x.n).launchOut.length + x.s.putsUnderWay x.n then .stall 2 ch.toNat
                 else .ok [(1, .put ch.toNat (x.c.rv va) x.c.prov)] [] }

/-! ### Remote operations -/

/-- A free request tracker of the core: not busy, no completion of it still to be counted, and not taken by a request in flight (R171). -/
def Core.freeTracker (c : Core) : Option Nat :=
  (List.range 16).find? fun t =>
    (Tbl.get none c.trk t).isNone && !c.counting.contains t && !(c.flight.any fun f => match f.eff with | .remote k _ => decide (k = t) | _ => false)

/-- The size of an exact-add contribution by cfmt (R170). -/
def cfmtSize (cfmt : Nat) : Nat := if cfmt < 2 then 1 else if cfmt = 2 then 2 else 4

/-- What an operation demands of its operands (R170): the local bytes and their alignment, the remote alignment, whether the
parameter word is in range, and whether the remote range stays within its bounds. A nonzero reserved bit of sc is a remote length fault, 0x22
(DESIGN CHOICE, log 22: R170 names no code for it). -/
def remoteShape (op gaddr : Nat) (p : Nat) : Nat × Nat × Nat × Bool × Bool :=
  let len := p % 512
  match op with
  | 0 | 1 => (len, 8, 8, decide (p < 512 ∧ 8 ≤ len ∧ len ≤ 256 ∧ len % 8 = 0), decide (gaddr % 256 + len ≤ 256))
  | 2 =>
    let n := p % 2 ^ 18
    (n, 8, 8, decide (p < 2 ^ 30 ∧ 8 ≤ n ∧ n ≤ 163840 ∧ n % 8 = 0), true)
  | 3 =>
    let size := cfmtSize (bitsAt p 8 2)
    ((p % 256 + 1) * size, size, if p.testBit 10 then 8 else 2, decide (p < 2 ^ 22), true)
  | 4 => (8, 8, 8, true, true)
  | 5 => (16, 16, 8, true, true)
  | _ => (0, 1, 8, true, true)

/-- Whether a remote address is that of a sync counter register of some island (R170, R176). -/
def State.isSyncAddr (s : State) (gaddr : Nat) : Bool :=
  let a := gaddr % 2 ^ 42
  let o := a - islBase 0
  decide (islBase 0 ≤ a ∧ o / 0x200000 < s.numIslands ∧ 0xC000 ≤ o % 0x200000 ∧ o % 0x200000 < 0xC800 ∧ o % 8 = 0)

/-- Whether an operation may be issued under a provisional tag (R173). -/
def State.remoteTagOk (s : State) (op gaddr : Nat) (prov : BitVec 2) : Bool :=
  let local_ := gaddr % 2 ^ 42
  prov == 0 || decide (op = 0) ||
    (decide (op = 1 ∨ op = 2) && decide (gaddr / 2 ^ 42 = s.self) &&
      decide (local_ < 0x12C00000000 ∨ (0x20000000000 ≤ local_ ∧ local_ < 0x22000000000)))

/-- An rmem instruction (R169 to R173): its operands taken and checked, its request handed to the global memory unit. -/
def rmem (s : State) (i : Instr) (op : Nat) (sl : Slot) (sa sb sc : BitVec 5) (n : BitVec 8) : Out :=
  coreOnly s { i := i, sl := sl, slot := slotX,
               legal := decide (sa.toNat % 2 = 0 ∧ n.toNat ≠ 255) && (decide (op ≠ 4 ∧ op ≠ 5) || decide (sc = 0)) &&
                 (decide (op ≠ 6) || decide (sb = 0)),
               dests := [],
               body := fun x =>
                 let pair := (x.c.rsPair sa).toNat
                 let g := pair % 2 ^ 56
                 let p := x.c.rs sc
                 let b := (x.c.rs sb).toNat
                 let (len, lal, ral, inRange, within) := remoteShape op g p.toNat
                 if pair ≠ g ∨ g % ral ≠ 0 ∨ (op = 6 ∧ x.s.isSyncAddr g = false) then .fault 0x21
                 else if !inRange then .fault 0x22
                 else if !within then .fault 0x21
                 else if op ≠ 6 ∧ !tileOk b len lal then .fault 0x06
                 else if !x.s.remoteTagOk op g x.c.prov then .fault 0x20
                 else match x.c.freeTracker with
                   | none => .fault 0x23
                   | some t => .ok [(1, .remote t { op := op, gaddr := g, buf := b, parm := p, ctr := n.toNat,
                                                     prov := x.c.prov })] [] }

/-- RMEM.RD (R170). -/
def execRmemRd (sl : Slot) (sa sb sc : BitVec 5) (n : BitVec 8) (s : State) : Out :=
  rmem s (.rmemRd sl sa sb sc n) 0 sl sa sb sc n

/-- RMEM.WR (R170). -/
def execRmemWr (sl : Slot) (sa sb sc : BitVec 5) (n : BitVec 8) (s : State) : Out :=
  rmem s (.rmemWr sl sa sb sc n) 1 sl sa sb sc n

/-- RMEM.PUT (R170). -/
def execRmemPut (sl : Slot) (sa sb sc : BitVec 5) (n : BitVec 8) (s : State) : Out :=
  rmem s (.rmemPut sl sa sb sc n) 2 sl sa sb sc n

/-- RMEM.XADD (R170, R63). -/
def execRmemXadd (sl : Slot) (sa sb sc : BitVec 5) (n : BitVec 8) (s : State) : Out :=
  rmem s (.rmemXadd sl sa sb sc n) 3 sl sa sb sc n

/-- RMEM.FADD (R170). -/
def execRmemFadd (sl : Slot) (sa sb sc : BitVec 5) (n : BitVec 8) (s : State) : Out :=
  rmem s (.rmemFadd sl sa sb sc n) 4 sl sa sb sc n

/-- RMEM.CAS (R170). -/
def execRmemCas (sl : Slot) (sa sb sc : BitVec 5) (n : BitVec 8) (s : State) : Out :=
  rmem s (.rmemCas sl sa sb sc n) 5 sl sa sb sc n

/-- RMEM.SINC (R170, R176). -/
def execRmemSinc (sl : Slot) (sa sb sc : BitVec 5) (n : BitVec 8) (s : State) : Out :=
  rmem s (.rmemSinc sl sa sb sc n) 6 sl sa sb sc n

/-! ### Counters and waits -/

/-- Whether a 32-bit counter has reached a target (R174). -/
def ctrReached (value target : BitVec 32) : Bool := decide (0 ≤ (value - target).toInt)

/-- The value of an island sync counter. -/
def State.syncCtr (s : State) (n c : Nat) : BitVec 32 := BitVec.ofNat 32 (s.getF (aIslSync n c) F.islSync_value)

/-- SYNC.ADD: a scalar or an unsigned immediate added (R175). -/
def execSyncAdd (sl : Slot) (n : BitVec 8) (f : Bool) (sa : BitVec 5) (imm : BitVec 16) (s : State) : Out :=
  coreOnly s { i := .syncAdd sl n f sa imm, sl := sl, slot := slotX, legal := f || decide (imm = 0), dests := [],
               body := fun x => .ok [(2, .syncAdd n.toNat (if f then imm.zeroExtend 32 else x.c.rs sa))] [] }

/-- SYNC.SET: the counter set to a scalar (R175). -/
def execSyncSet (sl : Slot) (n : BitVec 8) (f : Bool) (sa : BitVec 5) (s : State) : Out :=
  coreOnly s { i := .syncSet sl n f sa, sl := sl, slot := slotX, legal := !f, dests := [],
               body := fun x => .ok [(2, .syncSet n.toNat (x.c.rs sa))] [] }

/-- SYNC.WAIT: issues once the counter has reached the scalar (R175). -/
def execSyncWait (sl : Slot) (n : BitVec 8) (f : Bool) (sa : BitVec 5) (s : State) : Out :=
  coreOnly s { i := .syncWait sl n f sa, sl := sl, slot := slotX, legal := !f, dests := [],
               body := fun x =>
                 if ctrReached (x.s.syncCtr x.n n.toNat) (x.c.rs sa) then .ok [] [] else .stall 1 n.toNat }

/-- SYNC.RD: the counter into a scalar (R175). -/
def execSyncRd (sl : Slot) (rd : BitVec 5) (n : BitVec 8) (f : Bool) (s : State) : Out :=
  coreOnly s { i := .syncRd sl rd n f, sl := sl, slot := slotX, legal := !f, dests := [dS rd],
               body := fun x => .ok [(3, .readSync rd.toNat n.toNat (x.s.syncCtr x.n n.toNat))] [] }

/-- CC.WAIT: issues once the stream completion counter has reached the scalar (R177). -/
def execCcWait (sl : Slot) (c : BitVec 12) (sa : BitVec 5) (s : State) : Out :=
  coreOnly s { i := .ccWait sl c sa, sl := sl, slot := slotX, legal := true, dests := [],
               body := fun x =>
                 if ctrReached (BitVec.ofNat 32 (x.s.getF (aCrpCc c.toNat) F.crpCc_value)) (x.c.rs sa) then .ok [] []
                 else .stall 1 c.toNat }

/-- WAIT.CYC: holds issue until cyc reaches the operand (R178). -/
def execWaitCyc (sl : Slot) (f : Bool) (sa : BitVec 5) (imm : BitVec 24) (s : State) : Out :=
  coreOnly s { i := .waitCyc sl f sa imm, sl := sl, slot := slotX, legal := f || decide (imm = 0), dests := [],
               body := fun x => .wait (if f then imm.toNat else (x.c.rs sa).toNat) }

/-- BREATH.END: the core ends at the end of its group; a channel holding 1 to 3 quarters faults (R168, R179). -/
def execBreathEnd (sl : Slot) (s : State) : Out :=
  coreOnly s { i := .breathEnd sl, sl := sl, slot := slotX, legal := true, dests := [],
               body := fun x =>
                 if (List.range 8).any fun ch => !(Tbl.get Chan.empty x.c.chans ch).quarters.isEmpty then .fault 0x25
                 else .ok [(1, .endBreath)] [] }

/-- STEP.SET: step := the scalar pair (R180). -/
def execStepSet (sl : Slot) (sa : BitVec 5) (s : State) : Out :=
  coreOnly s { i := .stepSet sl sa, sl := sl, slot := slotX, legal := decide (sa.toNat % 2 = 0), dests := [dSpecial 1],
               body := fun x => .ok [(1, .setStep (x.c.rsPair sa))] [] }

/-- PROV.BEGIN: prov := tag; tag 0 is reserved (R181). -/
def execProvBegin (sl : Slot) (tag : BitVec 2) (s : State) : Out :=
  coreOnly s { i := .provBegin sl tag, sl := sl, slot := slotX, legal := decide (tag ≠ 0), dests := [dSpecial 8],
               body := fun _ => .ok [(1, .setProv tag)] [] }

/-- PROV.END: prov := 0 (R181). -/
def execProvEnd (sl : Slot) (s : State) : Out :=
  coreOnly s { i := .provEnd sl, sl := sl, slot := slotX, legal := true, dests := [dSpecial 8],
               body := fun _ => .ok [(1, .setProv 0)] [] }

/-- SUSP.SET: the step that step holds is marked suspect with a reason (R182). -/
def execSuspSet (sl : Slot) (reason : BitVec 16) (s : State) : Out :=
  coreOnly s { i := .suspSet sl reason, sl := sl, slot := slotX, legal := true, dests := [],
               body := fun x => .ok [(1, .suspect x.c.step reason)] [] }

/-! ### Loading a weight stage -/

/-- The format tag the inactive stage has, or will have from a wld in flight; none when it is empty (R156). -/
def Core.idleTag (c : Core) : Option (BitVec 4) :=
  if !c.idleStage.isEmpty then some c.idleStage.fmt
  else c.flight.findSome? fun f => match f.eff with | .fillPart fmt _ _ => some fmt | _ => none

/-- Whether a wswap was issued in the core's open bundle (R157). -/
def Core.swapIssued (c : Core) : Bool := c.flight.any fun f => f.fresh && decide (f.eff = .swap)

/-- Whether the island stalls on a wswap of this core, and every command it keeps belongs to that cycle (R86, R157). -/
def State.swapStalls (s : State) (n u : Nat) : Bool :=
  s.sameCycle n 0 && (s.island n).stalls.any fun a => decide (a.unit = u ∧ a.slot = slotS)

/-- WLD: a part of the inactive stage from tile memory (R155, R156). A wld in the bundle of a wswap faults with it, if it executes (R78, R157). Of several
faults the tile address 0x06 is recorded, then an uncorrectable word 0x03, then the weight stage 0x08 (DESIGN CHOICE, log 169). -/
def execWld (sl : Slot) (fmt : BitVec 4) (part : BitVec 2) (sa : BitVec 5) (imm : BitVec 16) (s : State) : Out :=
  let op : Op :=
    { i := .wld sl fmt part sa imm, sl := sl, slot := slotX,
      legal := decide (part.toNat < 3) && !(decide (part = 1) && decide (fmtBits fmt = 16)) &&
        (decide (part ≠ 2) || fmtScaled fmt),
      dests := [],
      body := fun x =>
        let a := tileAddr (x.c.rs sa) imm.toInt
        let n := if part = 2 then 16 else 64
        if x.c.swapIssued then .faultAt slotS 0x08
        else x.reading a n n fun more =>
          let busy := match (x.s.island x.n).fill with | some f => f.mask.getLsbD (x.u / 60) | none => false
          if busy || (match x.c.idleTag with | some t => decide (t ≠ fmt) | none => false) then .fault 0x08
          else .ok ([(3, .fillPart fmt part.toNat (BitVec.ofNat 512 (x.tile a n)))] ++ more) [] }
  match sl.site with
  | .core n u =>
    if s.hasCore n u ∧ sl.adv = 0 ∧ s.swapStalls n u ∧ (s.ctx n u sl).executes op then
      .next ((s.setIsland n { s.island n with stalls := [], held := [] }).coreFault n u
        [{ kind := .execution, slot := slotS, code := 0x08 }])
    else coreOnly s op
  | .ctl _ => coreOnly s op

end Sys2Proof.Machine
end

