-- ==== Sys2Proof/Machine/Packet.lean ====
section
/-! DEFINITION. Packets of the unscheduled class: their fields and flits (R349 to R351), how a request is split (R352), and their way
through a package: routing tables (R368), productive directions, the adaptive and the escape choice, and throttling (R367, R371). -/

namespace Sys2Proof

/-- The packet kind: op + 1, and 0x80 more for a response (R351). -/
def Packet.kind (p : Packet) : Nat := Machine.bitsAt p.hdr.toNat 0 8
/-- The requester's package. -/
def Packet.source (p : Packet) : Nat := Machine.bitsAt p.hdr.toNat 8 14
/-- The provisional tag of the data. -/
def Packet.tag (p : Packet) : BitVec 2 := BitVec.ofNat 2 (Machine.bitsAt p.hdr.toNat 22 2)
/-- The status of a response. -/
def Packet.status (p : Packet) : Nat := Machine.bitsAt p.hdr.toNat 24 8
/-- Requester: tracker, unit and island. -/
def Packet.reqr (p : Packet) : Nat := Machine.bitsAt p.hdr.toNat 32 23
/-- Target local address. -/
def Packet.addr (p : Packet) : Nat := Machine.bitsAt p.hdr.toNat 64 42
/-- Attempt 0–3. -/
def Packet.attempt (p : Packet) : Nat := Machine.bitsAt p.hdr.toNat 106 2
/-- Data bytes, or for an rd request the bytes requested. -/
def Packet.len (p : Packet) : Nat := Machine.bitsAt p.hdr.toNat 108 9
/-- Packet index within the request. -/
def Packet.index (p : Packet) : Nat := Machine.bitsAt p.hdr.toNat 117 10
/-- Packets in the request. -/
def Packet.total (p : Packet) : Nat := Machine.bitsAt p.hdr.toNat 127 10 + 1
/-- The parameter word. -/
def Packet.param (p : Packet) : Nat := Machine.bitsAt p.hdr.toNat 144 32
/-- Birth in ns. -/
def Packet.birth (p : Packet) : Nat := Machine.bitsAt p.hdr.toNat 176 48
/-- ns from birth to departure. -/
def Packet.age (p : Packet) : Nat := Machine.bitsAt p.hdr.toNat 224 32
/-- The destination package (R349). -/
def Packet.dest (p : Packet) : Nat := Machine.bitsAt p.fhdr.toNat 72 14
/-- The epoch bit (R313). -/
def Packet.epoch (p : Packet) : Nat := Machine.bitsAt p.fhdr.toNat 71 1

/-- The header and data bytes the CRC covers (R350). -/
def Packet.covered (p : Packet) : List Byte := Machine.bytesOfNat 32 p.hdr.toNat ++ p.data
/-- Whether the CRC the packet carries holds (R353). -/
def Packet.crcOk (p : Packet) : Bool := decide (Machine.crc32c p.covered = p.crc)
/-- The number of flits (R350): one when 36 + len ≤ 256. -/
def Packet.flitCount (p : Packet) : Nat := if 36 + p.data.length ≤ 256 then 1 else 2
/-- The packet's payload as a number (R350). -/
def Packet.image (p : Packet) : Nat := Machine.natOfBytes (p.covered ++ Machine.bytesOfNat 4 p.crc.toNat)

/-- A packet's flits with their header fields (R349). -/
def Packet.flits (p : Packet) : List Flit :=
  let two := if p.flitCount = 2 then 2 ^ 87 else 0
  let h := p.fhdr.toNat / 2 ^ 68 * 2 ^ 68 - (if p.fhdr.getLsbD 86 then 2 ^ 86 else 0) - (if p.fhdr.getLsbD 87 then 2 ^ 87 else 0)
  let head := Machine.flitOf (2 + h + two + 2 ^ 86) (p.image % 2 ^ 2048)
  if p.flitCount = 2 then [head, Machine.flitOf (2 + h + two) (p.image / 2 ^ 2048)] else [head]

end Sys2Proof

namespace Sys2Proof.Machine

/-! ### Time in ns -/

/-- The beat in whole ns, 48 bits (R351). -/
def State.nowNs (s : State) : Nat := s.beat.toNat / 65536

/-- Whether ns count `a` has reached `b`, modulo 2⁴⁸. -/
def nsReached (a b : Nat) : Bool := decide ((a + 2 ^ 48 - b % 2 ^ 48) % 2 ^ 48 < 2 ^ 47)

/-- A request's deadline D = birth + 4 × T_o (R357). -/
def State.deadline (s : State) (birth : Nat) : Nat := birth + 4000 * s.getF aGmuCfg F.gmuCfg_timeout

/-! ### Requests and their packets -/

/-- The requester field of a core's tracker (R351). -/
def requester (n u t : Nat) : Nat := t + u * 2 ^ 4 + n * 2 ^ 14

/-- The key of a core's tracker among the departed requests. -/
def reqKey (n u t : Nat) : Nat := 16 * ckey n u + t

/-- A departed request. -/
def State.req (s : State) (k : Nat) : Option Req := Tbl.get none s.gmu.reqs k

/-- A departed request replaced or forgotten. -/
def State.setReq (s : State) (k : Nat) (r : Option Req) : State :=
  { s with gmu := { s.gmu with reqs := Tbl.set none s.gmu.reqs k r } }

/-- The bytes a request sends from its local buffer (R170). -/
def Remote.sends (r : Remote) : Nat :=
  match r.op with
  | 1 => bitsAt r.parm.toNat 0 9
  | 2 => bitsAt r.parm.toNat 0 18
  | 3 => (bitsAt r.parm.toNat 0 8 + 1) * cfmtSize (bitsAt r.parm.toNat 8 2)
  | 4 => 8
  | 5 => 16
  | _ => 0

/-- The number of packets of a request (R352). -/
def Remote.packets (r : Remote) : Nat := if r.op = 2 ∨ r.op = 3 then (r.sends + 255) / 256 else 1

/-- The parameter field of a request's packets (R351). -/
def Remote.param (r : Remote) : Nat :=
  match r.op with
  | 2 => bitsAt r.parm.toNat 18 12
  | 3 => bitsAt r.parm.toNat 8 3 + bitsAt r.parm.toNat 11 11 * 2 ^ 3
  | 6 => r.parm.toNat
  | _ => 0

/-- The target local address of packet `i` (R352). -/
def Remote.addrOf (r : Remote) (i : Nat) : Nat :=
  let stride := if r.parm.getLsbD 10 then 8 else 18
  (r.gaddr + (if r.op = 3 then 256 / cfmtSize (bitsAt r.parm.toNat 8 2) * i * stride else 256 * i)) % 2 ^ 42

/-- Packet header fields put together (R351). -/
def packetHdr (kind source tag status reqr addr attempt len index total param birth age : Nat) : BitVec 256 :=
  BitVec.ofNat 256 (kind + source * 2 ^ 8 + tag * 2 ^ 22 + status * 2 ^ 24 + reqr * 2 ^ 32 + addr * 2 ^ 64 + attempt * 2 ^ 106
    + len * 2 ^ 108 + index * 2 ^ 117 + (total - 1) * 2 ^ 127 + param * 2 ^ 144 + birth * 2 ^ 176 + age * 2 ^ 224)

/-- A packet with its CRC (R350). -/
def sealPacket (fhdr hdr : Nat) (data : List Byte) : Packet :=
  let h := BitVec.ofNat 256 hdr
  { fhdr := BitVec.ofNat 128 fhdr, hdr := h, data := data, crc := crc32c (bytesOfNat 32 h.toNat ++ data) }

/-- The packet with its departure filled in (R351, R358): the injection epoch, and the age, which saturates. -/
def State.departing (s : State) (p : Packet) : Packet :=
  let age := min ((s.nowNs + 2 ^ 48 - p.birth) % 2 ^ 48) (2 ^ 32 - 1)
  let f := p.dest * 2 ^ 72 + s.getF aGmuEpoch F.gmuEpoch_inject * 2 ^ 71 + 2 ^ 86 + 3 * 2 ^ 89
  sealPacket f (p.hdr.toNat % 2 ^ 224 + age * 2 ^ 224) p.data

/-- Packet `i` of a request to package `dest` (R352); `data` are the bytes the whole request sends. -/
def State.packetOf (s : State) (n u t : Nat) (r : Remote) (dest birth attempt : Nat) (data : List Byte) (i : Nat) : Packet :=
  let part := (data.drop (256 * i)).take 256
  let len := if r.op = 0 then bitsAt r.parm.toNat 0 9 else part.length
  let tag := if r.op = 1 ∨ r.op = 2 then r.prov.toNat else 0
  sealPacket (dest * 2 ^ 72 + 2 ^ 86 + 3 * 2 ^ 89)
    (packetHdr (r.op + 1) s.self tag 0 (requester n u t) (r.addrOf i) attempt len i r.packets r.param birth 0).toNat part

/-- The response to a request packet (R351): the fields it copies, its status and the data it returns. -/
def answerTo (p : Packet) (status : Nat) (data : List Byte) : Packet :=
  sealPacket (p.source * 2 ^ 72 + 2 ^ 86 + 3 * 2 ^ 89)
    (packetHdr (p.kind + 0x80) p.source 0 status p.reqr p.addr p.attempt data.length p.index p.total 0 p.birth p.age).toNat data

/-- A package's packet that waits for a port, or reaches the package itself (R348). -/
def State.sendPacket (s : State) (p : Packet) : State :=
  if p.dest = s.self then { s with gmu := { s.gmu with own := s.gmu.own ++ [s.departing p] } }
  else { s with gmu := { s.gmu with waiting := s.gmu.waiting ++ [p] } }

/-! ### Throttling -/

/-- Whether throttling is engaged is noted where it can begin or end: an episode begins with a full bucket (R371). -/
def State.noteThrottle (s : State) : State :=
  if s.throttled = s.gmu.engaged then s
  else if s.gmu.engaged then { s with gmu := { s.gmu with engaged := false } }
  else
    let b := s.getF aGmuThrottle F.gmuThrottle_burst * 65536000
    { s.bump aGmuThrottle F.gmuThrottle_episodes 1 with gmu := { s.gmu with engaged := true, tokens := b, filled := s.beat } }

/-- The bucket's tokens now: refilled at R per µs up to B (R371). -/
def State.tokensNow (s : State) : Nat :=
  min (s.gmu.tokens + (s.beat - s.gmu.filled).toNat * s.getF aGmuThrottle F.gmuThrottle_rate)
    (s.getF aGmuThrottle F.gmuThrottle_burst * 65536000)

/-- Admission of a request of `k` packets (R371): at once while the package is not throttled, else when the bucket holds as many
tokens, which are then taken. -/
def State.takeTokens (s : State) (k : Nat) : Option State :=
  let s := s.noteThrottle
  if !s.gmu.engaged then some s
  else if k * 65536000 ≤ s.tokensNow then
    some { s with gmu := { s.gmu with tokens := s.tokensNow - k * 65536000, filled := s.beat } }
  else none

/-! ### Routing tables -/

/-- The state of a routing bank: 0 retired, 1 installed, 2 active (R369). -/
def State.bankState (s : State) (b : Nat) : Nat := s.getF aGmuEpoch (if b = 0 then F.gmuEpoch_bank0 else F.gmuEpoch_bank1)

/-- A bank's state set. -/
def State.setBank (s : State) (b v : Nat) : State := s.setF aGmuEpoch (if b = 0 then F.gmuEpoch_bank0 else F.gmuEpoch_bank1) v

/-- Whether a direction (0 to 5) is productive toward a destination (R367). -/
def State.dirProductive (s : State) (dir dest : Nat) : Bool :=
  let (up, down) := s.productive (dir / 2) dest
  if dir % 2 = 0 then up else down

/-- The ports an entry of a fresh routing table allows toward a destination (R368). -/
def State.routePorts (s : State) (dest : Nat) : Nat :=
  (((List.range numPorts).filter fun p =>
    let sched := s.getF (aCrpConfig p) F.crpConfig_sched
    s.dirProductive (p / 8) dest && s.linkUp p && !s.gmu.downs.contains (s.linkKey p) && !s.fenced p &&
      decide (sched ≠ 2 ∧ sched ≠ 3)).map fun p => 2 ^ p).sum

/-- The packages of the slice's box (R345). -/
def State.boxMembers (s : State) : List Nat :=
  (List.range (s.extent 2)).flatMap fun z => (List.range (s.extent 1)).flatMap fun y => (List.range (s.extent 0)).map fun x =>
    (s.lowCorner 2 + z) * 1024 + (s.lowCorner 1 + y) * 32 + (s.lowCorner 0 + x)

/-- A bank built afresh (R368): an entry for every member, none for others. -/
def State.buildBank (s : State) (b : Nat) : State :=
  let s := s.clearSpan (aGmuRoute b 0) (8 * 16384)
  s.boxMembers.foldl (fun s t =>
    s.setFs (aGmuRoute b t) [(F.gmuRoute_ports, s.routePorts t), (F.gmuRoute_valid, 1)]) s

/-! ### The choice of a port -/

/-- Flits in a port's unscheduled output queue of requests or of responses (R371). -/
def State.outLen (s : State) (p : Nat) (resp : Bool) : Nat :=
  ((List.range 3).map fun v => (Tbl.get [] (s.port p).out (if resp then v + 3 else v)).length).sum

/-- Whether a port has room and credit for `k` flits more on a channel (R326, R371). -/
def State.takes (s : State) (p v k : Nat) : Bool :=
  let x := s.port p
  s.linkUp p && decide ((Tbl.get [] x.out v).length + k ≤ Tbl.get 0 x.credit v) && decide (s.outLen p (decide (3 ≤ v)) + k ≤ 128)

/-- Whether a hop in a direction crosses its ring's dateline (R325): the wrap between coordinate extent − 1 and 0. -/
def State.crosses (s : State) (dir : Nat) : Bool :=
  let h := coordOn (dir / 2) s.self
  s.ownsRing (dir / 2) && (if dir % 2 = 0 then decide (h + 1 = s.torus (dir / 2)) else decide (h = 0))

/-- The dateline bit after a hop (R367): kept on the same axis, cleared on another one, set by a crossing. -/
def State.nextDl (s : State) (axis : Nat) (dl : Bool) (dir : Nat) : Bool :=
  s.crosses dir || (dl && decide (axis = dir / 2))

/-- The escape direction (R367): the productive one of the first axis, X, Y, Z, on which the package and the destination differ; +D
when both are productive. -/
def State.escapeDir (s : State) (dest : Nat) : Option Nat :=
  ((List.range 3).find? fun a => decide (coordOn a s.self ≠ coordOn a dest)).map fun a =>
    2 * a + (if (s.productive a dest).1 then 0 else 1)

/-- What routing says of a packet (R367, R368): dropped for want of a route, sent by a port on a channel, or waiting. -/
inductive Hop where
  | noroute
  | send (port vc : Nat)
  | wait
deriving DecidableEq, Repr

/-- Of some ports the one whose queue holds fewest flits, the lowest number first (R367). -/
def State.shortest (s : State) (resp : Bool) : List Nat → Option Nat
  | [] => none
  | p :: l =>
    match s.shortest resp l with
    | some q => if s.outLen q resp < s.outLen p resp then some q else some p
    | none => some p

/-- The hop of a packet of `k` flits (R367): adaptive, then escape, then waiting. -/
def State.hop (s : State) (dest bank k : Nat) (resp dl : Bool) (axis : Nat) : Hop :=
  let a := aGmuRoute bank dest
  let ports := s.getF a F.gmuRoute_ports
  let base := if resp then 3 else 0
  match s.escapeDir dest with
  | none => .noroute
  | some dir =>
    let esc := (List.range 8).map fun j => 8 * dir + j
    if !s.flag a F.gmuRoute_valid || !(esc.any fun p => ports.testBit p) then .noroute
    else
      let cands := (List.range numPorts).filter fun p =>
        ports.testBit p && s.dirProductive (p / 8) dest && s.takes p base k
      match s.shortest resp cands with
      | some p => .send p base
      | none =>
        let vc := base + (if s.nextDl axis dl dir then 2 else 1)
        match esc.find? fun p => ports.testBit p && s.takes p vc k with
        | some p => .send p vc
        | none => .wait

/-- A flit's header for its next hop: channel, dateline bit and axis (R349, R367). -/
def hopHeader (f : Flit) (vc : Nat) (dl : Bool) (axis : Nat) : Flit :=
  let h := f.hdr.toNat
  let low := h % 2 ^ 68 + vc * 2 ^ 68 + bitsAt h 71 17 * 2 ^ 71
  { f with hdr := BitVec.ofNat 128 (low + (if dl then 2 ^ 88 else 0) + axis * 2 ^ 89) }

/-- Flits put into a port's output queue, the second behind the first (R367). -/
def State.enqueue (s : State) (p vc : Nat) (axis : Nat) (dl : Bool) (fs : List Flit) : State :=
  let d := s.nextDl axis dl (p / 8)
  let x := s.port p
  s.setPort p { x with out := Tbl.set [] x.out vc (Tbl.get [] x.out vc ++ fs.map fun f => hopHeader f vc d (p / 16)) }

/-- Buffer entries of a channel freed: their credits are pending for the sender (R327). -/
def State.freeEntries (s : State) (p vc k : Nat) : State :=
  let x := s.port p
  s.setPort p { x with vcs := Tbl.set [] x.vcs vc ((Tbl.get [] x.vcs vc).drop k), pend := Tbl.set 0 x.pend vc (Tbl.get 0 x.pend vc + k) }

/-- Whether a packet has outlived its departure by more than 20 µs (R363). -/
def State.tooOld (s : State) (birth age : Nat) : Bool := !nsReached (birth + age + 20000) s.nowNs

/-! ### PACKET_ROUTE -/

/-- The head packet of an input channel routed: dropped by lifetime or epoch or for want of a route, or passed to an output queue
(R363, R367, R368, R369). -/
def State.routeInput (s : State) (p vc : Nat) : State :=
  let q := Tbl.get [] (s.port p).vcs vc
  match q with
  | [] => s
  | f :: _ =>
    let k := f.packetFlits
    let dest := f.field 72 14
    let hd := f.q0.toNat
    if q.length < k ∨ dest = s.self then s
    else if s.tooOld (bitsAt hd 176 48) (bitsAt hd 224 32) then (s.freeEntries p vc k).bump aGmuDrop F.gmuDrop_lifetime 1
    else if s.bankState (f.field 71 1) = 0 then (s.freeEntries p vc k).bump aGmuDrop F.gmuDrop_epoch 1
    else
      match s.hop dest (f.field 71 1) k (decide (3 ≤ vc)) (f.hdr.getLsbD 88) (f.field 89 2) with
      | .noroute => (s.freeEntries p vc k).bump aGmuDrop F.gmuDrop_noroute 1
      | .send o v => (s.freeEntries p vc k).enqueue o v (f.field 89 2) (f.hdr.getLsbD 88) (q.take k)
      | .wait => s

/-- A packet of this package that waits leaves by a port (R357, R358); a request at or after its deadline does not depart. -/
def State.routeOwn (s : State) (resp : Bool) : State :=
  match s.gmu.waiting.find? fun p => decide (0x80 ≤ p.kind) == resp with
  | none => s
  | some p =>
    let rest := { s with gmu := { s.gmu with waiting := s.gmu.waiting.erase p } }
    if !resp ∧ nsReached s.nowNs (s.deadline p.birth) then rest
    else
      let d := s.departing p
      match s.hop d.dest d.epoch d.flitCount resp false 3 with
      | .noroute => rest.bump aGmuDrop F.gmuDrop_noroute 1
      | .send o v => rest.enqueue o v 3 false d.flits
      | .wait => s

/-- PACKET_ROUTE: the head packet of a port's channel is routed (R367); port 48 stands for the package's own packets, channels 0 to 2
for its requests and 3 to 5 for its responses. -/
def execPacketRoute (port vc : Nat) (s : State) : Out :=
  if port ≤ numPorts ∧ vc < 6 then
    let s := s.noteThrottle
    let t := if port = numPorts then s.routeOwn (decide (3 ≤ vc)) else s.routeInput port vc
    .next t.noteThrottle
  else .fault .absentUnit

end Sys2Proof.Machine
end

