-- ==== Sys2Proof/Machine/Gmu.lean ====
section
/-! DEFINITION. The global memory unit (R345 to R374): requests at the requester, their performance and deduplication at the target,
responses, attempts and deadlines, and routing changes. -/

namespace Sys2Proof.Machine

/-! ### Resolution -/

/-- A failed outcome recorded in ISL_RMEM_LOG (R171): counted; the first since the last read is kept. -/
def State.logRmem (s : State) (n u op status : Nat) : State :=
  let a := aIslRmemLog n
  let s := s.bump a F.islRmemLog_count 1
  if s.flag a F.islRmemLog_valid then s
  else s.setFs a [(F.islRmemLog_status, status), (F.islRmemLog_op, op), (F.islRmemLog_unit, u), (F.islRmemLog_valid, 1)]

/-- A request's packets that have not left yet are given up. -/
def State.dropWaiting (s : State) (n u t : Nat) : State :=
  let keep := fun (p : Packet) => !(decide (p.kind < 0x80) && decide (p.source = s.self ∧ p.reqr = requester n u t))
  { s with gmu := { s.gmu with waiting := s.gmu.waiting.filter keep, own := s.gmu.own.filter keep } }

/-- A tracker resolves (R171, R356, R360): on success the returned data is written into the local buffer, tagged with prov at issue;
counter n gains 1, and on failure counter 255 as well with an entry in the log; the tracker is free once counter n has it. -/
def State.resolve (s : State) (n u t status : Nat) (data : List Byte) : State :=
  match Tbl.get none (s.core n u).trk t with
  | none => s
  | some r =>
    let ok := decide (status < 4)
    let s := if ok ∧ !data.isEmpty then s.store (s.tileBase n u + r.buf) data r.prov else s
    let s := s.addCounter n r.ctr 1 (some (u, t))
    let s := if ok then s else (s.addCounter n 255 1 none).logRmem n u r.op status
    let s := ((s.setReq (reqKey n u t) none).dropWaiting n u t).setCore n u
      { s.core n u with trk := Tbl.set none (s.core n u).trk t none, counting := t :: (s.core n u).counting }
    let s := s.setF aGmuTrack F.gmuTrack_open (s.getF aGmuTrack F.gmuTrack_open - 1)
    let s := if status = 0x14 ∨ status = 0x15 then s.bump aGmuTrack F.gmuTrack_timeouts 1 else s
    s.tryDrain

/-! ### REQUEST_ADMIT -/

/-- A lost member's index rewritten into its spare's (R431). -/
def State.substituted (s : State) (p : Nat) : Nat :=
  let a := fun i => aFltSubst i
  match (List.range 16).find? fun i => s.flag (a i) F.fltSubst_valid && decide (s.getF (a i) F.fltSubst_lost = p) with
  | some i => s.getF (a i) F.fltSubst_spare
  | none => p

/-- The package a request goes to. -/
def State.destOf (s : State) (r : Remote) : Nat := s.substituted (r.gaddr / 2 ^ 42)

/-- The packets of a request whose answer is still open (R358), for its attempt. -/
def State.openPackets (s : State) (n u t : Nat) (r : Remote) (q : Req) : List Packet :=
  let data := s.readBytes (s.tileBase n u + r.buf) r.sends
  ((List.range r.packets).filter fun i =>
    match Tbl.get none q.answers i with
    | some a => decide (a.status = 0x15)
    | none => true).map fun i => s.packetOf n u t r (s.destOf r) q.birth q.attempt data i

/-- REQUEST_ADMIT: the request a core tracker holds becomes packets (R345, R352, R357): refused at the requester when it leaves the
slice (R345), when it would send provisional data to another package (R409), or when its source is uncorrectable (R102); held while
throttling holds it (R371); else it is born now. -/
def execRequestAdmit (n u : Nat) (source : TrackerRead) (s : State) : Out :=
  let ⟨tracker, ecc⟩ := source
  if s.hasCore n u ∧ tracker < 16 then
    match Tbl.get none (s.core n u).trk tracker, s.req (reqKey n u tracker) with
    | some r, none =>
      let base := s.tileBase n u + r.buf
      let dest := s.destOf r
      if r.gaddr / 2 ^ 42 ≠ s.self ∧ !s.isMember (r.gaddr / 2 ^ 42) then .next (s.resolve n u tracker 0x13 [])
      else if (r.op = 1 ∨ r.op = 2) ∧ dest ≠ s.self ∧ s.anyLive base r.sends then .next (s.resolve n u tracker 0x11 [])
      else
        match s.takeTokens r.packets with
        | none => .next s.noteThrottle
        | some s1 =>
          match s1.readPieces ecc (pieces base r.sends) with
          | (_, none) => .next ((s.readPieces ecc (pieces base r.sends)).1.resolve n u tracker 0x12 [])
          | (s2, some _) =>
            let q : Req := { birth := s.nowNs, attempt := 0, answers := [] }
            .next ((s2.openPackets n u tracker r q).foldl State.sendPacket (s2.setReq (reqKey n u tracker) (some q)))
    | _, _ => .next s
  else .fault .absentUnit

/-! ### Accesses of a request at its target -/

/-- The status of a word of the control space for an access that reads it, or writes `w` to it (R8, R13, R176): 0 when the word is present
and open. -/
def State.judgeWord (s : State) (w : Option Word) (a : Nat) : Nat :=
  if (s.ctlRead a).2 = none then 0x10
  else if s.regAt a = some .islSync then 0x11
  else match w with
    | some v => if (s.ctlWrite a v).bus.err then 0x11 else 0
    | none => 0

/-- Whether a piece of an access is present and open (R8, R105, R176, R238): 0, or the status it is refused with. `bs` is what a write
brings. -/
def State.judge (s : State) (bs : Option (List Byte)) (a n : Nat) : Nat :=
  match s.region a with
  | .absent => 0x10
  | .lpddr => 0
  | .tile i _ istore => if bs.isSome ∧ istore ∧ s.islandRuns i then 0x11 else 0
  | .staging _ => if a % 8 ≠ 0 ∨ n % 8 ≠ 0 then 0x11 else 0
  | .control =>
    if a % 8 ≠ 0 ∨ n % 8 ≠ 0 then 0x11
    else
      let word := fun i => bs.map fun l => BitVec.ofNat 64 (natOfBytes ((l.drop (8 * i)).take 8))
      (((List.range (n / 8)).map fun i => s.judgeWord (word i) (a + 8 * i)).find? fun st => decide (st ≠ 0)).getD 0

/-- An access judged as a whole: the status of its first byte that is absent or refused, in address order (R238). -/
def State.judgeAll (s : State) : Option (List Byte) → List (Nat × Nat) → Nat
  | _, [] => 0
  | bs, (a, n) :: l =>
    let st := s.judge (bs.map fun b => b.take n) a n
    if st ≠ 0 then st else s.judgeAll (bs.map fun b => b.drop n) l

/-- Words of the control space read one after the other. -/
def State.readCtl (a : Nat) : Nat → State → State × List Byte
  | 0, s => (s, [])
  | k + 1, s =>
    let (s1, w) := s.ctlRead a
    let (s2, bs) := State.readCtl (a + 8) k s1
    (s2, bytesOfNat 8 (w.getD 0) ++ bs)

/-- Pieces read, each meeting what the list says. -/
def State.gmPieces (s : State) (ecc : Eccs) : List (Nat × Nat) → State × Option (List Byte)
  | [] => (s, some [])
  | (a, n) :: l =>
    let (s1, r) := if s.region a = .control then (let (t, bs) := State.readCtl a (n / 8) s; (t, some bs)) else s.readPiece a n (ecc.headD .clean)
    match r with
    | none => (s1, none)
    | some bs =>
      match s1.gmPieces ecc.tail l with
      | (s2, some cs) => (s2, some (bs ++ cs))
      | (s2, none) => (s2, none)

/-- The bytes of a read (R354, R356): status 0 with the bytes, or the status of its failure. -/
def State.gmRead (s : State) (a n : Nat) (ecc : Eccs) : State × Nat × List Byte :=
  let ps := pieces a n
  let st := s.judgeAll none ps
  if st ≠ 0 then (s, st, [])
  else
    match s.gmPieces ecc ps with
    | (s1, some bs) => (s1, 0, bs)
    | (s1, none) => (s1, 0x12, [])

/-- Lines of the LPDDR5X tier that a write covers in part are read first (R249); none may be uncorrectable. -/
def State.gmMerge (s : State) (ecc : Eccs) : List (Nat × Nat) → State × Bool
  | [] => (s, true)
  | (a, n) :: l =>
    let (f, ch) := s.channelOf a
    if s.region a = .lpddr ∧ (n < 64 ∨ s.chanRetired f ch) then
      match s.lpRead a (ecc.headD .clean) with
      | (s1, some _) => s1.gmMerge ecc.tail l
      | (s1, none) => (s1, false)
    else s.gmMerge ecc l

/-- Words of the control space written one after the other; none when one is refused (R8, R13). -/
def State.writeCtl (a : Nat) : Nat → List Byte → State → Option State
  | 0, _, s => some s
  | k + 1, bs, s =>
    let t := s.ctlWrite a (BitVec.ofNat 64 (natOfBytes (bs.take 8)))
    if t.bus.err then none else State.writeCtl (a + 8) k (bs.drop 8) { t with bus := s.bus }

/-- Pieces written one after the other; none when the control space refuses one. -/
def State.gmStore (s : State) (bs : List Byte) (tag : BitVec 2) : List (Nat × Nat) → Option State
  | [] => some s
  | (a, n) :: l =>
    if s.region a = .control then
      match State.writeCtl a (n / 8) bs s with
      | some s1 => s1.gmStore (bs.drop n) tag l
      | none => none
    else (s.writePiece a (bs.take n) tag).gmStore (bs.drop n) tag l

/-- The bytes of a write (R238, R249, R354): all of them, or none with the status of the failure. -/
def State.gmWrite (s : State) (a : Nat) (bs : List Byte) (tag : BitVec 2) (ecc : Eccs) : State × Nat :=
  let ps := pieces a bs.length
  let st := s.judgeAll (some bs) ps
  if st ≠ 0 then (s, st)
  else
    match s.gmMerge ecc ps with
    | (s1, false) => (s1, 0x12)
    | (s1, true) =>
      match s1.gmStore bs tag ps with
      | some s2 => (s2, 0)
      | none => (s, 0x11)

/-- A read of a word and the write it leads to, as one access (R355). -/
def State.gmUpdate (s : State) (a n : Nat) (ecc : Eccs) (f : List Byte → Option (List Byte)) : State × Nat × List Byte :=
  match s.gmRead a n ecc with
  | (s1, 0, old) =>
    match f old with
    | none => (s1, 0, old)
    | some new =>
      match s1.gmWrite a new 0 [] with
      | (s2, 0) => (s2, 0, old)
      | (_, st) => (s, st, [])
  | (s1, st, _) => (s1, st, [])

/-! ### Exact add -/

/-- The format of an exact-add contribution (R170). -/
def cfmtOf (cfmt : Nat) : FloatFmt :=
  match cfmt with | 0 => fmtE4M3 | 1 => fmtE5M2 | 2 => fmtBF16 | _ => fmtF32

/-- One contribution added into a target of 144 or 64 bits (R63): the target's new value and the status bits it raises. -/
def exactAdd (cfmt : Nat) (x64 : Bool) (anchor : Int) (old c : Nat) : Nat × Nat :=
  match (cfmtOf cfmt).decode c with
  | .fin neg m e =>
    let t := alignAdd anchor (signedInt neg m) e
    ((old + t.t.toNat) % 2 ^ (if x64 then 64 else 144), if t.lost then 1 else 0)
  | _ => (old, 2)

/-- Contributions added into consecutive targets (R63, R170); the statuses combine by OR. -/
def exactAdds (cfmt : Nat) (x64 : Bool) (anchor : Int) : Nat → List Byte → List Byte → List Byte × Nat
  | 0, _, _ => ([], 0)
  | k + 1, old, cs =>
    let w := if x64 then 8 else 18
    let z := cfmtSize cfmt
    let (v, st) := exactAdd cfmt x64 anchor (natOfBytes (old.take w)) (natOfBytes (cs.take z))
    let (rest, st2) := exactAdds cfmt x64 anchor k (old.drop w) (cs.drop z)
    (bytesOfNat w v ++ rest, st ||| st2)

/-- An exact-add packet performed (R63, R354). -/
def State.exactAddPacket (s : State) (p : Packet) (ecc : Eccs) : State × Nat × List Byte :=
  let cfmt := bitsAt p.param 0 2
  let x64 := p.param.testBit 2
  let anchor := (BitVec.ofNat 11 (bitsAt p.param 3 11)).toInt
  let k := p.data.length / cfmtSize cfmt
  let n := k * (if x64 then 8 else 18)
  match s.gmRead p.addr n ecc with
  | (s1, 0, old) =>
    let (new, st) := exactAdds cfmt x64 anchor k old p.data
    match s1.gmWrite p.addr new 0 [] with
    | (s2, 0) => (s2, st, [])
    | (_, e) => (s, e, [])
  | (s1, e, _) => (s1, e, [])

/-! ### Performing a request -/

/-- A request packet performed (R354): the state, the status and the data returned. -/
def State.perform (s : State) (p : Packet) (ecc : Eccs) : State × Nat × List Byte :=
  match p.kind with
  | 1 => s.gmRead p.addr p.len ecc
  | 2 => let (t, st) := s.gmWrite p.addr p.data p.tag ecc; (t, st, [])
  | 3 => let (t, st) := s.gmWrite p.addr p.data p.tag ecc; (t, st, [])
  | 4 => s.exactAddPacket p ecc
  | 5 => s.gmUpdate p.addr 8 ecc fun old => some (bytesOfNat 8 ((natOfBytes old + natOfBytes p.data) % 2 ^ 64))
  | 6 => s.gmUpdate p.addr 8 ecc fun old => if old = p.data.take 8 then some (p.data.drop 8) else none
  | _ =>
    match s.regAt p.addr with
    | some .islSync =>
      (s.addCounter ((p.addr - islBase 0) / 0x200000) ((p.addr - islBase 0) % 0x200000 / 8 % 256) (BitVec.ofNat 32 p.param) none, 0, [])
    | some _ => (s, 0x11, [])
    | none => (s, if s.region p.addr = .absent ∨ s.region p.addr = .control then 0x10 else 0x11, [])

/-- A request packet's key (R364). -/
def pktKey (p : Packet) : PktKey := { source := p.source, reqr := p.reqr, birth := p.birth, index := p.index }

/-- The size of the done table (R364). -/
def doneEntries : Nat := 16384
/-- The size of the put table (R364). -/
def putEntries : Nat := 2048

/-- A put packet whose entry exists (R365): written and its index recorded, unless it was before; the last one raises the completion
counter. -/
def State.putInto (s : State) (e : PutEntry) (p : Packet) (ecc : Eccs) : State × Nat :=
  if e.indices.contains p.index then (s.bump aGmuDedup F.gmuDedup_dupHits 1, 0)
  else
    match s.perform p ecc with
    | (s1, 0, _) =>
      let e1 : PutEntry := { e with indices := e.indices ++ [p.index] }
      let s2 := { s1 with gmu := { s1.gmu with puts := s1.gmu.puts.map fun x => if x.key = e.key then e1 else x } }
      (if e1.indices.length = e1.total then s2.wrapAdd (aCrpCc (bitsAt p.param 0 12)) F.crpCc_value 1 else s2, 0)
    | (s1, st, _) => (s1, st)

/-- Whether a tagged request packet may be performed (R372): its source is the package itself, and it lies in LPDDR5X or the
tile-memory window. -/
def State.tagAllowed (s : State) (p : Packet) : Bool :=
  decide (p.tag = 0) || (decide (p.source = s.self) && (match s.region p.addr with | .lpddr => true | .tile _ _ _ => true | _ => false))

/-- What a request packet is answered with (R364, R365, R372, R495). -/
def State.serve (s : State) (p : Packet) (ecc : Eccs) : State × Nat × List Byte :=
  let away := s.flag aBocState F.bocState_withdrawing
  if p.kind = 3 then
    let k := ({ pktKey p with index := 0 } : PktKey)
    match s.gmu.puts.find? fun e => decide (e.key = k) with
    | some e =>
      if !e.indices.contains p.index ∧ !s.tagAllowed p then (s, 0x11, []) else let (t, st) := s.putInto e p ecc; (t, st, [])
    | none =>
      if away then (s, 0x16, [])
      else if !s.tagAllowed p then (s, 0x11, [])
      else if putEntries ≤ s.gmu.puts.length then (s.bump aGmuDedup F.gmuDedup_busy 1, 0x15, [])
      else
        let e : PutEntry := { key := k, total := p.total, indices := [] }
        let (t, st) := { s with gmu := { s.gmu with puts := s.gmu.puts ++ [e] } }.putInto e p ecc
        (t, st, [])
  else if p.kind = 1 then
    if away then (s, 0x16, []) else if !s.tagAllowed p then (s, 0x11, []) else s.perform p ecc
  else
    match s.gmu.done.find? fun d => decide (d.key = pktKey p) with
    | some d => (s.bump aGmuDedup F.gmuDedup_dupHits 1, d.status, d.word)
    | none =>
      if away then (s, 0x16, [])
      else if !s.tagAllowed p then (s, 0x11, [])
      else if doneEntries ≤ s.gmu.done.length then (s.bump aGmuDedup F.gmuDedup_busy 1, 0x15, [])
      else
        let (t, st, w) := s.perform p ecc
        ({ t with gmu := { t.gmu with done := t.gmu.done ++ [{ key := pktKey p, status := st, word := w }] } }, st, w)

/-! ### Arrivals -/

/-- Where a packet waits: its input port and channel. -/
def State.inputOf (s : State) (p : Packet) : Option (Nat × Nat) :=
  let fs := p.flits.map Flit.payload
  ((List.range numPorts).flatMap fun port => (List.range 6).map fun v => (port, v)).find? fun x =>
    decide (((Tbl.get [] (s.port x.1).vcs x.2).take fs.length).map Flit.payload = fs)

/-- A packet leaves the place it waits in: the package's own queue, or a port's buffer, whose entries are free (R324, R327). -/
def State.consume (s : State) (p : Packet) : State :=
  if s.gmu.own.contains p then { s with gmu := { s.gmu with own := s.gmu.own.erase p } }
  else
    match s.inputOf p with
    | some (port, v) => s.freeEntries port v p.flitCount
    | none => s

/-- The checks of an arriving packet (R353, R363, R369): none when it is discarded. A package's own packets never entered the fabric. -/
def State.arrived (s : State) (p : Packet) : State × Bool :=
  let local_ := s.gmu.own.contains p
  let s := s.consume p
  if !p.crcOk then (((s.bump aGmuDrop F.gmuDrop_crc 1).event 4 0x32 1 0 (p.source + p.kind * 2 ^ 16)).suspect 4, false)
  else if local_ then (s, true)
  else if s.tooOld p.birth p.age then (s.bump aGmuDrop F.gmuDrop_lifetime 1, false)
  else if s.bankState p.epoch = 0 then (s.bump aGmuDrop F.gmuDrop_epoch 1, false)
  else (s, true)

/-- REQUEST_PACKET_ARRIVAL: a request packet is checked, deduplicated, performed and answered (R353, R354, R363 to R365). A packet of a
reserved kind is discarded. -/
def execRequestPacketArrival (pkt : Packet) (ecc : Eccs) (s : State) : Out :=
  match s.arrived pkt with
  | (s1, false) => .next s1
  | (s1, true) =>
    if pkt.kind = 0 ∨ 7 < pkt.kind then .next s1
    else
      let (s2, st, data) := s1.serve pkt ecc
      .next (s2.sendPacket (answerTo pkt st data))

/-- The status a finished request reports (R356): its first failure in packet order, else the OR of the success codes. -/
def requestStatus : List (Option Answer) → Nat
  | [] => 0
  | some a :: l => if 4 ≤ a.status then a.status else
      let r := requestStatus l
      if 4 ≤ r then r else a.status ||| r
  | none :: l => requestStatus l

/-- Whether an answer is final: any status but busy (R358). -/
def Answer.isFinal (a : Answer) : Bool := decide (a.status ≠ 0x15)

/-- The answers of a request, by packet index. -/
def Req.inOrder (q : Req) (k : Nat) : List (Option Answer) := (List.range k).map fun i => Tbl.get none q.answers i

/-- A response that answers no open packet (R359). -/
def State.lateResponse (s : State) : State := s.bump aGmuLate F.gmuLate_discarded 1

/-- RESPONSE_ARRIVAL: a response answers its packet; the request resolves when every packet has its final answer (R353, R359, R360). -/
def execResponseArrival (pkt : Packet) (s : State) : Out :=
  match s.arrived pkt with
  | (s1, false) => .next s1
  | (s1, true) =>
    let n := bitsAt pkt.reqr 14 9
    let u := bitsAt pkt.reqr 4 10
    let t := pkt.reqr % 16
    let k := reqKey n u t
    match s1.req k, Tbl.get none (s1.core n u).trk t with
    | some q, some r =>
      let old := Tbl.get none q.answers pkt.index
      let held := match old with | some a => a.isFinal | none => false
      if decide (q.birth ≠ pkt.birth ∨ r.packets ≤ pkt.index) || held then .next s1.lateResponse
      else
        let q1 : Req := { q with answers := Tbl.set none q.answers pkt.index (some { status := pkt.status, data := pkt.data }) }
        let l := q1.inOrder r.packets
        if l.all fun a => match a with | some a => a.isFinal | none => false then
          .next (s1.resolve n u t (requestStatus l) pkt.data)
        else .next (s1.setReq k (some q1))
    | _, _ => .next s1.lateResponse

/-- ATTEMPT_TIMER: the next attempt resends every packet without a final answer (R358), unless packets of this attempt still wait to
depart, four attempts have been made, the deadline has come, or the request is the package's own (R348). -/
def execAttemptTimer (n u tracker : Nat) (s : State) : Out :=
  if s.hasCore n u ∧ tracker < 16 then
    match s.req (reqKey n u tracker), Tbl.get none (s.core n u).trk tracker with
    | some q, some r =>
      let waits := s.gmu.waiting.any fun p => decide (p.kind < 0x80 ∧ p.reqr = requester n u tracker)
      if q.attempt < 3 ∧ !waits ∧ s.destOf r ≠ s.self ∧ !nsReached s.nowNs (s.deadline q.birth) then
        let q1 : Req := { q with attempt := q.attempt + 1 }
        let ps := s.openPackets n u tracker r q1
        .next (ps.foldl State.sendPacket ((s.setReq (reqKey n u tracker) (some q1)).bump aGmuTrack F.gmuTrack_retries ps.length))
      else .next s
    | _, _ => .next s
  else .fault .absentUnit

/-- REQUEST_DEADLINE: at D an open request resolves busy when the last answer to some unanswered packet was busy, and timeout
otherwise (R360). -/
def execRequestDeadline (n u tracker : Nat) (s : State) : Out :=
  if s.hasCore n u ∧ tracker < 16 then
    match s.req (reqKey n u tracker), Tbl.get none (s.core n u).trk tracker with
    | some q, some r =>
      let busy := (q.inOrder r.packets).any fun a => match a with | some a => !a.isFinal | none => false
      .next (s.resolve n u tracker (if busy then 0x15 else 0x14) [])
    | _, _ => .next s
  else .fault .absentUnit

/-- DEDUP_ENTRY_FREE: an entry of the done or the put table is freed (R364). -/
def execDedupEntryFree (isPut : Bool) (index : Nat) (s : State) : Out :=
  if isPut then .next { s with gmu := { s.gmu with puts := s.gmu.puts.eraseIdx index } }
  else .next { s with gmu := { s.gmu with done := s.gmu.done.eraseIdx index } }

/-! ### Routing changes -/

/-- The content of a route install and of its ready: the link key and its new state (R370). -/
def routeContent (key : Nat) (down : Bool) : Nat := key + if down then 2 ^ 19 else 0

/-- A member's own list of down links brought up to date with an install (R368). -/
def State.noteLink (s : State) (key : Nat) (down : Bool) : State :=
  let l := s.gmu.downs.filter fun k => k ≠ key
  { s with gmu := { s.gmu with downs := if down then l ++ [key] else l } }

/-- The lead sends route installs for the changes of one table change (R369). -/
def State.sendInstalls (s : State) (l : List (Nat × Bool)) : State :=
  let e := 1 - s.getF aGmuEpoch F.gmuEpoch_inject
  let s := { s with gmu := { s.gmu with asked := l, ready := [] } }
  l.foldl (fun s c => s.sendAll (s.msgOf 0x04 [(22, e), (64, routeContent c.1 c.2)])) s

/-- A link change the lead takes up: at once when no change is under way, else after the present one (R369). -/
def State.routeChange (s : State) (key : Nat) (down : Bool) : State :=
  if s.gmu.asked.isEmpty then s.sendInstalls [(key, down)]
  else { s with gmu := { s.gmu with changes := s.gmu.changes ++ [(key, down)] } }

/-- ROUTE_INSTALL: a member builds the next table into the retired bank, marks it installed and answers (R369, R370). -/
def execRouteInstall (msg : Msg) (s : State) : Out :=
  let s := s.takeMsg msg
  let e := msgBits msg 22 1
  if s.bankState e = 2 then .next s
  else
    let key := msgBits msg 64 19
    let down := msg.getLsbD 83
    let s := ((s.noteLink key down).buildBank e).setBank e 1
    .next (s.sendTo (msgBits msg 8 14) (s.msgOf 0x05 [(22, e), (64, routeContent key down)]))

/-- The members that must answer a route install: those of the box that are not lost. -/
def State.livingMembers (s : State) : List Nat := s.boxMembers.filter fun p => !s.rcv.lost.contains p

/-- ROUTE_READY: when every member has answered every install, the lead broadcasts the flip, 10 µs ahead (R369). -/
def execRouteReady (msg : Msg) (s : State) : Out :=
  let s := s.takeMsg msg
  if !s.isLead ∨ s.gmu.asked.isEmpty then .next s
  else
    let e := (msgBits msg 8 14, msgBits msg 64 19)
    let ready := if s.gmu.ready.contains e then s.gmu.ready else s.gmu.ready ++ [e]
    let s := { s with gmu := { s.gmu with ready := ready } }
    if s.livingMembers.all fun p => s.gmu.asked.all fun c => ready.contains (p, c.1) then
      .next (s.sendAll (s.msgOf 0x06 [(22, msgBits msg 22 1), (64, (s.nowNs + 10000) % 2 ^ 48)]))
    else .next s

/-- ROUTE_FLIP: a member notes the flip beat (R369). -/
def execRouteFlip (msg : Msg) (s : State) : Out :=
  let s := s.takeMsg msg
  .next { s with gmu := { s.gmu with flip := some (msgBits msg 64 48) } }

/-- EPOCH_FLIP: at the flip beat new packets and retries take the new epoch bit (R369). -/
def execEpochFlip (s : State) : Out :=
  let e := 1 - s.getF aGmuEpoch F.gmuEpoch_inject
  if s.gmu.flip.isSome ∧ s.bankState e = 1 then
    let s := ((s.setBank e 2).setF aGmuEpoch F.gmuEpoch_inject e).bump aGmuEpoch F.gmuEpoch_changes 1
    .next { s with gmu := { s.gmu with flip := none } }
  else .next s

/-- EPOCH_RETIRE: 20 µs after the flip the old bank is retired, and the lead starts the next change, or the restart that waited for this one (R369,
R426). -/
def execEpochRetire (s : State) : Out :=
  let e := 1 - s.getF aGmuEpoch F.gmuEpoch_inject
  if s.bankState e = 2 then
    let s := s.setBank e 0
    let next := s.gmu.changes
    let s := { s with gmu := { s.gmu with asked := [], ready := [], changes := [] } }
    .next (if s.isLead ∧ !next.isEmpty then s.sendInstalls next else s.leadResume)
  else .next s

end Sys2Proof.Machine
end

