-- ==== Sys2Proof/Machine/Recovery.lean ====
section
/-! DEFINITION. Living with faults (R396 to R435): valve swaps and the ledger, commit and discard, sweeps, shadow replay, localisation,
the slice lead and its successors, restart, and the loss of a package. -/

namespace Sys2Proof.Machine

/-! ### Valve swaps and the ledger -/

/-- Field, island, cluster, core and index of a unit id (R400). -/
def uField (u : BitVec 32) : Nat := bitsAt u.toNat 3 3
/-- Physical island of a unit id. -/
def uIsland (u : BitVec 32) : Nat := bitsAt u.toNat 6 6
/-- Cluster of a unit id. -/
def uCluster (u : BitVec 32) : Nat := bitsAt u.toNat 12 4
/-- Physical core of a unit id. -/
def uCore (u : BitVec 32) : Nat := bitsAt u.toNat 16 6
/-- Lane, channel or other index of a unit id. -/
def uIndex (u : BitVec 32) : Nat := bitsAt u.toNat 22 10

/-- The lowest physical core of a cluster that no logical core uses and that is not retired (R397). -/
def State.spareCore (s : State) (n cl : Nat) : Option Nat :=
  let f := s.fieldOf n
  let used := (List.range 60).map fun k => s.physCore n (60 * cl + k)
  (List.range 64).find? fun p => !used.contains p && !s.isRetired (unitId 2 f (s.physIsland n) cl p 0)

/-- The lowest physical island of a field that no logical island uses and that is not retired (R397). -/
def State.spareIsland (s : State) (f : Nat) : Option Nat :=
  let used := (List.range s.perField).map fun i => s.physIsland (f * s.perField + i)
  (List.range 42).find? fun p => !used.contains p && !s.isRetired (unitId 4 f p 0 0 0)

/-- A swap made: the unit waits no more, and it is counted (R398, R436). -/
def State.swapped (s : State) (u : BitVec 32) : State :=
  let s := s.bump aFltRecovery F.fltRecovery_swaps 1
  { s with flt := { s.flt with newly := s.flt.newly.filter fun v => v ≠ u }, rcv := { s.rcv with swaps := s.rcv.swaps + 1 } }

/-- A retired unit that has no replacement at its level: the next larger one is retired for it (R19), with the ledger's cause 5 (DESIGN
CHOICE, log 98: R401 lists no cause for it). -/
def State.passUp (s : State) (u v : BitVec 32) : State :=
  { s with flt := { s.flt with newly := s.flt.newly.filter fun w => w ≠ u } }.retireUnit v 5 0

/-- A cluster of an island retired, and the island with it (R19). -/
def State.passIsland (s : State) (u : BitVec 32) : State :=
  s.passUp u (unitId 4 (uField u) (uIsland u) 0 0 0)

/-- A retired unit of a job replaced at a boundary (R19, R26, R397): a lane by its unit's spare, a core by an unused one, an island, or
the island of a retired cluster, by a spare one after an abort. What has no spare passes up: a second lane retires its core, a fifth core
its cluster and with it the island, and an island without a spare the package is lost for (R26). A unit that no logical one uses needs
no swap. -/
def State.swapUnit (s : State) (u : BitVec 32) : State :=
  let f := uField u
  let unused := { s with flt := { s.flt with newly := s.flt.newly.filter fun v => v ≠ u } }
  match s.logicalIsland f (uIsland u) with
  | none => unused
  | some n =>
    match unitLevel u with
    | 1 =>
      let q := 64 * (16 * (42 * f + uIsland u) + uCluster u) + uCore u
      let free := s.valveLane q
      if free = uIndex u then unused
      else if s.isRetired (unitId 1 f (uIsland u) (uCluster u) (uCore u) free) then
        s.passUp u (unitId 2 f (uIsland u) (uCluster u) (uCore u) 0)
      else { s with flt := { s.flt with laneOver := Tbl.set none s.flt.laneOver q (some (uIndex u)) } }.swapped u
    | 2 =>
      match (List.range 60).find? fun k => decide (s.physCore n (60 * uCluster u + k) = uCore u) with
      | none => unused
      | some k =>
        match s.spareCore n (uCluster u) with
        | some p =>
          { s with flt := { s.flt with coreOver := Tbl.set none s.flt.coreOver (ckey n (60 * uCluster u + k)) (some p) } }.swapped u
        | none =>
          let cl := unitId 3 f (uIsland u) (uCluster u) 0 0
          (s.passUp u cl).passIsland cl
    | 3 => s.passIsland u
    | 4 =>
      match s.spareIsland f with
      | some p =>
        let t := { s with flt := { s.flt with islOver := Tbl.set none s.flt.islOver n (some p) } }.swapped u
        if s.brt.aborted then t else { t with brt := { t.brt with aborted := true } }.faultReport 1 [(96, n)]
      | none => s.lostToSlice
    | 5 | 6 => s.lostToSlice
    | _ => unused

/-- VALVE_SWAP: at a boundary taken at least 10 µs before the next start, a unit retired during the job is replaced (R26, R397). -/
def execValveSwap (unit : BitVec 32) (s : State) : Out :=
  let early := !s.brt.running || beatReached s.tNext (s.beat + nsBeat 10000)
  if s.brt.job && s.flt.newly.contains unit && (s.atBoundary || s.brt.aborted) && early then .next (s.swapUnit unit) else .next s

/-- HOURS_MARK: an operating hour has passed; the ledger carries the count (R401). -/
def execHoursMark (s : State) : Out :=
  .next ((s.setF aFltLedger F.fltLedger_minutes (s.getF aFltLedger F.fltLedger_minutes + 60)).ledgerRecord 1 0 0 0)

/-- SUPPRESSED_RECORD_FLUSH: the pending count is written as one record when the limit allows (R402). -/
def execSuppressedRecordFlush (s : State) : Out :=
  let k := s.getF aFltLedger F.fltLedger_pending
  if k = 0 then .next s
  else
    let t := (s.setF aFltLedger F.fltLedger_pending 0).ledgerRecord 7 0 0 k
    .next (if t.flt.ledger.length = s.flt.ledger.length then s else t)

/-- LEDGER_COMPACT: outside any job, a region that is 90 % full keeps its retirements, reproductions and hours marks, and one summary for
each unit with faults detected in the last 60,000 minutes (R402). -/
def execLedgerCompact (s : State) : Out :=
  let l := s.flt.ledger
  if s.brt.job ∨ l.length * 10 < 524288 * 9 then .next s
  else
    let now := s.getF aFltLedger F.fltLedger_minutes
    let keep := l.filter fun r => decide (r.kind = 4 ∨ r.kind = 3 ∨ r.kind = 1)
    let found := l.filter fun r => decide (r.kind = 2 ∧ now ≤ r.minutes + 60000)
    let top := match l.getLast? with | some r => r.seq + 1 | none => 0
    let units := (found.map Ledger.unit).eraseDups
    let sums := (units.zipIdx top).map fun p =>
      ({ kind := 6, cause := 0, unit := p.1, minutes := now, detail := (found.filter fun r => decide (r.unit = p.1)).length, beat := s.beat,
         seq := p.2 } : Ledger)
    let s := { s with flt := { s.flt with ledger := keep ++ sums } }
    .next (s.setFs aFltLedger [(F.fltLedger_used, (keep ++ sums).length), (F.fltLedger_mirrorOk, 1)])

/-! ### The members of a slice -/

/-- The record of a package in the manifest (R451). -/
def State.memberRec (s : State) (p : Nat) : Option Member :=
  match s.manifest with
  | some m => m.members.find? fun r => decide (r.index = p)
  | none => none

/-- The manifest's replay resource: 0 none, 1 spares, 2 a partner box (R414, R451). -/
def State.replayKind (s : State) : Nat := match s.manifest with | some m => bitsAt m.flags 1 2 | none => 0

/-- Whether a package lies in a box of packages. -/
def inBox (low extM1 p : Nat) : Bool :=
  (List.range 3).all fun a => decide (coordOn a low ≤ coordOn a p ∧ coordOn a p ≤ coordOn a low + coordOn a extM1)

/-- The members that run the job (R407, R414): no spare in standby, none lost, none of a partner box, and every promoted spare. -/
def State.workers (s : State) : List Nat :=
  match s.manifest with
  | none => []
  | some m =>
    let base := (m.members.filter fun r => !r.spare && (decide (s.replayKind ≠ 2) || inBox m.workLow m.workExtM1 r.index)).map Member.index
    (base ++ s.rcv.spares).filter fun p => !s.rcv.lost.contains p

/-- The partner package that replays a working package (R414): its place in the working box, rotated by r, in the partner box. -/
def State.partnerOf (s : State) (p : Nat) : Nat :=
  match s.manifest with
  | none => p
  | some m =>
    (List.range 3).foldl (fun q a =>
      let e := coordOn a m.workExtM1 + 1
      withCoord a q (coordOn a m.partnerLow + (coordOn a p - coordOn a m.workLow + coordOn a m.rotation) % e)) 0

/-- A spare of a member that is neither lost nor in use (R414, R428). -/
def State.spareFor (s : State) (p : Nat) (busy : List Nat) : Option Nat :=
  match s.memberRec p with
  | some r => r.spares.find? fun q => decide (q < 2 ^ 14) && !s.rcv.lost.contains q && !s.rcv.spares.contains q && !busy.contains q
  | none => none

/-! ### Commit and discard on the lead -/

/-- The lead commits a step (R412): every member hears of it. -/
def State.commitStep (s : State) (n : Nat) : State :=
  let s := { s with rcv := { s.rcv with
      decided := n, replay := none, waits := none, reports := s.rcv.reports.filter fun r => decide (n < r.step),
      digests := s.rcv.digests.filter fun d => decide (n < d.step), swept := s.rcv.swept.filter fun w => decide (n < w.2 + 4) } }
  s.sendAll (s.msgOf 0x22 [(24, n)])

/-- The lead discards a step and its successor (R413). -/
def State.discardStep (s : State) (n : Nat) : State :=
  let s := { s with rcv := { s.rcv with
      replay := none, waits := none, restart := true, reports := s.rcv.reports.filter fun r => decide (r.step < n),
      digests := s.rcv.digests.filter fun d => decide (d.step < n) } }
  s.sendAll (s.msgOf 0x23 [(24, n)])

/-- The digest a package has sent for a step, when all four parts are there (R417). -/
def State.digestOf (s : State) (p step : Nat) (replayer : Bool) : Option (List (BitVec 64)) :=
  let part := fun k => s.rcv.digests.find? fun d => decide (d.package = p ∧ d.step = step % 2 ^ 32 ∧ d.part = k) && (d.replayer == replayer)
  match part 0, part 1, part 2, part 3 with
  | some a, some b, some c, some d => some [a.bits, b.bits, c.bits, d.bits]
  | _, _, _, _ => none

/-- Whether one replay has ended, and with equal digests (R417). -/
def State.compared (s : State) (step : Nat) (pair : Nat × Nat) : Option Bool :=
  match s.digestOf pair.1 step false, s.digestOf pair.2 step true with
  | some a, some b => some (decide (a = b))
  | _, _ => none

/-! ### Losing a package -/

/-- The package one step along a direction from another. -/
def State.neighbourOf (s : State) (pkg dir : Nat) : Nat :=
  let a := dir / 2
  let e := s.torus a
  let h := coordOn a pkg
  withCoord a pkg (if dir % 2 = 0 then (h + 1) % e else (h + e - 1) % e)

/-- Whether a package is no admitted member: it lies outside the slice or is lost, so that its bypasses join its neighbours (R299, R483). -/
def State.outOfSlice (s : State) (pkg : Nat) : Bool := !s.isMember pkg || s.rcv.lost.contains pkg

/-- The package at the far end of a link, as seen from its end `pkg` along `dir`: one further across the closed bypass of a package that is
not in the slice, or where the manifest plans one (R270, R299, R451). -/
def State.farOf (s : State) (pkg dir key : Nat) : Nat :=
  let n := s.neighbourOf pkg dir
  if s.outOfSlice n ∨ s.exceptionAt key = some 1 then s.neighbourOf n dir else n

/-- The link key of a port of a package (R270). -/
def State.keyOf (s : State) (pkg p : Nat) : Nat :=
  let dir := p / 8
  let at_ := fun (plus : Nat) => plus + dir / 2 * 2 ^ 14 + p % 8 * 2 ^ 16
  if dir % 2 = 0 then at_ pkg
  else at_ (s.farOf pkg dir (at_ (s.neighbourOf (s.neighbourOf pkg dir) dir)))

/-- The package of a link's + end, and of its other end. -/
def State.linkEnds (s : State) (key : Nat) : Nat × Nat := (key % 2 ^ 14, s.farOf (key % 2 ^ 14) (2 * (key / 2 ^ 14 % 4)) key)

/-- The link keys of a package's ports that lead to members (R346, R451): those outside the box are fenced, absent ones do not
exist. -/
def State.linksOf (s : State) (pkg : Nat) : List Nat :=
  let absent := match s.manifest with
    | some m => (m.exceptions.filter fun x => decide (bitsAt x 19 2 = 0)).map fun x => x % 2 ^ 19
    | none => []
  ((List.range numPorts).filter fun p =>
    let dir := p / 8
    let h := coordOn (dir / 2) pkg
    let low := s.lowCorner (dir / 2)
    (s.ownsRing (dir / 2) || (if dir % 2 = 0 then decide (h + 1 < low + s.extent (dir / 2)) else decide (low < h))) &&
      !absent.contains (s.keyOf pkg p)).map fun p => s.keyOf pkg p

/-- The lead broadcasts abort for a cause, unless it owes a restart already (R426, R432). -/
def State.leadAbort (s : State) (cause : Nat) : State :=
  if s.rcv.restart then s
  else
    let s := { s with rcv := { s.rcv with restart := true } }
    s.sendAll (s.msgOf 0x29 [(32, s.getF aBocBreath F.bocBreath_index), (96, cause)])

/-- The lead stops the slice (R428, R432): members freeze, no restart follows, and an event names the reason. -/
def State.stopSlice (s : State) (reason : Nat) : State :=
  let s := (s.leadAbort 3).event 7 0x62 0 0 reason
  { s with rcv := { s.rcv with stopped := true, restart := false } }

/-- The newest snapshot step that is complete, and the buddy slot that holds it (R429): snapshots of step s are taken in step s + 2 and
alternate between the slots. -/
def State.snapshot (s : State) : Nat × Nat :=
  let c := match s.manifest with | some m => max m.cadence 1 | none => 1
  let k := (s.committed - 2) / c
  (k * c, (k + 1) % 2)

/-- The links of a lost package taken out of the routing tables (R368, R428). -/
def State.dropLinks (s : State) (keys : List Nat) : State :=
  (keys.filter fun k => !s.rcv.downs.contains k).foldl (fun s k =>
    { s with rcv := { s.rcv with downs := s.rcv.downs ++ [k] } }.routeChange k true) s

/-- The member whose part a package runs: the one it replaces, or its own (R431). -/
def State.ownerOf (s : State) (pkg : Nat) : Nat :=
  match (List.range 16).find? fun i => s.flag (aFltSubst i) F.fltSubst_valid && decide (s.getF (aFltSubst i) F.fltSubst_spare = pkg) with
  | some i => s.getF (aFltSubst i) F.fltSubst_lost
  | none => pkg

/-- A package that takes a place in the slice has run none of its steps, so no tag of it is left to sweep (R411). -/
def State.nothingToSweep (s : State) (p : Nat) : State :=
  { s with rcv := { s.rcv with swept := s.rcv.swept ++ (List.range 3).map fun k => (p, s.rcv.decided - k) } }

/-- The lead declares a member lost (R428 to R432): its links leave the tables; a spare in standby only leaves the spare set; for a
running member a spare is promoted after an abort, and the slice regenerates from the newest snapshot; with no spare, or with
its buddy lost as well, the slice stops. -/
def State.lose (s : State) (pkg : Nat) : State :=
  if !s.isLead || pkg = s.self || s.rcv.lost.contains pkg then s
  else
    match s.memberRec pkg with
    | none => s
    | some r =>
      let running := s.workers.contains pkg
      let s := { s with rcv := { s.rcv with lost := s.rcv.lost ++ [pkg], replay := none } }.dropLinks (s.linksOf pkg)
      if !running then s
      else
        let owner := s.ownerOf pkg
        let buddyLost := match s.memberRec owner with | some o => s.rcv.lost.contains o.buddy | none => s.rcv.lost.contains r.buddy
        if buddyLost then s.stopSlice 2
        else
          match s.spareFor owner [] with
          | none => s.stopSlice 1
          | some sp =>
            let snap := s.snapshot
            let s := (s.leadAbort 3).nothingToSweep sp
            let s := { s with rcv := { s.rcv with spares := s.rcv.spares ++ [sp], regen := some (snap.1 + 1) } }
            s.sendAll (s.msgOf 0x28 [(24, owner), (38, sp), (52, snap.2)])

/-- PACKAGE_LOST: the lead finds a member lost (R26, R27, R418, R428, R496); one lost itself falls silent, and a successor takes over (R424). -/
def execPackageLost (package : Nat) (s : State) : Out :=
  .next (if s.isLead ∧ package = s.self ∧ s.brt.job then s.lostToSlice else s.lose package)

/-! ### Links that go down, on the lead -/

/-- Every slot entry a patch adds, with the package and the port it is added to (R294). -/
def State.patchSlots (s : State) (key : Nat) : List (Nat × Nat × Nat) :=
  ((s.patchAll key).filter fun r => decide (bitsAt r 0 4 = 1)).map fun r => (bitsAt r 4 14, bitsAt r 36 6, r / 2 ^ 128)

/-- The links of a patch's detour: the ports its records use, at the packages that apply them (R294, R296). -/
def State.patchLinks (s : State) (key : Nat) : List Nat :=
  (s.patchAll key).flatMap fun r =>
    (recordPorts r).flatMap fun p => (if r.testBit 18 then s.workers else [bitsAt r 4 14]).map fun m => s.keyOf m p

/-- Whether two slot entries claim one slot (R276). -/
def entriesMeet (a b : Nat) : Bool :=
  (List.range (slCountM1 a + 1)).any fun i => slClaims b (slStart a + i * slStride a)

/-- Whether a patch cannot run (R296): its detour needs a link that is down, or claims a detour slot that an active patch claims. -/
def State.patchBlocked (s : State) (key : Nat) : Bool :=
  let mine := s.patchSlots key
  ((s.patchLinks key).any fun k => s.rcv.downs.contains k) || mine.any fun x =>
    s.fab.patches.any fun p => (s.patchSlots p.1).any fun y => decide (x.1 = y.1 ∧ x.2.1 = y.2.1) && entriesMeet x.2.2 y.2.2

/-- Whether some member has no link left in one of its directions (R368): an escape direction with no port. -/
def State.severed (s : State) (key : Nat) : Bool :=
  let (a, b) := s.linkEnds key
  let axis := key / 2 ^ 14 % 4
  let gone := fun (pkg dir : Nat) => (List.range 8).all fun k => s.rcv.downs.contains (s.keyOf pkg (8 * dir + k))
  gone a (2 * axis) || gone b (2 * axis + 1)

/-- Whether every link of a package is reported down (R428). -/
def State.cutOff (s : State) (pkg : Nat) : Bool := (s.linksOf pkg).all fun k => s.rcv.downs.contains k

/-- The lead hears that a link is down (R296, R368, R428): an end that lost every link is lost, a change that would sever a direction or a
patch that cannot run costs the package at the + end; else the tables change, the breath is aborted when it still uses the link, and
the link's patch is ordered. Of two ends that lost every link the − side's is lost (DESIGN CHOICE, log 151). -/
def State.linkReported (s : State) (key : Nat) (uses : Bool) : State :=
  if s.rcv.downs.contains key then (if uses then s.leadAbort 3 else s)
  else
    let (a, b) := s.linkEnds key
    let t := { s with rcv := { s.rcv with downs := s.rcv.downs ++ [key] } }
    if t.cutOff b ∧ b ≠ s.self then s.lose b
    else if t.cutOff a ∧ a ≠ s.self then s.lose a
    else if t.severed key then s.lose a
    else if s.patchBlocked key then (s.bump aCrpPatchLog F.crpPatchLog_refused 1).lose a
    else
      let t := t.routeChange key true
      let t := if uses then t.leadAbort 3 else t
      if t.brt.job then t.orderPatch key else t

/-- The lead hears that a link failed authentication (R463): the slice aborts, and from the second failure in the job on the link is down
as well. -/
def State.authReported (s : State) (key : Nat) : State :=
  let s := s.leadAbort 6
  if s.rcv.badAuth.contains key then s.linkReported key true
  else { s with rcv := { s.rcv with badAuth := s.rcv.badAuth ++ [key] } }

/-- FAULT_REPORT: the lead acts on a member's report (R425, R426): a link down by R296, anything else by an abort. -/
def execFaultReport (msg : Msg) (s : State) : Out :=
  let s := s.takeMsg msg
  if !s.isLead then .next s
  else
    let cause := msgBits msg 24 8
    if cause = 3 then .next (s.linkReported (msgBits msg 96 19) (msg.getLsbD 115))
    else if cause = 0 ∨ 7 < cause ∨ !s.brt.job then .next s
    else if cause = 6 then .next (s.authReported (s.keyOf (msgBits msg 8 14) (msgBits msg 96 6)))
    else .next (s.leadAbort cause)

/-! ### Steps on the lead -/

/-- A replay ordered for a suspect step (R414, R417): the member and its spare, or every working package and its partner. -/
def State.orderReplay (s : State) (step p : Nat) : State :=
  let order := fun (s : State) (dst a b : Nat) => s.sendTo dst (s.msgOf 0x25 [(24, step), (72, a), (86, b)])
  let busy : List Nat := match s.rcv.replay with | some r => r.pairs.map Prod.snd | none => []
  let count := fun (s : State) =>
    { s.bump aFltRecovery F.fltRecovery_replays 1 with rcv := { s.rcv with replays := s.rcv.replays + 1 } }
  match s.replayKind with
  | 1 =>
    match s.spareFor p busy with
    | some sp =>
      let old := match s.rcv.replay with | some r => r.pairs | none => []
      let s := { s with rcv := { s.rcv with replay := some { step := step, pairs := old ++ [(p, sp)], above := false } } }
      count (order (order s p p sp) sp p sp)
    | none => { s with rcv := { s.rcv with replay := some { step := step, pairs := [], above := true } } }
  | 2 =>
    if s.rcv.replay.isSome then s
    else
      let pairs := s.workers.map fun w => (w, s.partnerOf w)
      let s := { s with rcv := { s.rcv with replay := some { step := step, pairs := pairs, above := false } } }
      count (pairs.foldl (fun s w => order (order s w.1 w.1 0x3FFF) w.2 w.1 0x3FFF) s)
  | _ => s

/-- STEP_REPORT: the lead holds a member's report; causes order a replay at once (R407, R417). -/
def execStepReport (msg : Msg) (s : State) : Out :=
  let s := s.takeMsg msg
  let r : Report := { member := msgBits msg 8 14, step := msgBits msg 24 48, causes := msgBits msg 72 8 }
  if !s.isLead ∨ r.step ≤ s.rcv.decided ∨ s.rcv.restart then .next s
  else
    let s := { s with rcv := { s.rcv with reports := (s.rcv.reports.filter fun x => !decide (x.member = r.member ∧ x.step = r.step)) ++ [r] } }
    let fits := match s.rcv.replay with | some q => decide (q.step = r.step) && !q.above | none => true
    .next (if decide (r.causes ≠ 0) && fits then s.orderReplay r.step r.member else s)

/-- The slice waits for management to decide a suspect step (R414): an event says so once. -/
def State.awaitDecision (s : State) (n : Nat) : State :=
  if s.rcv.waits = some n then s
  else ({ s with rcv := { s.rcv with waits := some n } }).event 6 0x53 0 0 n

/-- Replays that disagreed (R418): each of their members counts one more in a row; one that reaches two is lost. -/
def State.disagreed (s : State) (n : Nat) (pairs : List (Nat × Nat)) : State :=
  let bad : List Nat := (pairs.filter (fun p => decide (s.compared n p = some false))).map Prod.fst
  let s := { s with rcv := { s.rcv with streaks := bad.foldl (fun t p => Tbl.set 0 t p (Tbl.get 0 t p + 1)) s.rcv.streaks } }
  let s := (s.bump aFltRecovery F.fltRecovery_disagreed 1).event 6 0x52 0 0 n
  let twice := bad.filter fun p => decide (2 ≤ Tbl.get 0 s.rcv.streaks p)
  twice.foldl (fun s p => s.lose p) (s.discardStep n)

/-- Replays that agreed (R417, R418): the step commits and their members' counts start afresh. -/
def State.agreed (s : State) (n : Nat) (pairs : List (Nat × Nat)) : State :=
  let s := { s with rcv := { s.rcv with streaks := pairs.foldl (fun t (p : Nat × Nat) => Tbl.set 0 t p.1 0) s.rcv.streaks } }
  (s.event 6 0x51 0 0 n).commitStep n

/-- COMMIT_DECISION: the lead decides on the step before the one whose last breath runs (R412, R414, R417): without causes it commits; a
suspect one commits when every replay agrees, is discarded when one disagrees, and without a replay waits for management. -/
def execCommitDecision (s : State) : Out :=
  let n := s.rcv.decided + 1
  if s.isLead && s.brt.job && s.brt.running && !s.brt.aborted && !s.rcv.restart && s.brt.stepFirst && decide (s.brt.step = n + 1) then
    let rs := s.rcv.reports.filter fun r => decide (r.step = n)
    if !(s.workers.all fun p => rs.any fun r => decide (r.member = p)) then .next s
    else if rs.all fun r => decide (r.causes = 0) then .next (s.commitStep n)
    else
      match s.rcv.replay with
      | some q =>
        if q.above ∨ q.step ≠ n then .next (s.awaitDecision n)
        else if q.pairs.any fun p => s.compared n p = some false then .next (s.disagreed n q.pairs)
        else if q.pairs.all fun p => s.compared n p = some true then .next (s.agreed n q.pairs)
        else .next s
      | none => .next (s.awaitDecision n)
  else .next s

/-- Whether the lead holds the next step back (R34, R210, R411): the step before the one that runs has not committed, or some member has not
swept the tag the next step takes; a step that committed before was held back then. -/
def State.commitPending (s : State) : Bool :=
  let m := s.brt.step + 1
  s.brt.stepFirst && (decide (s.rcv.decided + 1 < s.brt.step) ||
    (decide (s.rcv.sweepFrom + 3 < m) && decide (s.rcv.decided < m) && !(s.workers.all fun p => s.rcv.swept.contains (p, m - 3))))

/-- SLIP_ORDER_SEND: at W/2 before a start the lead orders a slip when one was requested or a commit is pending (R209, R210, R411). -/
def execSlipOrderSend (s : State) : Out :=
  if s.isLead && s.brt.job && s.brt.running && !s.brt.aborted then
    let pend := s.commitPending
    if s.brt.asked.isNone ∧ !pend then .next s
    else
      let cause := (match s.brt.asked with | some c => c | none => 0) + (if pend then 4 else 0)
      let q := s.getF aBocSlipCfg F.bocSlipCfg_quantum
      .next (s.sendAll (s.msgOf 0x02 [(24, cause), (32, s.brt.next), (96, q)]))
  else .next s

/-! ### Commit, discard and sweeps on a member -/

/-- A replay that runs is abandoned, when its step is one of those named: its breath stops, and the package stands by again (R417, R418). -/
def State.quitReplay (s : State) (which : Nat → Bool) : State :=
  match s.rcv.shadow with
  | some (k, _) => if which k then (if s.brt.running then s.drained else s).endReplay else s
  | none => s

/-- COMMIT: a member applies a commit at its next boundary, or at once when it stands at one (R410, R412). -/
def execCommit (msg : Msg) (s : State) : Out :=
  let s := s.takeMsg msg
  let n := msgBits msg 24 48
  if n ≤ s.committed then .next s
  else
    let s := s.quitReplay fun k => decide (k ≤ n)
    let s := { s with rcv := { s.rcv with decided := max s.rcv.decided n, toCommit := some n } }
    .next (if s.atBoundary then s.takeCommit else s)

/-- A tag of a discarded step (R413). -/
def State.discardTag (s : State) (step : Nat) : State :=
  let t := tagOf step
  if s.tagState t = 1 ∧ s.tagStep t = step then s.setF (aFltTag t) F.fltTag_state 3 else s

/-- DISCARD: steps n and n + 1 are dead; the member freezes and drains for the rerun (R413, R426). -/
def execDiscard (msg : Msg) (s : State) : Out :=
  let s := s.takeMsg msg
  let n := msgBits msg 24 48
  let s := s.quitReplay fun _ => true
  let s := ((s.freeze 0).discardTag n).discardTag (n + 1)
  .next (s.tryDrain.updateHealth)

/-- Whether the member stands frozen for a recovery (R436): not yet restarted. -/
def State.frozen (s : State) : Bool :=
  let phase := s.getF aFltState F.fltState_recovery
  decide (1 ≤ phase ∧ phase ≤ 4)

/-- ABORT: the member freezes, frees its open tags and drains (R426), also out of a rerun that has begun (R432); one that is frozen goes on
with its recovery. A management stop ends the job, and with it any recovery (R494). -/
def execAbort (msg : Msg) (s : State) : Out :=
  let s := s.takeMsg msg
  let cause := msgBits msg 96 8
  if s.frozen && decide (cause ≠ 8) then .next s.leadResume
  else
    let s := if s.frozen then s else ((s.quitReplay fun _ => true).freeze cause).freeTags
    let s := if cause = 8 then { s with brt := { s.brt with stopping := false }, rcv := { s.rcv with restart := false } }.endJob else s
    .next (if s.getF aFltState F.fltState_recovery = 1 then s.tryDrain else s.endRecovery).updateHealth

/-- TAG_SWEEP: a field controller clears a sweeping tag from one 4 MiB region (R410). -/
def execTagSweep (tag region : Nat) (s : State) : Out :=
  if 1 ≤ tag ∧ tag ≤ 3 then
    if s.tagState tag = 2 ∧ (s.markedRegions tag).contains region then
      let t := BitVec.ofNat 2 tag
      let s := { s with tags := s.tags.filter fun p => !(decide (p.1 / 65536 = region) && decide (p.2 = t)) }
      let m := Tbl.get 0 s.tier.tagDir region
      .next ({ s with tier := { s.tier with tagDir := Tbl.set 0 s.tier.tagDir region (m - 2 ^ tag) } }.sweepEnd tag)
    else .next s
  else .fault .absentUnit

/-- SWEEP_DONE: the lead notes that a member has swept the tag of a step (R410, R411). -/
def execSweepDone (msg : Msg) (s : State) : Out :=
  let s := s.takeMsg msg
  let e := (msgBits msg 8 14, msgBits msg 26 46)
  if s.isLead ∧ !s.rcv.swept.contains e then .next { s with rcv := { s.rcv with swept := s.rcv.swept ++ [e] } } else .next s

/-! ### Shadow replay -/

/-- The registers that a part sets (R492), with scheduled service where the measured delay fits (R281). -/
def State.applyPart (s : State) (p : Part) : State :=
  let s := s.setFs aBocBtable [(F.bocBtable_base, p.table.1 / 32), (F.bocBtable_countM1, p.table.2)]
  let s := s.setFs aCrpPatchDir [(F.crpPatchDir_base, p.patches.1 / 32), (F.crpPatchDir_count, p.patches.2)]
  let s := s.setFs aFltSubstDir [(F.fltSubstDir_base, p.substs.1 / 32), (F.fltSubstDir_count, p.substs.2)]
  let s := { s with boc := { s.boc with regions := p.regions } }
  (List.range numPorts).foldl (fun s i =>
    let used := p.ports.testBit i
    let s := s.setF (aBocDisc i) F.bocDisc_used (if used then 1 else 0)
    let s := s.setFs (aCrpConfig i) [(F.crpConfig_arrival, p.arrivals.getD i 0), (F.crpConfig_sched, if used then 1 else 0)]
    if used then s.checkDelay i else s) s

/-- The replayer takes up a member's step (R414, R415, R417): a spare takes the member's part and the replay breath of the step's first entry, with
its launch queues in shadow mode; a partner package runs the part it holds. The step's first breath starts 1 ms later (DESIGN CHOICE, log 166). -/
def State.beginReplay (s : State) (step p : Nat) (spare : Bool) : State :=
  let s := match s.boc.parts.find? fun q => decide (q.index = p) with
    | some q => if spare then s.applyPart q else s
    | none => s
  let start := s.beat + nsBeat 1000000
  let s := { s with
    brt := { BreathSt.reset with job := s.brt.job, step := step - 1, nextEntry := Config.replayEntry p step }
    rcv := { s.rcv with shadow := some (step, p), folds := spare, replays := s.rcv.replays + 1 }
    fab := { s.fab with written := [] } }
  let s := (s.setF aFltState F.fltState_replaying 1).bump aFltRecovery F.fltRecovery_replays 1
  (s.setF aBocTNext F.bocTNext_beat start.toNat).armTrigger start.toNat

/-- REPLAY_ORDER: the suspect member sends its package digest of the step; the replayer runs the step from committed inputs, and sends its own
digest when the step's last breath has ended (R414 to R417). -/
def execReplayOrder (msg : Msg) (s : State) : Out :=
  let s := s.takeMsg msg
  let step := msgBits msg 24 48
  let p := msgBits msg 72 14
  let r := msgBits msg 86 14
  if p = s.self then .next (s.sendDigest step (s.packageDigest step) false)
  else if (r = s.self ∨ (r = 0x3FFF ∧ s.partnerOf p = s.self)) ∧ s.hasImage ∧ !s.replays then
    .next (s.beginReplay step p (decide (r ≠ 0x3FFF)))
  else .next s

/-- DIGEST: the lead holds one part of a digest (R417). -/
def execDigest (msg : Msg) (s : State) : Out :=
  let s := s.takeMsg msg
  let d : DigPart := { package := msgBits msg 8 14, step := msgBits msg 24 32, part := msgBits msg 56 2,
                       bits := BitVec.ofNat 64 (msgBits msg 58 64), replayer := msg.getLsbD 122 }
  let same := fun (x : DigPart) => decide (x.package = d.package ∧ x.step = d.step ∧ x.part = d.part) && (x.replayer == d.replayer)
  if s.isLead then .next { s with rcv := { s.rcv with digests := (s.rcv.digests.filter fun x => !same x) ++ [d] } } else .next s

/-- REPLAY_LIMIT_EXPIRY: a replayer abandons its replay; the lead treats the step as having no replay resource (R417). -/
def execReplayLimitExpiry (s : State) : Out :=
  let s := s.quitReplay fun _ => true
  match s.rcv.replay with
  | some q =>
    if s.isLead ∧ !q.above then .next ({ s with rcv := { s.rcv with replay := some { q with above := true } } }.awaitDecision q.step) else .next s
  | none => .next s

/-- LOCALISATION_TEST: before its restart a suspect member reruns a capture record; a reproduced fault retires the core, else a fault is
recorded as detected (R403, R421). Without any record it runs the localisation packs, and records an unlocalised fault when they find
nothing. -/
def execLocalisationTest (n cl record : Nat) (reproduced : Bool) (s : State) : Out :=
  if s.hasCluster n cl ∧ record < 4 then
    if s.getF aFltState F.fltState_recovery = 0 ∨ s.brt.running then .next s
    else if s.captureEmpty n cl record then
      if s.regs.any fun p => inCapture (p.1 / 64) then .next s
      else
        let t := s.runTones (s.boc.packs.filter fun p => decide (p.use ≠ 0))
        .next (if t.flt.newly = s.flt.newly then t.faultDetected (unitId 7 0 0 0 0 2) 10 0 else t)
    else
      let w := s.getF (aFltCapture n cl record 1) F.fltCapture_word
      let unit := unitId 2 (s.fieldOf n) (s.physIsland n) cl (bitsAt w 16 6) 0
      let code := s.getF (aFltCapture n cl record 0) F.fltCapture_word % 2 ^ 16
      if reproduced then .next ((s.ledgerRecord 3 7 unit code).retireUnit unit 7 code)
      else .next (s.faultDetected unit 7 code)
  else .fault .absentUnit

/-! ### Heartbeats and the lead -/

/-- The first heartbeat of a package that joined (R487): its links are up again in the tables, and it has no tag to sweep. -/
def State.joined (s : State) (p : Nat) : State :=
  let keys := (s.linksOf p).filter fun k => s.rcv.downs.contains k
  let s := { s with rcv := { s.rcv with joiners := s.rcv.joiners.filter fun q => q ≠ p, downs := s.rcv.downs.filter fun k => !keys.contains k } }
  (keys.foldl (fun s k => s.routeChange k false) s).nothingToSweep p

/-- HEARTBEAT: a heartbeat or a lead-alive is noted (R424). -/
def execHeartbeat (msg : Msg) (s : State) : Out :=
  let s := s.takeMsg msg
  let p := msgBits msg 8 14
  let s := { s with rcv := { s.rcv with heard := Tbl.set 0 s.rcv.heard p (s.beat.toNat + 1) } }
  .next (if s.isLead && s.rcv.joiners.contains p then s.joined p else s)

/-- HEARTBEAT_SEND: the lead broadcasts lead-alive, a member tells the lead, its health state and last committed step (R424). A package
lost to its slice falls silent (R26, R27, R428). -/
def execHeartbeatSend (s : State) : Out :=
  if !s.admitted || s.rcv.gone then .next s
  else
    let m := s.msgOf 0x27 [(24, s.health), (32, s.committed % 2 ^ 40)]
    .next (if s.isLead then s.sendAll m else s.sendTo s.lead m)

/-- Whether nothing has been heard of a package for 4 ms (R424, R428). -/
def State.silent (s : State) (p : Nat) : Bool :=
  let h := Tbl.get 0 s.rcv.heard p
  decide (h = 0) || beatReached s.beat (BitVec.ofNat 64 (h - 1) + nsBeat 4000000)

/-- The package becomes the time root and keeps its counter (R391, R424). -/
def State.becomeRoot (s : State) : State :=
  s.setFs aTimStatus [(F.timStatus_root, 1), (F.timStatus_rootIndex, s.self), (F.timStatus_depth, 0), (F.timStatus_parent, 0x3F)]

/-- LEAD_LOSS_TIMEOUT: the first successor that is still a member becomes lead and time root; as the new lead it recovers the slice from
the loss of the old one (R424). -/
def execLeadLossTimeout (s : State) : Out :=
  match s.manifest with
  | none => .next s
  | some m =>
    let old := s.lead
    if !s.admitted || s.isLead || !s.silent old then .next s
    else
      match m.leads.find? fun p => decide (p < 2 ^ 14) && decide (p ≠ old) && !s.rcv.lost.contains p with
      | none => .next s
      | some new =>
        let s := s.setF aFltState F.fltState_lead new
        if new = s.self then
          let s := s.setFs aFltState [(F.fltState_role, 1), (F.fltState_successor, 0)]
          let d := max s.committed s.rcv.decided
          let s := { s with rcv := { s.rcv with decided := d, sweepFrom := d } }
          .next (s.becomeRoot.lose old)
        else
          .next ({ s with rcv := { s.rcv with lost := s.rcv.lost ++ [old] } }.setF aTimStatus F.timStatus_rootIndex new)

/-- HEARTBEAT_LOSS_TIMEOUT: the lead has heard nothing of a member for 4 ms (R428). -/
def execHeartbeatLossTimeout (package : Nat) (s : State) : Out :=
  if s.admitted ∧ s.silent package then .next (s.lose package) else .next s

/-! ### Restart and promotion -/

/-- Whether the package stands by as a spare or in the partner box (R414, R436): it runs no breath. -/
def State.standby (s : State) : Bool := decide (2 ≤ s.getF aFltState F.fltState_role)

/-- RESTART: every member takes the named entry as its next breath, opens its stores for the load list, and arms its trigger (R426). One
that has not drained misses the start. -/
def execRestart (msg : Msg) (s : State) : Out :=
  let s := s.takeMsg msg
  if !s.hasImage then .next s
  else
    let s := if s.getF aFltState F.fltState_recovery = 0 then (s.freeze 0).tryDrain else s
    if s.getF aFltState F.fltState_recovery = 1 then .next (s.missStart s.brt.next)
    else
      let step := s.committed / 2 ^ 40 * 2 ^ 40 + msgBits msg 88 40
      let start := nsBeat (msgBits msg 40 48)
      let s := (s.freeTags).setFs aFltSusp [(F.fltSusp_older, 0), (F.fltSusp_newer, 0)]
      let s := s.bump aFltRecovery F.fltRecovery_restarts 1
      let s := s.setF aFltState F.fltState_recovery (if step ≤ s.committed then 6 else 5)
      let s := s.event 7 0x60 0 0 s.rcv.cause
      let s := { s with
        brt := { s.brt with aborted := false, job := true, running := false, taken := false, nextEntry := msgBits msg 24 16, stepFirst := true,
                            step := step - 1, loadsDone := [], examined := false, checked := false, missed := false, asked := none },
        rcv := { s.rcv with restarts := s.rcv.restarts + 1, report := none, replay := none, waits := none,
                            reports := s.rcv.reports.filter fun r => decide (r.step < step),
                            digests := s.rcv.digests.filter fun d => decide (d.step < step) },
        fab := { s.fab with written := [] } }
      let s := s.setF aBocTNext F.bocTNext_beat start.toNat
      .next (if s.standby then s.updateHealth else (s.armTrigger start.toNat).updateHealth)

/-- PROMOTE: every member enters the substitution and activates its patch; the lost member's links are quarantined at their other ends; the
spare takes the member's place with its part (R428, R430, R431, R491). A seventeenth substitution takes the last register's place (DESIGN CHOICE,
log 145). -/
def execPromote (msg : Msg) (s : State) : Out :=
  let s := s.takeMsg msg
  let lost := msgBits msg 24 14
  let sp := msgBits msg 38 14
  let old := s.substituted lost
  let i := match (List.range 16).find? fun i => s.flag (aFltSubst i) F.fltSubst_valid && decide (s.getF (aFltSubst i) F.fltSubst_lost = lost) with
    | some i => i
    | none => ((List.range 16).find? fun i => !s.flag (aFltSubst i) F.fltSubst_valid).getD 15
  let s := s.setFs (aFltSubst i) [(F.fltSubst_lost, lost), (F.fltSubst_spare, sp), (F.fltSubst_valid, 1)]
  let s := (s.bump aFltRecovery F.fltRecovery_promotions 1).event 7 0x61 0 0 (lost + sp * 2 ^ 16)
  let key := 2 ^ 28 + lost + sp * 2 ^ 14
  let s := s.activate key s.brt.next
  let s : State := { s with rcv := { s.rcv with lost := if s.rcv.lost.contains old then s.rcv.lost else s.rcv.lost ++ [old],
                                                spares := if s.rcv.spares.contains sp then s.rcv.spares else s.rcv.spares ++ [sp] } }
  let phase := s.getF aFltState F.fltState_recovery
  let s := if phase ≤ 1 then s else s.setF aFltState F.fltState_recovery (max 4 phase)
  let s := ((List.range numPorts).filter fun p => s.linkUp p && decide ((s.port p).partner = some old)).foldl (fun s p => s.quarantine p) s
  let s := if sp = s.self then
      let s := s.setF aFltState F.fltState_role 0
      match s.boc.parts.find? fun p => decide (p.index = lost) with
      | some p => s.applyPart p
      | none => s
    else s
  let s := if old = s.getF aTimStatus F.timStatus_rootIndex then
      (if s.isLead then s.becomeRoot else s.setF aTimStatus F.timStatus_rootIndex s.lead)
    else s
  .next s.updateHealth

/-! ### The event ring and the health digest -/

/-- EVENT_SUPPRESS_SUMMARY: each second, what was not written of a code and unit is written as one event with its count (R433). -/
def execEventSuppressSummary (s : State) : Out :=
  let above := s.flt.events.filter fun e => decide (16 < e.count)
  let s := { s with flt := { s.flt with events := [] } }
  .next (above.foldl (fun s e => s.writeEvent 8 0x7F 0 (BitVec.ofNat 32 e.unit) (e.code + (e.count - 16) * 2 ^ 8)) s)

/-- HEALTH_DIGEST_UPDATE (R435). -/
def execHealthDigestUpdate (s : State) : Out := .next s.updateHealth

end Sys2Proof.Machine
end

