-- ==== Sys2Proof/Machine/Auth.lean ====
section
/-! DEFINITION. Fabric authentication: the tags over encrypted flits, their requests and their time limit (R461 to R463), and the time
limit of management sessions (R455). -/

namespace Sys2Proof.Machine

/-- The value with the low 24 bits `low` that lies within 2^23 of `top` (R462). -/
def resolveE (top low : Nat) : Nat :=
  let c := top / 2 ^ 24 * 2 ^ 24 + low
  if top + 2 ^ 23 < c ∧ 2 ^ 24 ≤ c then c - 2 ^ 24 else if c + 2 ^ 23 ≤ top then c + 2 ^ 24 else c

/-- AUTH_TAG_SEND: the tag over the encrypted flits a port has sent since its previous tag (R462). -/
def execAuthTagSend (port : Nat) (s : State) : Out :=
  if hasPort port then .next (s.sendTag port) else .fault .absentUnit

/-- AUTH_TAG: a tag from the far end of a port's link is judged once the flits it covers are released; a step report that waited for it
then goes (R462, R463). `ok` is whether it verifies. -/
def execAuthTag (port : Nat) (msg : Msg) (ok : Bool) (s : State) : Out :=
  if hasPort port then
    let s := s.takeMsg msg
    let x := s.port port
    if x.encRx ∧ msgBits msg 0 8 = 0x40 + oppositePort port then
      let e := resolveE (x.eRx - 1) (msgBits msg 8 24)
      .next (((s.setPort port { x with tagWait := x.tagWait ++ [(e, ok)] }).judgeTags port).reportLate)
    else .next s
  else .fault .absentUnit

/-- TAG_REQUEST: the far end of a link that went down asks for a tag over exactly the flits it released, which can be given from the
previous tag onward (R462). -/
def execTagRequest (msg : Msg) (s : State) : Out :=
  let s := s.takeMsg msg
  let p := oppositePort (msgBits msg 8 6)
  let x := s.port p
  let e := resolveE (x.eTx - 1) (msgBits msg 14 24)
  match x.partner with
  | some k =>
    if hasPort p ∧ x.encTx ∧ e < x.eTx ∧ x.tagged ≤ e + 1 then .next (s.sendTo k (s.authTagMsg p e)) else .next s
  | none => .next s

/-- AUTH_TAG_TIMEOUT: a flit released 2 ms ago is not covered by a verified tag, which counts as a failure (R463). -/
def execAuthTagTimeout (port : Nat) (s : State) : Out :=
  if hasPort port then
    let x := s.port port
    if x.encRx ∧ x.covered < x.eRx then .next (s.judgeTag port x.covered false) else .next s
  else .fault .absentUnit

/-- A session's end: its object writes go with it (R455, R504). -/
def State.endSession (s : State) (id : BitVec 64) : State :=
  { s with boc := { s.boc with sessions := s.boc.sessions.filter fun x => x.id ≠ id, writes := s.boc.writes.filter fun w => w.session ≠ id } }

/-- SESSION_TIMEOUT: 600 s have passed without an accepted message (R455). -/
def execSessionTimeout (session : BitVec 64) (s : State) : Out := .next (s.endSession session)

end Sys2Proof.Machine
end

