-- ==== Sys2Proof/Machine/Boot.lean ====
section
/-! DEFINITION. Resets (R471, R472, R517), the power-up sequence up to step 9 (R477), the failover of the Bocal (R475) and errors of
field controllers (R476). -/

namespace Sys2Proof.Machine

/-! ### Resets -/

/-- Whether a field's value is fused (R472): the debug lock, the anti-rollback counters, key revocation, the reproducibility key, the
grade, and the stamp corrections of every port. -/
def isFused (key : Nat) : Bool :=
  let a := key / 64
  let lo := key % 64
  decide (a = aSecState ∧ lo = 8) || decide (a = aSecCounters) || decide (a = aSecFwkeys ∧ lo = 0) || decide (a = aBocReproKey) ||
    decide (a = aBocSetpoint ∧ lo = 15) || (decide (aTimCorr 0 ≤ a ∧ a < aTimCorr 50) && decide (lo < 32))

/-- Whether a register is a word of a switch's route table or program store, which no reset clears (R185). -/
def inSwitchStore (key : Nat) : Bool :=
  let a := key / 64
  let o := (a - islBase 0) % 0x200000
  decide (islBase 0 ≤ a ∧ a < islBase 320 ∧ 0x100000 ≤ o) && (decide (o % 0x10000 < 0x1000) || decide (0x8000 ≤ o % 0x10000))

/-- Everything back as after power-on reset (R472, R521) but what is fused, what the boot NOR devices hold, and the words of the switches'
stores (R185); the beat counter starts again at 0. -/
def State.cleared (s : State) : State :=
  { State.reset with
    regs := s.regs.filter fun p => isFused p.1 || inSwitchStore p.1
    nv := s.nv
    flt := { FltSt.reset with ledger := s.flt.ledger }
    boc := { BocSt.reset with kems := s.boc.kems }
    tier := { Tier.reset with keys := s.tier.keys }
    fresh := s.fresh
    pending := s.pending }

/-- A reset other than power-on (R471, R472): the LPDDR5X tier keeps what its lines hold, under keys that are erased (R247). -/
def State.resetBy (s : State) (cause : Nat) : State :=
  let t := s.cleared
  let count := s.getF aBocResetCause F.bocResetCause_count
  { t with
    mem := s.mem.filter fun p => decide (p.1 < lpEnd)
    tags := s.tags.filter fun p => decide (64 * p.1 < lpEnd)
    bad := s.bad.filter fun p => decide (8 * p.1 < lpEnd)
    tier := { t.tier with lineKey := s.tier.lineKey } }.setFs aBocResetCause
      [(F.bocResetCause_cause, cause), (F.bocResetCause_count, min (count + 1) 65535)]

/-- POWER_ON_RESET: supplies in range and PWR_GOOD asserted (R471, R517). -/
def execPowerOnReset (s : State) : Out := .next s.cleared

/-- PIN_RESET: RESET_N asserted for 1 µs (R471); it releases a thermal reset, whose cause then stands (R517). -/
def execPinReset (s : State) : Out :=
  match s.pins.power with
  | .off => .next s
  | .thermal => .next (s.resetBy 5)
  | _ => .next (s.resetBy 2)

/-- The package held in thermal reset, THERM_TRIP_N driven low (R471, R517). -/
def State.thermalReset (s : State) : State :=
  match s.pins.power with
  | .off => s
  | .thermal => s
  | _ => let t := s.resetBy 5; { t with pins := { t.pins with power := .thermal, trip := true } }

/-- THERMAL_RESET: THERM_TRIP_N is asserted, whoever drives it (R517). -/
def execThermalReset (s : State) : Out := .next s.thermalReset

/-- Loss of supplies (R517, R519, R521): the module is off. -/
def State.powerLost (s : State) : State := let t := s.cleared; { t with pins := { t.pins with power := .off } }

/-- PWR_GOOD_DEASSERT: PWR_GOOD low for 1 µs (R517). -/
def execPwrGoodDeassert (s : State) : Out := .next s.powerLost

/-- INPUT_OUT_OF_RANGE: the input below 36.0 V or above 62.0 V for 10 µs (R519). -/
def execInputOutOfRange (s : State) : Out := .next s.powerLost

/-! ### Measurement -/

/-- A measurement slot m_i (R447). -/
def State.meas (s : State) (i : Nat) : Nat := ((List.range 8).map fun k => s.getF (aSecMeas i k) F.secMeas_value * 2 ^ (64 * k)).sum

/-- A measurement slot set. -/
def State.setMeas (s : State) (i v : Nat) : State :=
  (List.range 8).foldl (fun s k => s.setF (aSecMeas i k) F.secMeas_value (v / 2 ^ (64 * k))) s

/-- A measurement slot extended (R447). -/
def State.extend (s : State) (i : Nat) (d : BitVec 512) : State :=
  s.setMeas i (sha3_512 (bytesOfNat 64 (s.meas i) ++ bytesOfNat 64 d.toNat)).toNat

/-! ### The ownership chain -/

/-- The ownership chain as boot walks it (R448): generations from 1 on without a break, the first one the enrolled owner. -/
def walkChain : Nat → List Owner → List Owner
  | _, [] => []
  | g, o :: l => if o.gen = g then o :: walkChain (g + 1) l else []

/-- The head of the ownership chain: none when the part has no owner (R448). -/
def State.owner (s : State) : Option Owner :=
  let l := walkChain 1 s.nv.chain
  match l.head? with
  | some o =>
    if o.key = s.nv.enrolled ∧ s.getF aSecCounters F.secCounters_ctr1 ≤ l.length then l.getLast? else none
  | none => none

/-- SEC_STATE's ownership fields (R470). -/
def State.showOwner (s : State) : State :=
  match s.owner with
  | some o => s.setFs aSecState [(F.secState_owned, 1), (F.secState_ownerGen, o.gen)]
  | none => s.setFs aSecState [(F.secState_owned, 0), (F.secState_ownerGen, 0)]

/-! ### Boot -/

/-- What the ROM boots (R445, R478): the slot the boot control record prefers, or with its record bad slot A, at the fourth boot of an
unconfirmed trial slot the other one; the record afterwards. -/
def bootChoice (b : Bcr) (ok : Bool) : Nat × Bcr :=
  if !ok then (0, b)
  else if b.trial then
    if 3 ≤ b.boots then (1 - b.preferred, { preferred := 1 - b.preferred, trial := false, boots := 0 })
    else (b.preferred, { b with boots := b.boots + 1 })
  else (b.preferred, b)

/-- Whether a firmware slot verifies (R441, R445). -/
def State.slotOk (s : State) (x : SlotEnv) : Bool :=
  x.sigOk && x.bodyOk && decide (x.signer < 4) && !(s.getF aSecFwkeys F.secFwkeys_revoked).testBit x.signer &&
    decide (s.getF aSecCounters F.secCounters_ctr0 ≤ x.secVer) && decide (x.secVer ≤ 64)

/-- The slot that boots and whether it is the fallback (R445); none when both fail. -/
def State.bootSlot (s : State) (env : BootEnv) : Option (Nat × Bool) :=
  let first := (bootChoice s.nv.bcr env.bcrOk).1
  let slot := fun i => if i = 0 then env.slotA else env.slotB
  if s.slotOk (slot first) then some (first, false)
  else if s.slotOk (slot (1 - first)) then some (1 - first, true)
  else none

/-- Boot up to the start of the firmware, or the recovery service (R445, R478, R479). -/
def State.boot (s : State) (env : BootEnv) : State :=
  let s := s.extend 0 env.romDigest
  let s := { s with boc := { s.boc with kems := s.boc.kems + 1, challenge := env.challenge } }.showOwner
  let s := match s.owner with | some o => s.extend 3 o.key | none => s
  let pick := s.bootSlot env
  let bcr := (bootChoice s.nv.bcr env.bcrOk).2
  let s := { s with nv := { s.nv with bcr := bcr } }
  match pick with
  | none => { s with boc := { s.boc with recovery := true } }.setF aBocState F.bocState_step 2
  | some (slot, fb) =>
    let x := if slot = 0 then env.slotA else env.slotB
    let s := { s with boc := { s.boc with secVer := x.secVer } }.extend 1 x.digest
    let s := s.extend 2 (BitVec.ofNat 512 (slot + if fb then 256 else 0))
    let trial := env.bcrOk && bcr.trial && decide (slot = bcr.preferred)
    (s.setFs aSecState [(F.secState_slot, slot), (F.secState_fallback, if fb then 1 else 0), (F.secState_trial, if trial then 1 else 0)]).setF
      aSecFwkeys F.secFwkeys_signer x.signer

/-! ### Self-test, repair and capacity -/

/-- A unit that fails its test at power-up (R395, R403): a failure and a retirement record, and an event. -/
def State.failAtBoot (s : State) (cause : Nat) (u : BitVec 32) : State :=
  if s.flt.retired.contains u then s
  else
    let s := ((s.ledgerRecord 5 cause u 0).ledgerRecord 4 cause u 0).event 8 0x70 2 u 0
    { s with flt := { s.flt with retired := s.flt.retired ++ [u] }, rcv := { s.rcv with retired := s.rcv.retired + 1 } }

/-- The unit that owns an SRAM macro (R20, R400): a core its tile memory, instruction store, mailbox and register files, an island its
crossing queues and sync counters, a field its staging SRAM, its engines and its controller's storage. -/
def macroOwner (owner : Nat) (m : BitVec 32) : BitVec 32 :=
  if owner = 2 then unitOwner 2 22 m else if owner = 4 then unitOwner 4 12 m else unitOwner 5 6 m

/-- A macro whose redundancy cannot repair it (R19, R20): the failure is recorded, and the smallest unit that owns it is retired. -/
def State.macroFails (s : State) (owner : Nat) (m : BitVec 32) : State :=
  let u := macroOwner owner m
  let s := s.ledgerRecord 5 5 m 0
  if s.flt.retired.contains u then s
  else
    let s := (s.ledgerRecord 4 5 u 0).event 8 0x70 2 u 0
    { s with flt := { s.flt with retired := s.flt.retired ++ [u] }, rcv := { s.rcv with retired := s.rcv.retired + 1 } }

/-- The LPDDR5X channels of a field in the address map, as power-up finds them (R244, R267): those not retired. -/
def State.mapChannels (s : State) (f : Nat) : State :=
  let good := (List.range 16).filter fun c => !s.flt.retired.contains (unitId 6 f 0 0 0 c)
  let s := s.setFs (aFldChannels f) [(F.fldChannels_active, (good.map fun c => 2 ^ c).sum), (F.fldChannels_count, good.length),
    (F.fldChannels_pending, 0)]
  (List.range 16).foldl (fun s c => s.setF (aFldChState f c) F.fldChState_state (if good.contains c then 2 else 3)) s

/-- BOC_CAPACITY after self-test (R28). -/
def State.showCapacity (s : State) : State := (s.setF aBocCapacity F.bocCapacity_valid 1).showUnits.updatePorts

/-- The ledger's registers as power-up finds them (R399, R401): the operating minutes of the last hours mark. -/
def State.readLedger (s : State) : State :=
  let marks := s.flt.ledger.filter fun r => decide (r.kind = 1)
  s.setFs aFltLedger [(F.fltLedger_minutes, match marks.getLast? with | some r => r.minutes | none => 0),
    (F.fltLedger_used, s.flt.ledger.length), (F.fltLedger_mirrorOk, 1)]

/-- Steps 4 and 5 (R250, R395, R396): LPDDR5X training, self-test and repair, and the valve map. -/
def State.selfTest (s : State) (env : BootEnv) : State :=
  let known := s.nv.factory ++ (s.flt.ledger.filter fun r => decide (r.kind = 4)).map fun r => BitVec.ofNat 32 r.unit
  let s := { s with flt := { s.flt with retired := known.eraseDups } }
  let s := (env.noChannel.filter fun c => decide (c < 128)).foldl (fun s c => s.failAtBoot 8 (unitId 6 (c / 16) 0 0 0 (c % 16))) s
  let s := (env.failed.filter fun u => decide (1 ≤ unitLevel u ∧ unitLevel u ≤ 6)).foldl (fun s u => s.failAtBoot 5 u) s
  let s := (env.macros.filter fun m => decide (unitLevel m.2 = 0)).foldl (fun s m => s.macroFails m.1 m.2) s
  let s := { s with flt := { s.flt with retired := closeRetired s.flt.retired } }
  (List.range 8).foldl (fun s f => s.mapChannels f) s

/-- The state of every LPDDR5X channel in the map: 2 active, 4 self-refresh (R250, R520). -/
def State.setChannels (s : State) (v : Nat) : State :=
  (List.range 128).foldl (fun s k =>
    if (s.getF (aFldChannels (k / 16)) F.fldChannels_active).testBit (k % 16) && decide (s.getF (aFldChState (k / 16) (k % 16)) F.fldChState_state ≠ 3)
    then s.setF (aFldChState (k / 16) (k % 16)) F.fldChState_state v else s) s

/-- A crossing queue that fails calibration (R228): the island that reads its failing direction has failed, so that its logical island goes
to a spare or the class falls. An unconnected queue never fails. -/
def State.crossingFails (s : State) (n q : Nat) : State :=
  if n < s.numIslands ∧ q < 20 ∧ (16 ≤ q ∨ (s.facing n (q / 4)).isSome) then (s.failAtBoot 5 (s.islandId n)).showUnits else s

/-- Steps 6 to 8 (R228, R233, R477, R483): calibration leaves the package at the grade's maximum setpoint; each bell records the
wavelengths that fail on its test loop; capacity is reported. -/
def State.calibrate (s : State) (env : BootEnv) : State :=
  let top := s.getF aBocSetpoint F.bocSetpoint_gradeMax
  let s := s.setF aBocSetpoint F.bocSetpoint_current top
  let s := { s with pins := { s.pins with ceiling := top, supply := top } }
  let wl := env.failed.filter fun u => decide (unitLevel u = 7 ∧ bitsAt u.toNat 26 6 = 1)
  let s := wl.foldl (fun s u =>
    let p := bitsAt u.toNat 6 6
    let w := bitsAt u.toNat 22 4
    if p < numPorts ∧ w < 9 then
      s.setF (aLnkLanes p) F.lnkLanes_failed (s.getF (aLnkLanes p) F.lnkLanes_failed ||| 2 ^ w) else s) s
  let s := s.showCapacity
  let s := env.crossFail.foldl (fun s c => s.crossingFails c.1 c.2) s
  s.allIslands.foldl (fun s n => s.setFs (aIslClock n) [(F.islClock_setpoint, top), (F.islClock_locked, 1)]) s

/-- RESET_RELEASE: reset is released at beat 0 and the package runs steps 1 to 9 of the power-up sequence (R477, R517, R518). -/
def execResetRelease (env : BootEnv) (s : State) : Out :=
  if s.pins.power ≠ .held then .next s
  else
    let s := s.setFs aBocState [(F.bocState_step, 1), (F.bocState_slotId, env.straps.toNat)]
    if !env.clock0 && !env.clock1 then .next s
    else
      let s := { s with beatAcc := 0, pins := { s.pins with power := .on } }
      let s := s.setFs aTimStatus [(F.timStatus_refclk, if env.clock0 then 0 else 1),
        (F.timStatus_refclkFail, (if env.clock0 then 0 else 1) + (if env.clock1 then 0 else 2))]
      let s := s.readLedger.boot env
      if s.boc.recovery then .next s.updateHealth
      else
        let s := (s.selfTest env).calibrate env
        .next ((s.setF aBocState F.bocState_step 9).setChannels 4).updateHealth

/-! ### Failures of the Bocal and of field controllers -/

/-- BOCAL_FAILOVER: when the Bocal fails its self-check or its watchdog the twin takes over (R475); a package whose twin then fails has
no Bocal. -/
def execBocalFailover (s : State) : Out :=
  if !s.boc.selfCheckFailed then .next s
  else
    let s := { s with boc := { s.boc with selfCheckFailed := false }, ctls := [] }
    if s.flag aBocState F.bocState_twin then .next { s with boc := { s.boc with dead := true } }
    else
      let unit := unitId 7 0 0 0 0 2
      let s := ((s.setF aBocState F.bocState_twin 1).event 8 0x72 0 unit 0).ledgerRecord 2 1 unit 0
      .next (if s.brt.job then s.faultReport 7 [] else s)

/-- FIELD_CONTROLLER_ERROR: during a job it is reported with cause 4, and the second one of a controller retires its field (R476). -/
def execFieldControllerError (field : Nat) (s : State) : Out :=
  if field < 8 then
    if s.brt.job then
      let k := Tbl.get 0 s.rcv.errors field + 1
      let s := { s with rcv := { s.rcv with errors := Tbl.set 0 s.rcv.errors field k } }.faultReport 4 []
      .next (if k = 2 then s.retireUnit (unitId 5 field 0 0 0 0) 1 0 else s)
    else .next s
  else .fault .absentUnit

end Sys2Proof.Machine
end

