-- ==== Sys2Proof/Machine/Admission.lean ====
section
/-! DEFINITION. Control messages between packages (R480 to R482), drone paths (R298), admission (R485 to R488), the start of a job (R492,
R493) and withdrawal (R495, R496). -/

namespace Sys2Proof.Machine

/-! ### Forwarding -/

/-- Whether a message is of a broadcast kind (R482): kind 0x27 only from the slice lead. -/
def State.bcastKind (s : State) (m : Msg) : Bool :=
  let k := msgBits m 0 8
  bcastKinds.contains k || (decide (k = 0x27) && decide (msgBits m 8 14 = s.lead))

/-- A broadcast message delivered and forwarded (R481). -/
def State.spread (s : State) (c : Ctl) : State := (s.loopCtl c.msg).forwardBcast { c with bcast := true, dest := 0 }

/-- CTL_FORWARD: a unicast control flit goes on toward its destination (R480); one that has reached it with messages of a broadcast kind
from another source is delivered and spreads as a broadcast (R482). -/
def execCtlForward (routing : BitVec 128) (msgs : List Msg) (s : State) : Out :=
  .next (msgs.foldl (fun s m =>
    let c := ctlOf routing.toNat m
    if c.local_ || c.bcast then s
    else if c.dest ≠ s.self then (s.takeMsg m).unicast c
    else if s.bcastKind m && decide (c.source ≠ s.self) then (s.takeMsg m).spread c
    else s) s)

/-- CTL_BROADCAST_FORWARD: a broadcast control flit from another package is delivered and forwarded along its tree (R481, R482). -/
def execCtlBroadcastForward (routing : BitVec 128) (msgs : List Msg) (s : State) : Out :=
  .next (msgs.foldl (fun s m =>
    let c := ctlOf routing.toNat m
    if c.local_ || !c.bcast || decide (c.source = s.self) then s
    else if s.bcastKind m then (s.takeMsg m).spread c
    else s.takeMsg m) s)

/-- CTL_DROP_TIMEOUT: messages held for 1 ms go if a port can take them by now, else they are dropped and counted (R480). -/
def execCtlDropTimeout (s : State) : Out :=
  let held := s.ctl.held
  let s := held.foldl (fun s c => s.unicast c) { s with ctl := { s.ctl with held := [] } }
  .next ({ s with ctl := { s.ctl with held := [] } }.bump aBocBrq F.bocBrq_ctlDropped s.ctl.held.length)

/-! ### Drone paths -/

/-- The state of a bypass pair (R301): 0 closed, 1 opening, 2 open, 3 closing. -/
def State.drone (s : State) (i : Nat) : Nat := bitsAt (s.getF aCrpDrone F.crpDrone_state) (2 * i) 2

/-- Every bypass pair's state mapped. -/
def State.mapDrones (s : State) (f : Nat → Nat) : State :=
  s.setF aCrpDrone F.crpDrone_state (((List.range 24).map fun i => f (s.drone i) % 4 * 2 ^ (2 * i)).sum)

/-- One bypass pair's state set. -/
def State.setDrone (s : State) (i v : Nat) : State :=
  let x := s.getF aCrpDrone F.crpDrone_state
  s.setF aCrpDrone F.crpDrone_state (x - bitsAt x (2 * i) 2 * 2 ^ (2 * i) + v * 2 ^ (2 * i))

/-- Every bypass that is not closed begins to close on command, at beat `b` (R298, R509). -/
def State.closeDrones (s : State) (b : Beat) : State :=
  (s.mapDrones fun v => if v = 0 then 0 else 3).setF aBocAdmit F.bocAdmit_beat b.toNat

/-- DRONE_PATH_FULLY_OPEN: an opening bypass is open (R298). -/
def execDronePathFullyOpen (pair : Nat) (s : State) : Out :=
  if pair < 24 then .next (if s.drone pair = 1 then s.setDrone pair 2 else s) else .fault .absentUnit

/-- DRONE_PATH_FULLY_CLOSED: a closing bypass is closed (R298). -/
def execDronePathFullyClosed (pair : Nat) (s : State) : Out :=
  if pair < 24 then .next (if s.drone pair = 3 then s.setDrone pair 0 else s) else .fault .absentUnit

/-- DRONE_PATH_CLOSE: every bypass closes: at a withdrawal's closing beat, or passively when the module loses power, is held in reset or
trips (R298). -/
def execDronePathClose (cause : CloseCause) (s : State) : Out :=
  match cause with
  | .withdrawal => match s.boc.closeAt with | some b => .next (s.closeDrones b) | none => .next s
  | .powerLoss => .next (if s.pins.power = .off then s.mapDrones (fun _ => 0) else s)
  | .resetN => .next (if s.pins.power = .held then s.mapDrones (fun _ => 0) else s)
  | .thermTrip => .next (if s.pins.power = .thermal then s.mapDrones (fun _ => 0) else s)

/-! ### Admission -/

/-- ADMIT_NOTICE_MESSAGE: a neighbour expects a partner change on the ports that face the joiner, from B on (R486). -/
def execAdmitNoticeMessage (msg : Msg) (s : State) : Out :=
  let s := s.takeMsg msg
  let joiner := msgBits msg 24 14
  let b := BitVec.ofNat 64 (msgBits msg 40 48 * 65536)
  .next (((List.range numPorts).filter fun p => decide (s.neighbour (p / 8) = joiner)).foldl
    (fun s p => s.setPort p { s.port p with expectTo := some b }) s)

/-- ADMISSION_OPEN: at beat B the joining package opens every drone path (R298, R487). -/
def execAdmissionOpen (s : State) : Out :=
  match s.boc.admitAt with
  | none => .next s
  | some b =>
    if s.boc.joining then .next s
    else
      let s := (s.mapDrones fun v => if v = 2 then 2 else 1).setF aBocAdmit F.bocAdmit_beat b.toNat
      .next ({ s with boc := { s.boc with joining := true } }.setF aBocState F.bocState_step 10)

/-- Whether some port is in plan (R483). -/
def State.anyInPlan (s : State) : Bool := (List.range numPorts).any fun p => decide (s.getF (aBocDisc p) F.bocDisc_class = 1)

/-- Whether the package can be admitted (R390, R487): it has locked beat time, or is the root, and has a port in plan. -/
def State.canJoin (s : State) : Bool := (s.flag aTimStatus F.timStatus_locked || s.flag aTimStatus F.timStatus_root) && s.anyInPlan

/-- The package's role as the manifest gives it (R414, R424, R436): lead, spare, partner or member; and its rank among the successors. -/
def Manifest.role (m : Manifest) : Nat × Nat :=
  let lead := m.leads.headD 0
  let spare := m.members.any fun r => decide (r.index = m.self) && r.spare
  let partner := decide (m.flags / 2 % 4 = 2) && !inBox m.workLow m.workExtM1 m.self
  let rank := match (m.leads.drop 1).findIdx? fun p => decide (p = m.self) with | some i => i + 1 | none => 0
  (if lead = m.self then 1 else if spare then 2 else if partner then 3 else 0, if lead = m.self then 0 else rank)

/-- The package becomes a member of its slice (R346, R368, R436, R487): its registers are set from the manifest and its first routing
table is built; the manifest permits injection or not (R342). -/
def State.becomeMember (s : State) (m : Manifest) : State :=
  let s := s.setFs aBocState [(F.bocState_admitted, 1), (F.bocState_step, 11)]
  let own := ((List.range 3).map fun a => if s.ownsRing a then 2 ^ a else 0).sum
  let s := s.setFs aGmuCfg [(F.gmuCfg_timeout, m.timeout), (F.gmuCfg_admitted, 1)]
  let s := s.setFs aGmuSlice [(F.gmuSlice_low, m.low), (F.gmuSlice_extentM1, m.extentM1), (F.gmuSlice_own, own), (F.gmuSlice_torusM1, m.torusM1)]
  let s := s.setFs aBocSlipCfg [(F.bocSlipCfg_window, m.window), (F.bocSlipCfg_quantum, m.quantum)]
  let (role, rank) := m.role
  let s := s.setFs aFltState [(F.fltState_role, role), (F.fltState_successor, rank), (F.fltState_lead, m.leads.headD 0)]
  let s := s.setFs aGmuEpoch [(F.gmuEpoch_inject, 0), (F.gmuEpoch_bank1, 0), (F.gmuEpoch_changes, 0)]
  let s := (s.buildBank 0).setBank 0 2
  let s := s.setFs aSecAuth [(F.secAuth_port, 0), (F.secAuth_valid, 0)]
  let s := (List.range numPorts).foldl (fun s p => s.setF (aLnkInjCtl p) F.lnkInjCtl_permitted (m.flags % 2)) s
  { s.setChannels 2 with
    boc := { s.boc with joining := false, admitAt := none }
    rcv := { s.rcv with decided := s.committed, sweepFrom := s.committed } }

/-- ADMITTED: a joining package that has locked time and has a port in plan is admitted (R487). -/
def execAdmitted (s : State) : Out :=
  match s.manifest with
  | some m => if s.boc.joining && s.canJoin then .next (s.becomeMember m).updateHealth else .next s
  | none => .next s

/-- ADMISSION_TIMEOUT: at B + 26 s a package without lock or without a port in plan gives up: an event, and its drone paths close
(R488). -/
def execAdmissionTimeout (s : State) : Out :=
  if !s.boc.joining || s.canJoin then .next s
  else
    let s := (s.event 4 0x35 0 0 0).closeDrones s.beat
    .next ({ s with boc := { s.boc with joining := false, admitAt := none } }.setF aBocState F.bocState_step 9)

/-! ### The start of a job -/

/-- The image digest (R453) of the accepted envelope, its bits 63:0 as image ready carries them (R494). -/
def State.imageWord (s : State) : Nat := match s.boc.envelope with | some e => e.digest.toNat % 2 ^ 64 | none => 0

/-- IMAGE_READY: the lead notes a member that is ready with the digest of the image it holds (R493). -/
def execImageReady (msg : Msg) (s : State) : Out :=
  let s := s.takeMsg msg
  let p := msgBits msg 8 14
  if s.isLead ∧ s.boc.envelope.isSome ∧ msgBits msg 24 64 = s.imageWord then
    .next { s with rcv := { s.rcv with ready := if s.rcv.ready.contains p then s.rcv.ready else s.rcv.ready ++ [p] } }
  else .next s

/-- BREATH0_LOAD_DONE: breath 0's load list has finished and the setpoint is within the image's range: the package is ready and tells the
lead (R233, R492). -/
def execBreath0LoadDone (s : State) : Out :=
  if s.hasImage && !s.brt.job && !s.flag aBocState F.bocState_ready && s.loadsFinished && s.acceptanceSettled then
    let s := s.setF aBocState F.bocState_ready 1
    .next (s.sendTo s.lead (s.msgOf 0x73 [(24, s.imageWord)]))
  else .next s

/-- Counts of a job begin anew: slips (R237), restarts and replays (R435), swaps (R398), field controller errors (R476), failures of
authentication (R463). -/
def State.freshJob (s : State) : State :=
  let s := s.clearFs aBocSlip [F.bocSlip_total, F.bocSlip_count]
  { s with
    ports := Tbl.update Port.reset (fun _ x => { x with authBad := 0 }) s.ports
    rcv := { s.rcv with reports := [], decided := s.committed, replay := none, digests := [], streaks := [], waits := none,
                        stopped := false, toCommit := none, firsts := [], shadow := none, errors := [], report := none, restarts := 0,
                        replays := 0, swaps := 0, cause := 0, restart := false, regen := none, badAuth := [] } }

/-- START_ORDER: the job starts at T_0 (R493): breath 0 runs from table entry 0, and every member that is not in standby arms its
trigger. -/
def execStartOrder (msg : Msg) (s : State) : Out :=
  let s := s.takeMsg msg
  if !s.hasImage || s.brt.job then .next s
  else
    let t0 := BitVec.ofNat 64 (msgBits msg 40 48 * 65536)
    let s := s.freshJob
    let s := { s with brt := { BreathSt.reset with job := true, step := s.committed,
                                                   loadsDone := if s.brt.next = 0 then s.brt.loadsDone else [] } }
    let s := (s.setF aFltStep F.fltStep_entry 0).setF aBocTNext F.bocTNext_beat t0.toNat
    -- a link that had failed before the job, or was out of plan, is patched from its first breath on (R281, R296)
    let s := if s.isLead then s.rcv.downs.foldl (fun s key => s.orderPatch key) s else s
    .next (if s.standby then s else s.armTrigger t0.toNat).updateHealth

/-! ### Withdrawal -/

/-- WITHDRAW_NOTICE: the lead treats a package that withdraws from a running job as lost (R428), another one only leaves the slice (R496). -/
def execWithdrawNotice (msg : Msg) (s : State) : Out :=
  let s := s.takeMsg msg
  let p := msgBits msg 24 14
  if !s.isLead then .next s
  else if msg.getLsbD 88 then .next (s.lose p)
  else
    .next { s with rcv := { s.rcv with lost := if s.rcv.lost.contains p then s.rcv.lost else s.rcv.lost ++ [p],
                                       ready := s.rcv.ready.filter fun q => q ≠ p } }

/-- The memories of the die stack zeroed (R255): tile data memory, instruction stores and staging SRAM; every core stands as after island
reset. -/
def State.zeroDies (s : State) : State :=
  let s := s.allIslands.foldl (fun s n => s.resetIsland n) s
  { s with
    cores := []
    mem := s.mem.filter fun p => decide (p.1 < lpEnd)
    tags := s.tags.filter fun p => decide (64 * p.1 < lpEnd)
    bad := s.bad.filter fun p => decide (8 * p.1 < lpEnd) }

/-- J and every key derived from it erased, and m7 to m9 cleared (R439, R447, R495): lines of the LPDDR5X tier read as unpredictable data from
then on (R247), link keys and installed packs go. -/
def State.eraseKeys (s : State) : State :=
  let s := ((s.setMeas 7 0).setMeas 8 0).setMeas 9 0
  let s := s.setF aSecState F.secState_keys 0
  { s with
    tier := { s.tier with key := 0 }
    ports := Tbl.update Port.reset (fun _ x => { x with encTx := false, encRx := false, tagWait := [] }) s.ports
    boc := { s.boc with packs := [], ckpt := [] } }

/-- Whether a register word lies in a slot table, a patch list, a queue binding, a queue state, a stream table or a stream's counters
(R301). -/
def inTables (a : Nat) : Bool :=
  if prtBase 0 ≤ a ∧ a < prtBase 48 then
    let o := (a - prtBase 0) % 0x1000000
    decide (0x400 ≤ o ∧ o < 0xA00) || decide (0x100000 ≤ o ∧ o < 0x208000)
  else decide (fabBase + 0x10000 ≤ a ∧ a < fabBase + 0x48000)

/-- What the slice and its job have set goes back to its reset value (R37, R495): image, slice, epochs, steps, tags, substitutions, captures,
tables and counters. -/
def State.leaveSlice (s : State) : State :=
  let s := s.clearFs aBocState [F.bocState_manifest, F.bocState_grant, F.bocState_image, F.bocState_ready, F.bocState_admitted, F.bocState_withdrawing]
  let s := [aGmuSlice, aGmuEpoch, aFltState, aFltStep, aFltTag 1, aFltTag 2, aFltTag 3, aFltSusp, aFltSubstDir, aCrpPatchDir, aCrpFabric, aBocSlipCfg,
    aBocBtable].foldl (fun s a => s.clearSpan a 1) s
  let s := s.clearFs aGmuCfg [F.gmuCfg_timeout, F.gmuCfg_admitted]
  let s := s.clearFs aBocSetpoint [F.bocSetpoint_imageMin]
  let s := s.clearFs aTimStatus [F.timStatus_root, F.timStatus_locked, F.timStatus_holdover, F.timStatus_parent, F.timStatus_depth, F.timStatus_rootIndex]
  let s := (s.clearSpan (aFltSubst 0) (8 * 16)).clearCaptures fun _ => true
  let s := s.clearTraffic
  { s with
    regs := s.regs.filter fun p => !inTables (p.1 / 64)
    manifest := none
    brt := BreathSt.reset
    fab := Fabric.reset
    gmu := Gmu.reset
    rcv := { Recov.reset with retired := s.rcv.retired }
    tier := { s.tier with descs := [], tagDir := [] }
    boc := { s.boc with force := none, closeAt := none, admitAt := none, joining := false, envelope := none, manBytes := [], parts := [], regions := (0, 0) } }

/-- Every port is dark again (R483), neither fenced nor in use by an image (R274, R489), and injection is cleared (R342). -/
def State.darkPorts (s : State) : State :=
  (List.range numPorts).foldl (fun s p =>
    ((((s.clearSpan (aLnkInjCtl p) 40).clearFs (aBocDisc p) [F.bocDisc_used]).clearFs (aCrpConfig p) [F.crpConfig_arrival, F.crpConfig_sched, F.crpConfig_slotBank,
      F.crpConfig_lqBank]).classify p)) s

/-- WITHDRAW_CLOSE: at the closing beat the package closes its drone paths, erases its keys, zeroes the die stack's memories and stands at
step 9 without a manifest (R495). -/
def execWithdrawClose (s : State) : Out :=
  match s.boc.closeAt with
  | none => .next s
  | some b =>
    let s := (s.closeDrones b).eraseKeys.zeroDies.leaveSlice.darkPorts
    .next ((s.setF aBocState F.bocState_step 9).rebuildMap.setChannels 4).showUnits.updatePorts.updateHealth

end Sys2Proof.Machine
end

