-- ==== Sys2Proof/Machine/Brq.lean ====
section
/-! DEFINITION. The Bocal request protocol (R499 to R506): messages, sessions and responses, and every request but those on objects. -/

namespace Sys2Proof.Machine

/-! ### Messages and responses -/

/-- Whether BRQ is answered: reset is released and the Bocal has reached step 3 or runs the recovery service (R477, R479, R507). -/
def State.brqLive (s : State) : Bool :=
  decide (s.pins.power = .on) && !s.boc.dead && (s.boc.recovery || decide (3 ≤ s.getF aBocState F.bocState_step))

/-- A message dropped without a response (R501). -/
def State.dropBrq (s : State) : State :=
  { s.bump aBocBrq F.bocBrq_dropped 1 with boc := { s.boc with resp := none } }

/-- The SEC_REFUSALS field in which a status counts (R506). -/
def refusalField (status : Nat) : Option Fld :=
  match status with
  | 0x04 => some F.secRefusals_signature
  | 0x05 => some F.secRefusals_rollback
  | 0x06 => some F.secRefusals_binding
  | 0x07 => some F.secRefusals_other
  | 0x0D => some F.secRefusals_other
  | _ => none

/-- An answer counted (R506, R509). -/
def State.countAnswer (s : State) (status : Nat) : State :=
  let s := s.bump aBocBrq (if status = 0 then F.bocBrq_accepted else F.bocBrq_refused) 1
  match refusalField status with
  | some f => s.bump aSecRefusals f 1
  | none => s

/-- An open session. -/
def State.session (s : State) (id : BitVec 64) : Option Session := s.boc.sessions.find? fun x => decide (x.id = id)

/-- A session's record replaced. -/
def State.setSession (s : State) (x : Session) : State :=
  { s with boc := { s.boc with sessions := s.boc.sessions.map fun y => if y.id = x.id then x else y } }

/-- A response outside any session (R500, R501). -/
def State.respondClear (s : State) (r : Brq) (code status : Nat) (data : List Byte) : State :=
  let s := s.countAnswer status
  { s with boc := { s.boc with resp := some { session := 0, counter := 0, code := code + 0x8000, rid := r.rid, status := status, data := data } } }

/-- A response in a session, under the counter `out`; a session keeps its last 64 (R501), and ends when its counter reaches 2^32 (R455). -/
def State.respond (s : State) (r : Brq) (out code status : Nat) (data : List Byte) (keep : Bool) : State :=
  let a : Resp := { session := r.session, counter := out, code := code, rid := r.rid, status := status, data := data }
  let s := { s with boc := { s.boc with resp := some a } }
  match s.session r.session with
  | some x =>
    if 2 ^ 32 ≤ out + 1 then s.endSession x.id
    else
      let l := if keep then x.answers ++ [a] else x.answers
      s.setSession { x with out := out + 1, answers := l.drop (l.length - 64) }
  | none => s

/-- A session message accepted (R455): its counter is unused and above the highest accepted minus 64. -/
def Session.accepts (x : Session) (c : Nat) : Bool := !x.seen.contains c && decide (x.top < c + 65)

/-- The session after an accepted message. -/
def Session.accept (x : Session) (c : Nat) : Session :=
  let top := max x.top (c + 1)
  { x with top := top, seen := (c :: x.seen).filter fun k => decide (top < k + 65) }

/-- What a request does in a session: the state, the status and the response data. -/
abbrev Act := Session → State → State × Nat × List Byte

/-- A class 1 request (R455, R456, R500, R501, R503): a repeated request id gets its stored response, a request without permission or
that the recovery service does not offer (R479) is refused, else it is performed; `after` follows an answer with status 0. -/
def State.sessionRequest (s : State) (r : Brq) (code : Nat) (may : Session → Bool) (inRecovery : Bool) (act : Act) (after : State → State) : State :=
  if !s.brqLive then s
  else if r.cls = 0 ∨ r.cls = 2 then s.respondClear r code 1 []
  else if r.cls ≠ 1 then s.dropBrq
  else
    match s.session r.session with
    | none => s.dropBrq
    | some x =>
      if !r.tagOk || !x.accepts r.counter then s.dropBrq
      else if 2 ^ 32 ≤ r.counter then (s.endSession x.id).dropBrq
      else
        let x := x.accept r.counter
        let s := s.setSession x
        match x.answers.find? fun a => decide (a.rid = r.rid) with
        | some a => s.respond r x.out a.code a.status a.data false
        | none =>
          let (s, status, data) :=
            if s.boc.recovery && !inRecovery then (s, 0x08, [])
            else if !may x then (s, 0x01, [])
            else act x s
          let s := (s.countAnswer status).respond r x.out (code + 0x8000) status data true
          if status = 0 then after s else s

/-- Whether a session has a permission (R450, R456): the owner has every one. -/
def Session.may (bit : Nat) (x : Session) : Bool := x.owner || x.perms.testBit bit

/-- A refusal with a status, nothing changed. -/
def refuse (s : State) (status : Nat) : State × Nat × List Byte := (s, status, [])

/-! ### Sessions -/

/-- SESSION_OPEN: the opener signs the current challenge as the owner or a held authority (R441, R454); a new challenge is drawn whatever the
outcome. At most 8 sessions are open (R455); the recovery service opens them for the owner only (R479). -/
def execSessionOpen (req : Brq) (owner : Bool) (record : Nat) (sid : BitVec 64) (challenge next : BitVec 256) (verdict : Verdict) (s : State) : Out :=
  if !s.brqLive then .next s
  else if 3 ≤ req.cls then .next s.dropBrq
  else if req.cls ≠ 2 then .next (s.respondClear req 0x11 1 [])
  else
    let auth := s.nv.auths.find? fun a => decide (a.number = record)
    let status :=
      if s.boc.recovery && !owner then 0x01
      else if challenge ≠ s.boc.challenge then 0x06
      else if verdict = .badSignature || (if owner then s.owner.isNone else auth.isNone) then 0x04
      else match verdict with
        | .rollback => 0x05
        | .binding => 0x06
        | .otherCheck => 0x07
        | _ => if 8 ≤ s.boc.sessions.length then 0x08 else 0
    let s := { s with boc := { s.boc with challenge := next } }
    if status ≠ 0 then .next (s.respondClear req 0x11 status [])
    else
      let x : Session := { id := sid, owner := owner, record := record, perms := match auth with | some a => a.perms | none => 0,
                           top := 0, seen := [], out := 0, answers := [] }
      let s := { s.endSession sid with boc := { (s.endSession sid).boc with sessions := (s.endSession sid).boc.sessions ++ [x] } }
      .next (s.respondClear req 0x11 0 (bytesOfNat 8 sid.toNat))

/-- SESSION_CLOSE (R455, R503). -/
def execSessionClose (req : Brq) (s : State) : Out :=
  .next (s.sessionRequest req 0x12 (fun _ => true) false (fun _ s => (s, 0, [])) fun s => s.endSession req.session)

/-! ### Time -/

/-- TIME_POLL: the arrival beat of the poll and the departure beat of the response (R383, R505). -/
def execTimePoll (req : Brq) (arrival departure : Beat) (s : State) : Out :=
  .next (s.sessionRequest req 0x20 (fun _ => true) false
    (fun _ s => (s, 0, bytesOfNat 8 arrival.toNat ++ bytesOfNat 8 departure.toNat)) id)

/-- What a time steer is refused with (R377, R378, R384), 0 for nothing: while a slice is admitted only the root is steered, by its
increment alone and at most 2,749 units at a time; a reserved increment is an access error (R13). -/
def State.steerStatus (s : State) (writeIncr writePhase : Bool) (incr : Nat) : Nat :=
  let cur := s.getF aTimIncr F.timIncr_incr
  if s.admitted && (!s.flag aTimStatus F.timStatus_root || writePhase) then 0x08
  else if writeIncr && !incrOk incr then 0x0C
  else if s.admitted && writeIncr && decide (cur + 2749 < incr ∨ incr + 2749 < cur) then 0x08
  else 0

/-- TIME_STEER: writes the increment, the phase or both (R384), and ends the holdover of a root (R385). -/
def execTimeSteer (req : Brq) (writeIncr writePhase : Bool) (incr phase : Word) (s : State) : Out :=
  .next (s.sessionRequest req 0x21 (Session.may 0) false
    (fun _ s =>
      let v := bitsAt incr.toNat 0 40
      let st := if incr.toNat ≠ v then 0x03 else s.steerStatus writeIncr writePhase v
      if st ≠ 0 then refuse s st
      else
        let s := if writeIncr then s.setF aTimIncr F.timIncr_incr v else s
        let s := if writePhase then { s with pins := { s.pins with phase := some phase } } else s
        (if s.flag aTimStatus F.timStatus_root then s.setF aTimStatus F.timStatus_holdover 0 else s, 0, [])) id)

/-! ### Registers and events -/

/-- EVENT_ACK: the first unread sequence number (R433, R503). -/
def execEventAck (req : Brq) (seq : Nat) (s : State) : Out :=
  .next (s.sessionRequest req 0x30 (Session.may 7) false (fun _ s => (s.setF aFltRing F.fltRing_read seq, 0, [])) id)

/-- REG_READ: a control-space read (R8, R503). -/
def execRegRead (req : Brq) (addr : Nat) (s : State) : Out :=
  .next (s.sessionRequest req 0x31 (Session.may 7) false
    (fun _ s => match s.ctlRead addr with | (s1, some w) => (s1, 0, bytesOfNat 8 w) | (_, none) => refuse s 0x0C) id)

/-- Whether an address names a register of error injection (R343, R503). -/
def isInjection (a : Nat) : Bool :=
  decide (prtBase 0 ≤ a ∧ a < prtBase 48) && (let o := (a - prtBase 0) % 0x1000000; decide (0x8200 ≤ o ∧ o ≤ 0x8220))

/-- REG_WRITE: a control-space write by the owner, or by an authority to the injection registers; never to the TIM_ block (R8, R503). -/
def execRegWrite (req : Brq) (addr : Nat) (value : Word) (s : State) : Out :=
  .next (s.sessionRequest req 0x32 (fun x => x.owner || (x.perms.testBit 6 && isInjection addr)) false
    (fun _ s =>
      if timBase ≤ addr ∧ addr < fltBase then refuse s 0x0C
      else
        let t := s.ctlWrite addr value
        if t.bus.err then refuse s 0x0C else (t, 0, [])) id)

/-! ### Admission, start and stop -/

/-- Whether a beat lies at least a span of ns ahead. -/
def State.ahead (s : State) (b : Beat) (ns : Nat) : Bool := beatReached b (s.beat + nsBeat ns)

/-- ADMIT: a package at step 9 with a manifest and a key grant, of some class, is admitted from beat B on (R24, R485). -/
def execAdmitRequest (req : Brq) (beat : Beat) (s : State) : Out :=
  .next (s.sessionRequest req 0x40 (Session.may 2) false
    (fun _ s =>
      if s.manifest.isNone || !s.flag aBocState F.bocState_grant || decide (s.getF aBocState F.bocState_step ≠ 9) ||
          decide (s.getF aBocCapacity F.bocCapacity_class = 3) then refuse s 0x08
      else if !s.ahead beat 100000000 then refuse s 0x03
      else ({ s with boc := { s.boc with admitAt := some beat } }, 0, [])) id)

/-- ADMIT_NOTICE: the slice lead tells the joiner's neighbours in the slice, unless a breath runs or an active patch names a link of the joiner
(R485). -/
def execAdmitNotice (req : Brq) (joiner : Nat) (beat : Beat) (s : State) : Out :=
  .next (s.sessionRequest req 0x41 (fun x => x.may 2 && s.isLead) false
    (fun _ s =>
      if s.brt.running || (s.linksOf joiner).any fun k => s.fab.patches.any fun p => decide (p.1 = k) then refuse s 0x08
      else if !s.ahead beat 100000000 then refuse s 0x03
      else if !s.isMember joiner then refuse s 0x03
      else
        let near := (((List.range 6).map fun d => s.neighbourOf joiner d).filter fun p => s.isMember p && decide (p ≠ joiner)).eraseDups
        let m := s.msgOf 0x70 [(24, joiner), (40, beat.toNat / 65536)]
        let s := near.foldl (fun s p => s.sendTo p m) s
        ({ s with rcv := { s.rcv with joiners := joiner :: s.rcv.joiners.filter fun p => p ≠ joiner,
                                      lost := s.rcv.lost.filter fun p => p ≠ joiner } }, 0, [])) id)

/-- WITHDRAW: a package that is admitted or holds a manifest begins its withdrawal (R37, R495). -/
def execWithdraw (req : Brq) (s : State) : Out :=
  .next (s.sessionRequest req 0x42 (Session.may 2) false
    (fun _ s =>
      if !s.admitted && s.manifest.isNone then refuse s 0x08
      else ((s.setF aBocState F.bocState_withdrawing 1).tryWithdraw.updateHealth, 0, [])) id)

/-- Whether every member and standby package has sent image ready (R493). -/
def State.allReady (s : State) : Bool :=
  match s.manifest with
  | some m => m.members.all fun r => s.rcv.lost.contains r.index || s.rcv.ready.contains r.index
  | none => false

/-- START: the lead broadcasts the start order with T_0, 10 ms to 10 s ahead; zero means 10 ms ahead (R493). -/
def execStart (req : Brq) (t0 : Beat) (s : State) : Out :=
  .next (s.sessionRequest req 0x43 (fun x => x.may 2 && s.isLead) false
    (fun _ s =>
      let t := if t0 = 0 then s.beat + nsBeat 10000000 else t0
      if s.brt.job || !s.admitted || !s.allReady then refuse s 0x08
      else if !s.ahead t 10000000 || !beatReached (s.beat + nsBeat 10000000000) t then refuse s 0x03
      else (s.sendAll (s.msgOf 0x72 [(40, t.toNat / 65536)]), 0, bytesOfNat 8 t.toNat)) id)

/-- STOP: the lead broadcasts abort with cause 8 at the next package boundary, during a recovery at the first one after it (R494); a slice
that has been stopped takes no more boundaries (R428). -/
def execStop (req : Brq) (s : State) : Out :=
  .next (s.sessionRequest req 0x44 (fun x => x.may 2 && s.isLead) false
    (fun _ s =>
      if !s.brt.job then refuse s 0x08
      else if (s.brt.running && !s.brt.taken && !s.brt.aborted) ||
          (!s.rcv.stopped && (s.brt.aborted || decide (s.getF aFltState F.fltState_recovery ≠ 0))) then
        ({ s with brt := { s.brt with stopping := true } }, 0, [])
      else (s.sendAll (s.msgOf 0x29 [(32, s.brt.next), (96, 8)]), 0, [])) id)

/-- DECIDE: management commits or discards a suspect step whose slice waits for lack of a replay resource (R414, R503). -/
def execDecide (req : Brq) (step choice : Nat) (s : State) : Out :=
  .next (s.sessionRequest req 0x45 (fun x => x.may 2 && s.isLead) false
    (fun _ s =>
      if choice ≠ 1 ∧ choice ≠ 2 then refuse s 0x03
      else if s.rcv.waits ≠ some step then refuse s 0x08
      else (if choice = 1 then s.commitStep step else s.discardStep step, 0, [])) id)

/-! ### Update, reset and tones -/

/-- A commanded reset, 10 ms after the response leaves (R471); the response stays the last one. -/
def State.commandedReset (s : State) (cause : Nat) : State :=
  let t := s.resetBy cause
  { t with boc := { t.boc with resp := s.boc.resp } }

/-- UPDATE: a slot is preferred on trial and the package resets; refused while admitted (R446, R498). -/
def execUpdate (req : Brq) (slot : Nat) (s : State) : Out :=
  .next (s.sessionRequest req 0x50 (Session.may 4) false
    (fun _ s =>
      if s.admitted then refuse s 0x08
      else if 2 ≤ slot then refuse s 0x03
      else ({ s with nv := { s.nv with bcr := { preferred := slot, trial := true, boots := 0 } } }, 0, []))
    fun s => s.commandedReset 4)

/-- CONFIRM: the bundle on trial stays: trial clears and counter 0 rises to its security version (R438, R446, R498). -/
def execConfirm (req : Brq) (s : State) : Out :=
  .next (s.sessionRequest req 0x51 (Session.may 4) false
    (fun _ s =>
      if !s.flag aSecState F.secState_trial then refuse s 0x08
      else
        let s := s.setF aSecState F.secState_trial 0
        let s := s.setF aSecCounters F.secCounters_ctr0 (max (s.getF aSecCounters F.secCounters_ctr0) s.boc.secVer)
        ({ s with nv := { s.nv with bcr := { s.nv.bcr with trial := false, boots := 0 } } }, 0, [])) id)

/-- RESET: a commanded reset, refused while admitted (R471, R503). -/
def execReset (req : Brq) (s : State) : Out :=
  .next (s.sessionRequest req 0x52 (Session.may 4) true
    (fun _ s => if s.admitted then refuse s 0x08 else (s, 0, [])) fun s => s.commandedReset 3)

/-- TONE_RUN: a long-tone run outside a job, of one pack or of every pack (R423, R503). -/
def execToneRun (req : Brq) (pack : Nat) (s : State) : Out :=
  .next (s.sessionRequest req 0x53 (Session.may 3) false
    (fun _ s =>
      let l := if pack = 0 then s.boc.packs else s.boc.packs.filter fun p => decide (p.number = pack)
      if s.brt.job then refuse s 0x08
      else if l.isEmpty && decide (pack ≠ 0) then refuse s 0x03
      else (s.runTones l, 0, [])) id)

end Sys2Proof.Machine
end

