-- ==== Sys2Proof/Machine/Image.lean ====
section
/-! DEFINITION. What an Eumbe image is accepted by: the validity of breath tables, load records and port tables (R197 to R199, R256, R274,
R276, R284), the image directory and parts (R489 to R492), and what acceptance of a part sets. -/

namespace Sys2Proof.Machine

/-! ### Bytes of an object -/

/-- A field of an object: bytes `lo` to `hi`, little-endian (R14). -/
def byteField (bs : List Byte) (lo hi : Nat) : Nat := natOfBytes ((bs.drop lo).take (hi + 1 - lo))

/-- The length of a signature block (R440). -/
def sigLen : Nat := 7228

/-- Whether bytes `lo` to `hi` of an object are zero. -/
def zeroBytes (bs : List Byte) (lo hi : Nat) : Bool := decide (byteField bs lo hi = 0)

/-! ### Memory an image may use -/

/-- The base of the management area (R499): the top 64 MiB of field 7's mapped region. -/
def State.mgmtBase (s : State) : Nat := 7 * lpField + s.chanCount 7 * lpChannelBytes - 2 ^ 26

/-- Whether `n` bytes from `a` on are mapped LPDDR5X memory (R244). -/
def State.lpRange (s : State) (a n : Nat) : Bool :=
  decide (a + n ≤ lpEnd) && (List.range 8).all fun f =>
    let hi := min (a + n) ((f + 1) * lpField)
    decide (hi ≤ max a (f * lpField)) || decide (hi ≤ f * lpField + s.chanCount f * lpChannelBytes)

/-- Whether `n` bytes from `a` on lie in the usable LPDDR5X range, outside the management area (R199, R499). -/
def State.usable (s : State) (a n : Nat) : Bool := s.lpRange a n && (decide (a + n ≤ s.mgmtBase) || decide (s.mgmtBase + 2 ^ 26 ≤ a))

/-! ### Breath table and load records -/

/-- The slots of a breath (R276, R280): length / 1.44. -/
def slotsOf (length : Nat) : Nat := length * 100 / 144

/-- Whether a slot is reserved (R272). -/
def reservedSlot (share slot : Nat) : Bool :=
  decide (slot % 32 = 31) || (decide (share = 1) && decide (slot % 16 = 3)) || (decide (share = 2) && decide (slot % 8 = 3))

/-- A slot-table entry that image load accepts (R276). -/
def slotEntryOk (share length e : Nat) : Bool :=
  decide (bitsAt e 30 2 = 0) && (!slValid e || (decide (slStride e ≠ 0) && (List.range (slCountM1 e + 1)).all fun i =>
    let slot := slStart e + slStride e * i
    decide (slot < slotsOf length) && !reservedSlot share slot))

/-- A stream descriptor that image load accepts (R284), with `k` islands per field: no absent island or core, no ring that leaves its memory,
no relay out of the port it comes in by. -/
def descriptorOk (k d : Nat) : Bool :=
  let kind := bitsAt d 0 3
  let lands := decide (kind = 1 ∨ kind = 3)
  let relays := decide (kind = 2 ∨ kind = 3)
  let dest := bitsAt d 21 2
  let ring := bitsAt d 64 20 + 1
  let place := decide (bitsAt d 24 9 < 8 * k) && decide (bitsAt d 37 6 < 60)
  let ok := match dest with
    | 0 => place
    | 1 => place && decide (bitsAt d 43 18 + 256 * ring ≤ tileSize)
    | 2 => decide (bitsAt d 27 26 + 256 * ring ≤ stgSize)
    | _ => true
  let nloc := bitsAt d 94 9
  let signal := decide (bitsAt d 84 2 ≠ 2) || decide (nloc < 8 * k)
  (!lands || (ok && signal)) && (!relays || decide (bitsAt d 3 6 ≠ bitsAt d 9 6))

/-- The data of a kind-4 record that image load accepts (R276, R284). -/
def State.portTableOk (s : State) (share k length r : Nat) : Bool :=
  let word := fun i => s.readNat (recSrc r + 8 * i) 8
  match bitsAt (recUnit r) 6 4 with
  | 0 => (List.range (2 * recCount r)).all fun i => slotEntryOk share length (word i)
  | 2 => (List.range (recCount r)).all fun i => descriptorOk k (word (2 * i) + word (2 * i + 1) * 2 ^ 64)
  | _ => true

/-- A valid load record (R198, R199, R256, R274), for an image of detour share `share` and `k` islands per field, in an entry of the given
length. -/
def State.recordOk (s : State) (share k length r : Nat) : Bool :=
  let kind := recKind r
  let exec0 := decide (recExecFirst r = 0 ∧ recExecLast r = 0)
  let island := decide (recIsland r < 8 * k)
  let core := decide (recUnit r < 960)
  let switch := decide (960 ≤ recUnit r ∧ recUnit r < 976)
  let aligned := decide (recSrc r % (if kind = 5 then 32 else 16) = 0)
  decide (bitsAt r 23 41 = 0 ∧ bitsAt r 106 22 = 0 ∧ bitsAt r 184 72 = 0) && decide (1 ≤ recCount r ∧ recCount r ≤ 2048) && aligned &&
    s.usable (recSrc r) (16 * recCount r) &&
    match kind with
    | 0 => decide (recFirst r + recCount r ≤ 2048) && decide (recExecFirst r ≤ recEntry r ∧ recEntry r ≤ recExecLast r) && island && core
    | 1 => decide (recFirst r + recCount r ≤ 256) && exec0 && decide (recEntry r = 0) && island && switch
    | 2 => decide (recFirst r + recCount r ≤ 2048) && exec0 && decide (recEntry r = 0) && island && switch
    | 3 => decide (recCount r = 4 ∧ recFirst r = 0) && exec0 && decide (recEntry r = 0) && island && core &&
        (List.range 8).all fun i => let w := s.readNat (recSrc r + 8 * i) 8; decide (bitsAt w 0 6 < 48 ∧ bitsAt w 15 49 = 0)
    | 4 =>
      let table := bitsAt (recUnit r) 6 4
      let limit := match table with | 0 => 32768 | 1 => 32 | _ => 4096
      exec0 && decide (recEntry r = 0) && (if table = 2 then decide (recIsland r = 48) else decide (table < 2 ∧ recIsland r < 48)) &&
        decide (2048 * bitsAt (recUnit r) 0 6 + recFirst r + recCount r ≤ limit) && s.portTableOk share k length r
    | 5 => exec0 && decide (recEntry r < 1024) && decide (recIsland r < 128) && decide (recUnit r = 0) && decide (recCount r % 2 = 0) &&
        decide (recFirst r % 2 = 0) && decide (recFirst r + recCount r ≤ 2048)
    | _ => false

/-- A valid breath-table entry (R196, R197), of a table with `count` entries. -/
def State.entryOk (s : State) (w minSet share k count e : Nat) : Bool :=
  let len := entLength e
  let sp := entSetpoint e
  decide (max 10000 w ≤ len ∧ len ≤ 10000000) &&
    (decide (sp = 0) || decide (minSet ≤ sp ∧ 12 ≤ sp ∧ sp ≤ s.getF aBocSetpoint F.bocSetpoint_gradeMax)) &&
    decide (entNext e < count) && decide (bitsAt e 24 8 = 0 ∧ bitsAt e 85 3 = 0 ∧ bitsAt e 91 37 = 0 ∧ bitsAt e 170 22 = 0 ∧ bitsAt e 216 40 = 0) &&
    decide (entLoads e % 32 = 0) && s.usable (entLoads e) (32 * entLoadCount e) &&
    (List.range (entLoadCount e)).all fun i => s.recordOk share k len (s.readNat (entLoads e + 32 * i) 32)

/-! ### Directory and parts -/

/-- A part record of an image directory (R489). -/
def partRecOf (bs : List Byte) : PartRec :=
  { index := byteField bs 0 1, ports := byteField bs 2 7, channels := byteField bs 8 15, length := byteField bs 16 23,
    digest := BitVec.ofNat 512 (byteField bs 24 87) }

/-- An envelope: its header (R453) and its directory (R489). -/
def envelopeOf (bs : List Byte) : Envelope :=
  let dir := bs.drop 256
  { cls := byteField bs 2 2, minSet := byteField bs 3 3, digest := sha3_512 (bs.take 256), detour := byteField dir 2 3, budget := byteField dir 4 4,
    parts := (List.range (byteField dir 8 11)).map fun i => partRecOf ((dir.drop (64 + 88 * i)).take 88) }

/-- A segment record of a part (R490): destination, flags, length, offset of the data, and its reserved bytes. -/
def segmentOf (bs : List Byte) (j : Nat) : Nat × Nat × Nat × Nat × Nat :=
  let r := (bs.drop (256 + 32 * j)).take 32
  (byteField r 0 5, byteField r 6 7, byteField r 8 15, byteField r 16 23, byteField r 24 31)

/-- The segment records of a part. -/
def segmentsOf (bs : List Byte) : List (Nat × Nat × Nat × Nat × Nat) := (List.range (byteField bs 4 7)).map fun j => segmentOf bs j

/-- The segments obey R490 and R499: aligned, in the usable range, inside the part, without overlap. -/
def State.segmentsOk (s : State) (bs : List Byte) : Bool :=
  let l := segmentsOf bs
  (l.all fun (d, fl, n, o, z) => decide (d % 64 = 0 ∧ n % 64 = 0 ∧ fl < 2 ∧ z = 0 ∧ o + n ≤ bs.length) && s.usable d n) &&
    (l.zipIdx.all fun a => l.zipIdx.all fun b =>
      decide (a.2 = b.2) || decide (a.1.1 + a.1.2.2.1 ≤ b.1.1) || decide (b.1.1 + b.1.2.2.1 ≤ a.1.1))

/-- A part's header (R490) with the ports of its record (R489). -/
def partOf (bs : List Byte) (r : PartRec) : Part :=
  { index := byteField bs 2 3, arrivals := (List.range 48).map fun p => byteField bs (8 + 2 * p) (9 + 2 * p),
    table := (byteField bs 104 109, byteField bs 110 111), patches := (byteField bs 112 117, byteField bs 118 119),
    substs := (byteField bs 120 125, byteField bs 126 127), regions := (byteField bs 128 133, byteField bs 134 135), ports := r.ports }

/-- Whether the package loads a member's part (R491): its own, as a spare every member's it may replace, in the partner box that of the
member it replays. -/
def State.loadsPart (s : State) (m : Manifest) (index : Nat) : Bool :=
  match m.role.1 with
  | 2 => m.members.any fun r => decide (r.index = index) && r.spares.contains m.self
  | 3 => m.members.any fun r => decide (r.index = index) && decide (s.partnerOf index = m.self)
  | _ => decide (index = m.self)

/-- The image fits the package (R25, R244): its class is not above the package's own, and every field has the channels its part needs. -/
def State.imageFits (s : State) (e : Envelope) (r : PartRec) : Bool :=
  decide (s.getF aBocCapacity F.bocCapacity_class ≤ e.cls ∧ e.cls < 3) && (List.range 8).all fun f => decide (bitsAt r.channels (8 * f) 8 ≤ s.chanCount f)

/-- Whether the arrival delays are permitted (R280, R492). -/
def arrivalsOk (p : Part) : Bool :=
  p.arrivals.zipIdx.all fun a => if p.ports.testBit a.2 then decide (24 ≤ a.1 ∧ a.1 ≤ 1023) else decide (a.1 = 0)

/-- Whether every port of a part is in plan (R483, R492). -/
def State.portsInPlan (s : State) (ports : Nat) : Bool :=
  (List.range numPorts).all fun p => !ports.testBit p || decide (s.getF (aBocDisc p) F.bocDisc_class = 1)

/-- The status a part is answered with (R492), 0 when it is accepted. -/
def State.partStatus (s : State) (m : Manifest) (e : Envelope) (r : PartRec) (bs : List Byte) : Nat :=
  let p := partOf bs r
  let k := classIslands e.cls
  let n := p.table.2 + 1
  if bs.length ≠ r.length ∨ sha3_512 bs ≠ r.digest then 0x07
  else if byteField bs 0 1 ≠ 1 ∨ p.index ≠ r.index ∨ !zeroBytes bs 136 255 then 0x07
  else if !s.imageFits e r || !s.segmentsOk bs then 0x07
  else if p.table.1 % 32 ≠ 0 ∨ !s.usable p.table.1 (32 * n) then 0x07
  else if !(List.range n).all fun i => s.entryOk m.window e.minSet e.detour k n (s.readNat (p.table.1 + 32 * i) 32) then 0x07
  else if !arrivalsOk p then 0x03
  else if !s.portsInPlan p.ports then 0x0D
  else 0

/-- What image load clears (R261, R263, R285, R291, R292, R404, R492): stream, staging and completion counters, recorded faults of engines, ports and
streams, launch counts and check counters; every engine waits at an end descriptor, and no patch is active. What launch queues hold and owe stays: only a
restart clears it (R277). The loaded ranges of the switches are empty (R185). -/
def State.clearForImage (s : State) : State :=
  let s := (s.clearSpan (aCrpSeq 0) (8 * 4096)).clearSpan (aCrpCc 0) (8 * 4096)
  let s := (List.range 8).foldl (fun s f => s.clearSpan (aStmCtr f 0) (8 * 256)) s
  let s := (List.range 128).foldl (fun s e => (s.clearSpan (stmA e) 1).clearSpan (aStmFault (e / 16) (e % 16)) 1) s
  let s := (List.range numPorts).foldl (fun s p => (s.clearField (aCrpLqState p 0) (8 * 64) F.crpLqState_launched).clearSpan (aCrpFault p) 1) s
  let s := s.clearFs aCrpStreamErr [F.crpStreamErr_first, F.crpStreamErr_valid]
  let s := s.clearSpan (aFltCoreChk 0 0) (8 * 1024 * 320)
  let s := s.dropPatches
  { s with
    clusters := Tbl.update Cluster.reset (fun _ c => { c with loaded := 0 }) s.clusters
    fab := { s.fab with groups := [], launches := [] }
    tier := { s.tier with engines := [], owners := [] } }

/-- Whether every part the package loads has been accepted (R491). -/
def State.allParts (s : State) (m : Manifest) : Bool :=
  m.members.all fun r => !s.loadsPart m r.index || s.boc.parts.any fun p => decide (p.index = r.index)

/-- A part accepted (R492): once every part the package loads is, its registers are set, counters are cleared, and breath 0's load list
can run. -/
def State.acceptPart (s : State) (m : Manifest) (e : Envelope) (p : Part) : State :=
  let s := { s with boc := { s.boc with parts := s.boc.parts ++ [p] } }
  if !s.allParts m then s
  else
    let first := s.boc.parts.headD p
    let s := s.clearForImage.applyPart first
    let s := s.setF aCrpFabric F.crpFabric_detourShare e.detour
    let s := s.setF aBocSetpoint F.bocSetpoint_imageMin e.minSet
    let s := s.setF aFltStep F.fltStep_entry 0
    State.showPending
      { s.setF aBocState F.bocState_image 1 with brt := { s.brt with next := 0, nextEntry := 0, loadsDone := [], stepFirst := true } }

end Sys2Proof.Machine
end

