-- ==== Sys2Proof/Machine/Objects.lean ====
section
/-! DEFINITION. The objects of the Bocal request protocol (R502, R504): certificate and report (R465, R466), firmware bundles (R444), ownership,
authority, floor and debug records (R448, R450, R469, R502), manifests (R451, R452), key grants (R458), images (R453, R489 to R492), long-tone packs
(R422) and checkpoints (R464). -/

namespace Sys2Proof.Machine

/-! ### Reads -/

/-- An attestation report over a caller's nonce (R466). -/
def State.makeReport (s : State) (nonce : BitVec 256) : List Byte :=
  let b := fun (c : Bool) (k : Nat) => if c then 2 ^ k else 0
  let permitted := match s.manifest with | some m => decide (m.flags % 2 = 1) | none => false
  let flags := b s.admitted 0 + b (s.flag aSecState F.secState_debug) 1 + b permitted 2 + b s.injecting 3 + b (s.flag aSecState F.secState_trial) 4
  let inj := ((List.range numPorts).map fun p => b (s.flag (aLnkInjCtl p) F.lnkInjCtl_enable) p).sum
  let now := s.getF aFltLedger F.fltLedger_minutes
  let recent := (s.flt.ledger.filter fun r => decide (r.kind = 2 ∧ now ≤ r.minutes + 60000)).length
  let body := bytesOfNat 2 1 ++ bytesOfNat 2 flags ++ bytesOfNat 8 Config.serial.toNat ++ bytesOfNat 2 s.indexOrNone ++ bytesOfNat 1 s.health ++
    bytesOfNat 1 0 ++ bytesOfNat 8 (s.readWord .bocReproKey aBocReproKey) ++ bytesOfNat 8 (s.readWord .bocCapacity aBocCapacity) ++
    bytesOfNat 1 (s.getF aSecCounters F.secCounters_ctr0) ++ bytesOfNat 1 (s.getF aSecCounters F.secCounters_ctr1) ++
    bytesOfNat 1 (s.getF aSecCounters F.secCounters_ctr2) ++ bytesOfNat 1 (s.getF aSecCounters F.secCounters_ctr3) ++ bytesOfNat 4 0 ++
    bytesOfNat 8 s.beat.toNat ++ bytesOfNat 32 nonce.toNat ++ bytesOfNat 32 s.boc.challenge.toNat ++ bytesOfNat 32 (sha3_256 s.valveImage).toNat ++
    bytesOfNat 64 (match s.manifest with | some m => m.digest.toNat | none => 0) ++
    bytesOfNat 64 (match s.boc.envelope with | some e => e.digest.toNat | none => 0) ++ bytesOfNat 8 inj ++
    bytesOfNat 4 now ++ bytesOfNat 4 (s.flt.retired.length + s.flt.newly.length) ++ bytesOfNat 4 recent ++ bytesOfNat 4 s.flt.ledger.length ++
    ((List.range 16).flatMap fun i => bytesOfNat 64 (s.meas i)) ++ bytesOfNat 1568 (Config.kemKey s.boc.kems).toNat ++ bytesOfNat 8 s.committed
  body ++ bytesOfNat 7228 (Config.reportSignature body).toNat

/-- A ledger record as its 32 bytes (R401). -/
def Ledger.bytes (r : Ledger) : List Byte :=
  let b := bytesOfNat 1 r.kind ++ bytesOfNat 1 r.cause ++ bytesOfNat 4 r.unit ++ bytesOfNat 4 r.minutes ++ bytesOfNat 4 r.detail ++ bytesOfNat 2 0 ++
    bytesOfNat 8 r.beat.toNat ++ bytesOfNat 4 r.seq
  b ++ bytesOfNat 4 (crc32c b).toNat

/-- The bytes of a readable object and its size (R502); an erased ledger record reads 0xFF. -/
def State.objSource (s : State) (object : Nat) : Option (Nat × (Nat → Byte)) :=
  let list := fun (l : List Byte) => some (l.length, fun i => l.getD i 0)
  match object with
  | 0x01 => list s.certificate
  | 0x02 => list s.boc.report
  | 0x03 => some (64, fun i => BitVec.ofNat 8 (s.getF (aFltHealth (i / 8)) F.fltHealth_word / 2 ^ (8 * (i % 8))))
  | 0x10 => some (262144, fun i => BitVec.ofNat 8 (s.getF (aFltEvent (i / 64) (i % 64 / 8)) F.fltEvent_word / 2 ^ (8 * (i % 8))))
  | 0x11 => some (16777216, fun i => match s.flt.ledger[i / 32]? with | some r => r.bytes.getD (i % 32) 0 | none => 0xFF)
  | 0x12 => some (valveSize, fun i => BitVec.ofNat 8 (s.valveByte i))
  | 0x30 => list s.boc.manBytes
  | 0x40 => list s.boc.ckpt
  | _ => none

/-- The objects of R502. -/
def objKnown (o : Nat) : Bool :=
  [0x01, 0x02, 0x03, 0x10, 0x11, 0x12, 0x20, 0x21, 0x22, 0x23, 0x24, 0x25, 0x30, 0x31, 0x32, 0x33, 0x34, 0x40, 0x41].contains o

/-- Who may read an object (R502). -/
def objReadable (o : Nat) (x : Session) : Bool :=
  match o with
  | 0x10 => x.may 7
  | 0x11 => x.may 7
  | 0x12 => x.may 7
  | 0x30 => x.may 1
  | 0x40 => x.may 5
  | _ => false

/-- A read of an object: its bytes, or malformed (R503). -/
def State.objBytes (s : State) (object offset length : Nat) : Nat × List Byte :=
  match s.objSource object with
  | some (n, f) =>
    if length = 0 ∨ 8192 < length ∨ n < offset + length then (0x03, [])
    else (0, (List.range length).map fun i => f (offset + i))
  | none => (0x01, [])

/-- OBJ_READ: a public object without a session, another one by permission (R457, R502, R503). -/
def execObjRead (req : Brq) (object index offset length : Nat) (s : State) : Out :=
  if s.brqLive ∧ req.cls = 0 ∧ 1 ≤ object ∧ object ≤ 3 then
    let (st, data) := s.objBytes object offset length
    .next (s.respondClear req 0x01 st data)
  else
    .next (s.sessionRequest req 0x01 (fun _ => true) false
      (fun x s =>
        if !objKnown object then refuse s 0x02
        else if !objReadable object x then refuse s 0x01
        else if index ≠ 0 then refuse s 0x03
        else let (st, data) := s.objBytes object offset length; (s, st, data)) id)

/-- MAKE_REPORT: a public request; the report stays to be read (R466, R503). -/
def execMakeReport (req : Brq) (nonce : BitVec 256) (s : State) : Out :=
  if s.brqLive ∧ req.cls = 0 then
    let r := s.makeReport nonce
    .next ({ s with boc := { s.boc with report := r } }.respondClear req 0x10 0 (bytesOfNat 4 r.length))
  else .next (s.sessionRequest req 0x10 (fun _ => true) true (fun _ s => refuse s 0x01) id)

/-! ### Writes -/

/-- Who may write an object (R502). -/
def objWritable (o : Nat) (x : Session) : Bool :=
  match o with
  | 0x20 => x.may 4
  | 0x21 => x.may 4
  | 0x22 => x.owner
  | 0x23 => x.owner
  | 0x24 => x.owner
  | 0x25 => x.owner
  | 0x30 => x.may 1
  | 0x31 => x.may 1
  | 0x32 => x.may 1
  | 0x33 => x.may 1
  | 0x34 => x.may 3
  | 0x41 => x.may 5
  | _ => false

/-- What the package's state refuses an object's write or commit with (R502, R504), 0 for nothing. -/
def State.objState (s : State) (o : Nat) : Nat :=
  match o with
  | 0x20 => if !s.boc.recovery && !s.flag aSecState F.secState_slot then 0x01 else 0
  | 0x21 => if !s.boc.recovery && s.flag aSecState F.secState_slot then 0x01 else 0
  | 0x25 => if s.admitted then 0x08 else 0
  | 0x30 => if s.brt.job || s.manifest.isSome then 0x08 else 0
  | 0x31 => if s.brt.job || s.manifest.isNone then 0x08 else 0
  | 0x32 => if s.brt.job || s.manifest.isNone || s.boc.envelope.isSome then 0x08 else 0
  | 0x33 => if s.brt.job || s.boc.envelope.isNone then 0x08 else 0
  | 0x34 => if s.flag aSecState F.secState_keys then 0 else 0x08
  | 0x41 => if s.admitted && !s.brt.job then 0 else 0x08
  | _ => 0

/-- A request on an object checked in the order unknown, not permitted, state (R502, R503, R504). -/
def State.objGate (s : State) (o : Nat) (x : Session) : Nat :=
  if !objKnown o then 0x02 else if !objWritable o x then 0x01
  else if s.boc.recovery && !(decide (o = 0x20) || decide (o = 0x21)) then 0x08 else s.objState o

/-- The object write that is under way. -/
def State.objOpen (s : State) (o i : Nat) : Option ObjWrite := s.boc.writes.find? fun w => decide (w.object = o ∧ w.index = i)

/-- Byte `i` of an object being written: of the latest chunk that holds it (R504). -/
def chunkByte (l : List (Nat × List Byte)) (i : Nat) : Byte :=
  match l.reverse.find? fun c => decide (c.1 ≤ i ∧ i < c.1 + c.2.length) with
  | some c => c.2.getD (i - c.1) 0
  | none => 0

/-- The first `n` bytes of an object being written. -/
def chunkBytes (l : List (Nat × List Byte)) (n : Nat) : List Byte := (List.range n).map (chunkByte l)

/-- How far an object is written without a gap. -/
def chunkReach (l : List (Nat × List Byte)) : Nat :=
  (List.range l.length).foldl (fun p _ => l.foldl (fun p c => if c.1 ≤ p then max p (c.1 + c.2.length) else p) p) 0

/-- Whether a chunk keeps the order of R504: a part's header and segment records before its data, a bundle's header before its body. -/
def chunkOrder (o : Nat) (l : List (Nat × List Byte)) (c : Nat × List Byte) : Bool :=
  let l := l ++ [c]
  let last := c.1 + c.2.length
  match o with
  | 0x33 =>
    decide (last ≤ 256) || (decide (256 ≤ chunkReach l) &&
      (let rend := 256 + 32 * natOfBytes ((List.range 4).map fun i => chunkByte l (4 + i)); decide (last ≤ rend) || decide (rend ≤ chunkReach l)))
  | 0x20 => decide (last ≤ 256) || decide (256 ≤ chunkReach l)
  | 0x21 => decide (last ≤ 256) || decide (256 ≤ chunkReach l)
  | _ => true

/-- Data of a part written to its segments (R490, R491, R499): a spare takes code segments only. A line that the data covers in part is read
and checked first (R249); `ecc` is what those reads meet, and a line that cannot be read stays as it is (DESIGN CHOICE, log 155). -/
def State.writeSegments (s : State) (ecc : Eccs) (l : List (Nat × List Byte)) (c : Nat × List Byte) : State :=
  let spare := match s.manifest with | some m => decide (m.role.1 = 2) | none => false
  let n := natOfBytes ((List.range 4).map fun i => chunkByte l (4 + i))
  ((segmentsOf (chunkBytes l (256 + 32 * n))).foldl (fun (r : State × Eccs) (d, fl, len, o, _) =>
    let lo := max o c.1
    let hi := min (o + len) (c.1 + c.2.length)
    if lo < hi && (!spare || decide (fl % 2 = 1)) && r.1.usable d len then
      r.1.writeChecked 0 r.2 ((c.2.drop (lo - c.1)).take (hi - lo)) (pieces (d + (lo - o)) (hi - lo))
    else r) (s, ecc)).1

/-- Bytes written into a firmware slot (R444, R499). -/
def State.writeSlot (s : State) (slot off : Nat) (bs : List Byte) : State :=
  { s with nv := { s.nv with slots := (bs.zipIdx off).foldl (fun t b => Tbl.set 0 t (2 ^ 25 * slot + b.2) b.1) s.nv.slots } }

/-- OBJ_WRITE: a chunk of an object, which one session writes at a time (R502 to R504). -/
def execObjWrite (req : Brq) (object index offset : Nat) (chunk : ObjChunk) (s : State) : Out :=
  let ⟨data, ecc⟩ := chunk
  .next (s.sessionRequest req 0x02 (fun _ => true) true
    (fun x s =>
      let st := s.objGate object x
      let old := match s.objOpen object index with | some w => w | none => { session := x.id, object := object, index := index, chunks := [] }
      let c := (offset, data)
      if st ≠ 0 then refuse s st
      else if old.session ≠ x.id then refuse s 0x09
      else if data.isEmpty ∨ ((object = 0x20 ∨ object = 0x21) ∧ 2 ^ 25 < offset + data.length) then refuse s 0x03
      else if !chunkOrder object old.chunks c then refuse s 0x0A
      else
        let w : ObjWrite := { old with chunks := old.chunks ++ [c] }
        let keep := s.boc.writes.filter fun v => !decide (v.object = object ∧ v.index = index)
        let s := { s with boc := { s.boc with writes := keep ++ [w] } }
        let s := match object with
          | 0x20 => s.writeSlot 0 offset data
          | 0x21 => s.writeSlot 1 offset data
          | 0x33 => if 256 < offset + data.length then s.writeSegments ecc w.chunks c else s
          | _ => s
        (s, 0, [])) id)

/-- An object's buffer given up. -/
def State.dropWrite (s : State) (o i : Nat) : State :=
  { s with boc := { s.boc with writes := s.boc.writes.filter fun v => !decide (v.object = o ∧ v.index = i) } }

/-- OBJ_DISCARD (R503, R504). -/
def execObjDiscard (req : Brq) (object index : Nat) (s : State) : Out :=
  .next (s.sessionRequest req 0x04 (fun _ => true) false
    (fun x s =>
      if !objKnown object then refuse s 0x02
      else if !objWritable object x then refuse s 0x01
      else match s.objOpen object index with
        | some w => if w.session = x.id then (s.dropWrite object index, 0, []) else refuse s 0x09
        | none => (s, 0, [])) id)

/-! ### Acceptance -/

/-- A serial that an object may name: this device's, or 0 for every device of the owner. -/
def serialOk (n : Nat) (any : Bool) : Bool := decide (n = Config.serial.toNat) || (any && decide (n = 0))

/-- A firmware bundle verified without booting (R444, R445). -/
def State.bundleStatus (s : State) (bs : List Byte) : Nat :=
  let n := byteField bs 16 23
  if bs.length ≠ 256 + n + sigLen ∨ byteField bs 0 1 ≠ 1 ∨ !zeroBytes bs 2 3 ∨ 64 < byteField bs 4 7 ∨ !zeroBytes bs 88 255 then 0x07
  else if byteField bs 4 7 < s.getF aSecCounters F.secCounters_ctr0 then 0x05
  else if (sha3_512 ((bs.drop 256).take n)).toNat ≠ byteField bs 24 87 then 0x07
  else 0

/-- An ownership record (R448). -/
def State.takeOwner (s : State) (bs : List Byte) : State × Nat :=
  let g := byteField bs 2 3
  if bs.length ≠ 2668 + sigLen ∨ byteField bs 0 1 ≠ 1 ∨ g < 2 then (s, 0x07)
  else if g ≠ s.getF aSecCounters F.secCounters_ctr1 + 1 ∨ 64 < g then (s, 0x05)
  else if !serialOk (byteField bs 4 11) false then (s, 0x06)
  else
    match s.owner with
    | none => (s, 0x04)
    | some o =>
      if byteField bs 12 75 ≠ o.key.toNat then (s, 0x06)
      else
        let new : Owner := { gen := g, key := sha3_512 ((bs.drop 76).take 2592) }
        let s := { s.setF aSecCounters F.secCounters_ctr1 g with nv := { s.nv with chain := s.nv.chain ++ [new] } }
        (s.showOwner.extend 3 new.key, 0)

/-- An authority record (R450): at most four are held. -/
def State.takeAuth (s : State) (bs : List Byte) : State × Nat :=
  let a : Auth := { gen := byteField bs 2 3, number := byteField bs 4 7, serial := BitVec.ofNat 64 (byteField bs 8 15), perms := byteField bs 16 23,
                    key := sha3_512 ((bs.drop 24).take 2592) }
  let rest := s.nv.auths.filter fun b => decide (b.number ≠ a.number)
  if bs.length ≠ 2616 + sigLen ∨ byteField bs 0 1 ≠ 1 ∨ 64 < a.gen ∨ 256 ≤ a.perms then (s, 0x07)
  else if a.gen < s.getF aSecCounters F.secCounters_ctr2 then (s, 0x05)
  else if !serialOk a.serial.toNat true then (s, 0x06)
  else if 4 ≤ rest.length then (s, 0x07)
  else ({ s with nv := { s.nv with auths := rest ++ [a] } }.extend 4 (sha3_512 bs), 0)

/-- A floor request (R450, R502): counter 2 rises, records below it are discarded, and their sessions end. -/
def State.takeFloor (s : State) (bs : List Byte) : State × Nat :=
  let f := byteField bs 2 3
  if bs.length ≠ 16 + sigLen ∨ byteField bs 0 1 ≠ 1 ∨ 64 < f ∨ !zeroBytes bs 12 15 then (s, 0x07)
  else if f < s.getF aSecCounters F.secCounters_ctr2 then (s, 0x05)
  else if !serialOk (byteField bs 4 11) true then (s, 0x06)
  else
    let gone := (s.nv.auths.filter fun a => decide (a.gen < f)).map Auth.number
    let s := { s.setF aSecCounters F.secCounters_ctr2 f with nv := { s.nv with auths := s.nv.auths.filter fun a => decide (f ≤ a.gen) } }
    (((s.boc.sessions.filter fun x => !x.owner && gone.contains x.record).map Session.id).foldl (fun s i => s.endSession i) s, 0)

/-- A debug-unlock token, presented in the session it names (R469). -/
def State.takeDebug (s : State) (x : Session) (bs : List Byte) : State × Nat :=
  let scope := byteField bs 2 3
  if bs.length ≠ 20 + sigLen ∨ byteField bs 0 1 ≠ 1 ∨ 4 ≤ scope then (s, 0x07)
  else if !serialOk (byteField bs 4 11) false ∨ byteField bs 12 19 ≠ x.id.toNat then (s, 0x06)
  else ({ s.setF aSecState F.secState_debug 1 with pins := { s.pins with tap := s.pins.tap ||| scope } }.extend 6 (sha3_512 bs), 0)

/-- A member record of a manifest (R451). -/
def memberOf (r : List Byte) : Member :=
  { index := byteField r 0 1 % 2 ^ 14, spare := (byteField r 0 1).testBit 14, buddy := byteField r 2 3, serial := BitVec.ofNat 64 (byteField r 4 11),
    slot0 := byteField r 12 17, slot1 := byteField r 18 23, spares := (List.range 4).map fun i => byteField r (24 + 2 * i) (25 + 2 * i) }

/-- A manifest (R451) as held by the member with this device's serial, if there is one. -/
def manifestOf (bs : List Byte) : Option Manifest :=
  let n := byteField bs 128 131
  let members := (List.range n).map fun i => memberOf ((bs.drop (256 + 32 * i)).take 32)
  (members.find? fun r => decide (r.serial = Config.serial)).map fun r =>
    { self := r.index, flags := byteField bs 2 3, job := BitVec.ofNat 64 (byteField bs 4 11), torusM1 := byteField bs 12 13, low := byteField bs 14 15,
      extentM1 := byteField bs 16 17, workLow := byteField bs 18 19, workExtM1 := byteField bs 20 21, partnerLow := byteField bs 22 23,
      rotation := byteField bs 24 25, leads := (List.range 4).map fun i => byteField bs (26 + 2 * i) (27 + 2 * i), timeRoot := byteField bs 34 35,
      window := byteField bs 36 39, quantum := byteField bs 40 43, timeout := byteField bs 44 45, cadence := byteField bs 46 47,
      replayLimit := byteField bs 48 49, toneHours := byteField bs 50 51, key := BitVec.ofNat 64 (byteField bs 52 59),
      imageDigest := BitVec.ofNat 512 (byteField bs 64 127), members := members,
      exceptions := (List.range (byteField bs 132 135)).map fun i => byteField bs (256 + 32 * n + 4 * i) (259 + 32 * n + 4 * i),
      digest := sha3_512 (bs.take (bs.length - sigLen)) }

/-- Hops between two coordinates on an axis (R388). -/
def State.axisHops (s : State) (axis a b : Nat) : Nat :=
  let d := max a b - min a b
  if s.ownsRing axis then min d (s.torus axis - d) else d

/-- A package's depth under a time root (R388). -/
def State.hops (s : State) (a b : Nat) : Nat := ((List.range 3).map fun x => s.axisHops x (coordOn x a) (coordOn x b)).sum

/-- Whether a required reproducibility key fits the part's: every field but stepping is equal (R74, R452). -/
def State.keyFits (s : State) (k : Nat) : Bool := decide (k / 2 ^ 16 = s.readWord .bocReproKey aBocReproKey / 2 ^ 16)

/-- What a well-signed manifest is refused with (R452), 0 for nothing. -/
def State.manifestStatus (s : State) (bs : List Byte) : Nat :=
  let n := byteField bs 128 131
  let e := byteField bs 132 135
  if bs.length ≠ 256 + 32 * n + 4 * e + sigLen ∨ byteField bs 0 1 ≠ 1 ∨ !zeroBytes bs 60 63 ∨ !zeroBytes bs 136 255 then 0x07
  else
    match manifestOf bs with
    | none => 0x06
    | some m =>
      let t := { s with manifest := some m }
      let fits := (List.range 3).all fun a => decide (t.lowCorner a + t.extent a ≤ t.torus a)
      let once := t.boxMembers.all fun p => decide ((m.members.filter fun r => decide (r.index = p)).length = 1)
      let times := decide (2000 ≤ m.window ∧ m.window ≤ 100000 ∧ m.window ≤ m.quantum ∧ m.quantum ≤ 1000000 ∧ 10 ≤ m.timeout ∧ m.timeout ≤ 10000)
      let depth := t.boxMembers.all fun p => decide (t.hops p m.timeRoot ≤ 40)
      let debug := !s.flag aSecState F.secState_debug || m.flags.testBit 3
      if fits && once && times && depth && debug && s.keyFits m.key.toNat && t.isMember m.timeRoot && t.isMember m.self &&
          decide (m.flags < 16 ∧ m.flags / 2 % 4 < 3) then 0 else 0x07

/-- A manifest accepted (R388, R451, R452, R483): held and measured, the time root named, every port judged against it. -/
def State.takeManifest (s : State) (bs : List Byte) : State × Nat :=
  let st := s.manifestStatus bs
  match manifestOf bs with
  | some m =>
    if st ≠ 0 then (s, st)
    else
      let s := { s with manifest := some m, boc := { s.boc with manBytes := bs } }
      let s := (s.setF aBocState F.bocState_manifest 1).extend 7 m.digest
      let root := decide (m.timeRoot = m.self)
      let s := s.setFs aTimStatus [(F.timStatus_root, if root then 1 else 0), (F.timStatus_rootIndex, m.timeRoot),
        (F.timStatus_depth, if root then 0 else 0x3F), (F.timStatus_parent, 0x3F)]
      ((List.range numPorts).foldl (fun s p => s.classify p) s, 0)
  | none => (s, if st = 0 then 0x06 else st)

/-- A key grant (R247, R439, R458, R460): the tier takes the job's key, the grant is measured, and links that are up ask for the retrain that begins
their encryption. -/
def State.takeGrant (s : State) (bs : List Byte) : State × Nat :=
  match s.manifest with
  | none => (s, 0x08)
  | some m =>
    if bs.length ≠ 1728 + sigLen ∨ byteField bs 0 1 ≠ 1 ∨ !zeroBytes bs 1724 1727 then (s, 0x07)
    else if byteField bs 2 3 ≠ m.self ∨ !serialOk (byteField bs 4 11) false ∨ byteField bs 12 75 ≠ m.digest.toNat ∨
        byteField bs 76 107 ≠ (sha3_256 (bytesOfNat 1568 (Config.kemKey s.boc.kems).toNat)).toNat then (s, 0x06)
    else
      let k := s.tier.keys + 1
      let s := { s with tier := { s.tier with keys := k, key := k } }
      let s := (s.setF aSecState F.secState_keys 1).setF aBocState F.bocState_grant 1
      let s := s.extend 9 (sha3_512 (bs.take 1728))
      let ups := (List.range numPorts).filter fun p => s.linkUp p && s.encrypts p && !(s.port p).encTx
      (ups.foldl (fun s p => s.askRetrain p 3) s, 0)

/-- An image envelope (R25, R453, R489): the class in force becomes the image's when that is the smaller one. -/
def State.takeEnvelope (s : State) (bs : List Byte) : State × Nat :=
  match s.manifest with
  | none => (s, 0x08)
  | some m =>
    let n := byteField bs 12 19
    let e := envelopeOf bs
    if bs.length ≠ 256 + n + sigLen ∨ byteField bs 0 1 ≠ 1 ∨ !zeroBytes bs 84 255 then (s, 0x07)
    else if e.digest ≠ m.imageDigest ∨ (sha3_512 ((bs.drop 256).take n)).toNat ≠ byteField bs 20 83 then (s, 0x07)
    else if 2 < e.cls ∨ e.minSet < 12 ∨ s.getF aBocSetpoint F.bocSetpoint_gradeMax < e.minSet then (s, 0x07)
    else if n ≠ 64 + 88 * e.parts.length ∨ byteField bs 256 257 ≠ 1 ∨ 2 < e.detour ∨ 1 < e.budget ∨ e.parts.isEmpty ∨ 16384 < e.parts.length then (s, 0x07)
    else
      let s := { s with boc := { s.boc with envelope := some e, force := some (min (classIslands e.cls) s.perField) } }
      (s.extend 8 e.digest, 0)

/-- An image part (R491, R492). -/
def State.takePart (s : State) (index : Nat) (bs : List Byte) : State × Nat :=
  match s.manifest, s.boc.envelope with
  | some m, some e =>
    match e.parts.find? fun r => decide (r.index = index) with
    | none => (s, 0x07)
    | some r =>
      if !s.loadsPart m index then (s, 0x06)
      else if s.boc.parts.any fun p => decide (p.index = index) then (s, 0x08)
      else
        let st := s.partStatus m e r bs
        if st ≠ 0 then (s, st) else (s.acceptPart m e (partOf bs r), 0)
  | _, _ => (s, 0x08)

/-- A long-tone pack (R422): at most 64 MiB of packs are held; one with a held number takes its place. -/
def State.takePack (s : State) (bs : List Byte) : State × Nat :=
  let p : Pack := { number := byteField bs 4 11, signer := byteField bs 2 3, use := byteField bs 24 24, count := byteField bs 20 23 }
  let rest := s.boc.packs.filter fun q => decide (q.number ≠ p.number)
  let size := fun (q : Pack) => 128 + 1024 * q.count + sigLen
  if bs.length ≠ size p ∨ byteField bs 0 1 ≠ 1 ∨ 1 < p.signer ∨ 2 < p.use ∨ p.count = 0 ∨ 65536 < p.count ∨ !zeroBytes bs 25 127 then (s, 0x07)
  else if !s.keyFits (byteField bs 12 19) ∨ 2 ^ 26 < ((rest ++ [p]).map size).sum then (s, 0x07)
  else ({ s with boc := { s.boc with packs := rest ++ [p] } }.extend 5 (sha3_512 bs), 0)

/-! ### Checkpoints -/

/-- The IV of a checkpoint block (R464): step, source package index and block number. -/
def ckptIv (step source block : Nat) : Nat := step % 2 ^ 48 + source % 2 ^ 14 * 2 ^ 48 + block % 2 ^ 34 * 2 ^ 62

/-- Data encrypted or decrypted under the checkpoint key (R439, R464). -/
def State.ckptCrypt (s : State) (iv : Nat) (bs : List Byte) : List Byte :=
  bs.zipIdx.map fun b => b.1 ^^^ Config.ckptStream (Config.jobSecret s.tier.key) iv b.2

/-- Whether a checkpoint may read or write `n` bytes from `a` on: LPDDR5X memory of the package (R464). -/
def State.ckptRange (s : State) (a n : Nat) : Bool := decide (64 ≤ n ∧ n ≤ 2 ^ 20) && s.lpRange a n

/-- A checkpoint block written back (R464). -/
def State.takeCheckpoint (s : State) (bs : List Byte) : State × Nat :=
  let a := byteField bs 12 17
  let n := byteField bs 18 21
  if bs.length ≠ 64 + n + 16 ∨ byteField bs 0 1 ≠ 1 ∨ !zeroBytes bs 26 63 then (s, 0x07)
  else if !s.ckptRange a n then (s, 0x03)
  else
    let iv := ckptIv (byteField bs 4 11) (byteField bs 2 3) (byteField bs 22 25)
    (s.writePieces (s.ckptCrypt iv ((bs.drop 64).take n)) 0 (pieces a n), 0)

/-- CKPT_READ: a block of memory is encrypted under the checkpoint key and stays to be read; a range with an open or discarded tag is refused
(R409, R464, R503). -/
def execCkptRead (req : Brq) (addr length : Nat) (s : State) : Out :=
  .next (s.sessionRequest req 0x60 (Session.may 5) false
    (fun _ s =>
      if !s.flag aSecState F.secState_keys then refuse s 0x08
      else if !s.ckptRange addr length then refuse s 0x03
      else if s.anyLive addr length then refuse s 0x0B
      else if s.anyBad addr length then refuse s 0x07
      else
        let blk := s.boc.blocks
        let hdr := bytesOfNat 2 1 ++ bytesOfNat 2 s.self ++ bytesOfNat 8 s.committed ++ bytesOfNat 6 addr ++ bytesOfNat 4 length ++ bytesOfNat 4 blk ++
          bytesOfNat 38 0
        let ct := s.ckptCrypt (ckptIv s.committed s.self blk) (s.plainBytes addr length)
        let b := hdr ++ ct ++ bytesOfNat 16 (Config.ckptTag (Config.jobSecret s.tier.key) (hdr ++ ct)).toNat
        ({ s with boc := { s.boc with ckpt := b, blocks := blk + 1 } }, 0, bytesOfNat 4 b.length)) id)

/-! ### Commit -/

/-- The status of a failed check of the Ligature (R506). -/
def verdictStatus : Verdict → Nat
  | .good => 0
  | .badSignature => 0x04
  | .rollback => 0x05
  | .binding => 0x06
  | .otherCheck => 0x07

/-- What a commit does with an object whose signature holds (R502). -/
def State.take (s : State) (x : Session) (object index : Nat) (bs : List Byte) : State × Nat :=
  match object with
  | 0x20 => (s, s.bundleStatus bs)
  | 0x21 => (s, s.bundleStatus bs)
  | 0x22 => s.takeOwner bs
  | 0x23 => s.takeAuth bs
  | 0x24 => s.takeFloor bs
  | 0x25 => s.takeDebug x bs
  | 0x30 => s.takeManifest bs
  | 0x31 => s.takeGrant bs
  | 0x32 => s.takeEnvelope bs
  | 0x33 => s.takePart index bs
  | 0x34 => s.takePack bs
  | 0x41 => s.takeCheckpoint bs
  | _ => (s, 0x02)

/-- Whether an object bears the owner's signature alone (R442): without an owner it is refused. -/
def ownerSigned (o : Nat) : Bool := [0x22, 0x23, 0x24, 0x25, 0x30, 0x31, 0x32].contains o

/-- OBJ_COMMIT: the object is checked and, when accepted, takes effect; refused, it leaves nothing in force (R443, R502 to R504). `verdict` is what
the Ligature's signature and tag checks find. -/
def execObjCommit (req : Brq) (object index total : Nat) (verdict : Verdict) (s : State) : Out :=
  .next (s.sessionRequest req 0x03 (fun _ => true) true
    (fun x s =>
      let st := s.objGate object x
      if st ≠ 0 then refuse s st
      else
        match s.objOpen object index with
        | none => refuse s 0x03
        | some w =>
          if w.session ≠ x.id then refuse s 0x09
          else
            let s := s.dropWrite object index
            let v := verdictStatus verdict
            if total = 0 ∨ chunkReach w.chunks < total then refuse s 0x03
            else if v ≠ 0 then refuse s v
            else if ownerSigned object && s.owner.isNone then refuse s 0x04
            else
              let (t, st) := s.take x object index (chunkBytes w.chunks total)
              if st = 0 then (t, 0, []) else refuse s st) id)

end Sys2Proof.Machine
end

