-- ==== Sys2Proof/Machine/I3c.lean ====
section
/-! DEFINITION. The I3C target of the signal connector and its mirror (R507, R508). A transaction that the target does not acknowledge
leaves the state as it is. -/

namespace Sys2Proof.Machine

/-- Whether the target is live: from step 3 of power-up until reset is next asserted (R507), and in the recovery service (R479). -/
def State.i3cLive (s : State) : Bool :=
  decide (s.pins.power = .on) && (decide (3 ≤ s.getF aBocState F.bocState_step) || s.boc.recovery)

/-- The 48-bit provisioned ID (R507). -/
def State.provisionedId (s : State) : Nat :=
  2 ^ 32 + Config.serial.toNat % 2 ^ 26 * 2 ^ 6 + s.getF aBocState F.bocState_slotId

/-- The bytes of a number, highest first, as the I3C commands send them. -/
def bigBytes (n x : Nat) : List Byte := (bytesOfNat n x).reverse

/-- The bus characteristics register: no in-band interrupt, no controller role (R507). -/
def bcrByte : Byte := 0

/-- A read answered: the bytes the target has sent last. -/
def State.i3cAnswer (s : State) (l : List Byte) : Out := .next { s with i3c := { s.i3c with answer := l } }

/-- Whether the target is addressed: live with a dynamic address. -/
def State.i3cAddressed (s : State) : Bool := s.i3cLive && s.i3c.addr.isSome

/-- ENTDAA: a target without an address sends its provisioned ID and characteristics and takes the address assigned (R507). -/
def execEntdaa (address : BitVec 7) (s : State) : Out :=
  if s.i3cLive && s.i3c.addr.isNone then
    .next { s with i3c := { s.i3c with addr := some address, answer := bigBytes 6 s.provisionedId ++ [bcrByte, Config.dcr] } }
  else .next s

/-- RSTDAA: the dynamic address is given up (R507). -/
def execRstdaa (s : State) : Out := if s.i3cLive then .next { s with i3c := { s.i3c with addr := none } } else .next s

/-- SETNEWDA: the dynamic address is replaced (R507). -/
def execSetnewda (address : BitVec 7) (s : State) : Out :=
  if s.i3cAddressed then .next { s with i3c := { s.i3c with addr := some address } } else .next s

/-- GETPID: the provisioned ID (R507). -/
def execGetpid (s : State) : Out := if s.i3cAddressed then s.i3cAnswer (bigBytes 6 s.provisionedId) else .next s

/-- GETBCR: the bus characteristics (R507). -/
def execGetbcr (s : State) : Out := if s.i3cAddressed then s.i3cAnswer [bcrByte] else .next s

/-- GETDCR: the device characteristics (R507). -/
def execGetdcr (s : State) : Out := if s.i3cAddressed then s.i3cAnswer [Config.dcr] else .next s

/-- GETSTATUS: the status, whose bits the spec does not give (R507). -/
def execGetstatus (s : State) : Out :=
  if s.i3cAddressed then { s with fresh := s.fresh + 1 }.i3cAnswer (bigBytes 2 (Config.i3cStatus s.fresh).toNat) else .next s

/-- ENEC: accepted, without effect (R507). -/
def execEnec (_events : BitVec 8) (s : State) : Out := .next s

/-- DISEC: accepted, without effect (R507). -/
def execDisec (_events : BitVec 8) (s : State) : Out := .next s

/-- I3C_PRIVATE_WRITE: the first byte sets the read pointer (R507). -/
def execI3cPrivateWrite (bytes : List Byte) (s : State) : Out :=
  match s.i3cAddressed, bytes with
  | true, b :: _ => .next { s with i3c := { s.i3c with ptr := b.toNat % 64 } }
  | _, _ => .next s

/-- I3C_PRIVATE_READ: mirror bytes from the pointer on, wrapping at 64 (R507). -/
def execI3cPrivateRead (count : Nat) (s : State) : Out :=
  if s.i3cAddressed then s.i3cAnswer ((List.range count).map fun i => s.i3c.mirror.getD ((s.i3c.ptr + i) % 64) 0) else .next s

/-- MIRROR_REFRESH: the mirror takes the package's state (R508). -/
def execMirrorRefresh (s : State) : Out := if s.i3cLive then .next s.refreshMirror else .next s

end Sys2Proof.Machine
end

