-- ==== Sys2Proof/Machine/Thermal.lean ====
section
/-! DEFINITION. Temperature and the test access port (R216, R251, R468, R469, R517, R527, R528). -/

namespace Sys2Proof.Machine

/-- Thermal samples in 10 ms, the time between two falling steps of a throttle; 10 of them pass between two rising ones (R527). -/
def samplesPerFall : Nat := 100

/-- A field's throttle set to `t` in its register and in its islands' (R216, R527). -/
def State.setThrottle (s : State) (field t : Nat) : State :=
  let s := s.setF (aBocFieldTemp field) F.bocFieldTemp_throttle t
  let s := (List.range s.perField).foldl (fun s i => s.setF (aIslClock (field * s.perField + i)) F.islClock_throttle t) s
  let others := s.getF aBocThermal F.bocThermal_throttling &&& (255 ^^^ 2 ^ field)
  s.setF aBocThermal F.bocThermal_throttling (others + (if t = 0 then 0 else 2 ^ field))

/-- One step of a field's throttle (R527, R528): up each millisecond while the field lies above its threshold or one of its devices above
its limit, down each 10 ms while it lies more than 3 °C below with its devices within it. -/
def State.throttleStep (s : State) (field temp : Nat) : State :=
  let limit := 10 * s.getF aBocThermal F.bocThermal_threshold
  let above := s.fieldOver field
  let t := s.getF (aBocFieldTemp field) F.bocFieldTemp_throttle
  let tick := Tbl.get 0 s.pins.tick field
  let stepped := fun (s : State) (t : Nat) => { s with pins := { s.pins with tick := Tbl.set 0 s.pins.tick field samplesPerFall } }.setThrottle field t
  if (limit < temp || above) && decide (t < 4 ∧ tick + 10 ≤ samplesPerFall) then stepped s (t + 1)
  else if temp + 30 < limit ∧ !above ∧ 0 < t ∧ tick = 0 then stepped s (t - 1)
  else s

/-- THERMAL_SAMPLE: a field's hottest sensor is read, in 0.1 °C: reported, throttled upon, and at 110 °C on two consecutive readings the module
trips (R527, R539). -/
def execThermalSample (field temp : Nat) (s : State) : Out :=
  if 8 ≤ field then .fault .absentUnit
  else if s.pins.power ≠ .on then .next s
  else
    let a := aBocFieldTemp field
    let s := s.setF a F.bocFieldTemp_temp temp
    let s := if s.getF a F.bocFieldTemp_max < temp then s.setF a F.bocFieldTemp_max temp else s
    let hottest := (List.range 8).foldl (fun m f => max m (s.getF (aBocFieldTemp f) F.bocFieldTemp_temp)) 0
    let s := s.setF aBocThermal F.bocThermal_hottest hottest
    let hot := if 1100 ≤ temp then Tbl.get 0 s.pins.hot field + 1 else 0
    let s := { s with pins := { s.pins with hot := Tbl.set 0 s.pins.hot field hot, tick := Tbl.set 0 s.pins.tick field (Tbl.get 0 s.pins.tick field - 1) } }
    if 2 ≤ hot then .next s.thermalReset else .next (s.throttleStep field temp)

/-- LPDDR_OVER_LIMIT_TRIP: a device that has stayed above its limit for 10 s trips the module (R528). -/
def execLpddrOverLimitTrip (device : Nat) (s : State) : Out :=
  if 16 ≤ device then .fault .absentUnit
  else if s.pins.power = .on ∧ (deviceChannels device).any fun p => s.flag (aFldChState p.1 p.2) F.fldChState_over then .next s.thermalReset
  else .next s

/-- The instruction the test access port selects for one shifted in (R468, R469): behind the debug lock only BYPASS, IDCODE, SAMPLE/PRELOAD and EXTEST
are offered, EXTEST not while a slice is admitted, and the control cores and field controllers where the unlock opens them. -/
def State.tapSelect (s : State) (i : TapInstr) : TapInstr :=
  let locked := s.flag aSecState F.secState_locked
  match i with
  | .bypass => .bypass
  | .idcode => .idcode
  | .samplePreload => .samplePreload
  | .extest => if s.admitted then .bypass else .extest
  | .controlCores => if locked && !s.pins.tap.testBit 0 then .bypass else .controlCores
  | .fieldControllers => if locked && !s.pins.tap.testBit 1 then .bypass else .fieldControllers
  | .other => if locked then .bypass else .other

/-- TEST_ACCESS_PORT_INSTRUCTION: an instruction shifted in on the JTAG pins (R468). -/
def execTestAccessPortInstruction (instr : TapInstr) (s : State) : Out :=
  .next { s with pins := { s.pins with tapInstr := s.tapSelect instr } }

end Sys2Proof.Machine
end

