-- ==== Sys2Proof/Machine/Access.lean ====
section
/-! DEFINITION. ld and st: tile memory for the logical cores (R101, R102, R161), the Bocal SRAM and the local address space for the control cores
(R8, R238, R473, R474). -/

namespace Sys2Proof.Machine

/-- A value of `n` bytes sign- or zero-extended to `w` bits (R161). -/
def extend (w n : Nat) (sx : Bool) (x : Nat) : BitVec w :=
  if sx ∧ x.testBit (8 * n - 1) then BitVec.ofInt w ((x : Int) - 2 ^ (8 * n)) else BitVec.ofNat w x

/-- What a control core's 64-bit address names: a byte of the SRAM, a local address, or nothing (R474). -/
inductive CtlAddr where
  | sram (off : Nat)
  | loc (a : Nat)
  | none

/-- A control core's address taken apart (R474). -/
def ctlAddr (a : Nat) : CtlAddr :=
  if 2 ^ 63 ≤ a then (if a - 2 ^ 63 < sramSize then .sram (a - 2 ^ 63) else .none)
  else if a < 2 ^ 42 then .loc a else .none

/-- A control core's load of `n` bytes (R474): the state it leaves and the value, or none for an access refused. -/
def State.ctlLoad (s : State) (a n : Nat) (ecc : Ecc) : State × Option Nat :=
  if a % n ≠ 0 then (s, none)
  else
    match ctlAddr a with
    | .none => (s, none)
    | .sram o => (s, some (natOfBytes ((List.range n).map fun i => Tbl.get 0 s.sram (o + i))))
    | .loc l =>
      if s.region l = .control then (if n = 8 then s.ctlRead l else (s, none))
      else
        match s.gmRead l n [ecc] with
        | (s1, 0, bs) => (s1, some (natOfBytes bs))
        | (s1, _, _) => (s1, none)

/-- A control core's store of the low `n` bytes of a value (R474): the state it leaves, and whether the access was performed. -/
def State.ctlStore (s : State) (a n v : Nat) (ecc : Ecc) : State × Bool :=
  if a % n ≠ 0 then (s, false)
  else
    match ctlAddr a with
    | .none => (s, false)
    | .sram o => ({ s with sram := (List.range n).foldl (fun t i => Tbl.set 0 t (o + i) (BitVec.ofNat 8 (v / 2 ^ (8 * i)))) s.sram }, true)
    | .loc l =>
      if s.region l = .control then
        if n = 8 then (let t := s.ctlWrite l (BitVec.ofNat 64 v); ({ t with bus := s.bus }, !t.bus.err)) else (s, false)
      else
        match s.gmWrite l (bytesOfNat n v) 0 [ecc] with
        | (s1, 0) => (s1, true)
        | (s1, _) => (s1, false)

/-- LD: 1, 2 or 4 bytes into rd, 8 on a control core (R161, R474). -/
def execLd (sl : Slot) (rd sa : BitVec 5) (imm : BitVec 16) (size : BitVec 2) (sx : Bool) (s : State) : Out :=
  let n := 2 ^ size.toNat
  issue s { i := .ld sl rd sa imm size sx, sl := sl, slot := slotX,
            legal := decide (size.toNat < 3) && !(sx && decide (size = 2)), dests := [dS rd],
            body := fun x =>
              let a := tileAddr (x.c.rs sa) imm.toInt
              x.reading a n n fun more => .ok ([(3, .setS rd.toNat (extend 32 n sx (x.tile a n)))] ++ more) [] }
    (!(sx && decide (size = 3))) fun t c =>
      match t.ctlLoad (c.rs sa + BitVec.ofInt 64 imm.toInt).toNat n sl.ecc with
      | (t1, some v) => .access t1 [(rd.toNat, extend 64 n sx v)]
      | (t1, none) => .refused t1

/-- ST: the low 1, 2 or 4 bytes of rs, 8 on a control core (R161, R474). -/
def execSt (sl : Slot) (rs sa : BitVec 5) (imm : BitVec 16) (size : BitVec 2) (sx : Bool) (s : State) : Out :=
  let n := 2 ^ size.toNat
  issue s { i := .st sl rs sa imm size sx, sl := sl, slot := slotX, legal := decide (size.toNat < 3) && !sx, dests := [],
            body := fun x =>
              let a := tileAddr (x.c.rs sa) imm.toInt
              x.reading a n n fun more => .ok ([(1, .store a (bytesOfNat n (x.c.rs rs).toNat) x.c.prov)] ++ more) [] }
    (!sx) fun t c =>
      match t.ctlStore (c.rs sa + BitVec.ofInt 64 imm.toInt).toNat n (c.rs rs).toNat sl.ecc with
      | (t1, true) => .access t1 []
      | (t1, false) => .refused t1

end Sys2Proof.Machine
end

