-- ==== Sys2Proof/Machine/Matrix.lean ====
section
/-! DEFINITION. The M slot, matrix and accumulator instructions: mma, qclr, readouts and entry status (R114, R115, R134,
R137 to R144). -/

namespace Sys2Proof.Machine

/-- A write of `n` bytes from byte `lo` on of a vector register, with scale bytes 0x7F for the segments written (R136). -/
def vecBytes (vd : BitVec 5) (lo n : Nat) (data : Nat) : Eff :=
  .setV vd.toNat (BitVec.ofNat 64 ((2 ^ n - 1) * 2 ^ lo)) (BitVec.ofNat 512 (data * 2 ^ (8 * lo)))
    (BitVec.ofNat 8 ((2 ^ ((n + 7) / 8) - 1) * 2 ^ (lo / 8))) plainScales

/-- A write of a whole vector register (R136). -/
def vecWhole (vd : BitVec 5) (data : Nat) : Eff := vecBytes vd 0 64 data

/-- The residues of an entry's lanes, two bytes a lane (R144). -/
def residues (q : QEntry) : Nat := packLanes 16 16 fun j => (q.lane j).res.toNat

/-- The capture bytes of an accumulator instruction (R420): class, format or target, rounding mode and sat, anchor, the lane
sums and residues before it. -/
def accCapture (cls fmt rmsat : Nat) (q : QEntry) : List (Nat × Nat) :=
  [(0, cls), (2, fmt), (3, rmsat), (4, q.anchor.toNat), (192, x144Image q), (480, residues q)]

/-- MMA: the products of a segment with the active stage added into entry q (R114, R115, R138). -/
def execMma (sl : Slot) (fmt : BitVec 4) (q va : BitVec 5) (seg : BitVec 4) (s : State) : Out :=
  coreOnly s { i := .mma sl fmt q va seg, sl := sl, slot := slotM,
               legal := decide (seg.toNat < 8) || decide (fmtBits fmt = 16), dests := [128 + q.toNat],
               body := fun x =>
                 let st := x.c.activeStage
                 let e := x.c.rq q.toNat
                 if st.isEmpty then .fault 0x08
                 else if !fmtPair fmt st.fmt then .fault 0x09
                 else
                   .ok [(4, .accAdd q.toNat
                     (mmaLanes fmt e.anchor.toInt (x.c.rv va) (x.c.rvs va) seg.toNat st sl.chk))]
                     (accCapture 1 fmt.toNat 0 e ++
                       [(32, bitsAt (x.c.rv va).toNat (64 * (seg.toNat % 8)) 64), (40, byteAt (x.c.rvs va) (seg.toNat % 8)),
                        (48, st.elems.toNat), (176, st.scales.toNat)]) }

/-- QCLR: entries qa to qb cleared to an anchor, an immediate or a scalar's value (R48, R139). -/
def execQclr (sl : Slot) (qa qb : BitVec 5) (imm : Bool) (anc : BitVec 11) (s : State) : Out :=
  coreOnly s { i := .qclr sl qa qb imm anc, sl := sl, slot := slotM,
               legal := decide (qa.toNat ≤ qb.toNat) && (imm || decide (anc.toNat < 32)),
               dests := (List.range (qb.toNat - qa.toNat + 1)).map fun i => 128 + qa.toNat + i,
               body := fun x =>
                 if imm then .ok [(1, .accClear qa.toNat qb.toNat anc)] []
                 else
                   let v := (x.c.rs (anc.truncate 5)).toInt
                   if v < -1024 ∨ 1023 < v then .fault 0x10
                   else .ok [(1, .accClear qa.toNat qb.toNat (BitVec.ofInt 11 v))] [] }

/-- Whether the fields of form MR are legal (R135, R140, R141, R143). -/
def readoutOk (tgt : BitVec 4) (pos : BitVec 3) (rm : BitVec 2) (sat : Bool) (sb st : BitVec 5) (off : BitVec 7) : Bool :=
  (readoutShape tgt pos).isSome && decide (rm ≠ 3) && decide (st.toNat % 2 = 0) &&
    (if tgt.toNat = 5 ∨ tgt.toNat = 6 then decide (rm = 0) && !sat && decide (sb = 0) && decide (off.toNat ≤ 80)
     else decide (off = 0)) && (!sat || decide (tgt.toNat = 3))

/-- The status writes of a readout (R143): none when st is 0. -/
def statusEffs (lat : Nat) (tgt : BitVec 4) (off : Nat) (st : BitVec 5) (q : QEntry) : List (Nat × Eff) :=
  if st = 0 then []
  else
    let (a, b) := statusPair tgt off q
    [(lat, .setS st.toNat a), (lat, .setS (st.toNat + 1) b)]

/-- The scalar pair of a status destination. -/
def statusDests (st : BitVec 5) : List Nat := if st = 0 then [] else [dS st, dS (st + 1)]

/-- QREAD: entry q read out into a vector register (R51 to R56, R60, R61, R140 to R143). -/
def execQread (sl : Slot) (vd q : BitVec 5) (tgt : BitVec 4) (pos : BitVec 3) (rm : BitVec 2) (sat : Bool)
    (sb st : BitVec 5) (off : BitVec 7) (s : State) : Out :=
  coreOnly s { i := .qread sl vd q tgt pos rm sat sb st off, sl := sl, slot := slotM,
               legal := readoutOk tgt pos rm sat sb st off, dests := dV vd :: statusDests st,
               body := fun x =>
                 let e := x.c.rq q.toNat
                 let (n, lo) := (readoutShape tgt pos).getD (64, 0)
                 let lat := if rm = 2 then 5 else 3
                 .ok ((lat, vecBytes vd lo n (readoutBytes tgt pos (rmOf rm) sat off.toNat x.seed (x.c.rs sb) e)) ::
                   statusEffs lat tgt off.toNat st e)
                   (accCapture 2 tgt.toNat (rm.toNat + (if sat then 4 else 0)) e) }

/-- QST: entry q read out into tile memory at the address in sa (R99, R100, R142). A misaligned one that also meets another store on the write
port is a tile address fault, 0x06 (DESIGN CHOICE, log 170). -/
def execQst (sl : Slot) (sa q : BitVec 5) (tgt : BitVec 4) (pos : BitVec 3) (rm : BitVec 2) (sat : Bool)
    (sb st : BitVec 5) (off : BitVec 7) (s : State) : Out :=
  coreOnly s { i := .qst sl sa q tgt pos rm sat sb st off, sl := sl, slot := slotM,
               legal := readoutOk tgt pos rm sat sb st off, dests := statusDests st,
               body := fun x =>
                 let e := x.c.rq q.toNat
                 let n := ((readoutShape tgt pos).getD (64, 0)).1
                 let lat := if rm = 2 then 6 else 4
                 let a := (x.c.rs sa).toNat
                 if a % n ≠ 0 ∨ tileSize < a + n then .fault 0x06
                 else
                   .ok ((lat, .store a (bytesOfNat n (readoutBytes tgt pos (rmOf rm) sat off.toNat x.seed (x.c.rs sb) e))
                     x.c.prov) :: statusEffs lat tgt off.toNat st e)
                     (accCapture 2 tgt.toNat (rm.toNat + (if sat then 4 else 0)) e) }

/-- QSTAT: the status pair of entry q, without conversion (R144). -/
def execQstat (sl : Slot) (st q : BitVec 5) (pos : Bool) (s : State) : Out :=
  coreOnly s { i := .qstat sl st q pos, sl := sl, slot := slotM,
               legal := decide (st.toNat % 2 = 0 ∧ st ≠ 0) && !pos, dests := [dS st, dS (st + 1)],
               body := fun x => .ok (statusEffs 3 0 0 st (x.c.rq q.toNat)) [] }

/-- QANC: entry q's anchor, sign-extended (R144). -/
def execQanc (sl : Slot) (sd q : BitVec 5) (pos : Bool) (s : State) : Out :=
  coreOnly s { i := .qanc sl sd q pos, sl := sl, slot := slotM, legal := !pos, dests := [dS sd],
               body := fun x => .ok [(3, .setS sd.toNat ((x.c.rq q.toNat).anchor.signExtend 32))] [] }

/-- QRES: the 16 lane residues of entry q into half pos of vd (R70, R144). -/
def execQres (sl : Slot) (vd q : BitVec 5) (pos : Bool) (s : State) : Out :=
  coreOnly s { i := .qres sl vd q pos, sl := sl, slot := slotM, legal := true, dests := [dV vd],
               body := fun x => .ok [(3, vecBytes vd (if pos then 32 else 0) 32 (residues (x.c.rq q.toNat)))] [] }

end Sys2Proof.Machine
end

