-- ==== Sys2Proof/Machine/Scalar.lean ====
section
/-! DEFINITION. The S slot: scalar and predicate operations, control transfers, special registers and wswap (R127 to R133,
R110, R157), and their forms on the control cores (R474). -/

namespace Sys2Proof.Machine

/-- A scalar operation on two values: the same on 32 and on 64 bits (R128, R474). -/
abbrev Alu := (w : Nat) → BitVec w → BitVec w → BitVec w

/-- Form SR: rd from ra and rb (R127). -/
def scalarRR (s : State) (i : Instr) (sl : Slot) (rd ra rb : BitVec 5) (lat : Nat) (f : Alu) : Out :=
  issue s { i := i, sl := sl, slot := slotS, legal := true, dests := [dS rd],
            body := fun x => .ok [(lat, .setS rd.toNat (f 32 (x.c.rs ra) (x.c.rs rb)))] [] }
    true fun _ c => .ok [(rd.toNat, f 64 (c.rs ra) (c.rs rb))] []

/-- Form SI: rd from ra and the immediate, with the legality of the immediate in each profile. -/
def scalarRI (s : State) (i : Instr) (sl : Slot) (rd ra : BitVec 5) (legal ctlLegal : Bool)
    (f : (w : Nat) → BitVec w → BitVec w) : Out :=
  issue s { i := i, sl := sl, slot := slotS, legal := legal, dests := [dS rd],
            body := fun x => .ok [(1, .setS rd.toNat (f 32 (x.c.rs ra)))] [] }
    ctlLegal fun _ c => .ok [(rd.toNat, f 64 (c.rs ra))] []

/-- A predicate result. -/
def scalarP (s : State) (i : Instr) (sl : Slot) (pd : BitVec 3) (legal : Bool) (f : Core → Bool) (g : CtlCore → Bool) : Out :=
  issue s { i := i, sl := sl, slot := slotS, legal := legal, dests := [dP pd],
            body := fun x => .ok [(1, .setP pd.toNat (f x.c))] [] }
    legal fun _ c => .ok [] [(pd.toNat, g c)]

/-- The scalar conditions of R126. -/
def scalarCond (cond : BitVec 3) {w : Nat} (a b : BitVec w) : Bool :=
  match cond.toNat with
  | 0 => decide (a = b)
  | 1 => decide (a ≠ b)
  | 2 => a.slt b
  | 3 => !a.slt b
  | 4 => a.ult b
  | 5 => !a.ult b
  | _ => false

/-- The scalar conditions that R126 does not reserve. -/
def condOk (cond : BitVec 3) : Bool := decide (cond.toNat < 6)

/-- ADD: rd := ra + rb (R128). -/
def execAdd (sl : Slot) (rd ra rb : BitVec 5) (s : State) : Out :=
  scalarRR s (.add sl rd ra rb) sl rd ra rb 1 (fun _ a b => a + b)

/-- SUB: rd := ra − rb (R128). -/
def execSub (sl : Slot) (rd ra rb : BitVec 5) (s : State) : Out :=
  scalarRR s (.sub sl rd ra rb) sl rd ra rb 1 (fun _ a b => a - b)

/-- AND: bitwise and (R128). -/
def execAnd (sl : Slot) (rd ra rb : BitVec 5) (s : State) : Out :=
  scalarRR s (.and sl rd ra rb) sl rd ra rb 1 (fun _ a b => a &&& b)

/-- OR: bitwise or (R128). -/
def execOr (sl : Slot) (rd ra rb : BitVec 5) (s : State) : Out :=
  scalarRR s (.or sl rd ra rb) sl rd ra rb 1 (fun _ a b => a ||| b)

/-- XOR: bitwise xor (R128). -/
def execXor (sl : Slot) (rd ra rb : BitVec 5) (s : State) : Out :=
  scalarRR s (.xor sl rd ra rb) sl rd ra rb 1 (fun _ a b => a ^^^ b)

/-- SHL: ra shifted left by the low bits of rb (R128). -/
def execShl (sl : Slot) (rd ra rb : BitVec 5) (s : State) : Out :=
  scalarRR s (.shl sl rd ra rb) sl rd ra rb 1 (fun w a b => a <<< (b.toNat % w))

/-- SHR: logical right shift (R128). -/
def execShr (sl : Slot) (rd ra rb : BitVec 5) (s : State) : Out :=
  scalarRR s (.shr sl rd ra rb) sl rd ra rb 1 (fun w a b => a >>> (b.toNat % w))

/-- SRA: arithmetic right shift (R128). -/
def execSra (sl : Slot) (rd ra rb : BitVec 5) (s : State) : Out :=
  scalarRR s (.sra sl rd ra rb) sl rd ra rb 1 (fun w a b => a.sshiftRight (b.toNat % w))

/-- MIN: signed minimum (R128). -/
def execMin (sl : Slot) (rd ra rb : BitVec 5) (s : State) : Out :=
  scalarRR s (.min sl rd ra rb) sl rd ra rb 1 (fun _ a b => if b.slt a then b else a)

/-- MAX: signed maximum (R128). -/
def execMax (sl : Slot) (rd ra rb : BitVec 5) (s : State) : Out :=
  scalarRR s (.max sl rd ra rb) sl rd ra rb 1 (fun _ a b => if a.slt b then b else a)

/-- MINU: unsigned minimum (R128). -/
def execMinu (sl : Slot) (rd ra rb : BitVec 5) (s : State) : Out :=
  scalarRR s (.minu sl rd ra rb) sl rd ra rb 1 (fun _ a b => if b.ult a then b else a)

/-- MAXU: unsigned maximum (R128). -/
def execMaxu (sl : Slot) (rd ra rb : BitVec 5) (s : State) : Out :=
  scalarRR s (.maxu sl rd ra rb) sl rd ra rb 1 (fun _ a b => if a.ult b then b else a)

/-- MUL: the low half of the product (R128). -/
def execMul (sl : Slot) (rd ra rb : BitVec 5) (s : State) : Out :=
  scalarRR s (.mul sl rd ra rb) sl rd ra rb 3 (fun _ a b => a * b)

/-- MULH: the high half of the signed product (R128). -/
def execMulh (sl : Slot) (rd ra rb : BitVec 5) (s : State) : Out :=
  scalarRR s (.mulh sl rd ra rb) sl rd ra rb 3 (fun w a b => BitVec.ofInt w (a.toInt * b.toInt / 2 ^ w))

/-- MULHU: the high half of the unsigned product (R128). -/
def execMulhu (sl : Slot) (rd ra rb : BitVec 5) (s : State) : Out :=
  scalarRR s (.mulhu sl rd ra rb) sl rd ra rb 3 (fun w a b => BitVec.ofNat w (a.toNat * b.toNat / 2 ^ w))

/-- ADDI: rd := ra + sext(imm16) (R128). -/
def execAddi (sl : Slot) (rd ra : BitVec 5) (imm : BitVec 16) (s : State) : Out :=
  scalarRI s (.addi sl rd ra imm) sl rd ra true true (fun w a => a + imm.signExtend w)

/-- ANDI: rd := ra and zext(imm16) (R128). -/
def execAndi (sl : Slot) (rd ra : BitVec 5) (imm : BitVec 16) (s : State) : Out :=
  scalarRI s (.andi sl rd ra imm) sl rd ra true true (fun w a => a &&& imm.zeroExtend w)

/-- ORI: rd := ra or zext(imm16) (R128). -/
def execOri (sl : Slot) (rd ra : BitVec 5) (imm : BitVec 16) (s : State) : Out :=
  scalarRI s (.ori sl rd ra imm) sl rd ra true true (fun w a => a ||| imm.zeroExtend w)

/-- XORI: rd := ra xor zext(imm16) (R128). -/
def execXori (sl : Slot) (rd ra : BitVec 5) (imm : BitVec 16) (s : State) : Out :=
  scalarRI s (.xori sl rd ra imm) sl rd ra true true (fun w a => a ^^^ imm.zeroExtend w)

/-- SHLI: shift left by the immediate; its upper bits are reserved (R128). -/
def execShli (sl : Slot) (rd ra : BitVec 5) (imm : BitVec 16) (s : State) : Out :=
  scalarRI s (.shli sl rd ra imm) sl rd ra (decide (imm.toNat < 32)) (decide (imm.toNat < 64)) (fun w a => a <<< (imm.toNat % w))

/-- SHRI: logical right shift by the immediate (R128). -/
def execShri (sl : Slot) (rd ra : BitVec 5) (imm : BitVec 16) (s : State) : Out :=
  scalarRI s (.shri sl rd ra imm) sl rd ra (decide (imm.toNat < 32)) (decide (imm.toNat < 64)) (fun w a => a >>> (imm.toNat % w))

/-- SRAI: arithmetic right shift by the immediate (R128). -/
def execSrai (sl : Slot) (rd ra : BitVec 5) (imm : BitVec 16) (s : State) : Out :=
  scalarRI s (.srai sl rd ra imm) sl rd ra (decide (imm.toNat < 32)) (decide (imm.toNat < 64)) (fun w a => a.sshiftRight (imm.toNat % w))

/-- MOVI: rd := sext(imm16); ra must be 0 (R128). -/
def execMovi (sl : Slot) (rd ra : BitVec 5) (imm : BitVec 16) (s : State) : Out :=
  scalarRI s (.movi sl rd ra imm) sl rd ra (decide (ra = 0)) (decide (ra = 0)) (fun w _ => imm.signExtend w)

/-- MOVHI: rd := (imm16 << 16) or (ra and 0xFFFF) (R128); 64-bit scalars take bits 63:32 as the sign extension of bit 31
(R474). -/
def execMovhi (sl : Slot) (rd ra : BitVec 5) (imm : BitVec 16) (s : State) : Out :=
  scalarRI s (.movhi sl rd ra imm) sl rd ra true true fun w a =>
    ((imm ++ a.truncate 16 : BitVec 32)).signExtend w

/-- MOVSH: rd := (ra << 16) or zext(imm16), of the control profile only (R474). -/
def execMovsh (sl : Slot) (rd ra : BitVec 5) (imm : BitVec 16) (s : State) : Out :=
  scalarRI s (.movsh sl rd ra imm) sl rd ra false true fun w a => (a <<< 16) ||| imm.zeroExtend w

/-- CMP: pd := ra cond rb (R128, R126). -/
def execCmp (sl : Slot) (pd cond : BitVec 3) (ra rb : BitVec 5) (s : State) : Out :=
  scalarP s (.cmp sl pd cond ra rb) sl pd (condOk cond) (fun c => scalarCond cond (c.rs ra) (c.rs rb))
    fun c => scalarCond cond (c.rs ra) (c.rs rb)

/-- CMPI: pd := ra cond sext(imm16) (R128, R126). -/
def execCmpi (sl : Slot) (pd cond : BitVec 3) (ra : BitVec 5) (imm : BitVec 16) (s : State) : Out :=
  scalarP s (.cmpi sl pd cond ra imm) sl pd (condOk cond) (fun c => scalarCond cond (c.rs ra) (imm.signExtend 32))
    fun c => scalarCond cond (c.rs ra) (imm.signExtend 64)

/-- PAND: pd := (pa xor na) and (pb xor nb) (R128). -/
def execPand (sl : Slot) (pd pa : BitVec 3) (na : Bool) (pb : BitVec 3) (nb : Bool) (s : State) : Out :=
  scalarP s (.pand sl pd pa na pb nb) sl pd true (fun c => xor (c.rp pa) na && xor (c.rp pb) nb)
    fun c => xor (c.rp pa) na && xor (c.rp pb) nb

/-- POR: as PAND, with or (R128). -/
def execPor (sl : Slot) (pd pa : BitVec 3) (na : Bool) (pb : BitVec 3) (nb : Bool) (s : State) : Out :=
  scalarP s (.por sl pd pa na pb nb) sl pd true (fun c => xor (c.rp pa) na || xor (c.rp pb) nb)
    fun c => xor (c.rp pa) na || xor (c.rp pb) nb

/-- PXOR: as PAND, with xor (R128). -/
def execPxor (sl : Slot) (pd pa : BitVec 3) (na : Bool) (pb : BitVec 3) (nb : Bool) (s : State) : Out :=
  scalarP s (.pxor sl pd pa na pb nb) sl pd true (fun c => xor (xor (c.rp pa) na) (xor (c.rp pb) nb))
    fun c => xor (xor (c.rp pa) na) (xor (c.rp pb) nb)

/-! ### Control transfers -/

/-- The bundle after the group that holds bundle `pc` (R129): the next one when this bundle ends its group, else the one
after the next end-of-group marker in the instruction store (bit 3 of a bundle, R122). After bundle 2,047 comes bundle 0 (DESIGN CHOICE, log 171:
R129 does not say what jal returns to there). -/
def Ctx.afterGroup (x : Ctx) : Nat :=
  if x.sl.eog then (x.c.pc + 1) % 2048
  else
    let base := x.s.tileBase x.n x.u + tileSize
    let k := ((List.range 7).find? fun i => (x.s.readByte (base + 16 * ((x.c.pc + 1 + i) % 2048))).getLsbD 3).getD 7
    (x.c.pc + 2 + k) % 2048

/-- The byte address of the group after the one a control core issues (R474). -/
def State.ctlAfterGroup (s : State) (c : CtlCore) (eog : Bool) : Nat :=
  if eog then c.pc + 16
  else
    let k := ((List.range 7).find? fun i => (Tbl.get 0 s.sram (c.pc + 16 * (i + 1))).getLsbD 3).getD 7
    c.pc + 16 * (k + 2)

/-- The target of form SB on a control core: a signed offset in bundles from the first bundle of the group (R474). -/
def ctlTarget (c : CtlCore) (target : BitVec 11) : Nat := ((c.groupPc : Int) + 16 * target.toInt).toNat

/-- BR: transfer to target (R128, R129). -/
def execBr (sl : Slot) (target : BitVec 11) (s : State) : Out :=
  issue s { i := .br sl target, sl := sl, slot := slotS, legal := true, dests := [],
            body := fun _ => .jump [] target.toNat }
    true fun _ c => .jump [] (ctlTarget c target)

/-- LOOP: decrement rd and transfer while it stays nonzero; rd of 0 stays and does not transfer (R129). -/
def execLoop (sl : Slot) (rd : BitVec 5) (target : BitVec 11) (s : State) : Out :=
  issue s { i := .loop sl rd target, sl := sl, slot := slotS, legal := true, dests := [dS rd],
            body := fun x =>
              let a := x.c.rs rd
              if a = 0 then .ok [] []
              else if a = 1 then .ok [(1, .setS rd.toNat 0)] []
              else .jump [(1, .setS rd.toNat (a - 1))] target.toNat }
    true fun _ c =>
      let a := c.rs rd
      if a = 0 then .ok [] []
      else if a = 1 then .ok [(rd.toNat, 0)] []
      else .jump [(rd.toNat, a - 1)] (ctlTarget c target)

/-- JAL: rd := the address after the group, transfer to target (R129, R474). -/
def execJal (sl : Slot) (rd : BitVec 5) (target : BitVec 11) (s : State) : Out :=
  issue s { i := .jal sl rd target, sl := sl, slot := slotS, legal := true, dests := [dS rd],
            body := fun x => .jump [(1, .setS rd.toNat (BitVec.ofNat 32 x.afterGroup))] target.toNat }
    true fun s c =>
      .jump [(rd.toNat, BitVec.ofNat 64 (2 ^ 63 + s.ctlAfterGroup c sl.eog))] (ctlTarget c target)

/-- JR: transfer to bits 10:0 of ra (R129); on a control core to the SRAM byte address in ra, aligned to 16 (R474). -/
def execJr (sl : Slot) (ra : BitVec 5) (s : State) : Out :=
  issue s { i := .jr sl ra, sl := sl, slot := slotS, legal := true, dests := [],
            body := fun x => .jump [] ((x.c.rs ra).toNat % 2048) }
    true fun _ c =>
      let a := (c.rs ra).toNat
      if 2 ^ 63 ≤ a ∧ a < 2 ^ 63 + sramSize ∧ a % 16 = 0 then .jump [] (a - 2 ^ 63) else .stop

/-! ### Special registers and the weight stages -/

/-- SMOV from a special register (R131, R474). -/
def execSmovFromSpecial (sl : Slot) (rd : BitVec 5) (code : BitVec 5) (s : State) : Out :=
  issue s { i := .smovFromSpecial sl rd code, sl := sl, slot := slotS, legal := decide (code.toNat ≤ 0x0A), dests := [dS rd],
            body := fun x =>
              let c := x.c
              match code.toNat with
              | 0 => .ok [(1, .setCyc rd.toNat)] []
              | k =>
                let v : BitVec 32 :=
                  match k with
                  | 1 => c.step.extractLsb' 0 32
                  | 2 => c.step.extractLsb' 32 32
                  | 3 | 4 | 5 | 6 => Tbl.get 0 c.keys (k - 3)
                  | 7 => c.tensor
                  | 8 => c.prov.zeroExtend 32
                  | 9 => c.astat.zeroExtend 32
                  | _ => BitVec.ofNat 32 (x.s.getF (aFltCoreChk x.n x.u) F.fltCoreChk_count)
                .ok [(1, .setS rd.toNat v)] [] }
    (decide (code.toNat = 0x10 ∨ code.toNat = 0x11)) fun s _ =>
      .ok [(rd.toNat, if code.toNat = 0x10 then s.beat
        else match sl.site with | .ctl k => BitVec.ofNat 64 k | _ => 0)] []

/-- SMOV to a special register (R131, R133, R474): key0–key3, tensor, astat; the watchdog on a control core. -/
def execSmovToSpecial (sl : Slot) (code : BitVec 5) (ra : BitVec 5) (s : State) : Out :=
  issue s { i := .smovToSpecial sl code ra, sl := sl, slot := slotS,
            legal := decide (3 ≤ code.toNat ∧ code.toNat ≤ 7) || decide (code.toNat = 9), dests := [dSpecial code.toNat],
            body := fun x =>
              let v := x.c.rs ra
              match code.toNat with
              | 7 => .ok [(1, .setTensor v)] []
              | 9 => .ok [(1, .setAstat (v.truncate 5))] []
              | k => .ok [(1, .setKey (k - 3) v)] [] }
    (decide (code.toNat = 0x12)) fun _ c => .watchdog (c.rs ra).toNat

/-- Whether a wld into the inactive stage is in flight (R157). -/
def Core.wldInFlight (c : Core) : Bool := c.flight.any fun f => match f.eff with | .fillPart _ _ _ => true | _ => false

/-- WSWAP: the stages exchange roles; a wld in flight faults, an inactive stage that is not full stalls (R110, R157). -/
def execWswap (sl : Slot) (s : State) : Out :=
  coreOnly s { i := .wswap sl, sl := sl, slot := slotS, legal := true, dests := [],
               body := fun x =>
                 if x.c.wldInFlight then .fault 0x08
                 else if x.c.idleStage.full then .ok [(1, .swap)] []
                 else .stall 2 x.c.idleNum }

end Sys2Proof.Machine
end

