-- ==== Sys2Proof/Machine/Vector.lean ====
section
/-! DEFINITION. The M slot, vector instructions: arithmetic, compare and select, reductions, conversions, functions, permutes
and moves, and the generator (R64 to R68, R145 to R154). -/

namespace Sys2Proof.Machine

/-- Type codes of form MV (R135). -/
def tyF32 : BitVec 2 := 0
/-- BF16 lanes. -/
def tyBf16 : BitVec 2 := 1
/-- 32-bit integer lanes. -/
def tyI32 : BitVec 2 := 2
/-- Byte lanes. -/
def tyB8 : BitVec 2 := 3

/-- The lane width of a type (R135). -/
def tyWidth (ty : BitVec 2) : Nat := if ty = tyBf16 then 16 else if ty = tyB8 then 8 else 32

/-- The number of lanes of a type. -/
def tyLanes (ty : BitVec 2) : Nat := 512 / tyWidth ty

/-- Whether rm and sb are legal for a type (R135, R146, R147): rne with sb 0 for f32 and i32; any listed mode for bf16. -/
def roundOk (ty : BitVec 2) (rm : BitVec 2) (sb : BitVec 5) : Bool :=
  if ty = tyBf16 then decide (rm ≠ 3) else decide (rm = 0 ∧ sb = 0)

/-- The capture bytes of a vector instruction (R420): class, type, rounding mode, operands. -/
def vecCapture (cls : Nat) (ty rm : BitVec 2) (a b c : BitVec 512) : List (Nat × Nat) :=
  [(0, cls), (2, ty.toNat), (3, rm.toNat), (512, a.toNat), (576, b.toNat), (640, c.toNat)]

/-- Lane results packed into a register, their conditions combined. -/
def packRes (w n : Nat) (f : Nat → LaneRes) : Nat × BitVec 5 :=
  let l := (List.range n).map f
  (l.foldr (fun r acc => acc * 2 ^ w + r.1 % 2 ^ w) 0, l.foldl (fun acc r => acc ||| r.2) 0)

/-- Conditions raised at delivery (R133). -/
def condEffs (lat : Nat) (f : BitVec 5) : List (Nat × Eff) := if f = 0 then [] else [(lat, .orAstat f)]

/-- A whole-register result with its conditions. -/
def vecBody (lat : Nat) (vd : BitVec 5) (r : Nat × BitVec 5) (cap : List (Nat × Nat)) : Body :=
  .ok ((lat, vecWhole vd r.1) :: condEffs lat r.2) cap

/-- A floating-point operation on lanes of f32 or bf16 (R64, R147): BF16 lanes are widened, computed in binary32, and
narrowed in the instruction's mode with lane i's element index sb + i. -/
def floatLanes (x : Ctx) (ty rm : BitVec 2) (sb : BitVec 5) (f : (Nat → Nat) → Nat → LaneRes) : Nat × BitVec 5 :=
  let rev1 := x.s.rev1
  if ty = tyBf16 then
    packRes 16 32 fun i =>
      let (r, fl) := f widenBf16 i
      let rnd := if rm = 2 then x.seed.rnd24 (x.c.rs sb + BitVec.ofNat 32 i) else 0
      let (b, fl2) := narrowIeee rev1 fmtBF16 (rmOf rm) rnd r
      (b, fl ||| fl2)
  else packRes 32 16 fun i => f id i

/-- A two-operand arithmetic instruction of f32, bf16 or i32 (R145). -/
def vecArith (s : State) (i : Instr) (sl : Slot) (ty : BitVec 2) (vd va vb : BitVec 5) (rm : BitVec 2) (sb : BitVec 5)
    (f : Bool → Nat → Nat → LaneRes) (g : BitVec 32 → BitVec 32 → BitVec 32) : Out :=
  coreOnly s { i := i, sl := sl, slot := slotM, legal := decide (ty ≠ tyB8) && roundOk ty rm sb, dests := [dV vd],
               body := fun x =>
                 let a := x.c.rv va
                 let b := x.c.rv vb
                 let w := tyWidth ty
                 let r := if ty = tyI32 then
                     (packLanes 32 16 fun i => (g (BitVec.ofNat 32 (laneAt a 32 i)) (BitVec.ofNat 32 (laneAt b 32 i))).toNat, 0)
                   else floatLanes x ty rm sb fun wid i => f x.s.rev1 (wid (laneAt a w i)) (wid (laneAt b w i))
                 vecBody 4 vd r (vecCapture 3 ty rm a b 0) }

/-- VADD (R64, R145). -/
def execVadd (sl : Slot) (ty : BitVec 2) (vd va vb : BitVec 5) (rm : BitVec 2) (sb : BitVec 5) (s : State) : Out :=
  vecArith s (.vadd sl ty vd va vb rm sb) sl ty vd va vb rm sb f32Add fun a b => a + b

/-- VSUB (R64, R145). -/
def execVsub (sl : Slot) (ty : BitVec 2) (vd va vb : BitVec 5) (rm : BitVec 2) (sb : BitVec 5) (s : State) : Out :=
  vecArith s (.vsub sl ty vd va vb rm sb) sl ty vd va vb rm sb f32Sub fun a b => a - b

/-- VMUL; i32 keeps bits 31:0 (R64, R145). -/
def execVmul (sl : Slot) (ty : BitVec 2) (vd va vb : BitVec 5) (rm : BitVec 2) (sb : BitVec 5) (s : State) : Out :=
  vecArith s (.vmul sl ty vd va vb rm sb) sl ty vd va vb rm sb f32Mul fun a b => a * b

/-- VFMA: va × vb + vc, rounded once (R64, R145, R541). -/
def execVfma (sl : Slot) (ty : BitVec 2) (vd va vb vc : BitVec 5) (rm : BitVec 2) (sb : BitVec 5) (s : State) : Out :=
  coreOnly s { i := .vfma sl ty vd va vb vc rm sb, sl := sl, slot := slotM,
               legal := decide (ty = tyF32 ∨ ty = tyBf16) && roundOk ty rm sb, dests := [dV vd],
               body := fun x =>
                 let a := x.c.rv va
                 let b := x.c.rv vb
                 let c := x.c.rv vc
                 let w := tyWidth ty
                 vecBody 4 vd (floatLanes x ty rm sb fun wid i =>
                   f32Fma x.s.rev1 (wid (laneAt a w i)) (wid (laneAt b w i)) (wid (laneAt c w i)))
                   (vecCapture 3 ty rm a b c) }

/-- Minimum or maximum of lanes (R145, R147): never rounded, so a BF16 result is the top half of the binary32 one. -/
def vecMinMax (s : State) (i : Instr) (sl : Slot) (max : Bool) (ty : BitVec 2) (vd va vb : BitVec 5) : Out :=
  coreOnly s { i := i, sl := sl, slot := slotM, legal := decide (ty ≠ tyB8), dests := [dV vd],
               body := fun x =>
                 let a := x.c.rv va
                 let b := x.c.rv vb
                 let r :=
                   if ty = tyI32 then
                     (packLanes 32 16 fun i =>
                       let p := BitVec.ofNat 32 (laneAt a 32 i)
                       let q := BitVec.ofNat 32 (laneAt b 32 i)
                       (if max then (if p.slt q then q else p) else (if q.slt p then q else p)).toNat, 0)
                   else if ty = tyBf16 then
                     packRes 16 32 fun i =>
                       let (r, fl) := f32MinMax x.s.rev1 max (widenBf16 (laneAt a 16 i)) (widenBf16 (laneAt b 16 i))
                       (r / 2 ^ 16, fl)
                   else packRes 32 16 fun i => f32MinMax x.s.rev1 max (laneAt a 32 i) (laneAt b 32 i)
                 vecBody 4 vd r (vecCapture 3 ty 0 a b 0) }

/-- VMIN (R145, R147). -/
def execVmin (sl : Slot) (ty : BitVec 2) (vd va vb : BitVec 5) (s : State) : Out :=
  vecMinMax s (.vmin sl ty vd va vb) sl false ty vd va vb

/-- VMAX (R145, R147). -/
def execVmax (sl : Slot) (ty : BitVec 2) (vd va vb : BitVec 5) (s : State) : Out :=
  vecMinMax s (.vmax sl ty vd va vb) sl true ty vd va vb

/-- The conditions of R126 on signed 32-bit lanes. -/
def intCond (cond : Nat) (a b : BitVec 32) : Bool :=
  match cond with
  | 0 => decide (a = b)
  | 1 => decide (a ≠ b)
  | 2 => a.slt b
  | 3 => !b.slt a
  | 4 => b.slt a
  | 5 => !a.slt b
  | _ => false

/-- VCMP: lanes all ones where the condition holds, zero elsewhere (R126, R145, R147). -/
def execVcmp (sl : Slot) (ty : BitVec 2) (cond : BitVec 3) (vd va vb : BitVec 5) (s : State) : Out :=
  coreOnly s { i := .vcmp sl ty cond vd va vb, sl := sl, slot := slotM,
               legal := decide (ty ≠ tyB8) && decide (cond.toNat < (if ty = tyI32 then 6 else 7)), dests := [dV vd],
               body := fun x =>
                 let a := x.c.rv va
                 let b := x.c.rv vb
                 let w := tyWidth ty
                 let one := 2 ^ w - 1
                 let r := packRes w (tyLanes ty) fun i =>
                   if ty = tyI32 then
                     (if intCond cond.toNat (BitVec.ofNat 32 (laneAt a w i)) (BitVec.ofNat 32 (laneAt b w i)) then one else 0, 0)
                   else
                     let wid := if ty = tyBf16 then widenBf16 else id
                     let (t, fl) := f32Cmp cond.toNat (wid (laneAt a w i)) (wid (laneAt b w i))
                     (if t then one else 0, fl)
                 vecBody 4 vd r (vecCapture 3 ty 0 a b 0) }

/-- VSEL: va's lane where vc's lane is nonzero, else vb's (R145). A lane of −0.0 counts as nonzero: its bits are (DESIGN CHOICE, log 168; the row
says what nonzero means for vtest only). -/
def execVsel (sl : Slot) (ty : BitVec 2) (vd va vb vc : BitVec 5) (s : State) : Out :=
  coreOnly s { i := .vsel sl ty vd va vb vc, sl := sl, slot := slotM, legal := decide (ty ≠ tyB8), dests := [dV vd],
               body := fun x =>
                 let w := tyWidth ty
                 let r := packLanes w (tyLanes ty) fun i =>
                   if laneAt (x.c.rv vc) w i ≠ 0 then laneAt (x.c.rv va) w i else laneAt (x.c.rv vb) w i
                 vecBody 4 vd (r, 0) (vecCapture 3 ty 0 (x.c.rv va) (x.c.rv vb) (x.c.rv vc)) }

/-- A bitwise operation on whole registers (R145). -/
def vecBitwise (s : State) (i : Instr) (sl : Slot) (vd va vb : BitVec 5) (f : BitVec 512 → BitVec 512 → BitVec 512) : Out :=
  coreOnly s { i := i, sl := sl, slot := slotM, legal := true, dests := [dV vd],
               body := fun x =>
                 vecBody 4 vd ((f (x.c.rv va) (x.c.rv vb)).toNat, 0) (vecCapture 3 tyI32 0 (x.c.rv va) (x.c.rv vb) 0) }

/-- VAND (R145). -/
def execVand (sl : Slot) (vd va vb : BitVec 5) (s : State) : Out :=
  vecBitwise s (.vand sl vd va vb) sl vd va vb fun a b => a &&& b

/-- VOR (R145). -/
def execVor (sl : Slot) (vd va vb : BitVec 5) (s : State) : Out :=
  vecBitwise s (.vor sl vd va vb) sl vd va vb fun a b => a ||| b

/-- VXOR (R145). -/
def execVxor (sl : Slot) (vd va vb : BitVec 5) (s : State) : Out :=
  vecBitwise s (.vxor sl vd va vb) sl vd va vb fun a b => a ^^^ b

/-- One level of a reduction: neighbours combined in pairs (R66). -/
def reducePairs (f : Nat → Nat → LaneRes) : List LaneRes → List LaneRes
  | a :: b :: l => (let (r, fl) := f a.1 b.1; (r, fl ||| a.2 ||| b.2)) :: reducePairs f l
  | l => l

/-- The reduction tree (R66): five levels suffice for 32 lanes. -/
def reduceTree (f : Nat → Nat → LaneRes) (l : List LaneRes) : LaneRes :=
  let r := reducePairs f (reducePairs f (reducePairs f (reducePairs f (reducePairs f l))))
  r.headD (0, 0)

/-- A reduction: the binary32 result in all 16 lanes of vd (R66, R145, R147). -/
def vecReduce (s : State) (i : Instr) (sl : Slot) (ty : BitVec 2) (vd va : BitVec 5) (f : Bool → Nat → Nat → LaneRes) : Out :=
  coreOnly s { i := i, sl := sl, slot := slotM, legal := decide (ty = tyF32 ∨ ty = tyBf16), dests := [dV vd],
               body := fun x =>
                 let a := x.c.rv va
                 let w := tyWidth ty
                 let wid := if ty = tyBf16 then widenBf16 else id
                 let r := reduceTree (f x.s.rev1) ((List.range (tyLanes ty)).map fun i => (wid (laneAt a w i), 0))
                 vecBody 6 vd (packLanes 32 16 fun _ => r.1, r.2) (vecCapture 3 ty 0 a 0 0) }

/-- VREDSUM (R66, R145). -/
def execVredsum (sl : Slot) (ty : BitVec 2) (vd va : BitVec 5) (s : State) : Out :=
  vecReduce s (.vredsum sl ty vd va) sl ty vd va f32Add

/-- VREDMAX (R66, R145). -/
def execVredmax (sl : Slot) (ty : BitVec 2) (vd va : BitVec 5) (s : State) : Out :=
  vecReduce s (.vredmax sl ty vd va) sl ty vd va fun r => f32MinMax r true

/-- VREDMIN (R66, R145). -/
def execVredmin (sl : Slot) (ty : BitVec 2) (vd va : BitVec 5) (s : State) : Out :=
  vecReduce s (.vredmin sl ty vd va) sl ty vd va fun r => f32MinMax r false

/-- Whether a lane is nonzero for vtest (R145): ±0 counts as zero in a floating-point type, any set bit in the others. -/
def laneNonzero (ty : BitVec 2) (x : Nat) : Bool :=
  if ty = tyF32 then decide (x % 2 ^ 31 ≠ 0) else if ty = tyBf16 then decide (x % 2 ^ 15 ≠ 0) else decide (x ≠ 0)

/-- VTEST.ANY: pd := some lane of va is nonzero (R145). -/
def execVtestAny (sl : Slot) (ty : BitVec 2) (pd : BitVec 3) (va : BitVec 5) (s : State) : Out :=
  coreOnly s { i := .vtestAny sl ty pd va, sl := sl, slot := slotM, legal := true, dests := [dP pd],
               body := fun x => .ok [(4, .setP pd.toNat
                 ((List.range (tyLanes ty)).any fun i => laneNonzero ty (laneAt (x.c.rv va) (tyWidth ty) i)))]
                 (vecCapture 3 ty 0 (x.c.rv va) 0 0) }

/-- VTEST.ALL: pd := every lane of va is nonzero (R145). -/
def execVtestAll (sl : Slot) (ty : BitVec 2) (pd : BitVec 3) (va : BitVec 5) (s : State) : Out :=
  coreOnly s { i := .vtestAll sl ty pd va, sl := sl, slot := slotM, legal := true, dests := [dP pd],
               body := fun x => .ok [(4, .setP pd.toNat
                 ((List.range (tyLanes ty)).all fun i => laneNonzero ty (laneAt (x.c.rv va) (tyWidth ty) i)))]
                 (vecCapture 3 ty 0 (x.c.rv va) 0 0) }

/-- A sign operation on floating-point lanes (R145, R146). -/
def vecSign (s : State) (i : Instr) (sl : Slot) (ty : BitVec 2) (vd va vb : BitVec 5) (f : Nat → Nat → Nat → Nat) : Out :=
  coreOnly s { i := i, sl := sl, slot := slotM, legal := decide (ty = tyF32 ∨ ty = tyBf16), dests := [dV vd],
               body := fun x =>
                 let w := tyWidth ty
                 vecBody 4 vd (packLanes w (tyLanes ty) fun i =>
                   f (2 ^ (w - 1)) (laneAt (x.c.rv va) w i) (laneAt (x.c.rv vb) w i), 0)
                   (vecCapture 3 ty 0 (x.c.rv va) (x.c.rv vb) 0) }

/-- VNEG: the sign turned (R145). -/
def execVneg (sl : Slot) (ty : BitVec 2) (vd va : BitVec 5) (s : State) : Out :=
  vecSign s (.vneg sl ty vd va) sl ty vd va 0 fun h a _ => a ^^^ h

/-- VABS: the sign cleared (R145). -/
def execVabs (sl : Slot) (ty : BitVec 2) (vd va : BitVec 5) (s : State) : Out :=
  vecSign s (.vabs sl ty vd va) sl ty vd va 0 fun h a _ => a % h

/-- VCOPYSIGN: va's magnitude with vb's sign (R146). -/
def execVcopysign (sl : Slot) (ty : BitVec 2) (vd va vb : BitVec 5) (s : State) : Out :=
  vecSign s (.vcopysign sl ty vd va vb) sl ty vd va vb fun h a b => a % h + b / h * h

/-! ### Conversions -/

/-- VCVT narrowing: binary32 lanes into element format fmt (R44, R45, R148, R149). -/
def execVcvtNarrow (sl : Slot) (fmt : BitVec 4) (vd va vb : BitVec 5) (pos : BitVec 3) (rm : BitVec 2) (sat : Bool)
    (sb : BitVec 5) (s : State) : Out :=
  coreOnly s { i := .vcvtNarrow sl fmt vd va vb pos rm sat sb, sl := sl, slot := slotM,
               legal := decide (pos.toNat ≤ (narrowShape fmt).2.2) && decide (rm ≠ 3) && (!sat || decide (fmt = 0)) &&
                 (fmtScaled fmt || decide (vb = 0)),
               dests := [dV vd],
               body := fun x =>
                 let (n, bytes, _) := narrowShape fmt
                 let a := x.c.rv va
                 let b := x.c.rv vb
                 let input := fun i => if i < 16 then laneAt a 32 i else laneAt b 32 (i - 16)
                 let rnd := fun (i : Nat) => if rm = 2 then x.seed.rnd24 (x.c.rs sb + BitVec.ofNat 32 i) else 0
                 let sc := if fmtScaled fmt then blockScale fmt ((List.range n).map input) else 0x7F
                 let r := packRes (regBits fmt) n fun i =>
                   if fmtScaled fmt then narrowBlock fmt sc (rmOf rm) (rnd i) (input i)
                   else narrowPlain x.s.rev1 fmt (rmOf rm) sat (rnd i) (input i)
                 let lo := bytes * pos.toNat
                 let eff : Eff := .setV vd.toNat (BitVec.ofNat 64 ((2 ^ bytes - 1) * 2 ^ lo)) (BitVec.ofNat 512 (r.1 * 2 ^ (8 * lo)))
                   (BitVec.ofNat 8 ((2 ^ (bytes / 8) - 1) * 2 ^ (lo / 8))) (BitVec.ofNat 64 (packLanes 8 8 fun _ => sc))
                 .ok ((4, eff) :: condEffs 4 r.2) [(0, 3), (2, fmt.toNat), (3, rm.toNat + (if sat then 4 else 0)), (512, a.toNat), (576, b.toNat)] }

/-- VCVT widening: elements of fmt from chunk pos of va into 16 binary32 lanes (R148, R150). -/
def execVcvtWiden (sl : Slot) (fmt : BitVec 4) (vd va : BitVec 5) (pos : BitVec 3) (s : State) : Out :=
  coreOnly s { i := .vcvtWiden sl fmt vd va pos, sl := sl, slot := slotM,
               legal := decide (pos.toNat ≤ (if regBits fmt = 4 then 7 else if regBits fmt = 16 then 1 else 3)),
               dests := [dV vd],
               body := fun x =>
                 let a := x.c.rv va
                 let w := regBits fmt
                 let r := packRes 32 16 fun i =>
                   let bit := w * (16 * pos.toNat + i)
                   widenElem x.s.rev1 fmt (bitsAt a.toNat bit w) (byteAt (x.c.rvs va) (bit / 64))
                 vecBody 4 vd r [(0, 3), (2, fmt.toNat), (512, a.toNat)] }

/-! ### Permutes and moves -/

/-- VPERM.SEG: segments with their scale bytes (R136, R151). -/
def execVpermSeg (sl : Slot) (vd va : BitVec 5) (sel : BitVec 24) (s : State) : Out :=
  coreOnly s { i := .vpermSeg sl vd va sel, sl := sl, slot := slotM, legal := true, dests := [dV vd],
               body := fun x =>
                 let pick := fun i => bitsAt sel.toNat (3 * i) 3
                 .ok [(4, .setV vd.toNat (BitVec.ofNat 64 (2 ^ 64 - 1))
                   (BitVec.ofNat 512 (packLanes 64 8 fun i => bitsAt (x.c.rv va).toNat (64 * pick i) 64)) 0xFF#8
                   (BitVec.ofNat 64 (packLanes 8 8 fun i => byteAt (x.c.rvs va) (pick i))))]
                   (vecCapture 3 0 0 (x.c.rv va) 0 0) }

/-- VPERM.W: 32-bit lanes picked by bits 3:0 of vb's lanes (R145, R151). -/
def execVpermW (sl : Slot) (vd va vb : BitVec 5) (s : State) : Out :=
  coreOnly s { i := .vpermW sl vd va vb, sl := sl, slot := slotM, legal := true, dests := [dV vd],
               body := fun x => vecBody 4 vd (packLanes 32 16 fun i =>
                 laneAt (x.c.rv va) 32 (laneAt (x.c.rv vb) 32 i % 16), 0) (vecCapture 3 tyI32 0 (x.c.rv va) (x.c.rv vb) 0) }

/-- VPERM.B: bytes picked by bits 5:0 of vb's bytes (R145, R151). -/
def execVpermB (sl : Slot) (vd va vb : BitVec 5) (s : State) : Out :=
  coreOnly s { i := .vpermB sl vd va vb, sl := sl, slot := slotM, legal := true, dests := [dV vd],
               body := fun x => vecBody 4 vd (packLanes 8 64 fun i =>
                 laneAt (x.c.rv va) 8 (laneAt (x.c.rv vb) 8 i % 64), 0) (vecCapture 3 tyB8 0 (x.c.rv va) (x.c.rv vb) 0) }

/-- VBCAST: every lane := scalar sa (R145). -/
def execVbcast (sl : Slot) (vd sa : BitVec 5) (s : State) : Out :=
  coreOnly s { i := .vbcast sl vd sa, sl := sl, slot := slotM, legal := true, dests := [dV vd],
               body := fun x => vecBody 4 vd (packLanes 32 16 fun _ => (x.c.rs sa).toNat, 0) [] }

/-- VINS: one 32-bit lane := scalar sa; the other lanes are unchanged (R145, R151). -/
def execVins (sl : Slot) (vd lane sa : BitVec 5) (s : State) : Out :=
  coreOnly s { i := .vins sl vd lane sa, sl := sl, slot := slotM, legal := decide (lane.toNat < 16), dests := [dV vd],
               body := fun x => .ok [(4, .setV vd.toNat (BitVec.ofNat 64 (15 * 2 ^ (4 * lane.toNat)))
                 (BitVec.ofNat 512 ((x.c.rs sa).toNat * 2 ^ (32 * lane.toNat)))
                 (BitVec.ofNat 8 (2 ^ (lane.toNat / 2))) plainScales)] [] }

/-- VEXT: sd := one 32-bit lane of va (R145, R151). -/
def execVext (sl : Slot) (sd va lane : BitVec 5) (s : State) : Out :=
  coreOnly s { i := .vext sl sd va lane, sl := sl, slot := slotM, legal := decide (lane.toNat < 16), dests := [dS sd],
               body := fun x => .ok [(4, .setS sd.toNat (BitVec.ofNat 32 (laneAt (x.c.rv va) 32 lane.toNat)))] [] }

/-! ### Functions -/

/-- A correctly rounded function on floating-point lanes (R65, R145, R147). -/
def vecFun (s : State) (i : Instr) (sl : Slot) (fn : Fun) (ty : BitVec 2) (vd va : BitVec 5) (rm : BitVec 2) (sb : BitVec 5) : Out :=
  coreOnly s { i := i, sl := sl, slot := slotM, legal := decide (ty = tyF32 ∨ ty = tyBf16) && roundOk ty rm sb,
               dests := [dV vd],
               body := fun x =>
                 let a := x.c.rv va
                 vecBody 10 vd (floatLanes x ty rm sb fun wid i => f32Fun x.s.rev1 fn (wid (laneAt a (tyWidth ty) i)))
                   (vecCapture 4 ty rm a 0 0) }

/-- VEXP (R65, R145). -/
def execVexp (sl : Slot) (ty : BitVec 2) (vd va : BitVec 5) (rm : BitVec 2) (sb : BitVec 5) (s : State) : Out :=
  vecFun s (.vexp sl ty vd va rm sb) sl .exp ty vd va rm sb

/-- VEXP2 (R65, R145). -/
def execVexp2 (sl : Slot) (ty : BitVec 2) (vd va : BitVec 5) (rm : BitVec 2) (sb : BitVec 5) (s : State) : Out :=
  vecFun s (.vexp2 sl ty vd va rm sb) sl .exp2 ty vd va rm sb

/-- VLOG (R65, R145). -/
def execVlog (sl : Slot) (ty : BitVec 2) (vd va : BitVec 5) (rm : BitVec 2) (sb : BitVec 5) (s : State) : Out :=
  vecFun s (.vlog sl ty vd va rm sb) sl .log ty vd va rm sb

/-- VLOG2 (R65, R145). -/
def execVlog2 (sl : Slot) (ty : BitVec 2) (vd va : BitVec 5) (rm : BitVec 2) (sb : BitVec 5) (s : State) : Out :=
  vecFun s (.vlog2 sl ty vd va rm sb) sl .log2 ty vd va rm sb

/-- VRCP (R65, R145). -/
def execVrcp (sl : Slot) (ty : BitVec 2) (vd va : BitVec 5) (rm : BitVec 2) (sb : BitVec 5) (s : State) : Out :=
  vecFun s (.vrcp sl ty vd va rm sb) sl .rcp ty vd va rm sb

/-- VSQRT (R65, R145). -/
def execVsqrt (sl : Slot) (ty : BitVec 2) (vd va : BitVec 5) (rm : BitVec 2) (sb : BitVec 5) (s : State) : Out :=
  vecFun s (.vsqrt sl ty vd va rm sb) sl .sqrt ty vd va rm sb

/-- VRSQRT (R65, R145). -/
def execVrsqrt (sl : Slot) (ty : BitVec 2) (vd va : BitVec 5) (rm : BitVec 2) (sb : BitVec 5) (s : State) : Out :=
  vecFun s (.vrsqrt sl ty vd va rm sb) sl .rsqrt ty vd va rm sb

/-- VTANH (R65, R145). -/
def execVtanh (sl : Slot) (ty : BitVec 2) (vd va : BitVec 5) (rm : BitVec 2) (sb : BitVec 5) (s : State) : Out :=
  vecFun s (.vtanh sl ty vd va rm sb) sl .tanh ty vd va rm sb

/-- VERF (R65, R145). -/
def execVerf (sl : Slot) (ty : BitVec 2) (vd va : BitVec 5) (rm : BitVec 2) (sb : BitVec 5) (s : State) : Out :=
  vecFun s (.verf sl ty vd va rm sb) sl .erf ty vd va rm sb

/-- VSIG (R65, R145). -/
def execVsig (sl : Slot) (ty : BitVec 2) (vd va : BitVec 5) (rm : BitVec 2) (sb : BitVec 5) (s : State) : Out :=
  vecFun s (.vsig sl ty vd va rm sb) sl .sig ty vd va rm sb

/-! ### Generator -/

/-- The capture bytes of a generator instruction (R420): class, counter base and key. -/
def genCapture (x : Ctx) (c0 : BitVec 32) : List (Nat × Nat) :=
  [(0, 5), (512, c0.toNat), (516, x.c.tensor.toNat), (520, x.c.step.toNat), (528, (Tbl.get 0 x.c.keys 0).toNat),
   (532, (Tbl.get 0 x.c.keys 1).toNat), (536, (Tbl.get 0 x.c.keys 2).toNat), (540, (Tbl.get 0 x.c.keys 3).toNat)]

/-- VRAND: raw generator output for counters sb to sb + 3 (R152). -/
def execVrand (sl : Slot) (vd sb : BitVec 5) (domain : Bool) (s : State) : Out :=
  coreOnly s { i := .vrand sl vd sb domain, sl := sl, slot := slotM, legal := true, dests := [dV vd],
               body := fun x => vecBody 5 vd (packLanes 32 16 fun l =>
                 (bcgWord (x.seed.eval (x.c.rs sb + BitVec.ofNat 32 (l / 4)) domain) (l % 4)).toNat, 0)
                 (genCapture x (x.c.rs sb)) }

/-- VDROP: va's lanes kept where rnd16 ≥ T, zero elsewhere (R59, R153). -/
def execVdrop (sl : Slot) (ty : BitVec 2) (vd va sb sc : BitVec 5) (s : State) : Out :=
  coreOnly s { i := .vdrop sl ty vd va sb sc, sl := sl, slot := slotM, legal := decide (ty ≠ tyI32), dests := [dV vd],
               body := fun x =>
                 let t := (x.c.rs sc).toNat % 65536
                 let w := tyWidth ty
                 vecBody 5 vd (packLanes w (tyLanes ty) fun i =>
                   if t ≤ x.seed.rnd16 (x.c.rs sb + BitVec.ofNat 32 i) then laneAt (x.c.rv va) w i else 0, 0)
                   (genCapture x (x.c.rs sb)) }

end Sys2Proof.Machine
end

