-- ==== Sys2Proof/Machine/Hold.lean ====
section
/-! DEFINITION. How an island's hold ends (R86, R90): the commands it kept are taken up in their order. -/

namespace Sys2Proof.Machine

/-- The meaning of a command that a hold can keep: an instruction of a core or a switch's word. -/
def runKept (i : Instr) (s : State) : Out :=
  match i with
  | .add sl rd ra rb => execAdd sl rd ra rb s
  | .sub sl rd ra rb => execSub sl rd ra rb s
  | .and sl rd ra rb => execAnd sl rd ra rb s
  | .or sl rd ra rb => execOr sl rd ra rb s
  | .xor sl rd ra rb => execXor sl rd ra rb s
  | .shl sl rd ra rb => execShl sl rd ra rb s
  | .shr sl rd ra rb => execShr sl rd ra rb s
  | .sra sl rd ra rb => execSra sl rd ra rb s
  | .min sl rd ra rb => execMin sl rd ra rb s
  | .max sl rd ra rb => execMax sl rd ra rb s
  | .minu sl rd ra rb => execMinu sl rd ra rb s
  | .maxu sl rd ra rb => execMaxu sl rd ra rb s
  | .mul sl rd ra rb => execMul sl rd ra rb s
  | .mulh sl rd ra rb => execMulh sl rd ra rb s
  | .mulhu sl rd ra rb => execMulhu sl rd ra rb s
  | .addi sl rd ra imm => execAddi sl rd ra imm s
  | .andi sl rd ra imm => execAndi sl rd ra imm s
  | .ori sl rd ra imm => execOri sl rd ra imm s
  | .xori sl rd ra imm => execXori sl rd ra imm s
  | .shli sl rd ra imm => execShli sl rd ra imm s
  | .shri sl rd ra imm => execShri sl rd ra imm s
  | .srai sl rd ra imm => execSrai sl rd ra imm s
  | .movi sl rd ra imm => execMovi sl rd ra imm s
  | .movhi sl rd ra imm => execMovhi sl rd ra imm s
  | .movsh sl rd ra imm => execMovsh sl rd ra imm s
  | .cmp sl pd cond ra rb => execCmp sl pd cond ra rb s
  | .cmpi sl pd cond ra imm => execCmpi sl pd cond ra imm s
  | .pand sl pd pa na pb nb => execPand sl pd pa na pb nb s
  | .por sl pd pa na pb nb => execPor sl pd pa na pb nb s
  | .pxor sl pd pa na pb nb => execPxor sl pd pa na pb nb s
  | .br sl target => execBr sl target s
  | .loop sl rd target => execLoop sl rd target s
  | .jal sl rd target => execJal sl rd target s
  | .jr sl ra => execJr sl ra s
  | .smovFromSpecial sl rd code => execSmovFromSpecial sl rd code s
  | .smovToSpecial sl code ra => execSmovToSpecial sl code ra s
  | .wswap sl => execWswap sl s
  | .mma sl fmt q va seg => execMma sl fmt q va seg s
  | .qclr sl qa qb imm anc => execQclr sl qa qb imm anc s
  | .qread sl vd q tgt pos rm sat sb st off => execQread sl vd q tgt pos rm sat sb st off s
  | .qst sl sa q tgt pos rm sat sb st off => execQst sl sa q tgt pos rm sat sb st off s
  | .qstat sl st q pos => execQstat sl st q pos s
  | .qanc sl sd q pos => execQanc sl sd q pos s
  | .qres sl vd q pos => execQres sl vd q pos s
  | .vadd sl ty vd va vb rm sb => execVadd sl ty vd va vb rm sb s
  | .vsub sl ty vd va vb rm sb => execVsub sl ty vd va vb rm sb s
  | .vmul sl ty vd va vb rm sb => execVmul sl ty vd va vb rm sb s
  | .vfma sl ty vd va vb vc rm sb => execVfma sl ty vd va vb vc rm sb s
  | .vmin sl ty vd va vb => execVmin sl ty vd va vb s
  | .vmax sl ty vd va vb => execVmax sl ty vd va vb s
  | .vcmp sl ty cond vd va vb => execVcmp sl ty cond vd va vb s
  | .vsel sl ty vd va vb vc => execVsel sl ty vd va vb vc s
  | .vand sl vd va vb => execVand sl vd va vb s
  | .vor sl vd va vb => execVor sl vd va vb s
  | .vxor sl vd va vb => execVxor sl vd va vb s
  | .vredsum sl ty vd va => execVredsum sl ty vd va s
  | .vredmax sl ty vd va => execVredmax sl ty vd va s
  | .vredmin sl ty vd va => execVredmin sl ty vd va s
  | .vtestAny sl ty pd va => execVtestAny sl ty pd va s
  | .vtestAll sl ty pd va => execVtestAll sl ty pd va s
  | .vneg sl ty vd va => execVneg sl ty vd va s
  | .vabs sl ty vd va => execVabs sl ty vd va s
  | .vcopysign sl ty vd va vb => execVcopysign sl ty vd va vb s
  | .vcvtNarrow sl fmt vd va vb pos rm sat sb => execVcvtNarrow sl fmt vd va vb pos rm sat sb s
  | .vcvtWiden sl fmt vd va pos => execVcvtWiden sl fmt vd va pos s
  | .vpermSeg sl vd va sel => execVpermSeg sl vd va sel s
  | .vpermW sl vd va vb => execVpermW sl vd va vb s
  | .vpermB sl vd va vb => execVpermB sl vd va vb s
  | .vbcast sl vd sa => execVbcast sl vd sa s
  | .vins sl vd lane sa => execVins sl vd lane sa s
  | .vext sl sd va lane => execVext sl sd va lane s
  | .vexp sl ty vd va rm sb => execVexp sl ty vd va rm sb s
  | .vexp2 sl ty vd va rm sb => execVexp2 sl ty vd va rm sb s
  | .vlog sl ty vd va rm sb => execVlog sl ty vd va rm sb s
  | .vlog2 sl ty vd va rm sb => execVlog2 sl ty vd va rm sb s
  | .vrcp sl ty vd va rm sb => execVrcp sl ty vd va rm sb s
  | .vsqrt sl ty vd va rm sb => execVsqrt sl ty vd va rm sb s
  | .vrsqrt sl ty vd va rm sb => execVrsqrt sl ty vd va rm sb s
  | .vtanh sl ty vd va rm sb => execVtanh sl ty vd va rm sb s
  | .verf sl ty vd va rm sb => execVerf sl ty vd va rm sb s
  | .vsig sl ty vd va rm sb => execVsig sl ty vd va rm sb s
  | .vrand sl vd sb domain => execVrand sl vd sb domain s
  | .vdrop sl ty vd va sb sc => execVdrop sl ty vd va sb sc s
  | .ld sl rd sa imm size sx => execLd sl rd sa imm size sx s
  | .st sl rs sa imm size sx => execSt sl rs sa imm size sx s
  | .vld sl vd sa mode sc imm => execVld sl vd sa mode sc imm s
  | .vst sl vs sa mode sc imm => execVst sl vs sa mode sc imm s
  | .vsts sl va sa h imm => execVsts sl va sa h imm s
  | .sendRegister sl rid va imm => execSendRegister sl rid va imm s
  | .sendMemory sl rid sa imm => execSendMemory sl rid sa imm s
  | .recvVector sl vd ind entry sa => execRecvVector sl vd ind entry sa s
  | .recvScalar sl rd ind entry sa => execRecvScalar sl rd ind entry sa s
  | .streamPut sl ch va => execStreamPut sl ch va s
  | .rmemRd sl sa sb sc n => execRmemRd sl sa sb sc n s
  | .rmemWr sl sa sb sc n => execRmemWr sl sa sb sc n s
  | .rmemPut sl sa sb sc n => execRmemPut sl sa sb sc n s
  | .rmemXadd sl sa sb sc n => execRmemXadd sl sa sb sc n s
  | .rmemFadd sl sa sb sc n => execRmemFadd sl sa sb sc n s
  | .rmemCas sl sa sb sc n => execRmemCas sl sa sb sc n s
  | .rmemSinc sl sa sb sc n => execRmemSinc sl sa sb sc n s
  | .syncAdd sl n f sa imm => execSyncAdd sl n f sa imm s
  | .syncSet sl n f sa => execSyncSet sl n f sa s
  | .syncWait sl n f sa => execSyncWait sl n f sa s
  | .syncRd sl rd n f => execSyncRd sl rd n f s
  | .ccWait sl c sa => execCcWait sl c sa s
  | .waitCyc sl f sa imm => execWaitCyc sl f sa imm s
  | .breathEnd sl => execBreathEnd sl s
  | .stepSet sl sa => execStepSet sl sa s
  | .provBegin sl tag => execProvBegin sl tag s
  | .provEnd sl => execProvEnd sl s
  | .suspSet sl reason => execSuspSet sl reason s
  | .wld sl fmt part sa imm => execWld sl fmt part sa imm s
  | .routeWord n cl word adv => execRouteWord n cl word adv s
  | .idleWord n cl word adv => execIdleWord n cl word adv s
  | .endWord n cl word adv => execEndWord n cl word adv s
  | _ => .next s

/-- Kept commands taken up in order, each after the issue cycles it still lets pass; one that stalls keeps those behind it (R86). -/
def State.runHeld (n : Nat) : List (Nat × Instr) → State → State
  | [], s => s
  | (k, i) :: l, s =>
    let s1 := s.setIsland n { s.island n with skip := some k }
    let s2 := match runKept i s1 with | .next t => t | _ => s1
    State.runHeld n l (s2.unskip n)

/-- The hold's condition is met, or the breath is aborted and nothing that waits will issue (R235): route words that could not move in this cycle move, if none of them still stalls, and the kept commands issue
(R86, R187, R190). -/
def State.releaseHold (s : State) (n : Nat) : State :=
  let x := s.island n
  let st := if x.resume then s.switchStalls n else []
  if s.brt.aborted then s.setIsland n { x with stalls := [], held := [], skip := none, resume := false, halted := true }
  else if !st.isEmpty then s.setIsland n { x with stalls := st }
  else
    let s1 := s.setIsland n { x with stalls := [], held := [], resume := false }
    let s2 := if x.resume then (s1.liveClusters n).foldl (fun s cl => s.runWord n cl) s1 else s1
    State.runHeld n x.held s2

/-- ISLAND_HOLD_RELEASE: the island has stalled for `cycles` cycles and the stalling bundle's condition now holds (R86, R88); a stall that lasted
too long by then has faulted (R90). -/
def execIslandHoldRelease (n cycles : Nat) (s : State) : Out :=
  if n < s.numIslands then
    if (s.island n).stalls.isEmpty then .next s
    else
      let s1 := State.stallFor n cycles s
      .next (if (s1.island n).stalls.isEmpty then s1 else s1.releaseHold n)
  else .fault .absentUnit

/-- STALL_TIMEOUT: the island stalls for `cycles` more cycles with its condition unmet; a stall of more than ISL_STALL_LIMIT.cycles in a row
raises the stall-timeout fault (R90). -/
def execStallTimeout (n cycles : Nat) (s : State) : Out :=
  if n < s.numIslands then .next (State.stallFor n cycles s) else .fault .absentUnit

end Sys2Proof.Machine
end

