-- ==== Sys2Proof/Machine/Dispatch.lean ====
section
/-! DEFINITION. One arm for each command (spec/opcode_table.json): a direct call of its meaning. -/

namespace Sys2Proof.Machine

/-- The effect of a command on everything but the queue. -/
def exec (i : Instr) (s : State) : Host.Outcome State Fault Refusal :=
  match i with
  | .registerWrite addr bytes value hw => Sys2Proof.Machine.execRegisterWrite addr bytes value hw s
  | .rcClearingRead addr bytes same => Sys2Proof.Machine.execRcClearingRead addr bytes same s
  | .add sl rd ra rb => Sys2Proof.Machine.execAdd sl rd ra rb s
  | .sub sl rd ra rb => Sys2Proof.Machine.execSub sl rd ra rb s
  | .and sl rd ra rb => Sys2Proof.Machine.execAnd sl rd ra rb s
  | .or sl rd ra rb => Sys2Proof.Machine.execOr sl rd ra rb s
  | .xor sl rd ra rb => Sys2Proof.Machine.execXor sl rd ra rb s
  | .shl sl rd ra rb => Sys2Proof.Machine.execShl sl rd ra rb s
  | .shr sl rd ra rb => Sys2Proof.Machine.execShr sl rd ra rb s
  | .sra sl rd ra rb => Sys2Proof.Machine.execSra sl rd ra rb s
  | .min sl rd ra rb => Sys2Proof.Machine.execMin sl rd ra rb s
  | .max sl rd ra rb => Sys2Proof.Machine.execMax sl rd ra rb s
  | .minu sl rd ra rb => Sys2Proof.Machine.execMinu sl rd ra rb s
  | .maxu sl rd ra rb => Sys2Proof.Machine.execMaxu sl rd ra rb s
  | .mul sl rd ra rb => Sys2Proof.Machine.execMul sl rd ra rb s
  | .mulh sl rd ra rb => Sys2Proof.Machine.execMulh sl rd ra rb s
  | .mulhu sl rd ra rb => Sys2Proof.Machine.execMulhu sl rd ra rb s
  | .addi sl rd ra imm => Sys2Proof.Machine.execAddi sl rd ra imm s
  | .andi sl rd ra imm => Sys2Proof.Machine.execAndi sl rd ra imm s
  | .ori sl rd ra imm => Sys2Proof.Machine.execOri sl rd ra imm s
  | .xori sl rd ra imm => Sys2Proof.Machine.execXori sl rd ra imm s
  | .shli sl rd ra imm => Sys2Proof.Machine.execShli sl rd ra imm s
  | .shri sl rd ra imm => Sys2Proof.Machine.execShri sl rd ra imm s
  | .srai sl rd ra imm => Sys2Proof.Machine.execSrai sl rd ra imm s
  | .movi sl rd ra imm => Sys2Proof.Machine.execMovi sl rd ra imm s
  | .movhi sl rd ra imm => Sys2Proof.Machine.execMovhi sl rd ra imm s
  | .movsh sl rd ra imm => Sys2Proof.Machine.execMovsh sl rd ra imm s
  | .cmp sl pd cond ra rb => Sys2Proof.Machine.execCmp sl pd cond ra rb s
  | .cmpi sl pd cond ra imm => Sys2Proof.Machine.execCmpi sl pd cond ra imm s
  | .pand sl pd pa na pb nb => Sys2Proof.Machine.execPand sl pd pa na pb nb s
  | .por sl pd pa na pb nb => Sys2Proof.Machine.execPor sl pd pa na pb nb s
  | .pxor sl pd pa na pb nb => Sys2Proof.Machine.execPxor sl pd pa na pb nb s
  | .br sl target => Sys2Proof.Machine.execBr sl target s
  | .loop sl rd target => Sys2Proof.Machine.execLoop sl rd target s
  | .jal sl rd target => Sys2Proof.Machine.execJal sl rd target s
  | .jr sl ra => Sys2Proof.Machine.execJr sl ra s
  | .smovFromSpecial sl rd code => Sys2Proof.Machine.execSmovFromSpecial sl rd code s
  | .smovToSpecial sl code ra => Sys2Proof.Machine.execSmovToSpecial sl code ra s
  | .wswap sl => Sys2Proof.Machine.execWswap sl s
  | .islandHoldRelease n cycles => Sys2Proof.Machine.execIslandHoldRelease n cycles s
  | .stallTimeout n cycles => Sys2Proof.Machine.execStallTimeout n cycles s
  | .mma sl fmt q va seg => Sys2Proof.Machine.execMma sl fmt q va seg s
  | .qclr sl qa qb imm anc => Sys2Proof.Machine.execQclr sl qa qb imm anc s
  | .qread sl vd q tgt pos rm sat sb st off => Sys2Proof.Machine.execQread sl vd q tgt pos rm sat sb st off s
  | .qst sl sa q tgt pos rm sat sb st off => Sys2Proof.Machine.execQst sl sa q tgt pos rm sat sb st off s
  | .qstat sl st q pos => Sys2Proof.Machine.execQstat sl st q pos s
  | .qanc sl sd q pos => Sys2Proof.Machine.execQanc sl sd q pos s
  | .qres sl vd q pos => Sys2Proof.Machine.execQres sl vd q pos s
  | .vadd sl ty vd va vb rm sb => Sys2Proof.Machine.execVadd sl ty vd va vb rm sb s
  | .vsub sl ty vd va vb rm sb => Sys2Proof.Machine.execVsub sl ty vd va vb rm sb s
  | .vmul sl ty vd va vb rm sb => Sys2Proof.Machine.execVmul sl ty vd va vb rm sb s
  | .vfma sl ty vd va vb vc rm sb => Sys2Proof.Machine.execVfma sl ty vd va vb vc rm sb s
  | .vmin sl ty vd va vb => Sys2Proof.Machine.execVmin sl ty vd va vb s
  | .vmax sl ty vd va vb => Sys2Proof.Machine.execVmax sl ty vd va vb s
  | .vcmp sl ty cond vd va vb => Sys2Proof.Machine.execVcmp sl ty cond vd va vb s
  | .vsel sl ty vd va vb vc => Sys2Proof.Machine.execVsel sl ty vd va vb vc s
  | .vand sl vd va vb => Sys2Proof.Machine.execVand sl vd va vb s
  | .vor sl vd va vb => Sys2Proof.Machine.execVor sl vd va vb s
  | .vxor sl vd va vb => Sys2Proof.Machine.execVxor sl vd va vb s
  | .vredsum sl ty vd va => Sys2Proof.Machine.execVredsum sl ty vd va s
  | .vredmax sl ty vd va => Sys2Proof.Machine.execVredmax sl ty vd va s
  | .vredmin sl ty vd va => Sys2Proof.Machine.execVredmin sl ty vd va s
  | .vtestAny sl ty pd va => Sys2Proof.Machine.execVtestAny sl ty pd va s
  | .vtestAll sl ty pd va => Sys2Proof.Machine.execVtestAll sl ty pd va s
  | .vneg sl ty vd va => Sys2Proof.Machine.execVneg sl ty vd va s
  | .vabs sl ty vd va => Sys2Proof.Machine.execVabs sl ty vd va s
  | .vcopysign sl ty vd va vb => Sys2Proof.Machine.execVcopysign sl ty vd va vb s
  | .vcvtNarrow sl fmt vd va vb pos rm sat sb => Sys2Proof.Machine.execVcvtNarrow sl fmt vd va vb pos rm sat sb s
  | .vcvtWiden sl fmt vd va pos => Sys2Proof.Machine.execVcvtWiden sl fmt vd va pos s
  | .vpermSeg sl vd va sel => Sys2Proof.Machine.execVpermSeg sl vd va sel s
  | .vpermW sl vd va vb => Sys2Proof.Machine.execVpermW sl vd va vb s
  | .vpermB sl vd va vb => Sys2Proof.Machine.execVpermB sl vd va vb s
  | .vbcast sl vd sa => Sys2Proof.Machine.execVbcast sl vd sa s
  | .vins sl vd lane sa => Sys2Proof.Machine.execVins sl vd lane sa s
  | .vext sl sd va lane => Sys2Proof.Machine.execVext sl sd va lane s
  | .vexp sl ty vd va rm sb => Sys2Proof.Machine.execVexp sl ty vd va rm sb s
  | .vexp2 sl ty vd va rm sb => Sys2Proof.Machine.execVexp2 sl ty vd va rm sb s
  | .vlog sl ty vd va rm sb => Sys2Proof.Machine.execVlog sl ty vd va rm sb s
  | .vlog2 sl ty vd va rm sb => Sys2Proof.Machine.execVlog2 sl ty vd va rm sb s
  | .vrcp sl ty vd va rm sb => Sys2Proof.Machine.execVrcp sl ty vd va rm sb s
  | .vsqrt sl ty vd va rm sb => Sys2Proof.Machine.execVsqrt sl ty vd va rm sb s
  | .vrsqrt sl ty vd va rm sb => Sys2Proof.Machine.execVrsqrt sl ty vd va rm sb s
  | .vtanh sl ty vd va rm sb => Sys2Proof.Machine.execVtanh sl ty vd va rm sb s
  | .verf sl ty vd va rm sb => Sys2Proof.Machine.execVerf sl ty vd va rm sb s
  | .vsig sl ty vd va rm sb => Sys2Proof.Machine.execVsig sl ty vd va rm sb s
  | .vrand sl vd sb domain => Sys2Proof.Machine.execVrand sl vd sb domain s
  | .vdrop sl ty vd va sb sc => Sys2Proof.Machine.execVdrop sl ty vd va sb sc s
  | .ld sl rd sa imm size sx => Sys2Proof.Machine.execLd sl rd sa imm size sx s
  | .st sl rs sa imm size sx => Sys2Proof.Machine.execSt sl rs sa imm size sx s
  | .vld sl vd sa mode sc imm => Sys2Proof.Machine.execVld sl vd sa mode sc imm s
  | .vst sl vs sa mode sc imm => Sys2Proof.Machine.execVst sl vs sa mode sc imm s
  | .vsts sl va sa h imm => Sys2Proof.Machine.execVsts sl va sa h imm s
  | .sendRegister sl rid va imm => Sys2Proof.Machine.execSendRegister sl rid va imm s
  | .sendMemory sl rid sa imm => Sys2Proof.Machine.execSendMemory sl rid sa imm s
  | .recvVector sl vd ind entry sa => Sys2Proof.Machine.execRecvVector sl vd ind entry sa s
  | .recvScalar sl rd ind entry sa => Sys2Proof.Machine.execRecvScalar sl rd ind entry sa s
  | .streamPut sl ch va => Sys2Proof.Machine.execStreamPut sl ch va s
  | .rmemRd sl sa sb sc n => Sys2Proof.Machine.execRmemRd sl sa sb sc n s
  | .rmemWr sl sa sb sc n => Sys2Proof.Machine.execRmemWr sl sa sb sc n s
  | .rmemPut sl sa sb sc n => Sys2Proof.Machine.execRmemPut sl sa sb sc n s
  | .rmemXadd sl sa sb sc n => Sys2Proof.Machine.execRmemXadd sl sa sb sc n s
  | .rmemFadd sl sa sb sc n => Sys2Proof.Machine.execRmemFadd sl sa sb sc n s
  | .rmemCas sl sa sb sc n => Sys2Proof.Machine.execRmemCas sl sa sb sc n s
  | .rmemSinc sl sa sb sc n => Sys2Proof.Machine.execRmemSinc sl sa sb sc n s
  | .syncAdd sl n f sa imm => Sys2Proof.Machine.execSyncAdd sl n f sa imm s
  | .syncSet sl n f sa => Sys2Proof.Machine.execSyncSet sl n f sa s
  | .syncWait sl n f sa => Sys2Proof.Machine.execSyncWait sl n f sa s
  | .syncRd sl rd n f => Sys2Proof.Machine.execSyncRd sl rd n f s
  | .syncCounterAddition entry => Sys2Proof.Machine.execSyncCounterAddition entry s
  | .ccWait sl c sa => Sys2Proof.Machine.execCcWait sl c sa s
  | .waitCyc sl f sa imm => Sys2Proof.Machine.execWaitCyc sl f sa imm s
  | .breathEnd sl => Sys2Proof.Machine.execBreathEnd sl s
  | .stepSet sl sa => Sys2Proof.Machine.execStepSet sl sa s
  | .provBegin sl tag => Sys2Proof.Machine.execProvBegin sl tag s
  | .provEnd sl => Sys2Proof.Machine.execProvEnd sl s
  | .suspSet sl reason => Sys2Proof.Machine.execSuspSet sl reason s
  | .wld sl fmt part sa imm => Sys2Proof.Machine.execWld sl fmt part sa imm s
  | .routeWord n cl word adv => Sys2Proof.Machine.execRouteWord n cl word adv s
  | .idleWord n cl word adv => Sys2Proof.Machine.execIdleWord n cl word adv s
  | .endWord n cl word adv => Sys2Proof.Machine.execEndWord n cl word adv s
  | .crossingEntryVisible n q parityBad => Sys2Proof.Machine.execCrossingEntryVisible n q parityBad s
  | .crossingFreeIndication n q => Sys2Proof.Machine.execCrossingFreeIndication n q s
  | .landingInputRelease entry => Sys2Proof.Machine.execLandingInputRelease entry s
  | .heldLandingWrite n => Sys2Proof.Machine.execHeldLandingWrite n s
  | .tileScrub n u line ecc => Sys2Proof.Machine.execTileScrub n u line ecc s
  | .triggerFire => Sys2Proof.Machine.execTriggerFire s
  | .islandBreathComplete n => Sys2Proof.Machine.execIslandBreathComplete n s
  | .loadRecordRun index ecc => Sys2Proof.Machine.execLoadRecordRun index ecc s
  | .packageBoundary => Sys2Proof.Machine.execPackageBoundary s
  | .islandResetRequest n value => Sys2Proof.Machine.execIslandResetRequest n value s
  | .missedStart => Sys2Proof.Machine.execMissedStart s
  | .overrunCheck => Sys2Proof.Machine.execOverrunCheck s
  | .slipRequest msg => Sys2Proof.Machine.execSlipRequest msg s
  | .slipOrderSend => Sys2Proof.Machine.execSlipOrderSend s
  | .slipOrder msg => Sys2Proof.Machine.execSlipOrder msg s
  | .droopStretch n k => Sys2Proof.Machine.execDroopStretch n k s
  | .setpointRequestWrite value => Sys2Proof.Machine.execSetpointRequestWrite value s
  | .voltageRampEnd => Sys2Proof.Machine.execVoltageRampEnd s
  | .setpointStop duration => Sys2Proof.Machine.execSetpointStop duration s
  | .lpddrRewrite field ch => Sys2Proof.Machine.execLpddrRewrite field ch s
  | .lpddrPatrolScrub addr ecc => Sys2Proof.Machine.execLpddrPatrolScrub addr ecc s
  | .ondieCountRead field ch count => Sys2Proof.Machine.execOndieCountRead field ch count s
  | .deviceTemperatureReport device hot above temp => Sys2Proof.Machine.execDeviceTemperatureReport device hot above temp s
  | .lpddrOverLimitTrip device => Sys2Proof.Machine.execLpddrOverLimitTrip device s
  | .channelRetire field ch => Sys2Proof.Machine.execChannelRetire field ch s
  | .stmMove engine ecc => Sys2Proof.Machine.execStmMove engine ecc s
  | .stmTree engine ecc => Sys2Proof.Machine.execStmTree engine ecc s
  | .stmSync engine => Sys2Proof.Machine.execStmSync engine s
  | .stmEnd engine => Sys2Proof.Machine.execStmEnd engine s
  | .stmDescriptorComplete engine => Sys2Proof.Machine.execStmDescriptorComplete engine s
  | .distributorTile entry => Sys2Proof.Machine.execDistributorTile entry s
  | .launchQueueEntry entry => Sys2Proof.Machine.execLaunchQueueEntry entry s
  | .slotLaunch port slot => Sys2Proof.Machine.execSlotLaunch port slot s
  | .flitPresent port slot => Sys2Proof.Machine.execFlitPresent port slot s
  | .flitLanding port => Sys2Proof.Machine.execFlitLanding port s
  | .relayLaunch port slot => Sys2Proof.Machine.execRelayLaunch port slot s
  | .patchOrder msg => Sys2Proof.Machine.execPatchOrder msg s
  | .dronePathClose cause => Sys2Proof.Machine.execDronePathClose cause s
  | .coldTraining port env => Sys2Proof.Machine.execColdTraining port env s
  | .coldTrainingRetry retry => Sys2Proof.Machine.execColdTrainingRetry retry s
  | .trainingRecord port raw => Sys2Proof.Machine.execTrainingRecord port raw s
  | .flitReceive port raw fec => Sys2Proof.Machine.execFlitReceive port raw fec s
  | .replayTimer port => Sys2Proof.Machine.execReplayTimer port s
  | .spareRequest port msg => Sys2Proof.Machine.execSpareRequest port msg s
  | .spareGrant port msg => Sys2Proof.Machine.execSpareGrant port msg s
  | .spareLockComplete port => Sys2Proof.Machine.execSpareLockComplete port s
  | .spareDone port msg => Sys2Proof.Machine.execSpareDone port msg s
  | .retrainRequest port msg => Sys2Proof.Machine.execRetrainRequest port msg s
  | .retrainGrant port msg => Sys2Proof.Machine.execRetrainGrant port msg s
  | .quietStart port => Sys2Proof.Machine.execQuietStart port s
  | .relockComplete port delay16 rtt => Sys2Proof.Machine.execRelockComplete port delay16 rtt s
  | .resync port msg ack => Sys2Proof.Machine.execResync port msg ack s
  | .retrainTimeout port => Sys2Proof.Machine.execRetrainTimeout port s
  | .linkWithdraw port msg => Sys2Proof.Machine.execLinkWithdraw port msg s
  | .downNotice port msg => Sys2Proof.Machine.execDownNotice port msg s
  | .noValidFlitTimeout port => Sys2Proof.Machine.execNoValidFlitTimeout port s
  | .linkRetrainWrite port value => Sys2Proof.Machine.execLinkRetrainWrite port value s
  | .injectionControlWrite port offset value => Sys2Proof.Machine.execInjectionControlWrite port offset value s
  | .requestAdmit n u source => Sys2Proof.Machine.execRequestAdmit n u source s
  | .packetRoute port vc => Sys2Proof.Machine.execPacketRoute port vc s
  | .requestPacketArrival pkt ecc => Sys2Proof.Machine.execRequestPacketArrival pkt ecc s
  | .responseArrival pkt => Sys2Proof.Machine.execResponseArrival pkt s
  | .attemptTimer n u tracker => Sys2Proof.Machine.execAttemptTimer n u tracker s
  | .requestDeadline n u tracker => Sys2Proof.Machine.execRequestDeadline n u tracker s
  | .dedupEntryFree isPut index => Sys2Proof.Machine.execDedupEntryFree isPut index s
  | .routeInstall msg => Sys2Proof.Machine.execRouteInstall msg s
  | .routeReady msg => Sys2Proof.Machine.execRouteReady msg s
  | .routeFlip msg => Sys2Proof.Machine.execRouteFlip msg s
  | .epochFlip => Sys2Proof.Machine.execEpochFlip s
  | .epochRetire => Sys2Proof.Machine.execEpochRetire s
  | .timIncrWrite value => Sys2Proof.Machine.execTimIncrWrite value s
  | .timPhaseWrite value => Sys2Proof.Machine.execTimPhaseWrite value s
  | .timTrigWrite value => Sys2Proof.Machine.execTimTrigWrite value s
  | .refclkFail clock => Sys2Proof.Machine.execRefclkFail clock s
  | .timeSteerUpdate => Sys2Proof.Machine.execTimeSteerUpdate s
  | .holdoverTimeout => Sys2Proof.Machine.execHoldoverTimeout s
  | .tlqArm port entry value => Sys2Proof.Machine.execTlqArm port entry value s
  | .timedLaunch port entry slot => Sys2Proof.Machine.execTimedLaunch port entry slot s
  | .valveSwap unit => Sys2Proof.Machine.execValveSwap unit s
  | .hoursMark => Sys2Proof.Machine.execHoursMark s
  | .suppressedRecordFlush => Sys2Proof.Machine.execSuppressedRecordFlush s
  | .ledgerCompact => Sys2Proof.Machine.execLedgerCompact s
  | .stepReport msg => Sys2Proof.Machine.execStepReport msg s
  | .commitDecision => Sys2Proof.Machine.execCommitDecision s
  | .commit msg => Sys2Proof.Machine.execCommit msg s
  | .discard msg => Sys2Proof.Machine.execDiscard msg s
  | .tagSweep tag region => Sys2Proof.Machine.execTagSweep tag region s
  | .sweepDone msg => Sys2Proof.Machine.execSweepDone msg s
  | .replayOrder msg => Sys2Proof.Machine.execReplayOrder msg s
  | .digest msg => Sys2Proof.Machine.execDigest msg s
  | .replayLimitExpiry => Sys2Proof.Machine.execReplayLimitExpiry s
  | .localisationTest n cl record reproduced => Sys2Proof.Machine.execLocalisationTest n cl record reproduced s
  | .heartbeat msg => Sys2Proof.Machine.execHeartbeat msg s
  | .heartbeatSend => Sys2Proof.Machine.execHeartbeatSend s
  | .leadLossTimeout => Sys2Proof.Machine.execLeadLossTimeout s
  | .heartbeatLossTimeout package => Sys2Proof.Machine.execHeartbeatLossTimeout package s
  | .faultReport msg => Sys2Proof.Machine.execFaultReport msg s
  | .abort msg => Sys2Proof.Machine.execAbort msg s
  | .restart msg => Sys2Proof.Machine.execRestart msg s
  | .packageLost package => Sys2Proof.Machine.execPackageLost package s
  | .promote msg => Sys2Proof.Machine.execPromote msg s
  | .eventSuppressSummary => Sys2Proof.Machine.execEventSuppressSummary s
  | .healthDigestUpdate => Sys2Proof.Machine.execHealthDigestUpdate s
  | .authTagSend port => Sys2Proof.Machine.execAuthTagSend port s
  | .authTag port msg ok => Sys2Proof.Machine.execAuthTag port msg ok s
  | .tagRequest msg => Sys2Proof.Machine.execTagRequest msg s
  | .authTagTimeout port => Sys2Proof.Machine.execAuthTagTimeout port s
  | .sessionTimeout session => Sys2Proof.Machine.execSessionTimeout session s
  | .powerOnReset => Sys2Proof.Machine.execPowerOnReset s
  | .pinReset => Sys2Proof.Machine.execPinReset s
  | .thermalReset => Sys2Proof.Machine.execThermalReset s
  | .bocalFailover => Sys2Proof.Machine.execBocalFailover s
  | .fieldControllerError field => Sys2Proof.Machine.execFieldControllerError field s
  | .ctlForward routing msgs => Sys2Proof.Machine.execCtlForward routing msgs s
  | .ctlBroadcastForward routing msgs => Sys2Proof.Machine.execCtlBroadcastForward routing msgs s
  | .ctlDropTimeout => Sys2Proof.Machine.execCtlDropTimeout s
  | .admitNoticeMessage msg => Sys2Proof.Machine.execAdmitNoticeMessage msg s
  | .admissionOpen => Sys2Proof.Machine.execAdmissionOpen s
  | .admitted => Sys2Proof.Machine.execAdmitted s
  | .admissionTimeout => Sys2Proof.Machine.execAdmissionTimeout s
  | .imageReady msg => Sys2Proof.Machine.execImageReady msg s
  | .breath0LoadDone => Sys2Proof.Machine.execBreath0LoadDone s
  | .startOrder msg => Sys2Proof.Machine.execStartOrder msg s
  | .withdrawNotice msg => Sys2Proof.Machine.execWithdrawNotice msg s
  | .withdrawClose => Sys2Proof.Machine.execWithdrawClose s
  | .objRead req object index offset length => Sys2Proof.Machine.execObjRead req object index offset length s
  | .objWrite req object index offset chunk => Sys2Proof.Machine.execObjWrite req object index offset chunk s
  | .objCommit req object index total verdict => Sys2Proof.Machine.execObjCommit req object index total verdict s
  | .objDiscard req object index => Sys2Proof.Machine.execObjDiscard req object index s
  | .makeReport req nonce => Sys2Proof.Machine.execMakeReport req nonce s
  | .sessionOpen req owner record sid challenge next verdict => Sys2Proof.Machine.execSessionOpen req owner record sid challenge next verdict s
  | .sessionClose req => Sys2Proof.Machine.execSessionClose req s
  | .timePoll req arrival departure => Sys2Proof.Machine.execTimePoll req arrival departure s
  | .timeSteer req writeIncr writePhase incr phase => Sys2Proof.Machine.execTimeSteer req writeIncr writePhase incr phase s
  | .eventAck req seq => Sys2Proof.Machine.execEventAck req seq s
  | .regRead req addr => Sys2Proof.Machine.execRegRead req addr s
  | .regWrite req addr value => Sys2Proof.Machine.execRegWrite req addr value s
  | .admitRequest req beat => Sys2Proof.Machine.execAdmitRequest req beat s
  | .admitNotice req joiner beat => Sys2Proof.Machine.execAdmitNotice req joiner beat s
  | .withdraw req => Sys2Proof.Machine.execWithdraw req s
  | .start req t0 => Sys2Proof.Machine.execStart req t0 s
  | .stop req => Sys2Proof.Machine.execStop req s
  | .decide req step choice => Sys2Proof.Machine.execDecide req step choice s
  | .update req slot => Sys2Proof.Machine.execUpdate req slot s
  | .confirm req => Sys2Proof.Machine.execConfirm req s
  | .reset req => Sys2Proof.Machine.execReset req s
  | .toneRun req pack => Sys2Proof.Machine.execToneRun req pack s
  | .ckptRead req addr length => Sys2Proof.Machine.execCkptRead req addr length s
  | .entdaa address => Sys2Proof.Machine.execEntdaa address s
  | .rstdaa => Sys2Proof.Machine.execRstdaa s
  | .setnewda address => Sys2Proof.Machine.execSetnewda address s
  | .getpid => Sys2Proof.Machine.execGetpid s
  | .getbcr => Sys2Proof.Machine.execGetbcr s
  | .getdcr => Sys2Proof.Machine.execGetdcr s
  | .getstatus => Sys2Proof.Machine.execGetstatus s
  | .enec events => Sys2Proof.Machine.execEnec events s
  | .disec events => Sys2Proof.Machine.execDisec events s
  | .i3cPrivateWrite bytes => Sys2Proof.Machine.execI3cPrivateWrite bytes s
  | .i3cPrivateRead count => Sys2Proof.Machine.execI3cPrivateRead count s
  | .mirrorRefresh => Sys2Proof.Machine.execMirrorRefresh s
  | .pwrGoodDeassert => Sys2Proof.Machine.execPwrGoodDeassert s
  | .inputOutOfRange => Sys2Proof.Machine.execInputOutOfRange s
  | .lowInput => Sys2Proof.Machine.execLowInput s
  | .powerControlUpdate average => Sys2Proof.Machine.execPowerControlUpdate average s
  | .thermalSample field temp => Sys2Proof.Machine.execThermalSample field temp s
  | .openFibreControl port signals => Sys2Proof.Machine.execOpenFibreControl port signals s
  | .bocPowerCfgWrite value => Sys2Proof.Machine.execBocPowerCfgWrite value s
  | .resetRelease env => Sys2Proof.Machine.execResetRelease env s
  | .referenceClockTick => Sys2Proof.Machine.execReferenceClockTick s
  | .dronePathFullyOpen pair => Sys2Proof.Machine.execDronePathFullyOpen pair s
  | .dronePathFullyClosed pair => Sys2Proof.Machine.execDronePathFullyClosed pair s
  | .testAccessPortInstruction instr => Sys2Proof.Machine.execTestAccessPortInstruction instr s

end Sys2Proof.Machine
end

