-- ==== Sys2Proof/Machine/Encoding.lean ====
section
/-! DEFINITION. What a bundle's 128 bits say: its header, its three slots, and the fields of every form (R122, R123, R127, R128, R131, R134,
R135, R137, R145, R146, R155, R159, R160, R474). `bundleCommands` gives the commands that issue a bundle; a slot whose bits are a reserved
encoding that no command's operands can hold has `res` set. -/

namespace Sys2Proof.Machine

/-- Bits lo + n - 1 : lo of a slot. -/
def slotField (w : BitVec 46) (lo n : Nat) : BitVec n := w.extractLsb' lo n

/-- One bit of a slot. -/
def slotBit (w : BitVec 46) (i : Nat) : Bool := w.getLsbD i

/-- Whether every bit of a slot from `lo` on is zero: the bits above a form's fields are reserved (R123, R127, R134, R159). -/
def zeroFrom (w : BitVec 46) (lo : Nat) : Bool := decide (w >>> lo = 0)

/-- The slot header of a slot word: its predicate (R123) and whether its bits are reserved where no operand shows it. -/
def takeSlot (sl : Slot) (w : BitVec 46) (ok : Bool) : Slot := { sl with pred := slotField w 0 3, res := !ok }

/-- A scalar operation on two scalars, by its opcode (R128, form SR). -/
def srCommand (op : Nat) (sl : Slot) (rd ra rb : BitVec 5) : Option Instr :=
  match op with
  | 0x01 => some (.add sl rd ra rb) | 0x02 => some (.sub sl rd ra rb) | 0x03 => some (.and sl rd ra rb)
  | 0x04 => some (.or sl rd ra rb) | 0x05 => some (.xor sl rd ra rb) | 0x06 => some (.shl sl rd ra rb)
  | 0x07 => some (.shr sl rd ra rb) | 0x08 => some (.sra sl rd ra rb) | 0x09 => some (.min sl rd ra rb)
  | 0x0A => some (.max sl rd ra rb) | 0x0B => some (.minu sl rd ra rb) | 0x0C => some (.maxu sl rd ra rb)
  | 0x0D => some (.mul sl rd ra rb) | 0x0E => some (.mulh sl rd ra rb) | 0x0F => some (.mulhu sl rd ra rb)
  | _ => none

/-- A scalar operation with an immediate, by its opcode (R128, form SI; movsh by R474). -/
def siCommand (op : Nat) (sl : Slot) (rd ra : BitVec 5) (imm : BitVec 16) : Option Instr :=
  match op with
  | 0x10 => some (.addi sl rd ra imm) | 0x11 => some (.andi sl rd ra imm) | 0x12 => some (.ori sl rd ra imm)
  | 0x13 => some (.xori sl rd ra imm) | 0x14 => some (.shli sl rd ra imm) | 0x15 => some (.shri sl rd ra imm)
  | 0x16 => some (.srai sl rd ra imm) | 0x17 => some (.movi sl rd ra imm) | 0x18 => some (.movhi sl rd ra imm)
  | 0x1E => some (.movsh sl rd ra imm)
  | _ => none

/-- The command of an S slot's 38 bits (R127, R128). An opcode that the table does not list is a reserved encoding (R123), given as a
`jr` with `res` set, which names no destination. -/
def sCommand (sl : Slot) (w : BitVec 46) : Instr :=
  let f := fun lo => slotField w lo 5
  let p := fun lo => slotField w lo 3
  let rr := fun (op : Nat) => srCommand op (takeSlot sl w (zeroFrom w 24)) (f 9) (f 14) (f 19)
  let ri := fun (op : Nat) => siCommand op (takeSlot sl w (zeroFrom w 35)) (f 9) (f 14) (slotField w 19 16)
  let sp := takeSlot sl w (zeroFrom w 20)
  let sb := fun (rest : Bool) => takeSlot sl w (zeroFrom w 30 && rest)
  let op := (slotField w 3 6).toNat
  match rr op with
  | some i => i
  | none =>
    match ri op with
    | some i => i
    | none =>
      match op with
      | 0x19 => .cmp (takeSlot sl w (zeroFrom w 25)) (p 9) (p 12) (f 15) (f 20)
      | 0x1A => .cmpi (takeSlot sl w (zeroFrom w 36)) (p 9) (p 12) (f 15) (slotField w 20 16)
      | 0x1B => .pand sp (p 9) (p 12) (slotBit w 15) (p 16) (slotBit w 19)
      | 0x1C => .por sp (p 9) (p 12) (slotBit w 15) (p 16) (slotBit w 19)
      | 0x1D => .pxor sp (p 9) (p 12) (slotBit w 15) (p 16) (slotBit w 19)
      | 0x20 => .br (sb (decide (f 9 = 0 ∧ f 14 = 0))) (slotField w 19 11)
      | 0x21 => .loop (sb (decide (f 14 = 0))) (f 9) (slotField w 19 11)
      | 0x22 => .jal (sb (decide (f 14 = 0))) (f 9) (slotField w 19 11)
      | 0x23 => .jr (sb (decide (f 9 = 0 ∧ slotField w 19 11 = 0))) (f 14)
      | 0x28 => .smovFromSpecial (takeSlot sl w (zeroFrom w 19)) (f 9) (f 14)
      | 0x29 => .smovToSpecial (takeSlot sl w (zeroFrom w 19)) (f 9) (f 14)
      | 0x2C => .wswap (takeSlot sl w (zeroFrom w 9))
      | _ => .jr (takeSlot sl w false) 0

/-- The fields of form MV (R134). -/
structure MvFields where
  ty   : BitVec 2
  vd   : BitVec 5
  va   : BitVec 5
  vb   : BitVec 5
  vc   : BitVec 5
  rm   : BitVec 2
  sb   : BitVec 5
  cond : BitVec 3
  top  : Bool
deriving DecidableEq, Repr

/-- Form MV taken apart; `top` says that the bits above it are zero. -/
def mvFields (w : BitVec 46) : MvFields :=
  { ty := slotField w 9 2, vd := slotField w 11 5, va := slotField w 16 5, vb := slotField w 21 5, vc := slotField w 26 5,
    rm := slotField w 31 2, sb := slotField w 33 5, cond := slotField w 38 3, top := zeroFrom w 41 }

/-- A rounding vector operation of two sources (R145): vc and the condition are unused (R146). -/
def mvRound2 (op : Nat) (sl : Slot) (m : MvFields) : Option Instr :=
  match op with
  | 0x08 => some (.vadd sl m.ty m.vd m.va m.vb m.rm m.sb) | 0x09 => some (.vsub sl m.ty m.vd m.va m.vb m.rm m.sb)
  | 0x0A => some (.vmul sl m.ty m.vd m.va m.vb m.rm m.sb)
  | _ => none

/-- An elementary function by its opcode (R145, in that opcode order). -/
def mvFunction (op : Nat) (sl : Slot) (m : MvFields) : Option Instr :=
  match op with
  | 0x28 => some (.vexp sl m.ty m.vd m.va m.rm m.sb) | 0x29 => some (.vexp2 sl m.ty m.vd m.va m.rm m.sb)
  | 0x2A => some (.vlog sl m.ty m.vd m.va m.rm m.sb) | 0x2B => some (.vlog2 sl m.ty m.vd m.va m.rm m.sb)
  | 0x2C => some (.vrcp sl m.ty m.vd m.va m.rm m.sb) | 0x2D => some (.vsqrt sl m.ty m.vd m.va m.rm m.sb)
  | 0x2E => some (.vrsqrt sl m.ty m.vd m.va m.rm m.sb) | 0x2F => some (.vtanh sl m.ty m.vd m.va m.rm m.sb)
  | 0x30 => some (.verf sl m.ty m.vd m.va m.rm m.sb) | 0x31 => some (.vsig sl m.ty m.vd m.va m.rm m.sb)
  | _ => none

/-- The commands of form MV (R145, R146). Fields that a row does not use must be 0, and so must a type that the row does not list and its
command does not carry. -/
def mvCommand (op : Nat) (sl : Slot) (w : BitVec 46) : Option Instr :=
  let m := mvFields w
  let z5 := fun (x : BitVec 5) => decide (x = 0)
  let still := decide (m.rm = 0) && z5 m.sb
  let t := fun (ok : Bool) => takeSlot sl w (m.top && ok)
  let c0 := decide (m.cond = 0)
  match mvRound2 op (t (z5 m.vc && c0)) m with
  | some i => some i
  | none =>
    match mvFunction op (t (z5 m.vb && z5 m.vc && c0)) m with
    | some i => some i
    | none =>
      let two := t (z5 m.vc && c0 && still)
      let one := t (z5 m.vb && z5 m.vc && c0 && still)
      let typed := fun (ty : BitVec 2) => t (z5 m.vc && c0 && still && decide (m.ty = ty))
      let lane := t (z5 m.vb && c0 && still && decide (m.ty = 2))
      match op with
      | 0x0B => some (.vfma (t c0) m.ty m.vd m.va m.vb m.vc m.rm m.sb)
      | 0x0C => some (.vmin two m.ty m.vd m.va m.vb)
      | 0x0D => some (.vmax two m.ty m.vd m.va m.vb)
      | 0x0E => some (.vcmp (t (z5 m.vc && still)) m.ty m.cond m.vd m.va m.vb)
      | 0x0F => some (.vsel (t (c0 && still)) m.ty m.vd m.va m.vb m.vc)
      | 0x10 => some (.vand (typed 2) m.vd m.va m.vb)
      | 0x11 => some (.vor (typed 2) m.vd m.va m.vb)
      | 0x12 => some (.vxor (typed 2) m.vd m.va m.vb)
      | 0x13 => some (.vredsum one m.ty m.vd m.va)
      | 0x14 => some (.vredmax one m.ty m.vd m.va)
      | 0x15 => some (.vredmin one m.ty m.vd m.va)
      | 0x16 =>
        let test := t (z5 m.vb && z5 m.vc && still && decide (m.cond.toNat < 2) && decide (slotField w 14 2 = 0))
        some (if m.cond = 1 then .vtestAll test m.ty (slotField w 11 3) m.va else .vtestAny test m.ty (slotField w 11 3) m.va)
      | 0x17 =>
        let sign := fun (unary : Bool) => t (z5 m.vc && still && (!unary || z5 m.vb) && decide (m.cond.toNat < 3))
        some (match m.cond.toNat with
          | 0 => .vneg (sign true) m.ty m.vd m.va
          | 1 => .vabs (sign true) m.ty m.vd m.va
          | _ => .vcopysign (sign false) m.ty m.vd m.va m.vb)
      | 0x1D => some (.vpermW (typed 2) m.vd m.va m.vb)
      | 0x1E => some (.vpermB (typed 3) m.vd m.va m.vb)
      | 0x1F => some (.vbcast (t (z5 m.vb && z5 m.vc && c0 && still && decide (m.ty = 2))) m.vd m.va)
      | 0x20 => some (.vins lane m.vd m.vc m.va)
      | 0x21 => some (.vext lane m.vd m.va m.vc)
      | 0x38 => some (.vrand (t (z5 m.va && z5 m.vb && z5 m.vc && decide (m.ty = 0) && decide (m.rm = 0) && decide (m.cond.toNat < 2)))
          m.vd m.sb (m.cond.getLsbD 0))
      | 0x39 => some (.vdrop (t (z5 m.vc && c0 && decide (m.rm = 0))) m.ty m.vd m.va m.sb m.vb)
      | _ => none

/-- The command of an M slot's 46 bits (R134, R137, R145, R148, R151). An unlisted opcode is given as a `qst` without destinations and
with `res` set. -/
def mCommand (sl : Slot) (w : BitVec 46) : Instr :=
  let f := fun lo => slotField w lo 5
  let all := takeSlot sl w true
  let ma := takeSlot sl w (zeroFrom w 20)
  let op := (slotField w 3 6).toNat
  match mvCommand op sl w with
  | some i => i
  | none =>
    match op with
    | 0x01 => .mma (takeSlot sl w (zeroFrom w 27)) (slotField w 9 4) (f 13) (f 18) (slotField w 23 4)
    | 0x02 => .qclr (takeSlot sl w (zeroFrom w 31)) (f 9) (f 14) (slotBit w 19) (slotField w 20 11)
    | 0x03 => .qread all (f 9) (f 14) (slotField w 19 4) (slotField w 23 3) (slotField w 26 2) (slotBit w 28) (f 29) (f 34) (slotField w 39 7)
    | 0x04 => .qst all (f 9) (f 14) (slotField w 19 4) (slotField w 23 3) (slotField w 26 2) (slotBit w 28) (f 29) (f 34) (slotField w 39 7)
    | 0x05 => .qstat ma (f 9) (f 14) (slotBit w 19)
    | 0x06 => .qanc ma (f 9) (f 14) (slotBit w 19)
    | 0x07 => .qres ma (f 9) (f 14) (slotBit w 19)
    | 0x18 =>
      if slotBit w 13 then
        .vcvtWiden (takeSlot sl w (zeroFrom w 40 && decide (f 24 = 0) && decide (slotField w 32 2 = 0) && !slotBit w 34 && decide (f 35 = 0)))
          (slotField w 9 4) (f 14) (f 19) (slotField w 29 3)
      else
        .vcvtNarrow (takeSlot sl w (zeroFrom w 40)) (slotField w 9 4) (f 14) (f 19) (f 24) (slotField w 29 3) (slotField w 32 2) (slotBit w 34) (f 35)
    | 0x1C => .vpermSeg (takeSlot sl w (zeroFrom w 43)) (f 9) (f 14) (slotField w 19 24)
    | _ => .qst (takeSlot sl w false) 0 0 0 0 0 false 0 0 0

/-- A remote operation by its op field (R170); 7 is reserved. -/
def rmemCommand (op : Nat) (sl : Slot) (sa sb sc : BitVec 5) (n : BitVec 8) : Option Instr :=
  match op with
  | 0 => some (.rmemRd sl sa sb sc n) | 1 => some (.rmemWr sl sa sb sc n) | 2 => some (.rmemPut sl sa sb sc n)
  | 3 => some (.rmemXadd sl sa sb sc n) | 4 => some (.rmemFadd sl sa sb sc n) | 5 => some (.rmemCas sl sa sb sc n)
  | 6 => some (.rmemSinc sl sa sb sc n)
  | _ => none

/-- The command of an X slot's 38 bits (R155, R159, R160). Where f is 0, the bits above the scalar field up to the top of the immediate
stand in the command's immediate, which must then be 0. An unlisted opcode is given as a `breath.end` with `res` set. -/
def xCommand (sl : Slot) (w : BitVec 46) : Instr :=
  let f := fun lo => slotField w lo 5
  let i16 := fun lo => slotField w lo 16
  let i11 := fun lo => slotField w lo 11
  let all := takeSlot sl w (zeroFrom w 38)
  let xs := takeSlot sl w (zeroFrom w 33)
  let xc := takeSlot sl w (zeroFrom w 34)
  let xcNo := takeSlot sl w (zeroFrom w 23)
  let xr := takeSlot sl w (zeroFrom w 21 && (!slotBit w 14 || !slotBit w 20))
  let none9 := takeSlot sl w (zeroFrom w 9)
  match (slotField w 3 6).toNat with
  | 0x01 => .ld all (f 9) (f 14) (i16 19) (slotField w 35 2) (slotBit w 37)
  | 0x02 => .st all (f 9) (f 14) (i16 19) (slotField w 35 2) (slotBit w 37)
  | 0x03 => .vld all (f 9) (f 14) (slotField w 19 3) (f 22) (i11 27)
  | 0x04 => .vst all (f 9) (f 14) (slotField w 19 3) (f 22) (i11 27)
  | 0x05 => .vsts (takeSlot sl w (zeroFrom w 36)) (f 9) (f 14) (slotBit w 19) (i16 20)
  | 0x08 => .sendRegister xs (slotField w 9 8) (f 17) (i11 22)
  | 0x09 => .sendMemory xs (slotField w 9 8) (f 17) (i11 22)
  | 0x0A => .recvVector xr (f 9) (slotBit w 14) (slotField w 15 6) (f 15)
  | 0x0B => .recvScalar xr (f 9) (slotBit w 14) (slotField w 15 6) (f 15)
  | 0x0C => .streamPut (takeSlot sl w (zeroFrom w 17)) (slotField w 14 3) (f 9)
  | 0x10 =>
    let x := takeSlot sl w (zeroFrom w 35)
    (rmemCommand (slotField w 9 3).toNat x (f 12) (f 17) (f 22) (slotField w 27 8)).getD (.breathEnd (takeSlot sl w false))
  | 0x18 => .syncAdd xc (slotField w 9 8) (slotBit w 17) (f 18) (if slotBit w 17 then i16 18 else i16 23)
  | 0x19 => .syncSet xcNo (slotField w 9 8) (slotBit w 17) (f 18)
  | 0x1A => .syncWait xcNo (slotField w 9 8) (slotBit w 17) (f 18)
  | 0x1B => .syncRd xcNo (f 18) (slotField w 9 8) (slotBit w 17)
  | 0x1C => .ccWait (takeSlot sl w (zeroFrom w 26)) (slotField w 9 12) (f 21)
  | 0x20 => .waitCyc xc (slotBit w 9) (f 10) (if slotBit w 9 then slotField w 10 24 else slotField w 15 24)
  | 0x21 => .breathEnd none9
  | 0x22 => .stepSet (takeSlot sl w (zeroFrom w 14)) (f 9)
  | 0x23 => .provBegin (takeSlot sl w (zeroFrom w 11)) (slotField w 9 2)
  | 0x24 => .provEnd none9
  | 0x25 => .suspSet (takeSlot sl w (zeroFrom w 25)) (i16 9)
  | 0x3C => .wld (takeSlot sl w (zeroFrom w 36)) (slotField w 9 4) (slotField w 13 2) (f 15) (i16 20)
  | _ => .breathEnd (takeSlot sl w false)

/-- What the world decides about a bundle as it issues: the cycles that pass before it, what its fetch meets, and for each slot the lanes
that fail a check and what its memory read meets. -/
structure BundleEnv where
  site  : Site
  adv   : Nat
  fetch : Ecc
  chk   : Nat → BitVec 16
  ecc   : Nat → Ecc

/-- The commands that issue a bundle's valid slots, in the order S, M, X (R77, R122): the first lets the cycles pass. A bundle without
valid slots gives none: a core fetches it itself when a cycle passes with no command. -/
def bundleCommands (env : BundleEnv) (w : BitVec 128) : List Instr :=
  let sl := fun (slot : Nat) => ({ site := env.site, pred := 0, adv := 0, eog := w.getLsbD 3, chk := env.chk slot, ecc := env.ecc slot,
                                   res := false, hdr := w.extractLsb' 4 2, fetch := env.fetch } : Slot)
  let first := fun (yes : Bool) (slot : Nat) => { sl slot with adv := if yes then env.adv else 0 }
  let s := w.getLsbD 0
  let m := w.getLsbD 1
  let x := w.getLsbD 2
  (if s then [sCommand (first true 0) ((w.extractLsb' 6 38).zeroExtend 46)] else []) ++
  (if m then [mCommand (first (!s) 1) (w.extractLsb' 44 46)] else []) ++
  (if x then [xCommand (first (!s && !m) 2) ((w.extractLsb' 90 38).zeroExtend 46)] else [])

end Sys2Proof.Machine
end

