-- ==== Sys2Proof/Safety.lean ====
section
/-! DEFINITION. What the statements mean by an answer, by a machine in good order, by an instruction that runs, by what issuing one
leaves behind, and by memory that a command leaves alone. -/

namespace Sys2Proof.Machine

/-- The command is carried out: the answer is a next state. -/
def Completes (o : Out) : Prop := ∃ t, o = .next t

/-- The command is carried out and its next state has the property. -/
def CompletesWith (o : Out) (p : State → Prop) : Prop := ∃ t, o = .next t ∧ p t

/-- An island issues: it does not stall, and no breath has been aborted (R86, R235). -/
def State.issues (s : State) (n : Nat) : Prop :=
  (s.island n).stalls = [] ∧ (s.island n).skip = none ∧ s.brt.aborted = false ∧ (s.island n).halted = false

/-- Nothing has gone wrong on the package: no breath aborted, no start missed, no Bocal lost, no trip (R206, R235, R475, R517). -/
def State.sound (s : State) : Prop :=
  s.brt.aborted = false ∧ s.brt.missed = false ∧ s.boc.dead = false ∧ s.boc.selfCheckFailed = false ∧ s.pins.trip = false

/-- An instruction with header `sl` reaches its turn in slot `slot` of core `u` of island `n`: the core exists and its island
issues; once the issue cycles it lets pass are over the machine is at `t` and the island still issues; the core is in a breath
and has not ended, or no breath runs; and its bundle is fetched whole, within a group of at most eight, with no reserved bit in its
header or this slot (R80, R105, R106, R122, R123). -/
structure Reaches (s t : State) (sl : Slot) (slot n u : Nat) : Prop where
  site : sl.site = .core n u
  here : s.hasCore n u = true
  free : s.issues n
  apart : sl.adv = 0 → (s.core n u).open_ = true → slot ∉ (s.core n u).slots
  reached : State.advance n sl.adv s = (t, 0)
  still : t.issues n
  live : (t.core n u).run = .issuing ∨ ((t.core n u).run = .idle ∧ t.getF (aIslBreath n) F.islBreath_state ≠ 1)
  fetched : (t.ctx n u sl).fetchFault = none
  clean : sl.fetch = .clean ∧ sl.hdr = 0 ∧ sl.res = false
  group : (t.core n u).open_ = true ∨ (t.core n u).group < 8
  whole : (t.core n u).causes = []

/-- An instruction runs: it reaches its turn, no other slot of the bundle has one of its destinations `dests` (R80), its
predicate is true (R123), and no check of the hardware fails in it (R71). -/
structure Runs (s t : State) (sl : Slot) (slot : Nat) (dests : List Nat) (n u : Nat) : Prop extends Reaches s t sl slot n u where
  single : dupDest (t.core n u).dests slot dests = false
  pred : (t.core n u).rp sl.pred = true
  sound : sl.chk = 0

/-- The machine after instruction `i` has issued at `t`: its core's bundle holds the slot, and the effects are in flight with
their latencies (R81); nothing else has changed. -/
def State.issued (t : State) (i : Instr) (sl : Slot) (slot : Nat) (dests : List Nat) (n u : Nat) (effs : List (Nat × Eff)) : State :=
  t.setCore n u (((t.core n u).openSlot i sl slot dests).launch effs)

/-- As `issued`, with the transfer that its group takes when it ends (R129). -/
def State.issuedJump (t : State) (i : Instr) (sl : Slot) (slot : Nat) (dests : List Nat) (n u : Nat) (effs : List (Nat × Eff))
    (target : Nat) : State :=
  t.setCore n u { ((t.core n u).openSlot i sl slot dests).launch effs with jump := some target }

/-- An instruction runs on control core `k`: it has not stopped, its bundle lies in the SRAM within a group of at most eight, no
other slot of the bundle has its destination, and its predicate is true (R474); `c` is the core once the bundle before has closed. -/
structure CtlRuns (s : State) (sl : Slot) (slot : Nat) (dests : List Nat) (k : Nat) (c : CtlCore) : Prop where
  site : sl.site = .ctl k
  here : k < 4
  going : (s.ctlCore k).stopped = false
  closed : c = if sl.adv = 0 then s.ctlCore k else (s.ctlCore k).closeBundle
  group : c.group < 8
  inSram : c.pc < sramSize
  single : dupDest c.dests slot dests = false
  pred : c.rp sl.pred = true
  clean : sl.res = false ∧ sl.hdr = 0

/-- A control core's bundle with one more slot. -/
def CtlCore.openSlot (c : CtlCore) (sl : Slot) (slot : Nat) (dests : List Nat) : CtlCore :=
  { c with open_ := true, eog := sl.eog || (c.open_ && c.eog), dests := c.dests ++ dests.map fun d => (slot, d) }

/-- The machine after an instruction has issued on a control core: its bundle holds the slot and the writes, which deliver
before the next bundle reads (R81, R474). -/
def State.ctlIssued (s : State) (sl : Slot) (slot : Nat) (dests : List Nat) (k : Nat) (c : CtlCore)
    (regs : List (Nat × BitVec 64)) (preds : List (Nat × Bool)) : State :=
  (if sl.adv = 0 then s else s.setCtlCore k c).setCtlCore k
    { c.openSlot sl slot dests with writes := c.writes ++ regs, pwrites := c.pwrites ++ preds }

/-- As `ctlIssued`, with the transfer that the group takes when it ends, to an SRAM byte offset. -/
def State.ctlJump (s : State) (sl : Slot) (slot : Nat) (dests : List Nat) (k : Nat) (c : CtlCore)
    (regs : List (Nat × BitVec 64)) (target : Nat) : State :=
  (if sl.adv = 0 then s else s.setCtlCore k c).setCtlCore k
    { c.openSlot sl slot dests with writes := c.writes ++ regs, taken := some target }

/-- No store of the core is due on its tile memory's write port `lat` issue cycles from now (R99). -/
def Core.portFree (c : Core) (lat : Nat) : Prop := ∀ f ∈ c.flight, f.left = lat → ∀ a l g, f.eff ≠ .store a l g

/-- The core address that a scalar and a signed offset give, modulo 2^32 (R161). -/
def addrOf (base : BitVec 32) (off : Int) : Nat := (((base.toNat : Int) + off) % 2 ^ 32).toNat

/-- `len` bytes at core address `a` of core `u` lie aligned in tile data memory and are not known bad (R101, R102). -/
def State.readable (t : State) (n u a len al : Nat) : Prop :=
  a % al = 0 ∧ a + len ≤ tileSize ∧ t.anyBad (t.tileBase n u + a) len = false

/-- No register field but those listed has changed. -/
def State.regsBut (s t : State) (l : List (Nat × Fld)) : Prop :=
  ∀ b g, fkey b g ∉ l.map (fun p => fkey p.1 p.2) → t.getF b g = s.getF b g

/-- The two states have the same cores, switches and islands. -/
def State.sameIslands (s t : State) : Prop := t.cores = s.cores ∧ t.clusters = s.clusters ∧ t.islands = s.islands

/-- A counter field after `n` more, saturating (R12). -/
def raised (f : Fld) (old n : Nat) : Nat := min (old + n) (2 ^ f.width - 1)

/-- Registers whose writes are plain: no command of the table is their own, and they are not stores of switch programs (R8, R10). -/
def RegName.plain (r : RegName) : Prop :=
  r ∉ [.islReset, .lnkCtl, .lnkInjCtl, .lnkInjDrop, .lnkInjParity, .lnkInjAck, .lnkInjReorder, .timIncr, .timPhase, .timTrig,
    .timTlqCtl, .bocSetpoint, .bocPowerCfg, .routeTable, .programStore]

/-- Every byte of memory, every tag and every known-bad word is as it was. -/
def State.sameMemory (s t : State) : Prop := t.mem = s.mem ∧ t.tags = s.tags ∧ t.bad = s.bad

/-- A class 1 request arrives in an open session and is due for its answer (R455, R500, R501): the Bocal answers, the session `x` is open,
the message verifies under a counter not used before, and its request id is new; the firmware runs. -/
structure InSession (s : State) (r : Brq) (x : Session) : Prop where
  live   : s.brqLive = true
  cls    : r.cls = 1
  found  : s.session r.session = some x
  tag    : r.tagOk = true
  fresh  : x.accepts r.counter = true
  small  : r.counter < 2 ^ 32
  new    : ∀ a ∈ x.answers, a.rid ≠ r.rid
  going  : x.out + 1 < 2 ^ 32
  normal : s.boc.recovery = false

/-- The last response is the answer to a request in a session (R500, R501). -/
def State.answered (t : State) (r : Brq) (x : Session) (code status : Nat) (data : List Byte) : Prop :=
  t.boc.resp = some { session := r.session, counter := x.out, code := code + 0x8000, rid := r.rid, status := status, data := data }

/-- A request done: the answer has status 0 and is counted (R503, R509). -/
def State.done (s t : State) (r : Brq) (x : Session) (code : Nat) (data : List Byte) : Prop :=
  t.answered r x code 0 data ∧ t.getF aBocBrq F.bocBrq_accepted = raised F.bocBrq_accepted (s.getF aBocBrq F.bocBrq_accepted) 1

end Sys2Proof.Machine
end

