-- ==== Sys2Proof/WellFormed.lean ====
section
/-! DEFINITION. Which commands name only units that a KM1 package can have: islands, cores and switches (R7, R22, R93), queues (R218), ports
(R269), fields, channels and devices (R244), engines (R256), trackers (R171), drone pairs (R298) and the rest of the package's numbered parts.
The class in force may have fewer islands (R22); exec asks the state. Reserved encodings of an instruction are no matter of
form: they make an illegal bundle (R80), which exec raises. -/

namespace Sys2Proof

/-- Logical islands of a class A package (R7, R22). -/
def maxIslands : Nat := 320

/-- Ports of the package (R269). -/
def maxPorts : Nat := 48

/-- A logical core's numbers (R93). -/
def hasUnit (n u : Nat) : Bool := decide (n < maxIslands ∧ u < 960)

/-- A cluster switch's numbers (R7). -/
def hasSwitch (n cl : Nat) : Bool := decide (n < maxIslands ∧ cl < 16)

/-- A slot header names a logical core or one of the four control cores (R93, R474). -/
def Slot.wf (sl : Slot) : Bool :=
  match sl.site with
  | .core n u => hasUnit n u
  | .ctl k => decide (k < 4)

/-- A well-formed command. -/
def wellFormed (i : Instr) : Bool :=
  match i with
  | .registerWrite _ _ _ _ => true
  | .rcClearingRead _ _ _ => true
  | .add sl _ _ _ => sl.wf
  | .sub sl _ _ _ => sl.wf
  | .and sl _ _ _ => sl.wf
  | .or sl _ _ _ => sl.wf
  | .xor sl _ _ _ => sl.wf
  | .shl sl _ _ _ => sl.wf
  | .shr sl _ _ _ => sl.wf
  | .sra sl _ _ _ => sl.wf
  | .min sl _ _ _ => sl.wf
  | .max sl _ _ _ => sl.wf
  | .minu sl _ _ _ => sl.wf
  | .maxu sl _ _ _ => sl.wf
  | .mul sl _ _ _ => sl.wf
  | .mulh sl _ _ _ => sl.wf
  | .mulhu sl _ _ _ => sl.wf
  | .addi sl _ _ _ => sl.wf
  | .andi sl _ _ _ => sl.wf
  | .ori sl _ _ _ => sl.wf
  | .xori sl _ _ _ => sl.wf
  | .shli sl _ _ _ => sl.wf
  | .shri sl _ _ _ => sl.wf
  | .srai sl _ _ _ => sl.wf
  | .movi sl _ _ _ => sl.wf
  | .movhi sl _ _ _ => sl.wf
  | .movsh sl _ _ _ => sl.wf
  | .cmp sl _ _ _ _ => sl.wf
  | .cmpi sl _ _ _ _ => sl.wf
  | .pand sl _ _ _ _ _ => sl.wf
  | .por sl _ _ _ _ _ => sl.wf
  | .pxor sl _ _ _ _ _ => sl.wf
  | .br sl _ => sl.wf
  | .loop sl _ _ => sl.wf
  | .jal sl _ _ => sl.wf
  | .jr sl _ => sl.wf
  | .smovFromSpecial sl _ _ => sl.wf
  | .smovToSpecial sl _ _ => sl.wf
  | .wswap sl => sl.wf
  | .islandHoldRelease n _ => decide (n < maxIslands)
  | .stallTimeout n _ => decide (n < maxIslands)
  | .mma sl _ _ _ _ => sl.wf
  | .qclr sl _ _ _ _ => sl.wf
  | .qread sl _ _ _ _ _ _ _ _ _ => sl.wf
  | .qst sl _ _ _ _ _ _ _ _ _ => sl.wf
  | .qstat sl _ _ _ => sl.wf
  | .qanc sl _ _ _ => sl.wf
  | .qres sl _ _ _ => sl.wf
  | .vadd sl _ _ _ _ _ _ => sl.wf
  | .vsub sl _ _ _ _ _ _ => sl.wf
  | .vmul sl _ _ _ _ _ _ => sl.wf
  | .vfma sl _ _ _ _ vc _ _ => sl.wf && decide (vc < 6)
  | .vmin sl _ _ _ _ => sl.wf
  | .vmax sl _ _ _ _ => sl.wf
  | .vcmp sl _ _ _ _ _ => sl.wf
  | .vsel sl _ _ _ _ vc => sl.wf && decide (vc < 6)
  | .vand sl _ _ _ => sl.wf
  | .vor sl _ _ _ => sl.wf
  | .vxor sl _ _ _ => sl.wf
  | .vredsum sl _ _ _ => sl.wf
  | .vredmax sl _ _ _ => sl.wf
  | .vredmin sl _ _ _ => sl.wf
  | .vtestAny sl _ _ _ => sl.wf
  | .vtestAll sl _ _ _ => sl.wf
  | .vneg sl _ _ _ => sl.wf
  | .vabs sl _ _ _ => sl.wf
  | .vcopysign sl _ _ _ _ => sl.wf
  | .vcvtNarrow sl _ _ _ _ _ _ _ _ => sl.wf
  | .vcvtWiden sl _ _ _ _ => sl.wf
  | .vpermSeg sl _ _ _ => sl.wf
  | .vpermW sl _ _ _ => sl.wf
  | .vpermB sl _ _ _ => sl.wf
  | .vbcast sl _ _ => sl.wf
  | .vins sl _ _ _ => sl.wf
  | .vext sl _ _ _ => sl.wf
  | .vexp sl _ _ _ _ _ => sl.wf
  | .vexp2 sl _ _ _ _ _ => sl.wf
  | .vlog sl _ _ _ _ _ => sl.wf
  | .vlog2 sl _ _ _ _ _ => sl.wf
  | .vrcp sl _ _ _ _ _ => sl.wf
  | .vsqrt sl _ _ _ _ _ => sl.wf
  | .vrsqrt sl _ _ _ _ _ => sl.wf
  | .vtanh sl _ _ _ _ _ => sl.wf
  | .verf sl _ _ _ _ _ => sl.wf
  | .vsig sl _ _ _ _ _ => sl.wf
  | .vrand sl _ _ _ => sl.wf
  | .vdrop sl _ _ _ _ _ => sl.wf
  | .ld sl _ _ _ _ _ => sl.wf
  | .st sl _ _ _ _ _ => sl.wf
  | .vld sl _ _ _ _ _ => sl.wf
  | .vst sl _ _ _ _ _ => sl.wf
  | .vsts sl _ _ _ _ => sl.wf
  | .sendRegister sl _ _ _ => sl.wf
  | .sendMemory sl _ _ _ => sl.wf
  | .recvVector sl _ _ _ _ => sl.wf
  | .recvScalar sl _ _ _ _ => sl.wf
  | .streamPut sl _ _ => sl.wf
  | .rmemRd sl _ _ _ _ => sl.wf
  | .rmemWr sl _ _ _ _ => sl.wf
  | .rmemPut sl _ _ _ _ => sl.wf
  | .rmemXadd sl _ _ _ _ => sl.wf
  | .rmemFadd sl _ _ _ _ => sl.wf
  | .rmemCas sl _ _ _ _ => sl.wf
  | .rmemSinc sl _ _ _ _ => sl.wf
  | .syncAdd sl _ _ _ _ => sl.wf
  | .syncSet sl _ _ _ => sl.wf
  | .syncWait sl _ _ _ => sl.wf
  | .syncRd sl _ _ _ => sl.wf
  | .syncCounterAddition e => decide (e.n < maxIslands)
  | .ccWait sl _ _ => sl.wf
  | .waitCyc sl _ _ _ => sl.wf
  | .breathEnd sl => sl.wf
  | .stepSet sl _ => sl.wf
  | .provBegin sl _ => sl.wf
  | .provEnd sl => sl.wf
  | .suspSet sl _ => sl.wf
  | .wld sl _ _ _ _ => sl.wf
  | .routeWord n cl _ _ => hasSwitch n cl
  | .idleWord n cl _ _ => hasSwitch n cl
  | .endWord n cl _ _ => hasSwitch n cl
  | .crossingEntryVisible n q _ => decide (n < maxIslands) && decide (q < 16)
  | .crossingFreeIndication n q => decide (n < maxIslands) && decide (q < 16)
  | .landingInputRelease e => decide (e.n < maxIslands)
  | .heldLandingWrite n => decide (n < maxIslands)
  | .tileScrub n u line _ => hasUnit n u && decide (line < 3072)
  | .triggerFire => true
  | .islandBreathComplete n => decide (n < maxIslands)
  | .loadRecordRun _ _ => true
  | .packageBoundary => true
  | .islandResetRequest n _ => decide (n < maxIslands)
  | .missedStart => true
  | .overrunCheck => true
  | .slipRequest _ => true
  | .slipOrderSend => true
  | .slipOrder _ => true
  | .droopStretch n s => decide (n < maxIslands) && decide (1 ≤ s ∧ s ≤ 4)
  | .setpointRequestWrite _ => true
  | .voltageRampEnd => true
  | .setpointStop _ => true
  | .lpddrRewrite field ch => decide (field < 8) && decide (ch < 16)
  | .lpddrPatrolScrub _ _ => true
  | .ondieCountRead field ch _ => decide (field < 8) && decide (ch < 16)
  | .deviceTemperatureReport device _ _ _ => decide (device < 16)
  | .lpddrOverLimitTrip device => decide (device < 16)
  | .channelRetire field ch => decide (field < 8) && decide (ch < 16)
  | .stmMove engine _ => decide (engine < 128)
  | .stmTree engine _ => decide (engine < 128)
  | .stmSync engine => decide (engine < 128)
  | .stmEnd engine => decide (engine < 128)
  | .stmDescriptorComplete engine => decide (engine < 128)
  | .distributorTile e => decide (e.n < maxIslands)
  | .launchQueueEntry e => decide (e.n < maxIslands)
  | .slotLaunch port _ => decide (port < maxPorts)
  | .flitPresent port _ => decide (port < maxPorts)
  | .flitLanding port => decide (port < maxPorts)
  | .relayLaunch port _ => decide (port < maxPorts)
  | .patchOrder _ => true
  | .dronePathClose _ => true
  | .coldTraining port _ => decide (port < maxPorts)
  | .coldTrainingRetry r => decide (r.port < maxPorts)
  | .trainingRecord port _ => decide (port < maxPorts)
  | .flitReceive port _ _ => decide (port < maxPorts)
  | .replayTimer port => decide (port < maxPorts)
  | .spareRequest port _ => decide (port < maxPorts)
  | .spareGrant port _ => decide (port < maxPorts)
  | .spareLockComplete port => decide (port < maxPorts)
  | .spareDone port _ => decide (port < maxPorts)
  | .retrainRequest port _ => decide (port < maxPorts)
  | .retrainGrant port _ => decide (port < maxPorts)
  | .quietStart port => decide (port < maxPorts)
  | .relockComplete port _ _ => decide (port < maxPorts)
  | .resync port _ _ => decide (port < maxPorts)
  | .retrainTimeout port => decide (port < maxPorts)
  | .linkWithdraw port _ => decide (port < maxPorts)
  | .downNotice port _ => decide (port < maxPorts)
  | .noValidFlitTimeout port => decide (port < maxPorts)
  | .linkRetrainWrite port _ => decide (port < maxPorts)
  | .injectionControlWrite port offset _ => decide (port < maxPorts) && decide (0x8200 ≤ offset ∧ offset ≤ 0x8220 ∧ offset % 8 = 0)
  | .requestAdmit n u x => hasUnit n u && decide (x.tracker < 16)
  | .packetRoute port vc => decide (port ≤ maxPorts) && decide (vc < 6)
  | .requestPacketArrival _ _ => true
  | .responseArrival _ => true
  | .attemptTimer n u tracker => hasUnit n u && decide (tracker < 16)
  | .requestDeadline n u tracker => hasUnit n u && decide (tracker < 16)
  | .dedupEntryFree _ _ => true
  | .routeInstall _ => true
  | .routeReady _ => true
  | .routeFlip _ => true
  | .epochFlip => true
  | .epochRetire => true
  | .timIncrWrite _ => true
  | .timPhaseWrite _ => true
  | .timTrigWrite _ => true
  | .refclkFail clock => decide (clock < 2)
  | .timeSteerUpdate => true
  | .holdoverTimeout => true
  | .tlqArm port entry _ => decide (port < maxPorts) && decide (entry < 4)
  | .timedLaunch port entry _ => decide (port < maxPorts) && decide (entry < 4)
  | .valveSwap _ => true
  | .hoursMark => true
  | .suppressedRecordFlush => true
  | .ledgerCompact => true
  | .stepReport _ => true
  | .commitDecision => true
  | .commit _ => true
  | .discard _ => true
  | .tagSweep tag _ => decide (1 ≤ tag ∧ tag ≤ 3)
  | .sweepDone _ => true
  | .replayOrder _ => true
  | .digest _ => true
  | .replayLimitExpiry => true
  | .localisationTest n cl record _ => hasSwitch n cl && decide (record < 4)
  | .heartbeat _ => true
  | .heartbeatSend => true
  | .leadLossTimeout => true
  | .heartbeatLossTimeout package => decide (package < 2 ^ 14)
  | .faultReport _ => true
  | .abort _ => true
  | .restart _ => true
  | .packageLost package => decide (package < 2 ^ 14)
  | .promote _ => true
  | .eventSuppressSummary => true
  | .healthDigestUpdate => true
  | .authTagSend port => decide (port < maxPorts)
  | .authTag port _ _ => decide (port < maxPorts)
  | .tagRequest _ => true
  | .authTagTimeout port => decide (port < maxPorts)
  | .sessionTimeout _ => true
  | .powerOnReset => true
  | .pinReset => true
  | .thermalReset => true
  | .bocalFailover => true
  | .fieldControllerError field => decide (field < 8)
  | .ctlForward _ _ => true
  | .ctlBroadcastForward _ _ => true
  | .ctlDropTimeout => true
  | .admitNoticeMessage _ => true
  | .admissionOpen => true
  | .admitted => true
  | .admissionTimeout => true
  | .imageReady _ => true
  | .breath0LoadDone => true
  | .startOrder _ => true
  | .withdrawNotice _ => true
  | .withdrawClose => true
  | .objRead _ _ _ _ _ => true
  | .objWrite _ _ _ _ _ => true
  | .objCommit _ _ _ _ _ => true
  | .objDiscard _ _ _ => true
  | .makeReport _ _ => true
  | .sessionOpen _ _ _ _ _ _ _ => true
  | .sessionClose _ => true
  | .timePoll _ _ _ => true
  | .timeSteer _ _ _ _ _ => true
  | .eventAck _ _ => true
  | .regRead _ _ => true
  | .regWrite _ _ _ => true
  | .admitRequest _ _ => true
  | .admitNotice _ joiner _ => decide (joiner < 2 ^ 14)
  | .withdraw _ => true
  | .start _ _ => true
  | .stop _ => true
  | .decide _ _ _ => true
  | .update _ _ => true
  | .confirm _ => true
  | .reset _ => true
  | .toneRun _ _ => true
  | .ckptRead _ _ _ => true
  | .entdaa _ => true
  | .rstdaa => true
  | .setnewda _ => true
  | .getpid => true
  | .getbcr => true
  | .getdcr => true
  | .getstatus => true
  | .enec _ => true
  | .disec _ => true
  | .i3cPrivateWrite _ => true
  | .i3cPrivateRead _ => true
  | .mirrorRefresh => true
  | .pwrGoodDeassert => true
  | .inputOutOfRange => true
  | .lowInput => true
  | .powerControlUpdate _ => true
  | .thermalSample field _ => decide (field < 8)
  | .openFibreControl port _ => decide (port < maxPorts)
  | .bocPowerCfgWrite _ => true
  | .resetRelease _ => true
  | .referenceClockTick => true
  | .dronePathFullyOpen pair => decide (pair < 24)
  | .dronePathFullyClosed pair => decide (pair < 24)
  | .testAccessPortInstruction _ => true

end Sys2Proof
end

