-- ==== Sys2Proof/Certificates/Slice0/Obligations.lean ====
section
/-! DEFINITION. The statements for the provers. -/

open Sys2Proof Sys2Proof.Machine

/-! ### Instructions of a logical core -/

/-- Form SR on 32-bit scalars: the latency and the result of each operation (R128). Form SI on 32-bit scalars (R128). Compares and
predicate logic (R126, R128). In part the model's own readings: log entries 13, 14. -/
def Obligations.ScalarAndPredicateOps : Prop :=
  (∀ (s t : State) (sl : Slot) (rd ra rb : BitVec 5) (n u : Nat), Runs s t sl slotS [dS rd] n u →
    let a := (t.core n u).rs ra
    let b := (t.core n u).rs rb
    let sh := b.toNat % 32
    let gives := fun (i : Instr) (lat : Nat) (x : BitVec 32) =>
      exec i s = .next (t.issued i sl slotS [dS rd] n u [(lat, .setS rd.toNat x)])
    gives (.add sl rd ra rb) 1 (BitVec.ofInt 32 (a.toInt + b.toInt)) ∧
    gives (.sub sl rd ra rb) 1 (BitVec.ofInt 32 (a.toInt - b.toInt)) ∧
    gives (.and sl rd ra rb) 1 (a &&& b) ∧
    gives (.or sl rd ra rb) 1 (a ||| b) ∧
    gives (.xor sl rd ra rb) 1 (a ^^^ b) ∧
    gives (.shl sl rd ra rb) 1 (BitVec.ofNat 32 (a.toNat * 2 ^ sh)) ∧
    gives (.shr sl rd ra rb) 1 (BitVec.ofNat 32 (a.toNat / 2 ^ sh)) ∧
    gives (.sra sl rd ra rb) 1 (BitVec.ofInt 32 (a.toInt / 2 ^ sh)) ∧
    gives (.min sl rd ra rb) 1 (BitVec.ofInt 32 (Min.min a.toInt b.toInt)) ∧
    gives (.max sl rd ra rb) 1 (BitVec.ofInt 32 (Max.max a.toInt b.toInt)) ∧
    gives (.minu sl rd ra rb) 1 (BitVec.ofNat 32 (Min.min a.toNat b.toNat)) ∧
    gives (.maxu sl rd ra rb) 1 (BitVec.ofNat 32 (Max.max a.toNat b.toNat)) ∧
    gives (.mul sl rd ra rb) 3 (BitVec.ofInt 32 (a.toInt * b.toInt)) ∧
    gives (.mulh sl rd ra rb) 3 (BitVec.ofInt 32 (a.toInt * b.toInt / 2 ^ 32)) ∧
    gives (.mulhu sl rd ra rb) 3 (BitVec.ofNat 32 (a.toNat * b.toNat / 2 ^ 32))) ∧
  (∀ (s t : State) (sl : Slot) (rd ra : BitVec 5) (imm : BitVec 16) (n u : Nat), Runs s t sl slotS [dS rd] n u →
    let a := (t.core n u).rs ra
    let gives := fun (i : Instr) (x : BitVec 32) =>
      exec i s = .next (t.issued i sl slotS [dS rd] n u [(1, .setS rd.toNat x)])
    gives (.addi sl rd ra imm) (BitVec.ofInt 32 (a.toInt + imm.toInt)) ∧
    gives (.andi sl rd ra imm) (BitVec.ofNat 32 (a.toNat % 65536 &&& imm.toNat)) ∧
    gives (.ori sl rd ra imm) (a ||| BitVec.ofNat 32 imm.toNat) ∧
    gives (.xori sl rd ra imm) (a ^^^ BitVec.ofNat 32 imm.toNat) ∧
    (imm.toNat < 32 → gives (.shli sl rd ra imm) (BitVec.ofNat 32 (a.toNat * 2 ^ imm.toNat))) ∧
    (imm.toNat < 32 → gives (.shri sl rd ra imm) (BitVec.ofNat 32 (a.toNat / 2 ^ imm.toNat))) ∧
    (imm.toNat < 32 → gives (.srai sl rd ra imm) (BitVec.ofInt 32 (a.toInt / 2 ^ imm.toNat))) ∧
    (ra = 0 → gives (.movi sl rd ra imm) (BitVec.ofInt 32 imm.toInt)) ∧
    gives (.movhi sl rd ra imm) (BitVec.ofNat 32 (imm.toNat * 65536 + a.toNat % 65536))) ∧
  (∀ (s t : State) (sl : Slot) (pd cond pa pb : BitVec 3) (na nb : Bool) (ra rb : BitVec 5) (imm : BitVec 16) (n u : Nat),
    Runs s t sl slotS [dP pd] n u →
    let c := t.core n u
    let a := c.rs ra
    let gives := fun (i : Instr) (b : Bool) =>
      exec i s = .next (t.issued i sl slotS [dP pd] n u [(1, .setP pd.toNat b)])
    let holds := fun (b : BitVec 32) (i : Instr) =>
      (cond = 0 → gives i (decide (a.toInt = b.toInt))) ∧ (cond = 1 → gives i (decide (a.toInt ≠ b.toInt))) ∧
      (cond = 2 → gives i (decide (a.toInt < b.toInt))) ∧ (cond = 3 → gives i (decide (b.toInt ≤ a.toInt))) ∧
      (cond = 4 → gives i (decide (a.toNat < b.toNat))) ∧ (cond = 5 → gives i (decide (b.toNat ≤ a.toNat)))
    holds (c.rs rb) (.cmp sl pd cond ra rb) ∧
    holds (BitVec.ofInt 32 imm.toInt) (.cmpi sl pd cond ra imm) ∧
    gives (.pand sl pd pa na pb nb) (decide (c.rp pa ≠ na ∧ c.rp pb ≠ nb)) ∧
    gives (.por sl pd pa na pb nb) (decide (c.rp pa ≠ na ∨ c.rp pb ≠ nb)) ∧
    gives (.pxor sl pd pa na pb nb) (decide ((c.rp pa ≠ na) ≠ (c.rp pb ≠ nb))))

/-- Control transfers of a logical core: br, loop, jal and jr (R128, R129). Reads and writes of the special registers, and the swap of the
weight stages (R110, R131, R133, R157). In part the model's own readings: log entries 14, 16, 17, 46, 171. -/
def Obligations.TransfersAndSpecialRegisters : Prop :=
  (∀ (s t : State) (sl : Slot) (rd ra : BitVec 5) (target : BitVec 11) (n u : Nat), (t.core n u).taken = none →
    (Runs s t sl slotS [] n u →
      exec (.br sl target) s = .next (t.issuedJump (.br sl target) sl slotS [] n u [] target.toNat) ∧
      exec (.jr sl ra) s = .next (t.issuedJump (.jr sl ra) sl slotS [] n u [] (((t.core n u).rs ra).toNat % 2048))) ∧
    (Runs s t sl slotS [dS rd] n u →
      let a := ((t.core n u).rs rd).toNat
      exec (.loop sl rd target) s = .next
        (if a = 0 then t.issued (.loop sl rd target) sl slotS [dS rd] n u []
         else if a = 1 then t.issued (.loop sl rd target) sl slotS [dS rd] n u [(1, .setS rd.toNat 0)]
         else t.issuedJump (.loop sl rd target) sl slotS [dS rd] n u [(1, .setS rd.toNat (BitVec.ofNat 32 (a - 1)))] target.toNat) ∧
      ∃ after : Nat, (sl.eog = true → after = ((t.core n u).pc + 1) % 2048) ∧
        exec (.jal sl rd target) s =
          .next (t.issuedJump (.jal sl rd target) sl slotS [dS rd] n u [(1, .setS rd.toNat (BitVec.ofNat 32 after))] target.toNat))) ∧
  (∀ (s t : State) (sl : Slot) (rd ra : BitVec 5) (n u : Nat),
    let c := t.core n u
    (Runs s t sl slotS [dS rd] n u →
      let reads := fun (k : BitVec 5) (x : BitVec 32) =>
        exec (.smovFromSpecial sl rd k) s = .next (t.issued (.smovFromSpecial sl rd k) sl slotS [dS rd] n u [(1, .setS rd.toNat x)])
      exec (.smovFromSpecial sl rd 0) s = .next (t.issued (.smovFromSpecial sl rd 0) sl slotS [dS rd] n u [(1, .setCyc rd.toNat)]) ∧
      reads 1 (BitVec.ofNat 32 c.step.toNat) ∧ reads 2 (BitVec.ofNat 32 (c.step.toNat / 2 ^ 32)) ∧
      (∀ k : Nat, k < 4 → reads (BitVec.ofNat 5 (3 + k)) (Tbl.get 0 c.keys k)) ∧
      reads 7 c.tensor ∧ reads 8 (BitVec.ofNat 32 c.prov.toNat) ∧ reads 9 (BitVec.ofNat 32 c.astat.toNat) ∧
      reads 10 (BitVec.ofNat 32 (t.getF (aFltCoreChk n u) F.fltCoreChk_count))) ∧
    (∀ k : BitVec 5, Runs s t sl slotS [dSpecial k.toNat] n u →
      let a := c.rs ra
      let writes := fun (e : Eff) => exec (.smovToSpecial sl k ra) s = .next (t.issued (.smovToSpecial sl k ra) sl slotS [dSpecial k.toNat] n u [(1, e)])
      (3 ≤ k.toNat → k.toNat ≤ 6 → writes (.setKey (k.toNat - 3) a)) ∧ (k = 7 → writes (.setTensor a)) ∧
      (k = 9 → writes (.setAstat (BitVec.ofNat 5 a.toNat)))) ∧
    (Runs s t sl slotS [] n u → c.wldInFlight = false → c.idleStage.full = true →
      exec (.wswap sl) s = .next (t.issued (.wswap sl) sl slotS [] n u [(1, .swap)])))

/-- The accumulator instructions: mma, the clear, and the readouts (R47, R48, R114, R115, R137 to R144). In part the model's own readings:
log entries 43, 146, 167, 170. -/
def Obligations.AccumulatorOps : Prop :=
  ∀ (s t : State) (sl : Slot) (n u : Nat) (q : BitVec 5),
    let c := t.core n u
    let e := c.rq q.toNat
    (∀ (fmt seg : BitVec 4) (va : BitVec 5), Runs s t sl slotM [128 + q.toNat] n u → c.activeStage.isEmpty = false →
      fmtPair fmt c.activeStage.fmt = true → (seg.toNat < 8 ∨ fmtBits fmt = 16) →
      exec (.mma sl fmt q va seg) s = .next (t.issued (.mma sl fmt q va seg) sl slotM [128 + q.toNat] n u
        [(4, .accAdd q.toNat (mmaLanes fmt e.anchor.toInt (c.rv va) (c.rvs va) seg.toNat c.activeStage 0))])) ∧
    (∀ (qb : BitVec 5) (anc : BitVec 11), q.toNat ≤ qb.toNat →
      let dests := (List.range (qb.toNat - q.toNat + 1)).map fun i => 128 + q.toNat + i
      let clears := fun (imm : Bool) (a : BitVec 11) => exec (.qclr sl q qb imm anc) s =
        .next (t.issued (.qclr sl q qb imm anc) sl slotM dests n u [(1, .accClear q.toNat qb.toNat a)])
      Runs s t sl slotM dests n u →
        clears true anc ∧
        (∀ r : BitVec 5, anc = BitVec.ofNat 11 r.toNat → -1024 ≤ (c.rs r).toInt → (c.rs r).toInt ≤ 1023 →
          clears false (BitVec.ofInt 11 (c.rs r).toInt))) ∧
    (∀ (vd sb st : BitVec 5) (tgt : BitVec 4) (pos : BitVec 3) (rm : BitVec 2) (sat : Bool) (off : BitVec 7) (len lo : Nat),
      readoutOk tgt pos rm sat sb st off = true → readoutShape tgt pos = some (len, lo) →
      let data := readoutBytes tgt pos (rmOf rm) sat off.toNat (t.ctx n u sl).seed (c.rs sb) e
      let status := fun (lat : Nat) => if st = 0 then [] else
        [(lat, Eff.setS st.toNat (statusPair tgt off.toNat e).1), (lat, Eff.setS (st.toNat + 1) (statusPair tgt off.toNat e).2)]
      (Runs s t sl slotM (dV vd :: statusDests st) n u →
        let lat := if rm = 2 then 5 else 3
        exec (.qread sl vd q tgt pos rm sat sb st off) s =
          .next (t.issued (.qread sl vd q tgt pos rm sat sb st off) sl slotM (dV vd :: statusDests st) n u ((lat, vecBytes vd lo len data) :: status lat))) ∧
      (∀ sa : BitVec 5, Runs s t sl slotM (statusDests st) n u → (c.rs sa).toNat % len = 0 → (c.rs sa).toNat + len ≤ tileSize →
        let lat := if rm = 2 then 6 else 4
        c.portFree lat →
        exec (.qst sl sa q tgt pos rm sat sb st off) s =
          .next (t.issued (.qst sl sa q tgt pos rm sat sb st off) sl slotM (statusDests st) n u
            ((lat, .store (c.rs sa).toNat (bytesOfNat len data) c.prov) :: status lat)))) ∧
    (∀ st : BitVec 5, st.toNat % 2 = 0 → st ≠ 0 → Runs s t sl slotM [dS st, dS (st + 1)] n u →
      exec (.qstat sl st q false) s = .next (t.issued (.qstat sl st q false) sl slotM [dS st, dS (st + 1)] n u
        [(3, .setS st.toNat (statusPair 0 0 e).1), (3, .setS (st.toNat + 1) (statusPair 0 0 e).2)])) ∧
    (∀ sd : BitVec 5, Runs s t sl slotM [dS sd] n u →
      exec (.qanc sl sd q false) s =
        .next (t.issued (.qanc sl sd q false) sl slotM [dS sd] n u [(3, .setS sd.toNat (BitVec.ofInt 32 e.anchor.toInt))])) ∧
    (∀ (vd : BitVec 5) (pos : Bool), Runs s t sl slotM [dV vd] n u →
      exec (.qres sl vd q pos) s =
        .next (t.issued (.qres sl vd q pos) sl slotM [dV vd] n u [(3, vecBytes vd (if pos then 32 else 0) 32 (residues e))]))

/-- Vector arithmetic on the three lane types (R64, R145, R147): each 32-bit lane of vadd, vsub, vmul, vfma, vmin, vmax and vcmp; BF16
lanes widened, computed and narrowed. -/
def Obligations.VectorArithmetic : Prop :=
  ∀ (s t : State) (sl : Slot) (vd va vb vc sb : BitVec 5) (rm : BitVec 2) (cond : BitVec 3) (n u : Nat),
    Runs s t sl slotM [dV vd] n u →
    let c := t.core n u
    let r1 := t.rev1
    let lane := fun (v : BitVec 5) (i : Nat) => laneAt (c.rv v) 32 i
    let word := fun (v : BitVec 5) (i : Nat) => BitVec.ofNat 32 (laneAt (c.rv v) 32 i)
    let half := fun (v : BitVec 5) (i : Nat) => laneAt (c.rv v) 16 i * 2 ^ 16
    let gives := fun (i : Instr) (r : Nat × BitVec 5) =>
      exec i s = .next (t.issued i sl slotM [dV vd] n u ((4, vecWhole vd r.1) :: condEffs 4 r.2))
    let bf := fun (f : Nat → LaneRes) => packRes 16 32 fun i =>
      let (b, fl) := narrowIeee r1 fmtBF16 (rmOf rm)
        (if rm = 2 then (t.ctx n u sl).seed.rnd24 (c.rs sb + BitVec.ofNat 32 i) else 0) (f i).1
      (b, (f i).2 ||| fl)
    let ints := fun (f : Nat → Int) => (packLanes 32 16 fun i => (BitVec.ofInt 32 (f i)).toNat, (0 : BitVec 5))
    gives (.vadd sl 0 vd va vb 0 0) (packRes 32 16 fun i => f32Add r1 (lane va i) (lane vb i)) ∧
    gives (.vsub sl 0 vd va vb 0 0) (packRes 32 16 fun i => f32Sub r1 (lane va i) (lane vb i)) ∧
    gives (.vmul sl 0 vd va vb 0 0) (packRes 32 16 fun i => f32Mul r1 (lane va i) (lane vb i)) ∧
    gives (.vfma sl 0 vd va vb vc 0 0) (packRes 32 16 fun i => f32Fma r1 (lane va i) (lane vb i) (lane vc i)) ∧
    (rm ≠ 3 →
      gives (.vadd sl 1 vd va vb rm sb) (bf fun i => f32Add r1 (half va i) (half vb i)) ∧
      gives (.vsub sl 1 vd va vb rm sb) (bf fun i => f32Sub r1 (half va i) (half vb i)) ∧
      gives (.vmul sl 1 vd va vb rm sb) (bf fun i => f32Mul r1 (half va i) (half vb i)) ∧
      gives (.vfma sl 1 vd va vb vc rm sb) (bf fun i => f32Fma r1 (half va i) (half vb i) (half vc i))) ∧
    gives (.vadd sl 2 vd va vb 0 0) (ints fun i => (word va i).toInt + (word vb i).toInt) ∧
    gives (.vsub sl 2 vd va vb 0 0) (ints fun i => (word va i).toInt - (word vb i).toInt) ∧
    gives (.vmul sl 2 vd va vb 0 0) (ints fun i => (word va i).toInt * (word vb i).toInt) ∧
    gives (.vmin sl 0 vd va vb) (packRes 32 16 fun i => f32MinMax r1 false (lane va i) (lane vb i)) ∧
    gives (.vmax sl 0 vd va vb) (packRes 32 16 fun i => f32MinMax r1 true (lane va i) (lane vb i)) ∧
    gives (.vmin sl 1 vd va vb) (packRes 16 32 fun i =>
      ((f32MinMax r1 false (half va i) (half vb i)).1 / 2 ^ 16, (f32MinMax r1 false (half va i) (half vb i)).2)) ∧
    gives (.vmax sl 1 vd va vb) (packRes 16 32 fun i =>
      ((f32MinMax r1 true (half va i) (half vb i)).1 / 2 ^ 16, (f32MinMax r1 true (half va i) (half vb i)).2)) ∧
    gives (.vmin sl 2 vd va vb) (ints fun i => Min.min (word va i).toInt (word vb i).toInt) ∧
    gives (.vmax sl 2 vd va vb) (ints fun i => Max.max (word va i).toInt (word vb i).toInt) ∧
    (cond.toNat < 7 →
      gives (.vcmp sl 0 cond vd va vb) (packRes 32 16 fun i =>
        (if (f32Cmp cond.toNat (lane va i) (lane vb i)).1 then 2 ^ 32 - 1 else 0, (f32Cmp cond.toNat (lane va i) (lane vb i)).2)) ∧
      gives (.vcmp sl 1 cond vd va vb) (packRes 16 32 fun i =>
        (if (f32Cmp cond.toNat (half va i) (half vb i)).1 then 2 ^ 16 - 1 else 0, (f32Cmp cond.toNat (half va i) (half vb i)).2))) ∧
    (∀ p : Int → Int → Bool,
      (cond = 0 ∧ p = (fun x y => decide (x = y)) ∨ cond = 1 ∧ p = (fun x y => decide (x ≠ y)) ∨
        cond = 2 ∧ p = (fun x y => decide (x < y)) ∨ cond = 3 ∧ p = (fun x y => decide (x ≤ y)) ∨
        cond = 4 ∧ p = (fun x y => decide (x > y)) ∨ cond = 5 ∧ p = (fun x y => decide (x ≥ y))) →
      gives (.vcmp sl 2 cond vd va vb)
        (packLanes 32 16 fun i => if p (word va i).toInt (word vb i).toInt then 2 ^ 32 - 1 else 0, 0))

/-- Selection, bitwise operations, signs, broadcasts, insertions, extractions and permutes, lane by lane (R136, R145, R146, R151).
Reductions over the fixed tree, and the two tests (R66, R145): the first reduction level combines lanes 0 and 1, 2 and 3, and so on. In
part the model's own readings: log entry 168. -/
def Obligations.VectorMovesAndReductions : Prop :=
  (∀ (s t : State) (sl : Slot) (vd va vb vc sa sd k : BitVec 5) (ty : BitVec 2) (sel : BitVec 24) (n u : Nat),
    let c := t.core n u
    let w := if ty = 1 then 16 else 32
    let num := if ty = 1 then 32 else 16
    let lane := fun (v : BitVec 5) (i : Nat) => laneAt (c.rv v) w i
    let word := fun (v : BitVec 5) (i : Nat) => laneAt (c.rv v) 32 i
    (Runs s t sl slotM [dV vd] n u →
      let gives := fun (i : Instr) (data : Nat) =>
        exec i s = .next (t.issued i sl slotM [dV vd] n u [(4, vecWhole vd data)])
      (ty ≠ 3 → gives (.vsel sl ty vd va vb vc) (packLanes w num fun i => if lane vc i = 0 then lane vb i else lane va i)) ∧
      gives (.vand sl vd va vb) ((c.rv va).toNat &&& (c.rv vb).toNat) ∧
      gives (.vor sl vd va vb) ((c.rv va).toNat ||| (c.rv vb).toNat) ∧
      gives (.vxor sl vd va vb) ((c.rv va).toNat ^^^ (c.rv vb).toNat) ∧
      (ty = 0 ∨ ty = 1 →
        gives (.vneg sl ty vd va) (packLanes w num fun i => lane va i ^^^ 2 ^ (w - 1)) ∧
        gives (.vabs sl ty vd va) (packLanes w num fun i => lane va i % 2 ^ (w - 1)) ∧
        gives (.vcopysign sl ty vd va vb)
          (packLanes w num fun i => lane va i % 2 ^ (w - 1) + lane vb i / 2 ^ (w - 1) * 2 ^ (w - 1))) ∧
      gives (.vbcast sl vd sa) (packLanes 32 16 fun _ => (c.rs sa).toNat) ∧
      gives (.vpermW sl vd va vb) (packLanes 32 16 fun i => word va (word vb i % 16)) ∧
      gives (.vpermB sl vd va vb) (packLanes 8 64 fun i => laneAt (c.rv va) 8 (laneAt (c.rv vb) 8 i % 64)) ∧
      (let from_ := fun i => sel.toNat / 2 ^ (3 * i) % 8
       exec (.vpermSeg sl vd va sel) s = .next (t.issued (.vpermSeg sl vd va sel) sl slotM [dV vd] n u
        [(4, .setV vd.toNat (BitVec.allOnes 64)
          (BitVec.ofNat 512 (packLanes 64 8 fun i => laneAt (c.rv va) 64 (from_ i))) 0xFF#8
          (BitVec.ofNat 64 (packLanes 8 8 fun i => byteAt (c.rvs va) (from_ i))))])) ∧
      (k.toNat < 16 → exec (.vins sl vd k sa) s = .next (t.issued (.vins sl vd k sa) sl slotM [dV vd] n u
        [(4, .setV vd.toNat (BitVec.ofNat 64 (15 * 2 ^ (4 * k.toNat)))
          (BitVec.ofNat 512 ((c.rs sa).toNat * 2 ^ (32 * k.toNat))) (BitVec.ofNat 8 (2 ^ (k.toNat / 2))) plainScales)]))) ∧
    (Runs s t sl slotM [dS sd] n u → k.toNat < 16 →
      exec (.vext sl sd va k) s =
        .next (t.issued (.vext sl sd va k) sl slotM [dS sd] n u [(4, .setS sd.toNat (BitVec.ofNat 32 (word va k.toNat)))]))) ∧
  (∀ (s t : State) (sl : Slot) (vd va : BitVec 5) (pd : BitVec 3) (ty : BitVec 2) (n u : Nat),
    let c := t.core n u
    let r1 := t.rev1
    let input := fun i => if ty = 1 then laneAt (c.rv va) 16 i * 2 ^ 16 else laneAt (c.rv va) 32 i
    let num := if ty = 1 then 32 else 16
    (Runs s t sl slotM [dV vd] n u → (ty = 0 ∨ ty = 1) →
      let gives := fun (i : Instr) (f : Nat → Nat → LaneRes) =>
        let r := reduceTree f ((List.range num).map fun i => (input i, 0))
        exec i s = .next (t.issued i sl slotM [dV vd] n u
          ((6, vecWhole vd (packLanes 32 16 fun _ => r.1)) :: condEffs 6 r.2))
      gives (.vredsum sl ty vd va) (f32Add r1) ∧ gives (.vredmax sl ty vd va) (f32MinMax r1 true) ∧
      gives (.vredmin sl ty vd va) (f32MinMax r1 false)) ∧
    (Runs s t sl slotM [dP pd] n u →
      let w := if ty = 1 then 16 else if ty = 3 then 8 else 32
      let set := fun i => if ty = 0 ∨ ty = 1 then laneAt (c.rv va) w i % 2 ^ (w - 1) ≠ 0 else laneAt (c.rv va) w i ≠ 0
      (∃ b : Bool, (b = true ↔ ∃ i < 512 / w, set i) ∧
        exec (.vtestAny sl ty pd va) s = .next (t.issued (.vtestAny sl ty pd va) sl slotM [dP pd] n u [(4, .setP pd.toNat b)])) ∧
      ∃ b : Bool, (b = true ↔ ∀ i < 512 / w, set i) ∧
        exec (.vtestAll sl ty pd va) s = .next (t.issued (.vtestAll sl ty pd va) sl slotM [dP pd] n u [(4, .setP pd.toNat b)])))

/-- The correctly rounded functions and the generator's instructions (R58, R59, R65, R73, R145, R152, R153). Conversions between binary32
lanes and element formats (R44, R45, R148 to R150). In part the model's own readings: log entry 21. -/
def Obligations.VectorFunctionsAndConversions : Prop :=
  (∀ (s t : State) (sl : Slot) (vd va sb sc : BitVec 5) (rm ty : BitVec 2) (n u : Nat), Runs s t sl slotM [dV vd] n u →
    let c := t.core n u
    let r1 := t.rev1
    let seed := (t.ctx n u sl).seed
    let funs := fun (fn : Fun) (i : BitVec 2 → BitVec 2 → BitVec 5 → Instr) =>
      (let r := packRes 32 16 fun i => f32Fun r1 fn (laneAt (c.rv va) 32 i)
       exec (i 0 0 0) s = .next (t.issued (i 0 0 0) sl slotM [dV vd] n u ((10, vecWhole vd r.1) :: condEffs 10 r.2))) ∧
      (rm ≠ 3 →
        let r := packRes 16 32 fun i =>
          let p := f32Fun r1 fn (laneAt (c.rv va) 16 i * 2 ^ 16)
          let q := narrowIeee r1 fmtBF16 (rmOf rm) (if rm = 2 then seed.rnd24 (c.rs sb + BitVec.ofNat 32 i) else 0) p.1
          (q.1, p.2 ||| q.2)
        exec (i 1 rm sb) s = .next (t.issued (i 1 rm sb) sl slotM [dV vd] n u ((10, vecWhole vd r.1) :: condEffs 10 r.2)))
    funs .exp (fun a b d => .vexp sl a vd va b d) ∧ funs .exp2 (fun a b d => .vexp2 sl a vd va b d) ∧
    funs .log (fun a b d => .vlog sl a vd va b d) ∧ funs .log2 (fun a b d => .vlog2 sl a vd va b d) ∧
    funs .rcp (fun a b d => .vrcp sl a vd va b d) ∧ funs .sqrt (fun a b d => .vsqrt sl a vd va b d) ∧
    funs .rsqrt (fun a b d => .vrsqrt sl a vd va b d) ∧ funs .tanh (fun a b d => .vtanh sl a vd va b d) ∧
    funs .erf (fun a b d => .verf sl a vd va b d) ∧ funs .sig (fun a b d => .vsig sl a vd va b d) ∧
    (∀ dom : Bool, exec (.vrand sl vd sb dom) s = .next (t.issued (.vrand sl vd sb dom) sl slotM [dV vd] n u
      [(5, vecWhole vd (packLanes 32 16 fun l =>
        (bcgWord (seed.eval (c.rs sb + BitVec.ofNat 32 (l / 4)) dom) (l % 4)).toNat))])) ∧
    (ty ≠ 2 →
      let w := if ty = 1 then 16 else if ty = 3 then 8 else 32
      exec (.vdrop sl ty vd va sb sc) s = .next (t.issued (.vdrop sl ty vd va sb sc) sl slotM [dV vd] n u
        [(5, vecWhole vd (packLanes w (512 / w) fun i =>
          if (c.rs sc).toNat % 65536 ≤ seed.rnd16 (c.rs sb + BitVec.ofNat 32 i) then laneAt (c.rv va) w i else 0))]))) ∧
  (∀ (s t : State) (sl : Slot) (vd va vb sb : BitVec 5) (fmt : BitVec 4) (pos : BitVec 3) (rm : BitVec 2) (sat : Bool) (n u : Nat),
    Runs s t sl slotM [dV vd] n u →
    let c := t.core n u
    let r1 := t.rev1
    (pos.toNat ≤ (narrowShape fmt).2.2 → rm ≠ 3 → (sat = true → fmt = 0) → (fmtScaled fmt = true ∨ vb = 0) →
      let num := (narrowShape fmt).1
      let bytes := (narrowShape fmt).2.1
      let input := fun i => if i < 16 then laneAt (c.rv va) 32 i else laneAt (c.rv vb) 32 (i - 16)
      let rnd := fun (i : Nat) => if rm = 2 then (t.ctx n u sl).seed.rnd24 (c.rs sb + BitVec.ofNat 32 i) else 0
      let sc := if fmtScaled fmt then blockScale fmt ((List.range num).map input) else 0x7F
      let r := packRes (regBits fmt) num fun i =>
        if fmtScaled fmt then narrowBlock fmt sc (rmOf rm) (rnd i) (input i)
        else narrowPlain r1 fmt (rmOf rm) sat (rnd i) (input i)
      let lo := bytes * pos.toNat
      exec (.vcvtNarrow sl fmt vd va vb pos rm sat sb) s = .next (t.issued (.vcvtNarrow sl fmt vd va vb pos rm sat sb) sl slotM [dV vd] n u
        ((4, .setV vd.toNat (BitVec.ofNat 64 ((2 ^ bytes - 1) * 2 ^ lo)) (BitVec.ofNat 512 (r.1 * 2 ^ (8 * lo)))
          (BitVec.ofNat 8 ((2 ^ (bytes / 8) - 1) * 2 ^ (lo / 8))) (BitVec.ofNat 64 (packLanes 8 8 fun _ => sc))) ::
          condEffs 4 r.2))) ∧
    (pos.toNat ≤ (if regBits fmt = 4 then 7 else if regBits fmt = 16 then 1 else 3) →
      let r := packRes 32 16 fun i =>
        let e := 16 * pos.toNat + i
        widenElem r1 fmt (laneAt (c.rv va) (regBits fmt) e) (byteAt (c.rvs va) (regBits fmt * e / 64))
      exec (.vcvtWiden sl fmt vd va pos) s =
        .next (t.issued (.vcvtWiden sl fmt vd va pos) sl slotM [dV vd] n u ((4, vecWhole vd r.1) :: condEffs 4 r.2))))

/-- Loads, stores and the load of a weight stage (R99 to R102, R155, R156, R161 to R163); a corrected read also counts. In part the
model's own readings: log entries 26, 169. -/
def Obligations.LoadsAndStores : Prop :=
  ∀ (s t : State) (sl : Slot) (sa : BitVec 5) (n u : Nat), sl.ecc ≠ .uncorrectable →
    let c := t.core n u
    let base := t.tileBase n u
    let more := if sl.ecc = .corrected then [(1, Eff.corrected)] else []
    (∀ (rd : BitVec 5) (imm : BitVec 16) (size : BitVec 2) (sx : Bool),
      let len := 2 ^ size.toNat
      let a := addrOf (c.rs sa) imm.toInt
      Runs s t sl slotX [dS rd] n u → size.toNat < 3 → ¬(sx = true ∧ size = 2) → t.readable n u a len len →
      exec (.ld sl rd sa imm size sx) s = .next (t.issued (.ld sl rd sa imm size sx) sl slotX [dS rd] n u
        ((3, .setS rd.toNat (if sx then (BitVec.ofNat (8 * len) (t.readNat (base + a) len)).signExtend 32
          else BitVec.ofNat 32 (t.readNat (base + a) len))) :: more))) ∧
    (∀ (rs : BitVec 5) (imm : BitVec 16) (size : BitVec 2),
      let len := 2 ^ size.toNat
      let a := addrOf (c.rs sa) imm.toInt
      Runs s t sl slotX [] n u → size.toNat < 3 → t.readable n u a len len → c.portFree 1 →
      exec (.st sl rs sa imm size false) s = .next (t.issued (.st sl rs sa imm size false) sl slotX [] n u
        ((1, .store a (bytesOfNat len (c.rs rs).toNat) c.prov) :: more))) ∧
    (∀ (vd sc : BitVec 5) (mode : BitVec 3) (imm : BitVec 11),
      let a := addrOf (c.rs sa) (64 * imm.toInt)
      let line := t.readLine (base + a)
      let loads := fun (data : Line) (scales : BitVec 64) => exec (.vld sl vd sa mode sc imm) s =
        .next (t.issued (.vld sl vd sa mode sc imm) sl slotX [dV vd] n u ((3, .setV vd.toNat (BitVec.allOnes 64) data 0xFF#8 scales) :: more))
      let six := BitVec.ofNat 512 (packLanes 8 64 fun i => sixAt line.toNat i)
      Runs s t sl slotX [dV vd] n u → t.readable n u a 64 64 →
        (mode = 0 → sc = 0 → loads line plainScales) ∧ (mode = 1 → sc = 0 → loads six plainScales) ∧
        (mode = 2 → sc.toNat % 2 = 0 → loads line (c.rsPair sc)) ∧ (mode = 3 → sc.toNat % 2 = 0 → loads six (c.rsPair sc))) ∧
    (∀ (vs : BitVec 5) (imm : BitVec 11),
      let a := addrOf (c.rs sa) (64 * imm.toInt)
      Runs s t sl slotX [] n u → a % 64 = 0 → a + 64 ≤ tileSize → c.portFree 1 →
      exec (.vst sl vs sa 0 0 imm) s = .next (t.issued (.vst sl vs sa 0 0 imm) sl slotX [] n u
        [(1, .store a (bytesOfNat 64 (c.rv vs).toNat) c.prov)]) ∧
      exec (.vst sl vs sa 1 0 imm) s = .next (t.issued (.vst sl vs sa 1 0 imm) sl slotX [] n u
        [(1, .store a (bytesOfNat 48 (packLanes 6 64 fun i => laneAt (c.rv vs) 8 i)) c.prov)])) ∧
    (∀ (va : BitVec 5) (h : Bool) (imm : BitVec 16),
      let a := addrOf (c.rs sa) imm.toInt
      Runs s t sl slotX [] n u → t.readable n u a 4 4 → c.portFree 1 →
      exec (.vsts sl va sa h imm) s = .next (t.issued (.vsts sl va sa h imm) sl slotX [] n u
        ((1, .store a (bytesOfNat 4 ((c.rvs va).toNat / 2 ^ (if h then 32 else 0) % 2 ^ 32)) c.prov) :: more))) ∧
    (∀ (fmt : BitVec 4) (part : BitVec 2) (imm : BitVec 16),
      let a := addrOf (c.rs sa) imm.toInt
      let len := if part = 2 then 16 else 64
      Runs s t sl slotX [] n u → s.swapStalls n u = false → t.readable n u a len len →
      (part = 0 ∨ (part = 1 ∧ fmtBits fmt ≠ 16) ∨ (part = 2 ∧ fmtScaled fmt = true)) →
      c.swapIssued = false → (t.island n).fill = none → (c.idleTag = none ∨ c.idleTag = some fmt) →
      exec (.wld sl fmt part sa imm) s = .next (t.issued (.wld sl fmt part sa imm) sl slotX [] n u
        ((3, .fillPart fmt part.toNat (BitVec.ofNat 512 (t.readNat (base + a) len))) :: more)))

/-- send, recv and stream.put (R107, R164, R165, R167). In part the model's own readings: log entry 29. -/
def Obligations.SendReceivePut : Prop :=
  ∀ (s t : State) (sl : Slot) (n u : Nat),
    let c := t.core n u
    (∀ (rid : BitVec 8) (va sa : BitVec 5) (imm : BitVec 11), Runs s t sl slotX [] n u →
      let sends := fun (i : Instr) (lat : Nat) (data : Line) (more : List (Nat × Eff)) =>
        (∀ f ∈ c.flight, f.left = lat → ∀ p, f.eff ≠ .present p) → exec i s = .next (t.issued i sl slotX [] n u
          ((lat, .present { rid := rid.toNat, data := data, prov := c.prov }) :: more))
      let a := addrOf (c.rs sa) (64 * imm.toInt)
      sends (.sendRegister sl rid va 0) 1 (c.rv va) [] ∧
      (t.readable n u a 64 64 → sl.ecc ≠ .uncorrectable →
        sends (.sendMemory sl rid sa imm) 2 (t.readLine (t.tileBase n u + a))
          (if sl.ecc = .corrected then [(1, Eff.corrected)] else []))) ∧
    (∀ (d : BitVec 5) (ind : Bool) (entry : BitVec 6) (sa : BitVec 5),
      let e := if ind then (c.rs sa).toNat % 64 else entry.toNat
      (c.rm e).full = true →
        (Runs s t sl slotX [dV d] n u →
          exec (.recvVector sl d ind entry sa) s = .next (t.issued (.recvVector sl d ind entry sa) sl slotX [dV d] n u
            [(2, .setV d.toNat (BitVec.allOnes 64) (c.rm e).data 0xFF#8 plainScales), (1, .takeMbx e)])) ∧
        (Runs s t sl slotX [dS d] n u →
          exec (.recvScalar sl d ind entry sa) s = .next (t.issued (.recvScalar sl d ind entry sa) sl slotX [dS d] n u
            [(2, .setS d.toNat (BitVec.ofNat 32 (c.rm e).data.toNat)), (1, .takeMbx e)]))) ∧
    (∀ (ch : BitVec 3) (va : BitVec 5), Runs s t sl slotX [] n u →
      let h := Tbl.get Chan.empty c.chans ch.toNat
      t.getF (aIslPutBind n u ch.toNat) F.islPutBind_valid = 1 → (h.quarters = [] ∨ h.prov = c.prov) →
      (h.quarters.length ≠ 3 ∨ (t.island n).launchOut.length + t.putsUnderWay n < 4) →
      exec (.streamPut sl ch va) s = .next (t.issued (.streamPut sl ch va) sl slotX [] n u [(1, .put ch.toNat (c.rv va) c.prov)]))

/-- Remote operations are handed to the global memory unit in the lowest free tracker, with their operands (R169 to R173). In part the
model's own readings: log entry 22. -/
def Obligations.RemoteOps : Prop :=
  ∀ (s t : State) (sl : Slot) (sa sb sc : BitVec 5) (ctr : BitVec 8) (n u k : Nat), Runs s t sl slotX [] n u →
    let c := t.core n u
    let g := (c.rsPair sa).toNat
    let b := (c.rs sb).toNat
    let p := (c.rs sc).toNat
    sa.toNat % 2 = 0 → ctr.toNat ≠ 255 → g < 2 ^ 56 → c.prov = 0 → c.freeTracker = some k →
    let hands := fun (i : Instr) (op : Nat) => exec i s = .next (t.issued i sl slotX [] n u
      [(1, .remote k { op := op, gaddr := g, buf := b, parm := c.rs sc, ctr := ctr.toNat, prov := 0 })])
    (p % 8 = 0 → 8 ≤ p → p ≤ 256 → g % 8 = 0 → g % 256 + p ≤ 256 → b % 8 = 0 → b + p ≤ tileSize →
      hands (.rmemRd sl sa sb sc ctr) 0 ∧ hands (.rmemWr sl sa sb sc ctr) 1) ∧
    (let len := p % 2 ^ 18
     p < 2 ^ 30 → len % 8 = 0 → 8 ≤ len → len ≤ 163840 → g % 8 = 0 → b % 8 = 0 → b + len ≤ tileSize →
      hands (.rmemPut sl sa sb sc ctr) 2) ∧
    (let size := match p / 256 % 4 with | 0 => 1 | 1 => 1 | 2 => 2 | _ => 4
     let len := (p % 256 + 1) * size
     p < 2 ^ 22 → g % (if p / 1024 % 2 = 1 then 8 else 2) = 0 → b % size = 0 → b + len ≤ tileSize →
      hands (.rmemXadd sl sa sb sc ctr) 3) ∧
    (sc = 0 → g % 8 = 0 → b % 8 = 0 → b + 8 ≤ tileSize → hands (.rmemFadd sl sa sb sc ctr) 4) ∧
    (sc = 0 → g % 8 = 0 → b % 16 = 0 → b + 16 ≤ tileSize → hands (.rmemCas sl sa sb sc ctr) 5) ∧
    (sb = 0 → g % 8 = 0 → t.isSyncAddr g = true → hands (.rmemSinc sl sa sb sc ctr) 6)

/-- Counters, completion counts and waits (R174, R175, R177, R178, R207): a wait that is satisfied issues with no effect of its own, a
wait.cyc sets the island's cycle count. breath.end, step.set, prov.begin, prov.end and susp.set (R168, R179 to R182). -/
def Obligations.CountersWaitsAndSteps : Prop :=
  (∀ (s t : State) (sl : Slot) (m : BitVec 8) (rd sa : BitVec 5) (imm : BitVec 16) (k : BitVec 12) (w : BitVec 24) (n u : Nat),
    let c := t.core n u
    let ctr := BitVec.ofNat 32 (t.getF (aIslSync n m.toNat) F.islSync_value)
    (Runs s t sl slotX [] n u →
      let gives := fun (i : Instr) (l : List (Nat × Eff)) => exec i s = .next (t.issued i sl slotX [] n u l)
      gives (.syncAdd sl m true sa imm) [(2, .syncAdd m.toNat (BitVec.ofNat 32 imm.toNat))] ∧
      gives (.syncAdd sl m false sa 0) [(2, .syncAdd m.toNat (c.rs sa))] ∧
      gives (.syncSet sl m false sa) [(2, .syncSet m.toNat (c.rs sa))] ∧
      (0 ≤ (ctr - c.rs sa).toInt → gives (.syncWait sl m false sa) []) ∧
      (0 ≤ (BitVec.ofNat 32 (t.getF (aCrpCc k.toNat) F.crpCc_value) - c.rs sa).toInt → gives (.ccWait sl k sa) []) ∧
      (∀ f : Bool, (f = false → w = 0) →
        let target := if f then w.toNat else (c.rs sa).toNat
        let late := if target < (t.island n).cyc0 then [(1, Eff.waitLate)] else []
        CompletesWith (exec (.waitCyc sl f sa w) s) fun v =>
          (v.island n).cyc = max (t.island n).cyc target ∧
          (v.island n).waitMax = some (max ((t.island n).waitMax.getD 0) target) ∧
          (v.island n).lag = max (t.island n).cyc target - max ((t.island n).waitMax.getD 0) target ∧
          (∀ r, (v.core n u).rs r = c.rs r) ∧ (∀ p, (v.core n u).rp p = c.rp p) ∧ t.sameMemory v ∧
          (target ≤ (t.island n).cyc → v.regs = t.regs ∧
            v.core n u = (c.openSlot (.waitCyc sl f sa w) sl slotX []).launch late))) ∧
    (Runs s t sl slotX [dS rd] n u →
      exec (.syncRd sl rd m false) s = .next (t.issued (.syncRd sl rd m false) sl slotX [dS rd] n u [(3, .readSync rd.toNat m.toNat ctr)]))) ∧
  (∀ (s t : State) (sl : Slot) (sa : BitVec 5) (tag : BitVec 2) (reason : BitVec 16) (n u : Nat),
    let c := t.core n u
    let gives := fun (dests : List Nat) (i : Instr) (e : Eff) =>
      Runs s t sl slotX dests n u → exec i s = .next (t.issued i sl slotX dests n u [(1, e)])
    ((∀ ch < 8, (Tbl.get Chan.empty c.chans ch).quarters = []) → gives [] (.breathEnd sl) .endBreath) ∧
    (sa.toNat % 2 = 0 → gives [dSpecial 1] (.stepSet sl sa) (.setStep (c.rsPair sa))) ∧
    (tag ≠ 0 → gives [dSpecial 8] (.provBegin sl tag) (.setProv tag)) ∧
    gives [dSpecial 8] (.provEnd sl) (.setProv 0) ∧
    gives [] (.suspSet sl reason) (.suspect c.step reason))

/-- Form SR, SI, compares, transfers, special registers and SRAM accesses on a control core (R474): 64-bit scalars, target offsets in
bundles from the first bundle of the group, one bundle delivering before the next. In part the model's own readings: log entry 44. -/
def Obligations.ControlCoreOps : Prop :=
  ∀ (s : State) (sl : Slot) (rd ra rb : BitVec 5) (pd cond : BitVec 3) (imm : BitVec 16) (target : BitVec 11) (k : Nat) (c : CtlCore),
    let a := c.rs ra
    let b := c.rs rb
    (CtlRuns s sl slotS [dS rd] k c →
      let gives := fun (i : Instr) (x : BitVec 64) => exec i s = .next (s.ctlIssued sl slotS [dS rd] k c [(rd.toNat, x)] [])
      gives (.add sl rd ra rb) (BitVec.ofInt 64 (a.toInt + b.toInt)) ∧
      gives (.sub sl rd ra rb) (BitVec.ofInt 64 (a.toInt - b.toInt)) ∧
      gives (.and sl rd ra rb) (a &&& b) ∧ gives (.or sl rd ra rb) (a ||| b) ∧ gives (.xor sl rd ra rb) (a ^^^ b) ∧
      gives (.shl sl rd ra rb) (BitVec.ofNat 64 (a.toNat * 2 ^ (b.toNat % 64))) ∧
      gives (.shr sl rd ra rb) (BitVec.ofNat 64 (a.toNat / 2 ^ (b.toNat % 64))) ∧
      gives (.sra sl rd ra rb) (BitVec.ofInt 64 (a.toInt / 2 ^ (b.toNat % 64))) ∧
      gives (.min sl rd ra rb) (BitVec.ofInt 64 (Min.min a.toInt b.toInt)) ∧
      gives (.max sl rd ra rb) (BitVec.ofInt 64 (Max.max a.toInt b.toInt)) ∧
      gives (.minu sl rd ra rb) (BitVec.ofNat 64 (Min.min a.toNat b.toNat)) ∧
      gives (.maxu sl rd ra rb) (BitVec.ofNat 64 (Max.max a.toNat b.toNat)) ∧
      gives (.mul sl rd ra rb) (BitVec.ofInt 64 (a.toInt * b.toInt)) ∧
      gives (.mulh sl rd ra rb) (BitVec.ofInt 64 (a.toInt * b.toInt / 2 ^ 64)) ∧
      gives (.mulhu sl rd ra rb) (BitVec.ofNat 64 (a.toNat * b.toNat / 2 ^ 64)) ∧
      gives (.addi sl rd ra imm) (BitVec.ofInt 64 (a.toInt + imm.toInt)) ∧
      gives (.movhi sl rd ra imm) (BitVec.ofInt 64 (BitVec.ofNat 32 (imm.toNat * 65536 + a.toNat % 65536)).toInt) ∧
      gives (.movsh sl rd ra imm) (BitVec.ofNat 64 (a.toNat * 65536 + imm.toNat)) ∧
      gives (.smovFromSpecial sl rd 0x10) s.beat ∧ gives (.smovFromSpecial sl rd 0x11) (BitVec.ofNat 64 k) ∧
      (c.taken = none → ∃ x : BitVec 64, (sl.eog = true → x = BitVec.ofNat 64 (2 ^ 63 + c.pc + 16)) ∧
        exec (.jal sl rd target) s =
          .next (s.ctlJump sl slotS [dS rd] k c [(rd.toNat, x)] ((c.groupPc : Int) + 16 * target.toInt).toNat))) ∧
    (CtlRuns s sl slotS [dP pd] k c → cond = 2 →
      exec (.cmp sl pd cond ra rb) s =
        .next (s.ctlIssued sl slotS [dP pd] k c [] [(pd.toNat, decide (a.toInt < b.toInt))])) ∧
    (CtlRuns s sl slotS [] k c → c.taken = none →
      exec (.br sl target) s = .next (s.ctlJump sl slotS [] k c [] ((c.groupPc : Int) + 16 * target.toInt).toNat) ∧
      ∀ off : Nat, off < 2 * 2 ^ 20 → off % 16 = 0 → a = BitVec.ofNat 64 (2 ^ 63 + off) →
        exec (.jr sl ra) s = .next (s.ctlJump sl slotS [] k c [] off)) ∧
    (∀ (size : BitVec 2) (off : Nat), off + 8 ≤ 2 * 2 ^ 20 → off % 8 = 0 →
      a + BitVec.ofInt 64 imm.toInt = BitVec.ofNat 64 (2 ^ 63 + off) →
      let len := 2 ^ size.toNat
      (CtlRuns s sl slotX [dS rd] k c →
        exec (.ld sl rd ra imm size false) s = .next (s.ctlIssued sl slotX [dS rd] k c
          [(rd.toNat, BitVec.ofNat 64 (natOfBytes ((List.range len).map fun i => Tbl.get 0 s.sram (off + i))))] [])) ∧
      (CtlRuns s sl slotX [] k c →
        CompletesWith (exec (.st sl rb ra imm size false) s) fun t =>
          (∀ i, Tbl.get 0 t.sram i =
            if off ≤ i ∧ i < off + len then BitVec.ofNat 8 (b.toNat / 2 ^ (8 * (i - off))) else Tbl.get 0 s.sram i) ∧
          s.sameMemory t ∧ t.regs = s.regs))

/-- An instruction whose predicate is false issues with no effect but its place in the bundle, and one whose encoding is reserved faults:
the core stops, the fault is recorded if it is the first, the island is fenced and the breath is aborted (R116, R119, R123, R235). In part
the model's own readings: log entry 13. -/
def Obligations.PredicatedOffAndIllegal : Prop :=
  ∀ (s t : State) (op : Op) (n u : Nat) (legal : Bool) (body : State → CtlCore → CtlBody), Reaches s t op.sl op.slot n u →
    (op.legal = true → dupDest (t.core n u).dests op.slot op.dests = false → (t.core n u).rp op.sl.pred = false →
      issue s op legal body = .next (t.setCore n u ((t.core n u).openSlot op.i op.sl op.slot op.dests))) ∧
    (op.legal = false → t.getF (aIslCoreFault n u) F.islCoreFault_code = 0 → t.isFenced n = false →
      CompletesWith (issue s op legal body) fun v =>
        (v.core n u).run = .faulted ∧ v.getF (aIslCoreFault n u) F.islCoreFault_code = 1 ∧
        (op.slot < 3 → v.getF (aIslCoreFault n u) F.islCoreFault_slot = op.slot) ∧
        v.getF (aIslBreath n) F.islBreath_state = 2 ∧ v.brt.aborted = true ∧ v.sameMemory t)

/-- What the delivery of an effect on a core's own registers writes, and that it writes nothing else (R81, R96, R97, R110, R131). A store
delivered writes its bytes, lowest address first, and no others; it gives its lines the core's tag (R97, R99, R100); no register and no
core changes. -/
def Obligations.DeliveryWritesItsDestination : Prop :=
  (∀ (c : Core) (cyc : Nat),
    (∀ (r : Nat) (x : BitVec 32), r < 32 →
      c.apply cyc (.setS r x) = { c with sregs := (c.apply cyc (.setS r x)).sregs } ∧
      ∀ i : BitVec 5, (c.apply cyc (.setS r x)).rs i = if i.toNat = r ∧ r ≠ 0 then x else c.rs i) ∧
    (∀ (r : Nat), r < 32 →
      c.apply cyc (.setCyc r) = { c with sregs := (c.apply cyc (.setCyc r)).sregs } ∧
      ∀ i : BitVec 5, (c.apply cyc (.setCyc r)).rs i = if i.toNat = r ∧ r ≠ 0 then BitVec.ofNat 32 cyc else c.rs i) ∧
    (∀ (p : Nat) (b : Bool), p < 8 →
      c.apply cyc (.setP p b) = { c with preds := (c.apply cyc (.setP p b)).preds } ∧
      ∀ i : BitVec 3, (c.apply cyc (.setP p b)).rp i = if i.toNat = p ∧ p ≠ 0 then b else c.rp i) ∧
    (∀ (v : Nat) (mask scales : BitVec 64) (data : BitVec 512) (smask : BitVec 8), v < 32 →
      let d := c.apply cyc (.setV v mask data smask scales)
      d = { c with vregs := d.vregs, vscales := d.vscales } ∧
      ∀ i : BitVec 5, (i.toNat ≠ v → d.rv i = c.rv i ∧ d.rvs i = c.rvs i) ∧
        (i.toNat = v → (∀ b < 64, byteAt (d.rv i) b = if mask.getLsbD b then byteAt data b else byteAt (c.rv i) b) ∧
          ∀ g < 8, byteAt (d.rvs i) g = if smask.getLsbD g then byteAt scales g else byteAt (c.rvs i) g)) ∧
    (∀ (x : BitVec 5), c.apply cyc (.setAstat x) = { c with astat := x } ∧ c.apply cyc (.orAstat x) = { c with astat := c.astat ||| x }) ∧
    (∀ (x : BitVec 32), (c.apply cyc (.setTensor x)).tensor.toNat = x.toNat % 2 ^ 31) ∧
    (c.apply cyc .swap).activeStage = c.idleStage ∧ (c.apply cyc .swap).idleStage = Stage.empty ∧
    (∀ (q : Nat) (ls : List LaneAdd), ls.length = 16 →
      let d := c.apply cyc (.accAdd q ls)
      d = { c with qs := d.qs } ∧ (∀ r, r ≠ q → d.rq r = c.rq r) ∧ (d.rq q).anchor = (c.rq q).anchor ∧
      ∀ j < 16, (d.rq q).lane j = ((c.rq q).lane j).add (ls.getD j LaneAdd.zero)) ∧
    (∀ (qa qb : Nat) (a : BitVec 11), qa ≤ qb →
      let d := c.apply cyc (.accClear qa qb a)
      d = { c with qs := d.qs, flight := d.flight } ∧
      ∀ r, d.rq r = if qa ≤ r ∧ r ≤ qb then { anchor := a, lanes := [] } else c.rq r) ∧
    (∀ (r k : Nat) (x : BitVec 32), c.apply cyc (.readSync r k x) = c.apply cyc (.setS r x)) ∧
    (∀ e : Nat, ((c.apply cyc (.takeMbx e)).rm e).full = false ∧ ((c.apply cyc (.takeMbx e)).rm e).data = (c.rm e).data)) ∧
  (∀ (s : State) (n u : Nat),
    let t := s.deliver n u .waitLate
    t.getF (aIslWaitLate n) F.islWaitLate_count = raised F.islWaitLate_count (s.getF (aIslWaitLate n) F.islWaitLate_count) 1 ∧
    s.regsBut t [(aIslWaitLate n, F.islWaitLate_count)] ∧ t.cores = s.cores ∧ s.sameMemory t) ∧
  (∀ (s : State) (n u a : Nat) (bytes : List Byte) (tag : BitVec 2),
    let t := s.deliver n u (.store a bytes tag)
    let g := s.tileBase n u + a
    (∀ i, t.readByte i = if g ≤ i ∧ i < g + bytes.length then bytes.getD (i - g) 0 else s.readByte i) ∧
    (∀ i, t.tagAt i = if g / 64 ≤ i / 64 ∧ i / 64 ≤ (g + bytes.length - 1) / 64 ∧ bytes ≠ [] then tag else s.tagAt i) ∧
    t.regs = s.regs ∧ t.cores = s.cores ∧ t.clusters = s.clusters ∧ t.islands = s.islands)

/-- An effect issued with latency L delivers at the end of the L-th issue cycle from its own, and not before (R81). An issue cycle in
which no switch faults and no breath is aborted leaves every core of the island with the scalars and predicates that its due effects give,
and the scalars of cores of other islands alone (R81, R82). In part the model's own readings: log entry 14. -/
def Obligations.DeliveryIsOnTime : Prop :=
  (∀ (c : Core) (lat : Nat) (e : Eff), c.flight = [] → 1 ≤ lat →
    (∀ k < lat - 1, (Nat.repeat Core.tickFlights k (c.launch [(lat, e)])).due = []) ∧
    (Nat.repeat Core.tickFlights (lat - 1) (c.launch [(lat, e)])).due = [e] ∧
    (Nat.repeat Core.tickFlights lat (c.launch [(lat, e)])).flight = []) ∧
  (∀ (s : State) (n u : Nat),
    let t := (s.liveCores n).foldl (fun s u => s.fetchIdle n u) s
    let due := (t.core n u).due.foldl (fun c e => c.apply (t.island n).cyc e) (t.core n u)
    Tbl.wf Core.reset s.cores = true → u < 1024 → t.endFaults n = t → t.brt.aborted = false →
    (∀ r, ((s.issueCycle n).core n u).rs r = due.rs r) ∧ (∀ p, ((s.issueCycle n).core n u).rp p = due.rp p) ∧
    (∀ m v r, m ≠ n → v < 1024 → ((s.issueCycle n).core m v).rs r = (s.core m v).rs r))

/-- A hold (R85, R86, R165): a recv from an empty entry stalls the island, which keeps this instruction and every later one of its cores
until the hold ends. An island that stalls for k more cycles below its limit counts them, lags by them and goes on stalling; no scalar of
its cores changes (R86 to R88, R92, R207). A stall of one core that passes the limit raises the stall-timeout fault, which aborts the
breath (R90, R235). A hold ends: a recv that waited for its entry issues, and the island stalls no more (R86, R107, R165). In part the
model's own readings: log entries 135, 149. -/
def Obligations.HoldsAndStalls : Prop :=
  (∀ (s t : State) (sl : Slot) (vd sa : BitVec 5) (entry : BitVec 6) (n u : Nat), Runs s t sl slotX [dV vd] n u →
    ((t.core n u).rm entry.toNat).full = false →
    CompletesWith (exec (.recvVector sl vd false entry sa) s) fun v =>
      (v.island n).stalls = [{ unit := u, slot := slotX, cause := 0, id := entry.toNat }] ∧
      (v.island n).held = ((t.liveCores n).flatMap fun k => (t.core n k).cmds).map (fun i => (0, i)) ++ (t.island n).held ++
        [(0, .recvVector sl vd false entry sa)] ∧
      (∀ m k, k < 1024 → v.core m k = if m = n then (t.core m k).undo else t.core m k) ∧ v.sameMemory t ∧
      ((t.island n).cyc = (t.island n).cyc0 → v.regs = t.regs)) ∧
  (∀ (s : State) (n k : Nat), n < s.numIslands → (s.island n).stalls ≠ [] → (s.island n).released = [] → (s.island n).adds = [] →
    let x := s.island n
    let limit := s.getF (aIslStallLimit n) F.islStallLimit_cycles
    (x.stallRun + k ≤ limit → s.getF (aIslStallCnt n) F.islStallCnt_count + k < 2 ^ F.islStallCnt_count.width →
      x.cyc + k < 2 ^ 32 →
      CompletesWith (exec (.stallTimeout n k) s) fun t =>
        t.getF (aIslStallCnt n) F.islStallCnt_count = s.getF (aIslStallCnt n) F.islStallCnt_count + k ∧
        (t.island n).stallRun = x.stallRun + k ∧ (t.island n).lag = x.lag + k ∧ (t.island n).cyc = x.cyc + k ∧
        (t.island n).stalls = x.stalls ∧ (t.island n).held = x.held ∧
        ∀ u r, u < 1024 → (t.core n u).rs r = (s.core n u).rs r) ∧
    (∀ (a : StallAt) (k : Nat), x.stalls = [a] → 0 < k → limit < x.stallRun + 1 → s.isFenced n = false →
      CompletesWith (exec (.stallTimeout n k) s) fun t =>
        t.brt.aborted = true ∧ (t.island n).stalls = [] ∧ (t.island n).held = [] ∧ t.getF (aIslBreath n) F.islBreath_state = 2 ∧
        (960 ≤ a.unit → (t.cluster n (a.unit - 960)).faulted = true) ∧
        (a.unit < 960 → (t.core n a.unit).run = .faulted ∧
          (a.slot < 3 → (s.core n a.unit).causes = [] → s.getF (aIslCoreFault n a.unit) F.islCoreFault_code = 0 →
            t.getF (aIslCoreFault n a.unit) F.islCoreFault_code = 0x0A ∧
            t.getF (aIslCoreFault n a.unit) F.islCoreFault_slot = a.slot)))) ∧
  (∀ (s t : State) (sl : Slot) (vd sa : BitVec 5) (entry : BitVec 6) (n u k : Nat) (a : StallAt),
    let c := t.core n u
    n < s.numIslands → (s.island n).stalls ≠ [] → t = State.stallFor n k s →
    sl.site = .core n u → t.hasCore n u = true → (t.island n).stalls = [a] → (t.island n).resume = false →
    (t.island n).held = [(0, .recvVector sl vd false entry sa)] → (t.island n).halted = false → t.brt.aborted = false →
    c.run = .issuing → c.causes = [] → (c.open_ = true ∨ c.group < 8) → sl.fetch = .clean → sl.hdr = 0 → sl.res = false → sl.chk = 0 →
    (t.ctx n u sl).fetchFault = none → dupDest c.dests slotX [dV vd] = false → c.rp sl.pred = true →
    (c.rm entry.toNat).full = true →
    CompletesWith (exec (.islandHoldRelease n k) s) fun v =>
      (v.island n).stalls = [] ∧ (v.island n).held = [] ∧ v.regs = t.regs ∧ t.sameMemory v ∧
      v.core n u = (c.openSlot (.recvVector sl vd false entry sa) sl slotX [dV vd]).launch
        [(2, .setV vd.toNat (BitVec.allOnes 64) (c.rm entry.toNat).data 0xFF#8 plainScales), (1, .takeMbx entry.toNat)])

/-! ### The control space -/

/-- A plain register write: RW fields take the value, RW1C bits written with 1 clear unless hardware sets them in the same cycle, every
other field and every other register is unchanged (R8, R10, R11). Accesses that are refused change no register: a size other than 8 bytes,
an address that is not aligned, an address where no register lies, a register the present state protects, a reserved encoding (R8, R10,
R13). -/
def Obligations.RegisterWrites : Prop :=
  (∀ (s : State) (a : Nat) (r : RegName) (v hw : Word), s.regAt a = some r → r.plain →
    s.writeRefused r a = false → writeReserved r v.toNat = false →
    CompletesWith (exec (.registerWrite a 8 v hw) s) fun t =>
      (∀ f ∈ r.fields, (f.acc = .rw → t.getF a f = v.toNat / 2 ^ f.lo % 2 ^ f.width) ∧
        (f.acc = .rw1c → ∀ b < f.width, (t.getF a f).testBit b =
          ((s.getF a f).testBit b && !v.getLsbD (f.lo + b) || hw.getLsbD (f.lo + b))) ∧
        (f.acc ≠ .rw → f.acc ≠ .rw1c → t.getF a f = s.getF a f)) ∧
      (∀ b g, b ≠ a → g.lo < 64 → t.getF b g = s.getF b g) ∧ t.bus.err = false ∧ s.sameMemory t ∧ t.cores = s.cores) ∧
  (∀ (s : State) (a len : Nat) (v hw : Word) (same : List (Nat × Nat)),
    ((len ≠ 8 ∨ a % 8 ≠ 0) →
      exec (.registerWrite a len v hw) s = .next (s.busDone true) ∧ exec (.rcClearingRead a len same) s = .next (s.busDone true)) ∧
    (s.regAt a = none → ¬(valveBase ≤ a ∧ a < valveBase + valveSize) →
      exec (.registerWrite a 8 v hw) s = .next (s.busDone true) ∧ exec (.rcClearingRead a 8 same) s = .next (s.busDone true)) ∧
    (∀ r, s.regAt a = some r → r.plain → (s.writeRefused r a = true ∨ writeReserved r v.toNat = true) →
      CompletesWith (exec (.registerWrite a 8 v 0) s) fun t => t.bus.err = true ∧
        (∀ f ∈ r.fields, t.getF a f % 2 ^ f.width = s.getF a f % 2 ^ f.width) ∧
        (∀ b g, b ≠ a → g.lo < 64 → t.getF b g = s.getF b g) ∧ s.sameMemory t))

/-- A read of a register answers its word, fields in their places and write-only fields zero, and resets its RC fields and no other (R8,
R10, R11). In part the model's own readings: log entry 136. -/
def Obligations.RegisterReads : Prop :=
  ∀ (s : State) (a : Nat) (r : RegName), s.regAt a = some r →
    CompletesWith (exec (.rcClearingRead a 8 []) s) fun t =>
      t.bus.err = false ∧
      t.bus.data.toNat = (r.fields.map fun f => if f.acc = .wo then 0 else (s.refresh r a).getF a f * 2 ^ f.lo).sum % 2 ^ 64 ∧
      (∀ f ∈ r.fields, t.getF a f = if f.acc = .rc then f.reset % 2 ^ f.width else s.getF a f) ∧
      (∀ b g, b ≠ a → g.lo < 64 → t.getF b g = s.getF b g) ∧ s.sameMemory t ∧ t.cores = s.cores

/-! ### Holds, switches, crossings, landings, the scrubber -/

/-- Words of a cluster switch (R186 to R189): a word is begun at the next address; an idle word moves nothing, an end word ends the
switch, and a route word that names one route moves the data its source core presents to the mailboxes and mesh outputs of the route's
entry. In part the model's own readings: log entries 19, 20, 23. -/
def Obligations.SwitchWords : Prop :=
  ∀ (s : State) (n cl : Nat) (w : BitVec 128),
    let c := s.cluster n cl
    s.hasCluster n cl = true → s.issues n → c.word = none → c.ended = false → c.faulted = false → c.outside = false →
    s.wordInvalid n cl w = false →
    (w.toNat % 4 = 1 →
      CompletesWith (exec (.idleWord n cl w 0) s) fun t =>
        t.cluster n cl = { c with pc := c.next, next := c.next + 1, word := some { word := w, rep := 0 } } ∧ t.regs = s.regs ∧
        t.cores = s.cores ∧ s.sameMemory t) ∧
    (w.toNat % 4 = 2 →
      CompletesWith (exec (.endWord n cl w 0) s) fun t =>
        t.cluster n cl = { c with pc := c.next, next := c.next + 1, ended := true } ∧
        t.getF (aIslSwStatus n cl) F.islSwStatus_state = 0 ∧ t.cores = s.cores ∧ s.sameMemory t) ∧
    (∀ (id : Nat) (p : Present), w.toNat % 4 = 0 → wordRoutes w = [id] →
      let e := s.route n cl id
      routeSrc e < 60 → (s.core n (60 * cl + routeSrc e)).port = some p → p.rid = id → s.wordStalls n cl w = [] →
      CompletesWith (exec (.routeWord n cl w 0) s) fun t =>
        t.cluster n cl = { c with
          pc := c.next, next := c.next + 1, word := some { word := w, rep := 0 },
          outs := c.outs ++ (routeMesh e).map fun d => (d, p),
          writes := c.writes ++ (routeCores e).map fun k => { core := k, entry := e.toNat / 2 ^ 8 % 64, data := p.data, prov := p.prov },
          served := c.served ++ [routeSrc e] } ∧ t.regs = s.regs ∧ t.cores = s.cores ∧ s.sameMemory t)

/-- Crossings, landings, counter additions and the distributor (R108, R175, R191, R221, R222, R266): the oldest entry arrives, the oldest
indication arrives, the oldest landing is released, a held landing enters an empty entry, an addition counts in this cycle, a tile begins
when the stages are empty. In part the model's own readings: log entries 30, 35, 153. -/
def Obligations.CrossingsAndLandings : Prop :=
  ∀ (s : State) (n q : Nat) (bad : Bool), n < s.numIslands → q < 16 →
    let x := s.island n
    let parity := fun (t : State) => (bad = false → t.regs = s.regs) ∧ (bad = true → (t.getF aFltSusp F.fltSusp_newer).testBit 2 = true)
    (∀ (e : XEntry) (l : List XEntry), Tbl.get [] x.inbound q = e :: l → e.arrived = false →
      CompletesWith (exec (.crossingEntryVisible n q bad) s) fun t =>
        Tbl.get [] (t.island n).inbound q = { e with arrived := true, badPar := bad } :: l ∧ t.regs = s.regs ∧
        t.cores = s.cores ∧ s.sameMemory t ∧ ∀ r, r ≠ q → Tbl.get [] (t.island n).inbound r = Tbl.get [] x.inbound r) ∧
    (∀ f : XFree, Tbl.get [] x.taken q = [f] → f.arrived = false →
      CompletesWith (exec (.crossingFreeIndication n q) s) fun t =>
        Tbl.get [] (t.island n).taken q =
          (if f.old = true ∨ f.cyc + s.latR ≤ x.cyc then [] else [{ f with arrived := true }]) ∧
        (t.island n).inbound = x.inbound ∧ t.regs = s.regs ∧ t.cores = s.cores ∧ s.sameMemory t) ∧
    (∀ (w : LandWrite) (l : List LandWrite), x.landings = w :: l →
      CompletesWith (exec (.landingInputRelease ⟨n, bad⟩) s) fun t =>
        (t.island n).landings = l ∧ (t.island n).released = x.released ++ [w] ∧ parity t ∧ t.cores = s.cores ∧ s.sameMemory t) ∧
    (∀ (w : LandWrite) (l : List LandWrite), x.released = w :: l → w.unit < 1024 → w.fin = none →
      ((s.core n w.unit).rm w.entry).full = false → x.landed = false → w.unit ∉ s.routeBusy n →
      CompletesWith (exec (.heldLandingWrite n) s) fun t =>
        (t.core n w.unit).rm w.entry = { data := w.data, full := true, prov := w.prov } ∧ (t.island n).released = l ∧
        (t.island n).landed = true ∧
        (∀ u e, u < 1024 → (u ≠ w.unit ∨ e ≠ w.entry) → (t.core n u).rm e = (s.core n u).rm e) ∧ t.regs = s.regs ∧ s.sameMemory t) ∧
    (∀ (a : SideAdd) (l : List SideAdd), x.side = a :: l →
      CompletesWith (exec (.syncCounterAddition ⟨n, bad⟩) s) fun t =>
        (t.island n).side = l ∧ (t.island n).adds = x.adds ++ [a] ∧ parity t ∧ t.cores = s.cores ∧ s.sameMemory t) ∧
    (∀ (p : TreePart) (l : List TreePart), x.fill = none → x.treeIn = p :: l → p.part = 0 →
      (∀ u ∈ maskCores p.mask, (s.core n u).idleStage.isEmpty = true) →
      CompletesWith (exec (.distributorTile ⟨n, bad⟩) s) fun t =>
        (t.island n).fill = some { fmt := p.fmt, mask := p.mask, part := 0, pieces := 0 } ∧ (t.island n).treeIn = x.treeIn ∧
        parity t ∧ t.cores = s.cores ∧ s.sameMemory t)

/-- The scrubber (R243): a clean line changes nothing; a corrected error of tile memory is counted; an uncorrectable word is counted, and
it stays known as such. Events of the LPDDR5X tier (R248, R249, R251, R267): a rewrite empties the oldest place of its queue; the device's
own count is added; the patrol counts what it finds; a device reports its temperature; a retired channel leaves the map, or during a job
waits. In part the model's own readings: log entries 26, 69, 71, 115, 147, 156. -/
def Obligations.MemoryErrorsAndChannels : Prop :=
  (∀ (s : State) (n u line : Nat), s.hasCore n u = true → line < 2560 →
    let a := s.tileBase n u + 64 * line
    let cnt := fun (v : State) (f : Fld) => v.getF (aIslCoreEcc n u) f
    s.anyBad a 64 = false →
    exec (.tileScrub n u line .clean) s = .next s ∧
    CompletesWith (exec (.tileScrub n u line .corrected) s) (fun t =>
      cnt t F.islCoreEcc_tmCorrected =
        min (cnt s F.islCoreEcc_tmCorrected + 1) (2 ^ F.islCoreEcc_tmCorrected.width - 1) ∧
      cnt t F.islCoreEcc_tmUncorrected = cnt s F.islCoreEcc_tmUncorrected ∧ s.sameMemory t ∧ t.cores = s.cores) ∧
    CompletesWith (exec (.tileScrub n u line .uncorrectable) s) fun t =>
      cnt t F.islCoreEcc_tmUncorrected =
        min (cnt s F.islCoreEcc_tmUncorrected + 1) (2 ^ F.islCoreEcc_tmUncorrected.width - 1) ∧
      t.anyBad a 64 = true ∧ t.mem = s.mem ∧ t.tags = s.tags ∧ t.cores = s.cores) ∧
  (∀ (s : State) (f ch : Nat), f < 8 → ch < 16 →
    (CompletesWith (exec (.lpddrRewrite f ch) s) fun t =>
      Tbl.get [] t.tier.rewrite (16 * f + ch) = (Tbl.get [] s.tier.rewrite (16 * f + ch)).tail ∧
      (∀ k, k ≠ 16 * f + ch → Tbl.get [] t.tier.rewrite k = Tbl.get [] s.tier.rewrite k) ∧
      t.regs = s.regs ∧ s.sameMemory t ∧ s.sameIslands t) ∧
    (∀ count, CompletesWith (exec (.ondieCountRead f ch count) s) fun t =>
      t.getF (aFldChEcc f ch) F.fldChEcc_ondie = raised F.fldChEcc_ondie (s.getF (aFldChEcc f ch) F.fldChEcc_ondie) count ∧
      s.regsBut t [(aFldChEcc f ch, F.fldChEcc_ondie)] ∧ s.sameMemory t ∧ s.sameIslands t) ∧
    (∀ addr, s.lpMapped addr = true → s.channelOf addr = (f, ch) → s.chanRetired f ch = false →
      s.anyBad (addr / 64 * 64) 64 = false →
      let k := 16 * f + ch
      let q := Tbl.get [] s.tier.rewrite k
      exec (.lpddrPatrolScrub addr .clean) s = .next s ∧
      (addr / 64 ∉ q → q.length < 16 →
        CompletesWith (exec (.lpddrPatrolScrub addr .corrected) s) fun t =>
          t.getF (aFldChEcc f ch) F.fldChEcc_corrected =
            raised F.fldChEcc_corrected (s.getF (aFldChEcc f ch) F.fldChEcc_corrected) 1 ∧
          Tbl.get [] t.tier.rewrite k = q ++ [addr / 64] ∧ s.sameMemory t ∧ s.sameIslands t) ∧
      (addr / 64 ∉ q → CompletesWith (exec (.lpddrPatrolScrub addr .link) s) fun t =>
        t.getF (aFldChEcc f ch) F.fldChEcc_link = raised F.fldChEcc_link (s.getF (aFldChEcc f ch) F.fldChEcc_link) 1 ∧
        s.regsBut t [(aFldChEcc f ch, F.fldChEcc_link)] ∧ t.tier = s.tier ∧ s.sameMemory t ∧ s.sameIslands t) ∧
      (addr / 64 ∉ q → CompletesWith (exec (.lpddrPatrolScrub addr .uncorrectable) s) fun t =>
        t.getF (aFldChEcc f ch) F.fldChEcc_uncorrected =
          raised F.fldChEcc_uncorrected (s.getF (aFldChEcc f ch) F.fldChEcc_uncorrected) 1 ∧
        t.anyBad (addr / 64 * 64) 64 = true ∧ t.mem = s.mem ∧ t.tags = s.tags ∧ s.sameIslands t)) ∧
    (∀ (hot above : Bool) (temp : Nat), CompletesWith (exec (.deviceTemperatureReport (2 * f + ch / 8) hot above temp) s) fun t =>
      t.getF (aFldChState f ch) F.fldChState_hot = hot.toNat ∧ t.getF (aFldChState f ch) F.fldChState_over = above.toNat ∧
      t.getF aBocThermal F.bocThermal_lpddrOver = t.overMask ∧ s.sameMemory t ∧ s.sameIslands t) ∧
    (s.getF (aFldChState f ch) F.fldChState_state ≠ 3 →
      CompletesWith (exec (.channelRetire f ch) s) fun t =>
        t.getF (aFldChState f ch) F.fldChState_state = 3 ∧ s.sameMemory t ∧ s.sameIslands t ∧
        (s.admitted = true → t.chanRetired f ch = true) ∧
        (s.admitted = false → (s.getF (aFldChannels f) F.fldChannels_active).testBit ch = true →
          s.getF (aFldChannels f) F.fldChannels_active < 2 ^ 16 →
          (t.getF (aFldChannels f) F.fldChannels_active).testBit ch = false ∧
          t.getF (aFldChannels f) F.fldChannels_count = (s.getF (aFldChannels f) F.fldChannels_count - 1) % 2 ^ F.fldChannels_count.width)))

/-! ### Breaths -/

/-- An island reset (R234): a write of 1 is pending until the next boundary, and at a boundary it acts at once: cores, switches and the
island stand as after reset, counters read zero, tile memory and the stall limit stay, other islands' cores are untouched. An island whose
work is over completes its breath: its stall counts are copied and cleared (R89, R179, R203). In part the model's own readings: log
entries 57, 172. -/
def Obligations.IslandResetAndCompletion : Prop :=
  (∀ (s : State) (n : Nat) (v : Word), n < s.numIslands →
    (v.getLsbD 0 = false → exec (.islandResetRequest n v) s = .next { s with bus := ⟨false, 0⟩ }) ∧
    (v.getLsbD 0 = true → s.atBoundary = false →
      CompletesWith (exec (.islandResetRequest n v) s) fun t =>
        t.getF (aIslReset n) F.islReset_pending = 1 ∧ s.regsBut t [(aIslReset n, F.islReset_pending)] ∧ s.sameIslands t ∧ s.sameMemory t) ∧
    (v.getLsbD 0 = true → s.atBoundary = true → s.brt.aborted = false →
      CompletesWith (exec (.islandResetRequest n v) s) fun t =>
        (∀ u < 960, t.core n u = Core.reset) ∧ (∀ cl < 16, t.cluster n cl = Cluster.reset) ∧ t.island n = Island.reset ∧
        (∀ m u, m ≠ n → u < 960 → t.core m u = s.core m u) ∧ (∀ k < 256, t.getF (aIslSync n k) F.islSync_value = 0) ∧
        t.getF (aIslBreath n) F.islBreath_state = 0 ∧ t.getF (aIslReset n) F.islReset_pending = 0 ∧
        t.getF (aIslStallLimit n) F.islStallLimit_cycles = s.getF (aIslStallLimit n) F.islStallLimit_cycles ∧ s.sameMemory t)) ∧
  (∀ (s : State) (n : Nat), n < s.numIslands → s.brt.aborted = false → s.getF (aIslBreath n) F.islBreath_state = 1 →
    s.getF (aIslBreath n) F.islBreath_complete = 0 → s.breathOver n = true →
    CompletesWith (exec (.islandBreathComplete n) s) fun t =>
      t.getF (aIslBreath n) F.islBreath_complete = 1 ∧
      t.getF (aIslStallLast n) F.islStallLast_count = s.getF (aIslStallCnt n) F.islStallCnt_count % 2 ^ F.islStallLast_count.width ∧
      t.getF (aIslStallCnt n) F.islStallCnt_count = 0 ∧ t.getF (aIslStallCnt n) F.islStallCnt_episodes = 0 ∧
      t.getF (aIslStallFirst n) F.islStallFirst_valid = 0 ∧ s.sameIslands t ∧ s.sameMemory t)

/-- Missed starts, the overrun check and slips (R206, R208 to R211): a missed start is counted and kept; the check asks for a slip when an
island is behind or a request is open; the lead keeps a request that arrives in time and orders the slip; an order moves the next start by
its amount. In part the model's own readings: log entries 59, 74, 144, 152. -/
def Obligations.StartsAndSlips : Prop :=
  ∀ (s : State) (msg : Msg),
    let s0 := s.takeMsg msg
    (s.brt.job = true → s.brt.running = true → s.brt.taken = false → s.brt.aborted = false → s.replays = false →
      (s.brt.missed = false →
        CompletesWith (exec .missedStart s) fun t =>
          t.brt.missed = true ∧
          t.getF aBocStartLog F.bocStartLog_missed =
            raised F.bocStartLog_missed (s.getF aBocStartLog F.bocStartLog_missed) 1 ∧ s.sameIslands t ∧ s.sameMemory t) ∧
      (s.brt.checked = false →
        let behind := s.allIslands.filter fun n => !s.flag (aIslBreath n) F.islBreath_complete &&
          decide ((s.island n).cyc - (s.island n).lag < s.brt.check)
        (behind = [] → s.getF aGmuTrack F.gmuTrack_open = 0 →
          exec .overrunCheck s = .next { s with brt := { s.brt with checked := true } }) ∧
        (behind ≠ [] →
          CompletesWith (exec .overrunCheck s) fun t =>
            t.brt.checked = true ∧
            t.getF aBocStartLog F.bocStartLog_requests =
              raised F.bocStartLog_requests (s.getF aBocStartLog F.bocStartLog_requests) 1 ∧
            s.sameIslands t ∧ s.sameMemory t))) ∧
    (s0.isLead = true → s0.brt.job = true → msgBits msg 32 64 = s0.brt.next →
      beatReached s0.beat (s0.tNext - nsBeat (s0.noticeW / 2)) = false →
      exec (.slipRequest msg) s =
        .next { s0 with brt := { s0.brt with asked := some ((s0.brt.asked.getD 0) ||| msgBits msg 24 8) } }) ∧
    (s.isLead = true → s.brt.job = true → s.brt.running = true → s.brt.aborted = false → s.commitPending = false →
      ∀ c, s.brt.asked = some c →
        CompletesWith (exec .slipOrderSend s) fun t =>
          s.msgOf 0x02 [(24, c), (32, s.brt.next), (96, s.getF aBocSlipCfg F.bocSlipCfg_quantum)] ∈ t.ctl.loop ∧
          t.regs = s.regs ∧ t.brt = s.brt ∧ s.sameIslands t ∧ s.sameMemory t) ∧
    (s0.brt.job = true → s0.replays = false →
      let k := msgBits msg 32 64
      let later := s0.tNext + nsBeat (msgBits msg 96 32)
      (s0.brt.next < k ∨ k = s0.brt.next ∧ beatReached s0.beat s0.tNext = false →
        CompletesWith (exec (.slipOrder msg) s) fun t =>
          t.getF aBocTNext F.bocTNext_beat = later.toNat ∧
          t.getF aBocSlip F.bocSlip_count = raised F.bocSlip_count (s0.getF aBocSlip F.bocSlip_count) 1 ∧
          t.getF aBocSlip F.bocSlip_total = raised F.bocSlip_total (s0.getF aBocSlip F.bocSlip_total) (msgBits msg 96 32) ∧
          t.brt.checked = false ∧ t.brt.asked = none ∧
          (s0.getF aTimTrigState F.timTrigState_armed = 1 → t.getF aTimTrig F.timTrig_beat = later.toNat) ∧
          s.sameIslands t ∧ s.sameMemory t) ∧
      (k < s0.brt.next ∨ k = s0.brt.next ∧ beatReached s0.beat s0.tNext = true →
        CompletesWith (exec (.slipOrder msg) s) fun t =>
          t.brt.missed = true ∧
          t.getF aBocStartLog F.bocStartLog_missed =
            raised F.bocStartLog_missed (s0.getF aBocStartLog F.bocStartLog_missed) 1 ∧
          t.getF aBocTNext F.bocTNext_beat = s0.getF aBocTNext F.bocTNext_beat ∧ s.sameIslands t ∧ s.sameMemory t))

/-- Droop stretches, setpoint requests and setpoint stops (R215, R216, R230, R231): a stretch that throttling does not cover is counted; a
request in range is pending, one out of range is refused, zero withdraws; a stop puts the requested setpoint into every island's clock. In
part the model's own readings: log entries 56, 58, 85. -/
def Obligations.ClocksAndSetpoints : Prop :=
  ∀ (s : State),
    (∀ n k : Nat, n < s.numIslands → 1 ≤ k → k ≤ 4 → s.getF (aIslClock n) F.islClock_throttle < k →
      CompletesWith (exec (.droopStretch n k) s) fun t =>
        t.getF (aIslStretch n) F.islStretch_droop = raised F.islStretch_droop (s.getF (aIslStretch n) F.islStretch_droop) 1 ∧
        (s.island n).ticks ∈ (t.island n).droops ∧ t.cores = s.cores ∧ s.sameMemory t) ∧
    (∀ v : Word,
      let code := v.toNat / 2 ^ 5 % 2 ^ 5
      let imin := s.getF aBocSetpoint F.bocSetpoint_imageMin
      (code = 0 → CompletesWith (exec (.setpointRequestWrite v) s) fun t =>
        t.getF aBocSetpoint F.bocSetpoint_request = 0 ∧
        t.getF aBocSetpoint F.bocSetpoint_pending = (if s.namedSettled then 0 else 1) ∧ t.pins = s.pins ∧ t.bus.err = false ∧
        s.sameIslands t ∧ s.sameMemory t) ∧
      ((if imin = 0 then 12 else imin) ≤ code → code ≤ s.getF aBocSetpoint F.bocSetpoint_gradeMax → 0 < code →
        CompletesWith (exec (.setpointRequestWrite v) s) fun t =>
          t.getF aBocSetpoint F.bocSetpoint_request = code ∧ t.getF aBocSetpoint F.bocSetpoint_pending = 1 ∧
          t.getF aBocSetpoint F.bocSetpoint_current = s.getF aBocSetpoint F.bocSetpoint_current ∧
          t.pins = { s.pins with ceiling := code } ∧ t.bus.err = false ∧ s.sameIslands t ∧ s.sameMemory t) ∧
      (0 < code → (code < (if imin = 0 then 12 else imin) ∨ s.getF aBocSetpoint F.bocSetpoint_gradeMax < code) →
        exec (.setpointRequestWrite v) s = .next { s with bus := ⟨true, 0⟩ })) ∧
    (CompletesWith (exec .voltageRampEnd s) fun t =>
      t = { s with pins := { s.pins with supply := t.pins.supply } } ∧ s.pins.supply ≤ t.pins.supply ∧
      t.supplied s.namedSetpoint = true ∧
      (s.getF aBocSetpoint F.bocSetpoint_request ≠ 0 → t.supplied s.requestedSetpoint = true)) ∧
    (∀ c duration : Nat, s.stopTarget = some c → c < 32 → s.brt.aborted = false → s.supplied c = true →
      (s.brt.running = true → s.breathDone = true) → (s.accepting = true → s.loadsFinished = true) →
      CompletesWith (exec (.setpointStop duration) s) fun t =>
        t.getF aBocSetpoint F.bocSetpoint_current = c ∧ t.supplied c = true ∧
        (c < s.getF aBocSetpoint F.bocSetpoint_current → t.pins.supply = c) ∧
        (s.namedSetpoint = 0 → t.getF aBocSetpoint F.bocSetpoint_request = 0) ∧ (s.namedSetpoint ≠ 0 → t.pins.ceiling = c) ∧
        (∀ n < s.numIslands, t.getF (aIslClock n) F.islClock_setpoint = c ∧ t.getF (aIslClock n) F.islClock_locked = 1) ∧
        t.getF aBocFreqLog F.bocFreqLog_changes = raised F.bocFreqLog_changes (s.getF aBocFreqLog F.bocFreqLog_changes) 1 ∧
        t.getF aBocFreqLog F.bocFreqLog_lastStop = duration % 2 ^ F.bocFreqLog_lastStop.width ∧
        s.sameIslands t ∧ s.sameMemory t)

/-- Load records, boundaries and starts (R105, R200 to R205, R392): a record's data enters its core's instruction store; a package that is
done takes the boundary and arms the trigger with the next start; the trigger starts the breath, in which every core with an executable
range issues from its entry. In part the model's own readings: log entries 59, 60, 73. -/
def Obligations.BreathsBoundariesAndStarts : Prop :=
  ∀ (s : State),
    (∀ (i : Nat) (ecc : Eccs) (s1 : State) (bs : List Byte),
      let r := s.loadRecord i
      let n := recIsland r
      let u := recUnit r
      let word := fun (k : Nat) => natOfBytes ((bs.drop (8 * k)).take 8)
      s.hasImage = true → s.brt.aborted = false → i < s.loadTotal → i ∉ s.brt.loadsDone → s.targetReady r = true →
      s.earlierDone i = true → s.readPieces ecc (pieces (recSrc r) (16 * recCount r)) = (s1, some bs) →
      CompletesWith (exec (.loadRecordRun i ecc) s) fun t =>
        t.brt.loadsDone = s1.brt.loadsDone ++ [i] ∧
        (recKind r = 0 → (t.core n u).exec = some { first := recExecFirst r, last := recExecLast r, entry := recEntry r } ∧
          ∀ k < bs.length, t.readByte (s1.tileBase n u + 0x28000 + 16 * recFirst r + k) = bs.getD k 0) ∧
        (recKind r = 1 → ∀ k < bs.length / 8,
          t.getF (aRouteTable n (u - 960) ((2 * recFirst r + k) / 2) ((2 * recFirst r + k) % 2)) F.routeTable_word = word k % 2 ^ 64) ∧
        (recKind r = 2 → recFirst r + recCount r ≤ (t.cluster n (u - 960)).loaded ∧ ∀ k < bs.length / 8,
          t.getF (aProgramStore n (u - 960) ((2 * recFirst r + k) / 2) ((2 * recFirst r + k) % 2)) F.programStore_word = word k % 2 ^ 64) ∧
        (recKind r = 5 → (t.engine n).entry = recEntry r ∧ ∀ k < bs.length / 32,
          Tbl.get 0 t.tier.descs (1024 * n + recFirst r / 2 + k) = natOfBytes ((bs.drop (32 * k)).take 32))) ∧
    (s.brt.running = true → s.brt.taken = false → s.brt.aborted = false → s.replays = false →
      (s.brt.examined = true ∨ ∀ n < s.numIslands, s.residueOf n = 0) →
      (∀ n < s.numIslands, s.getF (aIslBreath n) F.islBreath_complete = 1 ∧
        ∀ p ∈ (s.island n).taken, ∀ f ∈ p.2, f.old = true ∨ f.arrived = true) →
      s.getF aGmuTrack F.gmuTrack_open = 0 → (entLast s.curEntry = true ∨ s.loadsFinished = true) → s.setpointSettled = true →
      CompletesWith (exec .packageBoundary s) fun t =>
        t.brt.taken = true ∧ (entLast s.curEntry = true → t.brt.job = false ∧ t.brt.running = false) ∧
        (entLast s.curEntry = false → s.fab.patches = [] →
          t.getF aTimTrigState F.timTrigState_armed = 1 ∧ t.getF aTimTrig F.timTrig_beat = s.tNext.toNat)) ∧
    (s.getF aTimTrigState F.timTrigState_armed = 1 → s.brt.job = true → s.hasImage = true → s.brt.aborted = false →
      s.brt.missed = false → s.replays = false → s.pins.lateArm = false →
      (s.brt.running = true ∧ s.brt.taken = true ∨
        s.brt.running = false ∧ s.loadsFinished = true ∧ s.namedSettled = true ∧ s.fab.patches = []) →
      CompletesWith (exec .triggerFire s) fun t =>
        t.getF aTimTrigState F.timTrigState_armed = 0 ∧ t.brt.running = true ∧ t.brt.taken = false ∧
        t.brt.next = s.brt.next + 1 ∧ t.brt.entry = s.brt.nextEntry ∧
        t.brt.start = BitVec.ofNat 64 (s.getF aTimTrig F.timTrig_beat) ∧
        t.getF aBocBreath F.bocBreath_index = s.brt.next % 2 ^ F.bocBreath_index.width ∧
        (entTest (s.breathEntry s.brt.nextEntry) = false →
          ∀ n u x, (s.core n u).exec = some x → (t.core n u).run = .issuing ∧ (t.core n u).pc = x.entry))

/-! ### Memory tiers and stream engines -/

/-- An engine at a move of one line (R258, R260): the line is copied, its 64 bytes are counted, the descriptor's signal waits for the
completion, and the engine goes on to the next descriptor. An engine at a tree of one 16-bit tile (R258, R264, R265): the tile's one part
enters the tree crossing of every island of the mask and no other, the engine owns their trees, 64 bytes are counted, and the engine goes
on. Engines at sync and end descriptors, and completions (R258 to R261): a sync whose wait is met goes on; one whose wait is short counts
a field cycle; at an end the engine takes a start credit and continues at its entry, or waits there; a completion applies the oldest
signal. In part the model's own readings: log entries 47, 49, 50, 157. -/
def Obligations.StreamEngines : Prop :=
  (∀ (s : State) (e : Nat) (ecc : Eccs), ecc.headD .clean = .clean →
    let d := s.desc e
    let f := e / 16
    let near := fun (a : Nat) => s.region a = .staging f ∨ ∃ n u, s.region a = .tile n u false ∧ s.fieldOf n = f
    e < 128 → s.stmRuns e = true → (s.engine e).parked = false → (s.engine e).begun = false →
    dOp d = 1 → dRows d = 1 → dCount d = 1 → dFmask d = 0 → s.descReserved d = false → s.waitMet d = true →
    dSrc d % 64 = 0 → dDst d % 64 = 0 → near (dSrc d) → near (dDst d) → s.anyBad (dSrc d) 64 = false →
    CompletesWith (exec (.stmMove e ecc) s) fun t =>
      (∀ a, t.readByte a = if dDst d ≤ a ∧ a < dDst d + 64 then s.readByte (dSrc d + (a - dDst d)) else s.readByte a) ∧
      t.getF (stmA e) F.stmStatus_index = (s.stmIndex e + 1) % 2 ^ F.stmStatus_index.width ∧
      t.getF (aStmMoved f (e % 16)) F.stmMoved_bytes = raised F.stmMoved_bytes (s.getF (aStmMoved f (e % 16)) F.stmMoved_bytes) 64 ∧
      (t.engine e).signals = (s.engine e).signals ++ descSignal d ∧
      s.regsBut t [(stmA e, F.stmStatus_index), (stmA e, F.stmStatus_state), (aStmMoved f (e % 16), F.stmMoved_bytes)] ∧
      s.sameIslands t) ∧
  (∀ (s : State) (e : Nat) (ecc : Eccs), ecc.headD .clean = .clean →
    let d := s.desc e
    let f := e / 16
    let l := s.treeIslands f d
    e < 128 → s.stmRuns e = true → (s.engine e).parked = false → (s.engine e).begun = false →
    dOp d = 2 → dCount d = 1 → tileParts (dFmt d) = 1 → s.descReserved d = false → s.waitMet d = true →
    dSrc d % 64 = 0 → dDst d < 2 ^ s.perField → s.perField ≤ 40 → s.region (dSrc d) = .staging f → s.anyBad (dSrc d) 64 = false →
    (s.engine e).parts = 0 → (∀ n ∈ l, (s.island n).treeIn.length < 16) →
    (∀ n ∈ l, Tbl.get none s.tier.owners n = none ∨ Tbl.get none s.tier.owners n = some e) →
    CompletesWith (exec (.stmTree e ecc) s) fun t =>
      let part : TreePart := { fmt := dFmt d, mask := dClusters d, part := 0, data := s.readLine (dSrc d) }
      (∀ n, (t.island n).treeIn = if n ∈ l then (s.island n).treeIn ++ [part] else (s.island n).treeIn) ∧
      (∀ n ∈ l, Tbl.get none t.tier.owners n = some e) ∧
      t.getF (stmA e) F.stmStatus_index = (s.stmIndex e + 1) % 2 ^ F.stmStatus_index.width ∧
      t.getF (aStmMoved f (e % 16)) F.stmMoved_bytes = raised F.stmMoved_bytes (s.getF (aStmMoved f (e % 16)) F.stmMoved_bytes) 64 ∧
      (t.engine e).signals = (s.engine e).signals ++ descSignal d ∧ t.cores = s.cores ∧ t.clusters = s.clusters ∧ s.sameMemory t) ∧
  (∀ (s : State) (e : Nat),
    let d := s.desc e
    let x := s.engine e
    let st := fun (t : State) => t.getF (stmA e) F.stmStatus_state
    let credits := s.getF (stmA e) F.stmStatus_credits
    e < 128 → s.stmRuns e = true → credits < 16 → x.entry < 1024 →
    (x.parked = false → x.begun = false → s.descReserved d = false →
      (dOp d = 3 → dSkind d = 0 → s.waitMet d = true →
        CompletesWith (exec (.stmSync e) s) fun t =>
          t.getF (stmA e) F.stmStatus_index = (s.stmIndex e + 1) % 2 ^ F.stmStatus_index.width ∧
          s.regsBut t [(stmA e, F.stmStatus_index), (stmA e, F.stmStatus_state)] ∧ s.sameIslands t ∧ s.sameMemory t) ∧
      (dOp d = 3 → dSkind d = 1 → x.signals = [] → s.waitMet d = true →
        CompletesWith (exec (.stmSync e) s) fun t =>
          t.getF (aStmCtr (dSloc d) (dSctr d)) F.stmCtr_value =
            (s.getF (aStmCtr (dSloc d) (dSctr d)) F.stmCtr_value + ((BitVec.ofNat 12 (dSamt d)).signExtend 32).toNat) % 2 ^ 32) ∧
      (dOp d = 3 → s.waitMet d = false →
        CompletesWith (exec (.stmSync e) s) fun t =>
          st t = 2 ∧ t.getF (aStmWaited (e / 16) (e % 16)) F.stmWaited_cycles =
            raised F.stmWaited_cycles (s.getF (aStmWaited (e / 16) (e % 16)) F.stmWaited_cycles) 1 ∧
          t.tier = s.tier ∧ s.sameIslands t ∧ s.sameMemory t) ∧
      (dOp d = 0 → dSkind d = 0 → s.waitMet d = true →
        CompletesWith (exec (.stmEnd e) s) fun t =>
          (credits = 0 → st t = 0 ∧ (t.engine e).parked = true) ∧
          (credits ≠ 0 → st t = (if dOp (t.desc e) = 0 then 0 else 1) ∧ (t.engine e).parked = false ∧ t.stmIndex e = x.entry ∧
            t.getF (stmA e) F.stmStatus_credits = credits - 1) ∧
          s.sameIslands t ∧ s.sameMemory t)) ∧
    (∀ (g : Signal) (l : List Signal), x.signals = g :: l →
      exec (.stmDescriptorComplete e) s = .next ((s.setEngine e { x with signals := l }).applySignal g) ∧
      (g.kind = 1 → CompletesWith (exec (.stmDescriptorComplete e) s) fun t =>
        t.getF (aStmCtr g.loc g.ctr) F.stmCtr_value = (s.getF (aStmCtr g.loc g.ctr) F.stmCtr_value + g.amt.toNat) % 2 ^ 32 ∧
        (t.engine e).signals = l)))

/-! ### Beat time -/

/-- The beat counter and its steering (R376 to R379, R385, R392): the increment written if it is within range, a phase step held for the
next tick unless a slice is admitted, the trigger armed, the accumulator advanced, the other reference clock taken, holdover on the root.
Timed launches (R393): a write arms an entry; an armed entry is only cancelled; the first armed entry leaves in a free slot as a control
flit with its message alone, and disarms. In part the model's own readings: log entry 83. -/
def Obligations.BeatCounterAndTimedLaunches : Prop :=
  (∀ (s : State) (v : Word),
    let incr := v.toNat % 2 ^ 40
    (27460302903 ≤ incr → incr ≤ 27515278485 →
      CompletesWith (exec (.timIncrWrite v) s) fun t => t.getF aTimIncr F.timIncr_incr = incr ∧ t.bus.err = false ∧
        s.regsBut t [(aTimIncr, F.timIncr_incr)] ∧ s.sameIslands t ∧ s.sameMemory t ∧ t.beatAcc = s.beatAcc) ∧
    (incr < 27460302903 ∨ 27515278485 < incr → exec (.timIncrWrite v) s = .next (s.busDone true)) ∧
    (s.admitted = true → exec (.timPhaseWrite v) s = .next (s.busDone true)) ∧
    (s.admitted = false →
      exec (.timPhaseWrite v) s = .next { s with pins := { s.pins with phase := some v }, bus := ⟨false, 0⟩ }) ∧
    CompletesWith (exec (.timTrigWrite v) s) (fun t =>
      t.getF aTimTrig F.timTrig_beat = v.toNat ∧ t.getF aTimTrigState F.timTrigState_armed = 1 ∧
      (beatReached s.beat v = true → t.getF aTimTrigState F.timTrigState_late = 1) ∧
      s.regsBut t [(aTimTrig, F.timTrig_beat), (aTimTrigState, F.timTrigState_armed), (aTimTrigState, F.timTrigState_late)] ∧
      t.bus.err = false ∧ s.sameIslands t ∧ s.sameMemory t) ∧
    (s.pins.power = .on →
      let acc := s.beatAcc.toNat + s.getF aTimIncr F.timIncr_incr
      (s.pins.phase = none → exec .referenceClockTick s = .next { s with beatAcc := BitVec.ofNat 80 acc }) ∧
      (s.pins.phase = some v → CompletesWith (exec .referenceClockTick s) fun t =>
        t.beatAcc = BitVec.ofInt 80 (acc + v.toInt * 65536) ∧ t.pins = { s.pins with phase := none } ∧
        t.getF aTimStatus F.timStatus_steps = raised F.timStatus_steps (s.getF aTimStatus F.timStatus_steps) 1 ∧
        s.regsBut t [(aTimStatus, F.timStatus_steps)] ∧ s.sameIslands t ∧ s.sameMemory t)) ∧
    (∀ c : Nat, c < 2 → s.getF aTimStatus F.timStatus_refclk = c → s.getF aTimStatus F.timStatus_refclkFail < 4 →
      CompletesWith (exec (.refclkFail c) s) fun t =>
        t.getF aTimStatus F.timStatus_refclk = 1 - c ∧ (t.getF aTimStatus F.timStatus_refclkFail).testBit c = true ∧
        t.beatAcc = s.beatAcc ∧ s.sameIslands t ∧ s.sameMemory t) ∧
    (s.getF aTimStatus F.timStatus_root ≠ 0 →
      CompletesWith (exec .holdoverTimeout s) fun t => t.getF aTimStatus F.timStatus_holdover = 1 ∧
        s.regsBut t [(aTimStatus, F.timStatus_holdover)] ∧ s.sameIslands t ∧ s.sameMemory t)) ∧
  (∀ (s : State) (p e : Nat), p < numPorts → e < 4 →
    let a := aTimTlqCtl p e
    (∀ v : Word,
      (s.getF a F.timTlqCtl_arm = 0 ∨ v.getLsbD 16 = false →
        CompletesWith (exec (.tlqArm p e v) s) fun t =>
          t.getF a F.timTlqCtl_dest = v.toNat % 2 ^ 14 ∧ t.getF a F.timTlqCtl_bcast = (v.getLsbD 14).toNat ∧
          t.getF a F.timTlqCtl_local = (v.getLsbD 15).toNat ∧ t.getF a F.timTlqCtl_arm = (v.getLsbD 16).toNat ∧
          (v.getLsbD 16 = true → t.getF a F.timTlqCtl_sent = 0) ∧ t.bus.err = false ∧
          s.regsBut t [(a, F.timTlqCtl_dest), (a, F.timTlqCtl_bcast), (a, F.timTlqCtl_local), (a, F.timTlqCtl_arm), (a, F.timTlqCtl_sent)] ∧
          s.sameIslands t ∧ s.sameMemory t) ∧
      (s.getF a F.timTlqCtl_arm ≠ 0 → v.getLsbD 16 = true → exec (.tlqArm p e v) s = .next (s.busDone true))) ∧
    (∀ slot, (s.slotPlan p slot).2 = .timed e → (s.port p).next < 4096 → s.self < 2 ^ 14 →
      s.getF a F.timTlqCtl_dest < 2 ^ 14 →
      let m := BitVec.ofNat 128 (s.getF (aTimTlqMsg0 p e) F.timTlqMsg0_value + s.getF (aTimTlqMsg1 p e) F.timTlqMsg1_value * 2 ^ 64)
      CompletesWith (exec (.timedLaunch p e slot) s) fun t =>
        t.getF a F.timTlqCtl_arm = 0 ∧ t.getF a F.timTlqCtl_sent = 1 ∧ (t.port p).used = some (s.evenSlot p slot) ∧
        (t.port p).next = ((s.port p).next + 1) % 4096 ∧
        (∃ f : Flit, (t.port p).buf = (s.port p).buf ++ [f] ∧ f.kind = 3 ∧ f.seq = (s.port p).next ∧
          flitMessages f = [
            { dest := s.getF a F.timTlqCtl_dest, bcast := s.flag a F.timTlqCtl_bcast, local_ := s.flag a F.timTlqCtl_local
              source := if bcastKinds.contains (msgBits m 0 8) ∨ msgBits m 0 8 = 0x27 then msgBits m 8 14 else s.self
              msg := m }]) ∧
        s.sameIslands t ∧ s.sameMemory t))

/-- A steering update of a member (R388 to R391): the parent port and the depth are shown, the increment moves against the median offset
by at most 20 ppm within its range and by what removes the offset in 4 ms where that fits, a phase step corrects a large offset before
admission, and the samples are used up. In part the model's own readings: log entries 40, 81, 82. -/
def Obligations.TimeSteering : Prop :=
  ∀ (s : State) (p d : Nat),
    let x := s.port p
    let m := median (x.samples.map fun t => t.offset.toInt)
    let old := s.getF aTimIncr F.timIncr_incr
    let want := -((old : Int) * m).tdiv (4000000 * 65536)
    s.manifest.isSome = true → s.getF aTimStatus F.timStatus_root = 0 → s.parentPort (s.getF aTimStatus F.timStatus_rootIndex) = some p →
    (s.peerRoot p).2 = d → d < 40 → p < numPorts → x.samples ≠ [] → 27460302903 ≤ old → old ≤ 27515278485 →
    CompletesWith (exec .timeSteerUpdate s) fun t =>
      let new := t.getF aTimIncr F.timIncr_incr
      t.getF aTimStatus F.timStatus_parent = p ∧ t.getF aTimStatus F.timStatus_depth = d + 1 ∧
      t.getF aTimStatus F.timStatus_holdover = 0 ∧
      27460302903 ≤ new ∧ new ≤ 27515278485 ∧ ((new : Int) - old).natAbs * 1000000 ≤ old * 20 ∧
      (0 ≤ m → new ≤ old) ∧ (m ≤ 0 → old ≤ new) ∧
      (want.natAbs * 1000000 ≤ old * 20 → 27460302903 ≤ (old : Int) + want → (old : Int) + want ≤ 27515278485 → (new : Int) = old + want) ∧
      (s.admitted = false → 65536000 < m.natAbs → t.pins.phase = some (BitVec.ofInt 64 (-m))) ∧
      (s.getF aTimStatus F.timStatus_locked = 0 → s.pins.good = 7 → m.natAbs * 20 ≤ 65536 → t.getF aTimStatus F.timStatus_locked = 1) ∧
      (∀ q, (t.port q).samples = []) ∧ s.sameIslands t ∧ s.sameMemory t

/-! ### Power, temperature and resets -/

/-- Power and optics (R519, R522, R526, R532, R533, R539): the management limit in its range, the limit in force from it and the coolant,
power control's step down, the low-input flag, and full transmit power with signal on four receivers. Temperature (R216, R517, R527,
R528): a sample within the limits is reported and remembered; one above the threshold raises the throttle of the field and of its islands
by one; the second at 110 °C, and a device over its limit for 10 s, trip the module. In part the model's own readings: log entries 84, 85,
132. -/
def Obligations.PowerAndTemperature : Prop :=
  (∀ (s : State),
    (∀ v : Word,
      let x := v.toNat % 2 ^ 16
      (300 ≤ x → x ≤ 1250 → CompletesWith (exec (.bocPowerCfgWrite v) s) fun t =>
        t.getF aBocPowerCfg F.bocPowerCfg_limit = x ∧ t.bus.err = false ∧ s.regsBut t [(aBocPowerCfg, F.bocPowerCfg_limit)] ∧
        s.sameIslands t ∧ s.sameMemory t) ∧
      (x < 300 ∨ 1250 < x → exec (.bocPowerCfgWrite v) s = .next (s.busDone true))) ∧
    (∀ average : Nat,
      CompletesWith (exec (.powerControlUpdate average) s) fun t =>
        let inlet := t.getF aBocCoolant F.bocCoolant_inlet
        let flow := t.getF aBocCoolant F.bocCoolant_flow
        let limit := Min.min (s.getF aBocPowerCfg F.bocPowerCfg_limit) (deratedLimit inlet flow)
        let cur := s.getF aBocSetpoint F.bocSetpoint_current
        t.getF aBocPower F.bocPower_inputPower = average % 2 ^ 16 ∧ t.getF aBocPower F.bocPower_limit = limit % 2 ^ 16 ∧
        (inlet ≤ 350 → 2000 ≤ flow → limit ≤ 1250) ∧ (350 < inlet → inlet ≤ 400 → 2000 ≤ flow → limit ≤ 1100) ∧
        (400 < inlet → inlet ≤ 450 → 1600 ≤ flow → limit ≤ 900) ∧
        (s.brt.job = false → t.getF aBocSetpoint F.bocSetpoint_request = s.getF aBocSetpoint F.bocSetpoint_request) ∧
        (s.brt.job = true → limit < average → s.getF aBocSetpoint F.bocSetpoint_imageMin < cur → 1 < cur → cur < 32 →
          t.getF aBocSetpoint F.bocSetpoint_request = cur - 1 ∧ t.getF aBocSetpoint F.bocSetpoint_pending = 1) ∧
        s.sameIslands t ∧ s.sameMemory t) ∧
    (s.pins.power = .on → CompletesWith (exec .lowInput s) fun t => t.getF aBocPower F.bocPower_lowInput = 1 ∧
      s.regsBut t [(aBocPower, F.bocPower_lowInput)] ∧ s.sameIslands t ∧ s.sameMemory t) ∧
    (∀ (p : Nat) (signals : BitVec 9), p < numPorts →
      CompletesWith (exec (.openFibreControl p signals) s) fun t =>
        ∀ w < 9, t.getF (aLnkWlOpt p w) F.lnkWlOpt_los = (!signals.getLsbD w).toNat ∧
          t.getF (aLnkWlOpt p w) F.lnkWlOpt_full =
            (if 4 ≤ ((List.range 9).map fun w => (signals.getLsbD w).toNat).sum then 1 else 0) ∧
          s.regsBut t ((List.range 9).flatMap fun w => [(aLnkWlOpt p w, F.lnkWlOpt_rxPower), (aLnkWlOpt p w, F.lnkWlOpt_txPower),
            (aLnkWlOpt p w, F.lnkWlOpt_full), (aLnkWlOpt p w, F.lnkWlOpt_los)]) ∧ s.sameIslands t ∧ s.sameMemory t)) ∧
  (∀ (s : State) (f temp : Nat), f < 8 → s.pins.power = .on → temp < 2 ^ 16 →
    let a := aBocFieldTemp f
    let limit := 10 * s.getF aBocThermal F.bocThermal_threshold
    let thr := s.getF a F.bocFieldTemp_throttle
    (temp ≤ limit → temp < 1100 → s.fieldOver f = false → thr = 0 →
      CompletesWith (exec (.thermalSample f temp) s) fun t =>
        t.getF a F.bocFieldTemp_temp = temp ∧ t.getF a F.bocFieldTemp_max = Max.max (s.getF a F.bocFieldTemp_max) temp ∧
        t.getF a F.bocFieldTemp_throttle = 0 ∧ s.sameIslands t ∧ s.sameMemory t ∧
        s.regsBut t [(a, F.bocFieldTemp_temp), (a, F.bocFieldTemp_max), (aBocThermal, F.bocThermal_hottest)]) ∧
    (limit < temp → temp < 1100 → thr < 4 → Tbl.get 0 s.pins.tick f ≤ 91 → s.perField ≤ 40 →
      CompletesWith (exec (.thermalSample f temp) s) fun t =>
        t.getF a F.bocFieldTemp_throttle = thr + 1 ∧
        (∀ i < s.perField, t.getF (aIslClock (f * s.perField + i)) F.islClock_throttle = thr + 1) ∧
        (t.getF aBocThermal F.bocThermal_throttling).testBit f = true ∧ s.sameIslands t ∧ s.sameMemory t) ∧
    (1100 ≤ temp → 1 ≤ Tbl.get 0 s.pins.hot f → CompletesWith (exec (.thermalSample f temp) s) fun t =>
      t.pins.power = .thermal ∧ t.pins.trip = true ∧ t.getF aBocResetCause F.bocResetCause_cause = 5) ∧
    (∀ d < 16, ∀ p ∈ deviceChannels d, s.getF (aFldChState p.1 p.2) F.fldChState_over = 1 →
      CompletesWith (exec (.lpddrOverLimitTrip d) s) fun t =>
        t.pins.power = .thermal ∧ t.pins.trip = true ∧ t.getF aBocResetCause F.bocResetCause_cause = 5))

/-- Resets (R471, R472, R517, R521): each clears the state of the cores, islands, ports and the beat counter; the pin and the thermal
reset set their cause and count, and keep what the LPDDR5X lines hold; power-on and loss of power forget it; the boot NOR, the ledger and
the waiting commands stay. Reset release (R445, R477, R479, R517): a held package with a reference clock runs its power-up: with a
firmware slot that verifies it reaches step 9 with its memories in self-refresh; with none it runs the recovery service at step 2; without
a clock it stays at step 1. In part the model's own readings: log entries 41, 107, 108, 109, 113, 114. -/
def Obligations.ResetsAndRelease : Prop :=
  (∀ (s : State),
    let clears := fun (t : State) => t.cores = [] ∧ t.clusters = [] ∧ t.islands = [] ∧ t.ports = [] ∧ t.beatAcc = 0 ∧ t.manifest = none ∧
      t.boc.sessions = [] ∧ t.nv = s.nv ∧ t.flt.ledger = s.flt.ledger ∧ t.pending = s.pending ∧
      t.getF aBocState F.bocState_step = 0 ∧ t.getF aBocReproKey F.bocReproKey_errataRev = s.getF aBocReproKey F.bocReproKey_errataRev
    let counts := fun (t : State) (cause : Nat) => t.getF aBocResetCause F.bocResetCause_cause = cause ∧
      t.getF aBocResetCause F.bocResetCause_count = Min.min (s.getF aBocResetCause F.bocResetCause_count + 1) 65535 ∧
      ∀ i, t.readByte i = if i < lpEnd then s.readByte i else 0
    CompletesWith (exec .powerOnReset s) (fun t => clears t ∧ t.pins.power = .held ∧ t.mem = []) ∧
    (s.pins.power = .on → CompletesWith (exec .pinReset s) fun t => clears t ∧ t.pins.power = .held ∧ counts t 2) ∧
    (s.pins.power = .thermal → CompletesWith (exec .pinReset s) fun t => clears t ∧ t.pins.power = .held ∧ counts t 5) ∧
    (s.pins.power = .on → CompletesWith (exec .thermalReset s) fun t =>
      clears t ∧ t.pins.power = .thermal ∧ t.pins.trip = true ∧ counts t 5) ∧
    CompletesWith (exec .pwrGoodDeassert s) (fun t => clears t ∧ t.pins.power = .off ∧ t.mem = []) ∧
    CompletesWith (exec .inputOutOfRange s) (fun t => clears t ∧ t.pins.power = .off ∧ t.mem = [])) ∧
  (∀ (s : State) (env : BootEnv), s.pins.power = .held → s.nv.bcr.preferred < 2 →
    (env.clock0 = false → env.clock1 = false →
      CompletesWith (exec (.resetRelease env) s) fun t => t.pins.power = .held ∧ t.getF aBocState F.bocState_step = 1 ∧
        t.getF aBocState F.bocState_slotId = env.straps.toNat ∧ s.sameIslands t ∧ s.sameMemory t) ∧
    ((env.clock0 = true ∨ env.clock1 = true) → s.boc.recovery = false →
      (s.bootSlot env = none → CompletesWith (exec (.resetRelease env) s) fun t =>
        t.pins.power = .on ∧ t.beatAcc = 0 ∧ t.boc.recovery = true ∧ t.getF aBocState F.bocState_step = 2) ∧
      (∀ (slot : Nat) (fb : Bool), s.bootSlot env = some (slot, fb) → CompletesWith (exec (.resetRelease env) s) fun t =>
        t.pins.power = .on ∧ t.beatAcc = 0 ∧ t.boc.recovery = false ∧ t.getF aBocState F.bocState_step = 9 ∧
        t.getF aSecState F.secState_slot = slot ∧ t.getF aSecState F.secState_fallback = fb.toNat ∧
        t.getF aTimStatus F.timStatus_refclk = (if env.clock0 then 0 else 1) ∧
        t.getF aBocCapacity F.bocCapacity_class = t.ownClass ∧ t.getF aBocCapacity F.bocCapacity_valid = 1)))

/-! ### Scheduled traffic -/

/-- Launch queues, slots and relays (R271, R277, R278, R287): a completed flit enters its queue with its stream; a claimed slot carries
the head flit on time, with its stream and slot tag; an empty queue owes; a relay leaves in its slot unchanged. In part the model's own
readings: log entries 31, 32, 33, 55, 143, 162. -/
def Obligations.ScheduledLaunches : Prop :=
  ∀ (s : State),
    (∀ (n : Nat) (f : PutFlit) (l : List PutFlit), n < s.numIslands → (s.island n).launchOut = f :: l →
      (s.lq f.port f.queue).flits.length < 4 →
      CompletesWith (exec (.launchQueueEntry ⟨n, false⟩) s) fun t =>
        (t.lq f.port f.queue).flits = (s.lq f.port f.queue).flits ++
          [{ since := s.beat, stream := s.binding f.port f.queue, prov := f.prov, q0 := f.q0, q1 := f.q1, q2 := f.q2, q3 := f.q3 }] ∧
        t.getF (aCrpLqState f.port f.queue) F.crpLqState_occupancy = (s.lq f.port f.queue).flits.length + 1 ∧
        (t.island n).launchOut = l ∧ s.regsBut t [(aCrpLqState f.port f.queue, F.crpLqState_occupancy)] ∧ t.cores = s.cores ∧
        s.sameMemory t) ∧
    (∀ (p q slot0 : Nat), p < numPorts → s.brt.running = true → s.brt.aborted = false → s.sending p = true →
      let slot := s.evenSlot p slot0
      let odd := s.oddSlot p slot0
      (s.port p).used ≠ some slot → s.claims p odd = [q] → s.slotConflict p slot odd = false → (s.port p).next < 4096 →
      (∀ (g : QFlit) (k : Nat), s.lqHead p q = some (g, k) → k < 4096 → s.fetched p q slot = true → s.owed p q = 0 →
        (s.port p).canSend = true → s.rcv.folds = false →
        CompletesWith (exec (.slotLaunch p slot0) s) fun t =>
          (t.lq p q).flits = (s.lq p q).flits.tail ∧
          t.getF (aCrpLqState p q) F.crpLqState_launched = (s.getF (aCrpLqState p q) F.crpLqState_launched + 1) % 2 ^ 32 ∧
          (t.port p).next = ((s.port p).next + 1) % 4096 ∧ (t.port p).used = some slot ∧
          (∃ f : Flit, (t.port p).buf = (s.port p).buf ++ [f] ∧ f.kind = 1 ∧ f.seq = (s.port p).next ∧ f.payload = g.payload ∧
            f.field 68 12 = k ∧ f.field 80 12 = slot % 4096 ∧ f.field 92 1 = 0 ∧ f.field 93 2 = g.prov.toNat) ∧
          s.sameIslands t ∧ s.sameMemory t) ∧
      (s.lqHead p q = none → odd ≠ s.lastClaim p q →
        CompletesWith (exec (.slotLaunch p slot0) s) fun t =>
          t.owed p q = raised F.crpLqState_owed (s.owed p q) 1 ∧ (t.port p).used = some slot ∧ s.sameIslands t ∧ s.sameMemory t)) ∧
    (∀ (p slot0 : Nat) (r : Relay), p < numPorts → s.brt.running = true → s.brt.aborted = false → s.sending p = true →
      s.carriesSched p = true → (s.port p).canSend = true →
      let slot := s.evenSlot p slot0
      (s.port p).used ≠ some slot → s.relaysDue p slot = [r] → s.claims p (s.oddSlot p slot0) = [] →
      s.slotConflict p slot (s.oddSlot p slot0) = false → (s.port p).next < 4096 →
      CompletesWith (exec (.relayLaunch p slot0) s) fun t =>
        (t.port p).relays = (s.port p).relays.erase r ∧ (t.port p).used = some slot ∧
        (∃ f : Flit, (t.port p).buf = (s.port p).buf ++ [f] ∧ f.kind = 1 ∧ f.payload = r.flit.payload ∧
          f.field 68 12 = r.flit.field 68 12 ∧ f.field 80 12 = slot % 4096 ∧ f.field 92 1 = 0 ∧ f.field 93 35 = r.flit.field 93 35) ∧
        s.sameIslands t ∧ s.sameMemory t)

/-- Presentation (R280 to R289): a flit on time that lands enters the landing stage with its descriptor, one that is relayed enters the
relay buffer of its next port with its slot; one that no descriptor of the port claims is counted as misrouted. Landing (R285, R286): the
oldest flit of the landing stage goes to four consecutive mailbox entries through the landing input, or its 256 bytes to tile memory or
staging at the descriptor's place for its count; the stream's count rises, and for memory its completion counter. In part the model's own
readings: log entries 53, 54, 61, 163, 165. -/
def Obligations.PresentationAndLanding : Prop :=
  (∀ (s : State) (p slot : Nat) (a : Arrived) (l : List Arrived),
    let f := a.flit
    let stream := f.field 68 12
    let d := s.streamDesc stream
    let kind := sd d 0 3
    let arrival := s.getF (aCrpConfig p) F.crpConfig_arrival
    p < numPorts → (s.port p).arrived = a :: l →
    (s.waitsSlot p slot f = true → exec (.flitPresent p slot) s = .next s) ∧
    (f.hdr.getLsbD 92 = false → arrival ≤ slot → (slot - arrival) % 4096 = f.field 80 12 →
    (kind = 1 → sd d 3 6 = p → (s.port p).stage.length < 64 → (s.port p).blocked = [] →
      CompletesWith (exec (.flitPresent p slot) s) fun t =>
        (t.port p).arrived = l ∧ (t.port p).stage = (s.port p).stage ++ [{ flit := f, desc := d }] ∧
        (∀ q, q ≠ p → t.port q = s.port q) ∧ s.regsBut t [(aCrpDelay p, F.crpDelay_minMargin)] ∧ s.sameIslands t ∧ s.sameMemory t) ∧
    (kind = 2 → sd d 3 6 = p → (s.port (sd d 9 6)).relays.length < 64 →
      CompletesWith (exec (.flitPresent p slot) s) fun t =>
        (t.port p).arrived = l ∧
        (t.port (sd d 9 6)).relays = (s.port (sd d 9 6)).relays ++ [{ flit := f, due := slot + sd d 15 6, late := false }] ∧
        s.regsBut t [(aCrpDelay p, F.crpDelay_minMargin)] ∧ s.sameIslands t ∧ s.sameMemory t) ∧
    (kind = 0 ∨ 4 ≤ kind ∨ sd d 3 6 ≠ p →
      CompletesWith (exec (.flitPresent p slot) s) fun t =>
        (t.port p).arrived = l ∧ (t.port p).stage = (s.port p).stage ∧
        t.getF (aCrpArrive p) F.crpArrive_misrouted = raised F.crpArrive_misrouted (s.getF (aCrpArrive p) F.crpArrive_misrouted) 1 ∧
        s.sameIslands t ∧ s.sameMemory t))) ∧
  (∀ (s : State) (p : Nat) (g : Stage64) (l : List Stage64),
    let f := g.flit
    let d := g.desc
    let stream := f.field 68 12
    let q := s.getF (aCrpSeq stream) F.crpSeq_value
    p < numPorts → (s.port p).stage = g :: l → sd d 84 2 = 0 →
    let ends := fun (t : State) => (t.port p).stage = l ++ (s.port p).blocked.take 1 ∧ t.getF (aCrpSeq stream) F.crpSeq_value = (q + 1) % 2 ^ 32
    let counts := fun (t : State) => t.getF (aCrpCc stream) F.crpCc_value = (s.getF (aCrpCc stream) F.crpCc_value + 1) % 2 ^ F.crpCc_value.width
    let puts := fun (t : State) (a : Nat) => ∀ i, t.readByte i = if a ≤ i ∧ i < a + 256 then f.bytes.getD (i - a) 0 else s.readByte i
    (sd d 21 2 = 0 → (s.island (sd d 24 9)).landings.length ≤ 12 →
      CompletesWith (exec (.flitLanding p) s) fun t =>
        ends t ∧ s.sameMemory t ∧ t.cores = s.cores ∧
        let e := sd d 43 6 + 4 * (q % (sd d 49 4 + 1))
        let w := fun (k : Nat) (data : Line) (z : Option LandEnd) =>
          ({ unit := 60 * sd d 33 4 + sd d 37 6, entry := (e + k) % 64, data := data, prov := BitVec.ofNat 2 (f.field 93 2), fin := z } : LandWrite)
        (t.island (sd d 24 9)).landings = (s.island (sd d 24 9)).landings ++
          [w 0 f.q0 none, w 1 f.q1 none, w 2 f.q2 none, w 3 f.q3 (some { stream := stream, sig := none })]) ∧
    (sd d 21 2 = 1 → CompletesWith (exec (.flitLanding p) s) fun t =>
      ends t ∧ counts t ∧ s.sameIslands t ∧
      puts t (s.tileBase (sd d 24 9) (60 * sd d 33 4 + sd d 37 6) + sd d 43 18 + 256 * (q % (sd d 64 20 + 1)))) ∧
    (2 ≤ sd d 21 2 → CompletesWith (exec (.flitLanding p) s) fun t =>
      ends t ∧ counts t ∧ s.sameIslands t ∧ t.tags = s.tags ∧
      puts t (stgBase + stgSize * sd d 24 3 + (sd d 27 26 + 256 * (q % (sd d 64 20 + 1))) % stgSize)))

/-- Patches and bypasses (R296 to R298, R301, R487): an order that comes before its breath activates its link's patch once; opening
bypasses open, closing ones close; a withdrawal begins to close all, and loss of power, a reset and a trip close all at once; admission
opens all. In part the model's own readings: log entries 77, 93, 119. -/
def Obligations.PatchesAndBypasses : Prop :=
  ∀ (s : State),
    (∀ msg : Msg,
      let s0 := s.takeMsg msg
      let b := msgBits msg 32 64
      let key := msgBits msg 96 19
      s0.brt.job = true → s0.brt.taken = false → (s0.brt.next < b ∨ (b = s0.brt.next ∧ beatReached s0.beat s0.tNext = false)) → (∀ x ∈ s0.fab.patches, x.1 ≠ key) →
      CompletesWith (exec (.patchOrder msg) s) fun t =>
        t.fab.patches = s0.fab.patches ++ [(key, b)] ∧
        t.getF aCrpFabric F.crpFabric_patches = raised F.crpFabric_patches (s0.getF aCrpFabric F.crpFabric_patches) 1 ∧
        t.getF aCrpPatchLog F.crpPatchLog_activations = raised F.crpPatchLog_activations (s0.getF aCrpPatchLog F.crpPatchLog_activations) 1 ∧
        t.getF aCrpPatchLog F.crpPatchLog_last = key % 2 ^ F.crpPatchLog_last.width ∧ s.sameIslands t ∧ s.sameMemory t) ∧
    (s.getF aCrpDrone F.crpDrone_state < 2 ^ 48 →
      let only := fun (t : State) => s.regsBut t [(aCrpDrone, F.crpDrone_state)] ∧ s.sameIslands t ∧ s.sameMemory t
      (∀ i < 24, s.drone i = 1 → CompletesWith (exec (.dronePathFullyOpen i) s) fun t =>
        t.drone i = 2 ∧ (∀ j, j ≠ i → t.drone j = s.drone j) ∧ only t) ∧
      (∀ i < 24, s.drone i = 3 → CompletesWith (exec (.dronePathFullyClosed i) s) fun t =>
        t.drone i = 0 ∧ (∀ j, j ≠ i → t.drone j = s.drone j) ∧ only t) ∧
      (∀ b, s.boc.closeAt = some b → CompletesWith (exec (.dronePathClose .withdrawal) s) fun t =>
        (∀ i < 24, t.drone i = if s.drone i = 0 then 0 else 3) ∧ t.getF aBocAdmit F.bocAdmit_beat = b.toNat ∧ s.sameIslands t ∧ s.sameMemory t) ∧
      (s.pins.power = .off → CompletesWith (exec (.dronePathClose .powerLoss) s) fun t => (∀ i < 24, t.drone i = 0) ∧ only t) ∧
      (s.pins.power = .held → CompletesWith (exec (.dronePathClose .resetN) s) fun t => (∀ i < 24, t.drone i = 0) ∧ only t) ∧
      (s.pins.power = .thermal → CompletesWith (exec (.dronePathClose .thermTrip) s) fun t => (∀ i < 24, t.drone i = 0) ∧ only t) ∧
      (∀ b, s.boc.admitAt = some b → s.boc.joining = false → CompletesWith (exec .admissionOpen s) fun t =>
        (∀ i < 24, t.drone i = if s.drone i = 2 then 2 else 1) ∧ t.boc.joining = true ∧ t.getF aBocState F.bocState_step = 10 ∧
        s.sameIslands t ∧ s.sameMemory t))

/-! ### Links -/

/-- Training (R305 to R308, R316, R329): with at least four usable wavelengths a link comes up with its width, its numbers and credits
fresh; with fewer it fails with cause 3; a link that is down begins again; the peer's record of the last step brings the link up. In part
the model's own readings: log entries 34, 42, 64, 161. -/
def Obligations.LinkTraining : Prop :=
  ∀ (s : State) (p : Nat), p < numPorts →
    let fresh := fun (t : State) => (t.port p).next = 0 ∧ (t.port p).exp = 0 ∧ (t.port p).buf = [] ∧ (t.port p).proc = .none ∧
      (∀ v < 6, Tbl.get 0 (t.port p).credit v = nominal v) ∧ s.sameIslands t ∧ s.sameMemory t
    let fails := fun (t : State) (o : Optics) => t.lnk p = 0 ∧ t.getF (aLnkState p) F.lnkState_downCause = 3 ∧
      t.getF (aLnkLanes p) F.lnkLanes_failed = o.failed ∧ t.ports = s.ports ∧ s.sameIslands t ∧ s.sameMemory t
    (∀ env : TrainEnv, (s.lnk p < 2 ∨ 5 < s.lnk p) →
      let good := env.optics.order
      let lanes := if env.peerHalf = false ∧ 8 ≤ good.length then 8 else 4
      (4 ≤ good.length → CompletesWith (exec (.coldTraining p env) s) fun t =>
        fresh t ∧ t.getF (aLnkState p) F.lnkState_lanes = lanes ∧ (t.lnk p = 6 ∨ t.lnk p = if lanes = 8 then 2 else 3) ∧
        (∀ i < lanes, t.laneWl p i = good.getD i 0) ∧
        t.getF (aLnkPartner p) F.lnkPartner_serial = env.serial.toNat ∧ t.getF (aLnkLanes p) F.lnkLanes_failed = env.optics.failed) ∧
      (good.length < 4 → CompletesWith (exec (.coldTraining p env) s) fun t => fails t env.optics)) ∧
    (∀ o : Optics, s.lnk p = 0 →
      (4 ≤ o.order.length → CompletesWith (exec (.coldTrainingRetry ⟨p, o⟩) s) fun t =>
        t.lnk p = 1 ∧ (t.port p).trainStep = 5 ∧ t.getF (aLnkState p) F.lnkState_lanes = (if 8 ≤ o.order.length then 8 else 4) ∧
        t.getF (aLnkLanes p) F.lnkLanes_failed = o.failed ∧ s.sameIslands t ∧ s.sameMemory t) ∧
      (o.order.length < 4 → CompletesWith (exec (.coldTrainingRetry ⟨p, o⟩) s) fun t => fails t o)) ∧
    (∀ (raw : BitVec 2304) (b : Nat), recordOf false raw = some b → s.lnk p = 1 → bitsAt b 144 8 = (s.port p).trainStep →
      (b.testBit 152 = false → CompletesWith (exec (.trainingRecord p raw) s) fun t =>
        (t.port p).trainStep = (s.port p).trainStep ∧ (t.port p).trainGot = true ∧ t.lnk p = 1 ∧ s.sameIslands t ∧ s.sameMemory t) ∧
      (b.testBit 152 = true → (s.port p).trainStep = 7 → CompletesWith (exec (.trainingRecord p raw) s) fun t =>
        fresh t ∧ (t.port p).trainStep = 8 ∧ (t.lnk p = 2 ∨ t.lnk p = 3 ∨ t.lnk p = 6)) ∧
      (b.testBit 152 = true → (s.port p).trainStep < 7 → CompletesWith (exec (.trainingRecord p raw) s) fun t =>
        (t.port p).trainStep = (s.port p).trainStep + 1 ∧ t.lnk p = 1 ∧
        ((s.port p).trainStep = 5 → (t.port p).txMap = bitsAt b 160 32) ∧
        ((s.port p).trainStep = 6 → t.getF (aLnkPartner p) F.lnkPartner_serial = bitsAt b 192 64 ∧
          (t.port p).peerRand = BitVec.ofNat 128 (b / 2 ^ 288) ∧ (t.port p).peerCert = BitVec.ofNat 256 (b / 2 ^ 416)) ∧
        s.sameIslands t ∧ s.sameMemory t))

/-- Reception (R311, R318, R319): the expected scheduled flit of a trained, open link is released to presentation; a flit ahead of a gap
is held; one seen before is counted as a duplicate; one that fails parity is counted and otherwise ignored; the timer queues every unacked
flit. In part the model's own readings: log entries 63, 136, 158, 164. -/
def Obligations.FlitReception : Prop :=
  ∀ (s : State) (p : Nat), p < numPorts → s.linkUp p = true →
    let x := s.port p
    ∀ (raw : BitVec 2304) (fec : List FecCount),
    let f := rawFlit raw
    let bad := badLanes (s.halfWidth p) raw
    (bad = 0 → s.getF (aLnkInjCtl p) F.lnkInjCtl_enable = 0 → x.exp < 4096 →
      (s.fenced p = false → x.encRx = false → x.held = [] → x.tagWait = [] → f.kind = 1 → f.seq = x.exp → x.stage.length < 64 →
        x.blocked = [] →
        CompletesWith (exec (.flitReceive p raw fec) s) fun t =>
          (∃ slot, (t.port p).arrived = x.arrived ++ [{ flit := f, slot := slot }]) ∧ (t.port p).exp = (x.exp + 1) % 4096 ∧
          (t.port p).held = [] ∧ s.sameIslands t ∧ s.sameMemory t) ∧
      (x.held = [] → x.tagWait = [] → f.kind = 1 → 1 ≤ seqDist x.exp f.seq → seqDist x.exp f.seq < 64 → x.stage.length < 64 → x.blocked = [] →
        CompletesWith (exec (.flitReceive p raw fec) s) fun t =>
          (t.port p).held = [f] ∧ (t.port p).exp = x.exp ∧ (t.port p).arrived = x.arrived ∧ s.sameIslands t ∧ s.sameMemory t) ∧
      (f.kind ≠ 0 → 2048 ≤ seqDist x.exp f.seq →
        CompletesWith (exec (.flitReceive p raw fec) s) fun t =>
          t.getF (aLnkReplay p) F.lnkReplay_duplicates = raised F.lnkReplay_duplicates (s.getF (aLnkReplay p) F.lnkReplay_duplicates) 1 ∧
          (t.port p).arrived = x.arrived ∧ (t.port p).exp = x.exp ∧ s.sameIslands t ∧ s.sameMemory t)) ∧
    (bad ≠ 0 → s.getF (aLnkState p) F.lnkState_spare = 1 → x.fails = [] →
      CompletesWith (exec (.flitReceive p raw fec) s) fun t =>
        t.getF (aLnkParity p) F.lnkParity_failed = raised F.lnkParity_failed (s.getF (aLnkParity p) F.lnkParity_failed) 1 ∧
        (t.port p).arrived = x.arrived ∧ (t.port p).exp = x.exp ∧ (t.port p).buf = x.buf ∧ (t.port p).credit = x.credit ∧
        s.sameIslands t ∧ s.sameMemory t) ∧
    (∀ k, x.timer = some k → k < s.slotNow →
      CompletesWith (exec (.replayTimer p) s) fun t =>
        (t.port p).replay = x.buf.map Flit.seq ∧ (t.port p).buf = x.buf ∧ (t.port p).timer = some (k + 2 * s.rtt p) ∧
        t.getF (aLnkReplay p) F.lnkReplay_goBacks = raised F.lnkReplay_goBacks (s.getF (aLnkReplay p) F.lnkReplay_goBacks) 1 ∧
        s.regsBut t [(aLnkReplay p, F.lnkReplay_goBacks)] ∧ s.sameIslands t ∧ s.sameMemory t)

/-- A spare swap (R333): the transmitting end serves the lane on its spare and grants it; the receiving end locks it, moves the lane,
fails the old wavelength, has no spare left and says so; the transmitting end then ends the swap too. A fast retrain (R335 to R337): a
request asks the peer; a request received is granted and both ends wait for their quiet start; the end goes quiet, relocks, and after the
peer's resync sends again with credits and totals fresh, replays first; a withdrawn request changes nothing else. In part the model's own
readings: log entries 65, 159. -/
def Obligations.SparesAndRetrains : Prop :=
  (∀ (s : State) (p : Nat) (msg : Msg), p < numPorts → s.sending p = true →
    let s0 := s.takeCtl p msg
    let ends := fun (v t : State) => (t.port p).later = [] ∧ (t.port p).proc = .none ∧ t.lnk p = v.upState p ∧
      t.getF (aLnkEvents p) F.lnkEvents_swaps = raised F.lnkEvents_swaps (v.getF (aLnkEvents p) F.lnkEvents_swaps) 1 ∧
      v.sameIslands t ∧ v.sameMemory t
    ((s.port p).proc = .none →
      let lane := msgBits msg 72 3
      let wl := (s.port p).txSpare
      CompletesWith (exec (.spareRequest p msg) s) fun t =>
        (t.port p).proc = .spareServed lane wl ∧ t.lnk p = 4 ∧
        (∃ c ∈ Tbl.get [] t.ctl.queue p, c.msg = linkMsg 0x11 [(72, lane), (76, wl)]) ∧ s.sameIslands t ∧ s.sameMemory t) ∧
    (∀ lane, (s.port p).proc = .spareAsked lane → msgBits msg 72 3 = lane →
      CompletesWith (exec (.spareGrant p msg) s) fun t =>
        (t.port p).proc = .spareLocking lane (msgBits msg 76 4) ∧ t.lnk p = 4 ∧ s.sameIslands t ∧ s.sameMemory t) ∧
    (∀ lane wl, (s.port p).proc = .spareLocking lane wl → (s.port p).later = [] → lane < 8 → wl < 16 → s.getF (aLnkLanes p) F.lnkLanes_map < 2 ^ 32 →
      s.laneWl p lane < 9 →
      CompletesWith (exec (.spareLockComplete p) s) fun t =>
        ends s t ∧ t.laneWl p lane = wl ∧ (∀ i < 8, i ≠ lane → t.laneWl p i = s.laneWl p i) ∧
        (t.getF (aLnkLanes p) F.lnkLanes_failed).testBit (s.laneWl p lane) = true ∧
        t.getF (aLnkState p) F.lnkState_spare = 0 ∧ t.getF (aLnkState p) F.lnkState_spareWl = 15) ∧
    (∀ lane wl, (s.port p).proc = .spareServed lane wl → (s.port p).later = [] → msgBits msg 80 4 < 9 →
      CompletesWith (exec (.spareDone p msg) s) fun t =>
        ends s0 t ∧ (t.port p).txSpare = 15 ∧ (t.getF (aLnkLanes p) F.lnkLanes_failed).testBit (msgBits msg 80 4) = true) ∧
    (∀ lane wl, (s.port p).proc = .spareServed lane wl →
      (∀ v : Word, v.getLsbD 0 = true → (s.port p).later = [] →
        CompletesWith (exec (.linkRetrainWrite p v) s) fun t =>
          (t.port p).later = [.retrainAsked 2] ∧ (t.port p).proc = (s.port p).proc ∧ s.sameIslands t ∧ s.sameMemory t) ∧
      ((s.port p).later = [.retrainAsked 2] →
        CompletesWith (exec (.spareDone p msg) s) fun t =>
          (t.port p).later = [] ∧ (t.port p).proc = .retrainAsked 2 ∧
          (∃ c ∈ Tbl.get [] t.ctl.queue p, c.msg = linkMsg 0x13 [(72, 2)]) ∧ s.sameIslands t ∧ s.sameMemory t))) ∧
  (∀ (s : State) (p : Nat) (msg : Msg), p < numPorts →
    let s0 := s.takeCtl p msg
    let sends := fun (t : State) (m : Msg) => ∃ c ∈ Tbl.get [] t.ctl.queue p, c.msg = m
    let rest := fun (t : State) => s.sameIslands t ∧ s.sameMemory t
    (∀ v : Word, v.getLsbD 0 = true → s.sending p = true → (s.port p).proc = .none →
      CompletesWith (exec (.linkRetrainWrite p v) s) fun t =>
        (t.port p).proc = .retrainAsked 2 ∧ sends t (linkMsg 0x13 [(72, 2)]) ∧ t.bus.err = false ∧ rest t) ∧
    (s.sending p = true → (s.port p).proc = .none →
      let waits := fun (t : State) (breath : Option Nat) (tq : Beat) =>
        (t.port p).proc = .retrainWait breath tq ∧ t.getF (aLnkState p) F.lnkState_retrainPending = 1
      let j := if beatReached s.tNext (s.beat + nsBeat 5000) = true then s.brt.next else s.brt.next + 1
      (s.getF (aBocDisc p) F.bocDisc_class ≠ 1 ∨ s.brt.job = false → CompletesWith (exec (.retrainRequest p msg) s) fun t =>
        waits t none (s.slotAfter 10000) ∧ sends t (linkMsg 0x14 [(104, 1)]) ∧ rest t) ∧
      (s.getF (aBocDisc p) F.bocDisc_class = 1 → s.brt.job = true → CompletesWith (exec (.retrainRequest p msg) s) fun t =>
        waits t (some (j % 2 ^ 32)) (s.startOf j) ∧ sends t (linkMsg 0x14 [(72, j % 2 ^ 32)]) ∧ rest t)) ∧
    (∀ cause, (s.port p).proc = .retrainAsked cause →
      CompletesWith (exec (.retrainGrant p msg) s) fun t =>
        (t.port p).proc = (if msg.getLsbD 104 then .retrainWait none (s.slotAfter 10000)
          else .retrainWait (some (msgBits msg 72 32)) (s.startOf (msgBits msg 72 32))) ∧
        t.getF (aLnkState p) F.lnkState_retrainPending = 1 ∧ rest t) ∧
    (∀ breath tq, (s.port p).proc = .retrainWait breath tq → s.quietDue breath tq = false → exec (.quietStart p) s = .next s) ∧
    (∀ breath tq, (s.port p).proc = .retrainWait breath tq → s.quietDue breath tq = true →
      CompletesWith (exec (.quietStart p) s) fun t =>
        (t.port p).proc = .quiet ∧ t.lnk p = 5 ∧ (t.port p).wire = none ∧ t.getF (aLnkState p) F.lnkState_retrainPending = 0 ∧
        s.regsBut t [(aLnkState p, F.lnkState_state), (aLnkState p, F.lnkState_retrainPending)] ∧ rest t) ∧
    (∀ d16 rtt : Nat, (s.port p).proc = .quiet →
      CompletesWith (exec (.relockComplete p d16 rtt) s) fun t =>
        (t.port p).proc = .relocked ∧ (t.port p).held = [] ∧ t.getF (aLnkRtt p) F.lnkRtt_rtt = Min.min rtt 4095 ∧
        t.getF (aCrpDelay p) F.crpDelay_physical = d16 % 2 ^ 16 ∧ (t.port p).exp = (s.port p).exp ∧ rest t) ∧
    (∀ ack : BitVec 12, (s.port p).proc = .relocked → (s.port p).later = [] →
      CompletesWith (exec (.resync p msg ack) s) fun t =>
        (t.port p).proc = .none ∧ (t.port p).replay = (t.port p).buf.map Flit.seq ∧
        (∀ v < 6, Tbl.get 0 (t.port p).grant v = nominal v ∧ Tbl.get 0 (t.port p).receipt v = nominal v ∧
          Tbl.get 0 (t.port p).credit v = nominal v - msgBits msg (72 + 8 * v) 8 -
            ((t.port p).buf.filter fun f => decide (f.kind = 2) && decide (f.field 68 3 = v)).length) ∧
        t.getF (aLnkEvents p) F.lnkEvents_retrains = raised F.lnkEvents_retrains (s.getF (aLnkEvents p) F.lnkEvents_retrains) 1 ∧ rest t) ∧
    exec (.linkWithdraw p msg) s = .next s0)

/-- Loss of a link (R335, R339, R340): a retrain that times out, the peer's notice and silence each take the link down with their cause;
what it held is discarded, the loss is counted. Injection registers (R342, R13): while the manifest permits injection a write without a
reserved encoding sets the register's fields; else it is refused. In part the model's own readings: log entries 66, 160. -/
def Obligations.LinkLossAndInjection : Prop :=
  (∀ (s : State) (p : Nat) (msg : Msg), p < numPorts → s.linkUp p = true →
    let down := fun (t : State) (cause : Nat) =>
      (t.lnk p = 0 ∨ t.lnk p = 6) ∧ t.getF (aLnkState p) F.lnkState_lanes = 0 ∧ t.getF (aLnkState p) F.lnkState_downCause = cause ∧
      (t.port p).buf = [] ∧ (t.port p).held = [] ∧ (t.port p).replay = [] ∧ (t.port p).proc = .none ∧
      t.getF (aLnkEvents p) F.lnkEvents_downs = raised F.lnkEvents_downs (s.getF (aLnkEvents p) F.lnkEvents_downs) 1 ∧
      s.sameIslands t ∧ s.sameMemory t
    ((s.port p).proc = .quiet → CompletesWith (exec (.retrainTimeout p) s) fun t => down t 3) ∧
    CompletesWith (exec (.downNotice p msg) s) (fun t => down t 4) ∧
    ((s.port p).proc ≠ .quiet → (s.port p).proc ≠ .relocked → CompletesWith (exec (.noValidFlitTimeout p) s) fun t => down t 2)) ∧
  (∀ (s : State) (p : Nat) (v : Word), p < numPorts →
    let x := v.toNat
    let ok := fun (t : State) => t.bus.err = false ∧ s.sameIslands t ∧ s.sameMemory t
    (s.getF (aLnkInjCtl p) F.lnkInjCtl_permitted = 0 → ∀ k < 5,
      exec (.injectionControlWrite p (0x8200 + 8 * k) v) s = .next { s with bus := ⟨true, 0⟩ }) ∧
    (s.getF (aLnkInjCtl p) F.lnkInjCtl_permitted ≠ 0 →
      CompletesWith (exec (.injectionControlWrite p 0x8200 v) s) (fun t =>
        t.getF (aLnkInjCtl p) F.lnkInjCtl_enable = x / 2 % 2 ∧ t.getF (aLnkInjCtl p) F.lnkInjCtl_count = x / 4 % 2 ∧ ok t ∧
        s.regsBut t [(aLnkInjCtl p, F.lnkInjCtl_enable), (aLnkInjCtl p, F.lnkInjCtl_count)]) ∧
      CompletesWith (exec (.injectionControlWrite p 0x8208 v) s) (fun t =>
        t.getF (aLnkInjDrop p) F.lnkInjDrop_n = x % 2 ^ 16 ∧ ok t ∧ s.regsBut t [(aLnkInjDrop p, F.lnkInjDrop_n)]) ∧
      CompletesWith (exec (.injectionControlWrite p 0x8210 v) s) (fun t =>
        t.getF (aLnkInjParity p) F.lnkInjParity_lanes = x % 2 ^ 8 ∧ t.getF (aLnkInjParity p) F.lnkInjParity_n = x / 2 ^ 8 % 2 ^ 16 ∧ ok t) ∧
      (x % 4 ≤ 2 → 0 < x / 2 ^ 2 % 2 ^ 16 → 0 < x / 2 ^ 18 % 2 ^ 10 →
        CompletesWith (exec (.injectionControlWrite p 0x8218 v) s) fun t =>
          t.getF (aLnkInjAck p) F.lnkInjAck_mode = x % 4 ∧ t.getF (aLnkInjAck p) F.lnkInjAck_n = x / 2 ^ 2 % 2 ^ 16 ∧
          t.getF (aLnkInjAck p) F.lnkInjAck_k = x / 2 ^ 18 % 2 ^ 10 ∧ ok t) ∧
      (x % 2 ^ 16 = 0 ∨ 0 < x / 2 ^ 16 % 2 ^ 12 →
        CompletesWith (exec (.injectionControlWrite p 0x8220 v) s) fun t =>
          t.getF (aLnkInjReorder p) F.lnkInjReorder_n = x % 2 ^ 16 ∧ t.getF (aLnkInjReorder p) F.lnkInjReorder_hold = x / 2 ^ 16 % 2 ^ 12 ∧ ok t)))

/-! ### Global memory -/

/-- The requester (R171, R345, R352, R357, R358, R360): a request whose source may leave is born now and its packets wait for a port; an
attempt timer sends every packet without a final answer again; at its deadline a request resolves and its counters are told, of which the
one it names frees its tracker. In part the model's own readings: log entries 100, 102. -/
def Obligations.RequestsAndDeadlines : Prop :=
  ∀ (s : State) (n u k : Nat) (r : Remote), s.hasCore n u = true → k < 16 → Tbl.get none (s.core n u).trk k = some r →
    let base := s.tileBase n u + r.buf
    let dest := s.destOf r
    let data := s.readBytes base r.sends
    let sent := fun (v : State) (birth attempt : Nat) => (List.range r.packets).map fun i => v.packetOf n u k r dest birth attempt data i
    (s.req (reqKey n u k) = none → s.isMember (r.gaddr / 2 ^ 42) = true → dest ≠ s.self → dest < 2 ^ 14 →
      (r.op = 1 ∨ r.op = 2 → s.anyLive base r.sends = false) → (r.sends ≠ 0 → s.anyBad base r.sends = false) →
      r.buf + r.sends ≤ tileSize → s.throttled = false → s.gmu.engaged = false →
      CompletesWith (exec (.requestAdmit n u ⟨k, []⟩) s) fun t =>
        t.req (reqKey n u k) = some { birth := s.nowNs, attempt := 0, answers := [] } ∧
        t.gmu.waiting = s.gmu.waiting ++ sent s s.nowNs 0 ∧ t.regs = s.regs ∧ t.cores = s.cores ∧ t.islands = s.islands ∧ s.sameMemory t) ∧
    (∀ q : Req, s.req (reqKey n u k) = some q →
      (q.answers = [] → q.attempt < 3 → dest ≠ s.self → dest < 2 ^ 14 → nsReached s.nowNs (s.deadline q.birth) = false →
        (∀ p ∈ s.gmu.waiting, p.kind < 0x80 → p.reqr ≠ requester n u k) →
        CompletesWith (exec (.attemptTimer n u k) s) fun t =>
          t.req (reqKey n u k) = some { q with attempt := q.attempt + 1 } ∧
          t.gmu.waiting = s.gmu.waiting ++ sent s q.birth (q.attempt + 1) ∧
          t.getF aGmuTrack F.gmuTrack_retries = raised F.gmuTrack_retries (s.getF aGmuTrack F.gmuTrack_retries) r.packets ∧
          s.regsBut t [(aGmuTrack, F.gmuTrack_retries)] ∧ t.cores = s.cores ∧ t.islands = s.islands ∧ s.sameMemory t) ∧
      (s.getF aFltState F.fltState_recovery ≠ 1 → s.boc.closeAt = none →
        s.getF aBocState F.bocState_withdrawing = 0 →
        CompletesWith (exec (.requestDeadline n u k) s) fun t =>
          Tbl.get none (t.core n u).trk k = none ∧ (t.core n u).counting = k :: (s.core n u).counting ∧ t.req (reqKey n u k) = none ∧
          (t.island n).side = (s.island n).side ++ [{ ctr := r.ctr, amt := 1, free := some (u, k) }, { ctr := 255, amt := 1, free := none }] ∧
          t.getF aGmuTrack F.gmuTrack_open = (s.getF aGmuTrack F.gmuTrack_open - 1) % 2 ^ F.gmuTrack_open.width ∧
          t.getF aGmuTrack F.gmuTrack_timeouts = raised F.gmuTrack_timeouts (s.getF aGmuTrack F.gmuTrack_timeouts) 1 ∧
          t.getF (aIslRmemLog n) F.islRmemLog_count = raised F.islRmemLog_count (s.getF (aIslRmemLog n) F.islRmemLog_count) 1 ∧
          s.sameMemory t))

/-- Routing (R349, R363, R367, R368): a packet that a hop takes leaves its input channel, whose entries become free, for the hop's output
queue; the package's own departs the same way; a packet without a route or past its lifetime is dropped and counted. In part the model's
own readings: log entries 79, 80, 104. -/
def Obligations.PacketRouting : Prop :=
  ∀ (s : State), s.throttled = false → s.gmu.engaged = false →
    (∀ (p vc : Nat) (f : Flit) (l : List Flit), p < numPorts → vc < 6 → Tbl.get [] (s.port p).vcs vc = f :: l →
      let dest := f.field 72 14
      let birth := bitsAt f.q0.toNat 176 48
      let age := bitsAt f.q0.toNat 224 32
      let hop := s.hop dest (f.field 71 1) 1 (decide (3 ≤ vc)) (f.hdr.getLsbD 88) (f.field 89 2)
      f.hdr.getLsbD 87 = false → dest ≠ s.self →
      let freed := fun (t : State) => Tbl.get [] (t.port p).vcs vc = l ∧
        Tbl.get 0 (t.port p).pend vc = Tbl.get 0 (s.port p).pend vc + 1 ∧ s.sameIslands t ∧ s.sameMemory t
      (s.tooOld birth age = true → CompletesWith (exec (.packetRoute p vc) s) fun t =>
        freed t ∧ t.getF aGmuDrop F.gmuDrop_lifetime = raised F.gmuDrop_lifetime (s.getF aGmuDrop F.gmuDrop_lifetime) 1) ∧
      (s.tooOld birth age = false → s.bankState (f.field 71 1) ≠ 0 →
        (hop = .noroute → CompletesWith (exec (.packetRoute p vc) s) fun t =>
          freed t ∧ t.getF aGmuDrop F.gmuDrop_noroute = raised F.gmuDrop_noroute (s.getF aGmuDrop F.gmuDrop_noroute) 1) ∧
        (∀ o v, hop = .send o v → CompletesWith (exec (.packetRoute p vc) s) fun t =>
          freed t ∧ ∃ g : Flit, Tbl.get [] (t.port o).out v = Tbl.get [] (s.port o).out v ++ [g] ∧ g.payload = f.payload ∧
            g.field 72 14 = dest ∧ g.field 68 3 = v % 8))) ∧
    (∀ (p : Packet) (l : List Packet), s.gmu.waiting = p :: l → p.kind < 0x80 → nsReached s.nowNs (s.deadline p.birth) = false →
      let d := s.departing p
      ∀ o v, s.hop d.dest d.epoch d.flitCount false false 3 = .send o v →
        CompletesWith (exec (.packetRoute numPorts 0) s) fun t =>
          t.gmu.waiting = l ∧ (Tbl.get [] (t.port o).out v).length = (Tbl.get [] (s.port o).out v).length + d.flitCount ∧
          s.sameIslands t ∧ s.sameMemory t)

/-- The target (R353, R354, R364): a read and a write of 8 bytes of tile memory are performed and answered; a fetch-and-add returns the
old word and stores the sum; a request done before is answered again without effect; a packet whose CRC fails is discarded; a freed entry
is forgotten. A response (R356, R359, R360): the answer of a one-packet request resolves it: its data is in the local buffer, and its
counter is told, which frees its tracker; an answer to no open request is counted and discarded. In part the model's own readings: log
entries 100, 101. -/
def Obligations.RequestsAndResponses : Prop :=
  (∀ (s : State) (p : Packet) (n u : Nat),
    let arrives := p.crcOk = true ∧ p ∉ s.gmu.own ∧ s.inputOf p = none ∧ s.tooOld p.birth p.age = false ∧ s.bankState p.epoch ≠ 0 ∧
      p.source ≠ s.self ∧ p.tag = 0
    let word := s.region p.addr = .tile n u false ∧ p.addr % 8 = 0 ∧ s.anyBad p.addr 8 = false ∧ s.getF aBocState F.bocState_withdrawing = 0
    let fresh := (∀ d ∈ s.gmu.done, d.key ≠ pktKey p) ∧ s.gmu.done.length < 16384
    let old := s.readBytes p.addr 8
    let answers := fun (t : State) (status : Nat) (data : List Byte) => t.gmu.waiting = s.gmu.waiting ++ [answerTo p status data] ∧
      t.regs = s.regs ∧ s.sameIslands t
    let stores := fun (t : State) (bs : List Byte) =>
      ∀ i, t.readByte i = if p.addr ≤ i ∧ i < p.addr + 8 then bs.getD (i - p.addr) 0 else s.readByte i
    (arrives → word → p.kind = 1 → p.len = 8 →
      CompletesWith (exec (.requestPacketArrival p []) s) fun t => answers t 0 old ∧ s.sameMemory t ∧ t.gmu.done = s.gmu.done) ∧
    (arrives → word → fresh → p.kind = 2 → p.data.length = 8 →
      CompletesWith (exec (.requestPacketArrival p []) s) fun t =>
        answers t 0 [] ∧ stores t p.data ∧ t.gmu.done = s.gmu.done ++ [{ key := pktKey p, status := 0, word := [] }]) ∧
    (arrives → word → fresh → p.kind = 5 → p.data.length = 8 →
      CompletesWith (exec (.requestPacketArrival p []) s) fun t =>
        answers t 0 old ∧ stores t (bytesOfNat 8 ((natOfBytes old + natOfBytes p.data) % 2 ^ 64))) ∧
    (arrives → ∀ d : Done, d ∈ s.gmu.done → (∀ x ∈ s.gmu.done, x.key = pktKey p → x = d) → d.key = pktKey p → p.kind = 2 →
      CompletesWith (exec (.requestPacketArrival p []) s) fun t =>
        t.gmu.waiting = s.gmu.waiting ++ [answerTo p d.status d.word] ∧ t.gmu.done = s.gmu.done ∧
        t.getF aGmuDedup F.gmuDedup_dupHits = raised F.gmuDedup_dupHits (s.getF aGmuDedup F.gmuDedup_dupHits) 1 ∧
        s.sameIslands t ∧ s.sameMemory t) ∧
    (p.crcOk = false → p ∉ s.gmu.own → s.inputOf p = none →
      CompletesWith (exec (.requestPacketArrival p []) s) fun t =>
        t.getF aGmuDrop F.gmuDrop_crc = raised F.gmuDrop_crc (s.getF aGmuDrop F.gmuDrop_crc) 1 ∧ t.gmu.waiting = s.gmu.waiting ∧
        s.sameIslands t ∧ s.sameMemory t) ∧
    (∀ i, exec (.dedupEntryFree false i) s = .next { s with gmu := { s.gmu with done := s.gmu.done.eraseIdx i } } ∧
      exec (.dedupEntryFree true i) s = .next { s with gmu := { s.gmu with puts := s.gmu.puts.eraseIdx i } })) ∧
  (∀ (s : State) (p : Packet),
    let n := bitsAt p.reqr 14 9
    let u := bitsAt p.reqr 4 10
    let k := p.reqr % 16
    p.crcOk = true → p ∉ s.gmu.own → s.inputOf p = none → s.tooOld p.birth p.age = false → s.bankState p.epoch ≠ 0 →
    (∀ (q : Req) (r : Remote), s.req (reqKey n u k) = some q → Tbl.get none (s.core n u).trk k = some r → q.birth = p.birth →
      q.answers = [] → r.packets = 1 → p.index = 0 → p.status < 4 → s.getF aFltState F.fltState_recovery ≠ 1 → s.boc.closeAt = none →
      s.getF aBocState F.bocState_withdrawing = 0 →
      CompletesWith (exec (.responseArrival p) s) fun t =>
        let a := s.tileBase n u + r.buf
        (∀ i, t.readByte i = if a ≤ i ∧ i < a + p.data.length then p.data.getD (i - a) 0 else s.readByte i) ∧
        Tbl.get none (t.core n u).trk k = none ∧ (t.core n u).counting = k :: (s.core n u).counting ∧ t.req (reqKey n u k) = none ∧
        (t.island n).side = (s.island n).side ++ [{ ctr := r.ctr, amt := 1, free := some (u, k) }] ∧
        t.getF aGmuTrack F.gmuTrack_open = (s.getF aGmuTrack F.gmuTrack_open - 1) % 2 ^ F.gmuTrack_open.width ∧
        s.regsBut t [(aGmuTrack, F.gmuTrack_open)]) ∧
    (s.req (reqKey n u k) = none →
      CompletesWith (exec (.responseArrival p) s) fun t =>
        t.getF aGmuLate F.gmuLate_discarded = raised F.gmuLate_discarded (s.getF aGmuLate F.gmuLate_discarded) 1 ∧
        s.regsBut t [(aGmuLate, F.gmuLate_discarded)] ∧ s.sameIslands t ∧ s.sameMemory t))

/-- A routing change (R368 to R370): a member builds the retired bank and answers; the lead sends the flip when the last answer is in; the
flip beat is noted, the installed bank becomes active with its epoch bit, and the old one is retired. In part the model's own readings:
log entries 103, 105. -/
def Obligations.RoutingChanges : Prop :=
  ∀ (s : State) (msg : Msg),
    let s0 := s.takeMsg msg
    let e := msgBits msg 22 1
    let now := s.getF aGmuEpoch F.gmuEpoch_inject
    let rest := fun (t : State) => s.sameIslands t ∧ s.sameMemory t
    (s0.bankState e ≠ 2 → (∀ d ∈ s0.boxMembers, d < 16384) → CompletesWith (exec (.routeInstall msg) s) fun t =>
      t.bankState e = 1 ∧ t.bankState (1 - e) = s.bankState (1 - e) ∧ rest t ∧
      (∀ d ∈ s0.boxMembers, t.getF (aGmuRoute e d) F.gmuRoute_valid = 1 ∧
        t.getF (aGmuRoute e d) F.gmuRoute_ports =
          (s0.noteLink (msgBits msg 64 19) (msg.getLsbD 83)).routePorts d % 2 ^ F.gmuRoute_ports.width)) ∧
    (s0.isLead = true → ∀ key down, s0.gmu.asked = [(key, down)] → key < 2 ^ 19 → msgBits msg 64 19 = key →
      (∀ q ∈ s0.livingMembers, q = msgBits msg 8 14 ∨ (q, key) ∈ s0.gmu.ready) →
      CompletesWith (exec (.routeReady msg) s) fun t =>
        s0.msgOf 0x06 [(22, e), (64, (s0.nowNs + 10000) % 2 ^ 48)] ∈ t.ctl.loop ∧ t.regs = s0.regs ∧ rest t) ∧
    CompletesWith (exec (.routeFlip msg) s) (fun t => t.gmu.flip = some (msgBits msg 64 48) ∧ t.regs = s.regs ∧ rest t) ∧
    (now < 2 → s.gmu.flip.isSome = true → s.bankState (1 - now) = 1 →
      CompletesWith (exec .epochFlip s) fun t =>
        t.bankState (1 - now) = 2 ∧ t.getF aGmuEpoch F.gmuEpoch_inject = 1 - now ∧ t.bankState now = s.bankState now ∧
        t.getF aGmuEpoch F.gmuEpoch_changes = raised F.gmuEpoch_changes (s.getF aGmuEpoch F.gmuEpoch_changes) 1 ∧ t.gmu.flip = none ∧ rest t) ∧
    (now < 2 → s.bankState (1 - now) = 2 → s.isLead = false →
      CompletesWith (exec .epochRetire s) fun t =>
        t.bankState (1 - now) = 0 ∧ t.bankState now = s.bankState now ∧ t.gmu.asked = [] ∧ rest t)

/-! ### Living with faults -/

/-- The ledger, events and the health digest (R26, R397, R398, R401, R402, R433, R435): an hour adds 60 minutes and a record; what the
limit held back is written with its count; compaction keeps what it must and sums up the rest; a second's suppressed events become one;
the digest shows the health; a retired core gets a spare at a boundary. In part the model's own readings: log entries 28, 97, 98, 148. -/
def Obligations.LedgerEventsAndHealth : Prop :=
  ∀ (s : State),
    let l := s.flt.ledger
    let now := s.getF aFltLedger F.fltLedger_minutes
    let rest := fun (t : State) => s.sameIslands t ∧ s.sameMemory t
    ((∀ r ∈ l, r.minutes + 10 ≤ now) → now + 60 < 2 ^ 32 → CompletesWith (exec .hoursMark s) fun t =>
      t.getF aFltLedger F.fltLedger_minutes = now + 60 ∧
      (∃ r : Ledger, t.flt.ledger = l ++ [r] ∧ r.kind = 1 ∧ r.minutes = now + 60 ∧ r.beat = s.beat) ∧
      s.regsBut t [(aFltLedger, F.fltLedger_minutes), (aFltLedger, F.fltLedger_used)] ∧ rest t) ∧
    ((∀ r ∈ l, r.minutes + 10 ≤ now) → 0 < s.getF aFltLedger F.fltLedger_pending → CompletesWith (exec .suppressedRecordFlush s) fun t =>
      t.getF aFltLedger F.fltLedger_pending = 0 ∧
      (∃ r : Ledger, t.flt.ledger = l ++ [r] ∧ r.kind = 7 ∧ r.detail = s.getF aFltLedger F.fltLedger_pending) ∧
      s.regsBut t [(aFltLedger, F.fltLedger_pending), (aFltLedger, F.fltLedger_used)] ∧ rest t) ∧
    (s.brt.job = false → 524288 * 9 ≤ l.length * 10 → CompletesWith (exec .ledgerCompact s) fun t =>
      (∀ r ∈ l, r.kind = 1 ∨ r.kind = 3 ∨ r.kind = 4 → r ∈ t.flt.ledger) ∧
      (∀ r ∈ t.flt.ledger, r ∈ l ∨ r.kind = 6) ∧
      (∀ r ∈ l, r.kind = 2 → now ≤ r.minutes + 60000 → ∃ x ∈ t.flt.ledger, x.kind = 6 ∧ x.unit = r.unit) ∧
      s.regsBut t [(aFltLedger, F.fltLedger_used), (aFltLedger, F.fltLedger_mirrorOk)] ∧ rest t) ∧
    ((∀ e ∈ s.flt.events, e.count ≤ 16) → exec .eventSuppressSummary s = .next { s with flt := { s.flt with events := [] } }) ∧
    (∀ e : EvCount, s.flt.events = [e] → 16 < e.count → CompletesWith (exec .eventSuppressSummary s) fun t =>
      t.flt.events = [] ∧ t.getF aFltRing F.fltRing_head = (s.getF aFltRing F.fltRing_head + 1) % 2 ^ 32 ∧ rest t) ∧
    CompletesWith (exec .healthDigestUpdate s) (fun t =>
      (∀ k < 8, t.getF (aFltHealth k) F.fltHealth_word = s.healthImage / 2 ^ (64 * k) % 2 ^ 64) ∧
      t.getF aBocState F.bocState_state = s.health ∧
      s.regsBut t ((aBocState, F.bocState_state) :: (List.range 8).map fun k => (aFltHealth k, F.fltHealth_word)) ∧ rest t) ∧
    (∀ (u : BitVec 32) (n k p : Nat), bitsAt u.toNat 0 3 = 2 → s.brt.job = true → u ∈ s.flt.newly → s.brt.running = false →
      s.logicalIsland (uField u) (uIsland u) = some n →
      ((List.range 60).find? fun j => decide (s.physCore n (60 * uCluster u + j) = uCore u)) = some k →
      s.spareCore n (uCluster u) = some p → CompletesWith (exec (.valveSwap u) s) fun t =>
        Tbl.get none t.flt.coreOver (ckey n (60 * uCluster u + k)) = some p ∧ t.physCore n (60 * uCluster u + k) = p ∧ u ∉ t.flt.newly ∧
        t.getF aFltRecovery F.fltRecovery_swaps = raised F.fltRecovery_swaps (s.getF aFltRecovery F.fltRecovery_swaps) 1 ∧
        s.regsBut t [(aFltRecovery, F.fltRecovery_swaps)] ∧ rest t)

/-- Commit and discard (R407 to R413, R426): the lead holds reports, commits a step whose reports have no cause and waits for management
on one it cannot replay; a member takes the commit at its boundary; a discard and an abort freeze it, its requests still open; sweeps
clear a tag region by region, and the lead hears of their end. Shadow replay and localisation (R403, R415 to R417, R421): the suspect
sends its digest, the replayer takes up the step and arms its trigger; the lead holds what arrives; the limit ends a replay; a capture
record that reproduces its fault retires its core, one that does not is recorded as detected. In part the model's own readings: log
entries 70, 76, 86, 87, 99, 166. -/
def Obligations.CommitReplayAndSweep : Prop :=
  (∀ (s : State) (msg : Msg),
    let s0 := s.takeMsg msg
    let n := msgBits msg 24 48
    let rest := fun (t : State) => s.sameIslands t ∧ s.sameMemory t
    let decides := s.isLead = true ∧ s.brt.job = true ∧ s.brt.running = true ∧ s.brt.aborted = false ∧ s.rcv.restart = false ∧
      s.brt.stepFirst = true ∧ s.brt.step = s.rcv.decided + 2 ∧
      ∀ p ∈ s.workers, ∃ r ∈ s.rcv.reports, r.step = s.rcv.decided + 1 ∧ r.member = p
    (s0.isLead = true → s0.rcv.decided < n → s0.rcv.restart = false → msgBits msg 72 8 = 0 →
      CompletesWith (exec (.stepReport msg) s) fun t =>
        ({ member := msgBits msg 8 14, step := n, causes := 0 } : Report) ∈ t.rcv.reports ∧ t.regs = s.regs ∧ rest t) ∧
    (decides → (∀ r ∈ s.rcv.reports, r.step = s.rcv.decided + 1 → r.causes = 0) →
      CompletesWith (exec .commitDecision s) fun t =>
        t.rcv.decided = s.rcv.decided + 1 ∧ s.msgOf 0x22 [(24, s.rcv.decided + 1)] ∈ t.ctl.loop ∧ t.regs = s.regs ∧ rest t) ∧
    (decides → (∃ r ∈ s.rcv.reports, r.step = s.rcv.decided + 1 ∧ r.causes ≠ 0) → s.rcv.replay = none →
      CompletesWith (exec .commitDecision s) fun t =>
        t.rcv.decided = s.rcv.decided ∧ t.rcv.waits = some (s.rcv.decided + 1) ∧ rest t) ∧
    (s0.committed < n → s0.rcv.shadow = none → s0.atBoundary = false → CompletesWith (exec (.commit msg) s) fun t =>
      t.rcv.toCommit = some n ∧ t.committed = s.committed ∧ t.regs = s.regs ∧ rest t) ∧
    (s0.committed < n → s0.rcv.shadow = none → s0.atBoundary = true → CompletesWith (exec (.commit msg) s) fun t =>
      t.rcv.toCommit = none ∧ t.committed = n ∧ t.mem = s.mem ∧
      (s.tagState (tagOf n) = 1 → s.tagStep (tagOf n) = n →
        (t.tagState (tagOf n) = 2 ∨ t.tagState (tagOf n) = 0) ∧ ∀ a, lpEnd ≤ a → t.tagAt a ≠ BitVec.ofNat 2 (tagOf n))) ∧
    (s0.rcv.toCommit = none → s0.rcv.shadow = none → s0.getF aGmuTrack F.gmuTrack_open ≠ 0 → CompletesWith (exec (.discard msg) s) fun t =>
      t.brt.aborted = true ∧ t.getF aFltState F.fltState_recovery = 1 ∧
      (∀ k ∈ [n, n + 1], s.tagState (tagOf k) = 1 → s.tagStep (tagOf k) = k → t.tagState (tagOf k) = 3) ∧ rest t) ∧
    (s0.rcv.toCommit = none → s0.rcv.shadow = none → s0.getF aFltState F.fltState_recovery = 0 → s0.getF aGmuTrack F.gmuTrack_open ≠ 0 →
      CompletesWith (exec (.abort msg) s) fun t =>
        t.brt.aborted = true ∧ t.getF aFltState F.fltState_recovery = 1 ∧ (msgBits msg 96 8 = 8 → t.brt.job = false) ∧
        (∀ k, 1 ≤ k → k ≤ 3 → s.tagState k = 1 → t.tagState k = 0) ∧ rest t) ∧
    (∀ k region, 1 ≤ k → k ≤ 3 → s.tagState k = 2 → region ∈ s.markedRegions k → Tbl.wf 0 s.tier.tagDir = true → Tbl.wf 0 s.tags = true →
      CompletesWith (exec (.tagSweep k region) s) fun t =>
        (∀ a, t.tagAt a = if a / 64 / 65536 = region ∧ s.tagAt a = BitVec.ofNat 2 k then 0 else s.tagAt a) ∧
        region ∉ t.markedRegions k ∧ (t.tagState k = 0 ↔ s.markedRegions k = [region]) ∧ t.mem = s.mem ∧ t.bad = s.bad ∧ s.sameIslands t) ∧
    (s0.isLead = true → (msgBits msg 8 14, msgBits msg 26 46) ∉ s0.rcv.swept → CompletesWith (exec (.sweepDone msg) s) fun t =>
      t.rcv.swept = s0.rcv.swept ++ [(msgBits msg 8 14, msgBits msg 26 46)] ∧ t.regs = s.regs ∧ rest t)) ∧
  (∀ (s : State) (msg : Msg),
    let s0 := s.takeMsg msg
    let step := msgBits msg 24 48
    let p := msgBits msg 72 14
    let rest := fun (t : State) => s.sameIslands t ∧ s.sameMemory t
    (s0.lead = s0.self → p = s0.self → CompletesWith (exec (.replayOrder msg) s) fun t =>
      (∀ k < 4, s0.msgOf 0x26 [(24, step % 2 ^ 32), (56, k), (58, (s0.packageDigest step).toNat / 2 ^ (64 * k) % 2 ^ 64), (122, 0)] ∈ t.ctl.loop) ∧
      t.regs = s.regs ∧ rest t) ∧
    (p ≠ s0.self → msgBits msg 86 14 = s0.self → s0.hasImage = true → s0.replays = false →
      let start := (s.beat + nsBeat 1000000).toNat
      CompletesWith (exec (.replayOrder msg) s) fun t =>
        t.rcv.shadow = some (step, p) ∧ t.rcv.folds = decide (s0.self ≠ 0x3FFF) ∧ t.brt.step = step - 1 ∧
        t.brt.nextEntry = Config.replayEntry p step ∧ t.brt.running = false ∧ t.brt.job = s.brt.job ∧
        t.getF aBocTNext F.bocTNext_beat = start ∧ t.getF aTimTrig F.timTrig_beat = start ∧ t.getF aTimTrigState F.timTrigState_armed = 1 ∧
        t.getF aFltState F.fltState_replaying = 1 ∧
        t.getF aFltRecovery F.fltRecovery_replays = raised F.fltRecovery_replays (s.getF aFltRecovery F.fltRecovery_replays) 1 ∧ rest t) ∧
    (s0.isLead = true → CompletesWith (exec (.digest msg) s) fun t =>
      ({ package := msgBits msg 8 14, step := msgBits msg 24 32, part := msgBits msg 56 2, bits := BitVec.ofNat 64 (msgBits msg 58 64)
         replayer := msg.getLsbD 122 } : DigPart) ∈ t.rcv.digests ∧ t.regs = s.regs ∧ rest t) ∧
    (s.rcv.replay = none → s.rcv.shadow.isSome = true → s.brt.running = false → CompletesWith (exec .replayLimitExpiry s) fun t =>
      t.rcv.shadow = none ∧ t.rcv.folds = false ∧ t.getF aFltState F.fltState_replaying = 0 ∧ t.getF aTimTrigState F.timTrigState_armed = 0 ∧
      t.brt.step = s.committed ∧ t.brt.job = s.brt.job ∧ (∀ k, 1 ≤ k → k ≤ 3 → s.tagState k = 1 → t.tagState k = 0) ∧ rest t) ∧
    (∀ q : Replay, s.isLead = true → s.rcv.shadow = none → s.rcv.replay = some q → q.above = false → CompletesWith (exec .replayLimitExpiry s) fun t =>
      t.rcv.replay = some { q with above := true } ∧ t.rcv.waits = some q.step ∧ rest t) ∧
    (∀ n cl r : Nat, s.hasCluster n cl = true → r < 4 → s.getF aFltState F.fltState_recovery ≠ 0 → s.brt.running = false →
      s.captureEmpty n cl r = false → s.flt.ledger = [] →
      let unit := unitId 2 (s.fieldOf n) (s.physIsland n) cl (bitsAt (s.getF (aFltCapture n cl r 1) F.fltCapture_word) 16 6) 0
      (unit ∉ s.flt.retired → unit ∉ s.flt.newly → CompletesWith (exec (.localisationTest n cl r true) s) fun t =>
        unit ∈ t.flt.newly ∧ t.flt.ledger.map Ledger.kind = [3, 4] ∧ (∀ x ∈ t.flt.ledger, x.unit = unit.toNat ∧ x.cause = 7) ∧ rest t) ∧
      CompletesWith (exec (.localisationTest n cl r false) s) fun t =>
        t.flt.newly = s.flt.newly ∧ t.flt.ledger.map Ledger.kind = [2] ∧ (∀ x ∈ t.flt.ledger, x.unit = unit.toNat ∧ x.cause = 7) ∧ rest t))

/-- The lead and its members (R424 to R428, R430, R431, R436): heartbeats are sent and noted; the first successor takes over from a silent
lead; a silent or lost member is put on the list of lost ones; a report of a fault aborts; a drained member restarts at the step named,
its trigger armed; a substitution is entered. In part the model's own readings: log entries 74, 86, 91, 96, 145, 147, 151. -/
def Obligations.LeadLossAndRestart : Prop :=
  ∀ (s : State) (msg : Msg),
    let s0 := s.takeMsg msg
    let rest := fun (t : State) => s.sameIslands t ∧ s.sameMemory t
    (msgBits msg 8 14 ∉ s0.rcv.joiners → CompletesWith (exec (.heartbeat msg) s) fun t =>
      Tbl.get 0 t.rcv.heard (msgBits msg 8 14) = s.beat.toNat + 1 ∧ t.regs = s.regs ∧ rest t) ∧
    (s.admitted = true → s.rcv.gone = false → s.isLead = true → CompletesWith (exec .heartbeatSend s) fun t =>
      s.msgOf 0x27 [(24, s.health), (32, s.committed % 2 ^ 40)] ∈ t.ctl.loop ∧ t.regs = s.regs ∧ rest t) ∧
    (∀ m : Manifest, s.manifest = some m → s.admitted = true → s.isLead = false → s.silent s.lead = true →
      (m.leads.find? fun p => decide (p < 2 ^ 14) && decide (p ≠ s.lead) && !s.rcv.lost.contains p) = some s.self →
      CompletesWith (exec .leadLossTimeout s) fun t =>
        t.isLead = true ∧ t.lead = s.self ∧ t.getF aTimStatus F.timStatus_root = 1 ∧ t.getF aTimStatus F.timStatus_rootIndex = s.self ∧ rest t) ∧
    (∀ p : Nat, s.isLead = true → p ≠ s.self → p ∉ s.rcv.lost → (s.memberRec p).isSome = true →
      CompletesWith (exec (.packageLost p) s) (fun t => p ∈ t.rcv.lost ∧ rest t) ∧
      (s.admitted = true → s.silent p = true → CompletesWith (exec (.heartbeatLossTimeout p) s) fun t => p ∈ t.rcv.lost ∧ rest t)) ∧
    (s0.isLead = true → s0.brt.job = true → msgBits msg 24 8 = 1 → s0.rcv.restart = false → s0.getF aFltState F.fltState_recovery = 0 →
      CompletesWith (exec (.faultReport msg) s) fun t =>
        s0.msgOf 0x29 [(32, s0.getF aBocBreath F.bocBreath_index), (96, 1)] ∈ t.ctl.loop ∧ t.rcv.restart = true ∧ t.regs = s.regs ∧ rest t) ∧
    (s0.hasImage = true → s0.getF aFltState F.fltState_recovery = 2 → s0.standby = false → s0.committed < 2 ^ 40 →
      s0.committed < msgBits msg 88 40 →
      let start := nsBeat (msgBits msg 40 48)
      CompletesWith (exec (.restart msg) s) fun t =>
        t.getF aFltState F.fltState_recovery = 5 ∧ t.brt.job = true ∧ t.brt.aborted = false ∧ t.brt.running = false ∧ t.brt.missed = false ∧
        t.brt.nextEntry = msgBits msg 24 16 ∧ t.brt.step = msgBits msg 88 40 - 1 ∧ t.brt.stepFirst = true ∧
        t.getF aBocTNext F.bocTNext_beat = start.toNat ∧ t.getF aTimTrig F.timTrig_beat = start.toNat ∧
        t.getF aTimTrigState F.timTrigState_armed = 1 ∧ t.getF aFltSusp F.fltSusp_older = 0 ∧ t.getF aFltSusp F.fltSusp_newer = 0 ∧
        t.getF aFltRecovery F.fltRecovery_restarts = raised F.fltRecovery_restarts (s.getF aFltRecovery F.fltRecovery_restarts) 1 ∧ rest t) ∧
    CompletesWith (exec (.promote msg) s) (fun t =>
      (∃ i < 16, t.getF (aFltSubst i) F.fltSubst_lost = msgBits msg 24 14 ∧ t.getF (aFltSubst i) F.fltSubst_spare = msgBits msg 38 14 ∧
        t.getF (aFltSubst i) F.fltSubst_valid = 1) ∧
      msgBits msg 38 14 ∈ t.rcv.spares ∧ s0.substituted (msgBits msg 24 14) ∈ t.rcv.lost ∧
      t.getF aFltRecovery F.fltRecovery_promotions = raised F.fltRecovery_promotions (s.getF aFltRecovery F.fltRecovery_promotions) 1 ∧
      (msgBits msg 38 14 = s0.self → t.getF aFltState F.fltState_role = 0) ∧ rest t)

/-! ### Authentication, control messages and the slice's life -/

/-- Fabric tags and sessions (R455, R461 to R463): a tag over what a port has sent goes to the far end, also on request after a loss; a
tag received is judged when its flits are released; a flit left uncovered counts as a failure; a silent session ends. In part the model's
own readings: log entries 67, 68. -/
def Obligations.TagsAndSessions : Prop :=
  ∀ (s : State) (p : Nat) (msg : Msg), p < numPorts →
    let s0 := s.takeMsg msg
    let x := s.port p
    let rest := fun (t : State) => s.sameIslands t ∧ s.sameMemory t
    let sends := fun (v t : State) (k o e : Nat) => ∃ c ∈ Tbl.get [] t.ctl.queue o, c.dest = k ∧ c.bcast = false ∧ c.msg = v.authTagMsg p e
    (∀ k o : Nat, x.partner = some k → k ≠ s.self → s.ctlRoute k = some o → x.encTx = true → x.tagged < x.eTx →
      CompletesWith (exec (.authTagSend p) s) fun t =>
        sends s t k o (x.eTx - 1) ∧ t.port p = { x with tagged := x.eTx } ∧ t.regs = s.regs ∧ rest t) ∧
    (let y := s0.port p
      let e := resolveE (y.eRx - 1) (msgBits msg 8 24)
      y.encRx = true → y.tagWait = [] → msgBits msg 0 8 = 0x40 + oppositePort p → e < y.eRx → s0.rcv.report = none →
      CompletesWith (exec (.authTag p msg true) s) (fun t =>
        (t.port p).covered = Max.max y.covered (e + 1) ∧
        t.getF aSecAuth F.secAuth_verified = raised F.secAuth_verified (s.getF aSecAuth F.secAuth_verified) 1 ∧
        s.regsBut t [(aSecAuth, F.secAuth_verified)] ∧ rest t) ∧
      CompletesWith (exec (.authTag p msg false) s) fun t =>
        (t.port p).covered = y.covered ∧ (t.port p).authBad = y.authBad + 1 ∧
        t.getF aSecAuth F.secAuth_failed = raised F.secAuth_failed (s.getF aSecAuth F.secAuth_failed) 1 ∧ rest t) ∧
    (∀ k o : Nat, p = oppositePort (msgBits msg 8 6) →
      let y := s0.port p
      let e := resolveE (y.eTx - 1) (msgBits msg 14 24)
      y.partner = some k → k ≠ s0.self → s0.ctlRoute k = some o → y.encTx = true → e < y.eTx → y.tagged ≤ e + 1 →
      CompletesWith (exec (.tagRequest msg) s) fun t => sends s0 t k o e ∧ t.regs = s.regs ∧ rest t) ∧
    (x.encRx = true → x.covered < x.eRx → CompletesWith (exec (.authTagTimeout p) s) fun t =>
      (t.port p).authBad = x.authBad + 1 ∧
      t.getF aSecAuth F.secAuth_failed = raised F.secAuth_failed (s.getF aSecAuth F.secAuth_failed) 1 ∧ rest t) ∧
    ∀ id : BitVec 64, CompletesWith (exec (.sessionTimeout id) s) fun t =>
      t.session id = none ∧ (∀ j, j ≠ id → t.session j = s.session j) ∧ t.regs = s.regs ∧ t.ports = s.ports ∧ rest t

/-- Control messages and failures of the Bocal (R475, R476, R480 to R482): a message for another package waits for the port of its route,
a broadcast is delivered here as well, one that found no port goes when one can take it and is else dropped and counted; a failed Bocal
hands over to its twin; a controller's second error in a job retires its field. In part the model's own readings: log entries 36, 62, 116,
118. -/
def Obligations.ControlMessagesAndFailover : Prop :=
  ∀ (s : State) (routing : BitVec 128) (msg : Msg),
    let c := ctlOf routing.toNat msg
    let s0 := s.takeMsg msg
    let rest := fun (t : State) => s.sameIslands t ∧ s.sameMemory t
    (∀ o : Nat, c.local_ = false → c.bcast = false → c.dest ≠ s.self → s0.ctlRoute c.dest = some o →
      CompletesWith (exec (.ctlForward routing [msg]) s) fun t =>
        Tbl.get [] t.ctl.queue o = Tbl.get [] s0.ctl.queue o ++ [c] ∧ (∀ q, q ≠ o → Tbl.get [] t.ctl.queue q = Tbl.get [] s0.ctl.queue q) ∧
        t.regs = s.regs ∧ rest t) ∧
    (c.local_ = false → c.bcast = true → c.source ≠ s.self → s.bcastKind msg = true →
      CompletesWith (exec (.ctlBroadcastForward routing [msg]) s) fun t => msg ∈ t.ctl.loop ∧ t.regs = s.regs ∧ rest t) ∧
    (∀ h : Ctl, s.ctl.held = [h] → h.dest ≠ s.self →
      (s.ctlRoute h.dest = none → CompletesWith (exec .ctlDropTimeout s) fun t =>
        t.ctl.held = [] ∧ t.ctl.queue = s.ctl.queue ∧
        t.getF aBocBrq F.bocBrq_ctlDropped = raised F.bocBrq_ctlDropped (s.getF aBocBrq F.bocBrq_ctlDropped) 1 ∧
        s.regsBut t [(aBocBrq, F.bocBrq_ctlDropped)] ∧ rest t) ∧
      (∀ o, s.ctlRoute h.dest = some o → s.getF aBocBrq F.bocBrq_ctlDropped < 2 ^ 8 → CompletesWith (exec .ctlDropTimeout s) fun t =>
        t.ctl.held = [] ∧ Tbl.get [] t.ctl.queue o = Tbl.get [] s.ctl.queue o ++ [h] ∧
        t.getF aBocBrq F.bocBrq_ctlDropped = s.getF aBocBrq F.bocBrq_ctlDropped ∧ rest t)) ∧
    (s.boc.selfCheckFailed = true → s.brt.job = false → s.getF aBocState F.bocState_twin = 0 →
      CompletesWith (exec .bocalFailover s) fun t =>
        t.getF aBocState F.bocState_twin = 1 ∧ t.boc.selfCheckFailed = false ∧ t.boc.dead = s.boc.dead ∧ t.ctls = [] ∧ rest t) ∧
    (s.boc.selfCheckFailed = true → s.getF aBocState F.bocState_twin ≠ 0 →
      CompletesWith (exec .bocalFailover s) fun t => t.boc.dead = true ∧ t.regs = s.regs ∧ rest t) ∧
    (∀ f < 8, s.brt.job = true → Tbl.get 0 s.rcv.errors f = 1 → unitId 5 f 0 0 0 0 ∉ s.flt.retired → unitId 5 f 0 0 0 0 ∉ s.flt.newly →
      CompletesWith (exec (.fieldControllerError f) s) fun t =>
        Tbl.get 0 t.rcv.errors f = 2 ∧ unitId 5 f 0 0 0 0 ∈ t.flt.newly ∧ rest t)

/-- Admission, start and withdrawal (R485 to R488, R492, R493, R495, R496): a neighbour expects the joiner; a joiner that can be admitted
is, another one gives up; a loaded package is ready and the lead notes it; a start order arms the trigger with T_0; the lead drops a
package that withdraws; at the closing beat the package keeps no manifest, no key and nothing in its die stack. In part the model's own
readings: log entries 119, 120, 121, 122. -/
def Obligations.AdmissionStartAndWithdrawal : Prop :=
  ∀ (s : State) (msg : Msg),
    let s0 := s.takeMsg msg
    let rest := fun (t : State) => s.sameIslands t ∧ s.sameMemory t
    CompletesWith (exec (.admitNoticeMessage msg) s) (fun t =>
      (∀ p < numPorts, (t.port p).expectTo = if s0.neighbour (p / 8) = msgBits msg 24 14
        then some (BitVec.ofNat 64 (msgBits msg 40 48 * 65536)) else (s0.port p).expectTo) ∧ t.regs = s.regs ∧ rest t) ∧
    (∀ m : Manifest, s.manifest = some m → s.boc.joining = true → s.canJoin = true →
      CompletesWith (exec .admitted s) fun t =>
        t.admitted = true ∧ t.getF aBocState F.bocState_step = 11 ∧ t.boc.joining = false ∧ t.boc.admitAt = none ∧
        t.getF aFltState F.fltState_role = m.role.1 % 4 ∧ t.lead = m.leads.headD 0 % 2 ^ 14 ∧ t.getF aGmuEpoch F.gmuEpoch_inject = 0 ∧
        t.bankState 0 = 2 ∧ t.getF aBocSlipCfg F.bocSlipCfg_window = m.window % 2 ^ F.bocSlipCfg_window.width ∧ rest t) ∧
    (s.boc.joining = true → s.canJoin = false → s.getF aCrpDrone F.crpDrone_state < 2 ^ 48 →
      CompletesWith (exec .admissionTimeout s) fun t =>
        t.boc.joining = false ∧ t.boc.admitAt = none ∧ t.getF aBocState F.bocState_step = 9 ∧
        (∀ i < 24, t.drone i = if s.drone i = 0 then 0 else 3) ∧ rest t) ∧
    (s0.isLead = true → s0.boc.envelope.isSome = true → msgBits msg 24 64 = s0.imageWord →
      CompletesWith (exec (.imageReady msg) s) fun t => msgBits msg 8 14 ∈ t.rcv.ready ∧ t.regs = s.regs ∧ rest t) ∧
    (s.hasImage = true → s.brt.job = false → s.getF aBocState F.bocState_ready = 0 → s.loadsFinished = true →
      s.acceptanceSettled = true → s.lead = s.self → CompletesWith (exec .breath0LoadDone s) fun t =>
        t.getF aBocState F.bocState_ready = 1 ∧ s.msgOf 0x73 [(24, s.imageWord)] ∈ t.ctl.loop ∧
        s.regsBut t [(aBocState, F.bocState_ready)] ∧ rest t) ∧
    (s0.hasImage = true → s0.brt.job = false → s0.standby = false →
      let t0 := msgBits msg 40 48 * 65536
      CompletesWith (exec (.startOrder msg) s) fun t =>
        t.brt.job = true ∧ t.brt.running = false ∧ t.brt.next = 0 ∧ t.brt.nextEntry = 0 ∧ t.brt.step = s.committed ∧
        t.getF aBocTNext F.bocTNext_beat = t0 ∧ t.getF aTimTrig F.timTrig_beat = t0 ∧ t.getF aTimTrigState F.timTrigState_armed = 1 ∧
        t.getF aBocSlip F.bocSlip_count = 0 ∧ rest t) ∧
    (s0.isLead = true → msg.getLsbD 88 = false → CompletesWith (exec (.withdrawNotice msg) s) fun t =>
      msgBits msg 24 14 ∈ t.rcv.lost ∧ msgBits msg 24 14 ∉ t.rcv.ready ∧ t.regs = s.regs ∧ rest t) ∧
    (∀ b, s.boc.closeAt = some b → s.getF aCrpDrone F.crpDrone_state < 2 ^ 48 →
      CompletesWith (exec .withdrawClose s) fun t =>
        (∀ i < 24, t.drone i = if s.drone i = 0 then 0 else 3) ∧ t.manifest = none ∧ t.boc.closeAt = none ∧ t.tier.key = 0 ∧ t.cores = [] ∧
        t.getF aBocState F.bocState_step = 9 ∧ t.admitted = false ∧ t.brt.job = false ∧
        ∀ i, t.readByte i = if i < lpEnd then s.readByte i else 0)

/-! ### The Bocal request protocol -/

/-- What happens to a request message before its request does (R455, R500, R501, R503): without an open session, or with a tag that does
not verify or a counter used before, it is dropped and counted; a request id answered before gets the same answer again and has no effect.
In part the model's own readings: log entry 123. -/
def Obligations.RequestMessages : Prop :=
  ∀ (s : State) (r : Brq) (w : Bool) (i n : Nat) (bs : List Byte) (ecc : Eccs) (verdict : Verdict) (b : BitVec 64) (word : Word),
    ∀ c ∈ [Instr.objWrite r i n 0 ⟨bs, ecc⟩, .objCommit r i n 0 verdict, .objDiscard r i n, .sessionClose r, .timePoll r b b,
        .timeSteer r w w word word, .eventAck r n, .regRead r n, .regWrite r n word, .admitRequest r b, .admitNotice r n b, .withdraw r,
        .start r b, .stop r, .decide r n i, .update r n, .confirm r, .reset r, .toneRun r n, .ckptRead r i n],
      s.brqLive = true → r.cls = 1 →
      ((s.session r.session = none ∨ r.tagOk = false ∨ ∃ x, s.session r.session = some x ∧ x.accepts r.counter = false) →
        exec c s = .next s.dropBrq) ∧
      (∀ (x : Session) (a : Resp), s.session r.session = some x → r.tagOk = true → x.accepts r.counter = true → r.counter < 2 ^ 32 →
        (x.answers.find? fun a => decide (a.rid = r.rid)) = some a → x.out + 1 < 2 ^ 32 →
        CompletesWith (exec c s) fun t =>
          t.boc.resp = some { session := r.session, counter := x.out, code := a.code, rid := r.rid, status := a.status, data := a.data } ∧
          t.regs = s.regs ∧ t.nv = s.nv ∧ s.sameIslands t ∧ s.sameMemory t)

/-- Sessions, time, registers and events over BRQ (R384, R433, R454, R455, R503, R505). In part the model's own readings: log entry 124. -/
def Obligations.SessionAndRegisterRequests : Prop :=
  ∀ (s : State) (r : Brq),
    let rest := fun (t : State) => s.sameIslands t ∧ s.sameMemory t
    (∀ (sid : BitVec 64) (next : BitVec 256), s.brqLive = true → r.cls = 2 → s.boc.recovery = false → s.owner.isSome = true →
      s.boc.sessions.length < 8 → s.session sid = none →
      CompletesWith (exec (.sessionOpen r true 0 sid s.boc.challenge next .good) s) fun t =>
        (∃ x, t.session sid = some x ∧ x.owner = true ∧ x.top = 0 ∧ x.out = 0 ∧ x.answers = []) ∧ t.boc.challenge = next ∧
        t.boc.resp = some { session := 0, counter := 0, code := 0x8011, rid := r.rid, status := 0, data := bytesOfNat 8 sid.toNat } ∧ rest t) ∧
    ∀ x : Session, InSession s r x →
      CompletesWith (exec (.sessionClose r) s) (fun t => s.done t r x 0x12 [] ∧ t.session r.session = none ∧ rest t) ∧
      (∀ arrival departure : Beat, CompletesWith (exec (.timePoll r arrival departure) s) fun t =>
        s.done t r x 0x20 (bytesOfNat 8 arrival.toNat ++ bytesOfNat 8 departure.toNat) ∧
        s.regsBut t [(aBocBrq, F.bocBrq_accepted)] ∧ rest t) ∧
      (∀ incr phase : Word, x.may 0 = true → s.admitted = false → 27460302903 ≤ incr.toNat → incr.toNat ≤ 27515278485 →
        CompletesWith (exec (.timeSteer r true true incr phase) s) fun t =>
          s.done t r x 0x21 [] ∧ t.getF aTimIncr F.timIncr_incr = incr.toNat ∧ t.pins.phase = some phase ∧ rest t) ∧
      (∀ seq : Nat, x.may 7 = true → CompletesWith (exec (.eventAck r seq) s) fun t =>
        s.done t r x 0x30 [] ∧ t.getF aFltRing F.fltRing_read = seq % 2 ^ 16 ∧
        s.regsBut t [(aBocBrq, F.bocBrq_accepted), (aFltRing, F.fltRing_read)] ∧ rest t) ∧
      (x.may 7 = true → CompletesWith (exec (.regRead r aBocResetCause) s) fun t =>
        s.done t r x 0x31 (bytesOfNat 8 (s.getF aBocResetCause F.bocResetCause_cause + s.getF aBocResetCause F.bocResetCause_count * 2 ^ 4)) ∧
        s.regsBut t [(aBocBrq, F.bocBrq_accepted)] ∧ rest t) ∧
      (∀ v : Word, x.owner = true → 300 ≤ v.toNat % 2 ^ 16 → v.toNat % 2 ^ 16 ≤ 1250 →
        CompletesWith (exec (.regWrite r aBocPowerCfg v) s) fun t =>
          s.done t r x 0x32 [] ∧ t.getF aBocPowerCfg F.bocPowerCfg_limit = v.toNat % 2 ^ 16 ∧
          s.regsBut t [(aBocBrq, F.bocBrq_accepted), (aBocPowerCfg, F.bocPowerCfg_limit)] ∧ rest t)

/-- The slice's life, updates and resets over BRQ (R414, R423, R438, R446, R471, R485, R493 to R495, R498). In part the model's own
readings: log entries 110, 124. -/
def Obligations.SliceAndUpdateRequests : Prop :=
  ∀ (s : State) (r : Brq) (x : Session), InSession s r x →
    let rest := fun (t : State) => s.sameIslands t ∧ s.sameMemory t
    (∀ b : Beat, x.may 2 = true → s.manifest.isSome = true → s.getF aBocState F.bocState_grant ≠ 0 → s.getF aBocState F.bocState_step = 9 →
      s.getF aBocCapacity F.bocCapacity_class ≠ 3 → s.ahead b 100000000 = true →
      CompletesWith (exec (.admitRequest r b) s) fun t => s.done t r x 0x40 [] ∧ t.boc.admitAt = some b ∧ rest t) ∧
    (∀ (j : Nat) (b : Beat), x.may 2 = true → s.isLead = true → s.brt.running = false → s.fab.patches = [] → s.ahead b 100000000 = true →
      s.isMember j = true → CompletesWith (exec (.admitNotice r j b) s) fun t =>
        s.done t r x 0x41 [] ∧ j ∈ t.rcv.joiners ∧ j ∉ t.rcv.lost ∧ rest t) ∧
    (x.may 2 = true → s.admitted = true → CompletesWith (exec (.withdraw r) s) fun t =>
      s.done t r x 0x42 [] ∧ t.getF aBocState F.bocState_withdrawing = 1 ∧
      (s.brt.running = false → s.boc.closeAt = none → s.getF aGmuTrack F.gmuTrack_open = 0 →
        t.boc.closeAt = some (s.beat + nsBeat 10000000)) ∧ rest t) ∧
    (x.may 2 = true → s.isLead = true → s.brt.job = false → s.admitted = true → s.allReady = true →
      let t0 := s.beat + nsBeat 10000000
      CompletesWith (exec (.start r 0) s) fun t =>
        s.done t r x 0x43 (bytesOfNat 8 t0.toNat) ∧ s.msgOf 0x72 [(40, t0.toNat / 65536)] ∈ t.ctl.loop ∧ rest t) ∧
    (x.may 2 = true → s.isLead = true → s.brt.job = true → s.brt.running = true → s.brt.taken = false → s.brt.aborted = false →
      CompletesWith (exec (.stop r) s) fun t => s.done t r x 0x44 [] ∧ t.brt = { s.brt with stopping := true } ∧ rest t) ∧
    (∀ n : Nat, x.may 2 = true → s.isLead = true → s.rcv.waits = some n →
      CompletesWith (exec (.decide r n 1) s) (fun t =>
        s.done t r x 0x45 [] ∧ t.rcv.decided = n ∧ s.msgOf 0x22 [(24, n)] ∈ t.ctl.loop ∧ rest t) ∧
      CompletesWith (exec (.decide r n 2) s) fun t =>
        s.done t r x 0x45 [] ∧ t.rcv.restart = true ∧ s.msgOf 0x23 [(24, n)] ∈ t.ctl.loop ∧ rest t) ∧
    (∀ slot < 2, x.may 4 = true → s.admitted = false → CompletesWith (exec (.update r slot) s) fun t =>
      t.answered r x 0x50 0 [] ∧ t.nv = { s.nv with bcr := { preferred := slot, trial := true, boots := 0 } } ∧
      t.getF aBocResetCause F.bocResetCause_cause = 4 ∧ t.pins.power = .held ∧ t.cores = []) ∧
    (x.may 4 = true → s.getF aSecState F.secState_trial ≠ 0 → s.boc.secVer < 2 ^ 7 → s.getF aSecCounters F.secCounters_ctr0 < 2 ^ 7 →
      CompletesWith (exec (.confirm r) s) fun t =>
        s.done t r x 0x51 [] ∧ t.getF aSecState F.secState_trial = 0 ∧
        t.getF aSecCounters F.secCounters_ctr0 = Max.max (s.getF aSecCounters F.secCounters_ctr0) s.boc.secVer ∧
        t.nv.bcr = { s.nv.bcr with trial := false, boots := 0 } ∧ rest t) ∧
    (x.may 4 = true → s.admitted = false → CompletesWith (exec (.reset r) s) fun t =>
      t.answered r x 0x52 0 [] ∧ t.nv = s.nv ∧ t.getF aBocResetCause F.bocResetCause_cause = 3 ∧ t.pins.power = .held ∧ t.cores = []) ∧
    (∀ k : Pack, x.may 3 = true → s.brt.job = false → s.boc.packs = [k] → CompletesWith (exec (.toneRun r 0) s) fun t =>
      s.done t r x 0x53 [] ∧ t.fresh = s.fresh + 1 ∧
      (∀ u ∈ Config.toneFaults k.number s.fresh, u ∈ s.flt.retired ∨ u ∈ t.flt.newly) ∧ rest t)

/-- Objects over BRQ (R464 to R466, R502 to R504): public reads and reports; the held manifest read back; a chunk written, given up, and
committed: a check of the Ligature that fails leaves nothing in force, a floor request that holds raises its counter and discards the
records below; a checkpoint block is made. In part the model's own readings: log entries 126, 127, 129, 154, 155. -/
def Obligations.ObjectRequests : Prop :=
  ∀ (s : State) (r : Brq),
    let rest := fun (t : State) => s.sameIslands t ∧ s.sameMemory t
    (s.brqLive = true → r.cls = 0 →
      (∀ offset length : Nat, 0 < length → offset + length ≤ 64 → CompletesWith (exec (.objRead r 0x03 0 offset length) s) fun t =>
        t.boc.resp = some (Resp.mk 0 0 0x8001 r.rid 0 ((List.range length).map fun i =>
            BitVec.ofNat 8 (s.getF (aFltHealth ((offset + i) / 8)) F.fltHealth_word / 2 ^ (8 * ((offset + i) % 8))))) ∧ rest t) ∧
      (∀ nonce : BitVec 256, CompletesWith (exec (.makeReport r nonce) s) fun t =>
        t.boc.report = s.makeReport nonce ∧ (∃ a, t.boc.resp = some a ∧ a.status = 0 ∧ a.code = 0x8010) ∧ rest t)) ∧
    ∀ x : Session, InSession s r x →
      (∀ offset length : Nat, x.may 1 = true → 0 < length → length ≤ 8192 → offset + length ≤ s.boc.manBytes.length →
        CompletesWith (exec (.objRead r 0x30 0 offset length) s) fun t =>
          s.done t r x 0x01 ((s.boc.manBytes.drop offset).take length) ∧ s.regsBut t [(aBocBrq, F.bocBrq_accepted)] ∧ rest t) ∧
      (∀ (o i offset : Nat) (data : List Byte) (ecc : Eccs), s.objGate o x = 0 → s.objOpen o i = none → data ≠ [] → o ≠ 0x20 → o ≠ 0x21 → o ≠ 0x33 →
        CompletesWith (exec (.objWrite r o i offset ⟨data, ecc⟩) s) fun t =>
          s.done t r x 0x02 [] ∧
          t.objOpen o i = some { session := x.id, object := o, index := i, chunks := [(offset, data)] } ∧
          (∀ p j, (p ≠ o ∨ j ≠ i) → t.objOpen p j = s.objOpen p j) ∧ t.manifest = s.manifest ∧ t.nv = s.nv ∧ rest t) ∧
      (∀ (o i : Nat) (w : ObjWrite), objKnown o = true → objWritable o x = true → s.objOpen o i = some w → w.session = x.id →
        CompletesWith (exec (.objDiscard r o i) s) fun t =>
          s.done t r x 0x04 [] ∧ t.objOpen o i = none ∧ s.regsBut t [(aBocBrq, F.bocBrq_accepted)] ∧ t.nv = s.nv ∧ rest t) ∧
      (∀ (o i total : Nat) (w : ObjWrite), s.objGate o x = 0 → s.objOpen o i = some w → w.session = x.id → 0 < total →
        total ≤ chunkReach w.chunks → CompletesWith (exec (.objCommit r o i total .badSignature) s) fun t =>
          t.answered r x 0x03 0x04 [] ∧ t.objOpen o i = none ∧ t.manifest = s.manifest ∧ t.nv = s.nv ∧
          t.getF aSecRefusals F.secRefusals_signature = raised F.secRefusals_signature (s.getF aSecRefusals F.secRefusals_signature) 1 ∧ rest t) ∧
      (∀ w : ObjWrite, x.owner = true → s.owner.isSome = true → s.objOpen 0x24 0 = some w → w.session = x.id →
        let total := 16 + sigLen
        let bs := chunkBytes w.chunks total
        let floor := byteField bs 2 3
        total ≤ chunkReach w.chunks → byteField bs 0 1 = 1 → floor ≤ 64 → s.getF aSecCounters F.secCounters_ctr2 ≤ floor →
        byteField bs 4 11 = 0 → zeroBytes bs 12 15 = true →
        CompletesWith (exec (.objCommit r 0x24 0 total .good) s) fun t =>
          s.done t r x 0x03 [] ∧ t.objOpen 0x24 0 = none ∧ t.getF aSecCounters F.secCounters_ctr2 = floor ∧
          t.nv.auths = s.nv.auths.filter (fun a => decide (floor ≤ a.gen)) ∧ rest t) ∧
      (∀ addr length : Nat, x.may 5 = true → s.getF aSecState F.secState_keys ≠ 0 → s.ckptRange addr length = true →
        s.anyLive addr length = false → s.anyBad addr length = false → CompletesWith (exec (.ckptRead r addr length) s) fun t =>
          s.done t r x 0x60 (bytesOfNat 4 (80 + length)) ∧ t.boc.ckpt.length = 80 + length ∧ t.boc.blocks = s.boc.blocks + 1 ∧ rest t)

/-- The I3C target and the test access port (R468, R469, R507, R508): addresses are assigned, replaced and given up; reads return
identity, characteristics and the mirror from the pointer on; the debug lock hides what it must. In part the model's own readings: log
entries 133, 134. -/
def Obligations.I3cAndTestPort : Prop :=
  ∀ (s : State) (a : BitVec 7), s.i3cLive = true →
    let addressed := s.i3c.addr.isSome = true
    let answers := fun (i : Instr) (l : List Byte) => exec i s = .next { s with i3c := { s.i3c with answer := l } }
    (s.i3c.addr = none → CompletesWith (exec (.entdaa a) s) fun t =>
      t.i3c.addr = some a ∧ t.i3c.answer.length = 8 ∧ t.i3c.mirror = s.i3c.mirror ∧ t.regs = s.regs ∧ s.sameIslands t ∧ s.sameMemory t) ∧
    exec .rstdaa s = .next { s with i3c := { s.i3c with addr := none } } ∧
    (addressed → exec (.setnewda a) s = .next { s with i3c := { s.i3c with addr := some a } }) ∧
    (addressed → answers .getpid (bytesOfNat 6 s.provisionedId).reverse) ∧
    (addressed → answers .getbcr [0]) ∧
    (addressed → answers .getdcr [Config.dcr]) ∧
    (addressed → CompletesWith (exec .getstatus s) fun t => t.i3c.answer.length = 2 ∧ t.i3c.addr = s.i3c.addr ∧ t.regs = s.regs ∧
      s.sameIslands t ∧ s.sameMemory t) ∧
    (∀ e : BitVec 8, exec (.enec e) s = .next s ∧ exec (.disec e) s = .next s) ∧
    (addressed → ∀ (b : Byte) (l : List Byte),
      exec (.i3cPrivateWrite (b :: l)) s = .next { s with i3c := { s.i3c with ptr := b.toNat % 64 } }) ∧
    (addressed → ∀ k : Nat, answers (.i3cPrivateRead k) ((List.range k).map fun i => s.i3c.mirror.getD ((s.i3c.ptr + i) % 64) 0)) ∧
    CompletesWith (exec .mirrorRefresh s) (fun t =>
      t.i3c.mirror.length = 64 ∧ t.i3c.mirror.head? = some 1 ∧ t.i3c.mirror[1]? = some (BitVec.ofNat 8 s.health) ∧
      t.i3c.mirror[63]? = some (s.i3c.mirror.getD 63 0 + 1) ∧ t.regs = s.regs ∧ s.sameIslands t ∧ s.sameMemory t) ∧
    (∀ i : TapInstr, CompletesWith (exec (.testAccessPortInstruction i) s) fun t =>
      (i = .bypass ∨ i = .idcode ∨ i = .samplePreload → t.pins.tapInstr = i) ∧
      (i = .extest → t.pins.tapInstr = if s.admitted then .bypass else .extest) ∧
      (i = .other → t.pins.tapInstr = if s.getF aSecState F.secState_locked = 0 then .other else .bypass) ∧
      t = { s with pins := { s.pins with tapInstr := t.pins.tapInstr } })

/-! ### The whole machine -/

/-- One step runs the command that has waited longest, with the rest of the queue left waiting; with no command waiting nothing happens.
In part the model's own readings: log entry 1. -/
def Obligations.StepRunsTheFrontCommand : Prop :=
  (∀ (c : Instr) (l : List Instr) (s : State), s.pending = c :: l → step s = exec c { s with pending := l }) ∧
  (∀ s : State, s.pending = [] → step s = .next s)

/-- No command changes the queue of those that wait. -/
def Obligations.CommandsLeaveTheQueue : Prop :=
  ∀ (c : Instr) (s t : State), exec c s = .next t → t.pending = s.pending

/-- No command is refused; a command that names units of a class A package is carried out on one, in every state; and the only reason to
stop is a unit that does not exist (R7, R22, R93). In part the model's own readings: log entry 8. -/
def Obligations.WellFormedCommandsComplete : Prop :=
  ∀ (c : Instr) (s : State),
    (∀ r, exec c s ≠ .refused r) ∧ (∀ f, exec c s = .fault f → f = .absentUnit) ∧
    (wellFormed c = true → s.perField = 40 → Completes (exec c s))

/-- The memory keeps its canonical form at every step, from every state that has it: addresses strictly rise and no listed byte is the one
that unlisted addresses read as. -/
def Obligations.MemoryStaysCanonical : Prop :=
  ∀ s t : State, Memory.wf s.mem = true → step s = .next t → Memory.wf t.mem = true

/-- After power-on reset every register field has the value of the register map's Reset column but for the fused stamp corrections (R9,
R381); the increment is nominal (R377), the power limit 12.5 kW (R522), the reset cause power-on (R471); memory is canonical and reads
zero, which is the model's choice for the LPDDR5X tier (log entry 10); no command, manifest, session or breath is there. -/
def Obligations.ResetState : Prop :=
  (∀ a f, fkey a f ∉ fusedRegs.map Prod.fst → State.reset.getF a f = f.reset) ∧
  State.reset.getF aTimIncr F.timIncr_incr = 0x666666666 ∧ State.reset.getF aBocPowerCfg F.bocPowerCfg_limit = 1250 ∧
  State.reset.getF aBocResetCause F.bocResetCause_cause = 1 ∧ State.reset.getF aBocState F.bocState_step = 0 ∧
  Memory.wf State.reset.mem = true ∧ (∀ a, State.reset.readByte a = 0) ∧ State.reset.pending = [] ∧ State.reset.beat = 0 ∧
  State.reset.manifest = none ∧ State.reset.owner = none ∧ State.reset.boc.sessions = [] ∧ State.reset.brt.job = false ∧ State.reset.sound

/-- R377: the nominal increment is the one after reset; a value in range is taken and the next tick of the reference clock adds it; a
value out of range is refused with an access error and changes nothing. -/
def Obligations.BeatIncrement : Prop :=
  State.reset.getF aTimIncr F.timIncr_incr = 0x666666666 ∧
  ∀ (s : State) (v : Word), v.toNat < 2 ^ 40 →
    (27460302903 ≤ v.toNat → v.toNat ≤ 27515278485 →
      CompletesWith (exec (.timIncrWrite v) s) fun t =>
        t.getF aTimIncr F.timIncr_incr = v.toNat ∧ s.regsBut t [(aTimIncr, F.timIncr_incr)] ∧ t.beatAcc = s.beatAcc ∧ t.bus.err = false ∧
        (s.pins.power = .on → s.pins.phase = none →
          exec .referenceClockTick t = .next { t with beatAcc := s.beatAcc + BitVec.ofNat 80 v.toNat })) ∧
    (v.toNat < 27460302903 ∨ 27515278485 < v.toNat → exec (.timIncrWrite v) s = .next { s with bus := ⟨true, 0⟩ })

/-- R181: prov.begin sets prov to its tag and prov.end sets it to 0, both with latency 1, whatever prov was; until then the core holds the
old value; tag 0 is reserved, so that the bundle is illegal. -/
def Obligations.ProvisionalTagInstructions : Prop :=
  ∀ (s t : State) (sl : Slot) (tag : BitVec 2) (n u : Nat),
    let c := t.core n u
    (∀ g : BitVec 2, t.hasCore n u = true → u < 1024 →
      let v := t.issued (.provBegin sl g) sl slotX [dSpecial 8] n u [(1, .setProv g)]
      (v.core n u).prov = c.prov ∧ (c.flight = [] → (v.core n u).due = [.setProv g]) ∧
      ∀ (d : Core) (cyc : Nat), d.apply cyc (.setProv g) = { d with prov := g }) ∧
    (Runs s t sl slotX [dSpecial 8] n u →
      (tag ≠ 0 → exec (.provBegin sl tag) s = .next (t.issued (.provBegin sl tag) sl slotX [dSpecial 8] n u [(1, .setProv tag)])) ∧
      exec (.provEnd sl) s = .next (t.issued (.provEnd sl) sl slotX [dSpecial 8] n u [(1, .setProv 0)])) ∧
    (Reaches s t sl slotX n u → t.getF (aIslCoreFault n u) F.islCoreFault_code = 0 → t.isFenced n = false →
      CompletesWith (exec (.provBegin sl 0) s) fun v =>
        (v.core n u).run = .faulted ∧ v.getF (aIslCoreFault n u) F.islCoreFault_code = 1)

/-- Accumulation (R46, R47, R49 to R51): a finite product adds the floor of its exact value in units of the anchor, and bits it loses set
lost_low; what a lane holds after any additions does not depend on their order or grouping; a readout overflows exactly when the sum lies
outside the window. In part the model's own readings: log entry 146. -/
def Obligations.AccumulationIsExact : Prop :=
  (∀ (anchor e d : Int) (s t : Bool) (m n : Nat),
    let p : Int := if s = t then (m * n : Nat) else -((m * n : Nat) : Int)
    let sh := e + d - anchor
    let a := productAdd anchor (.fin s m e) (.fin t n d)
    ∃ z : Int, a.t = BitVec.ofInt 144 z ∧ a.res.toNat = a.t.toNat % 65535 ∧ a.nan = false ∧ a.pos = false ∧ a.neg = false ∧
      (0 ≤ sh → z = p * 2 ^ sh.toNat ∧ a.lost = false) ∧
      (sh < 0 → z * 2 ^ (-sh).toNat ≤ p ∧ p < (z + 1) * 2 ^ (-sh).toNat ∧ (a.lost = true ↔ z * 2 ^ (-sh).toNat ≠ p))) ∧
  (let consistent := fun x : Lane => residueAgrees x.sum x.res x.wraps = true
  let sound := fun a : LaneAdd => residueAgrees a.t a.res a.wraps = true
  consistent Lane.zero ∧ sound LaneAdd.zero ∧
  (∀ (anchor : Int) (a b : Val), sound (productAdd anchor a b)) ∧
  (∀ a b : LaneAdd, sound a → sound b → sound (a.plus b)) ∧
  (∀ (x : Lane) (a : LaneAdd), consistent x → sound a → consistent (x.add a) ∧ (x.add a).chk = (x.chk || a.chk)) ∧
  (∀ (x : Lane) (a : LaneAdd), ¬ consistent (x.add a) → (x.add a).chk = true) ∧
  (∀ (l m : List LaneAdd) (x : Lane), consistent x → (∀ a ∈ l, sound a) → l.Perm m → l.foldl Lane.add x = m.foldl Lane.add x) ∧
  (∀ (l : List LaneAdd) (a b : LaneAdd) (x : Lane), consistent x → sound a → sound b → (∀ c ∈ l, sound c) →
    (x.add a).add b = x.add (a.plus b) ∧ x.add (l.foldl LaneAdd.plus a) = l.foldl Lane.add (x.add a))) ∧
  (∀ sum : BitVec 144, sumOverflows sum = true ↔ ¬ (-(2 ^ 127) ≤ sum.toInt ∧ sum.toInt < 2 ^ 127))

/-- What a bundle's words say (R122, R123, R128, R137, R155, R160): a slot is issued for each valid bit, in the order S, M, X, with the
header's end mark and reserved bits and its own predicate; a bundle without valid slots issues none; the words of the example of R144 are
wswap and mma; an opcode that its slot does not list, a nonzero reserved field, and an operand that must be 0 make the slot a reserved
encoding. -/
def Obligations.BundleWords : Prop :=
  ∀ env : BundleEnv,
    let sl := fun (slot : Nat) (pred : BitVec 3) (adv : Nat) (eog res : Bool) (hdr : BitVec 2) =>
      ({ site := env.site, pred := pred, adv := adv, eog := eog, chk := env.chk slot, ecc := env.ecc slot, res := res, hdr := hdr
         fetch := env.fetch } : Slot)
    let s := fun (w : Nat) => BitVec.ofNat 128 (1 + w * 2 ^ 6)
    let m := fun (w : Nat) => BitVec.ofNat 128 (2 + w * 2 ^ 44)
    let x := fun (w : Nat) => BitVec.ofNat 128 (4 + w * 2 ^ 90)
    (∀ w : BitVec 128, (bundleCommands env w).length = (w.getLsbD 0).toNat + (w.getLsbD 1).toNat + (w.getLsbD 2).toNat) ∧
    bundleCommands env 0x38FE0080000000580B = [.wswap (sl 0 0 env.adv true false 0), .mma (sl 1 0 0 true false 0) 0 31 3 7] ∧
    -- add s3, s1, s2 under p5 in a bundle whose reserved header bit 4 is set
    bundleCommands env (s (5 + 0x01 * 2 ^ 3 + 3 * 2 ^ 9 + 1 * 2 ^ 14 + 2 * 2 ^ 19) ||| 0x10) = [.add (sl 0 5 env.adv false false 1) 3 1 2] ∧
    -- addi s1, s1, -1
    bundleCommands env (s (0x10 * 2 ^ 3 + 1 * 2 ^ 9 + 1 * 2 ^ 14 + 0xFFFF * 2 ^ 19)) = [.addi (sl 0 0 env.adv false false 0) 1 1 0xFFFF] ∧
    -- ld s2, s4 + 8, four bytes
    bundleCommands env (x (0x01 * 2 ^ 3 + 2 * 2 ^ 9 + 4 * 2 ^ 14 + 8 * 2 ^ 19 + 2 * 2 ^ 35)) = [.ld (sl 2 0 env.adv false false 0) 2 4 8 2 false] ∧
    -- prov.begin 2
    bundleCommands env (x (0x23 * 2 ^ 3 + 2 * 2 ^ 9)) = [.provBegin (sl 2 0 env.adv false false 0) 2] ∧
    -- mma with a nonzero bit above its fields
    bundleCommands env (m (0x01 * 2 ^ 3 + 31 * 2 ^ 13 + 2 ^ 27)) = [.mma (sl 1 0 env.adv false true 0) 0 31 0 0] ∧
    -- an opcode that no S slot lists; a nonzero bit above form SR; jr with a nonzero rd field
    (∀ c ∈ bundleCommands env (s (0x3F * 2 ^ 3)) ++ bundleCommands env (s (0x01 * 2 ^ 3 + 2 ^ 24)) ++ bundleCommands env (s (0x23 * 2 ^ 3 + 2 ^ 9)),
      ∃ (ra rb rd : BitVec 5), c = .jr (sl 0 0 env.adv false true 0) ra ∨ c = .add (sl 0 0 env.adv false true 0) rd ra rb)
end

