-- ==== Sys2Proof/Laws/Tbl.lean ====
section
/-! SUPPORT. Sparse tables: what a read gives after a write, and that every operation keeps the canonical form. -/

namespace Sys2Proof.Machine

variable {α : Type} [DecidableEq α]

/-- A canonical table whose keys start at `lo` has keys that start at any smaller number. -/
theorem Tbl.okFrom_mono {d : α} {t : Tbl α} {lo lo' : Nat} (h : lo' ≤ lo) (ht : Tbl.okFrom d lo t = true) :
    Tbl.okFrom d lo' t = true := by
  cases t with
  | nil => rfl
  | cons p t =>
    obtain ⟨j, v⟩ := p
    simp only [Tbl.okFrom, Bool.and_eq_true, decide_eq_true_eq] at ht ⊢
    exact ⟨⟨by omega, ht.1.2⟩, ht.2⟩

theorem Tbl.erase_ok {d : α} {t : Tbl α} {lo k : Nat} (ht : Tbl.okFrom d lo t = true) :
    Tbl.okFrom d lo (Tbl.erase t k) = true := by
  induction t generalizing lo with
  | nil => rfl
  | cons p t ih =>
    obtain ⟨j, v⟩ := p
    simp only [Tbl.okFrom, Bool.and_eq_true, decide_eq_true_eq] at ht
    simp only [Tbl.erase]
    split
    · exact Tbl.okFrom_mono (by omega) (ih ht.2)
    · simp [Tbl.okFrom, ht, ih ht.2]

theorem Tbl.insert_ok {d : α} {t : Tbl α} {lo k : Nat} {v : α} (hk : lo ≤ k) (hv : v ≠ d) (ht : Tbl.okFrom d lo t = true) :
    Tbl.okFrom d lo (Tbl.insert t k v) = true := by
  induction t generalizing lo with
  | nil => simp [Tbl.insert, Tbl.okFrom, hk, hv]
  | cons p t ih =>
    obtain ⟨j, w⟩ := p
    simp only [Tbl.okFrom, Bool.and_eq_true, decide_eq_true_eq] at ht
    simp only [Tbl.insert]
    split
    · exact ih (by omega) (Tbl.okFrom_mono (by omega) ht.2)
    · split
      · have h3 := Tbl.erase_ok (k := k) ht.2
        simp only [Tbl.okFrom, Bool.and_eq_true, decide_eq_true_eq]
        exact ⟨⟨hk, hv⟩, ⟨⟨by omega, ht.1.2⟩, h3⟩⟩
      · simp [Tbl.okFrom, ht, ih (by omega) ht.2]

/-- A write keeps the canonical form. -/
theorem Tbl.set_wf {d : α} {t : Tbl α} (k : Nat) (v : α) (ht : Tbl.wf d t = true) : Tbl.wf d (Tbl.set d t k v) = true := by
  unfold Tbl.set
  split
  · exact Tbl.erase_ok ht
  · exact Tbl.insert_ok (Nat.zero_le _) ‹_› ht

omit [DecidableEq α] in
theorem Tbl.get_erase (d : α) (t : Tbl α) (k i : Nat) :
    Tbl.get d (Tbl.erase t k) i = if i = k then d else Tbl.get d t i := by
  induction t with
  | nil => simp [Tbl.erase, Tbl.get]
  | cons p t ih =>
    obtain ⟨j, v⟩ := p
    simp only [Tbl.erase, Tbl.get]
    by_cases hj : j = k
    · subst hj
      simp only [if_true, ih]
      by_cases hi : i = j
      · simp [hi]
      · simp [hi, Ne.symm hi]
    · simp only [if_neg hj, Tbl.get, ih]
      by_cases hi : i = k
      · subst hi; simp [hj]
      · simp [hi]

omit [DecidableEq α] in
theorem Tbl.get_insert (d : α) (t : Tbl α) (k : Nat) (v : α) (i : Nat) :
    Tbl.get d (Tbl.insert t k v) i = if i = k then v else Tbl.get d t i := by
  induction t with
  | nil =>
    simp only [Tbl.insert, Tbl.get]
    by_cases h : i = k
    · simp [h]
    · simp [h, Ne.symm h]
  | cons p t ih =>
    obtain ⟨j, w⟩ := p
    simp only [Tbl.insert]
    by_cases hj : j = k
    · subst hj
      simp only [if_true, ih, Tbl.get]
      by_cases hi : i = j
      · simp [hi]
      · simp [hi, Ne.symm hi]
    · simp only [if_neg hj]
      split
      · simp only [Tbl.get, Tbl.get_erase]
        by_cases hi : i = k
        · simp [hi]
        · simp [hi, Ne.symm hi]
      · simp only [Tbl.get, ih]
        by_cases hi : i = k
        · subst hi; simp [hj]
        · simp [hi]

/-- A read after a write: the value written at its key, what was there at every other. -/
theorem Tbl.get_set (d : α) (t : Tbl α) (k : Nat) (v : α) (i : Nat) :
    Tbl.get d (Tbl.set d t k v) i = if i = k then v else Tbl.get d t i := by
  unfold Tbl.set
  split
  · rename_i h; subst h; exact Tbl.get_erase ..
  · exact Tbl.get_insert ..

@[simp] theorem Tbl.get_set_same (d : α) (t : Tbl α) (k : Nat) (v : α) : Tbl.get d (Tbl.set d t k v) k = v := by
  simp [Tbl.get_set]

theorem Tbl.get_set_other (d : α) (t : Tbl α) {k i : Nat} (v : α) (h : i ≠ k) :
    Tbl.get d (Tbl.set d t k v) i = Tbl.get d t i := by
  simp [Tbl.get_set, h]

/-- Filtering a table by keys keeps the canonical form. -/
theorem Tbl.filter_ok {d : α} {t : Tbl α} {lo : Nat} (p : Nat × α → Bool) (ht : Tbl.okFrom d lo t = true) :
    Tbl.okFrom d lo (t.filter p) = true := by
  induction t generalizing lo with
  | nil => rfl
  | cons q t ih =>
    obtain ⟨j, v⟩ := q
    simp only [Tbl.okFrom, Bool.and_eq_true, decide_eq_true_eq] at ht
    rw [List.filter_cons]
    split
    · simp [Tbl.okFrom, ht, ih ht.2]
    · exact Tbl.okFrom_mono (by omega) (ih ht.2)

theorem Tbl.filter_wf {d : α} {t : Tbl α} (p : Nat × α → Bool) (ht : Tbl.wf d t = true) : Tbl.wf d (t.filter p) = true :=
  Tbl.filter_ok p ht

/-- Mapping a table's values keeps the canonical form. -/
theorem Tbl.update_ok {d : α} {t : Tbl α} {lo : Nat} (f : Nat → α → α) (ht : Tbl.okFrom d lo t = true) :
    Tbl.okFrom d lo (Tbl.update d f t) = true := by
  induction t generalizing lo with
  | nil => rfl
  | cons q t ih =>
    obtain ⟨j, v⟩ := q
    simp only [Tbl.okFrom, Bool.and_eq_true, decide_eq_true_eq] at ht
    simp only [Tbl.update]
    split
    · exact Tbl.okFrom_mono (by omega) (ih ht.2)
    · simp [Tbl.okFrom, *, ih ht.2]

theorem Tbl.update_wf {d : α} {t : Tbl α} (f : Nat → α → α) (ht : Tbl.wf d t = true) : Tbl.wf d (Tbl.update d f t) = true :=
  Tbl.update_ok f ht

omit [DecidableEq α] in
@[simp] theorem Tbl.get_nil (d : α) (k : Nat) : Tbl.get d [] k = d := rfl

end Sys2Proof.Machine
end

