-- ==== Sys2Proof/Laws/State.lean ====
section
/-! SUPPORT. Each field of the state after each single update, the reads after the writes of the same and of another table,
and register fields after register writes. -/

namespace Sys2Proof.Machine

/-! ### Every field after every single update -/

@[simp] theorem State.setF_mem (s : State) (a : Nat) (f : Fld) (v : Nat) : (s.setF a f v).mem = s.mem := rfl
@[simp] theorem State.setF_tags (s : State) (a : Nat) (f : Fld) (v : Nat) : (s.setF a f v).tags = s.tags := rfl
@[simp] theorem State.setF_bad (s : State) (a : Nat) (f : Fld) (v : Nat) : (s.setF a f v).bad = s.bad := rfl
@[simp] theorem State.setF_cores (s : State) (a : Nat) (f : Fld) (v : Nat) : (s.setF a f v).cores = s.cores := rfl
@[simp] theorem State.setF_clusters (s : State) (a : Nat) (f : Fld) (v : Nat) : (s.setF a f v).clusters = s.clusters := rfl
@[simp] theorem State.setF_islands (s : State) (a : Nat) (f : Fld) (v : Nat) : (s.setF a f v).islands = s.islands := rfl
@[simp] theorem State.setF_ctls (s : State) (a : Nat) (f : Fld) (v : Nat) : (s.setF a f v).ctls = s.ctls := rfl
@[simp] theorem State.setF_sram (s : State) (a : Nat) (f : Fld) (v : Nat) : (s.setF a f v).sram = s.sram := rfl
@[simp] theorem State.setF_beatAcc (s : State) (a : Nat) (f : Fld) (v : Nat) : (s.setF a f v).beatAcc = s.beatAcc := rfl
@[simp] theorem State.setF_ctl (s : State) (a : Nat) (f : Fld) (v : Nat) : (s.setF a f v).ctl = s.ctl := rfl
@[simp] theorem State.setF_flt (s : State) (a : Nat) (f : Fld) (v : Nat) : (s.setF a f v).flt = s.flt := rfl
@[simp] theorem State.setF_manifest (s : State) (a : Nat) (f : Fld) (v : Nat) : (s.setF a f v).manifest = s.manifest := rfl
@[simp] theorem State.setF_brt (s : State) (a : Nat) (f : Fld) (v : Nat) : (s.setF a f v).brt = s.brt := rfl
@[simp] theorem State.setF_boc (s : State) (a : Nat) (f : Fld) (v : Nat) : (s.setF a f v).boc = s.boc := rfl
@[simp] theorem State.setF_tier (s : State) (a : Nat) (f : Fld) (v : Nat) : (s.setF a f v).tier = s.tier := rfl
@[simp] theorem State.setF_ports (s : State) (a : Nat) (f : Fld) (v : Nat) : (s.setF a f v).ports = s.ports := rfl
@[simp] theorem State.setF_fab (s : State) (a : Nat) (f : Fld) (v : Nat) : (s.setF a f v).fab = s.fab := rfl
@[simp] theorem State.setF_gmu (s : State) (a : Nat) (f : Fld) (v : Nat) : (s.setF a f v).gmu = s.gmu := rfl
@[simp] theorem State.setF_rcv (s : State) (a : Nat) (f : Fld) (v : Nat) : (s.setF a f v).rcv = s.rcv := rfl
@[simp] theorem State.setF_nv (s : State) (a : Nat) (f : Fld) (v : Nat) : (s.setF a f v).nv = s.nv := rfl
@[simp] theorem State.setF_i3c (s : State) (a : Nat) (f : Fld) (v : Nat) : (s.setF a f v).i3c = s.i3c := rfl
@[simp] theorem State.setF_pins (s : State) (a : Nat) (f : Fld) (v : Nat) : (s.setF a f v).pins = s.pins := rfl
@[simp] theorem State.setF_bus (s : State) (a : Nat) (f : Fld) (v : Nat) : (s.setF a f v).bus = s.bus := rfl
@[simp] theorem State.setF_fresh (s : State) (a : Nat) (f : Fld) (v : Nat) : (s.setF a f v).fresh = s.fresh := rfl
@[simp] theorem State.setF_pending (s : State) (a : Nat) (f : Fld) (v : Nat) : (s.setF a f v).pending = s.pending := rfl
@[simp] theorem State.setCore_regs (s : State) (n u : Nat) (c : Core) : (s.setCore n u c).regs = s.regs := rfl
@[simp] theorem State.setCore_mem (s : State) (n u : Nat) (c : Core) : (s.setCore n u c).mem = s.mem := rfl
@[simp] theorem State.setCore_tags (s : State) (n u : Nat) (c : Core) : (s.setCore n u c).tags = s.tags := rfl
@[simp] theorem State.setCore_bad (s : State) (n u : Nat) (c : Core) : (s.setCore n u c).bad = s.bad := rfl
@[simp] theorem State.setCore_clusters (s : State) (n u : Nat) (c : Core) : (s.setCore n u c).clusters = s.clusters := rfl
@[simp] theorem State.setCore_islands (s : State) (n u : Nat) (c : Core) : (s.setCore n u c).islands = s.islands := rfl
@[simp] theorem State.setCore_ctls (s : State) (n u : Nat) (c : Core) : (s.setCore n u c).ctls = s.ctls := rfl
@[simp] theorem State.setCore_sram (s : State) (n u : Nat) (c : Core) : (s.setCore n u c).sram = s.sram := rfl
@[simp] theorem State.setCore_beatAcc (s : State) (n u : Nat) (c : Core) : (s.setCore n u c).beatAcc = s.beatAcc := rfl
@[simp] theorem State.setCore_ctl (s : State) (n u : Nat) (c : Core) : (s.setCore n u c).ctl = s.ctl := rfl
@[simp] theorem State.setCore_flt (s : State) (n u : Nat) (c : Core) : (s.setCore n u c).flt = s.flt := rfl
@[simp] theorem State.setCore_manifest (s : State) (n u : Nat) (c : Core) : (s.setCore n u c).manifest = s.manifest := rfl
@[simp] theorem State.setCore_brt (s : State) (n u : Nat) (c : Core) : (s.setCore n u c).brt = s.brt := rfl
@[simp] theorem State.setCore_boc (s : State) (n u : Nat) (c : Core) : (s.setCore n u c).boc = s.boc := rfl
@[simp] theorem State.setCore_tier (s : State) (n u : Nat) (c : Core) : (s.setCore n u c).tier = s.tier := rfl
@[simp] theorem State.setCore_ports (s : State) (n u : Nat) (c : Core) : (s.setCore n u c).ports = s.ports := rfl
@[simp] theorem State.setCore_fab (s : State) (n u : Nat) (c : Core) : (s.setCore n u c).fab = s.fab := rfl
@[simp] theorem State.setCore_gmu (s : State) (n u : Nat) (c : Core) : (s.setCore n u c).gmu = s.gmu := rfl
@[simp] theorem State.setCore_rcv (s : State) (n u : Nat) (c : Core) : (s.setCore n u c).rcv = s.rcv := rfl
@[simp] theorem State.setCore_nv (s : State) (n u : Nat) (c : Core) : (s.setCore n u c).nv = s.nv := rfl
@[simp] theorem State.setCore_i3c (s : State) (n u : Nat) (c : Core) : (s.setCore n u c).i3c = s.i3c := rfl
@[simp] theorem State.setCore_pins (s : State) (n u : Nat) (c : Core) : (s.setCore n u c).pins = s.pins := rfl
@[simp] theorem State.setCore_bus (s : State) (n u : Nat) (c : Core) : (s.setCore n u c).bus = s.bus := rfl
@[simp] theorem State.setCore_fresh (s : State) (n u : Nat) (c : Core) : (s.setCore n u c).fresh = s.fresh := rfl
@[simp] theorem State.setCore_pending (s : State) (n u : Nat) (c : Core) : (s.setCore n u c).pending = s.pending := rfl
@[simp] theorem State.setCluster_regs (s : State) (n cl : Nat) (c : Cluster) : (s.setCluster n cl c).regs = s.regs := rfl
@[simp] theorem State.setCluster_mem (s : State) (n cl : Nat) (c : Cluster) : (s.setCluster n cl c).mem = s.mem := rfl
@[simp] theorem State.setCluster_tags (s : State) (n cl : Nat) (c : Cluster) : (s.setCluster n cl c).tags = s.tags := rfl
@[simp] theorem State.setCluster_bad (s : State) (n cl : Nat) (c : Cluster) : (s.setCluster n cl c).bad = s.bad := rfl
@[simp] theorem State.setCluster_cores (s : State) (n cl : Nat) (c : Cluster) : (s.setCluster n cl c).cores = s.cores := rfl
@[simp] theorem State.setCluster_islands (s : State) (n cl : Nat) (c : Cluster) : (s.setCluster n cl c).islands = s.islands := rfl
@[simp] theorem State.setCluster_ctls (s : State) (n cl : Nat) (c : Cluster) : (s.setCluster n cl c).ctls = s.ctls := rfl
@[simp] theorem State.setCluster_sram (s : State) (n cl : Nat) (c : Cluster) : (s.setCluster n cl c).sram = s.sram := rfl
@[simp] theorem State.setCluster_beatAcc (s : State) (n cl : Nat) (c : Cluster) : (s.setCluster n cl c).beatAcc = s.beatAcc := rfl
@[simp] theorem State.setCluster_ctl (s : State) (n cl : Nat) (c : Cluster) : (s.setCluster n cl c).ctl = s.ctl := rfl
@[simp] theorem State.setCluster_flt (s : State) (n cl : Nat) (c : Cluster) : (s.setCluster n cl c).flt = s.flt := rfl
@[simp] theorem State.setCluster_manifest (s : State) (n cl : Nat) (c : Cluster) : (s.setCluster n cl c).manifest = s.manifest := rfl
@[simp] theorem State.setCluster_brt (s : State) (n cl : Nat) (c : Cluster) : (s.setCluster n cl c).brt = s.brt := rfl
@[simp] theorem State.setCluster_boc (s : State) (n cl : Nat) (c : Cluster) : (s.setCluster n cl c).boc = s.boc := rfl
@[simp] theorem State.setCluster_tier (s : State) (n cl : Nat) (c : Cluster) : (s.setCluster n cl c).tier = s.tier := rfl
@[simp] theorem State.setCluster_ports (s : State) (n cl : Nat) (c : Cluster) : (s.setCluster n cl c).ports = s.ports := rfl
@[simp] theorem State.setCluster_fab (s : State) (n cl : Nat) (c : Cluster) : (s.setCluster n cl c).fab = s.fab := rfl
@[simp] theorem State.setCluster_gmu (s : State) (n cl : Nat) (c : Cluster) : (s.setCluster n cl c).gmu = s.gmu := rfl
@[simp] theorem State.setCluster_rcv (s : State) (n cl : Nat) (c : Cluster) : (s.setCluster n cl c).rcv = s.rcv := rfl
@[simp] theorem State.setCluster_nv (s : State) (n cl : Nat) (c : Cluster) : (s.setCluster n cl c).nv = s.nv := rfl
@[simp] theorem State.setCluster_i3c (s : State) (n cl : Nat) (c : Cluster) : (s.setCluster n cl c).i3c = s.i3c := rfl
@[simp] theorem State.setCluster_pins (s : State) (n cl : Nat) (c : Cluster) : (s.setCluster n cl c).pins = s.pins := rfl
@[simp] theorem State.setCluster_bus (s : State) (n cl : Nat) (c : Cluster) : (s.setCluster n cl c).bus = s.bus := rfl
@[simp] theorem State.setCluster_fresh (s : State) (n cl : Nat) (c : Cluster) : (s.setCluster n cl c).fresh = s.fresh := rfl
@[simp] theorem State.setCluster_pending (s : State) (n cl : Nat) (c : Cluster) : (s.setCluster n cl c).pending = s.pending := rfl
@[simp] theorem State.setIsland_regs (s : State) (n : Nat) (x : Island) : (s.setIsland n x).regs = s.regs := rfl
@[simp] theorem State.setIsland_mem (s : State) (n : Nat) (x : Island) : (s.setIsland n x).mem = s.mem := rfl
@[simp] theorem State.setIsland_tags (s : State) (n : Nat) (x : Island) : (s.setIsland n x).tags = s.tags := rfl
@[simp] theorem State.setIsland_bad (s : State) (n : Nat) (x : Island) : (s.setIsland n x).bad = s.bad := rfl
@[simp] theorem State.setIsland_cores (s : State) (n : Nat) (x : Island) : (s.setIsland n x).cores = s.cores := rfl
@[simp] theorem State.setIsland_clusters (s : State) (n : Nat) (x : Island) : (s.setIsland n x).clusters = s.clusters := rfl
@[simp] theorem State.setIsland_ctls (s : State) (n : Nat) (x : Island) : (s.setIsland n x).ctls = s.ctls := rfl
@[simp] theorem State.setIsland_sram (s : State) (n : Nat) (x : Island) : (s.setIsland n x).sram = s.sram := rfl
@[simp] theorem State.setIsland_beatAcc (s : State) (n : Nat) (x : Island) : (s.setIsland n x).beatAcc = s.beatAcc := rfl
@[simp] theorem State.setIsland_ctl (s : State) (n : Nat) (x : Island) : (s.setIsland n x).ctl = s.ctl := rfl
@[simp] theorem State.setIsland_flt (s : State) (n : Nat) (x : Island) : (s.setIsland n x).flt = s.flt := rfl
@[simp] theorem State.setIsland_manifest (s : State) (n : Nat) (x : Island) : (s.setIsland n x).manifest = s.manifest := rfl
@[simp] theorem State.setIsland_brt (s : State) (n : Nat) (x : Island) : (s.setIsland n x).brt = s.brt := rfl
@[simp] theorem State.setIsland_boc (s : State) (n : Nat) (x : Island) : (s.setIsland n x).boc = s.boc := rfl
@[simp] theorem State.setIsland_tier (s : State) (n : Nat) (x : Island) : (s.setIsland n x).tier = s.tier := rfl
@[simp] theorem State.setIsland_ports (s : State) (n : Nat) (x : Island) : (s.setIsland n x).ports = s.ports := rfl
@[simp] theorem State.setIsland_fab (s : State) (n : Nat) (x : Island) : (s.setIsland n x).fab = s.fab := rfl
@[simp] theorem State.setIsland_gmu (s : State) (n : Nat) (x : Island) : (s.setIsland n x).gmu = s.gmu := rfl
@[simp] theorem State.setIsland_rcv (s : State) (n : Nat) (x : Island) : (s.setIsland n x).rcv = s.rcv := rfl
@[simp] theorem State.setIsland_nv (s : State) (n : Nat) (x : Island) : (s.setIsland n x).nv = s.nv := rfl
@[simp] theorem State.setIsland_i3c (s : State) (n : Nat) (x : Island) : (s.setIsland n x).i3c = s.i3c := rfl
@[simp] theorem State.setIsland_pins (s : State) (n : Nat) (x : Island) : (s.setIsland n x).pins = s.pins := rfl
@[simp] theorem State.setIsland_bus (s : State) (n : Nat) (x : Island) : (s.setIsland n x).bus = s.bus := rfl
@[simp] theorem State.setIsland_fresh (s : State) (n : Nat) (x : Island) : (s.setIsland n x).fresh = s.fresh := rfl
@[simp] theorem State.setIsland_pending (s : State) (n : Nat) (x : Island) : (s.setIsland n x).pending = s.pending := rfl
@[simp] theorem State.setCtlCore_regs (s : State) (k : Nat) (c : CtlCore) : (s.setCtlCore k c).regs = s.regs := rfl
@[simp] theorem State.setCtlCore_mem (s : State) (k : Nat) (c : CtlCore) : (s.setCtlCore k c).mem = s.mem := rfl
@[simp] theorem State.setCtlCore_tags (s : State) (k : Nat) (c : CtlCore) : (s.setCtlCore k c).tags = s.tags := rfl
@[simp] theorem State.setCtlCore_bad (s : State) (k : Nat) (c : CtlCore) : (s.setCtlCore k c).bad = s.bad := rfl
@[simp] theorem State.setCtlCore_cores (s : State) (k : Nat) (c : CtlCore) : (s.setCtlCore k c).cores = s.cores := rfl
@[simp] theorem State.setCtlCore_clusters (s : State) (k : Nat) (c : CtlCore) : (s.setCtlCore k c).clusters = s.clusters := rfl
@[simp] theorem State.setCtlCore_islands (s : State) (k : Nat) (c : CtlCore) : (s.setCtlCore k c).islands = s.islands := rfl
@[simp] theorem State.setCtlCore_sram (s : State) (k : Nat) (c : CtlCore) : (s.setCtlCore k c).sram = s.sram := rfl
@[simp] theorem State.setCtlCore_beatAcc (s : State) (k : Nat) (c : CtlCore) : (s.setCtlCore k c).beatAcc = s.beatAcc := rfl
@[simp] theorem State.setCtlCore_ctl (s : State) (k : Nat) (c : CtlCore) : (s.setCtlCore k c).ctl = s.ctl := rfl
@[simp] theorem State.setCtlCore_flt (s : State) (k : Nat) (c : CtlCore) : (s.setCtlCore k c).flt = s.flt := rfl
@[simp] theorem State.setCtlCore_manifest (s : State) (k : Nat) (c : CtlCore) : (s.setCtlCore k c).manifest = s.manifest := rfl
@[simp] theorem State.setCtlCore_brt (s : State) (k : Nat) (c : CtlCore) : (s.setCtlCore k c).brt = s.brt := rfl
@[simp] theorem State.setCtlCore_boc (s : State) (k : Nat) (c : CtlCore) : (s.setCtlCore k c).boc = s.boc := rfl
@[simp] theorem State.setCtlCore_tier (s : State) (k : Nat) (c : CtlCore) : (s.setCtlCore k c).tier = s.tier := rfl
@[simp] theorem State.setCtlCore_ports (s : State) (k : Nat) (c : CtlCore) : (s.setCtlCore k c).ports = s.ports := rfl
@[simp] theorem State.setCtlCore_fab (s : State) (k : Nat) (c : CtlCore) : (s.setCtlCore k c).fab = s.fab := rfl
@[simp] theorem State.setCtlCore_gmu (s : State) (k : Nat) (c : CtlCore) : (s.setCtlCore k c).gmu = s.gmu := rfl
@[simp] theorem State.setCtlCore_rcv (s : State) (k : Nat) (c : CtlCore) : (s.setCtlCore k c).rcv = s.rcv := rfl
@[simp] theorem State.setCtlCore_nv (s : State) (k : Nat) (c : CtlCore) : (s.setCtlCore k c).nv = s.nv := rfl
@[simp] theorem State.setCtlCore_i3c (s : State) (k : Nat) (c : CtlCore) : (s.setCtlCore k c).i3c = s.i3c := rfl
@[simp] theorem State.setCtlCore_pins (s : State) (k : Nat) (c : CtlCore) : (s.setCtlCore k c).pins = s.pins := rfl
@[simp] theorem State.setCtlCore_bus (s : State) (k : Nat) (c : CtlCore) : (s.setCtlCore k c).bus = s.bus := rfl
@[simp] theorem State.setCtlCore_fresh (s : State) (k : Nat) (c : CtlCore) : (s.setCtlCore k c).fresh = s.fresh := rfl
@[simp] theorem State.setCtlCore_pending (s : State) (k : Nat) (c : CtlCore) : (s.setCtlCore k c).pending = s.pending := rfl
@[simp] theorem State.setPort_regs (s : State) (p : Nat) (x : Port) : (s.setPort p x).regs = s.regs := rfl
@[simp] theorem State.setPort_mem (s : State) (p : Nat) (x : Port) : (s.setPort p x).mem = s.mem := rfl
@[simp] theorem State.setPort_tags (s : State) (p : Nat) (x : Port) : (s.setPort p x).tags = s.tags := rfl
@[simp] theorem State.setPort_bad (s : State) (p : Nat) (x : Port) : (s.setPort p x).bad = s.bad := rfl
@[simp] theorem State.setPort_cores (s : State) (p : Nat) (x : Port) : (s.setPort p x).cores = s.cores := rfl
@[simp] theorem State.setPort_clusters (s : State) (p : Nat) (x : Port) : (s.setPort p x).clusters = s.clusters := rfl
@[simp] theorem State.setPort_islands (s : State) (p : Nat) (x : Port) : (s.setPort p x).islands = s.islands := rfl
@[simp] theorem State.setPort_ctls (s : State) (p : Nat) (x : Port) : (s.setPort p x).ctls = s.ctls := rfl
@[simp] theorem State.setPort_sram (s : State) (p : Nat) (x : Port) : (s.setPort p x).sram = s.sram := rfl
@[simp] theorem State.setPort_beatAcc (s : State) (p : Nat) (x : Port) : (s.setPort p x).beatAcc = s.beatAcc := rfl
@[simp] theorem State.setPort_ctl (s : State) (p : Nat) (x : Port) : (s.setPort p x).ctl = s.ctl := rfl
@[simp] theorem State.setPort_flt (s : State) (p : Nat) (x : Port) : (s.setPort p x).flt = s.flt := rfl
@[simp] theorem State.setPort_manifest (s : State) (p : Nat) (x : Port) : (s.setPort p x).manifest = s.manifest := rfl
@[simp] theorem State.setPort_brt (s : State) (p : Nat) (x : Port) : (s.setPort p x).brt = s.brt := rfl
@[simp] theorem State.setPort_boc (s : State) (p : Nat) (x : Port) : (s.setPort p x).boc = s.boc := rfl
@[simp] theorem State.setPort_tier (s : State) (p : Nat) (x : Port) : (s.setPort p x).tier = s.tier := rfl
@[simp] theorem State.setPort_fab (s : State) (p : Nat) (x : Port) : (s.setPort p x).fab = s.fab := rfl
@[simp] theorem State.setPort_gmu (s : State) (p : Nat) (x : Port) : (s.setPort p x).gmu = s.gmu := rfl
@[simp] theorem State.setPort_rcv (s : State) (p : Nat) (x : Port) : (s.setPort p x).rcv = s.rcv := rfl
@[simp] theorem State.setPort_nv (s : State) (p : Nat) (x : Port) : (s.setPort p x).nv = s.nv := rfl
@[simp] theorem State.setPort_i3c (s : State) (p : Nat) (x : Port) : (s.setPort p x).i3c = s.i3c := rfl
@[simp] theorem State.setPort_pins (s : State) (p : Nat) (x : Port) : (s.setPort p x).pins = s.pins := rfl
@[simp] theorem State.setPort_bus (s : State) (p : Nat) (x : Port) : (s.setPort p x).bus = s.bus := rfl
@[simp] theorem State.setPort_fresh (s : State) (p : Nat) (x : Port) : (s.setPort p x).fresh = s.fresh := rfl
@[simp] theorem State.setPort_pending (s : State) (p : Nat) (x : Port) : (s.setPort p x).pending = s.pending := rfl
@[simp] theorem State.writeByte_regs (s : State) (a : Nat) (b : Byte) : (s.writeByte a b).regs = s.regs := rfl
@[simp] theorem State.writeByte_tags (s : State) (a : Nat) (b : Byte) : (s.writeByte a b).tags = s.tags := rfl
@[simp] theorem State.writeByte_bad (s : State) (a : Nat) (b : Byte) : (s.writeByte a b).bad = s.bad := rfl
@[simp] theorem State.writeByte_cores (s : State) (a : Nat) (b : Byte) : (s.writeByte a b).cores = s.cores := rfl
@[simp] theorem State.writeByte_clusters (s : State) (a : Nat) (b : Byte) : (s.writeByte a b).clusters = s.clusters := rfl
@[simp] theorem State.writeByte_islands (s : State) (a : Nat) (b : Byte) : (s.writeByte a b).islands = s.islands := rfl
@[simp] theorem State.writeByte_ctls (s : State) (a : Nat) (b : Byte) : (s.writeByte a b).ctls = s.ctls := rfl
@[simp] theorem State.writeByte_sram (s : State) (a : Nat) (b : Byte) : (s.writeByte a b).sram = s.sram := rfl
@[simp] theorem State.writeByte_beatAcc (s : State) (a : Nat) (b : Byte) : (s.writeByte a b).beatAcc = s.beatAcc := rfl
@[simp] theorem State.writeByte_ctl (s : State) (a : Nat) (b : Byte) : (s.writeByte a b).ctl = s.ctl := rfl
@[simp] theorem State.writeByte_flt (s : State) (a : Nat) (b : Byte) : (s.writeByte a b).flt = s.flt := rfl
@[simp] theorem State.writeByte_manifest (s : State) (a : Nat) (b : Byte) : (s.writeByte a b).manifest = s.manifest := rfl
@[simp] theorem State.writeByte_brt (s : State) (a : Nat) (b : Byte) : (s.writeByte a b).brt = s.brt := rfl
@[simp] theorem State.writeByte_boc (s : State) (a : Nat) (b : Byte) : (s.writeByte a b).boc = s.boc := rfl
@[simp] theorem State.writeByte_tier (s : State) (a : Nat) (b : Byte) : (s.writeByte a b).tier = s.tier := rfl
@[simp] theorem State.writeByte_ports (s : State) (a : Nat) (b : Byte) : (s.writeByte a b).ports = s.ports := rfl
@[simp] theorem State.writeByte_fab (s : State) (a : Nat) (b : Byte) : (s.writeByte a b).fab = s.fab := rfl
@[simp] theorem State.writeByte_gmu (s : State) (a : Nat) (b : Byte) : (s.writeByte a b).gmu = s.gmu := rfl
@[simp] theorem State.writeByte_rcv (s : State) (a : Nat) (b : Byte) : (s.writeByte a b).rcv = s.rcv := rfl
@[simp] theorem State.writeByte_nv (s : State) (a : Nat) (b : Byte) : (s.writeByte a b).nv = s.nv := rfl
@[simp] theorem State.writeByte_i3c (s : State) (a : Nat) (b : Byte) : (s.writeByte a b).i3c = s.i3c := rfl
@[simp] theorem State.writeByte_pins (s : State) (a : Nat) (b : Byte) : (s.writeByte a b).pins = s.pins := rfl
@[simp] theorem State.writeByte_bus (s : State) (a : Nat) (b : Byte) : (s.writeByte a b).bus = s.bus := rfl
@[simp] theorem State.writeByte_fresh (s : State) (a : Nat) (b : Byte) : (s.writeByte a b).fresh = s.fresh := rfl
@[simp] theorem State.writeByte_pending (s : State) (a : Nat) (b : Byte) : (s.writeByte a b).pending = s.pending := rfl

/-! ### Reads of one table after a write of another -/

@[simp] theorem State.core_setF (s : State) (a : Nat) (f : Fld) (v : Nat) (m u : Nat) : (s.setF a f v).core m u = s.core m u := rfl
@[simp] theorem State.cluster_setF (s : State) (a : Nat) (f : Fld) (v : Nat) (m u : Nat) : (s.setF a f v).cluster m u = s.cluster m u := rfl
@[simp] theorem State.island_setF (s : State) (a : Nat) (f : Fld) (v : Nat) (m : Nat) : (s.setF a f v).island m = s.island m := rfl
@[simp] theorem State.ctlCore_setF (s : State) (a : Nat) (f : Fld) (v : Nat) (m : Nat) : (s.setF a f v).ctlCore m = s.ctlCore m := rfl
@[simp] theorem State.port_setF (s : State) (a : Nat) (f : Fld) (v : Nat) (m : Nat) : (s.setF a f v).port m = s.port m := rfl
@[simp] theorem State.readByte_setF (s : State) (a : Nat) (f : Fld) (v : Nat) (m : Nat) : (s.setF a f v).readByte m = s.readByte m := rfl
@[simp] theorem State.getF_setCore (s : State) (n u : Nat) (c : Core) (b : Nat) (g : Fld) : (s.setCore n u c).getF b g = s.getF b g := rfl
@[simp] theorem State.cluster_setCore (s : State) (n u : Nat) (c : Core) (m v : Nat) : (s.setCore n u c).cluster m v = s.cluster m v := rfl
@[simp] theorem State.island_setCore (s : State) (n u : Nat) (c : Core) (m : Nat) : (s.setCore n u c).island m = s.island m := rfl
@[simp] theorem State.ctlCore_setCore (s : State) (n u : Nat) (c : Core) (m : Nat) : (s.setCore n u c).ctlCore m = s.ctlCore m := rfl
@[simp] theorem State.port_setCore (s : State) (n u : Nat) (c : Core) (m : Nat) : (s.setCore n u c).port m = s.port m := rfl
@[simp] theorem State.readByte_setCore (s : State) (n u : Nat) (c : Core) (m : Nat) : (s.setCore n u c).readByte m = s.readByte m := rfl
@[simp] theorem State.getF_setCluster (s : State) (n cl : Nat) (c : Cluster) (b : Nat) (g : Fld) : (s.setCluster n cl c).getF b g = s.getF b g := rfl
@[simp] theorem State.core_setCluster (s : State) (n cl : Nat) (c : Cluster) (m v : Nat) : (s.setCluster n cl c).core m v = s.core m v := rfl
@[simp] theorem State.island_setCluster (s : State) (n cl : Nat) (c : Cluster) (m : Nat) : (s.setCluster n cl c).island m = s.island m := rfl
@[simp] theorem State.ctlCore_setCluster (s : State) (n cl : Nat) (c : Cluster) (m : Nat) : (s.setCluster n cl c).ctlCore m = s.ctlCore m := rfl
@[simp] theorem State.port_setCluster (s : State) (n cl : Nat) (c : Cluster) (m : Nat) : (s.setCluster n cl c).port m = s.port m := rfl
@[simp] theorem State.readByte_setCluster (s : State) (n cl : Nat) (c : Cluster) (m : Nat) : (s.setCluster n cl c).readByte m = s.readByte m := rfl
@[simp] theorem State.getF_setIsland (s : State) (n : Nat) (x : Island) (b : Nat) (g : Fld) : (s.setIsland n x).getF b g = s.getF b g := rfl
@[simp] theorem State.core_setIsland (s : State) (n : Nat) (x : Island) (m v : Nat) : (s.setIsland n x).core m v = s.core m v := rfl
@[simp] theorem State.cluster_setIsland (s : State) (n : Nat) (x : Island) (m v : Nat) : (s.setIsland n x).cluster m v = s.cluster m v := rfl
@[simp] theorem State.ctlCore_setIsland (s : State) (n : Nat) (x : Island) (m : Nat) : (s.setIsland n x).ctlCore m = s.ctlCore m := rfl
@[simp] theorem State.port_setIsland (s : State) (n : Nat) (x : Island) (m : Nat) : (s.setIsland n x).port m = s.port m := rfl
@[simp] theorem State.readByte_setIsland (s : State) (n : Nat) (x : Island) (m : Nat) : (s.setIsland n x).readByte m = s.readByte m := rfl
@[simp] theorem State.getF_setCtlCore (s : State) (k : Nat) (c : CtlCore) (b : Nat) (g : Fld) : (s.setCtlCore k c).getF b g = s.getF b g := rfl
@[simp] theorem State.core_setCtlCore (s : State) (k : Nat) (c : CtlCore) (m v : Nat) : (s.setCtlCore k c).core m v = s.core m v := rfl
@[simp] theorem State.cluster_setCtlCore (s : State) (k : Nat) (c : CtlCore) (m v : Nat) : (s.setCtlCore k c).cluster m v = s.cluster m v := rfl
@[simp] theorem State.island_setCtlCore (s : State) (k : Nat) (c : CtlCore) (m : Nat) : (s.setCtlCore k c).island m = s.island m := rfl
@[simp] theorem State.port_setCtlCore (s : State) (k : Nat) (c : CtlCore) (m : Nat) : (s.setCtlCore k c).port m = s.port m := rfl
@[simp] theorem State.readByte_setCtlCore (s : State) (k : Nat) (c : CtlCore) (m : Nat) : (s.setCtlCore k c).readByte m = s.readByte m := rfl
@[simp] theorem State.getF_setPort (s : State) (p : Nat) (x : Port) (b : Nat) (g : Fld) : (s.setPort p x).getF b g = s.getF b g := rfl
@[simp] theorem State.core_setPort (s : State) (p : Nat) (x : Port) (m v : Nat) : (s.setPort p x).core m v = s.core m v := rfl
@[simp] theorem State.cluster_setPort (s : State) (p : Nat) (x : Port) (m v : Nat) : (s.setPort p x).cluster m v = s.cluster m v := rfl
@[simp] theorem State.island_setPort (s : State) (p : Nat) (x : Port) (m : Nat) : (s.setPort p x).island m = s.island m := rfl
@[simp] theorem State.ctlCore_setPort (s : State) (p : Nat) (x : Port) (m : Nat) : (s.setPort p x).ctlCore m = s.ctlCore m := rfl
@[simp] theorem State.readByte_setPort (s : State) (p : Nat) (x : Port) (m : Nat) : (s.setPort p x).readByte m = s.readByte m := rfl
@[simp] theorem State.getF_writeByte (s : State) (a : Nat) (b : Byte) (c : Nat) (g : Fld) : (s.writeByte a b).getF c g = s.getF c g := rfl
@[simp] theorem State.core_writeByte (s : State) (a : Nat) (b : Byte) (m v : Nat) : (s.writeByte a b).core m v = s.core m v := rfl
@[simp] theorem State.cluster_writeByte (s : State) (a : Nat) (b : Byte) (m v : Nat) : (s.writeByte a b).cluster m v = s.cluster m v := rfl
@[simp] theorem State.island_writeByte (s : State) (a : Nat) (b : Byte) (m : Nat) : (s.writeByte a b).island m = s.island m := rfl
@[simp] theorem State.ctlCore_writeByte (s : State) (a : Nat) (b : Byte) (m : Nat) : (s.writeByte a b).ctlCore m = s.ctlCore m := rfl
@[simp] theorem State.port_writeByte (s : State) (a : Nat) (b : Byte) (m : Nat) : (s.writeByte a b).port m = s.port m := rfl

/-! ### Reads of a table after its own writes -/

theorem State.getF_setF (s : State) (a : Nat) (f : Fld) (v b : Nat) (g : Fld) :
    (s.setF a f v).getF b g = if fkey b g = fkey a f then (v % 2 ^ f.width) ^^^ f.reset ^^^ g.reset else s.getF b g := by
  simp only [State.getF, State.setF, Tbl.get_set]
  split <;> rfl

/-- A field reads what was written to it, cut to its width. -/
@[simp] theorem State.getF_setF_same (s : State) (a : Nat) (f : Fld) (v : Nat) : (s.setF a f v).getF a f = v % 2 ^ f.width := by
  simp [State.getF_setF, Nat.xor_assoc]

/-- A write leaves every field with another key as it was. -/
theorem State.getF_setF_other (s : State) (a : Nat) (f : Fld) (v : Nat) {b : Nat} {g : Fld} (h : fkey b g ≠ fkey a f) :
    (s.setF a f v).getF b g = s.getF b g := by
  simp [State.getF_setF, h]

theorem State.core_setCore (s : State) (n u : Nat) (c : Core) (m v : Nat) :
    (s.setCore n u c).core m v = if ckey m v = ckey n u then c else s.core m v := by
  simp [State.core, State.setCore, Tbl.get_set]

@[simp] theorem State.core_setCore_same (s : State) (n u : Nat) (c : Core) : (s.setCore n u c).core n u = c := by
  simp [State.core_setCore]

theorem State.cluster_setCluster (s : State) (n u : Nat) (c : Cluster) (m v : Nat) :
    (s.setCluster n u c).cluster m v = if 16 * m + v = 16 * n + u then c else s.cluster m v := by
  simp [State.cluster, State.setCluster, Tbl.get_set]

@[simp] theorem State.cluster_setCluster_same (s : State) (n u : Nat) (c : Cluster) :
    (s.setCluster n u c).cluster n u = c := by
  simp [State.cluster_setCluster]

theorem State.island_setIsland (s : State) (n : Nat) (x : Island) (m : Nat) :
    (s.setIsland n x).island m = if m = n then x else s.island m := by
  simp [State.island, State.setIsland, Tbl.get_set]

@[simp] theorem State.island_setIsland_same (s : State) (n : Nat) (x : Island) : (s.setIsland n x).island n = x := by
  simp [State.island_setIsland]

theorem State.ctlCore_setCtlCore (s : State) (k : Nat) (c : CtlCore) (m : Nat) :
    (s.setCtlCore k c).ctlCore m = if m = k then c else s.ctlCore m := by
  simp [State.ctlCore, State.setCtlCore, Tbl.get_set]

@[simp] theorem State.ctlCore_setCtlCore_same (s : State) (k : Nat) (c : CtlCore) :
    (s.setCtlCore k c).ctlCore k = c := by
  simp [State.ctlCore_setCtlCore]

theorem State.port_setPort (s : State) (p : Nat) (x : Port) (m : Nat) :
    (s.setPort p x).port m = if m = p then x else s.port m := by
  simp [State.port, State.setPort, Tbl.get_set]

@[simp] theorem State.port_setPort_same (s : State) (p : Nat) (x : Port) : (s.setPort p x).port p = x := by
  simp [State.port_setPort]

theorem State.readByte_writeByte (s : State) (a : Nat) (b : Byte) (m : Nat) :
    (s.writeByte a b).readByte m = if m = a then b else s.readByte m := by
  simp [State.readByte, State.writeByte, Tbl.get_set]

/-- Memory stays canonical through a byte's write. -/
theorem State.writeByte_wf {s : State} (a : Nat) (b : Byte) (h : Memory.wf s.mem = true) :
    Memory.wf (s.writeByte a b).mem = true := Tbl.set_wf a b h

/-! ### Register fields as truth values -/

theorem State.flag_setF_same (s : State) (a : Nat) (f : Fld) (v : Nat) :
    (s.setF a f v).flag a f = decide (v % 2 ^ f.width ≠ 0) := by
  simp [State.flag]

theorem State.flag_setF_other (s : State) (a : Nat) (f : Fld) (v : Nat) {b : Nat} {g : Fld} (h : fkey b g ≠ fkey a f) :
    (s.setF a f v).flag b g = s.flag b g := by
  simp [State.flag, State.getF_setF_other s a f v h]

end Sys2Proof.Machine
end

