-- ==== Sys2Proof/Laws/Effects.lean ====
section
/-! SUPPORT. What each effect does when it delivers, said once per effect, so that no later proof unfolds `Core.apply` or
`State.deliver`. -/

namespace Sys2Proof.Machine

variable (c : Core) (cyc : Nat)

theorem Core.apply_setS (r : Nat) (x : BitVec 32) :
    c.apply cyc (.setS r x) = if r = 0 then c else { c with sregs := Tbl.set 0 c.sregs r x } := rfl
theorem Core.apply_setCyc (r : Nat) :
    c.apply cyc (.setCyc r) = if r = 0 then c else { c with sregs := Tbl.set 0 c.sregs r (BitVec.ofNat 32 cyc) } := rfl
theorem Core.apply_setP (p : Nat) (b : Bool) :
    c.apply cyc (.setP p b) = if p = 0 then c else { c with preds := Tbl.set false c.preds p b } := rfl
theorem Core.apply_setV (v : Nat) (mask : BitVec 64) (data : BitVec 512) (smask : BitVec 8) (scales : BitVec 64) :
    c.apply cyc (.setV v mask data smask scales) =
      { c with
        vregs := Tbl.set 0 c.vregs v (mergeBits (Tbl.get 0 c.vregs v) data (BitVec.ofNat 512 (byteMask mask))),
        vscales := Tbl.set plainScales c.vscales v
          (mergeBits (Tbl.get plainScales c.vscales v) scales (BitVec.ofNat 64 (scaleMask smask))) } := rfl
theorem Core.apply_setKey (k : Nat) (x : BitVec 32) : c.apply cyc (.setKey k x) = { c with keys := Tbl.set 0 c.keys k x } := rfl
theorem Core.apply_setTensor (x : BitVec 32) : c.apply cyc (.setTensor x) = { c with tensor := x &&& 0x7FFFFFFF#32 } := rfl
theorem Core.apply_setAstat (x : BitVec 5) : c.apply cyc (.setAstat x) = { c with astat := x } := rfl
theorem Core.apply_orAstat (x : BitVec 5) : c.apply cyc (.orAstat x) = { c with astat := c.astat ||| x } := rfl
theorem Core.apply_setStep (x : BitVec 64) : c.apply cyc (.setStep x) = { c with step := x } := rfl
theorem Core.apply_setProv (x : BitVec 2) : c.apply cyc (.setProv x) = { c with prov := x } := rfl
theorem Core.apply_swap :
    c.apply cyc .swap = ({ c with active1 := !c.active1 } : Core).setIdleStage Stage.empty := rfl
theorem Core.apply_accAdd (q : Nat) (ls : List LaneAdd) :
    c.apply cyc (.accAdd q ls) = { c with qs := Tbl.set QEntry.zero c.qs q ((c.rq q).addLanes ls) } := rfl
theorem Core.apply_accClear (qa qb : Nat) (anchor : BitVec 11) :
    c.apply cyc (.accClear qa qb anchor) =
      { c with
        qs := (List.range (qb - qa + 1)).foldl (fun t i => Tbl.set QEntry.zero t (qa + i) { anchor := anchor, lanes := [] }) c.qs,
        flight := dropAdds qa qb c.flight } := rfl
theorem Core.apply_takeMbx (e : Nat) :
    c.apply cyc (.takeMbx e) = { c with mbx := Tbl.set Mbx.empty c.mbx e { c.rm e with full := false } } := rfl
theorem Core.apply_present (p : Present) : c.apply cyc (.present p) = { c with port := some p } := rfl
theorem Core.apply_remote (t : Nat) (r : Remote) :
    c.apply cyc (.remote t r) = { c with trk := Tbl.set none c.trk t (some r) } := rfl
theorem Core.apply_fillPart (fmt : BitVec 4) (part : Nat) (data : BitVec 512) :
    c.apply cyc (.fillPart fmt part data) = c.setIdleStage (c.idleStage.fill fmt part data) := rfl
theorem Core.apply_readSync (r k : Nat) (x : BitVec 32) :
    c.apply cyc (.readSync r k x) = if r = 0 then c else { c with sregs := Tbl.set 0 c.sregs r x } := rfl
theorem Core.apply_endBreath : c.apply cyc .endBreath = { c with ending := true } := rfl

variable (s : State) (n u : Nat)

theorem State.deliver_store (addr : Nat) (bytes : List Byte) (tag : BitVec 2) :
    s.deliver n u (.store addr bytes tag) = s.store (s.tileBase n u + addr) bytes tag := rfl
theorem State.deliver_put (ch : Nat) (data : Line) (prov : BitVec 2) :
    s.deliver n u (.put ch data prov) = s.putQuarter n u ch data prov := rfl
theorem State.deliver_syncSet (ctr : Nat) (x : BitVec 32) :
    s.deliver n u (.syncSet ctr x) = s.setF (aIslSync n ctr) F.islSync_value x.toNat := rfl
theorem State.deliver_syncAdd (ctr : Nat) (x : BitVec 32) :
    s.deliver n u (.syncAdd ctr x) = s.wrapAdd (aIslSync n ctr) F.islSync_value x.toNat := rfl
theorem State.deliver_suspect (step : BitVec 64) (reason : BitVec 16) :
    s.deliver n u (.suspect step reason) = s.suspReport n u step reason := rfl
theorem State.deliver_corrected :
    s.deliver n u .corrected = (s.bump (aIslCoreEcc n u) F.islCoreEcc_tmCorrected 1).corrected (.core n u) := rfl
theorem State.deliver_remote (t : Nat) (r : Remote) :
    s.deliver n u (.remote t r) =
      (s.setCore n u ((s.core n u).apply 0 (.remote t r))).bump aGmuTrack F.gmuTrack_open 1 := rfl

theorem State.deliver_fetchCorrected :
    s.deliver n u .fetchCorrected = (s.bump (aIslCoreEcc n u) F.islCoreEcc_isCorrected 1).corrected (.core n u) := rfl
theorem State.deliver_check (lanes : Nat) (image : Option Nat) : s.deliver n u (.check lanes image) = s.checkFail n u lanes image := rfl
theorem State.deliver_waitLate : s.deliver n u .waitLate = s.bump (aIslWaitLate n) F.islWaitLate_count 1 := rfl

/-- Whether an effect acts on its core alone. -/
def Eff.own : Eff → Bool
  | .store _ _ _ | .put _ _ _ | .syncAdd _ _ | .syncSet _ _ | .suspect _ _ | .corrected | .fetchCorrected | .check _ _ | .waitLate | .remote _ _ => false
  | _ => true

/-- Such an effect changes its core and nothing else. -/
theorem State.deliver_own (e : Eff) (h : e.own = true) : s.deliver n u e = s.setCore n u ((s.core n u).apply (s.island n).cyc e) := by
  cases e <;> first
    | rfl
    | cases h

end Sys2Proof.Machine
end

