-- ==== Sys2Proof/Laws/Exec.lean ====
section
/-! SUPPORT. The dispatch of every command, said once per command, so that no later proof unfolds `exec`. -/

namespace Sys2Proof.Machine

theorem exec_registerWrite (addr bytes : Nat) (value hw : Word) (m : State) :
    exec (.registerWrite addr bytes value hw) m = execRegisterWrite addr bytes value hw m := rfl
theorem exec_rcClearingRead (addr bytes : Nat) (same : List (Nat × Nat)) (m : State) :
    exec (.rcClearingRead addr bytes same) m = execRcClearingRead addr bytes same m := rfl
theorem exec_add (sl : Slot) (rd ra rb : BitVec 5) (m : State) :
    exec (.add sl rd ra rb) m = execAdd sl rd ra rb m := rfl
theorem exec_sub (sl : Slot) (rd ra rb : BitVec 5) (m : State) :
    exec (.sub sl rd ra rb) m = execSub sl rd ra rb m := rfl
theorem exec_and (sl : Slot) (rd ra rb : BitVec 5) (m : State) :
    exec (.and sl rd ra rb) m = execAnd sl rd ra rb m := rfl
theorem exec_or (sl : Slot) (rd ra rb : BitVec 5) (m : State) :
    exec (.or sl rd ra rb) m = execOr sl rd ra rb m := rfl
theorem exec_xor (sl : Slot) (rd ra rb : BitVec 5) (m : State) :
    exec (.xor sl rd ra rb) m = execXor sl rd ra rb m := rfl
theorem exec_shl (sl : Slot) (rd ra rb : BitVec 5) (m : State) :
    exec (.shl sl rd ra rb) m = execShl sl rd ra rb m := rfl
theorem exec_shr (sl : Slot) (rd ra rb : BitVec 5) (m : State) :
    exec (.shr sl rd ra rb) m = execShr sl rd ra rb m := rfl
theorem exec_sra (sl : Slot) (rd ra rb : BitVec 5) (m : State) :
    exec (.sra sl rd ra rb) m = execSra sl rd ra rb m := rfl
theorem exec_min (sl : Slot) (rd ra rb : BitVec 5) (m : State) :
    exec (.min sl rd ra rb) m = execMin sl rd ra rb m := rfl
theorem exec_max (sl : Slot) (rd ra rb : BitVec 5) (m : State) :
    exec (.max sl rd ra rb) m = execMax sl rd ra rb m := rfl
theorem exec_minu (sl : Slot) (rd ra rb : BitVec 5) (m : State) :
    exec (.minu sl rd ra rb) m = execMinu sl rd ra rb m := rfl
theorem exec_maxu (sl : Slot) (rd ra rb : BitVec 5) (m : State) :
    exec (.maxu sl rd ra rb) m = execMaxu sl rd ra rb m := rfl
theorem exec_mul (sl : Slot) (rd ra rb : BitVec 5) (m : State) :
    exec (.mul sl rd ra rb) m = execMul sl rd ra rb m := rfl
theorem exec_mulh (sl : Slot) (rd ra rb : BitVec 5) (m : State) :
    exec (.mulh sl rd ra rb) m = execMulh sl rd ra rb m := rfl
theorem exec_mulhu (sl : Slot) (rd ra rb : BitVec 5) (m : State) :
    exec (.mulhu sl rd ra rb) m = execMulhu sl rd ra rb m := rfl
theorem exec_addi (sl : Slot) (rd ra : BitVec 5) (imm : BitVec 16) (m : State) :
    exec (.addi sl rd ra imm) m = execAddi sl rd ra imm m := rfl
theorem exec_andi (sl : Slot) (rd ra : BitVec 5) (imm : BitVec 16) (m : State) :
    exec (.andi sl rd ra imm) m = execAndi sl rd ra imm m := rfl
theorem exec_ori (sl : Slot) (rd ra : BitVec 5) (imm : BitVec 16) (m : State) :
    exec (.ori sl rd ra imm) m = execOri sl rd ra imm m := rfl
theorem exec_xori (sl : Slot) (rd ra : BitVec 5) (imm : BitVec 16) (m : State) :
    exec (.xori sl rd ra imm) m = execXori sl rd ra imm m := rfl
theorem exec_shli (sl : Slot) (rd ra : BitVec 5) (imm : BitVec 16) (m : State) :
    exec (.shli sl rd ra imm) m = execShli sl rd ra imm m := rfl
theorem exec_shri (sl : Slot) (rd ra : BitVec 5) (imm : BitVec 16) (m : State) :
    exec (.shri sl rd ra imm) m = execShri sl rd ra imm m := rfl
theorem exec_srai (sl : Slot) (rd ra : BitVec 5) (imm : BitVec 16) (m : State) :
    exec (.srai sl rd ra imm) m = execSrai sl rd ra imm m := rfl
theorem exec_movi (sl : Slot) (rd ra : BitVec 5) (imm : BitVec 16) (m : State) :
    exec (.movi sl rd ra imm) m = execMovi sl rd ra imm m := rfl
theorem exec_movhi (sl : Slot) (rd ra : BitVec 5) (imm : BitVec 16) (m : State) :
    exec (.movhi sl rd ra imm) m = execMovhi sl rd ra imm m := rfl
theorem exec_movsh (sl : Slot) (rd ra : BitVec 5) (imm : BitVec 16) (m : State) :
    exec (.movsh sl rd ra imm) m = execMovsh sl rd ra imm m := rfl
theorem exec_cmp (sl : Slot) (pd cond : BitVec 3) (ra rb : BitVec 5) (m : State) :
    exec (.cmp sl pd cond ra rb) m = execCmp sl pd cond ra rb m := rfl
theorem exec_cmpi (sl : Slot) (pd cond : BitVec 3) (ra : BitVec 5) (imm : BitVec 16) (m : State) :
    exec (.cmpi sl pd cond ra imm) m = execCmpi sl pd cond ra imm m := rfl
theorem exec_pand (sl : Slot) (pd pa : BitVec 3) (na : Bool) (pb : BitVec 3) (nb : Bool) (m : State) :
    exec (.pand sl pd pa na pb nb) m = execPand sl pd pa na pb nb m := rfl
theorem exec_por (sl : Slot) (pd pa : BitVec 3) (na : Bool) (pb : BitVec 3) (nb : Bool) (m : State) :
    exec (.por sl pd pa na pb nb) m = execPor sl pd pa na pb nb m := rfl
theorem exec_pxor (sl : Slot) (pd pa : BitVec 3) (na : Bool) (pb : BitVec 3) (nb : Bool) (m : State) :
    exec (.pxor sl pd pa na pb nb) m = execPxor sl pd pa na pb nb m := rfl
theorem exec_br (sl : Slot) (target : BitVec 11) (m : State) :
    exec (.br sl target) m = execBr sl target m := rfl
theorem exec_loop (sl : Slot) (rd : BitVec 5) (target : BitVec 11) (m : State) :
    exec (.loop sl rd target) m = execLoop sl rd target m := rfl
theorem exec_jal (sl : Slot) (rd : BitVec 5) (target : BitVec 11) (m : State) :
    exec (.jal sl rd target) m = execJal sl rd target m := rfl
theorem exec_jr (sl : Slot) (ra : BitVec 5) (m : State) :
    exec (.jr sl ra) m = execJr sl ra m := rfl
theorem exec_smovFromSpecial (sl : Slot) (rd : BitVec 5) (code : BitVec 5) (m : State) :
    exec (.smovFromSpecial sl rd code) m = execSmovFromSpecial sl rd code m := rfl
theorem exec_smovToSpecial (sl : Slot) (code : BitVec 5) (ra : BitVec 5) (m : State) :
    exec (.smovToSpecial sl code ra) m = execSmovToSpecial sl code ra m := rfl
theorem exec_wswap (sl : Slot) (m : State) :
    exec (.wswap sl) m = execWswap sl m := rfl
theorem exec_islandHoldRelease (n cycles : Nat) (m : State) :
    exec (.islandHoldRelease n cycles) m = execIslandHoldRelease n cycles m := rfl
theorem exec_stallTimeout (n cycles : Nat) (m : State) :
    exec (.stallTimeout n cycles) m = execStallTimeout n cycles m := rfl
theorem exec_mma (sl : Slot) (fmt : BitVec 4) (q va : BitVec 5) (seg : BitVec 4) (m : State) :
    exec (.mma sl fmt q va seg) m = execMma sl fmt q va seg m := rfl
theorem exec_qclr (sl : Slot) (qa qb : BitVec 5) (imm : Bool) (anc : BitVec 11) (m : State) :
    exec (.qclr sl qa qb imm anc) m = execQclr sl qa qb imm anc m := rfl
theorem exec_qread (sl : Slot) (vd q : BitVec 5) (tgt : BitVec 4) (pos : BitVec 3) (rm : BitVec 2) (sat : Bool) (sb st : BitVec 5) (off : BitVec 7) (m : State) :
    exec (.qread sl vd q tgt pos rm sat sb st off) m = execQread sl vd q tgt pos rm sat sb st off m := rfl
theorem exec_qst (sl : Slot) (sa q : BitVec 5) (tgt : BitVec 4) (pos : BitVec 3) (rm : BitVec 2) (sat : Bool) (sb st : BitVec 5) (off : BitVec 7) (m : State) :
    exec (.qst sl sa q tgt pos rm sat sb st off) m = execQst sl sa q tgt pos rm sat sb st off m := rfl
theorem exec_qstat (sl : Slot) (st q : BitVec 5) (pos : Bool) (m : State) :
    exec (.qstat sl st q pos) m = execQstat sl st q pos m := rfl
theorem exec_qanc (sl : Slot) (sd q : BitVec 5) (pos : Bool) (m : State) :
    exec (.qanc sl sd q pos) m = execQanc sl sd q pos m := rfl
theorem exec_qres (sl : Slot) (vd q : BitVec 5) (pos : Bool) (m : State) :
    exec (.qres sl vd q pos) m = execQres sl vd q pos m := rfl
theorem exec_vadd (sl : Slot) (ty : BitVec 2) (vd va vb : BitVec 5) (rm : BitVec 2) (sb : BitVec 5) (m : State) :
    exec (.vadd sl ty vd va vb rm sb) m = execVadd sl ty vd va vb rm sb m := rfl
theorem exec_vsub (sl : Slot) (ty : BitVec 2) (vd va vb : BitVec 5) (rm : BitVec 2) (sb : BitVec 5) (m : State) :
    exec (.vsub sl ty vd va vb rm sb) m = execVsub sl ty vd va vb rm sb m := rfl
theorem exec_vmul (sl : Slot) (ty : BitVec 2) (vd va vb : BitVec 5) (rm : BitVec 2) (sb : BitVec 5) (m : State) :
    exec (.vmul sl ty vd va vb rm sb) m = execVmul sl ty vd va vb rm sb m := rfl
theorem exec_vfma (sl : Slot) (ty : BitVec 2) (vd va vb vc : BitVec 5) (rm : BitVec 2) (sb : BitVec 5) (m : State) :
    exec (.vfma sl ty vd va vb vc rm sb) m = execVfma sl ty vd va vb vc rm sb m := rfl
theorem exec_vmin (sl : Slot) (ty : BitVec 2) (vd va vb : BitVec 5) (m : State) :
    exec (.vmin sl ty vd va vb) m = execVmin sl ty vd va vb m := rfl
theorem exec_vmax (sl : Slot) (ty : BitVec 2) (vd va vb : BitVec 5) (m : State) :
    exec (.vmax sl ty vd va vb) m = execVmax sl ty vd va vb m := rfl
theorem exec_vcmp (sl : Slot) (ty : BitVec 2) (cond : BitVec 3) (vd va vb : BitVec 5) (m : State) :
    exec (.vcmp sl ty cond vd va vb) m = execVcmp sl ty cond vd va vb m := rfl
theorem exec_vsel (sl : Slot) (ty : BitVec 2) (vd va vb vc : BitVec 5) (m : State) :
    exec (.vsel sl ty vd va vb vc) m = execVsel sl ty vd va vb vc m := rfl
theorem exec_vand (sl : Slot) (vd va vb : BitVec 5) (m : State) :
    exec (.vand sl vd va vb) m = execVand sl vd va vb m := rfl
theorem exec_vor (sl : Slot) (vd va vb : BitVec 5) (m : State) :
    exec (.vor sl vd va vb) m = execVor sl vd va vb m := rfl
theorem exec_vxor (sl : Slot) (vd va vb : BitVec 5) (m : State) :
    exec (.vxor sl vd va vb) m = execVxor sl vd va vb m := rfl
theorem exec_vredsum (sl : Slot) (ty : BitVec 2) (vd va : BitVec 5) (m : State) :
    exec (.vredsum sl ty vd va) m = execVredsum sl ty vd va m := rfl
theorem exec_vredmax (sl : Slot) (ty : BitVec 2) (vd va : BitVec 5) (m : State) :
    exec (.vredmax sl ty vd va) m = execVredmax sl ty vd va m := rfl
theorem exec_vredmin (sl : Slot) (ty : BitVec 2) (vd va : BitVec 5) (m : State) :
    exec (.vredmin sl ty vd va) m = execVredmin sl ty vd va m := rfl
theorem exec_vtestAny (sl : Slot) (ty : BitVec 2) (pd : BitVec 3) (va : BitVec 5) (m : State) :
    exec (.vtestAny sl ty pd va) m = execVtestAny sl ty pd va m := rfl
theorem exec_vtestAll (sl : Slot) (ty : BitVec 2) (pd : BitVec 3) (va : BitVec 5) (m : State) :
    exec (.vtestAll sl ty pd va) m = execVtestAll sl ty pd va m := rfl
theorem exec_vneg (sl : Slot) (ty : BitVec 2) (vd va : BitVec 5) (m : State) :
    exec (.vneg sl ty vd va) m = execVneg sl ty vd va m := rfl
theorem exec_vabs (sl : Slot) (ty : BitVec 2) (vd va : BitVec 5) (m : State) :
    exec (.vabs sl ty vd va) m = execVabs sl ty vd va m := rfl
theorem exec_vcopysign (sl : Slot) (ty : BitVec 2) (vd va vb : BitVec 5) (m : State) :
    exec (.vcopysign sl ty vd va vb) m = execVcopysign sl ty vd va vb m := rfl
theorem exec_vcvtNarrow (sl : Slot) (fmt : BitVec 4) (vd va vb : BitVec 5) (pos : BitVec 3) (rm : BitVec 2) (sat : Bool) (sb : BitVec 5) (m : State) :
    exec (.vcvtNarrow sl fmt vd va vb pos rm sat sb) m = execVcvtNarrow sl fmt vd va vb pos rm sat sb m := rfl
theorem exec_vcvtWiden (sl : Slot) (fmt : BitVec 4) (vd va : BitVec 5) (pos : BitVec 3) (m : State) :
    exec (.vcvtWiden sl fmt vd va pos) m = execVcvtWiden sl fmt vd va pos m := rfl
theorem exec_vpermSeg (sl : Slot) (vd va : BitVec 5) (sel : BitVec 24) (m : State) :
    exec (.vpermSeg sl vd va sel) m = execVpermSeg sl vd va sel m := rfl
theorem exec_vpermW (sl : Slot) (vd va vb : BitVec 5) (m : State) :
    exec (.vpermW sl vd va vb) m = execVpermW sl vd va vb m := rfl
theorem exec_vpermB (sl : Slot) (vd va vb : BitVec 5) (m : State) :
    exec (.vpermB sl vd va vb) m = execVpermB sl vd va vb m := rfl
theorem exec_vbcast (sl : Slot) (vd sa : BitVec 5) (m : State) :
    exec (.vbcast sl vd sa) m = execVbcast sl vd sa m := rfl
theorem exec_vins (sl : Slot) (vd lane sa : BitVec 5) (m : State) :
    exec (.vins sl vd lane sa) m = execVins sl vd lane sa m := rfl
theorem exec_vext (sl : Slot) (sd va lane : BitVec 5) (m : State) :
    exec (.vext sl sd va lane) m = execVext sl sd va lane m := rfl
theorem exec_vexp (sl : Slot) (ty : BitVec 2) (vd va : BitVec 5) (rm : BitVec 2) (sb : BitVec 5) (m : State) :
    exec (.vexp sl ty vd va rm sb) m = execVexp sl ty vd va rm sb m := rfl
theorem exec_vexp2 (sl : Slot) (ty : BitVec 2) (vd va : BitVec 5) (rm : BitVec 2) (sb : BitVec 5) (m : State) :
    exec (.vexp2 sl ty vd va rm sb) m = execVexp2 sl ty vd va rm sb m := rfl
theorem exec_vlog (sl : Slot) (ty : BitVec 2) (vd va : BitVec 5) (rm : BitVec 2) (sb : BitVec 5) (m : State) :
    exec (.vlog sl ty vd va rm sb) m = execVlog sl ty vd va rm sb m := rfl
theorem exec_vlog2 (sl : Slot) (ty : BitVec 2) (vd va : BitVec 5) (rm : BitVec 2) (sb : BitVec 5) (m : State) :
    exec (.vlog2 sl ty vd va rm sb) m = execVlog2 sl ty vd va rm sb m := rfl
theorem exec_vrcp (sl : Slot) (ty : BitVec 2) (vd va : BitVec 5) (rm : BitVec 2) (sb : BitVec 5) (m : State) :
    exec (.vrcp sl ty vd va rm sb) m = execVrcp sl ty vd va rm sb m := rfl
theorem exec_vsqrt (sl : Slot) (ty : BitVec 2) (vd va : BitVec 5) (rm : BitVec 2) (sb : BitVec 5) (m : State) :
    exec (.vsqrt sl ty vd va rm sb) m = execVsqrt sl ty vd va rm sb m := rfl
theorem exec_vrsqrt (sl : Slot) (ty : BitVec 2) (vd va : BitVec 5) (rm : BitVec 2) (sb : BitVec 5) (m : State) :
    exec (.vrsqrt sl ty vd va rm sb) m = execVrsqrt sl ty vd va rm sb m := rfl
theorem exec_vtanh (sl : Slot) (ty : BitVec 2) (vd va : BitVec 5) (rm : BitVec 2) (sb : BitVec 5) (m : State) :
    exec (.vtanh sl ty vd va rm sb) m = execVtanh sl ty vd va rm sb m := rfl
theorem exec_verf (sl : Slot) (ty : BitVec 2) (vd va : BitVec 5) (rm : BitVec 2) (sb : BitVec 5) (m : State) :
    exec (.verf sl ty vd va rm sb) m = execVerf sl ty vd va rm sb m := rfl
theorem exec_vsig (sl : Slot) (ty : BitVec 2) (vd va : BitVec 5) (rm : BitVec 2) (sb : BitVec 5) (m : State) :
    exec (.vsig sl ty vd va rm sb) m = execVsig sl ty vd va rm sb m := rfl
theorem exec_vrand (sl : Slot) (vd sb : BitVec 5) (domain : Bool) (m : State) :
    exec (.vrand sl vd sb domain) m = execVrand sl vd sb domain m := rfl
theorem exec_vdrop (sl : Slot) (ty : BitVec 2) (vd va sb sc : BitVec 5) (m : State) :
    exec (.vdrop sl ty vd va sb sc) m = execVdrop sl ty vd va sb sc m := rfl
theorem exec_ld (sl : Slot) (rd sa : BitVec 5) (imm : BitVec 16) (size : BitVec 2) (sx : Bool) (m : State) :
    exec (.ld sl rd sa imm size sx) m = execLd sl rd sa imm size sx m := rfl
theorem exec_st (sl : Slot) (rs sa : BitVec 5) (imm : BitVec 16) (size : BitVec 2) (sx : Bool) (m : State) :
    exec (.st sl rs sa imm size sx) m = execSt sl rs sa imm size sx m := rfl
theorem exec_vld (sl : Slot) (vd sa : BitVec 5) (mode : BitVec 3) (sc : BitVec 5) (imm : BitVec 11) (m : State) :
    exec (.vld sl vd sa mode sc imm) m = execVld sl vd sa mode sc imm m := rfl
theorem exec_vst (sl : Slot) (vs sa : BitVec 5) (mode : BitVec 3) (sc : BitVec 5) (imm : BitVec 11) (m : State) :
    exec (.vst sl vs sa mode sc imm) m = execVst sl vs sa mode sc imm m := rfl
theorem exec_vsts (sl : Slot) (va sa : BitVec 5) (h : Bool) (imm : BitVec 16) (m : State) :
    exec (.vsts sl va sa h imm) m = execVsts sl va sa h imm m := rfl
theorem exec_sendRegister (sl : Slot) (rid : BitVec 8) (va : BitVec 5) (imm : BitVec 11) (m : State) :
    exec (.sendRegister sl rid va imm) m = execSendRegister sl rid va imm m := rfl
theorem exec_sendMemory (sl : Slot) (rid : BitVec 8) (sa : BitVec 5) (imm : BitVec 11) (m : State) :
    exec (.sendMemory sl rid sa imm) m = execSendMemory sl rid sa imm m := rfl
theorem exec_recvVector (sl : Slot) (vd : BitVec 5) (ind : Bool) (entry : BitVec 6) (sa : BitVec 5) (m : State) :
    exec (.recvVector sl vd ind entry sa) m = execRecvVector sl vd ind entry sa m := rfl
theorem exec_recvScalar (sl : Slot) (rd : BitVec 5) (ind : Bool) (entry : BitVec 6) (sa : BitVec 5) (m : State) :
    exec (.recvScalar sl rd ind entry sa) m = execRecvScalar sl rd ind entry sa m := rfl
theorem exec_streamPut (sl : Slot) (ch : BitVec 3) (va : BitVec 5) (m : State) :
    exec (.streamPut sl ch va) m = execStreamPut sl ch va m := rfl
theorem exec_rmemRd (sl : Slot) (sa sb sc : BitVec 5) (n : BitVec 8) (m : State) :
    exec (.rmemRd sl sa sb sc n) m = execRmemRd sl sa sb sc n m := rfl
theorem exec_rmemWr (sl : Slot) (sa sb sc : BitVec 5) (n : BitVec 8) (m : State) :
    exec (.rmemWr sl sa sb sc n) m = execRmemWr sl sa sb sc n m := rfl
theorem exec_rmemPut (sl : Slot) (sa sb sc : BitVec 5) (n : BitVec 8) (m : State) :
    exec (.rmemPut sl sa sb sc n) m = execRmemPut sl sa sb sc n m := rfl
theorem exec_rmemXadd (sl : Slot) (sa sb sc : BitVec 5) (n : BitVec 8) (m : State) :
    exec (.rmemXadd sl sa sb sc n) m = execRmemXadd sl sa sb sc n m := rfl
theorem exec_rmemFadd (sl : Slot) (sa sb sc : BitVec 5) (n : BitVec 8) (m : State) :
    exec (.rmemFadd sl sa sb sc n) m = execRmemFadd sl sa sb sc n m := rfl
theorem exec_rmemCas (sl : Slot) (sa sb sc : BitVec 5) (n : BitVec 8) (m : State) :
    exec (.rmemCas sl sa sb sc n) m = execRmemCas sl sa sb sc n m := rfl
theorem exec_rmemSinc (sl : Slot) (sa sb sc : BitVec 5) (n : BitVec 8) (m : State) :
    exec (.rmemSinc sl sa sb sc n) m = execRmemSinc sl sa sb sc n m := rfl
theorem exec_syncAdd (sl : Slot) (n : BitVec 8) (f : Bool) (sa : BitVec 5) (imm : BitVec 16) (m : State) :
    exec (.syncAdd sl n f sa imm) m = execSyncAdd sl n f sa imm m := rfl
theorem exec_syncSet (sl : Slot) (n : BitVec 8) (f : Bool) (sa : BitVec 5) (m : State) :
    exec (.syncSet sl n f sa) m = execSyncSet sl n f sa m := rfl
theorem exec_syncWait (sl : Slot) (n : BitVec 8) (f : Bool) (sa : BitVec 5) (m : State) :
    exec (.syncWait sl n f sa) m = execSyncWait sl n f sa m := rfl
theorem exec_syncRd (sl : Slot) (rd : BitVec 5) (n : BitVec 8) (f : Bool) (m : State) :
    exec (.syncRd sl rd n f) m = execSyncRd sl rd n f m := rfl
theorem exec_syncCounterAddition (entry : Crossed) (m : State) :
    exec (.syncCounterAddition entry) m = execSyncCounterAddition entry m := rfl
theorem exec_ccWait (sl : Slot) (c : BitVec 12) (sa : BitVec 5) (m : State) :
    exec (.ccWait sl c sa) m = execCcWait sl c sa m := rfl
theorem exec_waitCyc (sl : Slot) (f : Bool) (sa : BitVec 5) (imm : BitVec 24) (m : State) :
    exec (.waitCyc sl f sa imm) m = execWaitCyc sl f sa imm m := rfl
theorem exec_breathEnd (sl : Slot) (m : State) :
    exec (.breathEnd sl) m = execBreathEnd sl m := rfl
theorem exec_stepSet (sl : Slot) (sa : BitVec 5) (m : State) :
    exec (.stepSet sl sa) m = execStepSet sl sa m := rfl
theorem exec_provBegin (sl : Slot) (tag : BitVec 2) (m : State) :
    exec (.provBegin sl tag) m = execProvBegin sl tag m := rfl
theorem exec_provEnd (sl : Slot) (m : State) :
    exec (.provEnd sl) m = execProvEnd sl m := rfl
theorem exec_suspSet (sl : Slot) (reason : BitVec 16) (m : State) :
    exec (.suspSet sl reason) m = execSuspSet sl reason m := rfl
theorem exec_wld (sl : Slot) (fmt : BitVec 4) (part : BitVec 2) (sa : BitVec 5) (imm : BitVec 16) (m : State) :
    exec (.wld sl fmt part sa imm) m = execWld sl fmt part sa imm m := rfl
theorem exec_routeWord (n cl : Nat) (word : BitVec 128) (adv : Nat) (m : State) :
    exec (.routeWord n cl word adv) m = execRouteWord n cl word adv m := rfl
theorem exec_idleWord (n cl : Nat) (word : BitVec 128) (adv : Nat) (m : State) :
    exec (.idleWord n cl word adv) m = execIdleWord n cl word adv m := rfl
theorem exec_endWord (n cl : Nat) (word : BitVec 128) (adv : Nat) (m : State) :
    exec (.endWord n cl word adv) m = execEndWord n cl word adv m := rfl
theorem exec_crossingEntryVisible (n q : Nat) (parityBad : Bool) (m : State) :
    exec (.crossingEntryVisible n q parityBad) m = execCrossingEntryVisible n q parityBad m := rfl
theorem exec_crossingFreeIndication (n q : Nat) (m : State) :
    exec (.crossingFreeIndication n q) m = execCrossingFreeIndication n q m := rfl
theorem exec_landingInputRelease (entry : Crossed) (m : State) :
    exec (.landingInputRelease entry) m = execLandingInputRelease entry m := rfl
theorem exec_heldLandingWrite (n : Nat) (m : State) :
    exec (.heldLandingWrite n) m = execHeldLandingWrite n m := rfl
theorem exec_tileScrub (n u line : Nat) (ecc : Ecc) (m : State) :
    exec (.tileScrub n u line ecc) m = execTileScrub n u line ecc m := rfl
theorem exec_triggerFire (m : State) : exec .triggerFire m = execTriggerFire m := rfl
theorem exec_islandBreathComplete (n : Nat) (m : State) :
    exec (.islandBreathComplete n) m = execIslandBreathComplete n m := rfl
theorem exec_loadRecordRun (index : Nat) (ecc : Eccs) (m : State) :
    exec (.loadRecordRun index ecc) m = execLoadRecordRun index ecc m := rfl
theorem exec_packageBoundary (m : State) : exec .packageBoundary m = execPackageBoundary m := rfl
theorem exec_islandResetRequest (n : Nat) (value : Word) (m : State) :
    exec (.islandResetRequest n value) m = execIslandResetRequest n value m := rfl
theorem exec_missedStart (m : State) : exec .missedStart m = execMissedStart m := rfl
theorem exec_overrunCheck (m : State) : exec .overrunCheck m = execOverrunCheck m := rfl
theorem exec_slipRequest (msg : Msg) (m : State) :
    exec (.slipRequest msg) m = execSlipRequest msg m := rfl
theorem exec_slipOrderSend (m : State) : exec .slipOrderSend m = execSlipOrderSend m := rfl
theorem exec_slipOrder (msg : Msg) (m : State) :
    exec (.slipOrder msg) m = execSlipOrder msg m := rfl
theorem exec_droopStretch (n s : Nat) (m : State) :
    exec (.droopStretch n s) m = execDroopStretch n s m := rfl
theorem exec_setpointRequestWrite (value : Word) (m : State) :
    exec (.setpointRequestWrite value) m = execSetpointRequestWrite value m := rfl
theorem exec_voltageRampEnd (m : State) : exec .voltageRampEnd m = execVoltageRampEnd m := rfl
theorem exec_setpointStop (duration : Nat) (m : State) :
    exec (.setpointStop duration) m = execSetpointStop duration m := rfl
theorem exec_lpddrRewrite (field ch : Nat) (m : State) :
    exec (.lpddrRewrite field ch) m = execLpddrRewrite field ch m := rfl
theorem exec_lpddrPatrolScrub (addr : Nat) (ecc : Ecc) (m : State) :
    exec (.lpddrPatrolScrub addr ecc) m = execLpddrPatrolScrub addr ecc m := rfl
theorem exec_ondieCountRead (field ch count : Nat) (m : State) :
    exec (.ondieCountRead field ch count) m = execOndieCountRead field ch count m := rfl
theorem exec_deviceTemperatureReport (device : Nat) (hot above : Bool) (temp : Nat) (m : State) :
    exec (.deviceTemperatureReport device hot above temp) m = execDeviceTemperatureReport device hot above temp m := rfl
theorem exec_lpddrOverLimitTrip (device : Nat) (m : State) :
    exec (.lpddrOverLimitTrip device) m = execLpddrOverLimitTrip device m := rfl
theorem exec_channelRetire (field ch : Nat) (m : State) :
    exec (.channelRetire field ch) m = execChannelRetire field ch m := rfl
theorem exec_stmMove (engine : Nat) (ecc : Eccs) (m : State) :
    exec (.stmMove engine ecc) m = execStmMove engine ecc m := rfl
theorem exec_stmTree (engine : Nat) (ecc : Eccs) (m : State) :
    exec (.stmTree engine ecc) m = execStmTree engine ecc m := rfl
theorem exec_stmSync (engine : Nat) (m : State) :
    exec (.stmSync engine) m = execStmSync engine m := rfl
theorem exec_stmEnd (engine : Nat) (m : State) :
    exec (.stmEnd engine) m = execStmEnd engine m := rfl
theorem exec_stmDescriptorComplete (engine : Nat) (m : State) :
    exec (.stmDescriptorComplete engine) m = execStmDescriptorComplete engine m := rfl
theorem exec_distributorTile (entry : Crossed) (m : State) :
    exec (.distributorTile entry) m = execDistributorTile entry m := rfl
theorem exec_launchQueueEntry (entry : Crossed) (m : State) :
    exec (.launchQueueEntry entry) m = execLaunchQueueEntry entry m := rfl
theorem exec_slotLaunch (port slot : Nat) (m : State) :
    exec (.slotLaunch port slot) m = execSlotLaunch port slot m := rfl
theorem exec_flitPresent (port slot : Nat) (m : State) :
    exec (.flitPresent port slot) m = execFlitPresent port slot m := rfl
theorem exec_flitLanding (port : Nat) (m : State) :
    exec (.flitLanding port) m = execFlitLanding port m := rfl
theorem exec_relayLaunch (port slot : Nat) (m : State) :
    exec (.relayLaunch port slot) m = execRelayLaunch port slot m := rfl
theorem exec_patchOrder (msg : Msg) (m : State) :
    exec (.patchOrder msg) m = execPatchOrder msg m := rfl
theorem exec_dronePathClose (cause : CloseCause) (m : State) :
    exec (.dronePathClose cause) m = execDronePathClose cause m := rfl
theorem exec_coldTraining (port : Nat) (env : TrainEnv) (m : State) :
    exec (.coldTraining port env) m = execColdTraining port env m := rfl
theorem exec_coldTrainingRetry (retry : Retry) (m : State) :
    exec (.coldTrainingRetry retry) m = execColdTrainingRetry retry m := rfl
theorem exec_trainingRecord (port : Nat) (raw : BitVec 2304) (m : State) :
    exec (.trainingRecord port raw) m = execTrainingRecord port raw m := rfl
theorem exec_flitReceive (port : Nat) (raw : BitVec 2304) (fec : List FecCount) (m : State) :
    exec (.flitReceive port raw fec) m = execFlitReceive port raw fec m := rfl
theorem exec_replayTimer (port : Nat) (m : State) :
    exec (.replayTimer port) m = execReplayTimer port m := rfl
theorem exec_spareRequest (port : Nat) (msg : Msg) (m : State) :
    exec (.spareRequest port msg) m = execSpareRequest port msg m := rfl
theorem exec_spareGrant (port : Nat) (msg : Msg) (m : State) :
    exec (.spareGrant port msg) m = execSpareGrant port msg m := rfl
theorem exec_spareLockComplete (port : Nat) (m : State) :
    exec (.spareLockComplete port) m = execSpareLockComplete port m := rfl
theorem exec_spareDone (port : Nat) (msg : Msg) (m : State) :
    exec (.spareDone port msg) m = execSpareDone port msg m := rfl
theorem exec_retrainRequest (port : Nat) (msg : Msg) (m : State) :
    exec (.retrainRequest port msg) m = execRetrainRequest port msg m := rfl
theorem exec_retrainGrant (port : Nat) (msg : Msg) (m : State) :
    exec (.retrainGrant port msg) m = execRetrainGrant port msg m := rfl
theorem exec_quietStart (port : Nat) (m : State) :
    exec (.quietStart port) m = execQuietStart port m := rfl
theorem exec_relockComplete (port delay16 rtt : Nat) (m : State) :
    exec (.relockComplete port delay16 rtt) m = execRelockComplete port delay16 rtt m := rfl
theorem exec_resync (port : Nat) (msg : Msg) (ack : BitVec 12) (m : State) :
    exec (.resync port msg ack) m = execResync port msg ack m := rfl
theorem exec_retrainTimeout (port : Nat) (m : State) :
    exec (.retrainTimeout port) m = execRetrainTimeout port m := rfl
theorem exec_linkWithdraw (port : Nat) (msg : Msg) (m : State) :
    exec (.linkWithdraw port msg) m = execLinkWithdraw port msg m := rfl
theorem exec_downNotice (port : Nat) (msg : Msg) (m : State) :
    exec (.downNotice port msg) m = execDownNotice port msg m := rfl
theorem exec_noValidFlitTimeout (port : Nat) (m : State) :
    exec (.noValidFlitTimeout port) m = execNoValidFlitTimeout port m := rfl
theorem exec_linkRetrainWrite (port : Nat) (value : Word) (m : State) :
    exec (.linkRetrainWrite port value) m = execLinkRetrainWrite port value m := rfl
theorem exec_injectionControlWrite (port offset : Nat) (value : Word) (m : State) :
    exec (.injectionControlWrite port offset value) m = execInjectionControlWrite port offset value m := rfl
theorem exec_requestAdmit (n u : Nat) (source : TrackerRead) (m : State) :
    exec (.requestAdmit n u source) m = execRequestAdmit n u source m := rfl
theorem exec_packetRoute (port vc : Nat) (m : State) :
    exec (.packetRoute port vc) m = execPacketRoute port vc m := rfl
theorem exec_requestPacketArrival (pkt : Packet) (ecc : Eccs) (m : State) :
    exec (.requestPacketArrival pkt ecc) m = execRequestPacketArrival pkt ecc m := rfl
theorem exec_responseArrival (pkt : Packet) (m : State) :
    exec (.responseArrival pkt) m = execResponseArrival pkt m := rfl
theorem exec_attemptTimer (n u tracker : Nat) (m : State) :
    exec (.attemptTimer n u tracker) m = execAttemptTimer n u tracker m := rfl
theorem exec_requestDeadline (n u tracker : Nat) (m : State) :
    exec (.requestDeadline n u tracker) m = execRequestDeadline n u tracker m := rfl
theorem exec_dedupEntryFree (isPut : Bool) (index : Nat) (m : State) :
    exec (.dedupEntryFree isPut index) m = execDedupEntryFree isPut index m := rfl
theorem exec_routeInstall (msg : Msg) (m : State) :
    exec (.routeInstall msg) m = execRouteInstall msg m := rfl
theorem exec_routeReady (msg : Msg) (m : State) :
    exec (.routeReady msg) m = execRouteReady msg m := rfl
theorem exec_routeFlip (msg : Msg) (m : State) :
    exec (.routeFlip msg) m = execRouteFlip msg m := rfl
theorem exec_epochFlip (m : State) : exec .epochFlip m = execEpochFlip m := rfl
theorem exec_epochRetire (m : State) : exec .epochRetire m = execEpochRetire m := rfl
theorem exec_timIncrWrite (value : Word) (m : State) :
    exec (.timIncrWrite value) m = execTimIncrWrite value m := rfl
theorem exec_timPhaseWrite (value : Word) (m : State) :
    exec (.timPhaseWrite value) m = execTimPhaseWrite value m := rfl
theorem exec_timTrigWrite (value : Word) (m : State) :
    exec (.timTrigWrite value) m = execTimTrigWrite value m := rfl
theorem exec_refclkFail (clock : Nat) (m : State) :
    exec (.refclkFail clock) m = execRefclkFail clock m := rfl
theorem exec_timeSteerUpdate (m : State) : exec .timeSteerUpdate m = execTimeSteerUpdate m := rfl
theorem exec_holdoverTimeout (m : State) : exec .holdoverTimeout m = execHoldoverTimeout m := rfl
theorem exec_tlqArm (port entry : Nat) (value : Word) (m : State) :
    exec (.tlqArm port entry value) m = execTlqArm port entry value m := rfl
theorem exec_timedLaunch (port entry slot : Nat) (m : State) :
    exec (.timedLaunch port entry slot) m = execTimedLaunch port entry slot m := rfl
theorem exec_valveSwap (unit : BitVec 32) (m : State) :
    exec (.valveSwap unit) m = execValveSwap unit m := rfl
theorem exec_hoursMark (m : State) : exec .hoursMark m = execHoursMark m := rfl
theorem exec_suppressedRecordFlush (m : State) : exec .suppressedRecordFlush m = execSuppressedRecordFlush m := rfl
theorem exec_ledgerCompact (m : State) : exec .ledgerCompact m = execLedgerCompact m := rfl
theorem exec_stepReport (msg : Msg) (m : State) :
    exec (.stepReport msg) m = execStepReport msg m := rfl
theorem exec_commitDecision (m : State) : exec .commitDecision m = execCommitDecision m := rfl
theorem exec_commit (msg : Msg) (m : State) :
    exec (.commit msg) m = execCommit msg m := rfl
theorem exec_discard (msg : Msg) (m : State) :
    exec (.discard msg) m = execDiscard msg m := rfl
theorem exec_tagSweep (tag region : Nat) (m : State) :
    exec (.tagSweep tag region) m = execTagSweep tag region m := rfl
theorem exec_sweepDone (msg : Msg) (m : State) :
    exec (.sweepDone msg) m = execSweepDone msg m := rfl
theorem exec_replayOrder (msg : Msg) (m : State) :
    exec (.replayOrder msg) m = execReplayOrder msg m := rfl
theorem exec_digest (msg : Msg) (m : State) :
    exec (.digest msg) m = execDigest msg m := rfl
theorem exec_replayLimitExpiry (m : State) : exec .replayLimitExpiry m = execReplayLimitExpiry m := rfl
theorem exec_localisationTest (n cl record : Nat) (reproduced : Bool) (m : State) :
    exec (.localisationTest n cl record reproduced) m = execLocalisationTest n cl record reproduced m := rfl
theorem exec_heartbeat (msg : Msg) (m : State) :
    exec (.heartbeat msg) m = execHeartbeat msg m := rfl
theorem exec_heartbeatSend (m : State) : exec .heartbeatSend m = execHeartbeatSend m := rfl
theorem exec_leadLossTimeout (m : State) : exec .leadLossTimeout m = execLeadLossTimeout m := rfl
theorem exec_heartbeatLossTimeout (package : Nat) (m : State) :
    exec (.heartbeatLossTimeout package) m = execHeartbeatLossTimeout package m := rfl
theorem exec_faultReport (msg : Msg) (m : State) :
    exec (.faultReport msg) m = execFaultReport msg m := rfl
theorem exec_abort (msg : Msg) (m : State) :
    exec (.abort msg) m = execAbort msg m := rfl
theorem exec_restart (msg : Msg) (m : State) :
    exec (.restart msg) m = execRestart msg m := rfl
theorem exec_packageLost (package : Nat) (m : State) :
    exec (.packageLost package) m = execPackageLost package m := rfl
theorem exec_promote (msg : Msg) (m : State) :
    exec (.promote msg) m = execPromote msg m := rfl
theorem exec_eventSuppressSummary (m : State) : exec .eventSuppressSummary m = execEventSuppressSummary m := rfl
theorem exec_healthDigestUpdate (m : State) : exec .healthDigestUpdate m = execHealthDigestUpdate m := rfl
theorem exec_authTagSend (port : Nat) (m : State) :
    exec (.authTagSend port) m = execAuthTagSend port m := rfl
theorem exec_authTag (port : Nat) (msg : Msg) (ok : Bool) (m : State) :
    exec (.authTag port msg ok) m = execAuthTag port msg ok m := rfl
theorem exec_tagRequest (msg : Msg) (m : State) :
    exec (.tagRequest msg) m = execTagRequest msg m := rfl
theorem exec_authTagTimeout (port : Nat) (m : State) :
    exec (.authTagTimeout port) m = execAuthTagTimeout port m := rfl
theorem exec_sessionTimeout (session : BitVec 64) (m : State) :
    exec (.sessionTimeout session) m = execSessionTimeout session m := rfl
theorem exec_powerOnReset (m : State) : exec .powerOnReset m = execPowerOnReset m := rfl
theorem exec_pinReset (m : State) : exec .pinReset m = execPinReset m := rfl
theorem exec_thermalReset (m : State) : exec .thermalReset m = execThermalReset m := rfl
theorem exec_bocalFailover (m : State) : exec .bocalFailover m = execBocalFailover m := rfl
theorem exec_fieldControllerError (field : Nat) (m : State) :
    exec (.fieldControllerError field) m = execFieldControllerError field m := rfl
theorem exec_ctlForward (routing : BitVec 128) (msgs : List Msg) (m : State) :
    exec (.ctlForward routing msgs) m = execCtlForward routing msgs m := rfl
theorem exec_ctlBroadcastForward (routing : BitVec 128) (msgs : List Msg) (m : State) :
    exec (.ctlBroadcastForward routing msgs) m = execCtlBroadcastForward routing msgs m := rfl
theorem exec_ctlDropTimeout (m : State) : exec .ctlDropTimeout m = execCtlDropTimeout m := rfl
theorem exec_admitNoticeMessage (msg : Msg) (m : State) :
    exec (.admitNoticeMessage msg) m = execAdmitNoticeMessage msg m := rfl
theorem exec_admissionOpen (m : State) : exec .admissionOpen m = execAdmissionOpen m := rfl
theorem exec_admitted (m : State) : exec .admitted m = execAdmitted m := rfl
theorem exec_admissionTimeout (m : State) : exec .admissionTimeout m = execAdmissionTimeout m := rfl
theorem exec_imageReady (msg : Msg) (m : State) :
    exec (.imageReady msg) m = execImageReady msg m := rfl
theorem exec_breath0LoadDone (m : State) : exec .breath0LoadDone m = execBreath0LoadDone m := rfl
theorem exec_startOrder (msg : Msg) (m : State) :
    exec (.startOrder msg) m = execStartOrder msg m := rfl
theorem exec_withdrawNotice (msg : Msg) (m : State) :
    exec (.withdrawNotice msg) m = execWithdrawNotice msg m := rfl
theorem exec_withdrawClose (m : State) : exec .withdrawClose m = execWithdrawClose m := rfl
theorem exec_objRead (req : Brq) (object index offset length : Nat) (m : State) :
    exec (.objRead req object index offset length) m = execObjRead req object index offset length m := rfl
theorem exec_objWrite (req : Brq) (object index offset : Nat) (chunk : ObjChunk) (m : State) :
    exec (.objWrite req object index offset chunk) m = execObjWrite req object index offset chunk m := rfl
theorem exec_objCommit (req : Brq) (object index total : Nat) (verdict : Verdict) (m : State) :
    exec (.objCommit req object index total verdict) m = execObjCommit req object index total verdict m := rfl
theorem exec_objDiscard (req : Brq) (object index : Nat) (m : State) :
    exec (.objDiscard req object index) m = execObjDiscard req object index m := rfl
theorem exec_makeReport (req : Brq) (nonce : BitVec 256) (m : State) :
    exec (.makeReport req nonce) m = execMakeReport req nonce m := rfl
theorem exec_sessionOpen (req : Brq) (owner : Bool) (record : Nat) (sid : BitVec 64) (challenge next : BitVec 256) (verdict : Verdict) (m : State) :
    exec (.sessionOpen req owner record sid challenge next verdict) m = execSessionOpen req owner record sid challenge next verdict m := rfl
theorem exec_sessionClose (req : Brq) (m : State) :
    exec (.sessionClose req) m = execSessionClose req m := rfl
theorem exec_timePoll (req : Brq) (arrival departure : Beat) (m : State) :
    exec (.timePoll req arrival departure) m = execTimePoll req arrival departure m := rfl
theorem exec_timeSteer (req : Brq) (writeIncr writePhase : Bool) (incr phase : Word) (m : State) :
    exec (.timeSteer req writeIncr writePhase incr phase) m = execTimeSteer req writeIncr writePhase incr phase m := rfl
theorem exec_eventAck (req : Brq) (seq : Nat) (m : State) :
    exec (.eventAck req seq) m = execEventAck req seq m := rfl
theorem exec_regRead (req : Brq) (addr : Nat) (m : State) :
    exec (.regRead req addr) m = execRegRead req addr m := rfl
theorem exec_regWrite (req : Brq) (addr : Nat) (value : Word) (m : State) :
    exec (.regWrite req addr value) m = execRegWrite req addr value m := rfl
theorem exec_admitRequest (req : Brq) (beat : Beat) (m : State) :
    exec (.admitRequest req beat) m = execAdmitRequest req beat m := rfl
theorem exec_admitNotice (req : Brq) (joiner : Nat) (beat : Beat) (m : State) :
    exec (.admitNotice req joiner beat) m = execAdmitNotice req joiner beat m := rfl
theorem exec_withdraw (req : Brq) (m : State) :
    exec (.withdraw req) m = execWithdraw req m := rfl
theorem exec_start (req : Brq) (t0 : Beat) (m : State) :
    exec (.start req t0) m = execStart req t0 m := rfl
theorem exec_stop (req : Brq) (m : State) :
    exec (.stop req) m = execStop req m := rfl
theorem exec_decide (req : Brq) (step choice : Nat) (m : State) :
    exec (.decide req step choice) m = execDecide req step choice m := rfl
theorem exec_update (req : Brq) (slot : Nat) (m : State) :
    exec (.update req slot) m = execUpdate req slot m := rfl
theorem exec_confirm (req : Brq) (m : State) :
    exec (.confirm req) m = execConfirm req m := rfl
theorem exec_reset (req : Brq) (m : State) :
    exec (.reset req) m = execReset req m := rfl
theorem exec_toneRun (req : Brq) (pack : Nat) (m : State) :
    exec (.toneRun req pack) m = execToneRun req pack m := rfl
theorem exec_ckptRead (req : Brq) (addr length : Nat) (m : State) :
    exec (.ckptRead req addr length) m = execCkptRead req addr length m := rfl
theorem exec_entdaa (address : BitVec 7) (m : State) :
    exec (.entdaa address) m = execEntdaa address m := rfl
theorem exec_rstdaa (m : State) : exec .rstdaa m = execRstdaa m := rfl
theorem exec_setnewda (address : BitVec 7) (m : State) :
    exec (.setnewda address) m = execSetnewda address m := rfl
theorem exec_getpid (m : State) : exec .getpid m = execGetpid m := rfl
theorem exec_getbcr (m : State) : exec .getbcr m = execGetbcr m := rfl
theorem exec_getdcr (m : State) : exec .getdcr m = execGetdcr m := rfl
theorem exec_getstatus (m : State) : exec .getstatus m = execGetstatus m := rfl
theorem exec_enec (events : BitVec 8) (m : State) :
    exec (.enec events) m = execEnec events m := rfl
theorem exec_disec (events : BitVec 8) (m : State) :
    exec (.disec events) m = execDisec events m := rfl
theorem exec_i3cPrivateWrite (bytes : List Byte) (m : State) :
    exec (.i3cPrivateWrite bytes) m = execI3cPrivateWrite bytes m := rfl
theorem exec_i3cPrivateRead (count : Nat) (m : State) :
    exec (.i3cPrivateRead count) m = execI3cPrivateRead count m := rfl
theorem exec_mirrorRefresh (m : State) : exec .mirrorRefresh m = execMirrorRefresh m := rfl
theorem exec_pwrGoodDeassert (m : State) : exec .pwrGoodDeassert m = execPwrGoodDeassert m := rfl
theorem exec_inputOutOfRange (m : State) : exec .inputOutOfRange m = execInputOutOfRange m := rfl
theorem exec_lowInput (m : State) : exec .lowInput m = execLowInput m := rfl
theorem exec_powerControlUpdate (average : Nat) (m : State) :
    exec (.powerControlUpdate average) m = execPowerControlUpdate average m := rfl
theorem exec_thermalSample (field temp : Nat) (m : State) :
    exec (.thermalSample field temp) m = execThermalSample field temp m := rfl
theorem exec_openFibreControl (port : Nat) (signals : BitVec 9) (m : State) :
    exec (.openFibreControl port signals) m = execOpenFibreControl port signals m := rfl
theorem exec_bocPowerCfgWrite (value : Word) (m : State) :
    exec (.bocPowerCfgWrite value) m = execBocPowerCfgWrite value m := rfl
theorem exec_resetRelease (env : BootEnv) (m : State) :
    exec (.resetRelease env) m = execResetRelease env m := rfl
theorem exec_referenceClockTick (m : State) : exec .referenceClockTick m = execReferenceClockTick m := rfl
theorem exec_dronePathFullyOpen (pair : Nat) (m : State) :
    exec (.dronePathFullyOpen pair) m = execDronePathFullyOpen pair m := rfl
theorem exec_dronePathFullyClosed (pair : Nat) (m : State) :
    exec (.dronePathFullyClosed pair) m = execDronePathFullyClosed pair m := rfl
theorem exec_testAccessPortInstruction (instr : TapInstr) (m : State) :
    exec (.testAccessPortInstruction instr) m = execTestAccessPortInstruction instr m := rfl

end Sys2Proof.Machine
end

