-- ==== Sys2Proof/Laws/Issue.lean ====
section
/-! SUPPORT. What issuing an instruction does, said once: on a logical core whose island issues it leaves the machine as
`State.issued` or `State.issuedJump` say, and on a control core it adds its writes to the open bundle. -/

namespace Sys2Proof.Machine

theorem portConflict_of_noStore (fl : List Flight) (effs : List (Nat × Eff))
    (h : ∀ p ∈ effs, ∀ a b g, p.2 ≠ .store a b g) : portConflict fl effs = false := by
  unfold portConflict
  rw [List.any_eq_false]
  intro p hp
  have := h p hp
  split
  · exact absurd ‹_› (this _ _ _)
  · simp

/-- The issue cycles that pass before an instruction that reaches its turn. -/
theorem Reaches.advOf {s t : State} {sl : Slot} {slot n u : Nat} (h : Reaches s t sl slot n u) {op : Op}
    (h1 : op.sl = sl) (h2 : op.slot = slot) : s.advOf n u op = sl.adv := by
  have hc : ¬(op.sl.adv = 0 ∧ (s.core n u).open_ = true ∧ (s.core n u).slots.contains op.slot = true) := by
    rintro ⟨h3, h4, h5⟩
    rw [h1] at h3
    rw [h2] at h5
    exact h.apart h3 h4 (List.contains_iff_mem.mp h5)
  simp only [State.advOf, h.free.2.1]
  rw [if_neg hc, h1]

/-- An instruction that reaches its turn issues at the state it reaches. -/
theorem Reaches.issues {s t : State} {sl : Slot} {slot n u : Nat} (h : Reaches s t sl slot n u) {op : Op}
    (h1 : op.sl = sl) (h2 : op.slot = slot) (cl : Bool) (cb : State → CtlCore → CtlBody) :
    issue s op cl cb = .next (t.issueNow n u op) := by
  have hsk : s.unskip n = s := by simp [State.unskip, h.free.2.1]
  simp only [issue, h1, h.site, h.here, if_true]
  simp only [State.issueCore, h.advOf h1 h2, h.free.1, hsk, h.reached, h.still.1, h.still.2.2.2, List.isEmpty_nil,
    Bool.not_true, Bool.false_eq_true, if_false]

/-- What issuing comes to once the turn is reached: the causes of a fault that the slot brings, and the predicate. -/
theorem Reaches.issueNow {s t : State} {sl : Slot} {slot n u : Nat} (h : Reaches s t sl slot n u) {op : Op}
    (h1 : op.sl = sl) :
    t.issueNow n u op =
      (if (t.ctx n u sl).causes op ≠ [] then t.slotFaulted (t.ctx n u sl) op ((t.ctx n u sl).causes op)
       else if !(t.core n u).rp sl.pred then
         t.setCore n u (((t.core n u).openSlot op.i sl op.slot op.dests).launch (t.ctx n u sl).fetchEffs)
       else t.takeBody (t.ctx n u sl) op) := by
  subst h1
  have hrun : ¬((t.core n u).run = .ended ∨ ((t.core n u).run = .idle ∧ t.getF (aIslBreath n) F.islBreath_state = 1)) := by
    rintro (hh | ⟨h5, h6⟩)
    · rcases h.live with h7 | h7 <;> simp_all
    · rcases h.live with h7 | h7 <;> simp_all
  have hrun2 : ¬((t.core n u).run = .faulted ∧ ((t.core n u).causes = [] ∨
      ((t.core n u).causes.any fun k => decide (k.kind = .fetch)) = true)) := by
    rintro ⟨hh, -⟩
    rcases h.live with h7 | h7 <;> simp_all
  simp only [State.issueNow]
  rw [if_neg hrun, if_neg hrun2, h.fetched]
  simp only [h.whole, ne_eq, not_true_eq_false, false_or]

/-- An encoding that is legal, in a bundle that holds nothing reserved and names its destinations once, brings no cause of a fault by itself. -/
theorem Runs.lawful {s t : State} {sl : Slot} {slot : Nat} {d : List Nat} {n u : Nat} (h : Runs s t sl slot d n u) {op : Op}
    (h1 : op.sl = sl) (h2 : op.slot = slot) (h3 : op.dests = d) (hl : op.legal = true) : (t.ctx n u sl).illegal op = [] := by
  have hg : ¬(((t.ctx n u sl).c.open_ = false ∧ 8 ≤ (t.ctx n u sl).c.group) ∨ sl.hdr ≠ 0) := by
    rintro (⟨h4, h5⟩ | h4)
    · rcases h.group with h6 | h6
      · simp [State.ctx, h6] at h4
      · simp only [State.ctx] at h5; omega
    · exact h4 h.clean.2.1
  have hr : ¬(op.legal = false ∨ sl.res = true) := by simp [hl, h.clean.2.2]
  have hd : dupDest (t.ctx n u sl).c.dests slot d = false := h.single
  simp only [Ctx.illegal, h1, h2, h3, if_neg hg, if_neg hr, hd, Bool.false_eq_true, if_false, List.append_nil]

/-- An instruction that runs takes its body up, when that brings no cause of a fault. -/
theorem Runs.takes {s t : State} {sl : Slot} {slot : Nat} {d : List Nat} {n u : Nat} (h : Runs s t sl slot d n u) {op : Op}
    (h1 : op.sl = sl) (h2 : op.slot = slot) (h3 : op.dests = d) (hl : op.legal = true)
    (hb : (t.ctx n u sl).bodyCauses slot (op.body (t.ctx n u sl)) = []) (cl : Bool)
    (cb : State → CtlCore → CtlBody) : issue s op cl cb = .next (t.takeBody (t.ctx n u sl) op) := by
  rw [h.toReaches.issues h1 h2, h.toReaches.issueNow h1]
  have hc : (t.ctx n u sl).causes op = [] := by
    simp only [Ctx.causes, h.lawful h1 h2 h3 hl, h2, hb, ite_self, List.append_nil]
  simp only [hc, ne_eq, not_true_eq_false, if_false, h.pred, Bool.not_true, Bool.false_eq_true]

/-- Nothing of a sound slot whose bundle is fetched clean is left to count. -/
theorem Runs.quiet {s t : State} {sl : Slot} {slot : Nat} {d : List Nat} {n u : Nat} (h : Runs s t sl slot d n u) :
    (t.ctx n u sl).fetchEffs = [] ∧ ∀ k cap, (t.ctx n u sl).checkEffs k cap = [] := by
  have h1 : (t.ctx n u sl).sl = sl := rfl
  constructor
  · simp [Ctx.fetchEffs, h1, h.clean.1]
  · intro k cap
    simp [Ctx.checkEffs, h1, h.sound]

/-- What an instruction that runs with effects leaves. -/
theorem Runs.issued {s t : State} {sl : Slot} {slot : Nat} {d : List Nat} {n u : Nat} (h : Runs s t sl slot d n u) {op : Op}
    (h1 : op.sl = sl) (h2 : op.slot = slot) (h3 : op.dests = d) (hl : op.legal = true) {effs : List (Nat × Eff)}
    {cap : List (Nat × Nat)} (hb : op.body (t.ctx n u sl) = .ok effs cap)
    (hp : portConflict (t.core n u).flight effs = false) (cl : Bool) (cb : State → CtlCore → CtlBody) :
    issue s op cl cb = .next (t.issued op.i sl slot d n u effs) := by
  have hc : (t.ctx n u sl).c = t.core n u := rfl
  rw [h.takes h1 h2 h3 hl (by simp [Ctx.bodyCauses, hb, hc, hp]) cl cb]
  simp only [State.takeBody, hb, h.quiet.1, h.quiet.2, hc, h1, h2, h3, List.append_nil]
  rfl

/-- What an instruction that runs and takes a transfer leaves. -/
theorem Runs.issuedJump {s t : State} {sl : Slot} {slot : Nat} {d : List Nat} {n u : Nat} (h : Runs s t sl slot d n u) {op : Op}
    (h1 : op.sl = sl) (h2 : op.slot = slot) (h3 : op.dests = d) (hl : op.legal = true) {effs : List (Nat × Eff)}
    {target : Nat} (hb : op.body (t.ctx n u sl) = .jump effs target) (ht : (t.core n u).taken = none)
    (hp : portConflict (t.core n u).flight effs = false) (cl : Bool) (cb : State → CtlCore → CtlBody) :
    issue s op cl cb = .next (t.issuedJump op.i sl slot d n u effs target) := by
  have hc : (t.ctx n u sl).c = t.core n u := rfl
  rw [h.takes h1 h2 h3 hl (by simp [Ctx.bodyCauses, hb, hc, hp, ht]) cl cb]
  simp only [State.takeBody, hb, h.quiet.1, h.quiet.2, hc, h1, h2, h3, List.append_nil]
  rfl

end Sys2Proof.Machine
end

