-- ==== Sys2Proof/Tests/Slice0.lean ====
section
/-! SUPPORT. Small checks: commands that name no unit are ill-formed; for every statement with hypotheses a machine and operands that meet
them together; and one step of some commands, with results worked out by hand from the spec. -/

namespace Sys2Proof.Tests

open Sys2Proof Sys2Proof.Machine

set_option Elab.async false

/-! ### Well-formed commands -/

/-- The header of a slot of core `u` of island `n`, in the bundle at hand. -/
def slotOf (n u : Nat) : Slot := ⟨.core n u, 0, 0, false, 0, .clean, false, 0, .clean⟩

/-- The header of a slot of control core `k`. -/
def ctlSlot (k : Nat) : Slot := ⟨.ctl k, 0, 0, false, 0, .clean, false, 0, .clean⟩

theorem test_wellFormed_core :
    wellFormed (.wswap (slotOf 319 959)) = true ∧ wellFormed (.wswap (slotOf 320 0)) = false ∧
    wellFormed (.wswap (slotOf 0 960)) = false ∧ wellFormed (.wswap (ctlSlot 3)) = true ∧ wellFormed (.wswap (ctlSlot 4)) = false := by decide

theorem test_wellFormed_accumulator :
    wellFormed (.vfma (slotOf 0 0) 0 1 2 3 5 0 0) = true ∧ wellFormed (.vfma (slotOf 0 0) 0 1 2 3 6 0 0) = false ∧
    wellFormed (.vsel (slotOf 0 0) 0 1 2 3 5) = true ∧ wellFormed (.vsel (slotOf 0 0) 0 1 2 3 6) = false := by decide

theorem test_wellFormed_island :
    wellFormed (.islandBreathComplete 319) = true ∧ wellFormed (.islandBreathComplete 320) = false ∧
    wellFormed (.stallTimeout 320 1) = false ∧ wellFormed (.landingInputRelease ⟨320, false⟩) = false ∧
    wellFormed (.islandResetRequest 320 1) = false ∧ wellFormed (.distributorTile ⟨320, false⟩) = false ∧
    wellFormed (.droopStretch 0 0) = false ∧ wellFormed (.droopStretch 0 4) = true ∧ wellFormed (.droopStretch 0 5) = false := by decide

theorem test_wellFormed_switch :
    wellFormed (.routeWord 319 15 0 0) = true ∧ wellFormed (.routeWord 0 16 0 0) = false ∧ wellFormed (.idleWord 320 0 0 0) = false ∧
    wellFormed (.localisationTest 0 0 3 true) = true ∧ wellFormed (.localisationTest 0 0 4 true) = false := by decide

theorem test_wellFormed_crossing :
    wellFormed (.crossingEntryVisible 0 15 false) = true ∧ wellFormed (.crossingEntryVisible 0 16 false) = false ∧
    wellFormed (.crossingFreeIndication 0 16) = false ∧ wellFormed (.tileScrub 0 0 3071 .clean) = true ∧
    wellFormed (.tileScrub 0 0 3072 .clean) = false := by decide

theorem test_wellFormed_tier :
    wellFormed (.lpddrRewrite 7 15) = true ∧ wellFormed (.lpddrRewrite 8 0) = false ∧ wellFormed (.lpddrRewrite 0 16) = false ∧
    wellFormed (.lpddrOverLimitTrip 15) = true ∧ wellFormed (.lpddrOverLimitTrip 16) = false ∧
    wellFormed (.stmEnd 127) = true ∧ wellFormed (.stmEnd 128) = false ∧ wellFormed (.thermalSample 8 0) = false := by decide

theorem test_wellFormed_port :
    wellFormed (.slotLaunch 47 0) = true ∧ wellFormed (.slotLaunch 48 0) = false ∧
    wellFormed (.injectionControlWrite 0 0x8220 0) = true ∧ wellFormed (.injectionControlWrite 0 0x8228 0) = false ∧
    wellFormed (.injectionControlWrite 0 0x8204 0) = false ∧ wellFormed (.tlqArm 0 3 0) = true ∧ wellFormed (.tlqArm 0 4 0) = false := by decide

theorem test_wellFormed_memory :
    wellFormed (.requestAdmit 0 0 ⟨15, []⟩) = true ∧ wellFormed (.requestAdmit 0 0 ⟨16, []⟩) = false ∧
    wellFormed (.packetRoute 48 5) = true ∧ wellFormed (.packetRoute 49 0) = false ∧ wellFormed (.packetRoute 0 6) = false := by decide

theorem test_wellFormed_package :
    wellFormed (.refclkFail 1) = true ∧ wellFormed (.refclkFail 2) = false ∧ wellFormed (.tagSweep 0 0) = false ∧
    wellFormed (.tagSweep 3 0) = true ∧ wellFormed (.tagSweep 4 0) = false ∧ wellFormed (.packageLost 16383) = true ∧
    wellFormed (.packageLost 16384) = false ∧ wellFormed (.dronePathFullyOpen 23) = true ∧
    wellFormed (.dronePathFullyOpen 24) = false := by decide

/-! ### Witnesses: instructions of a logical core -/

/-- A core with both weight stages full in format 9, a full last mailbox entry, two quarters in the last put channel and three in the one
before, all trackers but the last in use, and scalars for operands at the ends of their ranges. -/
def armed : Core :=
  { Core.reset with
    w0 := ⟨0, 0, 9, true, true, true⟩, w1 := ⟨0, 0, 9, true, true, true⟩
    mbx := [(63, ⟨5, true, 0⟩)], chans := [(6, ⟨[0, 0, 0], 0⟩), (7, ⟨[0, 0], 0⟩)]
    trk := (List.range 15).map fun k => (k, some ⟨0, 0, 0, 8, 0, 0⟩)
    sregs := [(1, 0xFFFFFC00), (2, 1023), (3, 0x27FC0), (4, 0xFFFFFF00), (5, 0x00FFFFFF), (6, 0x27F00), (7, 256), (8, 163840),
      (9, 0x7FF), (10, 0x27C00), (11, 0x27FF8), (12, 0x27FF0), (13, 0x27FE0), (14, 0x27E0C7F8), (15, 0x380)] }

/-- The machine after reset with core 959 of island 319 so, its last two channels bound. -/
def armedState : State :=
  ((State.reset.setCore 319 959 armed).setF (aIslPutBind 319 959 7) F.islPutBind_valid 1).setF (aIslPutBind 319 959 6) F.islPutBind_valid 1

/-- The core as that machine holds it. -/
def armedCore : Core := armedState.core 319 959

/-- The header of its instructions. -/
def armedSlot : Slot := slotOf 319 959

/-- Whether an instruction with header `sl` runs in `slot` of its core at `s`, in the bundle at hand. -/
def runsHere (s : State) (sl : Slot) (slot : Nat) (dests : List Nat) (n u : Nat) : Bool :=
  decide (sl.site = .core n u) && s.hasCore n u && decide ((s.island n).stalls = []) && decide ((s.island n).skip = none) &&
  !s.brt.aborted && !(s.island n).halted && decide (sl.adv = 0) && !(s.core n u).open_ &&
  (decide ((s.core n u).run = .issuing) || decide ((s.core n u).run = .idle) && decide (s.getF (aIslBreath n) F.islBreath_state ≠ 1)) &&
  decide ((s.ctx n u sl).fetchFault = none) && decide (sl.fetch = .clean ∧ sl.hdr = 0 ∧ sl.res = false) &&
  decide ((s.core n u).group < 8) && decide ((s.core n u).causes = []) &&
  !dupDest (s.core n u).dests slot dests && (s.core n u).rp sl.pred && decide (sl.chk = 0)

theorem runs_of {s : State} {sl : Slot} {slot : Nat} {dests : List Nat} {n u : Nat} (h : runsHere s sl slot dests n u = true) :
    Runs s s sl slot dests n u := by
  simp only [runsHere, Bool.and_eq_true, Bool.or_eq_true, decide_eq_true_eq, Bool.not_eq_true'] at h
  obtain ⟨⟨⟨⟨⟨⟨⟨⟨⟨⟨⟨⟨⟨⟨⟨h1, h2⟩, h3⟩, h4⟩, h5⟩, hh⟩, h6⟩, h7⟩, h8⟩, h9⟩, hc⟩, hg⟩, hw⟩, h10⟩, h11⟩, h12⟩ := h
  exact ⟨⟨h1, h2, ⟨h3, h4, h5, hh⟩, fun _ h => by simp [h7] at h, by rw [h6]; rfl, ⟨h3, h4, h5, hh⟩, h8, h9, hc, .inr hg, hw⟩, h10, h11, h12⟩

theorem witness_runs_after_reset : Runs State.reset State.reset (slotOf 0 0) slotS [dS 31] 0 0 := runs_of (by decide +kernel)

/-- The last core of the last island, with every kind of destination. -/
theorem witness_runs (slot : Nat) (dests : List Nat) : Runs armedState armedState armedSlot slot dests 319 959 :=
  have r : Runs armedState armedState armedSlot 0 [] 319 959 := runs_of (by decide +kernel)
  have o : (armedState.core 319 959).open_ = false := by decide +kernel
  have d : (armedState.core 319 959).dests = [] := by decide +kernel
  ⟨⟨r.site, r.here, r.free, fun _ h => by simp [o] at h, r.reached, r.still, r.live, r.fetched, r.clean, r.group, r.whole⟩, by rw [d]; rfl,
    r.pred, r.sound⟩

/-- An instruction that opens the next bundle, after the issue cycle in which the last one delivered. -/
theorem witness_runs_later :
    let s := State.reset.issued (.movi (slotOf 0 0) 31 0 7) (slotOf 0 0) slotS [dS 31] 0 0 [(1, .setS 31 7)]
    let t := s.issueCycle 0
    Runs s t { slotOf 0 0 with adv := 1 } slotS [dS 31] 0 0 ∧ (t.core 0 0).rs 31 = 7 := by
  refine ⟨⟨⟨rfl, by decide +kernel, ⟨by decide +kernel, by decide +kernel, by decide +kernel, by decide +kernel⟩, nofun, ?_,
    ⟨by decide +kernel, by decide +kernel, by decide +kernel, by decide +kernel⟩, by decide +kernel, by decide +kernel, ⟨rfl, rfl, rfl⟩,
    by decide +kernel, by decide +kernel⟩, by decide +kernel, by decide +kernel, rfl⟩, by decide +kernel⟩
  exact Prod.ext (by rfl) (by rfl)

theorem no_flight : armedCore.flight = [] := by decide +kernel

theorem port_free (lat : Nat) : armedCore.portFree lat := by
  intro f h
  rw [no_flight] at h
  cases h

theorem witness_ScalarAndPredicateOps :
    Runs armedState armedState armedSlot slotS [dS 31] 319 959 ∧ Runs armedState armedState armedSlot slotS [dP 7] 319 959 ∧
    (31#16).toNat < 32 := ⟨witness_runs _ _, witness_runs _ _, by decide⟩

theorem witness_TransfersAndSpecialRegisters :
    Runs armedState armedState armedSlot slotS [] 319 959 ∧ Runs armedState armedState armedSlot slotS [dS 31] 319 959 ∧
    Runs armedState armedState armedSlot slotS [dSpecial 9] 319 959 ∧ armedCore.taken = none ∧
    armedCore.wldInFlight = false ∧ armedCore.idleStage.full = true ∧ (3 ≤ (3#5).toNat ∧ (3#5).toNat ≤ 6) ∧ (3 ≤ (6#5).toNat ∧ (6#5).toNat ≤ 6) :=
  ⟨witness_runs _ _, witness_runs _ _, witness_runs _ _, by decide +kernel⟩

theorem witness_AccumulatorOps_mma :
    Runs armedState armedState armedSlot slotM [128 + 31] 319 959 ∧ armedCore.activeStage.isEmpty = false ∧
    fmtPair 12 armedCore.activeStage.fmt = true ∧ (7#4).toNat < 8 :=
  ⟨witness_runs _ _, by decide +kernel⟩

theorem witness_AccumulatorOps_mma16 :
    let s := State.reset.setCore 0 0 { Core.reset with w0 := ⟨0, 0, 7, true, false, false⟩ }
    Runs s s (slotOf 0 0) slotM [128] 0 0 ∧ (s.core 0 0).activeStage.isEmpty = false ∧
    fmtPair 8 (s.core 0 0).activeStage.fmt = true ∧ fmtBits 8 = 16 :=
  ⟨runs_of (by decide +kernel), by decide +kernel⟩

theorem witness_AccumulatorOps_qclr :
    Runs armedState armedState armedSlot slotM ((List.range 32).map fun i => 128 + i) 319 959 ∧ (0#5).toNat ≤ (31#5).toNat ∧
    (1#11 = BitVec.ofNat 11 (1#5).toNat ∧ (armedCore.rs 1).toInt = -1024) ∧
    (2#11 = BitVec.ofNat 11 (2#5).toNat ∧ (armedCore.rs 2).toInt = 1023) :=
  ⟨witness_runs _ _, by decide +kernel⟩

/-- Each target at its last position, with a status pair and without; a store of the result at the end of tile memory. -/
theorem witness_AccumulatorOps_readouts :
    Runs armedState armedState armedSlot slotM (dV 31 :: statusDests 30) 319 959 ∧ Runs armedState armedState armedSlot slotM (statusDests 0) 319 959 ∧
    (readoutOk 0 0 2 false 31 30 0 = true ∧ readoutShape 0 0 = some (64, 0)) ∧
    (readoutOk 2 1 1 false 0 0 0 = true ∧ readoutShape 2 1 = some (32, 32)) ∧
    (readoutOk 3 3 2 true 31 30 0 = true ∧ readoutShape 3 3 = some (16, 48)) ∧
    (readoutOk 5 4 0 false 0 30 80 = true ∧ readoutShape 5 4 = some (32, 0)) ∧
    (readoutOk 6 1 0 false 0 0 80 = true ∧ readoutShape 6 1 = some (64, 0)) ∧
    ((armedCore.rs 3).toNat % 64 = 0 ∧ (armedCore.rs 3).toNat + 64 = tileSize) ∧ armedCore.portFree 4 ∧ armedCore.portFree 6 :=
  ⟨witness_runs _ _, witness_runs _ _, by decide, by decide, by decide, by decide, by decide, by decide +kernel, port_free _, port_free _⟩

theorem witness_AccumulatorOps_status :
    Runs armedState armedState armedSlot slotM [dS 30, dS 31] 319 959 ∧ (30#5).toNat % 2 = 0 ∧ (30#5 ≠ 0) ∧
    Runs armedState armedState armedSlot slotM [dS 31] 319 959 ∧ Runs armedState armedState armedSlot slotM [dV 31] 319 959 :=
  ⟨witness_runs _ _, by decide, by decide, witness_runs _ _, witness_runs _ _⟩

theorem witness_VectorOps :
    Runs armedState armedState armedSlot slotM [dV 31] 319 959 ∧ Runs armedState armedState armedSlot slotM [dS 31] 319 959 ∧
    Runs armedState armedState armedSlot slotM [dP 7] 319 959 ∧ (2#2 ≠ 3) ∧ (6#3).toNat < 7 ∧ (15#5).toNat < 16 :=
  ⟨witness_runs _ _, witness_runs _ _, witness_runs _ _, by decide, by decide, by decide⟩

/-- The last position of a format of each shape, saturation, and a plain format's second operand. -/
theorem witness_VectorFunctionsAndConversions :
    Runs armedState armedState armedSlot slotM [dV 31] 319 959 ∧
    ((1#3).toNat = (narrowShape 7).2.2 ∧ (7#3).toNat = (narrowShape 4).2.2 ∧ (3#3).toNat = (narrowShape 13).2.2 ∧
      (3#3).toNat = (narrowShape 0).2.2 ∧ (1#3).toNat = (narrowShape 9).2.2 ∧ fmtScaled 9 = true) ∧
    ((7#3).toNat ≤ (if regBits 4 = 4 then 7 else if regBits 4 = 16 then 1 else 3)) ∧
    ((1#3).toNat ≤ (if regBits 8 = 4 then 7 else if regBits 8 = 16 then 1 else 3)) :=
  ⟨witness_runs _ _, by decide, by decide, by decide⟩

/-- Accesses that end at the last byte of tile memory. -/
theorem witness_LoadsAndStores :
    (∀ dests, Runs armedState armedState armedSlot slotX dests 319 959) ∧ armedSlot.ecc ≠ .uncorrectable ∧
    (addrOf (armedCore.rs 3) (60#16).toInt = 0x27FFC ∧ armedState.readable 319 959 0x27FFC 4 4) ∧
    (addrOf (armedCore.rs 3) (63#16).toInt = 0x27FFF ∧ armedState.readable 319 959 0x27FFF 1 1) ∧
    (addrOf (armedCore.rs 3) (64 * (0#11).toInt) = 0x27FC0 ∧ armedState.readable 319 959 0x27FC0 64 64) ∧
    (addrOf (armedCore.rs 3) (64 * (0x400#11).toInt) = 0x17FC0 ∧ armedState.readable 319 959 0x17FC0 64 64) ∧
    (2#2).toNat < 3 ∧ (30#5).toNat % 2 = 0 ∧ armedCore.portFree 1 := by
  refine ⟨witness_runs _, by decide, ?_, ?_, ?_, ?_, by decide, by decide, port_free _⟩ <;>
    exact ⟨by decide +kernel, by decide, by decide, by decide +kernel⟩

theorem witness_LoadsAndStores_wld :
    Runs armedState armedState armedSlot slotX [] 319 959 ∧ armedState.swapStalls 319 959 = false ∧ armedCore.swapIssued = false ∧
    (armedState.island 319).fill = none ∧ armedCore.idleTag = some 9 ∧ fmtScaled 9 = true ∧ fmtBits 9 ≠ 16 ∧
    armedState.readable 319 959 (addrOf (armedCore.rs 13) (16#16).toInt) 16 16 ∧ (State.reset.core 0 0).idleTag = none :=
  ⟨witness_runs _ _, by decide +kernel, by decide +kernel, by decide +kernel, by decide +kernel, by decide, by decide,
    ⟨by decide +kernel, by decide +kernel, by decide +kernel⟩, by decide +kernel⟩

theorem witness_SendReceivePut :
    (∀ dests, Runs armedState armedState armedSlot slotX dests 319 959) ∧
    (∀ f ∈ armedCore.flight, f.left = 1 ∨ f.left = 2 → ∀ p, f.eff ≠ .present p) ∧ armedState.readable 319 959 0x27FC0 64 64 ∧
    (armedCore.rm 63).full = true ∧ armedState.getF (aIslPutBind 319 959 7) F.islPutBind_valid = 1 ∧
    ((Tbl.get Chan.empty armedCore.chans 7).quarters.length ≠ 3 ∧ (Tbl.get Chan.empty armedCore.chans 7).prov = armedCore.prov) ∧
    armedState.getF (aIslPutBind 319 959 6) F.islPutBind_valid = 1 ∧
    (Tbl.get Chan.empty armedCore.chans 6).quarters.length = 3 ∧
    (armedState.island 319).launchOut.length + armedState.putsUnderWay 319 < 4 := by
  refine ⟨witness_runs _, ?_, ⟨by decide, by decide, by decide +kernel⟩, by decide +kernel⟩
  intro f h
  rw [no_flight] at h
  cases h

/-- The last tracker, the last byte of the global address space and of tile memory, and the largest operations. -/
theorem witness_RemoteOps :
    Runs armedState armedState armedSlot slotX [] 319 959 ∧ (4#5).toNat % 2 = 0 ∧ (254#8).toNat ≠ 255 ∧
    (armedCore.rsPair 4).toNat = 2 ^ 56 - 256 ∧ armedCore.prov = 0 ∧ armedCore.freeTracker = some 15 ∧
    ((armedCore.rs 7).toNat = 256 ∧ (armedCore.rs 6).toNat + 256 = tileSize) ∧
    ((armedCore.rs 8).toNat = 163840 ∧ (armedCore.rs 0).toNat + 163840 ≤ tileSize) ∧
    ((armedCore.rs 9).toNat = 0x7FF ∧ (armedCore.rs 10).toNat + (0x7FF % 256 + 1) * 4 = tileSize) ∧
    ((armedCore.rs 11).toNat % 8 = 0 ∧ (armedCore.rs 11).toNat + 8 = tileSize) ∧
    ((armedCore.rs 12).toNat % 16 = 0 ∧ (armedCore.rs 12).toNat + 16 = tileSize) ∧
    ((armedCore.rsPair 14).toNat = aIslSync 319 255 ∧ armedState.isSyncAddr (aIslSync 319 255) = true) :=
  ⟨witness_runs _ _, by decide, by decide, by decide +kernel⟩

/-- A satisfied wait at the boundary, and a wait.cyc that comes too late. -/
theorem witness_CountersWaitsAndSteps :
    Runs State.reset State.reset (slotOf 0 0) slotX [] 0 0 ∧ Runs State.reset State.reset (slotOf 0 0) slotX [dS 31] 0 0 ∧
    Runs State.reset State.reset (slotOf 0 0) slotX [dSpecial 1] 0 0 ∧ Runs State.reset State.reset (slotOf 0 0) slotX [dSpecial 8] 0 0 ∧
    (BitVec.ofNat 32 (State.reset.getF (aIslSync 0 255) F.islSync_value) - (State.reset.core 0 0).rs 0).toInt = 0 ∧
    (BitVec.ofNat 32 (State.reset.getF (aCrpCc 4095) F.crpCc_value) - (State.reset.core 0 0).rs 0).toInt = 0 ∧
    (∀ ch < 8, (Tbl.get Chan.empty (State.reset.core 0 0).chans ch).quarters = []) ∧ (30#5).toNat % 2 = 0 ∧
    (let s := State.reset.setIsland 0 { Island.reset with cyc := 8, cyc0 := 8 }
     Runs s s (slotOf 0 0) slotX [] 0 0 ∧ (7#24).toNat < (s.island 0).cyc0) :=
  ⟨runs_of (by decide +kernel), runs_of (by decide +kernel), runs_of (by decide +kernel), runs_of (by decide +kernel),
    by decide +kernel, by decide +kernel, by decide +kernel, by decide, runs_of (by decide +kernel), by decide +kernel⟩

/-! ### Witnesses: control cores -/

/-- The machine after reset with control core 3 holding addresses at the end of its SRAM. -/
def ctlState : State :=
  State.reset.setCtlCore 3 { CtlCore.reset with sregs := [(1, BitVec.ofNat 64 (2 ^ 63 + 2097144)), (2, BitVec.ofNat 64 (2 ^ 63 + 2097136))] }

theorem witness_ctl_runs (slot : Nat) (dests : List Nat) : CtlRuns ctlState (ctlSlot 3) slot dests 3 (ctlState.ctlCore 3) :=
  have d : (ctlState.ctlCore 3).dests = [] := by decide +kernel
  ⟨rfl, by decide, by decide +kernel, rfl, by decide +kernel, by decide +kernel, by rw [d]; rfl, by decide +kernel, rfl, rfl⟩

theorem witness_ControlCoreOps :
    CtlRuns ctlState (ctlSlot 3) slotS [dS 31] 3 (ctlState.ctlCore 3) ∧ CtlRuns ctlState (ctlSlot 3) slotS [dP 7] 3 (ctlState.ctlCore 3) ∧
    CtlRuns ctlState (ctlSlot 3) slotX [] 3 (ctlState.ctlCore 3) ∧
    CtlRuns State.reset { ctlSlot 0 with adv := 1 } slotS [] 0 (State.reset.ctlCore 0).closeBundle ∧ (ctlState.ctlCore 3).taken = none ∧
    (ctlState.ctlCore 3).rs 1 + BitVec.ofInt 64 (0#16).toInt = BitVec.ofNat 64 (2 ^ 63 + (2 * 2 ^ 20 - 8)) ∧
    (ctlState.ctlCore 3).rs 2 = BitVec.ofNat 64 (2 ^ 63 + (2 * 2 ^ 20 - 16)) :=
  ⟨witness_ctl_runs _ _, witness_ctl_runs _ _, witness_ctl_runs _ _,
    ⟨rfl, by decide, by decide +kernel, rfl, by decide +kernel, by decide +kernel, by decide +kernel, by decide +kernel, rfl, rfl⟩,
    by decide +kernel⟩

/-! ### Witnesses: faults, delivery, holds -/

theorem witness_PredicatedOffAndIllegal :
    let off : Op := { i := .wswap { slotOf 0 0 with pred := 7 }, sl := { slotOf 0 0 with pred := 7 }, slot := slotS, legal := true, dests := [], body := fun _ => .ok [] [] }
    let bad : Op := { i := .provBegin (slotOf 0 0) 0, sl := slotOf 0 0, slot := slotX, legal := false, dests := [dSpecial 8], body := fun _ => .ok [] [] }
    Reaches State.reset State.reset off.sl off.slot 0 0 ∧ off.legal = true ∧ (State.reset.core 0 0).rp off.sl.pred = false ∧
    dupDest (State.reset.core 0 0).dests off.slot off.dests = false ∧ Reaches State.reset State.reset bad.sl bad.slot 0 0 ∧ bad.legal = false ∧
    State.reset.getF (aIslCoreFault 0 0) F.islCoreFault_code = 0 ∧ State.reset.isFenced 0 = false := by
  have r : Runs State.reset State.reset (slotOf 0 0) slotX [] 0 0 := runs_of (by decide +kernel)
  exact ⟨⟨rfl, r.here, r.free, fun _ h => absurd h (by decide +kernel), rfl, r.still, r.live, by decide +kernel, r.clean, r.group, r.whole⟩,
    rfl, by decide +kernel,
    rfl, r.toReaches, rfl, by decide +kernel, by decide +kernel⟩

theorem witness_DeliveryWritesItsDestination :
    31 < 32 ∧ 7 < 8 ∧ (List.replicate 16 LaneAdd.zero).length = 16 ∧ (0 : Nat) ≤ 31 := by decide

theorem witness_DeliveryIsOnTime :
    (Core.reset.flight = [] ∧ 1 ≤ 10) ∧
    (let s := State.reset.issued (.movi (slotOf 319 959) 31 0 7) (slotOf 319 959) slotS [dS 31] 319 959 [(1, .setS 31 7)]
     let t := (s.liveCores 319).foldl (fun s u => s.fetchIdle 319 u) s
     Tbl.wf Core.reset s.cores = true ∧ t.endFaults 319 = t ∧ t.brt.aborted = false ∧ (t.core 319 959).due = [.setS 31 7]) :=
  ⟨⟨rfl, by decide⟩, by decide +kernel, by decide +kernel, by decide +kernel, by decide +kernel⟩

/-- Core 959 of the last island waits in a recv for its last mailbox entry, which has just become full. -/
def holdState : State :=
  armedState.setIsland 319 { Island.reset with
    stalls := [⟨959, slotX, 0, 63⟩], held := [(0, .recvVector armedSlot 31 false 63 0)] }

/-- The same with the stall at its limit. -/
def limitState : State :=
  holdState.setIsland 319 { holdState.island 319 with stallRun := holdState.getF (aIslStallLimit 319) F.islStallLimit_cycles }

theorem witness_HoldsAndStalls :
    (Runs armedState armedState armedSlot slotX [dV 31] 319 959 ∧ (armedCore.rm 62).full = false) ∧
    (319 < holdState.numIslands ∧ (holdState.island 319).stalls ≠ [] ∧ (holdState.island 319).released = [] ∧ (holdState.island 319).adds = [] ∧
      (holdState.island 319).stallRun + 1 ≤ holdState.getF (aIslStallLimit 319) F.islStallLimit_cycles ∧
      holdState.getF (aIslStallCnt 319) F.islStallCnt_count + 1 < 2 ^ F.islStallCnt_count.width ∧ (holdState.island 319).cyc + 1 < 2 ^ 32) ∧
    ((limitState.island 319).stalls = [⟨959, slotX, 0, 63⟩] ∧
      limitState.getF (aIslStallLimit 319) F.islStallLimit_cycles < (limitState.island 319).stallRun + 1 ∧
      limitState.isFenced 319 = false ∧ (limitState.core 319 959).causes = [] ∧
      limitState.getF (aIslCoreFault 319 959) F.islCoreFault_code = 0) :=
  ⟨⟨witness_runs _ _, by decide +kernel⟩, by decide +kernel, by decide +kernel⟩

theorem witness_HoldsAndStalls_release :
    let s := holdState.setCore 319 959 { armedCore with run := .issuing }
    let t := State.stallFor 319 1 s
    let c := t.core 319 959
    319 < s.numIslands ∧ (s.island 319).stalls ≠ [] ∧ armedSlot.site = .core 319 959 ∧ t.hasCore 319 959 = true ∧
    (t.island 319).stalls = [⟨959, slotX, 0, 63⟩] ∧ (t.island 319).resume = false ∧
    (t.island 319).held = [(0, .recvVector armedSlot 31 false 63 0)] ∧ (t.island 319).halted = false ∧ t.brt.aborted = false ∧
    c.run = .issuing ∧ c.causes = [] ∧ c.group < 8 ∧ (t.ctx 319 959 armedSlot).fetchFault = none ∧ dupDest c.dests slotX [dV 31] = false ∧
    c.rp armedSlot.pred = true ∧ (armedSlot.fetch = .clean ∧ armedSlot.hdr = 0 ∧ armedSlot.res = false ∧ armedSlot.chk = 0) ∧
    (c.rm 63).full = true := by decide +kernel

/-! ### Witnesses: the control space -/

/-- The state with register fields set. -/
def withF (s : State) (l : List (Nat × Fld × Nat)) : State := l.foldl (fun s x => s.setF x.1 x.2.1 x.2.2) s

/-- The state with the `n` bytes of a number written at address `a`. -/
def poke (s : State) (a n x : Nat) : State := (List.range n).foldl (fun s i => s.writeByte (a + i) (BitVec.ofNat 8 (x / 2 ^ (8 * i)))) s

theorem witness_RegisterWrites :
    let s := State.reset
    let a := aIslStallLimit 319
    (s.regAt a = some .islStallLimit ∧ RegName.plain .islStallLimit ∧ s.writeRefused .islStallLimit a = false ∧
      writeReserved .islStallLimit (1#64).toNat = false ∧ writeReserved .islStallLimit (0#64).toNat = true) ∧
    (s.regAt (aIslSync 319 255) = some .islSync ∧ RegName.plain .islSync ∧ s.writeRefused .islSync (aIslSync 319 255) = true) ∧
    (s.regAt (islBase 319 + 0x200000) = none ∧ ¬(valveBase ≤ islBase 319 + 0x200000 ∧ islBase 319 + 0x200000 < valveBase + valveSize)) ∧
    (4 ≠ 8 ∧ 4 % 8 ≠ 0) := by
  refine ⟨⟨by decide +kernel, ?_, by decide +kernel, by decide +kernel, by decide +kernel⟩, ⟨by decide +kernel, ?_, by decide +kernel⟩,
    by decide +kernel, by decide⟩ <;> (unfold RegName.plain; decide)

theorem witness_RegisterReads :
    State.reset.regAt (aIslWaitLate 319) = some .islWaitLate ∧ State.reset.regAt (aBocResetCause) = some .bocResetCause ∧
    F.islStallCnt_count ∈ RegName.islStallCnt.fields := by decide +kernel

/-! ### Witnesses: switches, crossings, landings, memory errors -/

/-- The last switch of the last island with three words to run, a route named 255 from its core 59, and data of that route presented. -/
def switchState : State :=
  let s := (State.reset.setCluster 319 15 { Cluster.reset with loaded := 3 }).setCore 319 959
    { Core.reset with port := some { rid := 255, data := 9, prov := 0 } }
  withF s [(aRouteTable 319 15 255 0, F.routeTable_word, 59), (aRouteTable 319 15 255 1, F.routeTable_word, 2 ^ 63)]

theorem witness_SwitchWords :
    let c := switchState.cluster 319 15
    let w : BitVec 128 := BitVec.ofNat 128 (511 * 2 ^ 81)
    switchState.hasCluster 319 15 = true ∧ (switchState.island 319).stalls = [] ∧ (switchState.island 319).skip = none ∧
    switchState.brt.aborted = false ∧ c.word = none ∧ c.ended = false ∧ c.faulted = false ∧ c.outside = false ∧
    (switchState.wordInvalid 319 15 1 = false ∧ (1#128).toNat % 4 = 1) ∧ (switchState.wordInvalid 319 15 2 = false ∧ (2#128).toNat % 4 = 2) ∧
    (switchState.wordInvalid 319 15 w = false ∧ w.toNat % 4 = 0 ∧ wordRoutes w = [255] ∧ routeSrc (switchState.route 319 15 255) = 59 ∧
      (switchState.core 319 (60 * 15 + 59)).port = some { rid := 255, data := 9, prov := 0 } ∧ switchState.wordStalls 319 15 w = []) := by
  decide +kernel

/-- The last island with one of each thing on its way, in its last queue, to its last core. -/
def wayState : State :=
  State.reset.setIsland 319 { Island.reset with
    cyc := 100, inbound := [(15, [⟨1, 0, 0, false, false⟩])], taken := [(14, [⟨100, false, false⟩]), (15, [⟨0, false, false⟩])]
    landings := [⟨959, 63, 7, 0, none⟩], released := [⟨959, 63, 7, 0, none⟩], side := [⟨255, 1, none⟩], treeIn := [⟨7, 0x8000, 0, 0⟩] }

theorem witness_CrossingsAndLandings :
    let x := wayState.island 319
    319 < wayState.numIslands ∧ Tbl.get [] x.inbound 15 = [⟨1, 0, 0, false, false⟩] ∧
    (Tbl.get [] x.taken 15 = [⟨0, false, false⟩] ∧ 0 + wayState.latR ≤ x.cyc) ∧
    (Tbl.get [] x.taken 14 = [⟨100, false, false⟩] ∧ ¬ 100 + wayState.latR ≤ x.cyc) ∧
    x.landings = [⟨959, 63, 7, 0, none⟩] ∧
    (x.released = [⟨959, 63, 7, 0, none⟩] ∧ ((wayState.core 319 959).rm 63).full = false ∧ x.landed = false ∧
      959 ∉ wayState.routeBusy 319) ∧
    x.side = [⟨255, 1, none⟩] ∧ (x.fill = none ∧ x.treeIn = [⟨7, 0x8000, 0, 0⟩] ∧
      ∀ u ∈ maskCores 0x8000, (wayState.core 319 u).idleStage.isEmpty = true) := by decide +kernel

/-- The last channel of the last field alone in the map, with fifteen lines in its rewrite queue. -/
def chanState : State :=
  let s := withF State.reset [(aFldChannels 7, F.fldChannels_active, 2 ^ 15), (aFldChannels 7, F.fldChannels_count, 1)]
  { s with tier := { s.tier with rewrite := [(127, List.range 15)] } }

theorem witness_MemoryErrorsAndChannels :
    let addr := 7 * lpField + 64
    (State.reset.hasCore 319 959 = true ∧ State.reset.anyBad (State.reset.tileBase 319 959 + 64 * 2559) 64 = false) ∧
    (chanState.lpMapped addr = true ∧ chanState.channelOf addr = (7, 15) ∧ chanState.chanRetired 7 15 = false ∧
      chanState.anyBad (addr / 64 * 64) 64 = false ∧ addr / 64 ∉ Tbl.get [] chanState.tier.rewrite 127 ∧
      (Tbl.get [] chanState.tier.rewrite 127).length = 15) ∧
    (chanState.getF (aFldChState 7 15) F.fldChState_state ≠ 3 ∧ chanState.admitted = false ∧
      (chanState.getF (aFldChannels 7) F.fldChannels_active).testBit 15 = true ∧ chanState.getF (aFldChannels 7) F.fldChannels_active < 2 ^ 16) ∧
    (withF chanState [(aBocState, F.bocState_admitted, 1)]).admitted = true := by decide +kernel

/-! ### Witnesses: breaths -/

theorem witness_IslandResetAndCompletion :
    319 < State.reset.numIslands ∧ (0#64).getLsbD 0 = false ∧ (1#64).getLsbD 0 = true ∧ State.reset.atBoundary = true ∧
    State.reset.brt.aborted = false ∧ ({ State.reset with brt := { BreathSt.reset with running := true } } : State).atBoundary = false ∧
    (let s := withF State.reset [(aIslBreath 319, F.islBreath_state, 1)]
     s.getF (aIslBreath 319) F.islBreath_state = 1 ∧ s.getF (aIslBreath 319) F.islBreath_complete = 0 ∧ s.breathOver 319 = true) := by
  decide +kernel

/-- The slice lead in a breath of a job, its next start ahead; islands past the check position when it is 0. -/
def leadState (check : Nat) : State :=
  let s := withF State.reset [(aFltState, F.fltState_role, 1), (aBocTNext, F.bocTNext_beat, 10 ^ 12)]
  { s with brt := { BreathSt.reset with job := true, running := true, check := check, asked := some 5 } }

theorem witness_StartsAndSlips :
    let s := leadState 0
    let s0 := s.takeMsg 0
    (s.brt.job = true ∧ s.brt.running = true ∧ s.brt.taken = false ∧ s.brt.aborted = false ∧ s.brt.missed = false ∧ s.brt.checked = false ∧
      s.replays = false ∧ s0.replays = false ∧ s.getF aGmuTrack F.gmuTrack_open = 0) ∧
    (s.allIslands.filter fun n => !s.flag (aIslBreath n) F.islBreath_complete && decide ((s.island n).cyc - (s.island n).lag < 0)) = [] ∧
    ((leadState 1).allIslands.filter fun n =>
      !(leadState 1).flag (aIslBreath n) F.islBreath_complete && decide (((leadState 1).island n).cyc - ((leadState 1).island n).lag < 1)) ≠ [] ∧
    (s0.isLead = true ∧ s0.brt.job = true ∧ msgBits 0 32 64 = s0.brt.next ∧ beatReached s0.beat (s0.tNext - nsBeat (s0.noticeW / 2)) = false) ∧
    (s.isLead = true ∧ s.commitPending = false ∧ s.brt.asked = some 5) ∧ beatReached s0.beat s0.tNext = false := by decide +kernel

theorem witness_ClocksAndSetpoints :
    let s := withF { State.reset with pins := { Pins.reset with supply := 20 } }
      [(aBocSetpoint, F.bocSetpoint_gradeMax, 20), (aBocSetpoint, F.bocSetpoint_request, 20)]
    let code := fun (v : Word) => v.toNat / 2 ^ 5 % 2 ^ 5
    (319 < s.numIslands ∧ s.getF (aIslClock 319) F.islClock_throttle < 1) ∧ s.getF aBocSetpoint F.bocSetpoint_imageMin = 0 ∧
    s.getF aBocSetpoint F.bocSetpoint_gradeMax = 20 ∧ code 0 = 0 ∧ code 0x160 = 11 ∧ code 0x180 = 12 ∧ code 0x280 = 20 ∧ code 0x2A0 = 21 ∧
    (s.stopTarget = some 20 ∧ s.brt.aborted = false ∧ s.supplied 20 = true ∧ s.brt.running = false ∧ s.accepting = false) := by decide +kernel

/-- An image whose breath table stands at address 0 with one entry: one load record, at address 64, that loads a bundle from address 128
into core 959 of island 319. -/
def imageState : State :=
  let s := withF State.reset [(aBocState, F.bocState_image, 1), (aFldChannels 0, F.fldChannels_active, 1), (aFldChannels 0, F.fldChannels_count, 1)]
  let s := poke s 0 32 (2 ^ 90 + 64 * 2 ^ 128 + 2 ^ 192)
  poke (poke s 64 32 (319 * 2 ^ 4 + 959 * 2 ^ 13 + 128 * 2 ^ 64 + 2 ^ 128 + 2047 * 2 ^ 140)) 128 16 0xAB

theorem witness_BreathsBoundariesAndStarts_load :
    let s := imageState
    let r := s.loadRecord 0
    s.hasImage = true ∧ s.brt.aborted = false ∧ 0 < s.loadTotal ∧ 0 ∉ s.brt.loadsDone ∧ s.targetReady r = true ∧ s.earlierDone 0 = true ∧
    recKind r = 0 ∧ recIsland r = 319 ∧ recUnit r = 959 ∧ (s.readPieces [] (pieces (recSrc r) (16 * recCount r))).2 = some (bytesOfNat 16 0xAB) := by
  decide +kernel

/-- Every island has completed the breath that runs, on a package held to one island per field. -/
def doneState : State :=
  let s := withF imageState ((List.range 8).map fun n => (aIslBreath n, F.islBreath_complete, 1))
  { s with boc := { s.boc with force := some 1 }, brt := { BreathSt.reset with job := true, running := true, examined := true, loadsDone := [0] } }

theorem witness_BreathsBoundariesAndStarts_boundary :
    let s := doneState
    s.brt.running = true ∧ s.brt.taken = false ∧ s.brt.aborted = false ∧ s.replays = false ∧ s.brt.examined = true ∧
    (∀ n < s.numIslands, s.getF (aIslBreath n) F.islBreath_complete = 1 ∧ (s.island n).taken = []) ∧ s.getF aGmuTrack F.gmuTrack_open = 0 ∧
    entLast s.curEntry = true ∧ (s.loadsFinished = true ∧ s.setpointSettled = true) := by decide +kernel

theorem witness_BreathsBoundariesAndStarts_trigger :
    let s := withF (State.setCore { doneState with brt := { doneState.brt with taken := true } } 7 959 { Core.reset with exec := some ⟨0, 2047, 5⟩ })
      [(aTimTrigState, F.timTrigState_armed, 1)]
    s.getF aTimTrigState F.timTrigState_armed = 1 ∧ s.brt.job = true ∧ s.hasImage = true ∧ s.brt.aborted = false ∧ s.brt.missed = false ∧
    s.replays = false ∧ s.pins.lateArm = false ∧ s.brt.running = true ∧ s.brt.taken = true ∧
    entTest (s.breathEntry s.brt.nextEntry) = false ∧ (s.core 7 959).exec = some ⟨0, 2047, 5⟩ := by decide +kernel

/-! ### Witnesses: stream engines -/

/-- Engine 127 at descriptor `d`, with a signal to staging counter 255 of field 7 on its way. -/
def engineState (d : Nat) (parked : Bool) (signals : List Signal) : State :=
  let s := State.reset.setEngine 127 { Engine.reset with parked := parked, signals := signals, entry := 1023 }
  { s with tier := { s.tier with descs := [(1024 * 127, d)] } }

theorem witness_StreamEngines_move :
    let s := engineState (1 + (stgBase + 7 * stgSize) * 2 ^ 96 + State.reset.tileBase 319 959 * 2 ^ 138 + 2 ^ 180) false []
    let d := s.desc 127
    s.stmRuns 127 = true ∧ (s.engine 127).parked = false ∧ (s.engine 127).begun = false ∧ dOp d = 1 ∧ dRows d = 1 ∧ dCount d = 1 ∧
    dFmask d = 0 ∧ s.descReserved d = false ∧ s.waitMet d = true ∧ dSrc d % 64 = 0 ∧ dDst d % 64 = 0 ∧ s.region (dSrc d) = .staging 7 ∧
    (s.region (dDst d) = .tile 319 959 false ∧ s.fieldOf 319 = 7) ∧ s.anyBad (dSrc d) 64 = false := by decide +kernel

theorem witness_StreamEngines_tree :
    let s := engineState (2 + (stgBase + 7 * stgSize) * 2 ^ 96 + (2 ^ 39 + 1) * 2 ^ 138 + 2 ^ 180 + 7 * 2 ^ 204 + 0x8001 * 2 ^ 208) false []
    let d := s.desc 127
    let l := s.treeIslands 7 d
    s.stmRuns 127 = true ∧ dOp d = 2 ∧ dCount d = 1 ∧ tileParts (dFmt d) = 1 ∧ s.descReserved d = false ∧ s.waitMet d = true ∧
    dSrc d % 64 = 0 ∧ dDst d < 2 ^ s.perField ∧ s.perField ≤ 40 ∧ s.region (dSrc d) = .staging 7 ∧ s.anyBad (dSrc d) 64 = false ∧
    (s.engine 127).parts = 0 ∧ (s.engine 127).parked = false ∧ (s.engine 127).begun = false ∧ l = [280, 319] ∧
    (∀ n ∈ l, (s.island n).treeIn.length < 16) ∧ (∀ n ∈ l, Tbl.get none s.tier.owners n = none) := by decide +kernel

/-- A sync without and with a signal, one whose wait is short, an end, each on an engine that runs, with and without a credit. -/
theorem witness_StreamEngines_sync :
    let ready := fun (s : State) => s.stmRuns 127 = true ∧ s.getF (stmA 127) F.stmStatus_credits < 16 ∧ (s.engine 127).entry < 1024 ∧
      (s.engine 127).parked = false ∧ (s.engine 127).begun = false ∧ s.descReserved (s.desc 127) = false
    (let s := engineState 3 false []
     ready s ∧ dOp (s.desc 127) = 3 ∧ dSkind (s.desc 127) = 0 ∧ s.waitMet (s.desc 127) = true) ∧
    (let s := engineState (3 + 2 ^ 8 + 255 * 2 ^ 27 + 7 * 2 ^ 35 + 0xFFF * 2 ^ 44) false []
     ready s ∧ dOp (s.desc 127) = 3 ∧ dSkind (s.desc 127) = 1 ∧ (s.engine 127).signals = [] ∧ s.waitMet (s.desc 127) = true) ∧
    (let s := engineState (3 + 2 ^ 6 + 255 * 2 ^ 10 + 7 * 2 ^ 18 + 2 ^ 64) false []
     ready s ∧ dOp (s.desc 127) = 3 ∧ s.waitMet (s.desc 127) = false) ∧
    (let s := engineState 0 false []
     ready s ∧ dOp (s.desc 127) = 0 ∧ dSkind (s.desc 127) = 0 ∧ s.waitMet (s.desc 127) = true ∧ s.getF (stmA 127) F.stmStatus_credits = 0) ∧
    (let s := withF (engineState 0 false []) [(stmA 127, F.stmStatus_credits, 15)]
     ready s ∧ s.getF (stmA 127) F.stmStatus_credits = 15) ∧
    (let s := engineState 0 true [⟨1, 255, 7, 1⟩]
     s.stmRuns 127 = true ∧ (s.engine 127).signals = [⟨1, 255, 7, 1⟩]) := by decide +kernel

/-! ### Witnesses: beat time -/

/-- The last port up in full width, with state `x`. -/
def portState (x : Port) : State := withF (State.reset.setPort 47 x) [(aLnkState 47, F.lnkState_state, 2), (aLnkState 47, F.lnkState_lanes, 8)]

/-- A package whose power is good. -/
def onState : State := { State.reset with pins := { Pins.reset with power := .on } }

theorem witness_BeatCounterAndTimedLaunches :
    (let incr := fun (v : Word) => v.toNat % 2 ^ 40
     incr 27460302903 = 27460302903 ∧ incr 27515278485 = 27515278485 ∧ incr 27460302902 < 27460302903 ∧ 27515278485 < incr 27515278486) ∧
    State.reset.admitted = false ∧ (withF State.reset [(aBocState, F.bocState_admitted, 1)]).admitted = true ∧
    (onState.pins.power = .on ∧ onState.pins.phase = none) ∧
    (({ onState with pins := { onState.pins with phase := some 5 } } : State).pins.phase = some 5) ∧
    (State.reset.getF aTimStatus F.timStatus_refclk = 0 ∧ State.reset.getF aTimStatus F.timStatus_refclkFail < 4) ∧
    (withF State.reset [(aTimStatus, F.timStatus_refclk, 1)]).getF aTimStatus F.timStatus_refclk = 1 ∧
    (withF State.reset [(aTimStatus, F.timStatus_root, 1)]).getF aTimStatus F.timStatus_root ≠ 0 ∧
    State.reset.getF (aTimTlqCtl 47 3) F.timTlqCtl_arm = 0 ∧
    (let s := withF (portState { Port.reset with next := 4095 }) [(aTimTlqCtl 47 3, F.timTlqCtl_arm, 1), (aTimTlqCtl 47 3, F.timTlqCtl_dest, 16383)]
     s.getF (aTimTlqCtl 47 3) F.timTlqCtl_arm ≠ 0 ∧ (0x10000#64).getLsbD 16 = true ∧ s.tlqFirst 47 3 = true ∧ s.evenSlot 47 0 = 0 ∧ (s.slotPlan 47 0).2 = .timed 3 ∧
     (s.port 47).next = 4095 ∧ s.self < 2 ^ 14 ∧ s.getF (aTimTlqCtl 47 3) F.timTlqCtl_dest = 2 ^ 14 - 1) := by decide +kernel

/-- The manifest of a slice of two packages side by side on a ring of two, package 0's own. -/
def twoPackages : Manifest :=
  { self := 0, flags := 0, job := 1, torusM1 := 1, low := 0, extentM1 := 1, workLow := 0, workExtM1 := 1, partnerLow := 0, rotation := 0
    leads := [0, 1], timeRoot := 1, window := 1000, quantum := 1000, timeout := 1, cadence := 1, replayLimit := 1, toneHours := 1, key := 1
    imageDigest := 0, members := [⟨0, false, 0, 1, 0, 0, []⟩, ⟨1, false, 0, 2, 0, 0, []⟩], exceptions := [], digest := 0 }

/-- Package 0 of that slice, with port 47 up to a package at depth 39 under the root, and one sample of the given offset. -/
def steerState (offset : BitVec 64) : State :=
  let s := withF (portState { Port.reset with peer := some ⟨1, 39, 0⟩, samples := [⟨offset, 0⟩] }) [(aTimStatus, F.timStatus_rootIndex, 1)]
  { s with manifest := some twoPackages, pins := { s.pins with good := 7 } }

theorem witness_TimeSteering :
    let p := fun (s : State) => s.manifest.isSome = true ∧ s.getF aTimStatus F.timStatus_root = 0 ∧
      s.parentPort (s.getF aTimStatus F.timStatus_rootIndex) = some 47 ∧ (s.peerRoot 47).2 = 39 ∧ (s.port 47).samples ≠ [] ∧
      27460302903 ≤ s.getF aTimIncr F.timIncr_incr ∧ s.getF aTimIncr F.timIncr_incr ≤ 27515278485 ∧ s.admitted = false ∧
      s.getF aTimStatus F.timStatus_locked = 0 ∧ s.pins.good = 7
    let m := fun (s : State) => median ((s.port 47).samples.map fun t => t.offset.toInt)
    (p (steerState 3276) ∧ m (steerState 3276) = 3276 ∧ 3276 * 20 ≤ 65536 ∧
      (-((27487790694 : Int) * 3276).tdiv (4000000 * 65536)).natAbs * 1000000 ≤ 27487790694 * 20) ∧
    (p (steerState 65536001) ∧ m (steerState 65536001) = 65536001 ∧ 65536000 < (65536001 : Int).natAbs) ∧
    (p (steerState (BitVec.ofInt 64 (-65536001))) ∧ m (steerState (BitVec.ofInt 64 (-65536001))) = -65536001) := by decide +kernel

/-! ### Witnesses: power, temperature, resets -/

theorem witness_PowerAndTemperature :
    ((300#64).toNat % 2 ^ 16 = 300 ∧ (1250#64).toNat % 2 ^ 16 = 1250 ∧ (299#64).toNat % 2 ^ 16 < 300 ∧ 1250 < (1251#64).toNat % 2 ^ 16) ∧
    (let s := withF { State.reset with brt := { BreathSt.reset with job := true } }
       [(aBocSetpoint, F.bocSetpoint_current, 31), (aBocSetpoint, F.bocSetpoint_imageMin, 30)]
     s.brt.job = true ∧ s.getF aBocPowerCfg F.bocPowerCfg_limit < 2000 ∧
     s.getF aBocSetpoint F.bocSetpoint_imageMin < s.getF aBocSetpoint F.bocSetpoint_current ∧ s.getF aBocSetpoint F.bocSetpoint_current = 31) ∧
    (let s := onState
     let limit := 10 * s.getF aBocThermal F.bocThermal_threshold
     s.pins.power = .on ∧ limit < 1100 ∧ s.fieldOver 7 = false ∧ s.getF (aBocFieldTemp 7) F.bocFieldTemp_throttle = 0) ∧
    (let s := withF { onState with pins := { onState.pins with tick := [(7, 91)], hot := [(7, 1)] } } [(aBocFieldTemp 7, F.bocFieldTemp_throttle, 3)]
     s.pins.power = .on ∧ s.getF (aBocFieldTemp 7) F.bocFieldTemp_throttle = 3 ∧ Tbl.get 0 s.pins.tick 7 = 91 ∧ s.perField ≤ 40 ∧
     Tbl.get 0 s.pins.hot 7 = 1) ∧
    (let s := withF onState ((List.range 8).map fun j => (aFldChState 7 (8 + j), F.fldChState_over, 1))
     s.pins.power = .on ∧ ∀ p ∈ deviceChannels 15, s.getF (aFldChState p.1 p.2) F.fldChState_over = 1) := by decide +kernel

/-- What a power-up meets: slot B verifies or not, one clock or none. -/
def bootEnv (good clock : Bool) : BootEnv :=
  { slotA := ⟨false, false, 0, 0, 0⟩, slotB := ⟨good, good, 64, 3, 0⟩, bcrOk := true, failed := [], macros := [], crossFail := [], noChannel := [], straps := 63, clock0 := false
    clock1 := clock, challenge := 7, romDigest := 0 }

theorem witness_ResetsAndRelease :
    onState.pins.power = .on ∧ ({ onState with pins := { onState.pins with power := .thermal } } : State).pins.power = .thermal ∧
    (let s := { State.reset with nv := { NonVol.blank with bcr := { NonVol.blank.bcr with preferred := 1 } } }
     s.pins.power = .held ∧ s.nv.bcr.preferred < 2 ∧ s.boc.recovery = false ∧
     ((bootEnv true false).clock0 = false ∧ (bootEnv true false).clock1 = false) ∧ (bootEnv true true).clock1 = true ∧
     s.bootSlot (bootEnv true true) = some (1, false) ∧ s.bootSlot (bootEnv false true) = none) ∧
    State.reset.bootSlot (bootEnv true true) = some (1, true) := by decide +kernel

/-! ### Witnesses: scheduled traffic -/

/-- A flit of the last stream whose slot tag is 4095, of type 1 with sequence number 4095. -/
def aFlit : Flit := { hdr := BitVec.ofNat 128 (1 + 4095 * 2 ^ 2 + 4095 * 2 ^ 68 + 4095 * 2 ^ 80), q0 := 1, q1 := 2, q2 := 3, q3 := 4 }

/-- A breath runs; the last queue of the last port claims slots 4095 and 4096, and holds `flits`. -/
def launchState (flits : List QFlit) : State :=
  let s := withF (portState { Port.reset with next := 4095, queues := [(63, { LaunchQ.reset with flits := flits })] })
    [(aSlotTable 47 0 0, F.slotTable_word, 4095 + 63 * 2 ^ 23 + 2 ^ 29 + 2 ^ 32 + 2 ^ 52)]
  { s with brt := { BreathSt.reset with running := true } }

theorem witness_ScheduledLaunches :
    (let s := (launchState (List.replicate 3 ⟨0, none, 0, 0, 0, 0, 0⟩)).setIsland 319 { Island.reset with launchOut := [⟨47, 63, 0, 1, 2, 3, 4⟩] }
     (s.island 319).launchOut = [⟨47, 63, 0, 1, 2, 3, 4⟩] ∧ (s.lq 47 63).flits.length = 3) ∧
    (let ready := fun (s : State) => s.brt.running = true ∧ s.brt.aborted = false ∧ s.sending 47 = true ∧ s.evenSlot 47 4095 = 4095 ∧ s.oddSlot 47 4095 = 4095 ∧
       (s.port 47).used ≠ some 4095 ∧ s.claims 47 4095 = [63] ∧ s.slotConflict 47 4095 4095 = false ∧ (s.port 47).next = 4095
     (ready (launchState [⟨0, some 4095, 0, 1, 2, 3, 4⟩]) ∧
       (launchState [⟨0, some 4095, 0, 1, 2, 3, 4⟩]).lqHead 47 63 = some (⟨0, some 4095, 0, 1, 2, 3, 4⟩, 4095) ∧
       (launchState [⟨0, some 4095, 0, 1, 2, 3, 4⟩]).fetched 47 63 4095 = true ∧
       (launchState [⟨0, some 4095, 0, 1, 2, 3, 4⟩]).rcv.folds = false ∧ (launchState [⟨0, some 4095, 0, 1, 2, 3, 4⟩]).owed 47 63 = 0 ∧ ((launchState [⟨0, some 4095, 0, 1, 2, 3, 4⟩]).port 47).canSend = true) ∧
     (ready (launchState []) ∧ (launchState []).lqHead 47 63 = none ∧ 4095 ≠ (launchState []).lastClaim 47 63)) ∧
    (let s := { portState { Port.reset with next := 4095, relays := [⟨aFlit, 9, false⟩] } with brt := { BreathSt.reset with running := true } }
     s.brt.running = true ∧ s.brt.aborted = false ∧ s.sending 47 = true ∧ s.carriesSched 47 = true ∧ (s.port 47).canSend = true ∧
     s.evenSlot 47 9 = 9 ∧ s.oddSlot 47 9 = 9 ∧ (s.port 47).used ≠ some 9 ∧ s.relaysDue 47 9 = [⟨aFlit, 9, false⟩] ∧ s.claims 47 9 = [] ∧
     s.slotConflict 47 9 9 = false ∧ (s.port 47).next = 4095) ∧
    (let s := withF { portState { Port.reset with next := 4095, relays := [⟨aFlit, 9, false⟩] } with
         brt := { BreathSt.reset with running := true }, rcv := { Recov.reset with folds := true } }
       [(aLnkState 47, F.lnkState_state, 3), (aLnkState 47, F.lnkState_lanes, 4)]
     s.brt.running = true ∧ s.brt.aborted = false ∧ s.sending 47 = true ∧ s.carriesSched 47 = true ∧ (s.port 47).canSend = true ∧
     s.evenSlot 47 9 = 8 ∧ s.oddSlot 47 9 = 9 ∧ (s.port 47).used ≠ some 8 ∧ s.relaysDue 47 8 = [⟨aFlit, 9, false⟩] ∧ s.claims 47 9 = [] ∧
     s.slotConflict 47 8 9 = false) := by decide +kernel

/-- That flit has arrived at the last port, and the last stream's descriptor has the low word `d`. -/
def presentState (d : Nat) : State :=
  withF ((portState { Port.reset with arrived := [⟨aFlit, 0⟩] }).setPort 46 { Port.reset with relays := List.replicate 63 ⟨aFlit, 9, false⟩ })
    [(aStreamTable 0 4095 0, F.streamTable_word, d)]

theorem witness_PresentationAndLanding :
    (let s := presentState (1 + 47 * 2 ^ 3)
     let d := s.streamDesc 4095
     (s.port 47).arrived = [⟨aFlit, 0⟩] ∧ aFlit.hdr.getLsbD 92 = false ∧ s.getF (aCrpConfig 47) F.crpConfig_arrival = 0 ∧
     s.waitsSlot 47 4094 aFlit = true ∧ s.waitsSlot 47 4095 aFlit = false ∧ (s.port 47).stage.length < 64 ∧ (s.port 47).blocked = [] ∧
     (4095 - 0) % 4096 = aFlit.field 80 12 ∧ aFlit.field 68 12 = 4095 ∧ sd d 0 3 = 1 ∧ sd d 3 6 = 47) ∧
    (let s := presentState (2 + 47 * 2 ^ 3 + 46 * 2 ^ 9)
     let d := s.streamDesc 4095
     sd d 0 3 = 2 ∧ sd d 3 6 = 47 ∧ sd d 9 6 = 46 ∧ (s.port 46).relays.length = 63) ∧
    sd ((presentState 0).streamDesc 4095) 0 3 = 0 ∧ sd ((presentState (1 + 46 * 2 ^ 3)).streamDesc 4095) 3 6 ≠ 47 ∧
    (let d := fun (x : Nat) => BitVec.ofNat 128 (1 + 47 * 2 ^ 3 + x * 2 ^ 21 + 319 * 2 ^ 24 + 15 * 2 ^ 33 + 59 * 2 ^ 37)
     let s := fun (x : Nat) => (portState { Port.reset with stage := [⟨aFlit, d x⟩] }).setIsland 319
       { Island.reset with landings := List.replicate 12 ⟨0, 0, 0, 0, none⟩ }
     ∀ x < 4, ((s x).port 47).stage = [⟨aFlit, d x⟩] ∧ sd (d x) 84 2 = 0 ∧ sd (d x) 21 2 = x ∧ sd (d x) 24 9 = 319 ∧
       ((s x).island 319).landings.length = 12) := by decide +kernel

theorem witness_PatchesAndBypasses :
    (let s := { State.reset with brt := { BreathSt.reset with job := true }, fab := { Fabric.reset with patches := [(1, 0)] } }
     let msg := BitVec.ofNat 128 (2 ^ 32 + (2 ^ 19 - 1) * 2 ^ 96)
     let s0 := s.takeMsg msg
     s0.brt.job = true ∧ s0.brt.taken = false ∧ s0.brt.next < msgBits msg 32 64 ∧ ∀ x ∈ s0.fab.patches, x.1 ≠ msgBits msg 96 19) ∧
    (let s := leadState 0
     let msg := BitVec.ofNat 128 ((2 ^ 19 - 1) * 2 ^ 96)
     let s0 := s.takeMsg msg
     s0.brt.job = true ∧ s0.brt.taken = false ∧ msgBits msg 32 64 = s0.brt.next ∧ beatReached s0.beat s0.tNext = false ∧
     ∀ x ∈ s0.fab.patches, x.1 ≠ msgBits msg 96 19) ∧
    (let s := withF { onState with boc := { BocSt.reset with closeAt := some 9, admitAt := some 9 } } [(aCrpDrone, F.crpDrone_state, 2 ^ 46 + 3)]
     s.getF aCrpDrone F.crpDrone_state < 2 ^ 48 ∧ s.drone 23 = 1 ∧ s.drone 0 = 3 ∧ s.boc.closeAt = some 9 ∧ s.boc.admitAt = some 9 ∧
     s.boc.joining = false) ∧
    (∀ x : Power, ({ State.reset with pins := { Pins.reset with power := x } } : State).pins.power = x) := by
  exact ⟨by decide +kernel, by decide +kernel, by decide +kernel, fun _ => rfl⟩

/-! ### Witnesses: links -/

/-- Receivers that lock the wavelengths of a mask, wavelength 0 with the worst error ratio and wavelength 8 at the largest skew. -/
def optics (locked : BitVec 9) : Optics := { locked := locked, ratio := [9, 1, 1, 1, 1, 1, 1, 1, 1], skew := [0, 0, 0, 0, 0, 0, 0, 0, 160] }

/-- What a training of port 47 meets when the wavelengths of the mask are usable. -/
def trainEnv (locked : BitVec 9) : TrainEnv :=
  { optics := optics locked, serial := 5, package := 3, hasIndex := true, port := 7, cert := 1, peerRand := 2, peerMap := 0x76543210
    peerHalf := false, delay16 := 1, rtt := 1, deskew := 0 }

/-- The peer's training record of step `k`, with its received flag. -/
def trainRecord (k : Nat) (got : Bool) : BitVec 2304 :=
  ({ hdr := 3, q0 := BitVec.ofNat 512 (2 ^ 15 + 2 ^ 128 + k * 2 ^ 144 + if got then 2 ^ 152 else 0), q1 := 0, q2 := 0, q3 := 0 } : Flit).raw

theorem witness_LinkTraining :
    State.reset.lnk 47 = 0 ∧ 5 < (withF State.reset [(aLnkState 47, F.lnkState_state, 6)]).lnk 47 ∧
    (let good := fun (u : BitVec 9) => (trainEnv u).optics.order.length
     good 0x1FF = 9 ∧ good 0xFF = 8 ∧ good 0xF = 4 ∧ good 7 = 3) ∧
    (let s := fun (k : Nat) => withF (State.reset.setPort 47 { Port.reset with trainStep := k }) [(aLnkState 47, F.lnkState_state, 1)]
     ∀ got ∈ [false, true], ∀ k ∈ [5, 6, 7], (recordOf false (trainRecord k got)).isSome = true ∧
       let b := (recordOf false (trainRecord k got)).getD 0
       (s k).lnk 47 = 1 ∧ bitsAt b 144 8 = ((s k).port 47).trainStep ∧ b.testBit 152 = got ∧ ((s k).port 47).trainStep = k) := by
  decide +kernel

/-- A flit of type 1 with sequence number `n`. -/
def flitSeq (n : Nat) : Flit := { hdr := BitVec.ofNat 128 (1 + n * 2 ^ 2), q0 := 1, q1 := 2, q2 := 3, q3 := 4 }

theorem witness_FlitReception :
    let s := withF { portState { Port.reset with
        exp := 4095, stage := List.replicate 63 ⟨aFlit, 0⟩, timer := some 1, buf := [flitSeq 0, flitSeq 1] } with beatAcc := BitVec.ofNat 80 (2 ^ 40) }
      [(aLnkState 47, F.lnkState_spare, 1)]
    let x := s.port 47
    s.linkUp 47 = true ∧ s.fenced 47 = false ∧ x.encRx = false ∧ x.held = [] ∧ x.tagWait = [] ∧ x.exp = 4095 ∧ x.stage.length = 63 ∧
    x.blocked = [] ∧ s.getF (aLnkInjCtl 47) F.lnkInjCtl_enable = 0 ∧
    (∀ n ∈ [4095, 0, 62, 2047, 4094], badLanes false (flitSeq n).raw = 0 ∧ (rawFlit (flitSeq n).raw).kind = 1 ∧ (rawFlit (flitSeq n).raw).seq = n) ∧
    badLanes (s.halfWidth 47) (flipParity false 0x80 (flitSeq 0).raw) = 0x80 ∧ s.halfWidth 47 = false ∧
    seqDist x.exp 0 = 1 ∧ seqDist x.exp 62 = 63 ∧ seqDist x.exp 2047 = 2048 ∧ seqDist x.exp 4094 = 4095 ∧ s.getF (aLnkState 47) F.lnkState_spare = 1 ∧
    x.fails = [] ∧ x.timer = some 1 ∧ 1 < s.slotNow := by decide +kernel

/-- A message with lane 7, wavelength 8 and old wavelength 8, that grants. -/
def linkMessage : Msg := BitVec.ofNat 128 (7 * 2 ^ 72 + 8 * 2 ^ 76 + 8 * 2 ^ 80 + 2 ^ 104)

theorem witness_SparesAndRetrains :
    let s := fun (x : LinkProc) => portState { Port.reset with proc := x, txSpare := 8 }
    (∀ x ∈ [.none, .spareAsked 7, .spareLocking 7 8, .spareServed 7 8, .retrainAsked 2, .retrainWait none 5, .retrainWait (some 1) 0, .quiet, .relocked],
      (s x).sending 47 = true ∧ ((s x).port 47).proc = x ∧ ((s x).port 47).later = [] ∧ (s x).getF (aLnkLanes 47) F.lnkLanes_map < 2 ^ 32 ∧
      (s x).laneWl 47 7 < 9) ∧
    ((portState { Port.reset with proc := .spareServed 7 8, later := [.retrainAsked 2] }).port 47).later = [.retrainAsked 2] ∧
    ((s (.retrainWait none 5)).quietDue none 5 = false ∧ (s (.retrainWait none 0)).quietDue none 0 = true ∧
      (s (.retrainWait (some 0) 0)).quietDue (some 0) 0 = true ∧
      (withF (s (.retrainWait (some 0) 0)) [(aBocTNext, F.bocTNext_beat, 10 ^ 12)]).quietDue (some 0) 0 = false) ∧
    (let t := withF { s .none with brt := { BreathSt.reset with job := true } } [(aBocDisc 47, F.bocDisc_class, 1)]
     t.sending 47 = true ∧ (t.port 47).proc = .none ∧ t.getF (aBocDisc 47) F.bocDisc_class = 1 ∧ t.brt.job = true) ∧
    (msgBits linkMessage 72 3 = 7 ∧ msgBits linkMessage 76 4 = 8 ∧ msgBits linkMessage 80 4 = 8 ∧ linkMessage.getLsbD 104 = true) ∧
    (1#64).getLsbD 0 = true ∧ (s .none).getF (aBocDisc 47) F.bocDisc_class ≠ 1 ∧ (s .none).brt.job = false := by decide +kernel

theorem witness_LinkLossAndInjection :
    let s := fun (x : LinkProc) => portState { Port.reset with proc := x }
    ((s .quiet).linkUp 47 = true ∧ ((s .quiet).port 47).proc = .quiet) ∧ ((s .none).linkUp 47 = true ∧ ((s .none).port 47).proc = .none) ∧
    State.reset.getF (aLnkInjCtl 47) F.lnkInjCtl_permitted = 0 ∧
    (withF State.reset [(aLnkInjCtl 47, F.lnkInjCtl_permitted, 1)]).getF (aLnkInjCtl 47) F.lnkInjCtl_permitted ≠ 0 ∧
    (let x := (2 + 2 ^ 2 + 2 ^ 18 : Nat)
     x % 4 ≤ 2 ∧ 0 < x / 2 ^ 2 % 2 ^ 16 ∧ 0 < x / 2 ^ 18 % 2 ^ 10) ∧
    (0 % 2 ^ 16 = 0) ∧ (0 < (1 + 2 ^ 16) / 2 ^ 16 % 2 ^ 12) := by decide +kernel

/-! ### Witnesses: global memory -/

/-- Package 0 of a slice of two, its port 0 up to package 1 with credit, the route to package 1 through it, and port 47 with state `x`. -/
def memberState (x : Port) : State :=
  let s := (portState x).setPort 0 { Port.reset with credit := [(0, 5), (3, 5)] }
  { withF s [(aLnkState 0, F.lnkState_state, 2), (aGmuEpoch, F.gmuEpoch_bank0, 2), (aGmuRoute 0 1, F.gmuRoute_valid, 1),
      (aGmuRoute 0 1, F.gmuRoute_ports, 1), (aGmuCfg, F.gmuCfg_timeout, 1)] with manifest := some twoPackages }

/-- The largest put to package 1, in the last tracker of the last core, its request in state `q`. -/
def remoteState (q : Option Req) : State :=
  let s := (memberState Port.reset).setCore 319 959 { Core.reset with trk := [(15, some ⟨2, 2 ^ 42, 0, 163840, 254, 0⟩)] }
  { s with gmu := { s.gmu with reqs := match q with | some x => [(reqKey 319 959 15, some x)] | none => [] } }

theorem witness_RequestsAndDeadlines :
    let r : Remote := ⟨2, 2 ^ 42, 0, 163840, 254, 0⟩
    let q : Req := { birth := 0, attempt := 2, answers := [] }
    (let s := remoteState none
     s.hasCore 319 959 = true ∧ Tbl.get none (s.core 319 959).trk 15 = some r ∧ s.req (reqKey 319 959 15) = none ∧
     s.isMember (r.gaddr / 2 ^ 42) = true ∧ s.destOf r = 1 ∧ s.self = 0 ∧ s.anyLive (s.tileBase 319 959 + r.buf) r.sends = false ∧
     s.anyBad (s.tileBase 319 959 + r.buf) r.sends = false ∧ r.buf + r.sends ≤ tileSize ∧ s.throttled = false ∧ s.gmu.engaged = false) ∧
    (let s := remoteState (some q)
     Tbl.get none (s.core 319 959).trk 15 = some r ∧ s.req (reqKey 319 959 15) = some q ∧ s.destOf r = 1 ∧ s.self = 0 ∧
     nsReached s.nowNs (s.deadline q.birth) = false ∧ s.gmu.waiting = [] ∧ s.getF aFltState F.fltState_recovery ≠ 1 ∧ s.boc.closeAt = none ∧
     s.getF aBocState F.bocState_withdrawing = 0) := by decide +kernel

/-- A packet flit for package 1 born at `birth`. -/
def packetFlit (birth : Nat) : Flit := { hdr := BitVec.ofNat 128 (2 + 2 ^ 72), q0 := BitVec.ofNat 512 (birth * 2 ^ 176), q1 := 0, q2 := 0, q3 := 0 }

theorem witness_PacketRouting :
    let s := fun (birth : Nat) => memberState { Port.reset with vcs := [(5, [packetFlit birth])] }
    (∀ birth ∈ [0, 2 ^ 48 - 20001],
      let f := packetFlit birth
      (s birth).throttled = false ∧ (s birth).gmu.engaged = false ∧ Tbl.get [] ((s birth).port 47).vcs 5 = [f] ∧ f.hdr.getLsbD 87 = false ∧
      f.field 72 14 = 1 ∧ (s birth).self = 0 ∧ (s birth).tooOld (bitsAt f.q0.toNat 176 48) (bitsAt f.q0.toNat 224 32) = decide (birth ≠ 0) ∧
      (s birth).bankState (f.field 71 1) ≠ 0) ∧
    (s 0).hop 1 0 1 true false 0 = .send 0 3 ∧ (withF (s 0) [(aGmuRoute 0 1, F.gmuRoute_valid, 0)]).hop 1 0 1 true false 0 = .noroute ∧
    (let p := sealPacket (2 ^ 72) (packetHdr 1 0 0 0 0 0 0 8 0 1 0 0 0).toNat []
     let s := { memberState Port.reset with gmu := { Gmu.reset with waiting := [p] } }
     s.gmu.waiting = [p] ∧ p.kind < 0x80 ∧ nsReached s.nowNs (s.deadline p.birth) = false ∧ s.throttled = false ∧
     s.hop (s.departing p).dest (s.departing p).epoch (s.departing p).flitCount false false 3 = .send 0 0) := by decide +kernel

/-- A packet of package 1 to the last word of tile memory of the last core. -/
def wordPacket (kind : Nat) (data : List Byte) : Packet :=
  sealPacket 0 (packetHdr kind 1 0 0 (requester 319 959 15) (State.reset.tileBase 319 959 + 0x27FF8) 0 8 0 1 0 0 0).toNat data

theorem witness_RequestsAndResponses :
    let s := memberState Port.reset
    let bytes := bytesOfNat 8 0x0102030405060708
    (∀ p ∈ [wordPacket 1 [], wordPacket 2 bytes, wordPacket 5 bytes],
      p.crcOk = true ∧ p ∉ s.gmu.own ∧ s.inputOf p = none ∧ s.tooOld p.birth p.age = false ∧ s.bankState p.epoch ≠ 0 ∧ p.source ≠ s.self ∧ p.tag = 0 ∧
      s.region p.addr = .tile 319 959 false ∧ p.addr % 8 = 0 ∧ s.anyBad p.addr 8 = false ∧ s.getF aBocState F.bocState_withdrawing = 0 ∧
      s.gmu.done = [] ∧ p.len = 8) ∧
    ((wordPacket 1 []).kind = 1 ∧ (wordPacket 2 bytes).kind = 2 ∧ (wordPacket 2 bytes).data.length = 8 ∧ (wordPacket 5 bytes).kind = 5) ∧
    (let d : Done := { key := pktKey (wordPacket 2 bytes), status := 0, word := [] }
     let t := { s with gmu := { s.gmu with done := [d] } }
     d ∈ t.gmu.done ∧ ∀ x ∈ t.gmu.done, x.key = pktKey (wordPacket 2 bytes) → x = d) ∧
    ({ wordPacket 2 bytes with crc := (wordPacket 2 bytes).crc + 1 } : Packet).crcOk = false := by decide +kernel

/-- The answer of package 1 to an 8-byte read of the last tracker of the last core, whose request is open or not. -/
theorem witness_RequestsAndResponses_response :
    let q : Req := { birth := 0, attempt := 0, answers := [] }
    let r : Remote := ⟨0, 2 ^ 42, 0x27FF8, 8, 254, 0⟩
    let p := wordPacket 0x81 (bytesOfNat 8 77)
    (let s := (remoteState (some q)).setCore 319 959 { Core.reset with trk := [(15, some r)] }
     p.crcOk = true ∧ p ∉ s.gmu.own ∧ s.inputOf p = none ∧ s.tooOld p.birth p.age = false ∧ s.bankState p.epoch ≠ 0 ∧
     bitsAt p.reqr 14 9 = 319 ∧ bitsAt p.reqr 4 10 = 959 ∧ p.reqr % 16 = 15 ∧ s.req (reqKey 319 959 15) = some q ∧
     Tbl.get none (s.core 319 959).trk 15 = some r ∧ q.birth = p.birth ∧ q.answers = [] ∧ r.packets = 1 ∧ p.index = 0 ∧ p.status < 4 ∧
     s.getF aFltState F.fltState_recovery ≠ 1 ∧ s.boc.closeAt = none ∧ s.getF aBocState F.bocState_withdrawing = 0) ∧
    (remoteState none).req (reqKey 319 959 15) = none := by decide +kernel

theorem witness_RoutingChanges :
    let s := withF { memberState Port.reset with gmu := { Gmu.reset with asked := [(2 ^ 19 - 1, true)], flip := some 9, ready := [(0, 2 ^ 19 - 1)] } }
      [(aFltState, F.fltState_role, 1), (aGmuEpoch, F.gmuEpoch_bank1, 1)]
    let msg := BitVec.ofNat 128 (2 ^ 8 + 2 ^ 22 + (2 ^ 19 - 1) * 2 ^ 64)
    let s0 := s.takeMsg msg
    (msgBits msg 22 1 = 1 ∧ s0.bankState 1 ≠ 2 ∧ s0.boxMembers = [0, 1]) ∧
    (s0.isLead = true ∧ s0.gmu.asked = [(2 ^ 19 - 1, true)] ∧ msgBits msg 64 19 = 2 ^ 19 - 1 ∧
      ∀ q ∈ s0.livingMembers, q = msgBits msg 8 14 ∨ (q, 2 ^ 19 - 1) ∈ s0.gmu.ready) ∧
    (s.getF aGmuEpoch F.gmuEpoch_inject = 0 ∧ s.gmu.flip.isSome = true ∧ s.bankState 1 = 1) ∧
    (let t := withF s [(aGmuEpoch, F.gmuEpoch_bank1, 2), (aFltState, F.fltState_role, 0)]
     t.bankState 1 = 2 ∧ t.isLead = false) := by decide +kernel

/-! ### Witnesses: living with faults -/

/-- Core 59 of the last cluster of the last island, retired in the job that runs. -/
def swapUnit : BitVec 32 := unitId 2 7 39 15 59 0

theorem witness_LedgerEventsAndHealth :
    (let s := withF { State.reset with flt := { FltSt.reset with ledger := [⟨3, 7, 5, 0, 0, 0, 1⟩] } }
       [(aFltLedger, F.fltLedger_minutes, 10), (aFltLedger, F.fltLedger_pending, 1)]
     (∀ r ∈ s.flt.ledger, r.minutes + 10 ≤ s.getF aFltLedger F.fltLedger_minutes) ∧ s.getF aFltLedger F.fltLedger_minutes = 10 ∧
     0 < s.getF aFltLedger F.fltLedger_pending ∧ s.brt.job = false) ∧
    (∀ e ∈ [(⟨1, 2, 16⟩ : EvCount)], e.count ≤ 16) ∧ 16 < (⟨1, 2, 17⟩ : EvCount).count ∧
    (let s := { State.reset with brt := { BreathSt.reset with job := true }, flt := { FltSt.reset with newly := [swapUnit] } }
     bitsAt swapUnit.toNat 0 3 = 2 ∧ s.brt.job = true ∧ swapUnit ∈ s.flt.newly ∧ s.brt.running = false ∧
     s.logicalIsland (uField swapUnit) (uIsland swapUnit) = some 319 ∧ uCluster swapUnit = 15 ∧
     ((List.range 60).find? fun j => decide (s.physCore 319 (60 * uCluster swapUnit + j) = uCore swapUnit)) = some 59 ∧
     s.spareCore 319 (uCluster swapUnit) = some 60) := by decide +kernel

/-- A ledger at nine tenths of its records. -/
theorem witness_LedgerEventsAndHealth_compact :
    524288 * 9 ≤ (List.replicate 471860 (⟨2, 7, 5, 0, 0, 0, 1⟩ : Ledger)).length * 10 := by
  rw [List.length_replicate]
  decide

/-- The lead of the slice, its step 2 begun, with both members' reports of step 1. -/
def decideState (causes : Nat) : State :=
  withF { memberState Port.reset with
      brt := { BreathSt.reset with job := true, running := true, step := 2 }
      rcv := { Recov.reset with reports := [⟨0, 1, 0⟩, ⟨1, 1, causes⟩] } }
    [(aFltState, F.fltState_role, 1), (aGmuTrack, F.gmuTrack_open, 1), (aFltTag 2, F.fltTag_state, 1), (aFltTag 2, F.fltTag_step, 1)]

theorem witness_CommitReplayAndSweep :
    let s := decideState 0
    let msg := BitVec.ofNat 128 (2 ^ 8 + 2 ^ 24)
    let s0 := s.takeMsg msg
    (s0.isLead = true ∧ s0.rcv.decided < msgBits msg 24 48 ∧ s0.rcv.restart = false ∧ msgBits msg 72 8 = 0) ∧
    (∀ causes ∈ [0, 1],
      let s := decideState causes
      s.isLead = true ∧ s.brt.job = true ∧ s.brt.running = true ∧ s.brt.aborted = false ∧ s.rcv.restart = false ∧ s.brt.stepFirst = true ∧
      s.brt.step = s.rcv.decided + 2 ∧ s.workers = [0, 1] ∧
      ∀ p ∈ s.workers, ∃ r ∈ s.rcv.reports, r.step = s.rcv.decided + 1 ∧ r.member = p) ∧
    (∀ r ∈ s.rcv.reports, r.step = s.rcv.decided + 1 → r.causes = 0) ∧
    ((∃ r ∈ (decideState 1).rcv.reports, r.step = 1 ∧ r.causes ≠ 0) ∧ (decideState 1).rcv.replay = none) ∧
    (s0.committed < msgBits msg 24 48 ∧ s0.rcv.shadow = none ∧ s0.atBoundary = false ∧ s.tagState (tagOf 1) = 1 ∧ s.tagStep (tagOf 1) = 1) ∧
    ({ s with brt := { s.brt with taken := true } } : State).atBoundary = true ∧
    (s0.rcv.toCommit = none ∧ s0.getF aFltState F.fltState_recovery = 0 ∧ s0.getF aGmuTrack F.gmuTrack_open ≠ 0) ∧
    (let t := withF { State.reset with tier := { Tier.reset with tagDir := [(65535, 8)] }, tags := [(65536 * 65535, 3)] }
       [(aFltTag 3, F.fltTag_state, 2)]
     t.tagState 3 = 2 ∧ 65535 ∈ t.markedRegions 3 ∧ Tbl.wf 0 t.tier.tagDir = true ∧ Tbl.wf 0 t.tags = true) ∧
    (msgBits msg 8 14, msgBits msg 26 46) ∉ s0.rcv.swept := by decide +kernel

theorem witness_CommitReplayAndSweep_replay :
    let s := decideState 0
    let own := BitVec.ofNat 128 (2 ^ 24)
    let other := BitVec.ofNat 128 (2 ^ 24 + 2 ^ 72)
    ((s.takeMsg own).lead = (s.takeMsg own).self ∧ msgBits own 72 14 = (s.takeMsg own).self) ∧
    (let t := (withF s [(aBocState, F.bocState_image, 1)]).takeMsg other
     msgBits other 72 14 ≠ t.self ∧ msgBits other 86 14 = t.self ∧ t.hasImage = true ∧ t.replays = false) ∧
    (s.takeMsg own).isLead = true ∧
    (let t := { s with brt := { s.brt with running := false }, rcv := { s.rcv with shadow := some (1, 1), folds := true } }
     t.rcv.replay = none ∧ t.rcv.shadow.isSome = true ∧ t.brt.running = false) ∧
    (let t := { s with rcv := { s.rcv with replay := some ⟨1, [(0, 1)], false⟩ } }
     t.isLead = true ∧ t.rcv.shadow = none ∧ t.rcv.replay = some ⟨1, [(0, 1)], false⟩) ∧
    (let t := withF State.reset [(aFltState, F.fltState_recovery, 2), (aFltCapture 319 15 3 0, F.fltCapture_word, 1),
       (aFltCapture 319 15 3 1, F.fltCapture_word, 63 * 2 ^ 16)]
     t.hasCluster 319 15 = true ∧ t.getF aFltState F.fltState_recovery ≠ 0 ∧ t.brt.running = false ∧ t.captureEmpty 319 15 3 = false ∧
     t.flt.ledger = [] ∧ t.flt.retired = [] ∧ t.flt.newly = []) := by decide +kernel

theorem witness_LeadLossAndRestart :
    let lead := withF (decideState 0) [(aBocState, F.bocState_admitted, 1)]
    let member := withF (memberState Port.reset) [(aBocState, F.bocState_admitted, 1), (aFltState, F.fltState_lead, 1)]
    (msgBits 0 8 14 ∉ (lead.takeMsg 0).rcv.joiners ∧ lead.admitted = true ∧ lead.rcv.gone = false ∧ lead.isLead = true) ∧
    (member.manifest = some twoPackages ∧ member.admitted = true ∧ member.isLead = false ∧ member.silent member.lead = true ∧
      (twoPackages.leads.find? fun p => decide (p < 2 ^ 14) && decide (p ≠ member.lead) && !member.rcv.lost.contains p) = some member.self) ∧
    (1 ≠ lead.self ∧ 1 ∉ lead.rcv.lost ∧ (lead.memberRec 1).isSome = true ∧ lead.silent 1 = true) ∧
    (let msg := BitVec.ofNat 128 (2 ^ 24)
     let s0 := lead.takeMsg msg
     s0.isLead = true ∧ s0.brt.job = true ∧ msgBits msg 24 8 = 1 ∧ s0.rcv.restart = false ∧ s0.getF aFltState F.fltState_recovery = 0) ∧
    (let msg := BitVec.ofNat 128 ((2 ^ 40 - 1) * 2 ^ 88)
     let s0 := (withF State.reset [(aBocState, F.bocState_image, 1), (aFltState, F.fltState_recovery, 2)]).takeMsg msg
     s0.hasImage = true ∧ s0.getF aFltState F.fltState_recovery = 2 ∧ s0.standby = false ∧ s0.committed < 2 ^ 40 ∧
     s0.committed < msgBits msg 88 40) := by decide +kernel

/-! ### Witnesses: authentication, control messages, the slice's life -/

/-- A member whose port 47 is encrypted both ways, one flit sent and one received. -/
def authState : State := memberState { Port.reset with partner := some 1, encTx := true, encRx := true, eTx := 1, eRx := 1 }

theorem witness_TagsAndSessions :
    (let x := authState.port 47
     x.partner = some 1 ∧ 1 ≠ authState.self ∧ authState.ctlRoute 1 = some 0 ∧ x.encTx = true ∧ x.tagged < x.eTx ∧ x.encRx = true ∧
     x.covered < x.eRx) ∧
    (let msg := BitVec.ofNat 128 (0x40 + 39)
     let s0 := authState.takeMsg msg
     let y := s0.port 47
     y.encRx = true ∧ y.tagWait = [] ∧ msgBits msg 0 8 = 0x40 + oppositePort 47 ∧ resolveE (y.eRx - 1) (msgBits msg 8 24) < y.eRx ∧
     s0.rcv.report = none) ∧
    (let msg := BitVec.ofNat 128 (39 * 2 ^ 8)
     let s0 := authState.takeMsg msg
     let y := s0.port 47
     let e := resolveE (y.eTx - 1) (msgBits msg 14 24)
     47 = oppositePort (msgBits msg 8 6) ∧ y.partner = some 1 ∧ 1 ≠ s0.self ∧ s0.ctlRoute 1 = some 0 ∧ y.encTx = true ∧ e < y.eTx ∧
     y.tagged ≤ e + 1) := by decide +kernel

theorem witness_ControlMessagesAndFailover :
    let s := memberState Port.reset
    (let c := ctlOf 1 5
     c.local_ = false ∧ c.bcast = false ∧ c.dest ≠ s.self ∧ (s.takeMsg 5).ctlRoute c.dest = some 0) ∧
    (let m := BitVec.ofNat 128 (2 + 2 ^ 8)
     let c := ctlOf (2 ^ 14) m
     c.local_ = false ∧ c.bcast = true ∧ c.source ≠ s.self ∧ s.bcastKind m = true) ∧
    (let h : Ctl := ⟨1, false, false, 0, 5⟩
     let t := { s with ctl := { s.ctl with held := [h] } }
     t.ctl.held = [h] ∧ h.dest ≠ t.self ∧ t.ctlRoute h.dest = some 0 ∧ t.getF aBocBrq F.bocBrq_ctlDropped < 2 ^ 8 ∧
     (withF t [(aLnkState 0, F.lnkState_state, 0)]).ctlRoute h.dest = none) ∧
    (let t := { s with boc := { s.boc with selfCheckFailed := true } }
     t.boc.selfCheckFailed = true ∧ t.brt.job = false ∧ t.getF aBocState F.bocState_twin = 0 ∧
     (withF t [(aBocState, F.bocState_twin, 1)]).getF aBocState F.bocState_twin ≠ 0) ∧
    (let t := { s with brt := { s.brt with job := true }, rcv := { s.rcv with errors := [(7, 1)] } }
     t.brt.job = true ∧ Tbl.get 0 t.rcv.errors 7 = 1 ∧ unitId 5 7 0 0 0 0 ∉ t.flt.retired ∧ unitId 5 7 0 0 0 0 ∉ t.flt.newly) := by
  decide +kernel

theorem witness_AdmissionStartAndWithdrawal :
    (let s := withF { memberState Port.reset with boc := { BocSt.reset with joining := true, closeAt := some 9 } }
       [(aTimStatus, F.timStatus_locked, 1), (aBocDisc 47, F.bocDisc_class, 1)]
     s.manifest = some twoPackages ∧ s.boc.joining = true ∧ s.canJoin = true ∧ s.getF aCrpDrone F.crpDrone_state < 2 ^ 48 ∧
     s.boc.closeAt = some 9 ∧ (withF s [(aTimStatus, F.timStatus_locked, 0)]).canJoin = false) ∧
    (let e : Envelope := ⟨0, 12, 0x77, 0, 0, []⟩
     let msg := BitVec.ofNat 128 (2 ^ 8 + 0x77 * 2 ^ 24)
     let s0 := State.takeMsg { decideState 0 with boc := { BocSt.reset with envelope := some e } } msg
     s0.isLead = true ∧ s0.boc.envelope.isSome = true ∧ msgBits msg 24 64 = s0.imageWord ∧ msg.getLsbD 88 = false) ∧
    (let s := { imageState with brt := { BreathSt.reset with loadsDone := [0] } }
     s.hasImage = true ∧ s.brt.job = false ∧ s.getF aBocState F.bocState_ready = 0 ∧ s.loadsFinished = true ∧ s.acceptanceSettled = true ∧
     s.lead = s.self ∧ (s.takeMsg 0).hasImage = true ∧ (s.takeMsg 0).brt.job = false ∧ (s.takeMsg 0).standby = false) := by
  decide +kernel

/-! ### Witnesses: the Bocal request protocol -/

/-- An open session of the owner, its outgoing counter one below the last. -/
def aSession : Session := { id := 1, owner := true, record := 0, perms := 0, top := 5, seen := [], out := 2 ^ 32 - 2, answers := [] }

/-- A package past step 3 with that session open, its first owner enrolled. -/
def brqState (step : Nat) : State :=
  withF { memberState Port.reset with
      pins := { Pins.reset with power := .on }, boc := { BocSt.reset with sessions := [aSession] }
      nv := { NonVol.blank with enrolled := 5, chain := [⟨1, 5⟩] } }
    [(aBocState, F.bocState_step, step), (aFltState, F.fltState_role, 1)]

/-- A request in that session with the last counter. -/
def aRequest : Brq := { cls := 1, session := 1, counter := 2 ^ 32 - 1, rid := 9, tagOk := true }

theorem witness_RequestMessages :
    let s := brqState 3
    s.brqLive = true ∧ aRequest.cls = 1 ∧ s.session 2 = none ∧ s.session aRequest.session = some aSession ∧
    ({ aSession with seen := [2 ^ 32 - 1] } : Session).accepts aRequest.counter = false ∧ aSession.accepts aRequest.counter = true ∧
    aRequest.counter < 2 ^ 32 ∧ aSession.out + 1 < 2 ^ 32 ∧
    (let a : Resp := ⟨1, 0, 0x8031, 9, 0, [1]⟩
     ([a].find? fun a => decide (a.rid = aRequest.rid)) = some a) := by decide +kernel

theorem witness_InSession : InSession (brqState 3) aRequest aSession :=
  ⟨by decide +kernel, rfl, by decide +kernel, rfl, by decide +kernel, by decide, nofun, by decide, by decide +kernel⟩

theorem witness_SessionAndRegisterRequests :
    InSession (brqState 3) aRequest aSession ∧ aSession.may 0 = true ∧ (brqState 3).admitted = false ∧ aSession.may 7 = true ∧
    aSession.owner = true ∧
    (let s := { brqState 3 with boc := { BocSt.reset with sessions := List.replicate 7 aSession } }
     s.brqLive = true ∧ s.boc.recovery = false ∧ s.owner.isSome = true ∧ s.boc.sessions.length < 8 ∧ s.session 2 = none) :=
  ⟨witness_InSession, by decide +kernel⟩

theorem witness_SliceAndUpdateRequests :
    let s := brqState 9
    InSession s aRequest aSession ∧
    (aSession.may 2 = true ∧ s.manifest.isSome = true ∧ s.getF aBocState F.bocState_step = 9 ∧
      (withF s [(aBocState, F.bocState_grant, 1)]).getF aBocState F.bocState_grant ≠ 0 ∧ s.getF aBocCapacity F.bocCapacity_class ≠ 3 ∧
      s.ahead (nsBeat 100000000) 100000000 = true) ∧
    (s.isLead = true ∧ s.brt.running = false ∧ s.fab.patches = [] ∧ s.isMember 1 = true) ∧
    (withF s [(aBocState, F.bocState_admitted, 1)]).admitted = true ∧
    (s.brt.job = false ∧ ({ s with rcv := { s.rcv with ready := [0], lost := [1] } } : State).allReady = true) ∧
    (aSession.may 4 = true ∧ s.admitted = false ∧ (withF s [(aSecState, F.secState_trial, 1)]).getF aSecState F.secState_trial ≠ 0 ∧
      s.boc.secVer < 2 ^ 7 ∧ s.getF aSecCounters F.secCounters_ctr0 < 2 ^ 7) ∧ aSession.may 3 = true :=
  ⟨⟨by decide +kernel, rfl, by decide +kernel, rfl, by decide +kernel, by decide, nofun, by decide, by decide +kernel⟩, by decide +kernel⟩

/-- An open session on a package on which a breath of a job runs; a step waits for management; one TONE pack is installed. -/
theorem witness_SliceAndUpdateRequests_job :
    let s0 := brqState 11
    let s := { s0 with
      brt := { BreathSt.reset with job := true, running := true }, rcv := { s0.rcv with waits := some 1 }
      boc := { s0.boc with packs := [⟨1, 0, 0, 0⟩] } }
    InSession s aRequest aSession ∧ s.isLead = true ∧ s.brt.job = true ∧ s.brt.running = true ∧ s.brt.taken = false ∧ s.brt.aborted = false ∧
    s.rcv.waits = some 1 ∧ s.boc.packs = [⟨1, 0, 0, 0⟩] :=
  ⟨⟨by decide +kernel, rfl, by decide +kernel, rfl, by decide +kernel, by decide, nofun, by decide, by decide +kernel⟩, by decide +kernel⟩

/-- Writes of a manifest chunk, and of a floor request for generation 64. -/
def objectState : State :=
  let s := brqState 9
  { withF s [(aSecState, F.secState_keys, 1), (aFldChannels 0, F.fldChannels_active, 1), (aFldChannels 0, F.fldChannels_count, 1)] with
    manifest := none
    boc := { s.boc with
      manBytes := [1, 2, 3]
      writes := [⟨1, 0x30, 0, [(0, [1, 2])]⟩, ⟨1, 0x24, 0, [(0, [1, 0, 64, 0, 0, 0, 0, 0, 0, 0, 0, 0, 0, 0, 0, 0]), (16, List.replicate 7228 0)]⟩] } }

theorem witness_objects_session : InSession objectState aRequest aSession :=
  ⟨by decide +kernel, rfl, by decide +kernel, rfl, by decide +kernel, by decide, nofun, by decide, by decide +kernel⟩

theorem witness_ObjectRequests :
    let s := objectState
    InSession s aRequest aSession ∧ s.brqLive = true ∧ (aSession.may 1 = true ∧ 2 + 1 ≤ s.boc.manBytes.length) ∧
    (s.objGate 0x30 aSession = 0 ∧ s.objOpen 0x30 1 = none) ∧
    (objKnown 0x30 = true ∧ objWritable 0x30 aSession = true ∧ s.objOpen 0x30 0 = some ⟨1, 0x30, 0, [(0, [1, 2])]⟩ ∧
      2 ≤ chunkReach [(0, [1, 2])]) ∧
    (aSession.owner = true ∧ s.owner.isSome = true ∧ s.getF aSecCounters F.secCounters_ctr2 ≤ 64) ∧
    (aSession.may 5 = true ∧ s.getF aSecState F.secState_keys ≠ 0 ∧ s.ckptRange 0 (2 ^ 20) = true ∧ s.anyLive 0 (2 ^ 20) = false ∧
      s.anyBad 0 (2 ^ 20) = false) :=
  ⟨witness_objects_session, by decide +kernel⟩

theorem chunks_reach (l : List Byte) (h : l.length = 7228) :
    16 + sigLen ≤ chunkReach [(0, [1, 0, 64, 0, 0, 0, 0, 0, 0, 0, 0, 0, 0, 0, 0, 0]), (16, l)] := by
  simp [chunkReach, sigLen, List.range_succ, h]

/-- The floor request's chunks reach its length, and its fields are in order. -/
theorem witness_ObjectRequests_floor :
    let l : List (Nat × List Byte) := [(0, [1, 0, 64, 0, 0, 0, 0, 0, 0, 0, 0, 0, 0, 0, 0, 0]), (16, List.replicate 7228 0)]
    (objectState.objOpen 0x24 0 = some ⟨1, 0x24, 0, l⟩) ∧ 16 + sigLen ≤ chunkReach l ∧
    (let bs := chunkBytes l (16 + sigLen)
     byteField bs 0 1 = 1 ∧ byteField bs 2 3 = 64 ∧ byteField bs 4 11 = 0 ∧ zeroBytes bs 12 15 = true) := by
  exact ⟨rfl, chunks_reach _ List.length_replicate, by decide +kernel⟩

/-! ### Witnesses: I3C and the whole machine -/

theorem witness_I3cAndTestPort :
    let s := brqState 3
    s.i3cLive = true ∧ s.i3c.addr = none ∧ ({ s with i3c := { s.i3c with addr := some 127 } } : State).i3c.addr.isSome = true := by decide +kernel

theorem witness_StepRunsTheFrontCommand :
    ({ State.reset with pending := [.missedStart] } : State).pending = [.missedStart] ∧ State.reset.pending = [] := ⟨rfl, rfl⟩

theorem witness_WellFormedCommandsComplete :
    wellFormed (.stmEnd 127) = true ∧ State.reset.perField = 40 ∧ exec (.stmEnd 128) State.reset = .fault .absentUnit :=
  ⟨by decide, by decide +kernel, rfl⟩

/-- A command that completes, in a queue. -/
theorem witness_MemoryStaysCanonical :
    Memory.wf State.reset.mem = true ∧
    step { State.reset with pending := [.rstdaa] } = .next { State.reset with i3c := { State.reset.i3c with addr := none } } :=
  ⟨by decide +kernel, rfl⟩

theorem witness_CommandsLeaveTheQueue :
    exec .rstdaa State.reset = .next { State.reset with i3c := { State.reset.i3c with addr := none } } := rfl

theorem witness_BeatIncrement :
    (27460302903#64).toNat = 27460302903 ∧ (27515278485#64).toNat = 27515278485 ∧ (27460302902#64).toNat < 27460302903 ∧
    27515278485 < (27515278486#64).toNat ∧ (27515278486#64).toNat < 2 ^ 40 ∧ onState.pins.power = .on ∧ onState.pins.phase = none := by
  decide +kernel

theorem witness_ProvisionalTagInstructions :
    Runs State.reset State.reset (slotOf 319 959) slotX [dSpecial 8] 319 959 ∧ State.reset.hasCore 319 959 = true ∧
    (State.reset.core 319 959).flight = [] ∧ (3#2 ≠ 0) ∧ State.reset.getF (aIslCoreFault 319 959) F.islCoreFault_code = 0 ∧
    State.reset.isFenced 319 = false :=
  ⟨runs_of (by decide +kernel), by decide +kernel⟩

/-- Shifts at and below 0, two orders of two additions, a lane and an addition that agree with their residues, and one that does not: a sum
of 1 with residue 2. -/
theorem witness_AccumulationIsExact :
    (0 : Int) ≤ 3 + 4 - 7 ∧ (3 + 4 - 8 : Int) < 0 ∧ [LaneAdd.zero, LaneAdd.zero].Perm [LaneAdd.zero, LaneAdd.zero] ∧
    residueAgrees Lane.zero.sum Lane.zero.res Lane.zero.wraps = true ∧ residueAgrees LaneAdd.zero.t LaneAdd.zero.res LaneAdd.zero.wraps = true ∧
    (let x := Lane.zero.add { LaneAdd.zero with t := 1, res := 2 }
     residueAgrees x.sum x.res x.wraps = false ∧ x.chk = true) :=
  ⟨by decide, by decide, List.Perm.refl _, by decide +kernel⟩

/-! ### One step on fixed values, worked out by hand from the spec -/

/-- Core 0 of island 0 with a few scalars and vectors: s1 = 80000000, s2 = FFFFFFFF, s3 = 33, v1 all 1.0, v2 all 2.0, v3 all 4.0 (binary32). -/
def calcState : State :=
  let all := fun (x : Nat) => BitVec.ofNat 512 (packLanes 32 16 fun _ => x)
  State.reset.setCore 0 0 { Core.reset with
    sregs := [(1, 0x80000000), (2, 0xFFFFFFFF), (3, 33), (4, 0x10), (5, 0x12345678)]
    vregs := [(1, all 0x3F800000), (2, all 0x40000000), (3, all 0x40800000)] }

/-- The core once the instruction has issued and `k` issue cycles are over. -/
def after (k : Nat) (i : Instr) : Core :=
  match exec i calcState with
  | .next t => (State.advance 0 k t).1.core 0 0
  | _ => Core.reset

/-- Its header. -/
def sl : Slot := slotOf 0 0

theorem test_add_wraps : (after 1 (.add sl 6 1 1)).rs 6 = 0 ∧ (after 1 (.sub sl 6 1 2)).rs 6 = 0x80000001 := by decide +kernel

theorem test_register_zero_stays_zero : (after 1 (.add sl 0 1 2)).rs 0 = 0 := by decide +kernel

/-- Shift counts are taken modulo 32. -/
theorem test_shifts :
    (after 1 (.shl sl 6 2 3)).rs 6 = 0xFFFFFFFE ∧ (after 1 (.shr sl 6 1 3)).rs 6 = 0x40000000 ∧ (after 1 (.sra sl 6 1 3)).rs 6 = 0xC0000000 := by
  decide +kernel

theorem test_min_signed_unsigned :
    (after 1 (.min sl 6 1 3)).rs 6 = 0x80000000 ∧ (after 1 (.minu sl 6 1 3)).rs 6 = 33 ∧ (after 1 (.max sl 6 1 2)).rs 6 = 0xFFFFFFFF ∧
    (after 1 (.maxu sl 6 1 3)).rs 6 = 0x80000000 := by decide +kernel

/-- A multiplication delivers after three issue cycles and not after two. -/
theorem test_mul_latency :
    (after 2 (.mulhu sl 6 2 2)).rs 6 = 0 ∧ (after 3 (.mulhu sl 6 2 2)).rs 6 = 0xFFFFFFFE ∧ (after 3 (.mulh sl 6 2 2)).rs 6 = 0 ∧
    (after 3 (.mul sl 6 2 2)).rs 6 = 1 := by decide +kernel

theorem test_immediates :
    (after 1 (.addi sl 6 4 0xFFF0)).rs 6 = 0 ∧ (after 1 (.movi sl 6 0 0x8000)).rs 6 = 0xFFFF8000 ∧ (after 1 (.movhi sl 6 5 0xABCD)).rs 6 = 0xABCD5678 ∧
    (after 1 (.ori sl 6 5 0x8000)).rs 6 = 0x1234D678 := by decide +kernel

theorem test_compares :
    (after 1 (.cmp sl 1 2 1 3)).rp 1 = true ∧ (after 1 (.cmp sl 1 4 1 3)).rp 1 = false ∧ (after 1 (.cmp sl 0 1 1 1)).rp 0 = true := by
  decide +kernel

/-- A transfer whose group ends with it: the core goes on at the target, and jal keeps the bundle after. -/
theorem test_transfers :
    (after 1 (.br { sl with eog := true } 0x7FF)).pc = 0x7FF ∧ (after 1 (.jal { sl with eog := true } 6 9)).rs 6 = 1 ∧
    (after 1 (.loop { sl with eog := true } 3 9)).rs 3 = 32 ∧ (after 1 (.loop { sl with eog := true } 0 9)).pc = 1 := by decide +kernel

theorem test_special_registers :
    (after 1 (.smovToSpecial sl 7 2)).tensor = 0x7FFFFFFF ∧ (after 1 (.smovToSpecial sl 9 2)).astat = 0x1F ∧
    (after 1 (.provBegin sl 3)).prov = 3 ∧ (after 1 (.stepSet sl 2)).step = 0x21FFFFFFFF := by decide +kernel

/-- 1 + 2 = 3, 1 − 2 = −1, 2 × 4 = 8, 1 × 2 + 4 = 6. -/
theorem test_vector_arithmetic :
    laneAt ((after 4 (.vadd sl 0 6 1 2 0 0)).rv 6) 32 15 = 0x40400000 ∧ laneAt ((after 4 (.vsub sl 0 6 1 2 0 0)).rv 6) 32 0 = 0xBF800000 ∧
    laneAt ((after 4 (.vmul sl 0 6 2 3 0 0)).rv 6) 32 7 = 0x41000000 ∧ laneAt ((after 4 (.vfma sl 0 6 1 2 3 0 0)).rv 6) 32 7 = 0x40C00000 := by
  decide +kernel

/-- The sum of sixteen twos is 32, in every lane. -/
theorem test_reduction : laneAt ((after 6 (.vredsum sl 0 6 2)).rv 6) 32 15 = 0x42000000 := by decide +kernel

/-- √4 = 2, 1/2, log2 4 = 2, 2^1 = 2, e^0 = 1: exact results. -/
theorem test_functions :
    laneAt ((after 10 (.vsqrt sl 0 6 3 0 0)).rv 6) 32 3 = 0x40000000 ∧ laneAt ((after 10 (.vrcp sl 0 6 2 0 0)).rv 6) 32 3 = 0x3F000000 ∧
    laneAt ((after 10 (.vlog2 sl 0 6 3 0 0)).rv 6) 32 3 = 0x40000000 ∧ laneAt ((after 10 (.vexp2 sl 0 6 1 0 0)).rv 6) 32 3 = 0x40000000 ∧
    laneAt ((after 10 (.vexp sl 0 6 0 0 0)).rv 6) 32 3 = 0x3F800000 := by decide +kernel

/-- 2.0 narrows to 0x40 in E4M3 (exponent 8, bias 7) and widens back. -/
theorem test_conversion : byteAt ((after 4 (.vcvtNarrow sl 0 6 2 0 0 0 false 0)).rv 6) 15 = 0x40 := by decide +kernel

theorem test_inserts :
    laneAt ((after 4 (.vins sl 1 15 5)).rv 1) 32 15 = 0x12345678 ∧ laneAt ((after 4 (.vins sl 1 15 5)).rv 1) 32 14 = 0x3F800000 ∧
    (after 4 (.vext sl 6 2 15)).rs 6 = 0x40000000 ∧ laneAt ((after 4 (.vbcast sl 6 5)).rv 6) 32 9 = 0x12345678 := by decide +kernel

/-- What is stored is loaded back, in little-endian order, sign-extended on demand. -/
theorem test_memory :
    let s := match exec (.st sl 5 4 0xFFF8 2 false) calcState with | .next t => (State.advance 0 1 t).1 | _ => calcState
    s.readNat (s.tileBase 0 0 + 8) 4 = 0x12345678 ∧ s.readByte (s.tileBase 0 0 + 8) = 0x78 ∧
    (match exec (.ld sl 6 4 0xFFF9 0 true) (s.writeByte (s.tileBase 0 0 + 9) 0x80) with
     | .next t => ((State.advance 0 3 t).1.core 0 0).rs 6
     | _ => 0) = 0xFFFFFF80 := by decide +kernel

/-- A misaligned store faults with code 2, and its core stops. -/
theorem test_misaligned :
    (match exec (.st sl 5 4 1 2 false) calcState with
     | .next t => decide ((t.core 0 0).run = .faulted) && t.brt.aborted
     | _ => false) = true := by decide +kernel

/-- The value of an E4M3 element. -/
def e4m3 (code : Nat) : Val := elemVal 0 code 0x7F

/-- "Order and anchor: a worked example": the four products with anchors −18 and −12. -/
theorem test_products :
    (productAdd (-18) (e4m3 0x7E) (e4m3 0x7E)).t.toInt = 52613349376 ∧ (productAdd (-18) (e4m3 0xFE) (e4m3 0x7E)).t.toInt = -52613349376 ∧
    (productAdd (-18) (e4m3 1) (e4m3 1)).t.toInt = 1 ∧ (productAdd (-18) (e4m3 1) (e4m3 0x83)).t.toInt = -3 ∧
    (productAdd (-18) (e4m3 1) (e4m3 0x83)).lost = false ∧ (productAdd (-12) (e4m3 0x7E) (e4m3 0x7E)).t.toInt = 822083584 ∧
    ((productAdd (-12) (e4m3 1) (e4m3 1)).t.toInt = 0 ∧ (productAdd (-12) (e4m3 1) (e4m3 1)).lost = true) ∧
    ((productAdd (-12) (e4m3 1) (e4m3 0x83)).t.toInt = -1 ∧ (productAdd (-12) (e4m3 1) (e4m3 0x83)).lost = true) := by decide +kernel

/-- The same example read out to binary32: −2⁻¹⁷ and −2⁻¹². -/
theorem test_readouts :
    let lane := fun (anchor : Int) => ([(0x7E, 0x7E), (1, 1), (0xFE, 0x7E), (1, 0x83)] : List (Nat × Nat)).foldl
      (fun x p => x.add (productAdd anchor (e4m3 p.1) (e4m3 p.2))) Lane.zero
    let seed : Seed := { key := (0, 0, 0, 0), tensor := 0, step := 0 }
    let out := fun (anchor : BitVec 11) => readoutBytes 0 0 (rmOf 0) false 0 seed 0 { anchor := anchor, lanes := [(0, lane anchor.toInt)] } % 2 ^ 32
    out (BitVec.ofInt 11 (-18)) = 0xB7000000 ∧ out (BitVec.ofInt 11 (-12)) = 0xB9800000 := by decide +kernel

/-- "Four rows to the next cluster": the two route words and route entries. -/
theorem test_switch_encodings :
    wordRoutes 0x0430000C = [12] ∧ wordRoutes 0x04A0000C = [40] ∧ routeSrc 0x20005 = 5 ∧ routeMesh 0x20005 = [1] ∧
    routeSrc 0x80000000000000000000000400004843 = 67 ∧ routeCores 0x80000000000000000000000400004843 = [10] := by decide +kernel

/-- What a bundle's words are read with. -/
def aBundle : BundleEnv := { site := .core 0 0, adv := 1, fetch := .clean, chk := fun _ => 0, ecc := fun _ => .clean }

/-- The worked bundle of "Matrix and accumulator instructions": wswap beside mma.e4m3 q31, v3.7 in a bundle that ends its group; a bundle with no valid slot; and in the
X slot stream.put of v31 on channel 7, word by word from R159 and R160: opcode 0x0C at bits 8:3, va at 13:9, ch at 16:14. -/
theorem test_bundle_words :
    bundleCommands aBundle 0x38FE0080000000580B =
      [.wswap { slotOf 0 0 with adv := 1, eog := true }, .mma { slotOf 0 0 with eog := true } 0 31 3 7] ∧
    bundleCommands aBundle 8 = [] ∧
    bundleCommands aBundle (BitVec.ofNat 128 (4 + (0x0C * 2 ^ 3 + 31 * 2 ^ 9 + 7 * 2 ^ 14) * 2 ^ 90)) =
      [.streamPut { slotOf 0 0 with adv := 1 } 7 31] := by decide +kernel

/-- A reserved bit of a slot's word makes the bundle illegal: code 1 in slot M (R119, R123). -/
theorem test_reserved_bit_faults :
    (match exec (.vand { slotOf 0 0 with res := true } 6 1 2) calcState with
     | .next t => decide (t.getF (aIslCoreFault 0 0) F.islCoreFault_code = 1 ∧ t.getF (aIslCoreFault 0 0) F.islCoreFault_slot = 1)
     | _ => false) = true := by decide +kernel

/-- The nominal increment at 156.25 MHz: ten ticks advance the beat by 64 ns, less a part of 2⁻¹⁶ ns. -/
theorem test_ticks :
    let tick := fun (s : State) => match exec .referenceClockTick s with | .next t => t | _ => s
    (Nat.repeat tick 10 onState).beat.toNat = 64 * 65536 - 1 := by decide +kernel

/-- An access of four bytes is refused; one of eight writes the register. -/
theorem test_register_access_error :
    (match exec (.registerWrite (aIslStallLimit 0) 4 1 0) State.reset with | .next t => t.bus.err | _ => false) = true ∧
    (match exec (.registerWrite (aIslStallLimit 0) 8 7 0) State.reset with
     | .next t => decide (t.getF (aIslStallLimit 0) F.islStallLimit_cycles = 7) && !t.bus.err
     | _ => false) = true := by decide +kernel

end Sys2Proof.Tests
end

section
/-! Proofs about faults of a core: what a fault's report leaves alone, what a core fault records, and what an instruction with a reserved
encoding leads to (R116, R119, R235). -/

namespace Sys2Proof.Machine

/-! ### Register writes outside a field -/

/-- Writes of other fields of the same register leave a field as it was. -/
theorem State.getF_setFs_other (a : Nat) (g : Fld) (l : List (Fld × Nat)) (h : ∀ p ∈ l, p.1.lo ≠ g.lo) (s : State) :
    (s.setFs a l).getF a g = s.getF a g := by
  induction l generalizing s with
  | nil => rfl
  | cons p l ih =>
    have hp : fkey a g ≠ fkey a p.1 := by
      have := h p List.mem_cons_self
      simp only [fkey]
      omega
    calc (s.setFs a (p :: l)).getF a g = ((s.setF a p.1 p.2).setFs a l).getF a g := rfl
      _ = (s.setF a p.1 p.2).getF a g := ih (fun q hq => h q (List.mem_cons_of_mem p hq)) _
      _ = s.getF a g := State.getF_setF_other s a p.1 p.2 hp

/-- The first of the fields set together reads its value, when none of the rest starts at its bit. -/
theorem State.getF_setFs_head (s : State) (a : Nat) (f : Fld) (v : Nat) (l : List (Fld × Nat)) (h : ∀ p ∈ l, p.1.lo ≠ f.lo) :
    (s.setFs a ((f, v) :: l)).getF a f = v % 2 ^ f.width :=
  (State.getF_setFs_other a f l h (s.setF a f v)).trans (State.getF_setF_same s a f v)

@[simp] theorem State.core_setFs (a : Nat) (l : List (Fld × Nat)) (s : State) (m u : Nat) : (s.setFs a l).core m u = s.core m u := by
  induction l generalizing s with
  | nil => rfl
  | cons p l ih => exact ih (s.setF a p.1 p.2)

/-! ### What leaves the cores and the islands' registers alone -/

/-- Every core, and every register of the islands' blocks (R236), is as it was. -/
structure State.SparesIslands (s t : State) : Prop where
  core : ∀ m u, t.core m u = s.core m u
  regs : ∀ b g, islBase 0 ≤ b → t.getF b g = s.getF b g

theorem State.SparesIslands.refl (s : State) : s.SparesIslands s := ⟨fun _ _ => rfl, fun _ _ _ => rfl⟩

/-- A change that reaches neither the cores nor the registers. -/
theorem State.SparesIslands.of_eq {s t : State} (hc : t.cores = s.cores) (hr : t.regs = s.regs) : s.SparesIslands t :=
  ⟨fun m u => by simp only [State.core, hc], fun b g _ => by simp only [State.getF, hr]⟩

theorem State.SparesIslands.trans {s t v : State} (h : s.SparesIslands t) (k : t.SparesIslands v) : s.SparesIslands v :=
  ⟨fun m u => (k.core m u).trans (h.core m u), fun b g hb => (k.regs b g hb).trans (h.regs b g hb)⟩

/-- A fold leaves them alone when each of its steps does. -/
theorem State.SparesIslands.foldl {α : Type} {f : State → α → State} (l : List α)
    (h : ∀ (s : State), ∀ x ∈ l, s.SparesIslands (f s x)) (s : State) :
    s.SparesIslands (l.foldl f s) := by
  induction l generalizing s with
  | nil => exact .refl s
  | cons x l ih => exact (h s x List.mem_cons_self).trans (ih (fun s y hy => h s y (List.mem_cons_of_mem x hy)) _)

/-- A write of a register below the islands' blocks. -/
theorem State.sparesIslands_setF (s : State) (a : Nat) (f : Fld) (v : Nat) (ha : a < islBase 0) (hf : f.lo < 64) :
    s.SparesIslands (s.setF a f v) where
  core _ _ := rfl
  regs b g hb := State.getF_setF_other s a f v (by simp only [fkey]; omega)

theorem aFltRing_lt_islBase : aFltRing < islBase 0 := by decide

theorem aFltEvent_lt_islBase {i k : Nat} (hi : i < 4096) (hk : k < 8) : aFltEvent i k < islBase 0 := by
  simp only [aFltEvent, fltBase, islBase]
  omega

theorem State.sparesIslands_writeEvent (s : State) (cls code flags : Nat) (unit : BitVec 32) (detail : Nat) :
    s.SparesIslands (s.writeEvent cls code flags unit detail) := by
  have hring : ∀ (s : State) (f : Fld) (v : Nat), f.lo < 64 → s.SparesIslands (s.setF aFltRing f v) :=
    fun s f v hf => s.sparesIslands_setF aFltRing f v aFltRing_lt_islBase hf
  have himage : ∀ i < 4096, ∀ (g : Nat → Nat),
      s.SparesIslands ((List.range 8).foldl (fun s k => s.setF (aFltEvent i k) F.fltEvent_word (g k)) s) := fun i hi g =>
    .foldl _ (fun s k hk => s.sparesIslands_setF _ _ _ (aFltEvent_lt_islBase hi (List.mem_range.mp hk)) (by decide)) s
  have hslot : s.getF aFltRing F.fltRing_head % 4096 < 4096 := Nat.mod_lt _ (by decide)
  simp only [State.writeEvent]
  refine .trans ?_ (hring _ _ _ (by decide))
  split
  · exact (himage _ hslot _).trans ((hring _ _ _ (by decide)).trans (hring _ _ _ (by decide)))
  · exact himage _ hslot _

theorem State.sparesIslands_event (s : State) (cls code flags : Nat) (unit : BitVec 32) (detail : Nat) :
    s.SparesIslands (s.event cls code flags unit detail) := by
  simp only [State.event]
  split_ifs
  · refine .trans ?_ (State.sparesIslands_writeEvent _ cls code flags unit detail)
    exact .of_eq rfl rfl
  · exact .of_eq rfl rfl

theorem State.sparesIslands_sendTo (s : State) (dest : Nat) (m : Msg) : s.SparesIslands (s.sendTo dest m) := by
  simp only [State.sendTo, State.unicast]
  split
  · exact .of_eq rfl rfl
  · split <;> exact .of_eq rfl rfl

theorem State.sparesIslands_dropQueues (s : State) (n : Nat) : s.SparesIslands (s.dropQueues n) := by
  have hisland : ∀ (s : State) m x, s.SparesIslands (s.setIsland m x) := fun _ _ _ => .of_eq rfl rfl
  simp only [State.dropQueues]
  refine .trans (hisland s n _) (.foldl (List.range 16) (fun s q _ => ?_) _)
  split
  · exact hisland s _ _
  · exact .refl s

/-! ### A fault of an island, and of a core -/

/-- An island fault writes of the islands' registers only its own breath state (R235). -/
theorem State.islandFault_spares (s : State) (n code residue : Nat) :
    s.SparesIslands (s.islandFault n code residue) ∨
      (s.setF (aIslBreath n) F.islBreath_state 2).SparesIslands (s.islandFault n code residue) := by
  simp only [State.islandFault]
  split
  · exact .inl (.refl s)
  · refine .inr (.trans (.trans ?_ (State.sparesIslands_event _ _ _ _ _ _)) (State.sparesIslands_sendTo _ _ _))
    exact (State.sparesIslands_dropQueues _ n).trans (.of_eq rfl rfl)

@[simp] theorem State.core_islandFault (s : State) (n code residue m u : Nat) :
    (s.islandFault n code residue).core m u = s.core m u := by
  rcases s.islandFault_spares n code residue with h | h <;> exact h.core m u

/-- The fault records of an island's cores survive the island's fault. -/
@[simp] theorem State.getF_islandFault_coreFault (s : State) (n code residue u : Nat) (g : Fld) :
    (s.islandFault n code residue).getF (aIslCoreFault n u) g = s.getF (aIslCoreFault n u) g := by
  have habove : islBase 0 ≤ aIslCoreFault n u := by simp only [aIslCoreFault, islBase]; omega
  rcases s.islandFault_spares n code residue with h | h
  · exact h.regs _ g habove
  · rw [h.regs _ g habove]
    refine State.getF_setF_other s _ _ 2 ?_
    simp only [fkey, aIslCoreFault, aIslBreath, F.islBreath_state]
    omega

theorem State.core_coreFault_run (s : State) (n u : Nat) (cs : List Cause) : ((s.coreFault n u cs).core n u).run = .faulted := by
  simp only [State.coreFault, State.core_islandFault]
  split <;> simp

/-- The first fault of a core since island reset is recorded with its bundle's code (R116, R119). -/
theorem State.getF_coreFault_code (s : State) (n u : Nat) (cs : List Cause) (h : s.getF (aIslCoreFault n u) F.islCoreFault_code = 0) :
    (s.coreFault n u cs).getF (aIslCoreFault n u) F.islCoreFault_code = (faultOf ((s.core n u).causes ++ cs)).2.1 % 2 ^ 8 := by
  simp only [State.coreFault, State.getF_islandFault_coreFault, h, true_or, if_true]
  refine State.getF_setFs_head _ _ F.islCoreFault_code _ _ ?_
  simp [F.islCoreFault_code, F.islCoreFault_slot, F.islCoreFault_addr, F.islCoreFault_more, F.islCoreFault_cyc]

/-! ### An illegal bundle -/

/-- Causes that only make a bundle illegal, a reserved encoding among them, are recorded with code 1 (R117, R119). -/
theorem faultOf_code_of_reserved {cs : List Cause} (hk : ∀ c ∈ cs, c.kind ≠ .fetch ∧ c.kind ≠ .execution)
    (hr : ∃ c ∈ cs, c.kind = .reserved) : (faultOf cs).2.1 = 1 := by
  have hfetch : (cs.find? fun c => decide (c.kind = .fetch)) = none := by
    rw [List.find?_eq_none]
    exact fun c hc => by simp [(hk c hc).1]
  have hexec : (cs.filter fun c => decide (c.kind = .execution)) = [] := by
    rw [List.filter_eq_nil_iff]
    exact fun c hc => by simp [(hk c hc).2]
  have hres : causeSlots .reserved cs ≠ [] := by
    obtain ⟨c, hc, hcr⟩ := hr
    exact List.ne_nil_of_mem (List.mem_map_of_mem (List.mem_filter.mpr ⟨hc, by simp [hcr]⟩))
  simp only [faultOf, hfetch, hexec, illegalSlot, if_pos hres, true_or, or_true, if_true]

/-- What makes a bundle illegal is neither a fault of its fetch nor one of execution. -/
theorem Ctx.illegal_kinds (x : Ctx) (op : Op) : ∀ c ∈ x.illegal op, c.kind ≠ .fetch ∧ c.kind ≠ .execution := by
  intro c hc
  simp only [Ctx.illegal, List.mem_append] at hc
  obtain (hheader | hreserved) | hdup := hc
  · obtain ⟨-, rfl⟩ : _ ∧ c = _ := by simpa using hheader
    simp
  · obtain ⟨-, rfl⟩ : _ ∧ c = _ := by simpa using hreserved
    simp
  · split at hdup
    · obtain rfl | hother := List.mem_cons.mp hdup
      · simp
      · obtain ⟨p, -, rfl⟩ := List.mem_map.mp hother
        simp
    · simp at hdup

/-- An encoding that is not legal brings its bundle a reserved cause. -/
theorem Ctx.reserved_mem_illegal (x : Ctx) (op : Op) (h : op.legal = false) : ⟨.reserved, op.slot, 0x01⟩ ∈ x.illegal op := by
  simp [Ctx.illegal, h]

/-- An instruction whose encoding is reserved does not execute, so that its illegality is all that it brings. -/
theorem Ctx.causes_of_not_legal (x : Ctx) (op : Op) (h : op.legal = false) : x.causes op = x.illegal op := by
  simp [Ctx.causes, Ctx.executes, h]

theorem State.readFaulted_of_not_legal (s : State) (x : Ctx) (op : Op) (h : op.legal = false) : s.readFaulted x op = s := by
  simp [State.readFaulted, Ctx.executes, h]

/-- A slot whose encoding is reserved joins its bundle, and its causes fault the core. -/
theorem State.slotFaulted_of_not_legal (t : State) (n u : Nat) (op : Op) {cs : List Cause} (hl : op.legal = false) (hcs : cs ≠ []) :
    t.slotFaulted (t.ctx n u op.sl) op cs =
      (t.setCore n u (((t.core n u).openSlot op.i op.sl op.slot op.dests).launch (t.ctx n u op.sl).fetchEffs)).coreFault n u cs := by
  simp only [State.slotFaulted, State.readFaulted_of_not_legal _ _ op hl, List.isEmpty_eq_false_iff.mpr hcs, Bool.false_eq_true,
    if_false]
  rfl

/-- An instruction whose encoding is reserved stops its core, and the first fault recorded has code 1 (R116, R119, R123). -/
theorem Reaches.faults_of_not_legal {s t : State} {op : Op} {n u : Nat} (h : Reaches s t op.sl op.slot n u) (hl : op.legal = false)
    (hf : t.getF (aIslCoreFault n u) F.islCoreFault_code = 0) (legal : Bool) (body : State → CtlCore → CtlBody) :
    CompletesWith (issue s op legal body) fun v =>
      (v.core n u).run = .faulted ∧ v.getF (aIslCoreFault n u) F.islCoreFault_code = 1 := by
  have hmem := (t.ctx n u op.sl).reserved_mem_illegal op hl
  have hne : (t.ctx n u op.sl).illegal op ≠ [] := List.ne_nil_of_mem hmem
  have hcode := faultOf_code_of_reserved ((t.ctx n u op.sl).illegal_kinds op) ⟨_, hmem, rfl⟩
  have hcauses : (((t.core n u).openSlot op.i op.sl op.slot op.dests).launch (t.ctx n u op.sl).fetchEffs).causes = [] := h.whole
  refine ⟨_, h.issues rfl rfl legal body, ?_⟩
  rw [h.issueNow rfl, Ctx.causes_of_not_legal _ op hl, if_pos hne, State.slotFaulted_of_not_legal t n u op hl hne]
  refine ⟨State.core_coreFault_run _ n u _, ?_⟩
  rw [State.getF_coreFault_code (State.setCore _ n u _) n u _ hf, State.core_setCore_same, hcauses, List.nil_append, hcode]
  rfl

end Sys2Proof.Machine
end

section
/-! Proofs about the provisional tag's instructions (R181). -/

namespace Sys2Proof.Machine

/-- Until the effects it puts in flight deliver, an instruction leaves the tag of its core (R81). -/
theorem State.issued_prov (t : State) (i : Instr) (sl : Slot) (slot : Nat) (dests : List Nat) (n u : Nat) (effs : List (Nat × Eff)) :
    ((t.issued i sl slot dests n u effs).core n u).prov = (t.core n u).prov := by
  simp only [State.issued, State.core_setCore_same, Core.launch, Core.openSlot]

/-- The one effect of latency 1 that a core has in flight delivers when the cycle ends (R81, R82). -/
theorem State.issued_due_singleton (t : State) (i : Instr) (sl : Slot) (slot : Nat) (dests : List Nat) (n u : Nat) (e : Eff)
    (h : (t.core n u).flight = []) : ((t.issued i sl slot dests n u [(1, e)]).core n u).due = [e] := by
  simp only [State.issued, State.core_setCore_same, Core.launch, Core.openSlot, Core.due, h]
  cases he : e.setsAstat <;> simp [he]

theorem portConflict_setProv (fl : List Flight) (x : BitVec 2) : portConflict fl [(1, .setProv x)] = false :=
  portConflict_of_noStore fl _ (by simp)

variable {s t : State} {sl : Slot} {n u : Nat}

theorem Runs.issued_provBegin (h : Runs s t sl slotX [dSpecial 8] n u) {tag : BitVec 2} (ht : tag ≠ 0) :
    exec (.provBegin sl tag) s = .next (t.issued (.provBegin sl tag) sl slotX [dSpecial 8] n u [(1, .setProv tag)]) :=
  (exec_provBegin sl tag s).trans (h.issued rfl rfl rfl (decide_eq_true ht) rfl (portConflict_setProv _ tag) false _)

theorem Runs.issued_provEnd (h : Runs s t sl slotX [dSpecial 8] n u) :
    exec (.provEnd sl) s = .next (t.issued (.provEnd sl) sl slotX [dSpecial 8] n u [(1, .setProv 0)]) :=
  (exec_provEnd sl s).trans (h.issued rfl rfl rfl rfl rfl (portConflict_setProv _ 0) false _)

end Sys2Proof.Machine

namespace Sys2Proof

open Machine

/-- Settles O58: a legal tag puts one effect in flight, which the core holds until the cycle ends; tag 0 is a reserved encoding. -/
theorem provisionalTagInstructions : Obligations.ProvisionalTagInstructions := by
  intro s t sl tag n u
  refine ⟨fun g _ _ => ⟨?_, ?_, ?_⟩, fun h => ⟨h.issued_provBegin, h.issued_provEnd⟩, fun h hf _ => ?_⟩
  · exact State.issued_prov t _ sl slotX _ n u _
  · exact State.issued_due_singleton t _ sl slotX _ n u (.setProv g)
  · exact fun d cyc => Core.apply_setProv d cyc g
  · rw [exec_provBegin]
    exact Reaches.faults_of_not_legal (op := ⟨.provBegin sl 0, sl, slotX, false, [dSpecial 8], _⟩) h rfl hf false _

end Sys2Proof
end

section
/-! Proofs about the beat increment (R376, R377): its value after reset, what a write of TIM_INCR does, and what the next tick adds. -/

namespace Sys2Proof.Machine

/-! ### Register fields after reset -/

theorem Tbl.get_of_notMem_keys {α : Type} (d : α) {t : Tbl α} {k : Nat} (h : k ∉ t.map Prod.fst) : Tbl.get d t k = d := by
  induction t with
  | nil => rfl
  | cons p t ih =>
    obtain ⟨hp, ht⟩ : k ≠ p.1 ∧ k ∉ t.map Prod.fst := List.ne_and_not_mem_of_not_mem_cons h
    exact (if_neg (Ne.symm hp)).trans (ih ht)

/-- After power-on reset every field that is not fused reads its reset value (R9). -/
theorem State.getF_reset {a : Nat} {f : Fld} (h : fkey a f ∉ fusedRegs.map Prod.fst) : State.reset.getF a f = f.reset := by
  have hget : Tbl.get 0 State.reset.regs (fkey a f) = 0 := Tbl.get_of_notMem_keys 0 h
  simp only [State.getF, hget, Nat.zero_xor]

theorem aTimIncr_notMem_fusedRegs : fkey aTimIncr F.timIncr_incr ∉ fusedRegs.map Prod.fst := by decide

/-! ### Writes of the increment -/

theorem bitsAt_zero_of_lt {x w : Nat} (h : x < 2 ^ w) : bitsAt x 0 w = x := by
  simp only [bitsAt, pow_zero, Nat.div_one, Nat.mod_eq_of_lt h]

theorem incrOk_iff {v : Nat} : incrOk v = true ↔ 27460302903 ≤ v ∧ v ≤ 27515278485 := decide_eq_true_iff

@[simp] theorem State.getF_busDone (s : State) (err : Bool) (a : Nat) (f : Fld) : (s.busDone err).getF a f = s.getF a f := rfl

/-- What a write of TIM_INCR with its upper bits clear answers (R377, R13). -/
theorem execTimIncrWrite_of_lt (s : State) {v : Word} (hv : v.toNat < 2 ^ 40) :
    execTimIncrWrite v s =
      if incrOk v.toNat then .next ((s.setF aTimIncr F.timIncr_incr v.toNat).busDone false) else .next (s.busDone true) := by
  simp only [execTimIncrWrite, bitsAt_zero_of_lt hv]

/-- A write of one field that the bus answers changes no other register field. -/
theorem State.regsBut_setF_busDone (s : State) (a : Nat) (f : Fld) (v : Nat) (err : Bool) :
    s.regsBut ((s.setF a f v).busDone err) [(a, f)] := by
  intro b g hb
  have hkey : fkey b g ≠ fkey a f := by simpa using hb
  simp only [State.getF_busDone, State.getF_setF_other s a f v hkey]

/-! ### The reference clock's tick -/

/-- With the power on and no phase step pending, a tick adds the increment and changes nothing else (R376). -/
theorem execReferenceClockTick_of_on {s : State} {incr : Nat} (hon : s.pins.power = .on) (hphase : s.pins.phase = none)
    (hincr : s.getF aTimIncr F.timIncr_incr = incr) :
    execReferenceClockTick s = .next { s with beatAcc := s.beatAcc + BitVec.ofNat 80 incr } := by
  simp only [execReferenceClockTick, hon, hphase, hincr, ne_eq, not_true, if_false]

end Sys2Proof.Machine

namespace Sys2Proof

open Machine

/-- Settles O57: a write is taken exactly when `incrOk` holds of its value, and the tick after it reads the field it wrote. -/
theorem beatIncrement : Obligations.BeatIncrement := by
  refine ⟨State.getF_reset aTimIncr_notMem_fusedRegs, fun s v hv => ?_⟩
  rw [exec_timIncrWrite, execTimIncrWrite_of_lt s hv]
  refine ⟨fun hlo hhi => ?_, fun hout => ?_⟩
  · have hread : (s.setF aTimIncr F.timIncr_incr v.toNat).getF aTimIncr F.timIncr_incr = v.toNat :=
      (State.getF_setF_same s aTimIncr F.timIncr_incr v.toNat).trans (Nat.mod_eq_of_lt hv)
    rw [if_pos (incrOk_iff.mpr ⟨hlo, hhi⟩)]
    refine ⟨_, rfl, hread, State.regsBut_setF_busDone s _ _ _ false, rfl, rfl, fun hon hphase => ?_⟩
    rw [exec_referenceClockTick]
    exact execReferenceClockTick_of_on hon hphase hread
  · have hbad : ¬ incrOk v.toNat = true := fun hok => by
      have hrange := incrOk_iff.mp hok
      omega
    exact if_neg hbad

end Sys2Proof
end

section
/-! What most commands leave alone: memory with its tags and known-bad words, and the queue of waiting commands. One lemma per
operation of the model, in the order of its chapters. -/

namespace Sys2Proof.Machine

/-- The memory of a package with its tags and known-bad words, and the queue of those that wait. -/
structure Backing where
  mem   : List Host.Cell
  tags  : Tbl (BitVec 2)
  bad   : Tbl Bool
  queue : List Instr

/-- The part of the state that most commands leave alone. -/
def State.kept (s : State) : Backing := ⟨s.mem, s.tags, s.bad, s.pending⟩

/-- A command's answer keeps the backing of `s`: its next state, if it has one, has the same; it is no refusal. -/
def Out.Keeps (s : State) : Out → Prop
  | .next t => t.kept = s.kept
  | .fault _ => True
  | .refused _ => False

@[simp] theorem State.kept_eta (s : State) : (⟨s.mem, s.tags, s.bad, s.pending⟩ : Backing) = s.kept := (rfl)

@[simp] theorem State.kept_mk (regs : Tbl Nat) (mem : List Host.Cell) (tags : Tbl (BitVec 2)) (bad : Tbl Bool)
    (cores clusters islands ctls sram beatAcc ctl flt manifest brt boc tier ports fab gmu rcv nv i3c pins bus fresh pending) :
    (State.mk regs mem tags bad cores clusters islands ctls sram beatAcc ctl flt manifest brt boc tier ports fab gmu rcv nv i3c
      pins bus fresh pending).kept = ⟨mem, tags, bad, pending⟩ := (rfl)

@[simp] theorem State.kept_ite (c : Prop) [Decidable c] (s t : State) :
    (if c then s else t).kept = if c then s.kept else t.kept := apply_ite State.kept c s t

@[simp] theorem State.kept_fst_ite {β : Type} (c : Prop) [Decidable c] (p q : State × β) :
    (if c then p else q).1.kept = if c then p.1.kept else q.1.kept := apply_ite (fun p => p.1.kept) c p q

@[simp] theorem Out.keeps_ite (s : State) (c : Prop) [Decidable c] (o o' : Out) :
    Out.Keeps s (if c then o else o') ↔ if c then Out.Keeps s o else Out.Keeps s o' := by split <;> rfl

theorem Out.Keeps.ite {s : State} {c : Prop} [Decidable c] {o o' : Out} (h : Out.Keeps s o) (h' : Out.Keeps s o') :
    Out.Keeps s (if c then o else o') := by split <;> assumption

@[simp] theorem Out.keeps_next (s t : State) : Out.Keeps s (.next t) ↔ t.kept = s.kept := Iff.rfl
@[simp] theorem Out.keeps_fault (s : State) (f : Fault) : Out.Keeps s (.fault f) := trivial

/-- A fold keeps the backing when each of its steps does. -/
@[simp] theorem State.kept_foldl {α : Type} {f : State → α → State} (l : List α) (h : ∀ (s : State) (x : α), (f s x).kept = s.kept)
    (s : State) : (l.foldl f s).kept = s.kept := by
  induction l generalizing s with
  | nil => rfl
  | cons x l ih => exact (ih _).trans (h s x)

@[simp] theorem State.kept_setF (s : State) (a : Nat) (f : Fld) (v : Nat) : (s.setF a f v).kept = s.kept := (rfl)
@[simp] theorem State.kept_bump (s : State) (a : Nat) (f : Fld) (n : Nat) : (s.bump a f n).kept = s.kept := (rfl)
@[simp] theorem State.kept_wrapAdd (s : State) (a : Nat) (f : Fld) (n : Nat) : (s.wrapAdd a f n).kept = s.kept := (rfl)
@[simp] theorem State.kept_setFlag (s : State) (a : Nat) (f : Fld) (b : Bool) : (s.setFlag a f b).kept = s.kept := (rfl)
@[simp] theorem State.kept_setFs (s : State) (a : Nat) (l : List (Fld × Nat)) : (s.setFs a l).kept = s.kept := by simp [State.setFs]
@[simp] theorem State.kept_clearFs (s : State) (a : Nat) (l : List Fld) : (s.clearFs a l).kept = s.kept := by simp [State.clearFs]
@[simp] theorem State.kept_clearSpan (s : State) (a n : Nat) : (s.clearSpan a n).kept = s.kept := (rfl)
@[simp] theorem State.kept_clearField (s : State) (a n : Nat) (f : Fld) : (s.clearField a n f).kept = s.kept := (rfl)
@[simp] theorem State.kept_setCore (s : State) (n u : Nat) (c : Core) : (s.setCore n u c).kept = s.kept := (rfl)
@[simp] theorem State.kept_setCluster (s : State) (n cl : Nat) (c : Cluster) : (s.setCluster n cl c).kept = s.kept := (rfl)
@[simp] theorem State.kept_setIsland (s : State) (n : Nat) (x : Island) : (s.setIsland n x).kept = s.kept := (rfl)
@[simp] theorem State.kept_queueCtl (s : State) (p : Nat) (c : Ctl) : (s.queueCtl p c).kept = s.kept := (rfl)
@[simp] theorem State.kept_holdCtl (s : State) (c : Ctl) : (s.holdCtl c).kept = s.kept := (rfl)
@[simp] theorem State.kept_loopCtl (s : State) (m : Msg) : (s.loopCtl m).kept = s.kept := (rfl)
@[simp] theorem State.kept_unicast (s : State) (c : Ctl) : (s.unicast c).kept = s.kept := by
  simp only [State.unicast]
  repeat' split
  all_goals simp
@[simp] theorem State.kept_forwardBcast (s : State) (c : Ctl) : (s.forwardBcast c).kept = s.kept := by
  refine State.kept_foldl _ (fun s dir => ?_) s
  repeat' split
  all_goals simp
@[simp] theorem State.kept_sendAll (s : State) (m : Msg) : (s.sendAll m).kept = s.kept := by simp [State.sendAll]
@[simp] theorem State.kept_sendTo (s : State) (dest : Nat) (m : Msg) : (s.sendTo dest m).kept = s.kept := by simp [State.sendTo]
@[simp] theorem State.kept_sendLink (s : State) (p : Nat) (m : Msg) : (s.sendLink p m).kept = s.kept := (rfl)
@[simp] theorem State.kept_setPort (s : State) (p : Nat) (x : Port) : (s.setPort p x).kept = s.kept := (rfl)
@[simp] theorem State.kept_takeMsg (s : State) (m : Msg) : (s.takeMsg m).kept = s.kept := by
  simp only [State.takeMsg]
  repeat' split
  all_goals simp
@[simp] theorem State.kept_writeEvent (s : State) (cls code flags : Nat) (unit : BitVec 32) (detail : Nat) :
    (s.writeEvent cls code flags unit detail).kept = s.kept := by simp [State.writeEvent]
@[simp] theorem State.kept_event (s : State) (cls code flags : Nat) (unit : BitVec 32) (detail : Nat) :
    (s.event cls code flags unit detail).kept = s.kept := by simp [State.event]
@[simp] theorem State.kept_ledgerRecord (s : State) (kind cause : Nat) (unit : BitVec 32) (detail : Nat) :
    (s.ledgerRecord kind cause unit detail).kept = s.kept := by simp [State.ledgerRecord]
@[simp] theorem State.kept_showUnits (s : State) : (s.showUnits).kept = s.kept := by simp [State.showUnits]
@[simp] theorem State.kept_lostToSlice (s : State) : (s.lostToSlice).kept = s.kept := (rfl)
@[simp] theorem State.kept_capacityAfter (s : State) (unit : BitVec 32) :
    (s.capacityAfter unit).kept = s.kept := by simp [State.capacityAfter]
@[simp] theorem State.kept_retireUnit (s : State) (unit : BitVec 32) (cause detail : Nat) :
    (s.retireUnit unit cause detail).kept = s.kept := by simp [State.retireUnit]
@[simp] theorem State.kept_faultDetected (s : State) (unit : BitVec 32) (cause detail : Nat) :
    (s.faultDetected unit cause detail).kept = s.kept := by simp [State.faultDetected]
@[simp] theorem State.kept_suspect (s : State) (b : Nat) : (s.suspect b).kept = s.kept := (rfl)
@[simp] theorem State.kept_suspectStep (s : State) (k b : Nat) : (s.suspectStep k b).kept = s.kept := by simp [State.suspectStep]
@[simp] theorem State.kept_corrected (s : State) (m : BurstMem) : (s.corrected m).kept = s.kept := by simp [State.corrected]
@[simp] theorem State.kept_faultReport (s : State) (cause : Nat) (fields : List (Nat × Nat)) :
    (s.faultReport cause fields).kept = s.kept := by simp [State.faultReport]
@[simp] theorem State.kept_dropQueues (s : State) (n : Nat) : (s.dropQueues n).kept = s.kept := by
  refine (State.kept_foldl _ (fun s q => ?_) _).trans (State.kept_setIsland ..)
  split <;> simp
@[simp] theorem State.kept_islandFault (s : State) (n code residue : Nat) :
    (s.islandFault n code residue).kept = s.kept := by simp [State.islandFault]
@[simp] theorem State.kept_coreFault (s : State) (n u : Nat) (cs : List Cause) :
    (s.coreFault n u cs).kept = s.kept := by simp [State.coreFault]
@[simp] theorem State.kept_switchFault (s : State) (n cl code : Nat) : (s.switchFault n cl code).kept = s.kept := by
  simp only [State.switchFault]
  split <;> simp
@[simp] theorem State.kept_putQuarter (s : State) (n u ch : Nat) (data : Line) (prov : BitVec 2) :
    (s.putQuarter n u ch data prov).kept = s.kept := by simp [State.putQuarter]
@[simp] theorem State.kept_capture (s : State) (n cl img : Nat) : (s.capture n cl img).kept = s.kept := by
  simp only [State.capture]
  repeat' split
  all_goals simp
@[simp] theorem State.kept_checkFail (s : State) (n u k : Nat) (image : Option Nat) : (s.checkFail n u k image).kept = s.kept := by
  simp only [State.checkFail]
  split <;> simp
@[simp] theorem State.kept_suspReport (s : State) (n u : Nat) (step : BitVec 64) (reason : BitVec 16) :
    (s.suspReport n u step reason).kept = s.kept := by simp [State.suspReport]
@[simp] theorem State.kept_freeTracker (s : State) (n u k : Nat) : (s.freeTracker n u k).kept = s.kept := (rfl)
@[simp] theorem State.kept_applyAdds (s : State) (n : Nat) : (s.applyAdds n).kept = s.kept := by
  refine (State.kept_setIsland ..).trans (State.kept_foldl _ (fun s p => ?_) s)
  split <;> simp
@[simp] theorem State.kept_moveWord (s : State) (n cl : Nat) (w : BitVec 128) (rep : Nat) : (s.moveWord n cl w rep).kept = s.kept := by
  refine State.kept_foldl _ (fun t id => ?_) s
  cases h : t.sourceData n cl id (routeSrc (t.route n cl id)) <;> simp [h]
@[simp] theorem State.kept_runWord (s : State) (n cl : Nat) : (s.runWord n cl).kept = s.kept := by
  simp only [State.runWord]
  split <;> simp
@[simp] theorem State.kept_endFaults (s : State) (n : Nat) : (s.endFaults n).kept = s.kept := by simp [State.endFaults]
@[simp] theorem State.kept_writeMbx (s : State) (n u e : Nat) (data : Line) (prov : BitVec 2) :
    (s.writeMbx n u e data prov).kept = s.kept := (rfl)
@[simp] theorem State.kept_crossingParity (s : State) (n q : Nat) (bad : Bool) :
    (s.crossingParity n q bad).kept = s.kept := by simp [State.crossingParity]
@[simp] theorem State.kept_xTake (s : State) (n q : Nat) : (s.xTake n q).kept = s.kept := by
  simp only [State.xTake]
  repeat' split
  all_goals simp
@[simp] theorem State.kept_meshOut (s : State) (n cl : Nat) (cyc : Nat) (d : Nat) (p : Present) :
    (s.meshOut n cl cyc d p).kept = s.kept := by
  simp only [State.meshOut]
  repeat' split
  all_goals simp
@[simp] theorem State.kept_endSwitches (s : State) (n : Nat) : (s.endSwitches n).kept = s.kept := by simp [State.endSwitches]
@[simp] theorem State.kept_addCounter (s : State) (n c : Nat) (x : BitVec 32) (free : Option (Nat × Nat)) :
    (s.addCounter n c x free).kept = s.kept := (rfl)
@[simp] theorem State.kept_applySignal (s : State) (g : Signal) : (s.applySignal g).kept = s.kept := by
  simp only [State.applySignal]
  split <;> simp
@[simp] theorem State.kept_landEnd (s : State) (e : LandEnd) : (s.landEnd e).kept = s.kept := by
  simp only [State.landEnd]
  split <;> simp
@[simp] theorem State.kept_landWrite (s : State) (n : Nat) (w : LandWrite) (rest : List LandWrite) :
    (s.landWrite n w rest).kept = s.kept := by
  simp only [State.landWrite]
  split <;> simp
@[simp] theorem State.kept_landOne (s : State) (n : Nat) (busy : List Nat) : (s.landOne n busy).kept = s.kept := by
  simp only [State.landOne]
  split <;> simp
@[simp] theorem State.kept_distribute (s : State) (n : Nat) : (s.distribute n).kept = s.kept := by
  simp only [State.distribute]
  repeat' split
  all_goals simp
@[simp] theorem State.kept_anyCycle (s : State) (n : Nat) (busy : List Nat) :
    (s.anyCycle n busy).kept = s.kept := by simp [State.anyCycle]
@[simp] theorem State.kept_beginCycle (s : State) (n : Nat) : (s.beginCycle n).kept = s.kept := by simp [State.beginCycle]
@[simp] theorem State.kept_countStall (s : State) (n cyc : Nat) : (s.countStall n cyc).kept = s.kept := by
  simp only [State.countStall]
  split <;> simp
@[simp] theorem State.kept_countHeld (n k cyc : Nat) (s : State) : (State.countHeld n k cyc s).kept = s.kept := by
  induction k generalizing cyc s with
  | zero => rfl
  | succ k ih => simp [State.countHeld, ih]
@[simp] theorem State.kept_stallWith (s : State) (n : Nat) (st : List StallAt) (i : Instr) :
    (s.stallWith n st i).kept = s.kept := by simp [State.stallWith]
@[simp] theorem State.kept_stallTimeoutFault (s : State) (n : Nat) :
    (s.stallTimeoutFault n).kept = s.kept := by simp [State.stallTimeoutFault]
@[simp] theorem State.kept_stallCycle (s : State) (n : Nat) : (s.stallCycle n).kept = s.kept := by
  simp only [State.stallCycle]
  split <;> simp
@[simp] theorem State.kept_stallFor (n k : Nat) (s : State) : (State.stallFor n k s).kept = s.kept := by
  induction k generalizing s with
  | zero => rfl
  | succ k ih => simp [State.stallFor, ih]
@[simp] theorem State.kept_rereadSync (s : State) (n u : Nat) : (s.rereadSync n u).kept = s.kept := (rfl)
@[simp] theorem State.kept_waitCycle (s : State) (n : Nat) : (s.waitCycle n).kept = s.kept := by simp [State.waitCycle]
@[simp] theorem State.kept_waitFor (n k : Nat) (s : State) : (State.waitFor n k s).kept = s.kept := by
  induction k generalizing s with
  | zero => rfl
  | succ k ih => simp [State.waitFor, ih]
@[simp] theorem State.kept_stallOn (s : State) (x : Ctx) (op : Op) (cause id : Nat) :
    (s.stallOn x op cause id).kept = s.kept := by simp [State.stallOn]
@[simp] theorem State.kept_waitCyc (s : State) (n u operand : Nat) : (s.waitCyc n u operand).kept = s.kept := by simp [State.waitCyc]
@[simp] theorem State.kept_takeBody (s : State) (x : Ctx) (op : Op) : (s.takeBody x op).kept = s.kept := by
  simp only [State.takeBody]
  split <;> simp
@[simp] theorem State.kept_unskip (s : State) (n : Nat) : (s.unskip n).kept = s.kept := by simp [State.unskip]
@[simp] theorem State.kept_keep (s : State) (n k : Nat) (i : Instr) : (s.keep n k i).kept = s.kept := (rfl)
@[simp] theorem State.kept_alsoStalls (s : State) (n u k : Nat) (op : Op) : (s.alsoStalls n u k op).kept = s.kept := by
  simp only [State.alsoStalls]
  repeat' split
  all_goals simp
@[simp] theorem State.kept_setCtlCore (s : State) (k : Nat) (c : CtlCore) : (s.setCtlCore k c).kept = s.kept := (rfl)
@[simp] theorem State.kept_ctlStop (s : State) (k : Nat) : (s.ctlStop k).kept = s.kept := (rfl)
@[simp] theorem State.kept_beginWord (s : State) (i : Instr) (n cl : Nat) (word : BitVec 128) :
    (s.beginWord i n cl word).kept = s.kept := by
  simp only [State.beginWord]
  repeat' split
  all_goals simp
@[simp] theorem State.kept_switchAlso (s : State) (n cl k : Nat) (word : BitVec 128) :
    (s.switchAlso n cl k word).kept = s.kept := by simp [State.switchAlso]
@[simp] theorem keeps_execCrossingEntryVisible (n q : Nat) (parityBad : Bool) (s : State) :
    Out.Keeps s (execCrossingEntryVisible n q parityBad s) := by simp [execCrossingEntryVisible]
@[simp] theorem keeps_execCrossingFreeIndication (n q : Nat) (s : State) :
    Out.Keeps s (execCrossingFreeIndication n q s) := by simp [execCrossingFreeIndication]
@[simp] theorem keeps_execLandingInputRelease (entry : Crossed) (s : State) : Out.Keeps s (execLandingInputRelease entry s) := by
  simp only [execLandingInputRelease]
  repeat' split
  all_goals simp
@[simp] theorem keeps_execHeldLandingWrite (n : Nat) (s : State) : Out.Keeps s (execHeldLandingWrite n s) := by
  simp only [execHeldLandingWrite]
  repeat' split
  all_goals simp
@[simp] theorem keeps_execSyncCounterAddition (entry : Crossed) (s : State) : Out.Keeps s (execSyncCounterAddition entry s) := by
  simp only [execSyncCounterAddition]
  repeat' split
  all_goals simp
@[simp] theorem keeps_execDistributorTile (entry : Crossed) (s : State) : Out.Keeps s (execDistributorTile entry s) := by
  simp only [execDistributorTile]
  repeat' split
  all_goals simp
@[simp] theorem State.kept_clearIslandRegs (s : State) (n : Nat) : (s.clearIslandRegs n).kept = s.kept := (rfl)
@[simp] theorem State.kept_resetIsland (s : State) (n : Nat) : (s.resetIsland n).kept = s.kept := by simp [State.resetIsland]
@[simp] theorem keeps_execIslandResetRequest (n : Nat) (value : Word) (s : State) :
    Out.Keeps s (execIslandResetRequest n value s) := by simp [execIslandResetRequest]
@[simp] theorem State.kept_closeStalls (s : State) (n : Nat) : (s.closeStalls n).kept = s.kept := by simp [State.closeStalls]
@[simp] theorem State.kept_missStart (s : State) (k : Nat) : (s.missStart k).kept = s.kept := by simp [State.missStart]
@[simp] theorem keeps_execMissedStart (s : State) : Out.Keeps s (execMissedStart s) := by simp [execMissedStart]
@[simp] theorem keeps_execOverrunCheck (s : State) : Out.Keeps s (execOverrunCheck s) := by simp [execOverrunCheck]
@[simp] theorem keeps_execSlipRequest (msg : Msg) (s : State) : Out.Keeps s (execSlipRequest msg s) := by simp [execSlipRequest]
@[simp] theorem State.kept_armTrigger (s : State) (beat : Nat) : (s.armTrigger beat).kept = s.kept := by simp [State.armTrigger]
@[simp] theorem State.kept_slip (s : State) (ns : Nat) : (s.slip ns).kept = s.kept := by simp [State.slip]
@[simp] theorem keeps_execSlipOrder (msg : Msg) (s : State) : Out.Keeps s (execSlipOrder msg s) := by simp [execSlipOrder]
@[simp] theorem keeps_execDroopStretch (n k : Nat) (s : State) : Out.Keeps s (execDroopStretch n k s) := by simp [execDroopStretch]
@[simp] theorem State.kept_showPending (s : State) : (s.showPending).kept = s.kept := (rfl)
@[simp] theorem State.kept_requestSetpoint (s : State) (code : Nat) : (s.requestSetpoint code).kept = s.kept := (rfl)
@[simp] theorem State.kept_setCeiling (s : State) (code : Nat) : (s.setCeiling code).kept = s.kept := (rfl)
@[simp] theorem keeps_execSetpointRequestWrite (value : Word) (s : State) :
    Out.Keeps s (execSetpointRequestWrite value s) := by simp [execSetpointRequestWrite]
@[simp] theorem keeps_execVoltageRampEnd (s : State) : Out.Keeps s (execVoltageRampEnd s) := (rfl)
@[simp] theorem keeps_execSetpointStop (duration : Nat) (s : State) : Out.Keeps s (execSetpointStop duration s) := by
  simp only [execSetpointStop]
  repeat' split
  all_goals simp
@[simp] theorem State.kept_retireChannel (s : State) (f ch : Nat) : (s.retireChannel f ch).kept = s.kept := by simp [State.retireChannel]
@[simp] theorem State.kept_rebuildMap (s : State) : (s.rebuildMap).kept = s.kept := (rfl)
@[simp] theorem State.kept_noteBadLine (s : State) (f ch a : Nat) : (s.noteBadLine f ch a).kept = s.kept := by simp [State.noteBadLine]
@[simp] theorem State.kept_lpCorrected (s : State) (a : Nat) : (s.lpCorrected a).kept = s.kept := by simp [State.lpCorrected]
@[simp] theorem keeps_execLpddrRewrite (field ch : Nat) (s : State) :
    Out.Keeps s (execLpddrRewrite field ch s) := by simp [execLpddrRewrite]
@[simp] theorem keeps_execOndieCountRead (field ch count : Nat) (s : State) :
    Out.Keeps s (execOndieCountRead field ch count s) := by simp [execOndieCountRead]
@[simp] theorem keeps_execDeviceTemperatureReport (device : Nat) (hot above : Bool) (temp : Nat) (s : State) :
    Out.Keeps s (execDeviceTemperatureReport device hot above temp s) := by simp [execDeviceTemperatureReport]
@[simp] theorem keeps_execChannelRetire (field ch : Nat) (s : State) :
    Out.Keeps s (execChannelRetire field ch s) := by simp [execChannelRetire]
@[simp] theorem State.kept_setEngine (s : State) (e : Nat) (x : Engine) : (s.setEngine e x).kept = s.kept := (rfl)
@[simp] theorem State.kept_stmFault (s : State) (e code : Nat) : (s.stmFault e code).kept = s.kept := by simp [State.stmFault]
@[simp] theorem State.kept_takeCredit (s : State) (e : Nat) : (s.takeCredit e).kept = s.kept := by simp [State.takeCredit]
@[simp] theorem State.kept_grantCredits (s : State) : (s.grantCredits).kept = s.kept := by simp [State.grantCredits]
@[simp] theorem State.kept_stmBegin (s : State) (e : Nat) (run : State → State) (h : ∀ t : State, (run t).kept = t.kept) :
    (s.stmBegin e run).kept = s.kept := by simp [State.stmBegin, h]
@[simp] theorem State.kept_stmNext (s : State) (e : Nat) : (s.stmNext e).kept = s.kept := (rfl)
@[simp] theorem State.kept_giveSignal (s : State) (e : Nat) (l : List Signal) (now : Bool) :
    (s.giveSignal e l now).kept = s.kept := by simp [State.giveSignal]
theorem State.kept_ownTrees {s t : State} {e : Nat} {l : List Nat} (h : s.ownTrees e l = some t) : t.kept = s.kept := by
  simp only [State.ownTrees] at h
  split at h
  · cases h
  · cases h; rfl
@[simp] theorem keeps_execStmSync (engine : Nat) (s : State) : Out.Keeps s (execStmSync engine s) := by simp [execStmSync]
@[simp] theorem keeps_execStmEnd (engine : Nat) (s : State) : Out.Keeps s (execStmEnd engine s) := by simp [execStmEnd]
@[simp] theorem keeps_execStmDescriptorComplete (engine : Nat) (s : State) : Out.Keeps s (execStmDescriptorComplete engine s) := by
  simp only [execStmDescriptorComplete]
  repeat' split
  all_goals simp
@[simp] theorem State.kept_transmit (s : State) (p : Nat) (f : Flit) : (s.transmit p f).kept = s.kept := by simp [State.transmit]
@[simp] theorem State.kept_sendNew (s : State) (p : Nat) (f : Flit) : (s.sendNew p f).kept = s.kept := by simp [State.sendNew]
@[simp] theorem State.kept_sendReplay (s : State) (p : Nat) : (s.sendReplay p).kept = s.kept := by
  simp only [State.sendReplay]
  repeat' split
  all_goals simp
@[simp] theorem State.kept_sendIdle (s : State) (p : Nat) : (s.sendIdle p).kept = s.kept := by simp [State.sendIdle]
@[simp] theorem State.kept_sendCtl (s : State) (p : Nat) : (s.sendCtl p).kept = s.kept := by
  simp only [State.sendCtl]
  split <;> simp
@[simp] theorem State.kept_sendVcFlit (s : State) (p v : Nat) : (s.sendVcFlit p v).kept = s.kept := by
  simp only [State.sendVcFlit]
  split <;> simp
@[simp] theorem State.kept_holdBack (s : State) (p v : Nat) (f : Flit) : (s.holdBack p v f).kept = s.kept := (rfl)
@[simp] theorem State.kept_sendVc (s : State) (p v : Nat) : (s.sendVc p v).kept = s.kept := by
  simp only [State.sendVc]
  repeat' split
  all_goals simp
@[simp] theorem State.kept_dropPatches (s : State) : (s.dropPatches).kept = s.kept := (rfl)
@[simp] theorem State.kept_activate (s : State) (key breath : Nat) : (s.activate key breath).kept = s.kept := (rfl)
@[simp] theorem State.kept_orderPatch (s : State) (key : Nat) : (s.orderPatch key).kept = s.kept := by simp [State.orderPatch]
@[simp] theorem State.kept_portFault (s : State) (p code slot : Nat) :
    (s.portFault p code slot).kept = s.kept := by simp [State.portFault]
@[simp] theorem State.kept_setLq (s : State) (p q : Nat) (l : LaunchQ) : (s.setLq p q l).kept = s.kept := (rfl)
@[simp] theorem keeps_execLaunchQueueEntry (entry : Crossed) (s : State) : Out.Keeps s (execLaunchQueueEntry entry s) := by
  simp only [execLaunchQueueEntry]
  repeat' split
  all_goals simp
@[simp] theorem State.kept_owe (s : State) (p q : Nat) (last : Bool) : (s.owe p q last).kept = s.kept := by simp [State.owe]
@[simp] theorem State.kept_digestLaunch (s : State) (stream : Nat) (prov : BitVec 2) (payload : BitVec 2048) :
    (s.digestLaunch stream prov payload).kept = s.kept := by simp [State.digestLaunch]
@[simp] theorem State.kept_launchHead (s : State) (p q slot : Nat) (late lastOwn : Bool) :
    (s.launchHead p q slot late lastOwn).kept = s.kept := by
  simp only [State.launchHead]
  split <;> simp
@[simp] theorem State.kept_sendRelay (s : State) (p slot : Nat) (r : Relay) (late : Bool) :
    (s.sendRelay p slot r late).kept = s.kept := by simp [State.sendRelay]
@[simp] theorem State.kept_lateRelay (s : State) (p : Nat) (r : Relay) : (s.lateRelay p r).kept = s.kept := (rfl)
@[simp] theorem State.kept_timedSend (s : State) (p e : Nat) : (s.timedSend p e).kept = s.kept := by simp [State.timedSend]
@[simp] theorem State.kept_slotPlan (s : State) (p slot0 : Nat) : (s.slotPlan p slot0).1.kept = s.kept := by
  simp only [State.slotPlan]
  repeat' split
  all_goals simp
@[simp] theorem State.kept_carryHead (s : State) (p q slot : Nat) (late last : Bool) :
    (s.carryHead p q slot late last).kept = s.kept := by simp [State.carryHead]
@[simp] theorem State.kept_carry (s : State) (p slot : Nat) (x0 : SlotUse) : (s.carry p slot x0).kept = s.kept := by
  simp only [State.carry]
  split <;> simp
@[simp] theorem State.kept_slotLaunch (s : State) (p slot : Nat) : (s.slotLaunch p slot).kept = s.kept := by simp [State.slotLaunch]
@[simp] theorem keeps_execSlotLaunch (port slot : Nat) (s : State) : Out.Keeps s (execSlotLaunch port slot s) := by simp [execSlotLaunch]
@[simp] theorem keeps_execTimedLaunch (port entry slot : Nat) (s : State) : Out.Keeps s (execTimedLaunch port entry slot s) := by
  simp only [execTimedLaunch]
  repeat' split
  all_goals simp
@[simp] theorem keeps_execRelayLaunch (port slot : Nat) (s : State) : Out.Keeps s (execRelayLaunch port slot s) := by
  simp only [execRelayLaunch]
  repeat' split
  all_goals simp
@[simp] theorem State.kept_countPresent (s : State) (p slot : Nat) (a : Arrived) (late : Bool) :
    (s.countPresent p slot a late).kept = s.kept := by simp [State.countPresent]
@[simp] theorem keeps_execFlitPresent (port slot : Nat) (s : State) : Out.Keeps s (execFlitPresent port slot s) := by
  simp only [execFlitPresent]
  repeat' split
  all_goals simp
@[simp] theorem State.kept_groupCheck (s : State) (stream : Nat) (f : Flit) :
    (s.groupCheck stream f).kept = s.kept := by simp [State.groupCheck]
@[simp] theorem State.kept_setFence (s : State) (p : Nat) (b : Bool) : (s.setFence p b).kept = s.kept := (rfl)
@[simp] theorem State.kept_classify (s : State) (p : Nat) : (s.classify p).kept = s.kept := by simp [State.classify]
@[simp] theorem State.kept_checkDelay (s : State) (p : Nat) : (s.checkDelay p).kept = s.kept := by simp [State.checkDelay]
@[simp] theorem State.kept_endJob (s : State) : (s.endJob).kept = s.kept := by simp [State.endJob]
@[simp] theorem State.kept_bringUp (s : State) (p map lanes spare failed delay16 rtt skew deskew : Nat) :
    (s.bringUp p map lanes spare failed delay16 rtt skew deskew).kept = s.kept := by simp [State.bringUp]
@[simp] theorem State.kept_trainFail (s : State) (p failed : Nat) : (s.trainFail p failed).kept = s.kept := (rfl)
@[simp] theorem keeps_execColdTraining (port : Nat) (env : TrainEnv) (s : State) :
    Out.Keeps s (execColdTraining port env s) := by simp [execColdTraining]
@[simp] theorem keeps_execColdTrainingRetry (retry : Retry) (s : State) :
    Out.Keeps s (execColdTrainingRetry retry s) := by simp [execColdTrainingRetry]
@[simp] theorem State.kept_takeRecord (s : State) (p b : Nat) : (s.takeRecord p b).kept = s.kept := by
  simp only [State.takeRecord]
  split <;> simp
@[simp] theorem keeps_execTrainingRecord (port : Nat) (raw : BitVec 2304) (s : State) : Out.Keeps s (execTrainingRecord port raw s) := by
  simp only [execTrainingRecord]
  repeat' split
  all_goals simp
@[simp] theorem State.kept_takeCtl (s : State) (p : Nat) (m : Msg) : (s.takeCtl p m).kept = s.kept := (rfl)
@[simp] theorem State.kept_setProc (s : State) (p : Nat) (q : LinkProc) : (s.setProc p q).kept = s.kept := by
  simp only [State.setProc]
  split <;> simp
@[simp] theorem State.kept_askRetrain (s : State) (p cause : Nat) : (s.askRetrain p cause).kept = s.kept := by simp [State.askRetrain]
@[simp] theorem State.kept_askSpare (s : State) (p lane : Nat) : (s.askSpare p lane).kept = s.kept := by simp [State.askSpare]
@[simp] theorem State.kept_askAgain (s : State) (p : Nat) (x0 : List LinkProc) : (s.askAgain p x0).kept = s.kept := by
  simp only [State.askAgain]
  repeat' split
  all_goals simp
@[simp] theorem State.kept_procEnd (s : State) (p : Nat) (retrain : Bool) : (s.procEnd p retrain).kept = s.kept := by simp [State.procEnd]
@[simp] theorem State.kept_askTag (s : State) (p : Nat) : (s.askTag p).kept = s.kept := by
  simp only [State.askTag]
  split <;> simp
@[simp] theorem State.kept_rerouteCtl (s : State) (p : Nat) : (s.rerouteCtl p).kept = s.kept := by simp [State.rerouteCtl]
@[simp] theorem State.kept_linkDown (s : State) (p cause : Nat) : (s.linkDown p cause).kept = s.kept := by simp [State.linkDown]
@[simp] theorem State.kept_parityFail (s : State) (p : Nat) (bad : BitVec 8) (counts : Bool) :
    (s.parityFail p bad counts).kept = s.kept := by
  simp only [State.parityFail]
  repeat' split
  all_goals simp
@[simp] theorem State.kept_measureTrip (s : State) (p : Nat) (covered : List Nat) :
    (s.measureTrip p covered).kept = s.kept := by simp [State.measureTrip]
@[simp] theorem State.kept_takeAck (s : State) (p ack : Nat) : (s.takeAck p ack).kept = s.kept := by simp [State.takeAck]
@[simp] theorem State.kept_takeNak (s : State) (p sq : Nat) : (s.takeNak p sq).kept = s.kept := by simp [State.takeNak]
@[simp] theorem State.kept_takeLink (s : State) (p : Nat) (f : Flit) : (s.takeLink p f).kept = s.kept := by simp [State.takeLink]
@[simp] theorem State.kept_creditAudit (s : State) (p : Nat) (f : Flit) : (s.creditAudit p f).kept = s.kept := by simp [State.creditAudit]
@[simp] theorem State.kept_timeExchange (s : State) (p : Nat) (f : Flit) : (s.timeExchange p f).kept = s.kept := (rfl)
@[simp] theorem State.kept_quarantine (s : State) (p : Nat) : (s.quarantine p).kept = s.kept := by simp [State.quarantine]
@[simp] theorem State.kept_judgeTag (s : State) (p e : Nat) (ok : Bool) : (s.judgeTag p e ok).kept = s.kept := by simp [State.judgeTag]
@[simp] theorem State.kept_judgeTags (s : State) (p : Nat) : (s.judgeTags p).kept = s.kept := by simp [State.judgeTags]
@[simp] theorem State.kept_release (s : State) (p : Nat) (f : Flit) : (s.release p f).kept = s.kept := by
  simp only [State.release]
  repeat' split
  all_goals simp
@[simp] theorem State.kept_releaseHeld (p k : Nat) (s : State) : (State.releaseHeld p k s).kept = s.kept := by
  induction k generalizing s with
  | zero => rfl
  | succ k ih =>
    simp only [State.releaseHeld]
    split
    · exact (ih _).trans (by simp)
    · rfl
@[simp] theorem State.kept_onFlit (s : State) (p : Nat) (f : Flit) : (s.onFlit p f).kept = s.kept := by simp [State.onFlit]
@[simp] theorem State.kept_countFec (s : State) (p : Nat) (l : List FecCount) : (s.countFec p l).kept = s.kept := by simp [State.countFec]
@[simp] theorem keeps_execFlitReceive (port : Nat) (raw : BitVec 2304) (fec : List FecCount) (s : State) :
    Out.Keeps s (execFlitReceive port raw fec s) := by simp [execFlitReceive]
@[simp] theorem keeps_execReplayTimer (port : Nat) (s : State) : Out.Keeps s (execReplayTimer port s) := by
  simp only [execReplayTimer]
  repeat' split
  all_goals simp
theorem State.kept_yieldTo {s t : State} {p : Nat} (h : s.yieldTo p = some t) : t.kept = s.kept := by
  simp only [State.yieldTo] at h
  split at h
  · cases h; rfl
  · split at h
    · cases h
    · cases h; simp
  · cases h
@[simp] theorem keeps_execSpareRequest (port : Nat) (msg : Msg) (s : State) : Out.Keeps s (execSpareRequest port msg s) := by
  simp only [execSpareRequest]
  split
  · split
    · simp
    · split
      · simp
      · next h =>
        have hkept := State.kept_yieldTo h
        simp_all [apply_ite (Out.Keeps s)]
  · simp
@[simp] theorem keeps_execSpareGrant (port : Nat) (msg : Msg) (s : State) : Out.Keeps s (execSpareGrant port msg s) := by
  simp only [execSpareGrant]
  repeat' split
  all_goals simp
@[simp] theorem keeps_execSpareLockComplete (port : Nat) (s : State) : Out.Keeps s (execSpareLockComplete port s) := by
  simp only [execSpareLockComplete]
  repeat' split
  all_goals simp
@[simp] theorem keeps_execSpareDone (port : Nat) (msg : Msg) (s : State) : Out.Keeps s (execSpareDone port msg s) := by
  simp only [execSpareDone]
  repeat' split
  all_goals simp
@[simp] theorem State.kept_waitQuiet (s : State) (p : Nat) (breath : Option Nat) (tq : Beat) :
    (s.waitQuiet p breath tq).kept = s.kept := (rfl)
@[simp] theorem keeps_execRetrainRequest (port : Nat) (msg : Msg) (s : State) : Out.Keeps s (execRetrainRequest port msg s) := by
  simp only [execRetrainRequest]
  split
  · split
    · simp
    · split
      · simp
      · next h =>
        have hkept := State.kept_yieldTo h
        simp_all [apply_ite (Out.Keeps s)]
  · simp
@[simp] theorem keeps_execRetrainGrant (port : Nat) (msg : Msg) (s : State) : Out.Keeps s (execRetrainGrant port msg s) := by
  simp only [execRetrainGrant]
  repeat' split
  all_goals simp
@[simp] theorem keeps_execQuietStart (port : Nat) (s : State) : Out.Keeps s (execQuietStart port s) := by
  simp only [execQuietStart]
  repeat' split
  all_goals simp
@[simp] theorem keeps_execRelockComplete (port delay16 rtt : Nat) (s : State) : Out.Keeps s (execRelockComplete port delay16 rtt s) := by
  simp only [execRelockComplete]
  repeat' split
  all_goals simp
@[simp] theorem keeps_execResync (port : Nat) (msg : Msg) (ack : BitVec 12) (s : State) : Out.Keeps s (execResync port msg ack s) := by
  simp only [execResync]
  repeat' split
  all_goals simp
@[simp] theorem keeps_execRetrainTimeout (port : Nat) (s : State) : Out.Keeps s (execRetrainTimeout port s) := by
  simp only [execRetrainTimeout]
  repeat' split
  all_goals simp
@[simp] theorem keeps_execLinkWithdraw (port : Nat) (msg : Msg) (s : State) :
    Out.Keeps s (execLinkWithdraw port msg s) := by simp [execLinkWithdraw]
@[simp] theorem keeps_execDownNotice (port : Nat) (msg : Msg) (s : State) :
    Out.Keeps s (execDownNotice port msg s) := by simp [execDownNotice]
@[simp] theorem keeps_execNoValidFlitTimeout (port : Nat) (s : State) : Out.Keeps s (execNoValidFlitTimeout port s) := by
  simp only [execNoValidFlitTimeout]
  repeat' split
  all_goals simp
@[simp] theorem keeps_execLinkRetrainWrite (port : Nat) (value : Word) (s : State) :
    Out.Keeps s (execLinkRetrainWrite port value s) := by simp [execLinkRetrainWrite]
@[simp] theorem keeps_execInjectionControlWrite (port offset : Nat) (value : Word) (s : State) :
    Out.Keeps s (execInjectionControlWrite port offset value s) := by
  simp only [execInjectionControlWrite]
  repeat' split
  all_goals simp
@[simp] theorem State.kept_showRegions (s : State) (t : Nat) : (s.showRegions t).kept = s.kept := (rfl)
@[simp] theorem State.kept_sweepEnd (s : State) (t : Nat) : (s.sweepEnd t).kept = s.kept := by simp [State.sweepEnd]
@[simp] theorem State.kept_clearCaptures (s : State) (which : Nat → Bool) : (s.clearCaptures which).kept = s.kept := (rfl)
@[simp] theorem State.kept_openStep (s : State) (step entry : Nat) : (s.openStep step entry).kept = s.kept := by simp [State.openStep]
@[simp] theorem State.kept_sendTag (s : State) (p : Nat) : (s.sendTag p).kept = s.kept := by
  simp only [State.sendTag]
  split <;> simp
@[simp] theorem State.kept_stepReport (s : State) (step causes : Nat) :
    (s.stepReport step causes).kept = s.kept := by simp [State.stepReport]
@[simp] theorem State.kept_reportLate (s : State) : (s.reportLate).kept = s.kept := by
  simp only [State.reportLate]
  split <;> simp
@[simp] theorem State.kept_updatePorts (s : State) : (s.updatePorts).kept = s.kept := (rfl)
@[simp] theorem State.kept_refreshMirror (s : State) : (s.refreshMirror).kept = s.kept := by simp [State.refreshMirror]
@[simp] theorem State.kept_updateHealth (s : State) : (s.updateHealth).kept = s.kept := by simp [State.updateHealth]
@[simp] theorem State.kept_putWords (s : State) (i : Nat) (ws : List Nat) (w : State → Nat → Nat → State)
    (h : ∀ (t : State) (j x : Nat), (w t j x).kept = t.kept) : (s.putWords i ws w).kept = s.kept := by simp [State.putWords, h]
@[simp] theorem State.kept_openBank (s : State) (port table : Nat) : (s.openBank port table).kept = s.kept := by simp [State.openBank]
@[simp] theorem State.kept_putTableWord (s : State) (port table bank o w : Nat) :
    (s.putTableWord port table bank o w).kept = s.kept := by simp [State.putTableWord]
@[simp] theorem State.kept_putBind (s : State) (n u ch w : Nat) : (s.putBind n u ch w).kept = s.kept := (rfl)
@[simp] theorem State.kept_applyRecord (s : State) (r : Nat) : (s.applyRecord r).kept = s.kept := by
  simp only [State.applyRecord]
  repeat' split
  all_goals simp
@[simp] theorem State.kept_applyPatches (s : State) : (s.applyPatches).kept = s.kept := by simp [State.applyPatches]
@[simp] theorem State.kept_examine (s : State) : (s.examine).kept = s.kept := by simp [State.examine]
@[simp] theorem State.kept_boundaryTags (s : State) : (s.boundaryTags).kept = s.kept := by simp [State.boundaryTags]
@[simp] theorem State.kept_tryWithdraw (s : State) : (s.tryWithdraw).kept = s.kept := by
  simp only [State.tryWithdraw]
  split
  · refine (State.kept_endJob _).trans ?_
    split
    · exact (State.kept_foldl _ (fun t p => State.kept_sendTo ..) _).trans (State.kept_sendTo ..)
    · rfl
  · rfl
@[simp] theorem State.kept_freeTag (s : State) (t : Nat) : (s.freeTag t).kept = s.kept := by simp [State.freeTag]
@[simp] theorem State.kept_freeTags (s : State) : (s.freeTags).kept = s.kept := by simp [State.freeTags]
@[simp] theorem State.kept_sendDigest (s : State) (step : Nat) (d : BitVec 256) (replayer : Bool) :
    (s.sendDigest step d replayer).kept = s.kept := by simp [State.sendDigest]
@[simp] theorem State.kept_endReplay (s : State) : (s.endReplay).kept = s.kept := by simp [State.endReplay]
@[simp] theorem State.kept_startIsland (s : State) (n k : Nat) (test : Bool) : (s.startIsland n k test).kept = s.kept := (rfl)
@[simp] theorem State.kept_switchBanks (s : State) : (s.switchBanks).kept = s.kept := by simp [State.switchBanks]
@[simp] theorem State.kept_runTones (s : State) (packs : List Pack) : (s.runTones packs).kept = s.kept := by simp [State.runTones]
@[simp] theorem State.kept_startBreath (s : State) : (s.startBreath).kept = s.kept := by simp [State.startBreath]
@[simp] theorem keeps_execTriggerFire (s : State) : Out.Keeps s (execTriggerFire s) := by
  have hfired : ((s.setF aTimTrigState F.timTrigState_armed 0).wrapAdd aTimTrigState F.timTrigState_fired 1).kept = s.kept := rfl
  simp only [execTriggerFire]
  repeat' split
  all_goals simp only [Out.keeps_next, State.kept_armTrigger, State.kept_setF, State.kept_missStart, State.kept_startBreath,
    State.kept_applyPatches, hfired]
@[simp] theorem keeps_execPatchOrder (msg : Msg) (s : State) : Out.Keeps s (execPatchOrder msg s) := by
  simp only [execPatchOrder]
  repeat' split
  all_goals simp
@[simp] theorem State.kept_busDone (s : State) (err : Bool) : (s.busDone err).kept = s.kept := (rfl)
@[simp] theorem keeps_execTimIncrWrite (value : Word) (s : State) : Out.Keeps s (execTimIncrWrite value s) := by simp [execTimIncrWrite]
@[simp] theorem keeps_execTimPhaseWrite (value : Word) (s : State) :
    Out.Keeps s (execTimPhaseWrite value s) := by simp [execTimPhaseWrite]
@[simp] theorem keeps_execTimTrigWrite (value : Word) (s : State) : Out.Keeps s (execTimTrigWrite value s) := by simp [execTimTrigWrite]
@[simp] theorem keeps_execReferenceClockTick (s : State) : Out.Keeps s (execReferenceClockTick s) := by
  simp only [execReferenceClockTick]
  repeat' split
  all_goals simp
@[simp] theorem keeps_execRefclkFail (clock : Nat) (s : State) : Out.Keeps s (execRefclkFail clock s) := by simp [execRefclkFail]
@[simp] theorem keeps_execHoldoverTimeout (s : State) : Out.Keeps s (execHoldoverTimeout s) := by simp [execHoldoverTimeout]
@[simp] theorem State.kept_updateLock (s : State) (m : Int) (deep : Bool) :
    (s.updateLock m deep).kept = s.kept := by simp [State.updateLock]
@[simp] theorem keeps_execTimeSteerUpdate (s : State) : Out.Keeps s (execTimeSteerUpdate s) := by
  simp only [execTimeSteerUpdate]
  repeat' split
  all_goals simp
@[simp] theorem keeps_execTlqArm (port entry : Nat) (value : Word) (s : State) :
    Out.Keeps s (execTlqArm port entry value s) := by simp [execTlqArm]
@[simp] theorem keeps_execBocPowerCfgWrite (value : Word) (s : State) :
    Out.Keeps s (execBocPowerCfgWrite value s) := by simp [execBocPowerCfgWrite]
@[simp] theorem State.kept_measure (s : State) : (s.measure).kept = s.kept := (rfl)
@[simp] theorem State.kept_controlPower (s : State) (average limit : Nat) :
    (s.controlPower average limit).kept = s.kept := by simp [State.controlPower]
@[simp] theorem keeps_execPowerControlUpdate (average : Nat) (s : State) :
    Out.Keeps s (execPowerControlUpdate average s) := by simp [execPowerControlUpdate]
@[simp] theorem keeps_execLowInput (s : State) : Out.Keeps s (execLowInput s) := by simp [execLowInput]
@[simp] theorem keeps_execOpenFibreControl (port : Nat) (signals : BitVec 9) (s : State) :
    Out.Keeps s (execOpenFibreControl port signals s) := by simp [execOpenFibreControl]
@[simp] theorem State.kept_refresh (s : State) (r : RegName) (a : Nat) : (s.refresh r a).kept = s.kept := by
  simp only [State.refresh]
  split <;> simp
@[simp] theorem State.kept_clearRc (s : State) (r : RegName) (a : Nat) : (s.clearRc r a).kept = s.kept := by simp [State.clearRc]
@[simp] theorem State.kept_ctlRead (s : State) (a : Nat) : (s.ctlRead a).1.kept = s.kept := by
  simp only [State.ctlRead]
  repeat' split
  all_goals simp
@[simp] theorem State.kept_plainWrite (s : State) (r : RegName) (a v : Nat) : (s.plainWrite r a v).kept = s.kept := by
  refine State.kept_foldl _ (fun s f => ?_) s
  split <;> simp
@[simp] theorem State.kept_outState (s : State) {o : Out} (h : Out.Keeps s o) : (outState s o).kept = s.kept := by
  cases o with
  | next t => exact h
  | fault f => rfl
  | refused r => rfl
@[simp] theorem State.kept_ctlWrite (s : State) (a : Nat) (v : Word) : (s.ctlWrite a v).kept = s.kept := by
  simp only [State.ctlWrite]
  repeat' split
  all_goals simp
@[simp] theorem keeps_execRegisterWrite (addr bytes : Nat) (value hw : Word) (s : State) :
    Out.Keeps s (execRegisterWrite addr bytes value hw s) := by
  simp only [execRegisterWrite]
  repeat' split
  all_goals simp
@[simp] theorem keeps_execRcClearingRead (addr bytes : Nat) (same : List (Nat × Nat)) (s : State) :
    Out.Keeps s (execRcClearingRead addr bytes same s) := by
  have hread := s.kept_ctlRead addr
  simp only [execRcClearingRead]
  split
  · simp
  · split
    · simp
    · next s1 w hs1 =>
      rw [hs1] at hread
      simp only [Out.keeps_next, State.kept_mk]
      refine (State.kept_foldl _ (fun t f => ?_) s1).trans hread
      split <;> simp
@[simp] theorem State.kept_clearTraffic (s : State) : (s.clearTraffic).kept = s.kept := by simp [State.clearTraffic]
@[simp] theorem State.kept_drained (s : State) : (s.drained).kept = s.kept := by simp [State.drained]
@[simp] theorem State.kept_leadResume (s : State) : (s.leadResume).kept = s.kept := by simp [State.leadResume]
@[simp] theorem State.kept_endRecovery (s : State) : (s.endRecovery).kept = s.kept := by simp [State.endRecovery]
@[simp] theorem State.kept_tryDrain (s : State) : (s.tryDrain).kept = s.kept := by simp [State.tryDrain]
@[simp] theorem State.kept_setReq (s : State) (k : Nat) (r : Option Req) : (s.setReq k r).kept = s.kept := (rfl)
@[simp] theorem State.kept_sendPacket (s : State) (p : Packet) : (s.sendPacket p).kept = s.kept := by simp [State.sendPacket]
@[simp] theorem State.kept_noteThrottle (s : State) : (s.noteThrottle).kept = s.kept := by simp [State.noteThrottle]
theorem State.kept_takeTokens {s t : State} {k : Nat} (h : s.takeTokens k = some t) : t.kept = s.kept := by
  simp only [State.takeTokens] at h
  split_ifs at h <;> cases h <;> simp
@[simp] theorem State.kept_setBank (s : State) (b v : Nat) : (s.setBank b v).kept = s.kept := (rfl)
@[simp] theorem State.kept_buildBank (s : State) (b : Nat) : (s.buildBank b).kept = s.kept := by simp [State.buildBank]
@[simp] theorem State.kept_enqueue (s : State) (p vc : Nat) (axis : Nat) (dl : Bool) (fs : List Flit) :
    (s.enqueue p vc axis dl fs).kept = s.kept := (rfl)
@[simp] theorem State.kept_freeEntries (s : State) (p vc k : Nat) : (s.freeEntries p vc k).kept = s.kept := (rfl)
@[simp] theorem State.kept_routeInput (s : State) (p vc : Nat) : (s.routeInput p vc).kept = s.kept := by
  simp only [State.routeInput]
  repeat' split
  all_goals simp
@[simp] theorem State.kept_routeOwn (s : State) (resp : Bool) : (s.routeOwn resp).kept = s.kept := by
  simp only [State.routeOwn]
  repeat' split
  all_goals simp
@[simp] theorem keeps_execPacketRoute (port vc : Nat) (s : State) : Out.Keeps s (execPacketRoute port vc s) := by simp [execPacketRoute]
@[simp] theorem State.kept_logRmem (s : State) (n u op status : Nat) : (s.logRmem n u op status).kept = s.kept := by simp [State.logRmem]
@[simp] theorem State.kept_dropWaiting (s : State) (n u t : Nat) : (s.dropWaiting n u t).kept = s.kept := (rfl)
@[simp] theorem State.kept_readCtl (a k : Nat) (s : State) : (State.readCtl a k s).1.kept = s.kept := by
  induction k generalizing a s with
  | zero => rfl
  | succ k ih => simp [State.readCtl, ih]
theorem State.kept_writeCtl {a k : Nat} {bs : List Byte} {s t : State} (h : State.writeCtl a k bs s = some t) : t.kept = s.kept := by
  induction k generalizing a bs s with
  | zero => cases h; rfl
  | succ k ih =>
    simp only [State.writeCtl] at h
    split at h
    · cases h
    · exact (ih h).trans (by simp)
@[simp] theorem State.kept_consume (s : State) (p : Packet) : (s.consume p).kept = s.kept := by
  simp only [State.consume]
  repeat' split
  all_goals simp
@[simp] theorem State.kept_arrived (s : State) (p : Packet) : (s.arrived p).1.kept = s.kept := by simp [State.arrived]
@[simp] theorem State.kept_lateResponse (s : State) : (s.lateResponse).kept = s.kept := (rfl)
@[simp] theorem keeps_execAttemptTimer (n u tracker : Nat) (s : State) : Out.Keeps s (execAttemptTimer n u tracker s) := by
  simp only [execAttemptTimer]
  repeat' split
  all_goals simp
@[simp] theorem keeps_execDedupEntryFree (isPut : Bool) (index : Nat) (s : State) :
    Out.Keeps s (execDedupEntryFree isPut index s) := by simp [execDedupEntryFree]
@[simp] theorem State.kept_noteLink (s : State) (key : Nat) (down : Bool) : (s.noteLink key down).kept = s.kept := (rfl)
@[simp] theorem State.kept_sendInstalls (s : State) (l : List (Nat × Bool)) :
    (s.sendInstalls l).kept = s.kept := by simp [State.sendInstalls]
@[simp] theorem State.kept_routeChange (s : State) (key : Nat) (down : Bool) :
    (s.routeChange key down).kept = s.kept := by simp [State.routeChange]
@[simp] theorem keeps_execRouteInstall (msg : Msg) (s : State) : Out.Keeps s (execRouteInstall msg s) := by simp [execRouteInstall]
@[simp] theorem keeps_execRouteReady (msg : Msg) (s : State) : Out.Keeps s (execRouteReady msg s) := by simp [execRouteReady]
@[simp] theorem keeps_execRouteFlip (msg : Msg) (s : State) : Out.Keeps s (execRouteFlip msg s) := by simp [execRouteFlip]
@[simp] theorem keeps_execEpochFlip (s : State) : Out.Keeps s (execEpochFlip s) := by simp [execEpochFlip]
@[simp] theorem keeps_execEpochRetire (s : State) : Out.Keeps s (execEpochRetire s) := by simp [execEpochRetire]
@[simp] theorem State.kept_swapped (s : State) (u : BitVec 32) : (s.swapped u).kept = s.kept := (rfl)
@[simp] theorem State.kept_passUp (s : State) (u v : BitVec 32) : (s.passUp u v).kept = s.kept := by simp [State.passUp]
@[simp] theorem State.kept_passIsland (s : State) (u : BitVec 32) : (s.passIsland u).kept = s.kept := by simp [State.passIsland]
@[simp] theorem State.kept_swapUnit (s : State) (u : BitVec 32) : (s.swapUnit u).kept = s.kept := by
  simp only [State.swapUnit]
  repeat' split
  all_goals simp
@[simp] theorem keeps_execValveSwap (unit : BitVec 32) (s : State) : Out.Keeps s (execValveSwap unit s) := by simp [execValveSwap]
@[simp] theorem keeps_execHoursMark (s : State) : Out.Keeps s (execHoursMark s) := by simp [execHoursMark]
@[simp] theorem keeps_execSuppressedRecordFlush (s : State) :
    Out.Keeps s (execSuppressedRecordFlush s) := by simp [execSuppressedRecordFlush]
@[simp] theorem keeps_execLedgerCompact (s : State) : Out.Keeps s (execLedgerCompact s) := by simp [execLedgerCompact]
@[simp] theorem State.kept_commitStep (s : State) (n : Nat) : (s.commitStep n).kept = s.kept := by simp [State.commitStep]
@[simp] theorem State.kept_discardStep (s : State) (n : Nat) : (s.discardStep n).kept = s.kept := by simp [State.discardStep]
@[simp] theorem State.kept_leadAbort (s : State) (cause : Nat) : (s.leadAbort cause).kept = s.kept := by simp [State.leadAbort]
@[simp] theorem State.kept_stopSlice (s : State) (reason : Nat) : (s.stopSlice reason).kept = s.kept := by simp [State.stopSlice]
@[simp] theorem State.kept_dropLinks (s : State) (keys : List Nat) : (s.dropLinks keys).kept = s.kept := by simp [State.dropLinks]
@[simp] theorem State.kept_nothingToSweep (s : State) (p : Nat) : (s.nothingToSweep p).kept = s.kept := (rfl)
@[simp] theorem State.kept_lose (s : State) (pkg : Nat) : (s.lose pkg).kept = s.kept := by
  simp only [State.lose]
  repeat' split
  all_goals simp
@[simp] theorem keeps_execPackageLost (package : Nat) (s : State) : Out.Keeps s (execPackageLost package s) := by simp [execPackageLost]
@[simp] theorem State.kept_linkReported (s : State) (key : Nat) (uses : Bool) :
    (s.linkReported key uses).kept = s.kept := by simp [State.linkReported]
@[simp] theorem State.kept_authReported (s : State) (key : Nat) : (s.authReported key).kept = s.kept := by simp [State.authReported]
@[simp] theorem keeps_execFaultReport (msg : Msg) (s : State) : Out.Keeps s (execFaultReport msg s) := by simp [execFaultReport]
@[simp] theorem State.kept_orderReplay (s : State) (step p : Nat) : (s.orderReplay step p).kept = s.kept := by
  simp only [State.orderReplay]
  repeat' split
  all_goals simp
@[simp] theorem keeps_execStepReport (msg : Msg) (s : State) : Out.Keeps s (execStepReport msg s) := by simp [execStepReport]
@[simp] theorem State.kept_awaitDecision (s : State) (n : Nat) : (s.awaitDecision n).kept = s.kept := by simp [State.awaitDecision]
@[simp] theorem State.kept_disagreed (s : State) (n : Nat) (pairs : List (Nat × Nat)) :
    (s.disagreed n pairs).kept = s.kept := by simp [State.disagreed]
@[simp] theorem State.kept_agreed (s : State) (n : Nat) (pairs : List (Nat × Nat)) :
    (s.agreed n pairs).kept = s.kept := by simp [State.agreed]
@[simp] theorem keeps_execCommitDecision (s : State) : Out.Keeps s (execCommitDecision s) := by
  simp only [execCommitDecision]
  repeat' split
  all_goals simp
@[simp] theorem keeps_execSlipOrderSend (s : State) : Out.Keeps s (execSlipOrderSend s) := by simp [execSlipOrderSend]
@[simp] theorem State.kept_quitReplay (s : State) (which : Nat → Bool) : (s.quitReplay which).kept = s.kept := by
  simp only [State.quitReplay]
  split <;> simp
@[simp] theorem State.kept_discardTag (s : State) (step : Nat) : (s.discardTag step).kept = s.kept := by simp [State.discardTag]
@[simp] theorem keeps_execSweepDone (msg : Msg) (s : State) : Out.Keeps s (execSweepDone msg s) := by simp [execSweepDone]
@[simp] theorem State.kept_applyPart (s : State) (p : Part) : (s.applyPart p).kept = s.kept := by simp [State.applyPart]
@[simp] theorem State.kept_beginReplay (s : State) (step p : Nat) (spare : Bool) : (s.beginReplay step p spare).kept = s.kept := by
  refine (State.kept_armTrigger ..).trans ((State.kept_setF ..).trans ((State.kept_bump ..).trans ((State.kept_setF ..).trans ?_)))
  refine (State.kept_mk ..).trans ?_
  split
  · split <;> simp
  · rfl
@[simp] theorem keeps_execReplayOrder (msg : Msg) (s : State) : Out.Keeps s (execReplayOrder msg s) := by simp [execReplayOrder]
@[simp] theorem keeps_execDigest (msg : Msg) (s : State) : Out.Keeps s (execDigest msg s) := by simp [execDigest]
@[simp] theorem keeps_execReplayLimitExpiry (s : State) : Out.Keeps s (execReplayLimitExpiry s) := by
  simp only [execReplayLimitExpiry]
  repeat' split
  all_goals simp
@[simp] theorem keeps_execLocalisationTest (n cl record : Nat) (reproduced : Bool) (s : State) :
    Out.Keeps s (execLocalisationTest n cl record reproduced s) := by simp [execLocalisationTest]
@[simp] theorem State.kept_joined (s : State) (p : Nat) : (s.joined p).kept = s.kept := by simp [State.joined]
@[simp] theorem keeps_execHeartbeat (msg : Msg) (s : State) : Out.Keeps s (execHeartbeat msg s) := by simp [execHeartbeat]
@[simp] theorem keeps_execHeartbeatSend (s : State) : Out.Keeps s (execHeartbeatSend s) := by simp [execHeartbeatSend]
@[simp] theorem State.kept_becomeRoot (s : State) : (s.becomeRoot).kept = s.kept := (rfl)
@[simp] theorem keeps_execLeadLossTimeout (s : State) : Out.Keeps s (execLeadLossTimeout s) := by
  simp only [execLeadLossTimeout]
  repeat' split
  all_goals simp
@[simp] theorem keeps_execHeartbeatLossTimeout (package : Nat) (s : State) :
    Out.Keeps s (execHeartbeatLossTimeout package s) := by simp [execHeartbeatLossTimeout]
@[simp] theorem keeps_execPromote (msg : Msg) (s : State) : Out.Keeps s (execPromote msg s) := by
  unfold execPromote
  extract_lets taken lost sp old i noted raised key active rcv listed phase entered apart member own rooted
  have hlisted : listed.kept = s.kept := by simp [listed, active, raised, noted, taken]
  have hentered : entered.kept = s.kept := by simp [entered, hlisted]
  have hapart : apart.kept = s.kept := (State.kept_foldl _ (fun t p => State.kept_quarantine t p) _).trans hentered
  have hown : own.kept = s.kept := by
    simp only [own, State.kept_ite]
    split
    · split <;> simp [member, hapart]
    · exact hapart
  simp [rooted, hown]
@[simp] theorem keeps_execEventSuppressSummary (s : State) :
    Out.Keeps s (execEventSuppressSummary s) := by simp [execEventSuppressSummary]
@[simp] theorem keeps_execHealthDigestUpdate (s : State) : Out.Keeps s (execHealthDigestUpdate s) := by simp [execHealthDigestUpdate]
@[simp] theorem keeps_execAuthTagSend (port : Nat) (s : State) : Out.Keeps s (execAuthTagSend port s) := by simp [execAuthTagSend]
@[simp] theorem keeps_execAuthTag (port : Nat) (msg : Msg) (ok : Bool) (s : State) :
    Out.Keeps s (execAuthTag port msg ok s) := by simp [execAuthTag]
@[simp] theorem keeps_execTagRequest (msg : Msg) (s : State) : Out.Keeps s (execTagRequest msg s) := by
  simp only [execTagRequest]
  repeat' split
  all_goals simp
@[simp] theorem keeps_execAuthTagTimeout (port : Nat) (s : State) :
    Out.Keeps s (execAuthTagTimeout port s) := by simp [execAuthTagTimeout]
@[simp] theorem State.kept_endSession (s : State) (id : BitVec 64) : (s.endSession id).kept = s.kept := (rfl)
@[simp] theorem keeps_execSessionTimeout (session : BitVec 64) (s : State) : Out.Keeps s (execSessionTimeout session s) := (rfl)
@[simp] theorem State.kept_setMeas (s : State) (i v : Nat) : (s.setMeas i v).kept = s.kept := (rfl)
@[simp] theorem State.kept_extend (s : State) (i : Nat) (d : BitVec 512) : (s.extend i d).kept = s.kept := by simp [State.extend]
@[simp] theorem State.kept_showOwner (s : State) : (s.showOwner).kept = s.kept := by
  simp only [State.showOwner]
  split <;> simp
@[simp] theorem State.kept_boot (s : State) (env : BootEnv) : (s.boot env).kept = s.kept := by
  simp only [State.boot]
  repeat' split
  all_goals simp
@[simp] theorem State.kept_failAtBoot (s : State) (cause : Nat) (u : BitVec 32) :
    (s.failAtBoot cause u).kept = s.kept := by simp [State.failAtBoot]
@[simp] theorem State.kept_macroFails (s : State) (owner : Nat) (m : BitVec 32) :
    (s.macroFails owner m).kept = s.kept := by simp [State.macroFails]
@[simp] theorem State.kept_mapChannels (s : State) (f : Nat) : (s.mapChannels f).kept = s.kept := (rfl)
@[simp] theorem State.kept_showCapacity (s : State) : (s.showCapacity).kept = s.kept := by simp [State.showCapacity]
@[simp] theorem State.kept_readLedger (s : State) : (s.readLedger).kept = s.kept := (rfl)
@[simp] theorem State.kept_selfTest (s : State) (env : BootEnv) : (s.selfTest env).kept = s.kept := by simp [State.selfTest]
@[simp] theorem State.kept_setChannels (s : State) (v : Nat) : (s.setChannels v).kept = s.kept := by simp [State.setChannels]
@[simp] theorem State.kept_crossingFails (s : State) (n q : Nat) : (s.crossingFails n q).kept = s.kept := by simp [State.crossingFails]
@[simp] theorem State.kept_calibrate (s : State) (env : BootEnv) : (s.calibrate env).kept = s.kept := by simp [State.calibrate]
@[simp] theorem keeps_execResetRelease (env : BootEnv) (s : State) : Out.Keeps s (execResetRelease env s) := by simp [execResetRelease]
@[simp] theorem keeps_execBocalFailover (s : State) : Out.Keeps s (execBocalFailover s) := by simp [execBocalFailover]
@[simp] theorem keeps_execFieldControllerError (field : Nat) (s : State) :
    Out.Keeps s (execFieldControllerError field s) := by simp [execFieldControllerError]
@[simp] theorem State.kept_spread (s : State) (c : Ctl) : (s.spread c).kept = s.kept := by simp [State.spread]
@[simp] theorem keeps_execCtlForward (routing : BitVec 128) (msgs : List Msg) (s : State) :
    Out.Keeps s (execCtlForward routing msgs s) := by simp [execCtlForward]
@[simp] theorem keeps_execCtlBroadcastForward (routing : BitVec 128) (msgs : List Msg) (s : State) :
    Out.Keeps s (execCtlBroadcastForward routing msgs s) := by simp [execCtlBroadcastForward]
@[simp] theorem keeps_execCtlDropTimeout (s : State) : Out.Keeps s (execCtlDropTimeout s) := by simp [execCtlDropTimeout]
@[simp] theorem State.kept_mapDrones (s : State) (f : Nat → Nat) : (s.mapDrones f).kept = s.kept := by simp [State.mapDrones]
@[simp] theorem State.kept_setDrone (s : State) (i v : Nat) : (s.setDrone i v).kept = s.kept := (rfl)
@[simp] theorem State.kept_closeDrones (s : State) (b : Beat) : (s.closeDrones b).kept = s.kept := by simp [State.closeDrones]
@[simp] theorem keeps_execDronePathFullyOpen (pair : Nat) (s : State) :
    Out.Keeps s (execDronePathFullyOpen pair s) := by simp [execDronePathFullyOpen]
@[simp] theorem keeps_execDronePathFullyClosed (pair : Nat) (s : State) :
    Out.Keeps s (execDronePathFullyClosed pair s) := by simp [execDronePathFullyClosed]
@[simp] theorem keeps_execDronePathClose (cause : CloseCause) (s : State) : Out.Keeps s (execDronePathClose cause s) := by
  simp only [execDronePathClose]
  repeat' split
  all_goals simp
@[simp] theorem keeps_execAdmitNoticeMessage (msg : Msg) (s : State) :
    Out.Keeps s (execAdmitNoticeMessage msg s) := by simp [execAdmitNoticeMessage]
@[simp] theorem keeps_execAdmissionOpen (s : State) : Out.Keeps s (execAdmissionOpen s) := by
  have hmap : ∀ f, (s.mapDrones f).kept = s.kept := fun f => State.kept_mapDrones s f
  simp only [execAdmissionOpen]
  split
  · simp
  · split
    · simp
    · simp only [Out.keeps_next, State.kept_setF, State.kept_mk, State.kept_eta, hmap]
@[simp] theorem State.kept_becomeMember (s : State) (m : Manifest) : (s.becomeMember m).kept = s.kept := by simp [State.becomeMember]
@[simp] theorem keeps_execAdmitted (s : State) : Out.Keeps s (execAdmitted s) := by
  simp only [execAdmitted]
  repeat' split
  all_goals simp
@[simp] theorem keeps_execAdmissionTimeout (s : State) : Out.Keeps s (execAdmissionTimeout s) := by simp [execAdmissionTimeout]
@[simp] theorem keeps_execImageReady (msg : Msg) (s : State) : Out.Keeps s (execImageReady msg s) := by simp [execImageReady]
@[simp] theorem keeps_execBreath0LoadDone (s : State) : Out.Keeps s (execBreath0LoadDone s) := by simp [execBreath0LoadDone]
@[simp] theorem State.kept_freshJob (s : State) : (s.freshJob).kept = s.kept := (rfl)
@[simp] theorem keeps_execStartOrder (msg : Msg) (s : State) : Out.Keeps s (execStartOrder msg s) := by simp [execStartOrder]
@[simp] theorem keeps_execWithdrawNotice (msg : Msg) (s : State) : Out.Keeps s (execWithdrawNotice msg s) := by simp [execWithdrawNotice]
@[simp] theorem State.kept_eraseKeys (s : State) : (s.eraseKeys).kept = s.kept := by simp [State.eraseKeys]
@[simp] theorem State.kept_leaveSlice (s : State) : (s.leaveSlice).kept = s.kept := by simp [State.leaveSlice]
@[simp] theorem State.kept_darkPorts (s : State) : (s.darkPorts).kept = s.kept := by simp [State.darkPorts]
@[simp] theorem State.kept_dropBrq (s : State) : (s.dropBrq).kept = s.kept := (rfl)
@[simp] theorem State.kept_countAnswer (s : State) (status : Nat) : (s.countAnswer status).kept = s.kept := by
  simp only [State.countAnswer]
  split <;> simp
@[simp] theorem State.kept_setSession (s : State) (x : Session) : (s.setSession x).kept = s.kept := (rfl)
@[simp] theorem State.kept_respondClear (s : State) (r : Brq) (code status : Nat) (data : List Byte) :
    (s.respondClear r code status data).kept = s.kept := by simp [State.respondClear]
@[simp] theorem State.kept_respond (s : State) (r : Brq) (out code status : Nat) (data : List Byte) (keep : Bool) :
    (s.respond r out code status data keep).kept = s.kept := by
  simp only [State.respond]
  split <;> simp
@[simp] theorem State.kept_sessionRequest (s : State) (r : Brq) (code : Nat) (may : Session → Bool) (inRecovery : Bool) (act : Act)
    (after : State → State) (hact : ∀ (x : Session) (t : State), (act x t).1.kept = t.kept) (hafter : ∀ t : State,
    (after t).kept = t.kept) :
    (s.sessionRequest r code may inRecovery act after).kept = s.kept := by
  simp only [State.sessionRequest]
  repeat' split
  all_goals simp [hact, hafter]
@[simp] theorem State.kept_refuse (s : State) (status : Nat) : (refuse s status).1.kept = s.kept := (rfl)
@[simp] theorem keeps_execSessionOpen (req : Brq) (owner : Bool) (record : Nat) (sid : BitVec 64) (challenge next : BitVec 256)
    (verdict : Verdict) (s : State) : Out.Keeps s (execSessionOpen req owner record sid challenge next verdict s) := by
  have hbase : ({ s with boc := { s.boc with challenge := next } } : State).kept = s.kept := rfl
  refine .ite rfl (.ite (State.kept_dropBrq s) (.ite (State.kept_respondClear ..) (.ite ?_ ?_)))
  · exact (State.kept_respondClear ..).trans hbase
  · exact (State.kept_respondClear ..).trans ((State.kept_endSession { s with boc := { s.boc with challenge := next } } sid).trans hbase)
@[simp] theorem keeps_execSessionClose (req : Brq) (s : State) : Out.Keeps s (execSessionClose req s) := by simp [execSessionClose]
@[simp] theorem keeps_execTimePoll (req : Brq) (arrival departure : Beat) (s : State) :
    Out.Keeps s (execTimePoll req arrival departure s) := by simp [execTimePoll]
@[simp] theorem keeps_execTimeSteer (req : Brq) (writeIncr writePhase : Bool) (incr phase : Word) (s : State) :
    Out.Keeps s (execTimeSteer req writeIncr writePhase incr phase s) := by simp [execTimeSteer]
@[simp] theorem keeps_execEventAck (req : Brq) (seq : Nat) (s : State) : Out.Keeps s (execEventAck req seq s) := by simp [execEventAck]
@[simp] theorem keeps_execRegRead (req : Brq) (addr : Nat) (s : State) : Out.Keeps s (execRegRead req addr s) := by
  refine State.kept_sessionRequest s req _ _ _ _ _ (fun x t => ?_) fun t => rfl
  have hread := t.kept_ctlRead addr
  split
  · next h => rw [h] at hread; exact hread
  · rfl
@[simp] theorem keeps_execRegWrite (req : Brq) (addr : Nat) (value : Word) (s : State) :
    Out.Keeps s (execRegWrite req addr value s) := by simp [execRegWrite]
@[simp] theorem keeps_execAdmitRequest (req : Brq) (beat : Beat) (s : State) :
    Out.Keeps s (execAdmitRequest req beat s) := by simp [execAdmitRequest]
@[simp] theorem keeps_execAdmitNotice (req : Brq) (joiner : Nat) (beat : Beat) (s : State) :
    Out.Keeps s (execAdmitNotice req joiner beat s) := by simp [execAdmitNotice]
@[simp] theorem keeps_execWithdraw (req : Brq) (s : State) : Out.Keeps s (execWithdraw req s) := by simp [execWithdraw]
@[simp] theorem keeps_execStart (req : Brq) (t0 : Beat) (s : State) : Out.Keeps s (execStart req t0 s) := by simp [execStart]
@[simp] theorem keeps_execStop (req : Brq) (s : State) : Out.Keeps s (execStop req s) := by simp [execStop]
@[simp] theorem keeps_execDecide (req : Brq) (step choice : Nat) (s : State) :
    Out.Keeps s (execDecide req step choice s) := by simp [execDecide]
@[simp] theorem keeps_execConfirm (req : Brq) (s : State) : Out.Keeps s (execConfirm req s) := by simp [execConfirm]
@[simp] theorem keeps_execToneRun (req : Brq) (pack : Nat) (s : State) : Out.Keeps s (execToneRun req pack s) := by simp [execToneRun]
@[simp] theorem State.kept_clearForImage (s : State) : (s.clearForImage).kept = s.kept := by simp [State.clearForImage]
@[simp] theorem State.kept_acceptPart (s : State) (m : Manifest) (e : Envelope) (p : Part) :
    (s.acceptPart m e p).kept = s.kept := by simp [State.acceptPart]
@[simp] theorem keeps_execObjRead (req : Brq) (object index offset length : Nat) (s : State) :
    Out.Keeps s (execObjRead req object index offset length s) := by
  simp only [execObjRead]
  repeat' split
  all_goals simp
@[simp] theorem keeps_execMakeReport (req : Brq) (nonce : BitVec 256) (s : State) :
    Out.Keeps s (execMakeReport req nonce s) := by simp [execMakeReport]
@[simp] theorem State.kept_writeSlot (s : State) (slot off : Nat) (bs : List Byte) : (s.writeSlot slot off bs).kept = s.kept := (rfl)
@[simp] theorem State.kept_dropWrite (s : State) (o i : Nat) : (s.dropWrite o i).kept = s.kept := (rfl)
@[simp] theorem keeps_execObjDiscard (req : Brq) (object index : Nat) (s : State) : Out.Keeps s (execObjDiscard req object index s) := by
  refine State.kept_sessionRequest s req _ _ _ _ _ (fun x t => ?_) fun t => rfl
  simp only [State.kept_fst_ite]
  split
  · simp
  · split
    · simp
    · split
      · split <;> simp
      · rfl
@[simp] theorem State.kept_takeOwner (s : State) (bs : List Byte) : (s.takeOwner bs).1.kept = s.kept := by
  simp only [State.takeOwner]
  repeat' split
  all_goals simp
@[simp] theorem State.kept_takeAuth (s : State) (bs : List Byte) : (s.takeAuth bs).1.kept = s.kept := by simp [State.takeAuth]
@[simp] theorem State.kept_takeFloor (s : State) (bs : List Byte) : (s.takeFloor bs).1.kept = s.kept := by simp [State.takeFloor]
@[simp] theorem State.kept_takeDebug (s : State) (x : Session) (bs : List Byte) :
    (s.takeDebug x bs).1.kept = s.kept := by simp [State.takeDebug]
@[simp] theorem State.kept_takeManifest (s : State) (bs : List Byte) : (s.takeManifest bs).1.kept = s.kept := by
  simp only [State.takeManifest]
  split
  · simp only [State.kept_fst_ite]
    split
    · simp only
    · refine (State.kept_foldl _ (fun t p => State.kept_classify t p) _).trans ?_
      simp
  · simp only
@[simp] theorem State.kept_takeGrant (s : State) (bs : List Byte) : (s.takeGrant bs).1.kept = s.kept := by
  simp only [State.takeGrant]
  repeat' split
  all_goals simp
@[simp] theorem State.kept_takeEnvelope (s : State) (bs : List Byte) : (s.takeEnvelope bs).1.kept = s.kept := by
  simp only [State.takeEnvelope]
  repeat' split
  all_goals simp
@[simp] theorem State.kept_takePart (s : State) (index : Nat) (bs : List Byte) : (s.takePart index bs).1.kept = s.kept := by
  simp only [State.takePart]
  repeat' split
  all_goals simp
@[simp] theorem State.kept_takePack (s : State) (bs : List Byte) : (s.takePack bs).1.kept = s.kept := by simp [State.takePack]
@[simp] theorem keeps_execCkptRead (req : Brq) (addr length : Nat) (s : State) :
    Out.Keeps s (execCkptRead req addr length s) := by simp [execCkptRead]
@[simp] theorem keeps_i3cAnswer (s : State) (l : List Byte) : Out.Keeps s (s.i3cAnswer l) := (rfl)
@[simp] theorem keeps_execEntdaa (address : BitVec 7) (s : State) : Out.Keeps s (execEntdaa address s) := by simp [execEntdaa]
@[simp] theorem keeps_execRstdaa (s : State) : Out.Keeps s (execRstdaa s) := by simp [execRstdaa]
@[simp] theorem keeps_execSetnewda (address : BitVec 7) (s : State) : Out.Keeps s (execSetnewda address s) := by simp [execSetnewda]
@[simp] theorem keeps_execGetpid (s : State) : Out.Keeps s (execGetpid s) := by simp [execGetpid]
@[simp] theorem keeps_execGetbcr (s : State) : Out.Keeps s (execGetbcr s) := by simp [execGetbcr]
@[simp] theorem keeps_execGetdcr (s : State) : Out.Keeps s (execGetdcr s) := by simp [execGetdcr]
@[simp] theorem keeps_execGetstatus (s : State) : Out.Keeps s (execGetstatus s) := by
  unfold execGetstatus
  split
  · exact keeps_i3cAnswer ..
  · rfl
@[simp] theorem keeps_execEnec (_events : BitVec 8) (s : State) : Out.Keeps s (execEnec _events s) := (rfl)
@[simp] theorem keeps_execDisec (_events : BitVec 8) (s : State) : Out.Keeps s (execDisec _events s) := (rfl)
@[simp] theorem keeps_execI3cPrivateWrite (bytes : List Byte) (s : State) : Out.Keeps s (execI3cPrivateWrite bytes s) := by
  simp only [execI3cPrivateWrite]
  split <;> simp
@[simp] theorem keeps_execI3cPrivateRead (count : Nat) (s : State) :
    Out.Keeps s (execI3cPrivateRead count s) := by simp [execI3cPrivateRead]
@[simp] theorem keeps_execMirrorRefresh (s : State) : Out.Keeps s (execMirrorRefresh s) := by simp [execMirrorRefresh]
@[simp] theorem State.kept_setThrottle (s : State) (field t : Nat) : (s.setThrottle field t).kept = s.kept := by simp [State.setThrottle]
@[simp] theorem State.kept_throttleStep (s : State) (field temp : Nat) :
    (s.throttleStep field temp).kept = s.kept := by simp [State.throttleStep]
@[simp] theorem keeps_execTestAccessPortInstruction (instr : TapInstr) (s : State) :
    Out.Keeps s (execTestAccessPortInstruction instr s) := (rfl)
@[simp] theorem keeps_execStallTimeout (n cycles : Nat) (s : State) :
    Out.Keeps s (execStallTimeout n cycles s) := by simp [execStallTimeout]

end Sys2Proof.Machine
end

section
/-! What every command keeps of memory and the queue: the queue stays, and memory stays in its canonical form. Stated for the operations that
do reach memory, its tags or its known-bad words, again in the order of the model's chapters. -/

namespace Sys2Proof.Machine

/-- The queue of `k'` is that of `k`, and the memory of `k'` is canonical if that of `k` is. -/
def Backing.Leads (k k' : Backing) : Prop := k'.queue = k.queue ∧ (Memory.wf k.mem = true → Memory.wf k'.mem = true)

/-- The answer's next state, if it has one, follows `k`; it is no refusal. -/
def Out.Leads (k : Backing) : Out → Prop
  | .next t => k.Leads t.kept
  | .fault _ => True
  | .refused _ => False

/-- The states that an instruction's meaning on a control core gives follow `k`. -/
def CtlBody.Leads (k : Backing) : CtlBody → Prop
  | .access t _ | .refused t => k.Leads t.kept
  | _ => True

theorem Backing.Leads.refl (k : Backing) : k.Leads k := ⟨rfl, id⟩

variable {k : Backing} {s : State}

@[simp] theorem Backing.leads_ite (c : Prop) [Decidable c] (a b : Backing) :
    k.Leads (if c then a else b) ↔ if c then k.Leads a else k.Leads b := by split <;> rfl

theorem State.leads_fst_ite {β : Type} {c : Prop} [Decidable c] {p q : State × β} (hp : k.Leads p.1.kept) (hq : k.Leads q.1.kept) :
    k.Leads (if c then p else q).1.kept := by split <;> assumption

@[simp] theorem Out.leads_next (t : State) : Out.Leads k (.next t) ↔ k.Leads t.kept := Iff.rfl
@[simp] theorem Out.leads_fault (f : Fault) : Out.Leads k (.fault f) := trivial

@[simp] theorem Out.leads_ite (c : Prop) [Decidable c] (o o' : Out) :
    Out.Leads k (if c then o else o') ↔ if c then Out.Leads k o else Out.Leads k o' := by split <;> rfl

/-- A command that keeps the backing follows what led to it. -/
theorem Out.leads_of_keeps (h : k.Leads s.kept) (o : Out) (ho : Out.Keeps s o) : Out.Leads k o := by
  cases o with
  | next t =>
    have ht : t.kept = s.kept := ho
    rw [Out.leads_next, ht]
    exact h
  | fault f => trivial
  | refused r => exact ho

/-- A fold follows when each of its steps does. -/
theorem State.leads_foldl {α : Type} {f : State → α → State} (l : List α)
    (hf : ∀ (t : State) (x : α), k.Leads t.kept → k.Leads (f t x).kept) (h : k.Leads s.kept) : k.Leads (l.foldl f s).kept := by
  induction l generalizing s with
  | nil => exact h
  | cons x l ih => exact ih (hf s x h)

/-- A change of the tags and the known-bad words alone. -/
theorem State.leads_of_mem {t : State} (hm : t.mem = s.mem) (hq : t.pending = s.pending) (h : k.Leads s.kept) : k.Leads t.kept :=
  ⟨hq.trans h.1, fun hk => (congrArg Memory.wf hm).trans (h.2 hk)⟩

@[simp] theorem State.leads_writeByte (a : Nat) (b : Byte) (h : k.Leads s.kept) : k.Leads (s.writeByte a b).kept :=
  ⟨h.1, fun hk => State.writeByte_wf a b (h.2 hk)⟩

@[simp] theorem State.leads_writeBytes (a : Nat) (bs : List Byte) (h : k.Leads s.kept) : k.Leads (s.writeBytes a bs).kept := by
  induction bs generalizing s a with
  | nil => exact h
  | cons b bs ih => exact ih (a + 1) (State.leads_writeByte a b h)

@[simp] theorem State.leads_setTags (a n : Nat) (tag : BitVec 2) (h : k.Leads s.kept) : k.Leads (s.setTags a n tag).kept := by
  simp only [State.setTags]
  split
  · exact h
  · exact State.leads_of_mem rfl rfl h

@[simp] theorem State.leads_markBad (a : Nat) (h : k.Leads s.kept) : k.Leads (s.markBad a).kept := State.leads_of_mem rfl rfl h

@[simp] theorem State.leads_repair (a n : Nat) (h : k.Leads s.kept) : k.Leads (s.repair a n).kept := by
  simp only [State.repair]
  split
  · exact h
  · exact State.leads_of_mem rfl rfl h

@[simp] theorem State.leads_clearTileTag (t : BitVec 2) (h : k.Leads s.kept) : k.Leads (s.clearTileTag t).kept :=
  State.leads_of_mem rfl rfl h

@[simp] theorem State.leads_cleared (h : k.Leads s.kept) : k.Leads s.cleared.kept :=
  ⟨h.1, fun _ => (rfl : Memory.wf [] = true)⟩

@[simp] theorem State.leads_zeroDies (h : k.Leads s.kept) : k.Leads s.zeroDies.kept := by
  have hislands : k.Leads (s.allIslands.foldl (fun t n => t.resetIsland n) s).kept := by simpa using h
  exact ⟨hislands.1, fun hk => Tbl.filter_wf _ (hislands.2 hk)⟩

@[simp] theorem State.leads_store (a : Nat) (bs : List Byte) (tag : BitVec 2) (h : k.Leads s.kept) : k.Leads (s.store a bs tag).kept :=
  State.leads_repair _ _ (State.leads_setTags _ _ _ (State.leads_writeBytes _ _ h))
@[simp] theorem State.leads_deliver (n u : Nat) (e : Eff) (hk : k.Leads s.kept) : k.Leads (s.deliver n u e).kept := by
  cases e with
  | store addr bytes tag => exact State.leads_store _ _ _ hk
  | put ch data prov => simpa only [State.deliver_put, State.kept_putQuarter] using hk
  | syncAdd ctr x => simpa only [State.deliver_syncAdd, State.kept_wrapAdd] using hk
  | syncSet ctr x => simpa only [State.deliver_syncSet, State.kept_setF] using hk
  | suspect step reason => simpa only [State.deliver_suspect, State.kept_suspReport] using hk
  | corrected => simpa only [State.deliver_corrected, State.kept_corrected, State.kept_bump] using hk
  | fetchCorrected => simpa only [State.deliver_fetchCorrected, State.kept_corrected, State.kept_bump] using hk
  | check lanes image => simpa only [State.deliver_check, State.kept_checkFail] using hk
  | waitLate => simpa only [State.deliver_waitLate, State.kept_bump] using hk
  | remote t r => simpa only [State.deliver_remote, State.kept_bump, State.kept_setCore] using hk
  | _ =>
    rw [State.deliver_own _ _ _ _ rfl, State.kept_setCore]
    exact hk
@[simp] theorem State.leads_deliverPhase (n ph : Nat) (due : List (Nat × List Eff)) (h : k.Leads s.kept) :
    k.Leads (s.deliverPhase n ph due).kept :=
  State.leads_foldl due (fun _ p ht => State.leads_foldl _ (fun _ e hv => State.leads_deliver n p.1 e hv) ht) h
@[simp] theorem State.leads_fetchFaulted (n u code : Nat) (hk : k.Leads s.kept) :
    k.Leads (s.fetchFaulted n u code).kept := by simp [State.fetchFaulted, hk]
@[simp] theorem State.leads_fetchIdle (n u : Nat) (hk : k.Leads s.kept) : k.Leads (s.fetchIdle n u).kept := by
  simp only [State.fetchIdle]
  repeat' split
  all_goals simp [hk]
@[simp] theorem State.leads_deliverCycle (n : Nat) (hk : k.Leads s.kept) : k.Leads (s.deliverCycle n).kept := by
  simp only [State.deliverCycle]
  rw [State.kept_foldl _ (fun t u => State.kept_setCore ..), State.kept_anyCycle]
  refine State.leads_deliverPhase _ _ _ (State.leads_deliverPhase _ _ _ ?_)
  rw [State.kept_endSwitches]
  refine State.leads_deliverPhase _ _ _ ?_
  rw [State.kept_foldl _ (fun t u => State.kept_setCore ..)]
  exact hk
@[simp] theorem State.leads_issueCycle (n : Nat) (hk : k.Leads s.kept) : k.Leads (s.issueCycle n).kept := by
  have hidle := State.leads_foldl (s.liveCores n) (fun t u ht => State.leads_fetchIdle n u ht) hk
  have hcycle := State.leads_deliverCycle n (s := ((s.liveCores n).foldl (fun t u => t.fetchIdle n u) s).endFaults n) (by simpa using hidle)
  simp only [State.issueCycle]
  split <;> simpa using hcycle
@[simp] theorem State.leads_advance (n j : Nat) (h : k.Leads s.kept) : k.Leads (State.advance n j s).1.kept := by
  induction j generalizing s with
  | zero => exact h
  | succ j ih =>
    simp only [State.advance]
    split
    · exact ih (State.leads_issueCycle n h)
    · exact h
@[simp] theorem State.leads_readFaulted (x : Ctx) (op : Op) (hk : k.Leads s.kept) : k.Leads (s.readFaulted x op).kept := by
  simp only [State.readFaulted]
  repeat' split
  all_goals simp [hk]
@[simp] theorem State.leads_slotFaulted (x : Ctx) (op : Op) (cs : List Cause) (hk : k.Leads s.kept) :
    k.Leads (s.slotFaulted x op cs).kept := by simp [State.slotFaulted, hk]
@[simp] theorem State.leads_issueNow (n u : Nat) (op : Op) (hk : k.Leads s.kept) : k.Leads (s.issueNow n u op).kept := by
  simp only [State.issueNow]
  repeat' split
  all_goals simp [hk]
@[simp] theorem State.leads_issueCore (n u : Nat) (op : Op) (hk : k.Leads s.kept) :
    k.Leads (s.issueCore n u op).kept := by simp [State.issueCore, hk]
/-- What issuing on a control core leaves follows, when the instruction's meaning does. -/
theorem State.leads_issueCtl (j : Nat) (sl : Slot) (legal : Bool) (slot : Nat) (dests : List Nat) {body : State → CtlCore → CtlBody}
    (hbody : ∀ (t : State) (c : CtlCore), k.Leads t.kept → (body t c).Leads k) (h : k.Leads s.kept) :
    k.Leads (s.issueCtl j sl legal slot dests body).kept := by
  have hopen : ∀ c, k.Leads (if sl.adv = 0 then s else s.setCtlCore j c).kept := fun c => by simpa using h
  simp only [State.issueCtl]
  split
  · exact h
  · have hb := fun d => hbody _ d (hopen (if sl.adv = 0 then s.ctlCore j else (s.ctlCore j).closeBundle))
    have ht := hopen (if sl.adv = 0 then s.ctlCore j else (s.ctlCore j).closeBundle)
    specialize hb (if sl.adv = 0 then s.ctlCore j else (s.ctlCore j).closeBundle)
    generalize (if sl.adv = 0 then s.ctlCore j else (s.ctlCore j).closeBundle) = c at hb ht ⊢
    generalize (if sl.adv = 0 then s else s.setCtlCore j c) = t at hb ht ⊢
    split
    · simpa using ht
    · split
      · simpa using ht
      · split
        · simpa using ht
        · split <;> simpa using ht
        · next s1 _ hacc =>
          rw [hacc] at hb
          have h1 : k.Leads s1.kept := hb
          simpa using h1
        · next s1 href =>
          rw [href] at hb
          have h1 : k.Leads s1.kept := hb
          simpa using h1
        · simpa using ht
        · simpa using ht

theorem leads_issue (op : Op) (legal : Bool) {body : State → CtlCore → CtlBody}
    (hbody : ∀ (t : State) (c : CtlCore), k.Leads t.kept → (body t c).Leads k) (h : k.Leads s.kept) : Out.Leads k
    (issue s op legal body) := by
  simp only [issue]
  split
  · simp [h]
  · simp [State.leads_issueCtl _ _ _ _ _ hbody h]
@[simp] theorem leads_coreOnly (op : Op) (h : k.Leads s.kept) : Out.Leads k (coreOnly s op) :=
  leads_issue op false (fun _ _ _ => trivial) h
@[simp] theorem leads_switchWord (i : Instr) (n cl : Nat) (word : BitVec 128) (adv : Nat) (hk : k.Leads s.kept) :
    Out.Leads k (switchWord s i n cl word adv) := by simp [switchWord, hk]
@[simp] theorem leads_execRouteWord (n cl : Nat) (word : BitVec 128) (adv : Nat) (hk : k.Leads s.kept) :
    Out.Leads k (execRouteWord n cl word adv s) := by simp [execRouteWord, hk]
@[simp] theorem leads_execIdleWord (n cl : Nat) (word : BitVec 128) (adv : Nat) (hk : k.Leads s.kept) :
    Out.Leads k (execIdleWord n cl word adv s) := by simp [execIdleWord, hk]
@[simp] theorem leads_execEndWord (n cl : Nat) (word : BitVec 128) (adv : Nat) (hk : k.Leads s.kept) :
    Out.Leads k (execEndWord n cl word adv s) := by simp [execEndWord, hk]
@[simp] theorem leads_execTileScrub (n u line : Nat) (ecc : Ecc) (hk : k.Leads s.kept) : Out.Leads k (execTileScrub n u line ecc s) := by
  simp only [execTileScrub]
  repeat' split
  all_goals simp [hk]
@[simp] theorem State.leads_drain (n j : Nat) (h : k.Leads s.kept) : k.Leads (State.drain n j s).kept := by
  induction j generalizing s with
  | zero => exact h
  | succ j ih =>
    simp only [State.drain]
    split
    · exact h
    · exact ih (State.leads_issueCycle n h)
@[simp] theorem leads_execIslandBreathComplete (n : Nat) (hk : k.Leads s.kept) :
    Out.Leads k (execIslandBreathComplete n s) := by simp [execIslandBreathComplete, hk]
@[simp] theorem State.leads_lpUncorrectable (a : Nat) (hk : k.Leads s.kept) :
    k.Leads (s.lpUncorrectable a).kept := by simp [State.lpUncorrectable, hk]
@[simp] theorem State.leads_lpRead (a : Nat) (ecc : Ecc) (hk : k.Leads s.kept) :
    k.Leads (s.lpRead a ecc).1.kept := by simp [State.lpRead, hk]
@[simp] theorem State.leads_lpWrite (a : Nat) (bs : List Byte) (tag : BitVec 2) (hk : k.Leads s.kept) :
    k.Leads (s.lpWrite a bs tag).kept := by simp [State.lpWrite, hk]
@[simp] theorem State.leads_readPiece (a n : Nat) (ecc : Ecc) (hk : k.Leads s.kept) : k.Leads (s.readPiece a n ecc).1.kept := by
  have hread := State.leads_lpRead a ecc hk
  simp only [State.readPiece]
  split
  · split <;> next hr => rw [hr] at hread; exact hread
  · split <;> simp [hk]
  · split <;> simp [hk]
  · exact hk
@[simp] theorem State.leads_readPieces (ecc : Eccs) (l : List (Nat × Nat)) (h : k.Leads s.kept) : k.Leads (s.readPieces ecc l).1.kept := by
  induction l generalizing s ecc with
  | nil => exact h
  | cons p l ih =>
    have hread := State.leads_readPiece p.1 p.2 (ecc.headD .clean) h
    simp only [State.readPieces]
    split
    · next hr => rw [hr] at hread; exact hread
    · next hr =>
      rw [hr] at hread
      have hrest := ih ecc.tail hread
      split <;> next hp => rw [hp] at hrest; exact hrest
@[simp] theorem State.leads_writePiece (a : Nat) (bs : List Byte) (tag : BitVec 2) (hk : k.Leads s.kept) :
    k.Leads (s.writePiece a bs tag).kept := by
  simp only [State.writePiece]
  split <;> simp [hk]
@[simp] theorem State.leads_writePieces (bs : List Byte) (tag : BitVec 2) (l : List (Nat × Nat)) (h : k.Leads s.kept) :
    k.Leads (s.writePieces bs tag l).kept := by
  induction l generalizing s bs with
  | nil => exact h
  | cons p l ih => exact ih _ (State.leads_writePiece _ _ _ h)
@[simp] theorem State.leads_writeChecked (tag : BitVec 2) (ecc : Eccs) (bs : List Byte) (l : List (Nat × Nat)) (h : k.Leads s.kept) :
    k.Leads (s.writeChecked tag ecc bs l).1.kept := by
  induction l generalizing s ecc bs with
  | nil => exact h
  | cons p l ih =>
    have hread := State.leads_lpRead p.1 (ecc.headD .clean) h
    simp only [State.writeChecked]
    split
    · split
      · next hr => rw [hr] at hread; exact ih _ _ (State.leads_writePiece _ _ _ hread)
      · next hr => rw [hr] at hread; exact ih _ _ hread
    · exact ih _ _ (State.leads_writePiece _ _ _ h)
@[simp] theorem leads_execLpddrPatrolScrub (addr : Nat) (ecc : Ecc) (hk : k.Leads s.kept) :
    Out.Leads k (execLpddrPatrolScrub addr ecc s) := by simp [execLpddrPatrolScrub, hk]
@[simp] theorem State.leads_moveLine (f d i : Nat) (ecc : Ecc) (hk : k.Leads s.kept) : k.Leads (s.moveLine f d i ecc).1.kept := by
  have hread := State.leads_readPiece (dSrc d + 64 * dSstride d * (i / dCount d) + 64 * (i % dCount d)) 64 ecc hk
  simp only [State.moveLine]
  split
  · exact hk
  · split
    · next hr => rw [hr] at hread; exact hread
    · next hr =>
      rw [hr] at hread
      split
      · exact State.leads_foldl _ (fun t j ht => State.leads_writePiece _ _ _ ht) hread
      · split <;> simp [hread]
      · simp [hread]
@[simp] theorem State.leads_moveLines (f d : Nat) (ecc : Eccs) (j i done : Nat) (h : k.Leads s.kept) :
    k.Leads (State.moveLines f d ecc j i done s).1.kept := by
  induction j generalizing s ecc i done with
  | zero => exact h
  | succ j ih =>
    have hline := State.leads_moveLine f d i (ecc.headD .clean) h
    simp only [State.moveLines]
    split <;> next hm => rw [hm] at hline; simp [ih, hline]
/-- An engine's descriptor follows when its movement does. -/
theorem State.leads_stmBegin (e : Nat) {run : State → State} (hrun : ∀ t : State, k.Leads t.kept → k.Leads (run t).kept)
    (hk : k.Leads s.kept) : k.Leads (s.stmBegin e run).kept := by
  have hbegun : k.Leads ((s.setEngine e { s.engine e with begun := true }).setF (stmA e) F.stmStatus_state 1).kept := by simpa using hk
  simp only [State.stmBegin]
  split
  · exact hrun s hk
  · split
    · simpa using hk
    · split
      · exact hrun _ hbegun
      · simpa using hk

@[simp] theorem leads_execStmMove (engine : Nat) (ecc : Eccs) (hk : k.Leads s.kept) : Out.Leads k (execStmMove engine ecc s) := by
  have hmove : ∀ t : State, k.Leads t.kept → k.Leads ((State.moveLines (engine / 16) (t.desc engine) ecc
      (dRows (t.desc engine) * dCount (t.desc engine)) 0 0 t).1).kept := fun t ht => State.leads_moveLines _ _ _ _ _ _ ht
  simp only [execStmMove]
  split
  · split
    · refine State.leads_stmBegin engine (fun t ht => ?_) hk
      split
      · simpa using ht
      · split <;> simpa using hmove t ht
    · exact hk
  · trivial
@[simp] theorem State.leads_treePart (f d j : Nat) (l : List Nat) (ecc : Eccs) (h : k.Leads s.kept) :
    k.Leads (s.treePart f d j l ecc).1.kept := by
  have hread := State.leads_readPieces ecc (pieces (treeSource d j).1 (treeSource d j).2) h
  simp only [State.treePart]
  refine State.leads_fst_ite h ?_
  split <;> next hr => rw [hr] at hread; simpa using hread
@[simp] theorem State.leads_treeParts (f d total : Nat) (l : List Nat) (ecc : Eccs) (m j : Nat) (h : k.Leads s.kept) :
    k.Leads (State.treeParts f d total l ecc m j s).1.kept := by
  induction m generalizing s ecc j with
  | zero => exact h
  | succ m ih =>
    have hpart := State.leads_treePart f d j l ecc h
    simp only [State.treeParts]
    split
    · exact h
    · split <;> next hm => rw [hm] at hpart; simp [ih, hpart]
@[simp] theorem leads_execStmTree (engine : Nat) (ecc : Eccs) (hk : k.Leads s.kept) : Out.Leads k (execStmTree engine ecc s) := by
  simp only [execStmTree]
  split
  · split
    · refine State.leads_stmBegin engine (fun t ht => ?_) hk
      split
      · simpa using ht
      · split
        · simpa using ht
        · next v hv =>
          have hown : k.Leads v.kept := State.kept_ownTrees hv ▸ ht
          split
          · simp [hown]
          · split <;> simp [hown]
    · exact hk
  · trivial
@[simp] theorem leads_execFlitLanding (port : Nat) (hk : k.Leads s.kept) : Out.Leads k (execFlitLanding port s) := by
  simp only [execFlitLanding]
  repeat' split
  all_goals simp [hk]
@[simp] theorem State.leads_applyCommit (step : Nat) (hk : k.Leads s.kept) : k.Leads (s.applyCommit step).kept := by
  simp only [State.applyCommit]
  repeat' split
  all_goals simp [hk]
@[simp] theorem State.leads_takeCommit  (hk : k.Leads s.kept) : k.Leads (s.takeCommit).kept := by
  simp only [State.takeCommit]
  split <;> simp [hk]
@[simp] theorem State.leads_loadData (r : Nat) (bs : List Byte) (hk : k.Leads s.kept) : k.Leads (s.loadData r bs).kept := by
  simp only [State.loadData]
  split <;> simp [hk]
@[simp] theorem leads_execLoadRecordRun (index : Nat) (ecc : Eccs) (hk : k.Leads s.kept) :
    Out.Leads k (execLoadRecordRun index ecc s) := by
  have hread := State.leads_readPieces ecc (pieces (recSrc (s.loadRecord index)) (16 * recCount (s.loadRecord index))) hk
  simp only [execLoadRecordRun]
  split
  · split
    · next hr => rw [hr] at hread; exact hread
    · next hr => rw [hr] at hread; simp [hread]
  · exact hk
@[simp] theorem State.leads_takeBoundary  (hk : k.Leads s.kept) : k.Leads (s.takeBoundary).kept := by simp [State.takeBoundary, hk]
@[simp] theorem leads_execPackageBoundary  (hk : k.Leads s.kept) :
    Out.Leads k (execPackageBoundary s) := by simp [execPackageBoundary, hk]
@[simp] theorem State.leads_freeze (cause : Nat) (hk : k.Leads s.kept) : k.Leads (s.freeze cause).kept := by simp [State.freeze, hk]
@[simp] theorem leads_execVld (sl : Slot) (vd sa : BitVec 5) (mode : BitVec 3) (sc : BitVec 5) (imm : BitVec 11) (hk : k.Leads s.kept) :
    Out.Leads k (execVld sl vd sa mode sc imm s) := by simp [execVld, hk]
@[simp] theorem leads_execVst (sl : Slot) (vs sa : BitVec 5) (mode : BitVec 3) (sc : BitVec 5) (imm : BitVec 11) (hk : k.Leads s.kept) :
    Out.Leads k (execVst sl vs sa mode sc imm s) := by simp [execVst, hk]
@[simp] theorem leads_execVsts (sl : Slot) (va sa : BitVec 5) (h : Bool) (imm : BitVec 16) (hk : k.Leads s.kept) :
    Out.Leads k (execVsts sl va sa h imm s) := by simp [execVsts, hk]
@[simp] theorem leads_execSendRegister (sl : Slot) (rid : BitVec 8) (va : BitVec 5) (imm : BitVec 11) (hk : k.Leads s.kept) :
    Out.Leads k (execSendRegister sl rid va imm s) := by simp [execSendRegister, hk]
@[simp] theorem leads_execSendMemory (sl : Slot) (rid : BitVec 8) (sa : BitVec 5) (imm : BitVec 11) (hk : k.Leads s.kept) :
    Out.Leads k (execSendMemory sl rid sa imm s) := by simp [execSendMemory, hk]
@[simp] theorem leads_execRecvVector (sl : Slot) (vd : BitVec 5) (ind : Bool) (entry : BitVec 6) (sa : BitVec 5) (hk : k.Leads s.kept) :
    Out.Leads k (execRecvVector sl vd ind entry sa s) := by simp [execRecvVector, hk]
@[simp] theorem leads_execRecvScalar (sl : Slot) (rd : BitVec 5) (ind : Bool) (entry : BitVec 6) (sa : BitVec 5) (hk : k.Leads s.kept) :
    Out.Leads k (execRecvScalar sl rd ind entry sa s) := by simp [execRecvScalar, hk]
@[simp] theorem leads_execStreamPut (sl : Slot) (ch : BitVec 3) (va : BitVec 5) (hk : k.Leads s.kept) :
    Out.Leads k (execStreamPut sl ch va s) := by simp [execStreamPut, hk]
@[simp] theorem leads_rmem (i : Instr) (op : Nat) (sl : Slot) (sa sb sc : BitVec 5) (n : BitVec 8) (hk : k.Leads s.kept) :
    Out.Leads k (rmem s i op sl sa sb sc n) := by simp [rmem, hk]
@[simp] theorem leads_execRmemRd (sl : Slot) (sa sb sc : BitVec 5) (n : BitVec 8) (hk : k.Leads s.kept) :
    Out.Leads k (execRmemRd sl sa sb sc n s) := by simp [execRmemRd, hk]
@[simp] theorem leads_execRmemWr (sl : Slot) (sa sb sc : BitVec 5) (n : BitVec 8) (hk : k.Leads s.kept) :
    Out.Leads k (execRmemWr sl sa sb sc n s) := by simp [execRmemWr, hk]
@[simp] theorem leads_execRmemPut (sl : Slot) (sa sb sc : BitVec 5) (n : BitVec 8) (hk : k.Leads s.kept) :
    Out.Leads k (execRmemPut sl sa sb sc n s) := by simp [execRmemPut, hk]
@[simp] theorem leads_execRmemXadd (sl : Slot) (sa sb sc : BitVec 5) (n : BitVec 8) (hk : k.Leads s.kept) :
    Out.Leads k (execRmemXadd sl sa sb sc n s) := by simp [execRmemXadd, hk]
@[simp] theorem leads_execRmemFadd (sl : Slot) (sa sb sc : BitVec 5) (n : BitVec 8) (hk : k.Leads s.kept) :
    Out.Leads k (execRmemFadd sl sa sb sc n s) := by simp [execRmemFadd, hk]
@[simp] theorem leads_execRmemCas (sl : Slot) (sa sb sc : BitVec 5) (n : BitVec 8) (hk : k.Leads s.kept) :
    Out.Leads k (execRmemCas sl sa sb sc n s) := by simp [execRmemCas, hk]
@[simp] theorem leads_execRmemSinc (sl : Slot) (sa sb sc : BitVec 5) (n : BitVec 8) (hk : k.Leads s.kept) :
    Out.Leads k (execRmemSinc sl sa sb sc n s) := by simp [execRmemSinc, hk]
@[simp] theorem leads_execSyncAdd (sl : Slot) (n : BitVec 8) (f : Bool) (sa : BitVec 5) (imm : BitVec 16) (hk : k.Leads s.kept) :
    Out.Leads k (execSyncAdd sl n f sa imm s) := by simp [execSyncAdd, hk]
@[simp] theorem leads_execSyncSet (sl : Slot) (n : BitVec 8) (f : Bool) (sa : BitVec 5) (hk : k.Leads s.kept) :
    Out.Leads k (execSyncSet sl n f sa s) := by simp [execSyncSet, hk]
@[simp] theorem leads_execSyncWait (sl : Slot) (n : BitVec 8) (f : Bool) (sa : BitVec 5) (hk : k.Leads s.kept) :
    Out.Leads k (execSyncWait sl n f sa s) := by simp [execSyncWait, hk]
@[simp] theorem leads_execSyncRd (sl : Slot) (rd : BitVec 5) (n : BitVec 8) (f : Bool) (hk : k.Leads s.kept) :
    Out.Leads k (execSyncRd sl rd n f s) := by simp [execSyncRd, hk]
@[simp] theorem leads_execCcWait (sl : Slot) (c : BitVec 12) (sa : BitVec 5) (hk : k.Leads s.kept) :
    Out.Leads k (execCcWait sl c sa s) := by simp [execCcWait, hk]
@[simp] theorem leads_execWaitCyc (sl : Slot) (f : Bool) (sa : BitVec 5) (imm : BitVec 24) (hk : k.Leads s.kept) :
    Out.Leads k (execWaitCyc sl f sa imm s) := by simp [execWaitCyc, hk]
@[simp] theorem leads_execBreathEnd (sl : Slot) (hk : k.Leads s.kept) : Out.Leads k (execBreathEnd sl s) := by simp [execBreathEnd, hk]
@[simp] theorem leads_execStepSet (sl : Slot) (sa : BitVec 5) (hk : k.Leads s.kept) :
    Out.Leads k (execStepSet sl sa s) := by simp [execStepSet, hk]
@[simp] theorem leads_execProvBegin (sl : Slot) (tag : BitVec 2) (hk : k.Leads s.kept) :
    Out.Leads k (execProvBegin sl tag s) := by simp [execProvBegin, hk]
@[simp] theorem leads_execProvEnd (sl : Slot) (hk : k.Leads s.kept) : Out.Leads k (execProvEnd sl s) := by simp [execProvEnd, hk]
@[simp] theorem leads_execSuspSet (sl : Slot) (reason : BitVec 16) (hk : k.Leads s.kept) :
    Out.Leads k (execSuspSet sl reason s) := by simp [execSuspSet, hk]
@[simp] theorem leads_execWld (sl : Slot) (fmt : BitVec 4) (part : BitVec 2) (sa : BitVec 5) (imm : BitVec 16) (hk : k.Leads s.kept) :
    Out.Leads k (execWld sl fmt part sa imm s) := by
  simp only [execWld]
  split <;> simp [hk]
@[simp] theorem State.leads_resolve (n u t status : Nat) (data : List Byte) (hk : k.Leads s.kept) :
    k.Leads (s.resolve n u t status data).kept := by
  simp only [State.resolve]
  split <;> simp [hk]
@[simp] theorem leads_execRequestAdmit (n u : Nat) (source : TrackerRead) (hk : k.Leads s.kept) :
    Out.Leads k (execRequestAdmit n u source s) := by
  simp only [execRequestAdmit]
  split
  · split
    · next r _ _ =>
      split
      · simp [hk]
      · split
        · simp [hk]
        · split
          · simp [hk]
          · next s1 hs1 =>
            have htaken : k.Leads s1.kept := State.kept_takeTokens hs1 ▸ hk
            have hread := State.leads_readPieces source.ecc (pieces (s.tileBase n u + r.buf) r.sends) htaken
            split
            · simp [hk]
            · next hr => rw [hr] at hread; simp [hread]
    · exact hk
  · trivial
@[simp] theorem State.leads_gmPieces (ecc : Eccs) (l : List (Nat × Nat)) (h : k.Leads s.kept) : k.Leads (s.gmPieces ecc l).1.kept := by
  induction l generalizing s ecc with
  | nil => exact h
  | cons p l ih =>
    have hread : k.Leads (if s.region p.1 = .control then ((State.readCtl p.1 (p.2 / 8) s).1, some (State.readCtl p.1 (p.2 / 8) s).2)
        else s.readPiece p.1 p.2 (ecc.headD .clean)).1.kept := by
      split <;> simp [h]
    simp only [State.gmPieces]
    split
    · exact hread
    · have hrest := ih ecc.tail hread
      split <;> next hp => rw [hp] at hrest; exact hrest
@[simp] theorem State.leads_gmRead (a n : Nat) (ecc : Eccs) (hk : k.Leads s.kept) : k.Leads (s.gmRead a n ecc).1.kept := by
  have hpieces := State.leads_gmPieces ecc (pieces a n) hk
  simp only [State.gmRead]
  split
  · exact hk
  · split <;> next hr => rw [hr] at hpieces; exact hpieces
@[simp] theorem State.leads_gmMerge (ecc : Eccs) (l : List (Nat × Nat)) (h : k.Leads s.kept) : k.Leads (s.gmMerge ecc l).1.kept := by
  induction l generalizing s ecc with
  | nil => exact h
  | cons p l ih =>
    have hread := State.leads_lpRead p.1 (ecc.headD .clean) h
    simp only [State.gmMerge]
    split
    · split <;> next hr => rw [hr] at hread; simp [ih, hread]
    · exact ih _ h
theorem State.leads_gmStore (bs : List Byte) (tag : BitVec 2) (l : List (Nat × Nat)) {t : State} (ht : s.gmStore bs tag l = some t)
    (h : k.Leads s.kept) : k.Leads t.kept := by
  induction l generalizing s bs with
  | nil => cases ht; exact h
  | cons p l ih =>
    simp only [State.gmStore] at ht
    split at ht
    · split at ht
      · next hw => exact ih _ ht (State.kept_writeCtl hw ▸ h)
      · cases ht
    · exact ih _ ht (State.leads_writePiece _ _ _ h)
@[simp] theorem State.leads_gmWrite (a : Nat) (bs : List Byte) (tag : BitVec 2) (ecc : Eccs) (h : k.Leads s.kept) :
    k.Leads (s.gmWrite a bs tag ecc).1.kept := by
  have hmerge := State.leads_gmMerge ecc (pieces a bs.length) h
  simp only [State.gmWrite]
  split
  · exact h
  · split
    · next hm => rw [hm] at hmerge; exact hmerge
    · next hm =>
      rw [hm] at hmerge
      split
      · next hs => exact State.leads_gmStore _ _ _ hs hmerge
      · exact h
@[simp] theorem State.leads_gmUpdate (a n : Nat) (ecc : Eccs) (f : List Byte → Option (List Byte)) (hk : k.Leads s.kept) :
    k.Leads (s.gmUpdate a n ecc f).1.kept := by
  have hread := State.leads_gmRead a n ecc hk
  simp only [State.gmUpdate]
  split
  · next s1 old hr =>
    rw [hr] at hread
    split
    · exact hread
    · next new _ =>
      have hwrite := State.leads_gmWrite a new 0 [] hread
      split
      · next hw => rw [hw] at hwrite; exact hwrite
      · exact hk
  · next hr => rw [hr] at hread; exact hread
@[simp] theorem State.leads_exactAddPacket (p : Packet) (ecc : Eccs) (hk : k.Leads s.kept) :
    k.Leads (s.exactAddPacket p ecc).1.kept := by
  simp only [State.exactAddPacket]
  generalize p.data.length / cfmtSize (bitsAt p.param 0 2) = j
  have hread := State.leads_gmRead p.addr (j * if p.param.testBit 2 then 8 else 18) ecc hk
  split
  · next s1 old hr =>
    rw [hr] at hread
    have hwrite := State.leads_gmWrite p.addr (exactAdds (bitsAt p.param 0 2) (p.param.testBit 2)
      (BitVec.ofNat 11 (bitsAt p.param 3 11)).toInt j old p.data).1 0 [] hread
    split
    · next hw => rw [hw] at hwrite; exact hwrite
    · exact hk
  · next hr => rw [hr] at hread; exact hread
@[simp] theorem State.leads_perform (p : Packet) (ecc : Eccs) (hk : k.Leads s.kept) : k.Leads (s.perform p ecc).1.kept := by
  simp only [State.perform]
  repeat' split
  all_goals simp [hk]
@[simp] theorem State.leads_putInto (e : PutEntry) (p : Packet) (ecc : Eccs) (hk : k.Leads s.kept) :
    k.Leads (s.putInto e p ecc).1.kept := by
  have hdone := State.leads_perform p ecc hk
  simp only [State.putInto]
  split
  · simpa using hk
  · split <;> next hp => rw [hp] at hdone; simp [hdone]
@[simp] theorem State.leads_serve (p : Packet) (ecc : Eccs) (hk : k.Leads s.kept) : k.Leads (s.serve p ecc).1.kept := by
  simp only [State.serve]
  repeat' split
  all_goals simp [hk]
@[simp] theorem leads_execRequestPacketArrival (pkt : Packet) (ecc : Eccs) (hk : k.Leads s.kept) :
    Out.Leads k (execRequestPacketArrival pkt ecc s) := by
  have harrived : k.Leads (s.arrived pkt).1.kept := by simpa using hk
  simp only [execRequestPacketArrival]
  split
  · next hr => rw [hr] at harrived; exact harrived
  · next hr => rw [hr] at harrived; split <;> simp [harrived]
@[simp] theorem leads_execResponseArrival (pkt : Packet) (hk : k.Leads s.kept) : Out.Leads k (execResponseArrival pkt s) := by
  have harrived : k.Leads (s.arrived pkt).1.kept := by simpa using hk
  simp only [execResponseArrival]
  split
  · next hr => rw [hr] at harrived; exact harrived
  · next hr =>
    rw [hr] at harrived
    split
    · split
      · simp [harrived]
      · split <;> simp [harrived]
    · simp [harrived]
@[simp] theorem leads_execRequestDeadline (n u tracker : Nat) (hk : k.Leads s.kept) :
    Out.Leads k (execRequestDeadline n u tracker s) := by
  simp only [execRequestDeadline]
  repeat' split
  all_goals simp [hk]
@[simp] theorem leads_execCommit (msg : Msg) (hk : k.Leads s.kept) : Out.Leads k (execCommit msg s) := by simp [execCommit, hk]
@[simp] theorem leads_execDiscard (msg : Msg) (hk : k.Leads s.kept) : Out.Leads k (execDiscard msg s) := by simp [execDiscard, hk]
@[simp] theorem leads_execAbort (msg : Msg) (hk : k.Leads s.kept) : Out.Leads k (execAbort msg s) := by simp [execAbort, hk]
@[simp] theorem leads_execTagSweep (tag region : Nat) (hk : k.Leads s.kept) : Out.Leads k (execTagSweep tag region s) := by
  simp only [execTagSweep]
  split
  · split
    · rw [Out.leads_next, State.kept_sweepEnd]
      exact State.leads_of_mem rfl rfl hk
    · exact hk
  · trivial
@[simp] theorem leads_execRestart (msg : Msg) (hk : k.Leads s.kept) : Out.Leads k (execRestart msg s) := by
  simp only [execRestart]
  repeat' split
  all_goals simp [hk]
@[simp] theorem State.leads_resetBy (cause : Nat) (hk : k.Leads s.kept) : k.Leads (s.resetBy cause).kept := by
  rw [State.resetBy, State.kept_setFs]
  exact ⟨hk.1, fun hm => Tbl.filter_wf _ (hk.2 hm)⟩
@[simp] theorem leads_execPowerOnReset  (hk : k.Leads s.kept) : Out.Leads k (execPowerOnReset s) := by simp [execPowerOnReset, hk]
@[simp] theorem leads_execPinReset  (hk : k.Leads s.kept) : Out.Leads k (execPinReset s) := by
  simp only [execPinReset]
  split <;> simp [hk]
@[simp] theorem State.leads_thermalReset  (hk : k.Leads s.kept) : k.Leads (s.thermalReset).kept := by
  simp only [State.thermalReset]
  split <;> simp [hk]
@[simp] theorem leads_execThermalReset  (hk : k.Leads s.kept) : Out.Leads k (execThermalReset s) := by simp [execThermalReset, hk]
@[simp] theorem State.leads_powerLost  (hk : k.Leads s.kept) : k.Leads (s.powerLost).kept := by simp [State.powerLost, hk]
@[simp] theorem leads_execPwrGoodDeassert  (hk : k.Leads s.kept) :
    Out.Leads k (execPwrGoodDeassert s) := by simp [execPwrGoodDeassert, hk]
@[simp] theorem leads_execInputOutOfRange  (hk : k.Leads s.kept) :
    Out.Leads k (execInputOutOfRange s) := by simp [execInputOutOfRange, hk]
@[simp] theorem leads_execWithdrawClose (hk : k.Leads s.kept) : Out.Leads k (execWithdrawClose s) := by
  simp only [execWithdrawClose]
  split <;> simp [hk]
@[simp] theorem State.leads_commandedReset (cause : Nat) (hk : k.Leads s.kept) :
    k.Leads (s.commandedReset cause).kept := by simp [State.commandedReset, hk]
/-- A request in a session follows when its act and what is done after its answer do. -/
theorem State.leads_sessionRequest (r : Brq) (code : Nat) (may : Session → Bool) (inRecovery : Bool) {act : Act} {after : State → State}
    (hact : ∀ (x : Session) (t : State), k.Leads t.kept → k.Leads (act x t).1.kept)
    (hafter : ∀ t : State, k.Leads t.kept → k.Leads (after t).kept) (hk : k.Leads s.kept) :
    k.Leads (s.sessionRequest r code may inRecovery act after).kept := by
  have hset : ∀ x, k.Leads (s.setSession x).kept := fun x => by simpa using hk
  simp only [State.sessionRequest]
  split
  · exact hk
  · split
    · simp [hk]
    · split
      · simp [hk]
      · split
        · simp [hk]
        · split
          · simp [hk]
          · split
            · simp [hk]
            · split
              · simp [hk]
              · next x _ _ _ _ _ =>
                have hdone : k.Leads (if (s.setSession (x.accept r.counter)).boc.recovery && !inRecovery then (s.setSession (x.accept r.counter), 0x08, [])
                    else if !may (x.accept r.counter) then (s.setSession (x.accept r.counter), 0x01, [])
                    else act (x.accept r.counter) (s.setSession (x.accept r.counter))).1.kept :=
                  State.leads_fst_ite (hset _) (State.leads_fst_ite (hset _) (hact _ _ (hset _)))
                generalize (if (s.setSession (x.accept r.counter)).boc.recovery && !inRecovery then (s.setSession (x.accept r.counter), 0x08, [])
                    else if !may (x.accept r.counter) then (s.setSession (x.accept r.counter), 0x01, [])
                    else act (x.accept r.counter) (s.setSession (x.accept r.counter))) = q at hdone ⊢
                split
                · exact hafter _ (by simpa using hdone)
                · simpa using hdone

@[simp] theorem leads_execUpdate (req : Brq) (slot : Nat) (hk : k.Leads s.kept) : Out.Leads k (execUpdate req slot s) :=
  State.leads_sessionRequest req _ _ _ (fun x t ht => by simp [ht]) (fun t ht => State.leads_commandedReset 4 ht) hk
@[simp] theorem leads_execReset (req : Brq) (hk : k.Leads s.kept) : Out.Leads k (execReset req s) :=
  State.leads_sessionRequest req _ _ _ (fun x t ht => by simp [ht]) (fun t ht => State.leads_commandedReset 3 ht) hk
@[simp] theorem State.leads_writeSegments (ecc : Eccs) (l : List (Nat × List Byte)) (c : Nat × List Byte) (h : k.Leads s.kept) :
    k.Leads (s.writeSegments ecc l c).kept := by
  refine List.foldlRecOn (motive := fun r : State × Eccs => k.Leads r.1.kept) _ _ h fun r hr x _ => ?_
  exact State.leads_fst_ite (State.leads_writeChecked _ _ _ _ hr) hr
@[simp] theorem leads_execObjWrite (req : Brq) (object index offset : Nat) (chunk : ObjChunk) (hk : k.Leads s.kept) :
    Out.Leads k (execObjWrite req object index offset chunk s) := by
  refine State.leads_sessionRequest req _ _ _ (fun x t ht => ?_) (fun t ht => ht) hk
  simp only [State.kept_fst_ite, State.kept_refuse, Backing.leads_ite]
  repeat' split
  all_goals simp [ht]
@[simp] theorem State.leads_takeCheckpoint (bs : List Byte) (hk : k.Leads s.kept) :
    k.Leads (s.takeCheckpoint bs).1.kept := by simp [State.takeCheckpoint, hk]
@[simp] theorem State.leads_take (x : Session) (object index : Nat) (bs : List Byte) (hk : k.Leads s.kept) :
    k.Leads (s.take x object index bs).1.kept := by
  simp only [State.take]
  split <;> simp [hk]
@[simp] theorem leads_execObjCommit (req : Brq) (object index total : Nat) (verdict : Verdict) (hk : k.Leads s.kept) :
    Out.Leads k (execObjCommit req object index total verdict s) := by
  refine State.leads_sessionRequest req _ _ _ (fun x t ht => ?_) (fun t ht => ht) hk
  simp only [State.kept_fst_ite, State.kept_refuse, Backing.leads_ite]
  repeat' split
  all_goals simp [ht]
@[simp] theorem leads_execThermalSample (field temp : Nat) (hk : k.Leads s.kept) : Out.Leads k (execThermalSample field temp s) := by
  simp only [execThermalSample]
  repeat' split
  all_goals simp [hk]
@[simp] theorem leads_execLpddrOverLimitTrip (device : Nat) (hk : k.Leads s.kept) :
    Out.Leads k (execLpddrOverLimitTrip device s) := by simp [execLpddrOverLimitTrip, hk]
@[simp] theorem State.leads_ctlLoad (a n : Nat) (ecc : Ecc) (hk : k.Leads s.kept) : k.Leads (s.ctlLoad a n ecc).1.kept := by
  simp only [State.ctlLoad]
  split
  · exact hk
  · split
    · exact hk
    · exact hk
    · next l _ =>
      have hread := State.leads_gmRead l n [ecc] hk
      split
      · split <;> simp [hk]
      · split <;> next hr => rw [hr] at hread; exact hread
@[simp] theorem State.leads_ctlStore (a n v : Nat) (ecc : Ecc) (hk : k.Leads s.kept) : k.Leads (s.ctlStore a n v ecc).1.kept := by
  simp only [State.ctlStore]
  split
  · exact hk
  · split
    · exact hk
    · simpa using hk
    · next l _ =>
      have hwrite := State.leads_gmWrite l (bytesOfNat n v) 0 [ecc] hk
      split
      · split <;> simp [hk]
      · split <;> next hr => rw [hr] at hwrite; exact hwrite
@[simp] theorem leads_execLd (sl : Slot) (rd sa : BitVec 5) (imm : BitVec 16) (size : BitVec 2) (sx : Bool) (hk : k.Leads s.kept) :
    Out.Leads k (execLd sl rd sa imm size sx s) := by
  refine leads_issue _ _ (fun t c ht => ?_) hk
  have hload := State.leads_ctlLoad (c.rs sa + BitVec.ofInt 64 imm.toInt).toNat (2 ^ size.toNat) sl.ecc ht
  split <;> next hr => rw [hr] at hload; exact hload
@[simp] theorem leads_execSt (sl : Slot) (rs sa : BitVec 5) (imm : BitVec 16) (size : BitVec 2) (sx : Bool) (hk : k.Leads s.kept) :
    Out.Leads k (execSt sl rs sa imm size sx s) := by
  refine leads_issue _ _ (fun t c ht => ?_) hk
  have hstore := State.leads_ctlStore (c.rs sa + BitVec.ofInt 64 imm.toInt).toNat (2 ^ size.toNat) (c.rs rs).toNat sl.ecc ht
  split <;> next hr => rw [hr] at hstore; exact hstore
@[simp] theorem leads_execMma (sl : Slot) (fmt : BitVec 4) (q va : BitVec 5) (seg : BitVec 4) (hk : k.Leads s.kept) :
    Out.Leads k (execMma sl fmt q va seg s) := by simp [execMma, hk]
@[simp] theorem leads_execQclr (sl : Slot) (qa qb : BitVec 5) (imm : Bool) (anc : BitVec 11) (hk : k.Leads s.kept) :
    Out.Leads k (execQclr sl qa qb imm anc s) := by simp [execQclr, hk]
@[simp] theorem leads_execQread (sl : Slot) (vd q : BitVec 5) (tgt : BitVec 4) (pos : BitVec 3) (rm : BitVec 2) (sat : Bool)
    (sb st : BitVec 5) (off : BitVec 7) (hk : k.Leads s.kept) :
    Out.Leads k (execQread sl vd q tgt pos rm sat sb st off s) := by simp [execQread, hk]
@[simp] theorem leads_execQst (sl : Slot) (sa q : BitVec 5) (tgt : BitVec 4) (pos : BitVec 3) (rm : BitVec 2) (sat : Bool)
    (sb st : BitVec 5) (off : BitVec 7) (hk : k.Leads s.kept) :
    Out.Leads k (execQst sl sa q tgt pos rm sat sb st off s) := by simp [execQst, hk]
@[simp] theorem leads_execQstat (sl : Slot) (st q : BitVec 5) (pos : Bool) (hk : k.Leads s.kept) :
    Out.Leads k (execQstat sl st q pos s) := by simp [execQstat, hk]
@[simp] theorem leads_execQanc (sl : Slot) (sd q : BitVec 5) (pos : Bool) (hk : k.Leads s.kept) :
    Out.Leads k (execQanc sl sd q pos s) := by simp [execQanc, hk]
@[simp] theorem leads_execQres (sl : Slot) (vd q : BitVec 5) (pos : Bool) (hk : k.Leads s.kept) :
    Out.Leads k (execQres sl vd q pos s) := by simp [execQres, hk]
@[simp] theorem leads_scalarRR (i : Instr) (sl : Slot) (rd ra rb : BitVec 5) (lat : Nat) (f : Alu) (hk : k.Leads s.kept) :
    Out.Leads k (scalarRR s i sl rd ra rb lat f) := leads_issue _ _ (fun _ _ _ => trivial) hk
@[simp] theorem leads_scalarRI (i : Instr) (sl : Slot) (rd ra : BitVec 5) (legal ctlLegal : Bool) (f : (w : Nat) → BitVec w → BitVec w)
    (hk : k.Leads s.kept) :
    Out.Leads k (scalarRI s i sl rd ra legal ctlLegal f) := leads_issue _ _ (fun _ _ _ => trivial) hk
@[simp] theorem leads_scalarP (i : Instr) (sl : Slot) (pd : BitVec 3) (legal : Bool) (f : Core → Bool) (g : CtlCore → Bool)
    (hk : k.Leads s.kept) :
    Out.Leads k (scalarP s i sl pd legal f g) := leads_issue _ _ (fun _ _ _ => trivial) hk
@[simp] theorem leads_execAdd (sl : Slot) (rd ra rb : BitVec 5) (hk : k.Leads s.kept) :
    Out.Leads k (execAdd sl rd ra rb s) := by simp [execAdd, hk]
@[simp] theorem leads_execSub (sl : Slot) (rd ra rb : BitVec 5) (hk : k.Leads s.kept) :
    Out.Leads k (execSub sl rd ra rb s) := by simp [execSub, hk]
@[simp] theorem leads_execAnd (sl : Slot) (rd ra rb : BitVec 5) (hk : k.Leads s.kept) :
    Out.Leads k (execAnd sl rd ra rb s) := by simp [execAnd, hk]
@[simp] theorem leads_execOr (sl : Slot) (rd ra rb : BitVec 5) (hk : k.Leads s.kept) :
    Out.Leads k (execOr sl rd ra rb s) := by simp [execOr, hk]
@[simp] theorem leads_execXor (sl : Slot) (rd ra rb : BitVec 5) (hk : k.Leads s.kept) :
    Out.Leads k (execXor sl rd ra rb s) := by simp [execXor, hk]
@[simp] theorem leads_execShl (sl : Slot) (rd ra rb : BitVec 5) (hk : k.Leads s.kept) :
    Out.Leads k (execShl sl rd ra rb s) := by simp [execShl, hk]
@[simp] theorem leads_execShr (sl : Slot) (rd ra rb : BitVec 5) (hk : k.Leads s.kept) :
    Out.Leads k (execShr sl rd ra rb s) := by simp [execShr, hk]
@[simp] theorem leads_execSra (sl : Slot) (rd ra rb : BitVec 5) (hk : k.Leads s.kept) :
    Out.Leads k (execSra sl rd ra rb s) := by simp [execSra, hk]
@[simp] theorem leads_execMin (sl : Slot) (rd ra rb : BitVec 5) (hk : k.Leads s.kept) :
    Out.Leads k (execMin sl rd ra rb s) := by simp [execMin, hk]
@[simp] theorem leads_execMax (sl : Slot) (rd ra rb : BitVec 5) (hk : k.Leads s.kept) :
    Out.Leads k (execMax sl rd ra rb s) := by simp [execMax, hk]
@[simp] theorem leads_execMinu (sl : Slot) (rd ra rb : BitVec 5) (hk : k.Leads s.kept) :
    Out.Leads k (execMinu sl rd ra rb s) := by simp [execMinu, hk]
@[simp] theorem leads_execMaxu (sl : Slot) (rd ra rb : BitVec 5) (hk : k.Leads s.kept) :
    Out.Leads k (execMaxu sl rd ra rb s) := by simp [execMaxu, hk]
@[simp] theorem leads_execMul (sl : Slot) (rd ra rb : BitVec 5) (hk : k.Leads s.kept) :
    Out.Leads k (execMul sl rd ra rb s) := by simp [execMul, hk]
@[simp] theorem leads_execMulh (sl : Slot) (rd ra rb : BitVec 5) (hk : k.Leads s.kept) :
    Out.Leads k (execMulh sl rd ra rb s) := by simp [execMulh, hk]
@[simp] theorem leads_execMulhu (sl : Slot) (rd ra rb : BitVec 5) (hk : k.Leads s.kept) :
    Out.Leads k (execMulhu sl rd ra rb s) := by simp [execMulhu, hk]
@[simp] theorem leads_execAddi (sl : Slot) (rd ra : BitVec 5) (imm : BitVec 16) (hk : k.Leads s.kept) :
    Out.Leads k (execAddi sl rd ra imm s) := by simp [execAddi, hk]
@[simp] theorem leads_execAndi (sl : Slot) (rd ra : BitVec 5) (imm : BitVec 16) (hk : k.Leads s.kept) :
    Out.Leads k (execAndi sl rd ra imm s) := by simp [execAndi, hk]
@[simp] theorem leads_execOri (sl : Slot) (rd ra : BitVec 5) (imm : BitVec 16) (hk : k.Leads s.kept) :
    Out.Leads k (execOri sl rd ra imm s) := by simp [execOri, hk]
@[simp] theorem leads_execXori (sl : Slot) (rd ra : BitVec 5) (imm : BitVec 16) (hk : k.Leads s.kept) :
    Out.Leads k (execXori sl rd ra imm s) := by simp [execXori, hk]
@[simp] theorem leads_execShli (sl : Slot) (rd ra : BitVec 5) (imm : BitVec 16) (hk : k.Leads s.kept) :
    Out.Leads k (execShli sl rd ra imm s) := by simp [execShli, hk]
@[simp] theorem leads_execShri (sl : Slot) (rd ra : BitVec 5) (imm : BitVec 16) (hk : k.Leads s.kept) :
    Out.Leads k (execShri sl rd ra imm s) := by simp [execShri, hk]
@[simp] theorem leads_execSrai (sl : Slot) (rd ra : BitVec 5) (imm : BitVec 16) (hk : k.Leads s.kept) :
    Out.Leads k (execSrai sl rd ra imm s) := by simp [execSrai, hk]
@[simp] theorem leads_execMovi (sl : Slot) (rd ra : BitVec 5) (imm : BitVec 16) (hk : k.Leads s.kept) :
    Out.Leads k (execMovi sl rd ra imm s) := by simp [execMovi, hk]
@[simp] theorem leads_execMovhi (sl : Slot) (rd ra : BitVec 5) (imm : BitVec 16) (hk : k.Leads s.kept) :
    Out.Leads k (execMovhi sl rd ra imm s) := by simp [execMovhi, hk]
@[simp] theorem leads_execMovsh (sl : Slot) (rd ra : BitVec 5) (imm : BitVec 16) (hk : k.Leads s.kept) :
    Out.Leads k (execMovsh sl rd ra imm s) := by simp [execMovsh, hk]
@[simp] theorem leads_execCmp (sl : Slot) (pd cond : BitVec 3) (ra rb : BitVec 5) (hk : k.Leads s.kept) :
    Out.Leads k (execCmp sl pd cond ra rb s) := by simp [execCmp, hk]
@[simp] theorem leads_execCmpi (sl : Slot) (pd cond : BitVec 3) (ra : BitVec 5) (imm : BitVec 16) (hk : k.Leads s.kept) :
    Out.Leads k (execCmpi sl pd cond ra imm s) := by simp [execCmpi, hk]
@[simp] theorem leads_execPand (sl : Slot) (pd pa : BitVec 3) (na : Bool) (pb : BitVec 3) (nb : Bool) (hk : k.Leads s.kept) :
    Out.Leads k (execPand sl pd pa na pb nb s) := by simp [execPand, hk]
@[simp] theorem leads_execPor (sl : Slot) (pd pa : BitVec 3) (na : Bool) (pb : BitVec 3) (nb : Bool) (hk : k.Leads s.kept) :
    Out.Leads k (execPor sl pd pa na pb nb s) := by simp [execPor, hk]
@[simp] theorem leads_execPxor (sl : Slot) (pd pa : BitVec 3) (na : Bool) (pb : BitVec 3) (nb : Bool) (hk : k.Leads s.kept) :
    Out.Leads k (execPxor sl pd pa na pb nb s) := by simp [execPxor, hk]
@[simp] theorem leads_execBr (sl : Slot) (target : BitVec 11) (hk : k.Leads s.kept) :
    Out.Leads k (execBr sl target s) := leads_issue _ _ (fun _ _ _ => trivial) hk
@[simp] theorem leads_execLoop (sl : Slot) (rd : BitVec 5) (target : BitVec 11) (hk : k.Leads s.kept) :
    Out.Leads k (execLoop sl rd target s) := by
  refine leads_issue _ _ (fun t c _ => ?_) hk
  dsimp only
  repeat' split
  all_goals trivial
@[simp] theorem leads_execJal (sl : Slot) (rd : BitVec 5) (target : BitVec 11) (hk : k.Leads s.kept) :
    Out.Leads k (execJal sl rd target s) := leads_issue _ _ (fun _ _ _ => trivial) hk
@[simp] theorem leads_execJr (sl : Slot) (ra : BitVec 5) (hk : k.Leads s.kept) : Out.Leads k (execJr sl ra s) := by
  refine leads_issue _ _ (fun t c _ => ?_) hk
  dsimp only
  split <;> trivial
@[simp] theorem leads_execSmovFromSpecial (sl : Slot) (rd : BitVec 5) (code : BitVec 5) (hk : k.Leads s.kept) :
    Out.Leads k (execSmovFromSpecial sl rd code s) := leads_issue _ _ (fun _ _ _ => trivial) hk
@[simp] theorem leads_execSmovToSpecial (sl : Slot) (code : BitVec 5) (ra : BitVec 5) (hk : k.Leads s.kept) :
    Out.Leads k (execSmovToSpecial sl code ra s) := leads_issue _ _ (fun _ _ _ => trivial) hk
@[simp] theorem leads_execWswap (sl : Slot) (hk : k.Leads s.kept) : Out.Leads k (execWswap sl s) := by simp [execWswap, hk]
@[simp] theorem leads_vecArith (i : Instr) (sl : Slot) (ty : BitVec 2) (vd va vb : BitVec 5) (rm : BitVec 2) (sb : BitVec 5)
    (f : Bool → Nat → Nat → LaneRes) (g : BitVec 32 → BitVec 32 → BitVec 32) (hk : k.Leads s.kept) :
    Out.Leads k (vecArith s i sl ty vd va vb rm sb f g) := by simp [vecArith, hk]
@[simp] theorem leads_execVadd (sl : Slot) (ty : BitVec 2) (vd va vb : BitVec 5) (rm : BitVec 2) (sb : BitVec 5) (hk : k.Leads s.kept) :
    Out.Leads k (execVadd sl ty vd va vb rm sb s) := by simp [execVadd, hk]
@[simp] theorem leads_execVsub (sl : Slot) (ty : BitVec 2) (vd va vb : BitVec 5) (rm : BitVec 2) (sb : BitVec 5) (hk : k.Leads s.kept) :
    Out.Leads k (execVsub sl ty vd va vb rm sb s) := by simp [execVsub, hk]
@[simp] theorem leads_execVmul (sl : Slot) (ty : BitVec 2) (vd va vb : BitVec 5) (rm : BitVec 2) (sb : BitVec 5) (hk : k.Leads s.kept) :
    Out.Leads k (execVmul sl ty vd va vb rm sb s) := by simp [execVmul, hk]
@[simp] theorem leads_execVfma (sl : Slot) (ty : BitVec 2) (vd va vb vc : BitVec 5) (rm : BitVec 2) (sb : BitVec 5) (hk : k.Leads s.kept) :
    Out.Leads k (execVfma sl ty vd va vb vc rm sb s) := by simp [execVfma, hk]
@[simp] theorem leads_vecMinMax (i : Instr) (sl : Slot) (max : Bool) (ty : BitVec 2) (vd va vb : BitVec 5) (hk : k.Leads s.kept) :
    Out.Leads k (vecMinMax s i sl max ty vd va vb) := by simp [vecMinMax, hk]
@[simp] theorem leads_execVmin (sl : Slot) (ty : BitVec 2) (vd va vb : BitVec 5) (hk : k.Leads s.kept) :
    Out.Leads k (execVmin sl ty vd va vb s) := by simp [execVmin, hk]
@[simp] theorem leads_execVmax (sl : Slot) (ty : BitVec 2) (vd va vb : BitVec 5) (hk : k.Leads s.kept) :
    Out.Leads k (execVmax sl ty vd va vb s) := by simp [execVmax, hk]
@[simp] theorem leads_execVcmp (sl : Slot) (ty : BitVec 2) (cond : BitVec 3) (vd va vb : BitVec 5) (hk : k.Leads s.kept) :
    Out.Leads k (execVcmp sl ty cond vd va vb s) := by simp [execVcmp, hk]
@[simp] theorem leads_execVsel (sl : Slot) (ty : BitVec 2) (vd va vb vc : BitVec 5) (hk : k.Leads s.kept) :
    Out.Leads k (execVsel sl ty vd va vb vc s) := by simp [execVsel, hk]
@[simp] theorem leads_vecBitwise (i : Instr) (sl : Slot) (vd va vb : BitVec 5) (f : BitVec 512 → BitVec 512 → BitVec 512)
    (hk : k.Leads s.kept) :
    Out.Leads k (vecBitwise s i sl vd va vb f) := by simp [vecBitwise, hk]
@[simp] theorem leads_execVand (sl : Slot) (vd va vb : BitVec 5) (hk : k.Leads s.kept) :
    Out.Leads k (execVand sl vd va vb s) := by simp [execVand, hk]
@[simp] theorem leads_execVor (sl : Slot) (vd va vb : BitVec 5) (hk : k.Leads s.kept) :
    Out.Leads k (execVor sl vd va vb s) := by simp [execVor, hk]
@[simp] theorem leads_execVxor (sl : Slot) (vd va vb : BitVec 5) (hk : k.Leads s.kept) :
    Out.Leads k (execVxor sl vd va vb s) := by simp [execVxor, hk]
@[simp] theorem leads_vecReduce (i : Instr) (sl : Slot) (ty : BitVec 2) (vd va : BitVec 5) (f : Bool → Nat → Nat → LaneRes)
    (hk : k.Leads s.kept) :
    Out.Leads k (vecReduce s i sl ty vd va f) := by simp [vecReduce, hk]
@[simp] theorem leads_execVredsum (sl : Slot) (ty : BitVec 2) (vd va : BitVec 5) (hk : k.Leads s.kept) :
    Out.Leads k (execVredsum sl ty vd va s) := by simp [execVredsum, hk]
@[simp] theorem leads_execVredmax (sl : Slot) (ty : BitVec 2) (vd va : BitVec 5) (hk : k.Leads s.kept) :
    Out.Leads k (execVredmax sl ty vd va s) := by simp [execVredmax, hk]
@[simp] theorem leads_execVredmin (sl : Slot) (ty : BitVec 2) (vd va : BitVec 5) (hk : k.Leads s.kept) :
    Out.Leads k (execVredmin sl ty vd va s) := by simp [execVredmin, hk]
@[simp] theorem leads_execVtestAny (sl : Slot) (ty : BitVec 2) (pd : BitVec 3) (va : BitVec 5) (hk : k.Leads s.kept) :
    Out.Leads k (execVtestAny sl ty pd va s) := by simp [execVtestAny, hk]
@[simp] theorem leads_execVtestAll (sl : Slot) (ty : BitVec 2) (pd : BitVec 3) (va : BitVec 5) (hk : k.Leads s.kept) :
    Out.Leads k (execVtestAll sl ty pd va s) := by simp [execVtestAll, hk]
@[simp] theorem leads_vecSign (i : Instr) (sl : Slot) (ty : BitVec 2) (vd va vb : BitVec 5) (f : Nat → Nat → Nat → Nat)
    (hk : k.Leads s.kept) :
    Out.Leads k (vecSign s i sl ty vd va vb f) := by simp [vecSign, hk]
@[simp] theorem leads_execVneg (sl : Slot) (ty : BitVec 2) (vd va : BitVec 5) (hk : k.Leads s.kept) :
    Out.Leads k (execVneg sl ty vd va s) := by simp [execVneg, hk]
@[simp] theorem leads_execVabs (sl : Slot) (ty : BitVec 2) (vd va : BitVec 5) (hk : k.Leads s.kept) :
    Out.Leads k (execVabs sl ty vd va s) := by simp [execVabs, hk]
@[simp] theorem leads_execVcopysign (sl : Slot) (ty : BitVec 2) (vd va vb : BitVec 5) (hk : k.Leads s.kept) :
    Out.Leads k (execVcopysign sl ty vd va vb s) := by simp [execVcopysign, hk]
@[simp] theorem leads_execVcvtNarrow (sl : Slot) (fmt : BitVec 4) (vd va vb : BitVec 5) (pos : BitVec 3) (rm : BitVec 2) (sat : Bool)
    (sb : BitVec 5) (hk : k.Leads s.kept) :
    Out.Leads k (execVcvtNarrow sl fmt vd va vb pos rm sat sb s) := by simp [execVcvtNarrow, hk]
@[simp] theorem leads_execVcvtWiden (sl : Slot) (fmt : BitVec 4) (vd va : BitVec 5) (pos : BitVec 3) (hk : k.Leads s.kept) :
    Out.Leads k (execVcvtWiden sl fmt vd va pos s) := by simp [execVcvtWiden, hk]
@[simp] theorem leads_execVpermSeg (sl : Slot) (vd va : BitVec 5) (sel : BitVec 24) (hk : k.Leads s.kept) :
    Out.Leads k (execVpermSeg sl vd va sel s) := by simp [execVpermSeg, hk]
@[simp] theorem leads_execVpermW (sl : Slot) (vd va vb : BitVec 5) (hk : k.Leads s.kept) :
    Out.Leads k (execVpermW sl vd va vb s) := by simp [execVpermW, hk]
@[simp] theorem leads_execVpermB (sl : Slot) (vd va vb : BitVec 5) (hk : k.Leads s.kept) :
    Out.Leads k (execVpermB sl vd va vb s) := by simp [execVpermB, hk]
@[simp] theorem leads_execVbcast (sl : Slot) (vd sa : BitVec 5) (hk : k.Leads s.kept) :
    Out.Leads k (execVbcast sl vd sa s) := by simp [execVbcast, hk]
@[simp] theorem leads_execVins (sl : Slot) (vd lane sa : BitVec 5) (hk : k.Leads s.kept) :
    Out.Leads k (execVins sl vd lane sa s) := by simp [execVins, hk]
@[simp] theorem leads_execVext (sl : Slot) (sd va lane : BitVec 5) (hk : k.Leads s.kept) :
    Out.Leads k (execVext sl sd va lane s) := by simp [execVext, hk]
@[simp] theorem leads_vecFun (i : Instr) (sl : Slot) (fn : Fun) (ty : BitVec 2) (vd va : BitVec 5) (rm : BitVec 2) (sb : BitVec 5)
    (hk : k.Leads s.kept) :
    Out.Leads k (vecFun s i sl fn ty vd va rm sb) := by simp [vecFun, hk]
@[simp] theorem leads_execVexp (sl : Slot) (ty : BitVec 2) (vd va : BitVec 5) (rm : BitVec 2) (sb : BitVec 5) (hk : k.Leads s.kept) :
    Out.Leads k (execVexp sl ty vd va rm sb s) := by simp [execVexp, hk]
@[simp] theorem leads_execVexp2 (sl : Slot) (ty : BitVec 2) (vd va : BitVec 5) (rm : BitVec 2) (sb : BitVec 5) (hk : k.Leads s.kept) :
    Out.Leads k (execVexp2 sl ty vd va rm sb s) := by simp [execVexp2, hk]
@[simp] theorem leads_execVlog (sl : Slot) (ty : BitVec 2) (vd va : BitVec 5) (rm : BitVec 2) (sb : BitVec 5) (hk : k.Leads s.kept) :
    Out.Leads k (execVlog sl ty vd va rm sb s) := by simp [execVlog, hk]
@[simp] theorem leads_execVlog2 (sl : Slot) (ty : BitVec 2) (vd va : BitVec 5) (rm : BitVec 2) (sb : BitVec 5) (hk : k.Leads s.kept) :
    Out.Leads k (execVlog2 sl ty vd va rm sb s) := by simp [execVlog2, hk]
@[simp] theorem leads_execVrcp (sl : Slot) (ty : BitVec 2) (vd va : BitVec 5) (rm : BitVec 2) (sb : BitVec 5) (hk : k.Leads s.kept) :
    Out.Leads k (execVrcp sl ty vd va rm sb s) := by simp [execVrcp, hk]
@[simp] theorem leads_execVsqrt (sl : Slot) (ty : BitVec 2) (vd va : BitVec 5) (rm : BitVec 2) (sb : BitVec 5) (hk : k.Leads s.kept) :
    Out.Leads k (execVsqrt sl ty vd va rm sb s) := by simp [execVsqrt, hk]
@[simp] theorem leads_execVrsqrt (sl : Slot) (ty : BitVec 2) (vd va : BitVec 5) (rm : BitVec 2) (sb : BitVec 5) (hk : k.Leads s.kept) :
    Out.Leads k (execVrsqrt sl ty vd va rm sb s) := by simp [execVrsqrt, hk]
@[simp] theorem leads_execVtanh (sl : Slot) (ty : BitVec 2) (vd va : BitVec 5) (rm : BitVec 2) (sb : BitVec 5) (hk : k.Leads s.kept) :
    Out.Leads k (execVtanh sl ty vd va rm sb s) := by simp [execVtanh, hk]
@[simp] theorem leads_execVerf (sl : Slot) (ty : BitVec 2) (vd va : BitVec 5) (rm : BitVec 2) (sb : BitVec 5) (hk : k.Leads s.kept) :
    Out.Leads k (execVerf sl ty vd va rm sb s) := by simp [execVerf, hk]
@[simp] theorem leads_execVsig (sl : Slot) (ty : BitVec 2) (vd va : BitVec 5) (rm : BitVec 2) (sb : BitVec 5) (hk : k.Leads s.kept) :
    Out.Leads k (execVsig sl ty vd va rm sb s) := by simp [execVsig, hk]
@[simp] theorem leads_execVrand (sl : Slot) (vd sb : BitVec 5) (domain : Bool) (hk : k.Leads s.kept) :
    Out.Leads k (execVrand sl vd sb domain s) := by simp [execVrand, hk]
@[simp] theorem leads_execVdrop (sl : Slot) (ty : BitVec 2) (vd va sb sc : BitVec 5) (hk : k.Leads s.kept) :
    Out.Leads k (execVdrop sl ty vd va sb sc s) := by simp [execVdrop, hk]
@[simp] theorem leads_runKept (i : Instr) (hk : k.Leads s.kept) : Out.Leads k (runKept i s) := by
  cases i <;> simp [runKept, hk]
@[simp] theorem State.leads_runHeld (n : Nat) (l : List (Nat × Instr)) (h : k.Leads s.kept) : k.Leads (State.runHeld n l s).kept := by
  induction l generalizing s with
  | nil => exact h
  | cons p l ih =>
    have hskip : k.Leads (s.setIsland n { s.island n with skip := some p.1 }).kept := by simpa using h
    have hrun := leads_runKept p.2 hskip
    refine ih ?_
    rw [State.kept_unskip]
    split
    · next hr => rw [hr] at hrun; exact hrun
    · exact hskip
@[simp] theorem State.leads_releaseHold (n : Nat) (hk : k.Leads s.kept) :
    k.Leads (s.releaseHold n).kept := by simp [State.releaseHold, hk]
@[simp] theorem leads_execIslandHoldRelease (n cycles : Nat) (hk : k.Leads s.kept) :
    Out.Leads k (execIslandHoldRelease n cycles s) := by simp [execIslandHoldRelease, hk]

/-- What every command keeps of memory and the queue. -/
theorem leads_exec (c : Instr) (hk : k.Leads s.kept) : Out.Leads k (exec c s) := by
  cases c <;> simp [exec, Out.leads_of_keeps hk, hk]

end Sys2Proof.Machine
end

section
/-! The statements about the machine as a whole: its queue and its memory (R97, R240). -/

namespace Sys2Proof

open Machine

/-- Settles O55: a step takes the front command off the queue, which leaves memory alone, and every command keeps memory canonical. -/
theorem memoryStaysCanonical : Obligations.MemoryStaysCanonical := by
  intro s t hs ht
  cases hq : s.pending with
  | nil =>
    obtain rfl : s = t := by simpa [step, hq] using ht
    exact hs
  | cons c l =>
    have hled := leads_exec c (Backing.Leads.refl ({ s with pending := l } : State).kept)
    have hexec : exec c { s with pending := l } = .next t := by simpa [step, hq] using ht
    rw [hexec] at hled
    exact hled.2 hs

/-- Settles O53: the queue is part of what every command keeps. -/
theorem commandsLeaveTheQueue : Obligations.CommandsLeaveTheQueue := by
  intro c s t ht
  have hled := leads_exec c (Backing.Leads.refl s.kept)
  rw [ht] at hled
  exact hled.1

/-- Settles O52: both are the two arms of `step`. -/
theorem stepRunsTheFrontCommand : Obligations.StepRunsTheFrontCommand :=
  ⟨fun c l s h => by simp only [step, h], fun s h => by simp only [step, h]⟩

end Sys2Proof
end

section
/-! Commands that name only units of a class A package complete, in every state (R7, R22, R93): one lemma for each command whose meaning
branches before it answers. -/

namespace Sys2Proof.Machine

@[simp] theorem completes_next (s : State) : Completes (.next s) := ⟨s, rfl⟩

@[simp] theorem completes_ite (c : Prop) [Decidable c] (o o' : Out) :
    Completes (if c then o else o') ↔ if c then Completes o else Completes o' := by split <;> rfl

theorem Completes.ite {c : Prop} [Decidable c] {o o' : Out} (h : Completes o) (h' : Completes o') : Completes (if c then o else o') := by
  split <;> assumption

theorem not_completes_fault (f : Fault) : ¬ Completes (.fault f) := fun ⟨_, h⟩ => nomatch h


theorem completes_switchWord (s : State) (i : Instr) (n cl : Nat) (word : BitVec 128) (adv : Nat) (h : s.hasCluster n cl = true) :
    Completes (switchWord s i n cl word adv) := by
  simp only [switchWord, h, Bool.not_true, Bool.false_eq_true, if_false]
  exact .ite (completes_next _) (.ite (completes_next _) (.ite (completes_next _) (completes_next _)))

@[simp] theorem completes_execRouteWord (n cl : Nat) (word : BitVec 128) (adv : Nat) (s : State) (h : s.hasCluster n cl = true) :
    Completes (execRouteWord n cl word adv s) := completes_switchWord s _ n cl word adv h
@[simp] theorem completes_execIdleWord (n cl : Nat) (word : BitVec 128) (adv : Nat) (s : State) (h : s.hasCluster n cl = true) :
    Completes (execIdleWord n cl word adv s) := completes_switchWord s _ n cl word adv h
@[simp] theorem completes_execEndWord (n cl : Nat) (word : BitVec 128) (adv : Nat) (s : State) (h : s.hasCluster n cl = true) :
    Completes (execEndWord n cl word adv s) := completes_switchWord s _ n cl word adv h
@[simp] theorem completes_execCrossingEntryVisible (n q : Nat) (parityBad : Bool) (s : State)
    (h : n < s.numIslands ∧ q < 16) : Completes
    (execCrossingEntryVisible n q parityBad s) := by simp only [execCrossingEntryVisible, completes_ite, completes_next, ite_self, h, and_self, if_true, if_false]
@[simp] theorem completes_execCrossingFreeIndication (n q : Nat) (s : State) (h : n < s.numIslands ∧ q < 16) : Completes
    (execCrossingFreeIndication n q s) := by simp only [execCrossingFreeIndication, completes_ite, completes_next, ite_self, h, and_self, if_true, if_false]
@[simp] theorem completes_execLandingInputRelease (entry : Crossed) (s : State) (h : entry.n < s.numIslands) :
    Completes (execLandingInputRelease entry s) := by
  simp only [execLandingInputRelease, h, if_true]
  split <;> simp only [completes_ite, completes_next, ite_self]
@[simp] theorem completes_execHeldLandingWrite (n : Nat) (s : State) (h : n < s.numIslands) : Completes (execHeldLandingWrite n s) := by
  simp only [execHeldLandingWrite, completes_ite, completes_next, ite_self, h, and_self, if_true, if_false]
  split <;> simp only [completes_ite, completes_next, ite_self]
@[simp] theorem completes_execSyncCounterAddition (entry : Crossed) (s : State) (h : entry.n < s.numIslands) :
    Completes (execSyncCounterAddition entry s) := by
  simp only [execSyncCounterAddition, h, if_true]
  split <;> simp only [completes_ite, completes_next, ite_self]
@[simp] theorem completes_execDistributorTile (entry : Crossed) (s : State) (h : entry.n < s.numIslands) :
    Completes (execDistributorTile entry s) := by
  simp only [execDistributorTile, h, if_true]
  split <;> simp only [completes_ite, completes_next, ite_self]
@[simp] theorem completes_execTileScrub (n u line : Nat) (ecc : Ecc) (s : State) (h : s.hasCore n u = true ∧ line < 3072) : Completes
    (execTileScrub n u line ecc s) := by
  simp only [execTileScrub, completes_ite, completes_next, ite_self, h, and_self, if_true, if_false]
  split <;> simp only [completes_ite, completes_next, ite_self]
@[simp] theorem completes_execIslandResetRequest (n : Nat) (value : Word) (s : State) (h : n < s.numIslands) : Completes
    (execIslandResetRequest n value s) := by simp only [execIslandResetRequest, completes_ite, completes_next, ite_self, h, and_self, if_true, if_false]
@[simp] theorem completes_execIslandBreathComplete (n : Nat) (s : State) (h : n < s.numIslands) : Completes
    (execIslandBreathComplete n s) := by simp only [execIslandBreathComplete, completes_ite, completes_next, ite_self, h, and_self, if_true, if_false]
@[simp] theorem completes_execMissedStart (s : State) : Completes
    (execMissedStart s) := by simp only [execMissedStart, completes_ite, completes_next, ite_self]
@[simp] theorem completes_execOverrunCheck (s : State) : Completes
    (execOverrunCheck s) := by simp only [execOverrunCheck, completes_ite, completes_next, ite_self]
@[simp] theorem completes_execSlipRequest (msg : Msg) (s : State) : Completes
    (execSlipRequest msg s) := by simp only [execSlipRequest, completes_ite, completes_next, ite_self]
@[simp] theorem completes_execSlipOrder (msg : Msg) (s : State) : Completes
    (execSlipOrder msg s) := by simp only [execSlipOrder, completes_ite, completes_next, ite_self]
@[simp] theorem completes_execDroopStretch (n k : Nat) (s : State) (h : n < s.numIslands) : Completes
    (execDroopStretch n k s) := by simp only [execDroopStretch, completes_ite, completes_next, ite_self, h, and_self, if_true, if_false]
@[simp] theorem completes_execSetpointRequestWrite (value : Word) (s : State) : Completes
    (execSetpointRequestWrite value s) := by simp only [execSetpointRequestWrite, completes_ite, completes_next, ite_self]
@[simp] theorem completes_execVoltageRampEnd (s : State) : Completes (execVoltageRampEnd s) := ⟨_, rfl⟩
@[simp] theorem completes_execSetpointStop (duration : Nat) (s : State) : Completes (execSetpointStop duration s) := by
  simp only [execSetpointStop, completes_ite, completes_next, ite_self]
  split <;> simp only [completes_ite, completes_next, ite_self]
@[simp] theorem completes_execLpddrRewrite (field ch : Nat) (s : State) (h : hasChannel field ch = true) : Completes
    (execLpddrRewrite field ch s) := by simp only [execLpddrRewrite, completes_ite, completes_next, ite_self, h, and_self, if_true, if_false]
@[simp] theorem completes_execLpddrPatrolScrub (addr : Nat) (ecc : Ecc) (s : State) : Completes
    (execLpddrPatrolScrub addr ecc s) := by simp only [execLpddrPatrolScrub, completes_ite, completes_next, ite_self]
@[simp] theorem completes_execOndieCountRead (field ch count : Nat) (s : State) (h : hasChannel field ch = true) : Completes
    (execOndieCountRead field ch count s) := by simp only [execOndieCountRead, completes_ite, completes_next, ite_self, h, and_self, if_true, if_false]
@[simp] theorem completes_execDeviceTemperatureReport (device : Nat) (hot above : Bool) (temp : Nat) (s : State) (h : device < 16) :
    Completes (execDeviceTemperatureReport device hot above temp s) := by
  unfold execDeviceTemperatureReport
  rw [if_pos h]
  exact completes_next _
@[simp] theorem completes_execChannelRetire (field ch : Nat) (s : State) (h : hasChannel field ch = true) : Completes
    (execChannelRetire field ch s) := by simp only [execChannelRetire, completes_ite, completes_next, ite_self, h, and_self, if_true, if_false]
@[simp] theorem completes_execStmMove (engine : Nat) (ecc : Eccs) (s : State) (h : engine < 128) : Completes
    (execStmMove engine ecc s) := by simp only [execStmMove, completes_ite, completes_next, ite_self, h, and_self, if_true, if_false]
@[simp] theorem completes_execStmTree (engine : Nat) (ecc : Eccs) (s : State) (h : engine < 128) : Completes
    (execStmTree engine ecc s) := by simp only [execStmTree, completes_ite, completes_next, ite_self, h, and_self, if_true, if_false]
@[simp] theorem completes_execStmSync (engine : Nat) (s : State) (h : engine < 128) : Completes
    (execStmSync engine s) := by simp only [execStmSync, completes_ite, completes_next, ite_self, h, and_self, if_true, if_false]
@[simp] theorem completes_execStmEnd (engine : Nat) (s : State) (h : engine < 128) : Completes
    (execStmEnd engine s) := by simp only [execStmEnd, completes_ite, completes_next, ite_self, h, and_self, if_true, if_false]
@[simp] theorem completes_execStmDescriptorComplete (engine : Nat) (s : State) (h : engine < 128) : Completes
    (execStmDescriptorComplete engine s) := by
  simp only [execStmDescriptorComplete, completes_ite, completes_next, ite_self, h, and_self, if_true, if_false]
  split <;> simp only [completes_ite, completes_next, ite_self]
@[simp] theorem completes_execLaunchQueueEntry (entry : Crossed) (s : State) (h : entry.n < s.numIslands) :
    Completes (execLaunchQueueEntry entry s) := by
  simp only [execLaunchQueueEntry, h, if_true]
  split <;> simp only [completes_ite, completes_next, ite_self]
@[simp] theorem completes_execSlotLaunch (port slot : Nat) (s : State) (h : hasPort port = true) : Completes
    (execSlotLaunch port slot s) := by simp only [execSlotLaunch, completes_ite, completes_next, ite_self, h, and_self, if_true, if_false]
@[simp] theorem completes_execTimedLaunch (port entry slot : Nat) (s : State) (h : port < numPorts ∧ entry < 4) : Completes
    (execTimedLaunch port entry slot s) := by
  simp only [execTimedLaunch, completes_ite, completes_next, ite_self, h, and_self, if_true, if_false]
  split <;> simp only [completes_ite, completes_next, ite_self]
@[simp] theorem completes_execRelayLaunch (port slot : Nat) (s : State) (h : hasPort port = true) : Completes
    (execRelayLaunch port slot s) := by
  simp only [execRelayLaunch, completes_ite, completes_next, ite_self, h, and_self, if_true, if_false]
  split <;> simp only [completes_ite, completes_next, ite_self]
@[simp] theorem completes_execFlitPresent (port slot : Nat) (s : State) (h : hasPort port = true) : Completes
    (execFlitPresent port slot s) := by
  simp only [execFlitPresent, completes_ite, completes_next, ite_self, h, and_self, if_true, if_false]
  split <;> simp only [completes_ite, completes_next, ite_self]
@[simp] theorem completes_execFlitLanding (port : Nat) (s : State) (h : hasPort port = true) : Completes (execFlitLanding port s) := by
  simp only [execFlitLanding, h, and_self, if_true, if_false]
  repeat' split
  all_goals simp only [completes_ite, completes_next, ite_self]
@[simp] theorem completes_execColdTraining (port : Nat) (env : TrainEnv) (s : State) (h : hasPort port = true) : Completes
    (execColdTraining port env s) := by simp only [execColdTraining, completes_ite, completes_next, ite_self, h, and_self, if_true, if_false]
@[simp] theorem completes_execColdTrainingRetry (retry : Retry) (s : State) (h : hasPort retry.port = true) :
    Completes (execColdTrainingRetry retry s) := by
  simp only [execColdTrainingRetry, h, if_true, completes_ite, completes_next, ite_self]
@[simp] theorem completes_execTrainingRecord (port : Nat) (raw : BitVec 2304) (s : State) (h : hasPort port = true) : Completes
    (execTrainingRecord port raw s) := by
  simp only [execTrainingRecord, completes_ite, completes_next, ite_self, h, and_self, if_true, if_false]
  split <;> simp only [completes_ite, completes_next, ite_self]
@[simp] theorem completes_execFlitReceive (port : Nat) (raw : BitVec 2304) (fec : List FecCount) (s : State)
    (h : hasPort port = true) : Completes
    (execFlitReceive port raw fec s) := by simp only [execFlitReceive, completes_ite, completes_next, ite_self, h, and_self, if_true, if_false]
@[simp] theorem completes_execReplayTimer (port : Nat) (s : State) (h : hasPort port = true) : Completes (execReplayTimer port s) := by
  simp only [execReplayTimer, completes_ite, completes_next, ite_self, h, and_self, if_true, if_false]
  split <;> simp only [completes_ite, completes_next, ite_self]
@[simp] theorem completes_execSpareRequest (port : Nat) (msg : Msg) (s : State) (h : hasPort port = true) : Completes
    (execSpareRequest port msg s) := by
  simp only [execSpareRequest, h, and_self, if_true, if_false]
  repeat' split
  all_goals simp only [completes_ite, completes_next, ite_self]
@[simp] theorem completes_execSpareGrant (port : Nat) (msg : Msg) (s : State) (h : hasPort port = true) : Completes
    (execSpareGrant port msg s) := by
  simp only [execSpareGrant, completes_ite, completes_next, ite_self, h, and_self, if_true, if_false]
  split <;> simp only [completes_ite, completes_next, ite_self]
@[simp] theorem completes_execSpareLockComplete (port : Nat) (s : State) (h : hasPort port = true) : Completes
    (execSpareLockComplete port s) := by
  simp only [execSpareLockComplete, completes_ite, completes_next, ite_self, h, and_self, if_true, if_false]
  split <;> simp only [completes_ite, completes_next, ite_self]
@[simp] theorem completes_execSpareDone (port : Nat) (msg : Msg) (s : State) (h : hasPort port = true) : Completes
    (execSpareDone port msg s) := by
  simp only [execSpareDone, completes_ite, completes_next, ite_self, h, and_self, if_true, if_false]
  split <;> simp only [completes_ite, completes_next, ite_self]
@[simp] theorem completes_execRetrainRequest (port : Nat) (msg : Msg) (s : State) (h : hasPort port = true) : Completes
    (execRetrainRequest port msg s) := by
  simp only [execRetrainRequest, h, and_self, if_true, if_false]
  repeat' split
  all_goals simp only [completes_ite, completes_next, ite_self]
@[simp] theorem completes_execRetrainGrant (port : Nat) (msg : Msg) (s : State) (h : hasPort port = true) : Completes
    (execRetrainGrant port msg s) := by
  simp only [execRetrainGrant, completes_ite, completes_next, ite_self, h, and_self, if_true, if_false]
  split <;> simp only [completes_ite, completes_next, ite_self]
@[simp] theorem completes_execQuietStart (port : Nat) (s : State) (h : hasPort port = true) : Completes (execQuietStart port s) := by
  simp only [execQuietStart, completes_ite, completes_next, ite_self, h, and_self, if_true, if_false]
  split <;> simp only [completes_ite, completes_next, ite_self]
@[simp] theorem completes_execRelockComplete (port delay16 rtt : Nat) (s : State) (h : hasPort port = true) : Completes
    (execRelockComplete port delay16 rtt s) := by
  simp only [execRelockComplete, completes_ite, completes_next, ite_self, h, and_self, if_true, if_false]
  split <;> simp only [completes_ite, completes_next, ite_self]
@[simp] theorem completes_execResync (port : Nat) (msg : Msg) (ack : BitVec 12) (s : State) (h : hasPort port = true) : Completes
    (execResync port msg ack s) := by
  simp only [execResync, completes_ite, completes_next, ite_self, h, and_self, if_true, if_false]
  split <;> simp only [completes_ite, completes_next, ite_self]
@[simp] theorem completes_execRetrainTimeout (port : Nat) (s : State) (h : hasPort port = true) : Completes
    (execRetrainTimeout port s) := by
  simp only [execRetrainTimeout, completes_ite, completes_next, ite_self, h, and_self, if_true, if_false]
  split <;> simp only [completes_ite, completes_next, ite_self]
@[simp] theorem completes_execLinkWithdraw (port : Nat) (msg : Msg) (s : State) (h : hasPort port = true) : Completes
    (execLinkWithdraw port msg s) := by simp only [execLinkWithdraw, completes_ite, completes_next, ite_self, h, and_self, if_true, if_false]
@[simp] theorem completes_execDownNotice (port : Nat) (msg : Msg) (s : State) (h : hasPort port = true) : Completes
    (execDownNotice port msg s) := by simp only [execDownNotice, completes_ite, completes_next, ite_self, h, and_self, if_true, if_false]
@[simp] theorem completes_execNoValidFlitTimeout (port : Nat) (s : State) (h : hasPort port = true) : Completes
    (execNoValidFlitTimeout port s) := by
  simp only [execNoValidFlitTimeout, completes_ite, completes_next, ite_self, h, and_self, if_true, if_false]
  split <;> simp only [completes_ite, completes_next, ite_self]
@[simp] theorem completes_execLinkRetrainWrite (port : Nat) (value : Word) (s : State) (h : hasPort port = true) : Completes
    (execLinkRetrainWrite port value s) := by simp only [execLinkRetrainWrite, completes_ite, completes_next, ite_self, h, and_self, if_true, if_false]
@[simp] theorem completes_execInjectionControlWrite (port offset : Nat) (value : Word) (s : State)
    (h : hasPort port = true ∧ offset % 8 = 0 ∧ 0x8200 ≤ offset ∧ offset ≤ 0x8220) : Completes
    (execInjectionControlWrite port offset value s) := by
  simp only [execInjectionControlWrite, h, and_self, if_true, if_false]
  repeat' split
  all_goals simp only [completes_ite, completes_next, ite_self]
@[simp] theorem completes_execLoadRecordRun (index : Nat) (ecc : Eccs) (s : State) : Completes (execLoadRecordRun index ecc s) := by
  simp only [execLoadRecordRun]
  repeat' split
  all_goals simp only [completes_ite, completes_next, ite_self]
@[simp] theorem completes_execPackageBoundary (s : State) : Completes
    (execPackageBoundary s) := by simp only [execPackageBoundary, completes_ite, completes_next, ite_self]
@[simp] theorem completes_execTriggerFire (s : State) : Completes
    (execTriggerFire s) := by simp only [execTriggerFire, completes_ite, completes_next, ite_self]
@[simp] theorem completes_execPatchOrder (msg : Msg) (s : State) : Completes
    (execPatchOrder msg s) := by simp only [execPatchOrder, completes_ite, completes_next, ite_self]
@[simp] theorem completes_execTimIncrWrite (value : Word) (s : State) : Completes
    (execTimIncrWrite value s) := by simp only [execTimIncrWrite, completes_ite, completes_next, ite_self]
@[simp] theorem completes_execTimPhaseWrite (value : Word) (s : State) : Completes
    (execTimPhaseWrite value s) := by simp only [execTimPhaseWrite, completes_ite, completes_next, ite_self]
@[simp] theorem completes_execTimTrigWrite (value : Word) (s : State) : Completes (execTimTrigWrite value s) := ⟨_, rfl⟩
@[simp] theorem completes_execReferenceClockTick (s : State) : Completes (execReferenceClockTick s) := by
  simp only [execReferenceClockTick]
  repeat' split
  all_goals simp only [completes_ite, completes_next, ite_self]
@[simp] theorem completes_execRefclkFail (clock : Nat) (s : State) (h : clock < 2) : Completes
    (execRefclkFail clock s) := by simp only [execRefclkFail, completes_ite, completes_next, ite_self, h, and_self, if_true, if_false]
@[simp] theorem completes_execHoldoverTimeout (s : State) : Completes
    (execHoldoverTimeout s) := by simp only [execHoldoverTimeout, completes_ite, completes_next, ite_self]
@[simp] theorem completes_execTimeSteerUpdate (s : State) : Completes (execTimeSteerUpdate s) := by
  simp only [execTimeSteerUpdate]
  split
  · exact completes_next _
  · refine .ite (completes_next _) ?_
    split
    · exact completes_next _
    · exact .ite (completes_next _) (completes_next _)
@[simp] theorem completes_execTlqArm (port entry : Nat) (value : Word) (s : State) (h : port < numPorts ∧ entry < 4) : Completes
    (execTlqArm port entry value s) := by simp only [execTlqArm, completes_ite, completes_next, ite_self, h, and_self, if_true, if_false]
@[simp] theorem completes_execBocPowerCfgWrite (value : Word) (s : State) : Completes
    (execBocPowerCfgWrite value s) := by simp only [execBocPowerCfgWrite, completes_ite, completes_next, ite_self]
@[simp] theorem completes_execPowerControlUpdate (average : Nat) (s : State) : Completes (execPowerControlUpdate average s) := ⟨_, rfl⟩
@[simp] theorem completes_execLowInput (s : State) : Completes
    (execLowInput s) := by simp only [execLowInput, completes_ite, completes_next, ite_self]
@[simp] theorem completes_execOpenFibreControl (port : Nat) (signals : BitVec 9) (s : State) (h : port < numPorts) : Completes
    (execOpenFibreControl port signals s) := by simp only [execOpenFibreControl, completes_ite, completes_next, ite_self, h, and_self, if_true, if_false]
@[simp] theorem completes_execRegisterWrite (addr bytes : Nat) (value hw : Word) (s : State) : Completes
    (execRegisterWrite addr bytes value hw s) := by
  simp only [execRegisterWrite]
  repeat' split
  all_goals simp only [completes_ite, completes_next, ite_self]
@[simp] theorem completes_execRcClearingRead (addr bytes : Nat) (same : List (Nat × Nat)) (s : State) : Completes
    (execRcClearingRead addr bytes same s) := by
  simp only [execRcClearingRead]
  repeat' split
  all_goals simp only [completes_ite, completes_next, ite_self]
@[simp] theorem completes_execPacketRoute (port vc : Nat) (s : State) (h : port ≤ numPorts ∧ vc < 6) : Completes
    (execPacketRoute port vc s) := by simp only [execPacketRoute, completes_ite, completes_next, ite_self, h, and_self, if_true, if_false]
@[simp] theorem completes_execRequestAdmit (n u : Nat) (source : TrackerRead) (s : State) (h : s.hasCore n u = true ∧ source.tracker < 16) :
    Completes (execRequestAdmit n u source s) := by
  simp only [execRequestAdmit, h, and_self, if_true]
  split
  · refine .ite (completes_next _) (.ite (completes_next _) ?_)
    split
    · exact completes_next _
    · split <;> exact completes_next _
  · exact completes_next _
@[simp] theorem completes_execRequestPacketArrival (pkt : Packet) (ecc : Eccs) (s : State) : Completes
    (execRequestPacketArrival pkt ecc s) := by
  simp only [execRequestPacketArrival, completes_ite, completes_next, ite_self]
  split <;> simp only [completes_ite, completes_next, ite_self]
@[simp] theorem completes_execResponseArrival (pkt : Packet) (s : State) : Completes (execResponseArrival pkt s) := by
  simp only [execResponseArrival]
  split
  · exact completes_next _
  · split
    · exact .ite (completes_next _) (.ite (completes_next _) (completes_next _))
    · exact completes_next _
@[simp] theorem completes_execAttemptTimer (n u tracker : Nat) (s : State) (h : s.hasCore n u = true ∧ tracker < 16) : Completes
    (execAttemptTimer n u tracker s) := by
  simp only [execAttemptTimer, completes_ite, completes_next, ite_self, h, and_self, if_true, if_false]
  split <;> simp only [completes_ite, completes_next, ite_self]
@[simp] theorem completes_execRequestDeadline (n u tracker : Nat) (s : State) (h : s.hasCore n u = true ∧ tracker < 16) : Completes
    (execRequestDeadline n u tracker s) := by
  simp only [execRequestDeadline, completes_ite, completes_next, ite_self, h, and_self, if_true, if_false]
  split <;> simp only [completes_ite, completes_next, ite_self]
@[simp] theorem completes_execDedupEntryFree (isPut : Bool) (index : Nat) (s : State) : Completes
    (execDedupEntryFree isPut index s) := by simp only [execDedupEntryFree, completes_ite, completes_next, ite_self]
@[simp] theorem completes_execRouteInstall (msg : Msg) (s : State) : Completes
    (execRouteInstall msg s) := by simp only [execRouteInstall, completes_ite, completes_next, ite_self]
@[simp] theorem completes_execRouteReady (msg : Msg) (s : State) : Completes
    (execRouteReady msg s) := by simp only [execRouteReady, completes_ite, completes_next, ite_self]
@[simp] theorem completes_execRouteFlip (msg : Msg) (s : State) : Completes (execRouteFlip msg s) := ⟨_, rfl⟩
@[simp] theorem completes_execEpochFlip (s : State) : Completes
    (execEpochFlip s) := by simp only [execEpochFlip, completes_ite, completes_next, ite_self]
@[simp] theorem completes_execEpochRetire (s : State) : Completes
    (execEpochRetire s) := by simp only [execEpochRetire, completes_ite, completes_next, ite_self]
@[simp] theorem completes_execValveSwap (unit : BitVec 32) (s : State) : Completes
    (execValveSwap unit s) := by simp only [execValveSwap, completes_ite, completes_next, ite_self]
@[simp] theorem completes_execHoursMark (s : State) : Completes (execHoursMark s) := ⟨_, rfl⟩
@[simp] theorem completes_execSuppressedRecordFlush (s : State) : Completes
    (execSuppressedRecordFlush s) := by simp only [execSuppressedRecordFlush, completes_ite, completes_next, ite_self]
@[simp] theorem completes_execLedgerCompact (s : State) : Completes
    (execLedgerCompact s) := by simp only [execLedgerCompact, completes_ite, completes_next, ite_self]
@[simp] theorem completes_execPackageLost (package : Nat) (s : State) : Completes (execPackageLost package s) := ⟨_, rfl⟩
@[simp] theorem completes_execFaultReport (msg : Msg) (s : State) : Completes
    (execFaultReport msg s) := by simp only [execFaultReport, completes_ite, completes_next, ite_self]
@[simp] theorem completes_execStepReport (msg : Msg) (s : State) : Completes
    (execStepReport msg s) := by simp only [execStepReport, completes_ite, completes_next, ite_self]
@[simp] theorem completes_execCommitDecision (s : State) : Completes (execCommitDecision s) := by
  simp only [execCommitDecision]
  repeat' split
  all_goals simp only [completes_ite, completes_next, ite_self]
@[simp] theorem completes_execSlipOrderSend (s : State) : Completes
    (execSlipOrderSend s) := by simp only [execSlipOrderSend, completes_ite, completes_next, ite_self]
@[simp] theorem completes_execCommit (msg : Msg) (s : State) : Completes
    (execCommit msg s) := by simp only [execCommit, completes_ite, completes_next, ite_self]
@[simp] theorem completes_execDiscard (msg : Msg) (s : State) : Completes (execDiscard msg s) := ⟨_, rfl⟩
@[simp] theorem completes_execAbort (msg : Msg) (s : State) : Completes
    (execAbort msg s) := by simp only [execAbort, completes_ite, completes_next, ite_self]
@[simp] theorem completes_execTagSweep (tag region : Nat) (s : State) (h : 1 ≤ tag ∧ tag ≤ 3) : Completes
    (execTagSweep tag region s) := by simp only [execTagSweep, completes_ite, completes_next, ite_self, h, and_self, if_true, if_false]
@[simp] theorem completes_execSweepDone (msg : Msg) (s : State) : Completes
    (execSweepDone msg s) := by simp only [execSweepDone, completes_ite, completes_next, ite_self]
@[simp] theorem completes_execReplayOrder (msg : Msg) (s : State) : Completes
    (execReplayOrder msg s) := by simp only [execReplayOrder, completes_ite, completes_next, ite_self]
@[simp] theorem completes_execDigest (msg : Msg) (s : State) : Completes
    (execDigest msg s) := by simp only [execDigest, completes_ite, completes_next, ite_self]
@[simp] theorem completes_execReplayLimitExpiry (s : State) : Completes (execReplayLimitExpiry s) := by
  simp only [execReplayLimitExpiry]
  split
  · exact .ite (completes_next _) (completes_next _)
  · exact completes_next _
@[simp] theorem completes_execLocalisationTest (n cl record : Nat) (reproduced : Bool) (s : State)
    (h : s.hasCluster n cl = true ∧ record < 4) : Completes
    (execLocalisationTest n cl record reproduced s) := by simp only [execLocalisationTest, completes_ite, completes_next, ite_self, h, and_self, if_true, if_false]
@[simp] theorem completes_execHeartbeat (msg : Msg) (s : State) : Completes (execHeartbeat msg s) := ⟨_, rfl⟩
@[simp] theorem completes_execHeartbeatSend (s : State) : Completes
    (execHeartbeatSend s) := by simp only [execHeartbeatSend, completes_ite, completes_next, ite_self]
@[simp] theorem completes_execLeadLossTimeout (s : State) : Completes (execLeadLossTimeout s) := by
  simp only [execLeadLossTimeout]
  split
  · exact completes_next _
  · refine .ite (completes_next _) ?_
    split
    · exact completes_next _
    · exact .ite (completes_next _) (completes_next _)
@[simp] theorem completes_execHeartbeatLossTimeout (package : Nat) (s : State) : Completes
    (execHeartbeatLossTimeout package s) := by simp only [execHeartbeatLossTimeout, completes_ite, completes_next, ite_self]
@[simp] theorem completes_execRestart (msg : Msg) (s : State) : Completes
    (execRestart msg s) := by simp only [execRestart, completes_ite, completes_next, ite_self]
@[simp] theorem completes_execPromote (msg : Msg) (s : State) : Completes (execPromote msg s) := ⟨_, rfl⟩
@[simp] theorem completes_execEventSuppressSummary (s : State) : Completes (execEventSuppressSummary s) := ⟨_, rfl⟩
@[simp] theorem completes_execHealthDigestUpdate (s : State) : Completes (execHealthDigestUpdate s) := ⟨_, rfl⟩
@[simp] theorem completes_execAuthTagSend (port : Nat) (s : State) (h : hasPort port = true) : Completes
    (execAuthTagSend port s) := by simp only [execAuthTagSend, completes_ite, completes_next, ite_self, h, and_self, if_true, if_false]
@[simp] theorem completes_execAuthTag (port : Nat) (msg : Msg) (ok : Bool) (s : State) (h : hasPort port = true) : Completes
    (execAuthTag port msg ok s) := by simp only [execAuthTag, completes_ite, completes_next, ite_self, h, and_self, if_true, if_false]
@[simp] theorem completes_execTagRequest (msg : Msg) (s : State) : Completes (execTagRequest msg s) := by
  simp only [execTagRequest]
  split
  · exact .ite (completes_next _) (completes_next _)
  · exact completes_next _
@[simp] theorem completes_execAuthTagTimeout (port : Nat) (s : State) (h : hasPort port = true) : Completes
    (execAuthTagTimeout port s) := by simp only [execAuthTagTimeout, completes_ite, completes_next, ite_self, h, and_self, if_true, if_false]
@[simp] theorem completes_execSessionTimeout (session : BitVec 64) (s : State) : Completes (execSessionTimeout session s) := ⟨_, rfl⟩
@[simp] theorem completes_execPowerOnReset (s : State) : Completes (execPowerOnReset s) := ⟨_, rfl⟩
@[simp] theorem completes_execPinReset (s : State) : Completes (execPinReset s) := by
  simp only [execPinReset, completes_ite, completes_next, ite_self]
  split <;> simp only [completes_ite, completes_next, ite_self]
@[simp] theorem completes_execThermalReset (s : State) : Completes (execThermalReset s) := ⟨_, rfl⟩
@[simp] theorem completes_execPwrGoodDeassert (s : State) : Completes (execPwrGoodDeassert s) := ⟨_, rfl⟩
@[simp] theorem completes_execInputOutOfRange (s : State) : Completes (execInputOutOfRange s) := ⟨_, rfl⟩
@[simp] theorem completes_execResetRelease (env : BootEnv) (s : State) : Completes
    (execResetRelease env s) := by simp only [execResetRelease, completes_ite, completes_next, ite_self]
@[simp] theorem completes_execBocalFailover (s : State) : Completes
    (execBocalFailover s) := by simp only [execBocalFailover, completes_ite, completes_next, ite_self]
@[simp] theorem completes_execFieldControllerError (field : Nat) (s : State) (h : field < 8) : Completes
    (execFieldControllerError field s) := by
  unfold execFieldControllerError
  split
  · split <;> exact completes_next _
  · omega
@[simp] theorem completes_execCtlForward (routing : BitVec 128) (msgs : List Msg) (s : State) : Completes
    (execCtlForward routing msgs s) := ⟨_, rfl⟩
@[simp] theorem completes_execCtlBroadcastForward (routing : BitVec 128) (msgs : List Msg) (s : State) : Completes
    (execCtlBroadcastForward routing msgs s) := ⟨_, rfl⟩
@[simp] theorem completes_execCtlDropTimeout (s : State) : Completes (execCtlDropTimeout s) := ⟨_, rfl⟩
@[simp] theorem completes_execDronePathFullyOpen (pair : Nat) (s : State) (h : pair < 24) : Completes
    (execDronePathFullyOpen pair s) := by simp only [execDronePathFullyOpen, completes_ite, completes_next, ite_self, h, and_self, if_true, if_false]
@[simp] theorem completes_execDronePathFullyClosed (pair : Nat) (s : State) (h : pair < 24) : Completes
    (execDronePathFullyClosed pair s) := by simp only [execDronePathFullyClosed, completes_ite, completes_next, ite_self, h, and_self, if_true, if_false]
@[simp] theorem completes_execDronePathClose (cause : CloseCause) (s : State) : Completes (execDronePathClose cause s) := by
  simp only [execDronePathClose]
  repeat' split
  all_goals simp only [completes_ite, completes_next, ite_self]
@[simp] theorem completes_execAdmitNoticeMessage (msg : Msg) (s : State) : Completes (execAdmitNoticeMessage msg s) := ⟨_, rfl⟩
@[simp] theorem completes_execAdmissionOpen (s : State) : Completes (execAdmissionOpen s) := by
  simp only [execAdmissionOpen, completes_ite, completes_next, ite_self]
  split <;> simp only [completes_ite, completes_next, ite_self]
@[simp] theorem completes_execAdmitted (s : State) : Completes (execAdmitted s) := by
  simp only [execAdmitted, completes_ite, completes_next, ite_self]
  split <;> simp only [completes_ite, completes_next, ite_self]
@[simp] theorem completes_execAdmissionTimeout (s : State) : Completes
    (execAdmissionTimeout s) := by simp only [execAdmissionTimeout, completes_ite, completes_next, ite_self]
@[simp] theorem completes_execImageReady (msg : Msg) (s : State) : Completes
    (execImageReady msg s) := by simp only [execImageReady, completes_ite, completes_next, ite_self]
@[simp] theorem completes_execBreath0LoadDone (s : State) : Completes
    (execBreath0LoadDone s) := by simp only [execBreath0LoadDone, completes_ite, completes_next, ite_self]
@[simp] theorem completes_execStartOrder (msg : Msg) (s : State) : Completes
    (execStartOrder msg s) := by simp only [execStartOrder, completes_ite, completes_next, ite_self]
@[simp] theorem completes_execWithdrawNotice (msg : Msg) (s : State) : Completes
    (execWithdrawNotice msg s) := by simp only [execWithdrawNotice, completes_ite, completes_next, ite_self]
@[simp] theorem completes_execWithdrawClose (s : State) : Completes (execWithdrawClose s) := by
  simp only [execWithdrawClose, completes_ite, completes_next, ite_self]
  split <;> simp only [completes_ite, completes_next, ite_self]
@[simp] theorem completes_execSessionOpen (req : Brq) (owner : Bool) (record : Nat) (sid : BitVec 64) (challenge next : BitVec 256)
    (verdict : Verdict) (s : State) : Completes (execSessionOpen req owner record sid challenge next verdict s) :=
  .ite (completes_next _) (.ite (completes_next _) (.ite (completes_next _) (.ite (completes_next _) (completes_next _))))
@[simp] theorem completes_execSessionClose (req : Brq) (s : State) : Completes (execSessionClose req s) := ⟨_, rfl⟩
@[simp] theorem completes_execTimePoll (req : Brq) (arrival departure : Beat) (s : State) : Completes
    (execTimePoll req arrival departure s) := ⟨_, rfl⟩
@[simp] theorem completes_execTimeSteer (req : Brq) (writeIncr writePhase : Bool) (incr phase : Word) (s : State) : Completes
    (execTimeSteer req writeIncr writePhase incr phase s) := ⟨_, rfl⟩
@[simp] theorem completes_execEventAck (req : Brq) (seq : Nat) (s : State) : Completes (execEventAck req seq s) := ⟨_, rfl⟩
@[simp] theorem completes_execRegRead (req : Brq) (addr : Nat) (s : State) : Completes (execRegRead req addr s) := ⟨_, rfl⟩
@[simp] theorem completes_execRegWrite (req : Brq) (addr : Nat) (value : Word) (s : State) : Completes
    (execRegWrite req addr value s) := ⟨_, rfl⟩
@[simp] theorem completes_execAdmitRequest (req : Brq) (beat : Beat) (s : State) : Completes (execAdmitRequest req beat s) := ⟨_, rfl⟩
@[simp] theorem completes_execAdmitNotice (req : Brq) (joiner : Nat) (beat : Beat) (s : State) : Completes
    (execAdmitNotice req joiner beat s) := ⟨_, rfl⟩
@[simp] theorem completes_execWithdraw (req : Brq) (s : State) : Completes (execWithdraw req s) := ⟨_, rfl⟩
@[simp] theorem completes_execStart (req : Brq) (t0 : Beat) (s : State) : Completes (execStart req t0 s) := ⟨_, rfl⟩
@[simp] theorem completes_execStop (req : Brq) (s : State) : Completes (execStop req s) := ⟨_, rfl⟩
@[simp] theorem completes_execDecide (req : Brq) (step choice : Nat) (s : State) : Completes (execDecide req step choice s) := ⟨_, rfl⟩
@[simp] theorem completes_execUpdate (req : Brq) (slot : Nat) (s : State) : Completes (execUpdate req slot s) := ⟨_, rfl⟩
@[simp] theorem completes_execConfirm (req : Brq) (s : State) : Completes (execConfirm req s) := ⟨_, rfl⟩
@[simp] theorem completes_execReset (req : Brq) (s : State) : Completes (execReset req s) := ⟨_, rfl⟩
@[simp] theorem completes_execToneRun (req : Brq) (pack : Nat) (s : State) : Completes (execToneRun req pack s) := ⟨_, rfl⟩
@[simp] theorem completes_execObjRead (req : Brq) (object index offset length : Nat) (s : State) : Completes
    (execObjRead req object index offset length s) := by simp only [execObjRead, completes_ite, completes_next, ite_self]
@[simp] theorem completes_execMakeReport (req : Brq) (nonce : BitVec 256) (s : State) : Completes
    (execMakeReport req nonce s) := by simp only [execMakeReport, completes_ite, completes_next, ite_self]
@[simp] theorem completes_execObjWrite (req : Brq) (object index offset : Nat) (chunk : ObjChunk) (s : State) : Completes
    (execObjWrite req object index offset chunk s) := ⟨_, rfl⟩
@[simp] theorem completes_execObjDiscard (req : Brq) (object index : Nat) (s : State) : Completes
    (execObjDiscard req object index s) := ⟨_, rfl⟩
@[simp] theorem completes_execCkptRead (req : Brq) (addr length : Nat) (s : State) : Completes (execCkptRead req addr length s) := ⟨_, rfl⟩
@[simp] theorem completes_execObjCommit (req : Brq) (object index total : Nat) (verdict : Verdict) (s : State) : Completes
    (execObjCommit req object index total verdict s) := ⟨_, rfl⟩
@[simp] theorem completes_i3cAnswer (s : State) (l : List Byte) : Completes (State.i3cAnswer s l) := ⟨_, rfl⟩
@[simp] theorem completes_execEntdaa (address : BitVec 7) (s : State) : Completes
    (execEntdaa address s) := by simp only [execEntdaa, completes_ite, completes_next, ite_self]
@[simp] theorem completes_execRstdaa (s : State) : Completes
    (execRstdaa s) := by simp only [execRstdaa, completes_ite, completes_next, ite_self]
@[simp] theorem completes_execSetnewda (address : BitVec 7) (s : State) : Completes
    (execSetnewda address s) := by simp only [execSetnewda, completes_ite, completes_next, ite_self]
@[simp] theorem completes_execGetpid (s : State) : Completes (execGetpid s) := by
  unfold execGetpid
  repeat' split
  all_goals exact ⟨_, rfl⟩
@[simp] theorem completes_execGetbcr (s : State) : Completes (execGetbcr s) := by
  unfold execGetbcr
  repeat' split
  all_goals exact ⟨_, rfl⟩
@[simp] theorem completes_execGetdcr (s : State) : Completes (execGetdcr s) := by
  unfold execGetdcr
  repeat' split
  all_goals exact ⟨_, rfl⟩
@[simp] theorem completes_execGetstatus (s : State) : Completes (execGetstatus s) := by
  unfold execGetstatus
  repeat' split
  all_goals exact ⟨_, rfl⟩
@[simp] theorem completes_execEnec (_events : BitVec 8) (s : State) : Completes (execEnec _events s) := ⟨_, rfl⟩
@[simp] theorem completes_execDisec (_events : BitVec 8) (s : State) : Completes (execDisec _events s) := ⟨_, rfl⟩
@[simp] theorem completes_execI3cPrivateWrite (bytes : List Byte) (s : State) : Completes (execI3cPrivateWrite bytes s) := by
  simp only [execI3cPrivateWrite, completes_ite, completes_next, ite_self]
  split <;> simp only [completes_ite, completes_next, ite_self]
@[simp] theorem completes_execI3cPrivateRead (count : Nat) (s : State) : Completes (execI3cPrivateRead count s) := by
  unfold execI3cPrivateRead
  repeat' split
  all_goals exact ⟨_, rfl⟩
@[simp] theorem completes_execMirrorRefresh (s : State) : Completes
    (execMirrorRefresh s) := by simp only [execMirrorRefresh, completes_ite, completes_next, ite_self]
@[simp] theorem completes_execThermalSample (field temp : Nat) (s : State) (h : ¬ 8 ≤ field) : Completes
    (execThermalSample field temp s) := by simp only [execThermalSample, completes_ite, completes_next, ite_self, h, and_self, if_true, if_false]
@[simp] theorem completes_execLpddrOverLimitTrip (device : Nat) (s : State) (h : ¬ 16 ≤ device) : Completes
    (execLpddrOverLimitTrip device s) := by simp only [execLpddrOverLimitTrip, completes_ite, completes_next, ite_self, h, and_self, if_true, if_false]
@[simp] theorem completes_execTestAccessPortInstruction (instr : TapInstr) (s : State) : Completes
    (execTestAccessPortInstruction instr s) := ⟨_, rfl⟩
@[simp] theorem completes_execIslandHoldRelease (n cycles : Nat) (s : State) (h : n < s.numIslands) : Completes
    (execIslandHoldRelease n cycles s) := by simp only [execIslandHoldRelease, completes_ite, completes_next, ite_self, h, and_self, if_true, if_false]
@[simp] theorem completes_execStallTimeout (n cycles : Nat) (s : State) (h : n < s.numIslands) : Completes
    (execStallTimeout n cycles s) := by simp only [execStallTimeout, completes_ite, completes_next, ite_self, h, and_self, if_true, if_false]

end Sys2Proof.Machine
end

section
/-! A command answers with a next state unless it names a unit that the package does not have (R7, R22, R93). -/

namespace Sys2Proof.Machine

variable {s : State}

theorem State.numIslands_of_perField (hf : s.perField = 40) : s.numIslands = maxIslands := by
  simp only [State.numIslands, hf, maxIslands]

/-- An instruction of a site that a class A package has is issued. -/
theorem completes_issue (op : Op) (legal : Bool) (body : State → CtlCore → CtlBody) (hw : op.sl.wf = true) (hf : s.perField = 40) :
    Completes (issue s op legal body) := by
  simp only [Slot.wf] at hw
  simp only [issue]
  split
  · next n u hsite =>
    have hcore : s.hasCore n u = true := by
      simp only [hsite, hasUnit, decide_eq_true_eq] at hw
      simpa only [State.hasCore, State.numIslands_of_perField hf, decide_eq_true_eq] using hw
    rw [if_pos hcore]
    exact completes_next _
  · next j hsite =>
    have hctl : j < 4 := by simpa [hsite] using hw
    rw [if_pos hctl]
    exact completes_next _

theorem completes_execWld (sl : Slot) (fmt : BitVec 4) (part : BitVec 2) (sa : BitVec 5) (imm : BitVec 16) (hw : sl.wf = true)
    (hf : s.perField = 40) : Completes (execWld sl fmt part sa imm s) := by
  simp only [execWld]
  split
  · exact .ite (completes_next _) (completes_issue _ _ _ hw hf)
  · exact completes_issue _ _ _ hw hf

theorem completes_exec (c : Instr) (hw : wellFormed c = true) (hf : s.perField = 40) : Completes (exec c s) := by
  have hislands := State.numIslands_of_perField hf
  have hports : numPorts = maxPorts := rfl
  cases c
  case vfma | vsel =>
    simp only [wellFormed, Bool.and_eq_true] at hw
    exact completes_issue _ _ _ hw.1 hf
  case wld => exact completes_execWld _ _ _ _ _ hw hf
  any_goals exact completes_issue _ _ _ hw hf
  all_goals simp only [wellFormed, hasUnit, hasSwitch, Bool.and_eq_true, decide_eq_true_eq] at hw
  all_goals simp [exec, hasPort, hasChannel, State.hasCore, State.hasCluster, hislands, hports, hw]

end Sys2Proof.Machine
end

section
/-! The statement that no command is refused (log entry 8). -/

namespace Sys2Proof

open Machine

/-- Settles O54: what every command keeps says that it is no refusal; the reasons to stop have one constructor. -/
theorem wellFormedCommandsComplete : Obligations.WellFormedCommandsComplete := by
  intro c s
  refine ⟨fun r hr => ?_, fun f _ => ?_, fun hw hf => completes_exec c hw hf⟩
  · have hled := leads_exec c (Backing.Leads.refl s.kept)
    rw [hr] at hled
    exact hled
  · cases f
    rfl

end Sys2Proof
end

section
/-! The S slot's scalar and predicate instructions (R126, R128): what each computes, as arithmetic on the numbers its operands stand for. -/

namespace Sys2Proof.Machine

/-! ### Scalar arithmetic as arithmetic on integers and naturals -/

section
variable {w : Nat} (a b : BitVec w)

theorem bv_add_eq_ofInt : a + b = BitVec.ofInt w (a.toInt + b.toInt) := by
  rw [BitVec.ofInt_add, BitVec.ofInt_toInt, BitVec.ofInt_toInt]

theorem bv_sub_eq_ofInt : a - b = BitVec.ofInt w (a.toInt - b.toInt) :=
  BitVec.eq_of_toInt_eq (by rw [BitVec.toInt_sub, BitVec.toInt_ofInt])

theorem bv_mul_eq_ofInt : a * b = BitVec.ofInt w (a.toInt * b.toInt) := by
  rw [BitVec.ofInt_mul, BitVec.ofInt_toInt, BitVec.ofInt_toInt]

theorem bv_shl_eq_ofNat (k : Nat) : a <<< k = BitVec.ofNat w (a.toNat * 2 ^ k) :=
  BitVec.eq_of_toNat_eq (by rw [BitVec.toNat_shiftLeft, Nat.shiftLeft_eq, BitVec.toNat_ofNat])

theorem bv_shr_eq_ofNat (k : Nat) : a >>> k = BitVec.ofNat w (a.toNat / 2 ^ k) := by
  rw [← Nat.shiftRight_eq_div_pow, ← BitVec.toNat_ushiftRight, BitVec.ofNat_toNat, BitVec.setWidth_eq]

theorem bv_sra_eq_ofInt (k : Nat) : a.sshiftRight k = BitVec.ofInt w (a.toInt / 2 ^ k) := by
  have hdiv : a.toInt / 2 ^ k = a.toInt >>> k := by rw [Int.shiftRight_eq_div_pow]; norm_cast
  rw [hdiv, ← BitVec.toInt_sshiftRight, BitVec.ofInt_toInt]

theorem bv_min_eq_ofInt : (if b.slt a then b else a) = BitVec.ofInt w (min a.toInt b.toInt) := by
  simp only [BitVec.slt_iff_toInt_lt]
  split
  · rw [min_eq_right (by omega), BitVec.ofInt_toInt]
  · rw [min_eq_left (by omega), BitVec.ofInt_toInt]

theorem bv_max_eq_ofInt : (if a.slt b then b else a) = BitVec.ofInt w (max a.toInt b.toInt) := by
  simp only [BitVec.slt_iff_toInt_lt]
  split
  · rw [max_eq_right (by omega), BitVec.ofInt_toInt]
  · rw [max_eq_left (by omega), BitVec.ofInt_toInt]

theorem bv_ofNat_toNat : BitVec.ofNat w a.toNat = a := by rw [BitVec.ofNat_toNat, BitVec.setWidth_eq]

theorem bv_minu_eq_ofNat : (if b.ult a then b else a) = BitVec.ofNat w (min a.toNat b.toNat) := by
  simp only [BitVec.ult_iff_lt, BitVec.lt_def]
  split
  · rw [min_eq_right (by omega), bv_ofNat_toNat]
  · rw [min_eq_left (by omega), bv_ofNat_toNat]

theorem bv_maxu_eq_ofNat : (if a.ult b then b else a) = BitVec.ofNat w (max a.toNat b.toNat) := by
  simp only [BitVec.ult_iff_lt, BitVec.lt_def]
  split
  · rw [max_eq_right (by omega), bv_ofNat_toNat]
  · rw [max_eq_left (by omega), bv_ofNat_toNat]

theorem bv_signExtend_eq_ofInt {v : Nat} (x : BitVec v) : x.signExtend w = BitVec.ofInt w x.toInt := rfl

theorem bv_zeroExtend_eq_ofNat {v : Nat} (x : BitVec v) : x.zeroExtend w = BitVec.ofNat w x.toNat :=
  BitVec.eq_of_toNat_eq (by simp)

end

/-- The low half of a scalar and a 16-bit immediate in place of the high half (movhi). -/
theorem bv_append_low_eq_ofNat {w : Nat} (imm : BitVec 16) (a : BitVec w) (hw : 16 ≤ w) :
    (imm ++ a.truncate 16 : BitVec 32) = BitVec.ofNat 32 (imm.toNat * 65536 + a.toNat % 65536) := by
  refine BitVec.eq_of_toNat_eq ?_
  have himm := imm.isLt
  rw [BitVec.toNat_append, BitVec.toNat_ofNat, ← Nat.shiftLeft_add_eq_or_of_lt (BitVec.isLt _), Nat.shiftLeft_eq]
  simp only [BitVec.truncate_eq_setWidth, BitVec.toNat_setWidth]
  omega

/-- An immediate of 16 bits masks the low half alone (andi). -/
theorem bv_and_zeroExtend_eq_ofNat (a : BitVec 32) (imm : BitVec 16) :
    a &&& imm.zeroExtend 32 = BitVec.ofNat 32 (a.toNat % 65536 &&& imm.toNat) := by
  refine BitVec.eq_of_toNat_eq ?_
  have himm : imm.toNat % 2 ^ 16 = imm.toNat := Nat.mod_eq_of_lt imm.isLt
  have hlow : a.toNat &&& imm.toNat = a.toNat % 2 ^ 16 &&& imm.toNat := by
    rw [← himm, ← Nat.and_two_pow_sub_one_eq_mod, ← Nat.and_two_pow_sub_one_eq_mod, Nat.and_assoc, Nat.and_comm (2 ^ 16 - 1), Nat.and_assoc,
      Nat.and_self]
  have hlt : a.toNat % 65536 &&& imm.toNat < 2 ^ 32 := Nat.and_lt_two_pow _ (lt_trans imm.isLt (by decide))
  rw [BitVec.toNat_and, BitVec.toNat_ofNat, Nat.mod_eq_of_lt hlt]
  rw [bv_zeroExtend_eq_ofNat, BitVec.toNat_ofNat, Nat.mod_eq_of_lt (lt_trans imm.isLt (by decide))]
  exact hlow

theorem bool_xor_eq_decide_ne (a b : Bool) : xor a b = decide (a ≠ b) := by cases a <;> cases b <;> rfl

theorem bv_cond_eq (a b : BitVec 32) : (scalarCond 0 a b = decide (a.toInt = b.toInt)) ∧ (scalarCond 1 a b = decide (a.toInt ≠ b.toInt)) ∧
    (scalarCond 2 a b = decide (a.toInt < b.toInt)) ∧ (scalarCond 3 a b = decide (b.toInt ≤ a.toInt)) ∧
    (scalarCond 4 a b = decide (a.toNat < b.toNat)) ∧ (scalarCond 5 a b = decide (b.toNat ≤ a.toNat)) := by
  refine ⟨by simp [scalarCond, BitVec.toInt_inj], by simp [scalarCond, BitVec.toInt_inj], rfl, ?_, rfl, ?_⟩
  · simp only [← Int.not_lt, decide_not]
    rfl
  · simp only [← Nat.not_lt, decide_not]
    rfl

/-! ### The forms of the S slot -/

section
variable {s t : State} {sl : Slot} {n u : Nat}

theorem portConflict_setS (fl : List Flight) (lat r : Nat) (x : BitVec 32) : portConflict fl [(lat, .setS r x)] = false :=
  portConflict_of_noStore fl _ (by simp)

theorem portConflict_setP (fl : List Flight) (p : Nat) (b : Bool) : portConflict fl [(1, .setP p b)] = false :=
  portConflict_of_noStore fl _ (by simp)

theorem Runs.scalarRR {rd ra rb : BitVec 5} (h : Runs s t sl slotS [dS rd] n u) (i : Instr) (lat : Nat) {f : Alu} {x : BitVec 32}
    (hx : f 32 ((t.core n u).rs ra) ((t.core n u).rs rb) = x) :
    scalarRR s i sl rd ra rb lat f = .next (t.issued i sl slotS [dS rd] n u [(lat, .setS rd.toNat x)]) := by
  subst hx
  exact h.issued rfl rfl rfl rfl rfl (portConflict_setS _ _ _ _) _ _

theorem Runs.scalarRI {rd ra : BitVec 5} (h : Runs s t sl slotS [dS rd] n u) (i : Instr) {legal ctlLegal : Bool}
    {f : (w : Nat) → BitVec w → BitVec w} {x : BitVec 32} (hl : legal = true) (hx : f 32 ((t.core n u).rs ra) = x) :
    scalarRI s i sl rd ra legal ctlLegal f = .next (t.issued i sl slotS [dS rd] n u [(1, .setS rd.toNat x)]) := by
  subst hx
  exact h.issued rfl rfl rfl hl rfl (portConflict_setS _ _ _ _) _ _

theorem Runs.scalarP {pd : BitVec 3} (h : Runs s t sl slotS [dP pd] n u) (i : Instr) {legal : Bool} {f : Core → Bool} {g : CtlCore → Bool}
    {b : Bool} (hl : legal = true) (hb : f (t.core n u) = b) :
    scalarP s i sl pd legal f g = .next (t.issued i sl slotS [dP pd] n u [(1, .setP pd.toNat b)]) := by
  subst hb
  exact h.issued rfl rfl rfl hl rfl (portConflict_setP _ _ _) _ _

end

end Sys2Proof.Machine

namespace Sys2Proof

open Machine

/-- Settles O1: each instruction is its form's lemma at the arithmetic identity of its operation. -/
theorem scalarAndPredicateOps : Obligations.ScalarAndPredicateOps := by
  refine ⟨fun s t sl rd ra rb n u h => ?_, fun s t sl rd ra imm n u h => ?_, fun s t sl pd cond pa pb na nb ra rb imm n u h => ?_⟩
  · refine ⟨?_, ?_, ?_, ?_, ?_, ?_, ?_, ?_, ?_, ?_, ?_, ?_, ?_, ?_, ?_⟩
    · exact (exec_add ..).trans (h.scalarRR _ 1 (bv_add_eq_ofInt _ _))
    · exact (exec_sub ..).trans (h.scalarRR _ 1 (bv_sub_eq_ofInt _ _))
    · exact (exec_and ..).trans (h.scalarRR _ 1 rfl)
    · exact (exec_or ..).trans (h.scalarRR _ 1 rfl)
    · exact (exec_xor ..).trans (h.scalarRR _ 1 rfl)
    · exact (exec_shl ..).trans (h.scalarRR _ 1 (bv_shl_eq_ofNat _ _))
    · exact (exec_shr ..).trans (h.scalarRR _ 1 (bv_shr_eq_ofNat _ _))
    · exact (exec_sra ..).trans (h.scalarRR _ 1 (bv_sra_eq_ofInt _ _))
    · exact (exec_min ..).trans (h.scalarRR _ 1 (bv_min_eq_ofInt _ _))
    · exact (exec_max ..).trans (h.scalarRR _ 1 (bv_max_eq_ofInt _ _))
    · exact (exec_minu ..).trans (h.scalarRR _ 1 (bv_minu_eq_ofNat _ _))
    · exact (exec_maxu ..).trans (h.scalarRR _ 1 (bv_maxu_eq_ofNat _ _))
    · exact (exec_mul ..).trans (h.scalarRR _ 3 (bv_mul_eq_ofInt _ _))
    · exact (exec_mulh ..).trans (h.scalarRR _ 3 rfl)
    · exact (exec_mulhu ..).trans (h.scalarRR _ 3 rfl)
  · have hshift : imm.toNat < 32 → imm.toNat % 32 = imm.toNat := Nat.mod_eq_of_lt
    refine ⟨?_, ?_, ?_, ?_, fun hi => ?_, fun hi => ?_, fun hi => ?_, fun hra => ?_, ?_⟩
    · refine (exec_addi ..).trans (h.scalarRI _ rfl ?_)
      rw [bv_signExtend_eq_ofInt, BitVec.ofInt_add, BitVec.ofInt_toInt]
    · exact (exec_andi ..).trans (h.scalarRI _ rfl (bv_and_zeroExtend_eq_ofNat _ _))
    · exact (exec_ori ..).trans (h.scalarRI _ rfl (by rw [bv_zeroExtend_eq_ofNat]))
    · exact (exec_xori ..).trans (h.scalarRI _ rfl (by rw [bv_zeroExtend_eq_ofNat]))
    · exact (exec_shli ..).trans (h.scalarRI _ (decide_eq_true hi) (by rw [hshift hi, bv_shl_eq_ofNat]))
    · exact (exec_shri ..).trans (h.scalarRI _ (decide_eq_true hi) (by rw [hshift hi, bv_shr_eq_ofNat]))
    · exact (exec_srai ..).trans (h.scalarRI _ (decide_eq_true hi) (by rw [hshift hi, bv_sra_eq_ofInt]))
    · exact (exec_movi ..).trans (h.scalarRI _ (decide_eq_true hra) (bv_signExtend_eq_ofInt imm))
    · refine (exec_movhi ..).trans (h.scalarRI _ rfl ?_)
      rw [bv_append_low_eq_ofNat _ _ (by decide), BitVec.signExtend_eq]
  · have hcond : ∀ b, _ := fun b => bv_cond_eq ((t.core n u).rs ra) b
    refine ⟨?_, ?_, ?_, ?_, ?_⟩
    · obtain ⟨h0, h1, h2, h3, h4, h5⟩ := hcond ((t.core n u).rs rb)
      refine ⟨?_, ?_, ?_, ?_, ?_, ?_⟩ <;> rintro rfl <;> exact (exec_cmp ..).trans (h.scalarP _ rfl ‹_›)
    · obtain ⟨h0, h1, h2, h3, h4, h5⟩ := hcond (imm.signExtend 32)
      refine ⟨?_, ?_, ?_, ?_, ?_, ?_⟩ <;> rintro rfl <;> exact (exec_cmpi ..).trans (h.scalarP _ rfl ‹_›)
    · exact (exec_pand ..).trans (h.scalarP _ rfl (by rw [Bool.decide_and]; simp only [bool_xor_eq_decide_ne]))
    · exact (exec_por ..).trans (h.scalarP _ rfl (by rw [Bool.decide_or]; simp only [bool_xor_eq_decide_ne]))
    · exact (exec_pxor ..).trans (h.scalarP _ rfl (by simp only [bool_xor_eq_decide_ne]; simp))

end Sys2Proof
end

section
/-! The S slot's transfers, special registers and stage swap (R110, R129, R131, R133, R157). -/

namespace Sys2Proof.Machine

variable {s t : State} {sl : Slot} {n u : Nat}

theorem portConflict_nil (fl : List Flight) : portConflict fl [] = false := rfl

/-- An instruction that puts one effect other than a store in flight meets no other on the write port. -/
theorem portConflict_single {e : Eff} (fl : List Flight) (lat : Nat) (h : ∀ a b g, e ≠ .store a b g) : portConflict fl [(lat, e)] = false :=
  portConflict_of_noStore fl _ (by simpa using h)

theorem Runs.issued_br (h : Runs s t sl slotS [] n u) (ht : (t.core n u).taken = none) (target : BitVec 11) :
    exec (.br sl target) s = .next (t.issuedJump (.br sl target) sl slotS [] n u [] target.toNat) :=
  (exec_br ..).trans (h.issuedJump rfl rfl rfl rfl rfl ht (portConflict_nil _) _ _)

theorem Runs.issued_jr (h : Runs s t sl slotS [] n u) (ht : (t.core n u).taken = none) (ra : BitVec 5) :
    exec (.jr sl ra) s = .next (t.issuedJump (.jr sl ra) sl slotS [] n u [] (((t.core n u).rs ra).toNat % 2048)) :=
  (exec_jr ..).trans (h.issuedJump rfl rfl rfl rfl rfl ht (portConflict_nil _) _ _)

theorem Runs.issued_jal {rd : BitVec 5} (h : Runs s t sl slotS [dS rd] n u) (ht : (t.core n u).taken = none) (target : BitVec 11) :
    exec (.jal sl rd target) s = .next (t.issuedJump (.jal sl rd target) sl slotS [dS rd] n u
      [(1, .setS rd.toNat (BitVec.ofNat 32 (t.ctx n u sl).afterGroup))] target.toNat) :=
  (exec_jal ..).trans (h.issuedJump rfl rfl rfl rfl rfl ht (portConflict_setS _ _ _ _) _ _)

/-- A loop whose counter has run out goes on; one at its last turn clears it; any other counts and transfers (R129). -/
theorem Runs.issued_loop {rd : BitVec 5} (h : Runs s t sl slotS [dS rd] n u) (ht : (t.core n u).taken = none) (target : BitVec 11) {a : Nat}
    (ha : ((t.core n u).rs rd).toNat = a) :
    exec (.loop sl rd target) s = .next
      (if a = 0 then t.issued (.loop sl rd target) sl slotS [dS rd] n u []
       else if a = 1 then t.issued (.loop sl rd target) sl slotS [dS rd] n u [(1, .setS rd.toNat 0)]
       else t.issuedJump (.loop sl rd target) sl slotS [dS rd] n u [(1, .setS rd.toNat (BitVec.ofNat 32 (a - 1)))] target.toNat) := by
  have hzero : (t.core n u).rs rd = 0 ↔ a = 0 := by rw [← ha]; exact BitVec.toNat_inj.symm
  have hone : (t.core n u).rs rd = 1 ↔ a = 1 := by rw [← ha]; exact BitVec.toNat_inj.symm
  have hpred : a ≠ 0 → (t.core n u).rs rd - 1 = BitVec.ofNat 32 (a - 1) := fun hne => by
    refine BitVec.eq_of_toNat_eq ?_
    have hlt := ((t.core n u).rs rd).isLt
    rw [BitVec.toNat_sub, BitVec.toNat_ofNat, ha]
    have hone' : BitVec.toNat (1 : BitVec 32) = 1 := rfl
    omega
  rw [exec_loop]
  split
  · next h0 =>
    have hb : ∀ (x : Ctx), x.c = t.core n u → x.c.rs rd = 0 := fun x hx => by rw [hx]; exact hzero.mpr h0
    exact h.issued (effs := []) (cap := []) rfl rfl rfl rfl (if_pos (hb _ rfl)) (portConflict_nil _) _ _
  · next h0 =>
    have hne : ¬ (t.core n u).rs rd = 0 := mt hzero.mp h0
    split
    · next h1 =>
      exact h.issued (effs := [(1, .setS rd.toNat 0)]) (cap := []) rfl rfl rfl rfl ((if_neg hne).trans (if_pos (hone.mpr h1)))
        (portConflict_setS _ _ _ _) _ _
    · next h1 =>
      have hne1 : ¬ (t.core n u).rs rd = 1 := mt hone.mp h1
      rw [← hpred h0]
      exact h.issuedJump (effs := [(1, .setS rd.toNat ((t.core n u).rs rd - 1))]) rfl rfl rfl rfl ((if_neg hne).trans (if_neg hne1)) ht
        (portConflict_setS _ _ _ _) _ _

/-- A move from the special register of code `k` issues with its value (R131). -/
theorem Runs.issued_smovFromSpecial {rd k : BitVec 5} {x : BitVec 32}
    (he : execSmovFromSpecial sl rd k s = .next (t.issued (.smovFromSpecial sl rd k) sl slotS [dS rd] n u [(1, .setS rd.toNat x)]))
    {y : BitVec 32} (hxy : x = y) :
    exec (.smovFromSpecial sl rd k) s = .next (t.issued (.smovFromSpecial sl rd k) sl slotS [dS rd] n u [(1, .setS rd.toNat y)]) :=
  hxy ▸ (exec_smovFromSpecial ..).trans he

theorem bv_extract_low_eq_ofNat (x : BitVec 64) : x.extractLsb' 0 32 = BitVec.ofNat 32 x.toNat :=
  BitVec.eq_of_toNat_eq (by simp)

theorem bv_extract_high_eq_ofNat (x : BitVec 64) : x.extractLsb' 32 32 = BitVec.ofNat 32 (x.toNat / 2 ^ 32) :=
  BitVec.eq_of_toNat_eq (by simp [Nat.shiftRight_eq_div_pow])

/-- What a move to a special register puts in flight (R131, R133). -/
def smovEff (k : Nat) (v : BitVec 32) : Eff :=
  match k with
  | 7 => .setTensor v
  | 9 => .setAstat (v.truncate 5)
  | k => .setKey (k - 3) v

/-- A move to a special register puts one write in flight. -/
theorem Runs.issued_smovToSpecial {k ra : BitVec 5} (h : Runs s t sl slotS [dSpecial k.toNat] n u)
    (hk : (3 ≤ k.toNat ∧ k.toNat ≤ 7) ∨ k.toNat = 9) :
    exec (.smovToSpecial sl k ra) s =
      .next (t.issued (.smovToSpecial sl k ra) sl slotS [dSpecial k.toNat] n u [(1, smovEff k.toNat ((t.core n u).rs ra))]) := by
  have hs : ∀ a b g, smovEff k.toNat ((t.core n u).rs ra) ≠ .store a b g := fun a b g => by
    unfold smovEff
    split <;> simp
  refine (exec_smovToSpecial ..).trans (h.issued (effs := [(1, smovEff k.toNat ((t.core n u).rs ra))]) (cap := []) rfl rfl rfl
    (by simpa using hk) ?_ (portConflict_single _ _ hs) _ _)
  show (match k.toNat with
      | 7 => Body.ok [(1, .setTensor ((t.core n u).rs ra))] []
      | 9 => .ok [(1, .setAstat (((t.core n u).rs ra).truncate 5))] []
      | k => .ok [(1, .setKey (k - 3) ((t.core n u).rs ra))] []) = _
  unfold smovEff
  split <;> rfl

theorem Runs.issued_wswap (h : Runs s t sl slotS [] n u) (hw : (t.core n u).wldInFlight = false)
    (hf : (t.core n u).idleStage.full = true) :
    exec (.wswap sl) s = .next (t.issued (.wswap sl) sl slotS [] n u [(1, .swap)]) := by
  have hwld : ¬ (t.ctx n u sl).c.wldInFlight = true := by rw [State.ctx, hw]; exact Bool.false_ne_true
  exact (exec_wswap ..).trans (h.issued rfl rfl rfl rfl ((if_neg hwld).trans (if_pos hf)) (portConflict_single _ _ (by simp)) _ _)

end Sys2Proof.Machine

namespace Sys2Proof

open Machine

/-- Settles O2: each instruction is its own lemma; a jal's return address is the bundle after its group. -/
theorem transfersAndSpecialRegisters : Obligations.TransfersAndSpecialRegisters := by
  refine ⟨fun s t sl rd ra target n u ht => ⟨fun h => ⟨h.issued_br ht target, h.issued_jr ht ra⟩, fun h =>
    ⟨h.issued_loop ht target rfl, (t.ctx n u sl).afterGroup, fun he => ?_, h.issued_jal ht target⟩⟩,
    fun s t sl rd ra n u => ⟨fun h => ⟨?_, ?_, ?_, ?_, ?_, ?_, ?_, ?_⟩, fun k h => ⟨?_, ?_, ?_⟩, fun h hw hf => h.issued_wswap hw hf⟩⟩
  · exact if_pos he
  · exact (exec_smovFromSpecial ..).trans (h.issued rfl rfl rfl rfl rfl (portConflict_single _ _ (by simp)) _ _)
  · exact Runs.issued_smovFromSpecial (h.issued rfl rfl rfl rfl rfl (portConflict_setS _ _ _ _) _ _) (bv_extract_low_eq_ofNat _)
  · exact Runs.issued_smovFromSpecial (h.issued rfl rfl rfl rfl rfl (portConflict_setS _ _ _ _) _ _) (bv_extract_high_eq_ofNat _)
  · intro k hk
    interval_cases k <;> exact Runs.issued_smovFromSpecial (h.issued rfl rfl rfl rfl rfl (portConflict_setS _ _ _ _) _ _) rfl
  · exact Runs.issued_smovFromSpecial (h.issued rfl rfl rfl rfl rfl (portConflict_setS _ _ _ _) _ _) rfl
  · exact Runs.issued_smovFromSpecial (h.issued rfl rfl rfl rfl rfl (portConflict_setS _ _ _ _) _ _) (bv_zeroExtend_eq_ofNat _)
  · exact Runs.issued_smovFromSpecial (h.issued rfl rfl rfl rfl rfl (portConflict_setS _ _ _ _) _ _) (bv_zeroExtend_eq_ofNat _)
  · exact Runs.issued_smovFromSpecial (h.issued rfl rfl rfl rfl rfl (portConflict_setS _ _ _ _) _ _) rfl
  · intro h3 h6
    have hkey : smovEff k.toNat ((t.core n u).rs ra) = .setKey (k.toNat - 3) ((t.core n u).rs ra) := by
      unfold smovEff
      split
      · omega
      · omega
      · rfl
    exact hkey ▸ h.issued_smovToSpecial (.inl ⟨h3, by omega⟩)
  · rintro rfl
    exact h.issued_smovToSpecial (.inl (by decide))
  · rintro rfl
    have hcut : (BitVec.truncate 5 ((t.core n u).rs ra)) = BitVec.ofNat 5 ((t.core n u).rs ra).toNat := bv_zeroExtend_eq_ofNat _
    exact hcut ▸ h.issued_smovToSpecial (.inr rfl)

end Sys2Proof
end

section
/-! The accumulator instructions (R47, R48, R114, R115, R137 to R144). -/

namespace Sys2Proof.Machine

variable {s t : State} {sl : Slot} {n u : Nat}

/-- A write port that is free at each new store's latency sees no conflict (R99). -/
theorem portConflict_of_portFree {c : Core} {effs : List (Nat × Eff)}
    (h : ∀ p ∈ effs, ∀ a l g, p.2 = .store a l g → c.portFree p.1) : portConflict c.flight effs = false := by
  refine List.any_eq_false.mpr fun p hp => ?_
  split
  · next a l g he =>
    refine (Bool.not_eq_true _).mpr (List.any_eq_false.mpr fun f hf => ?_)
    split
    · next a' l' g' hfe => exact fun hleft => h p hp a l g he f hf (of_decide_eq_true hleft) a' l' g' hfe
    · exact Bool.false_ne_true
  · exact Bool.false_ne_true

theorem vecBytes_ne_store (vd : BitVec 5) (lo n data a : Nat) (l : List (BitVec 8)) (g : BitVec 2) : vecBytes vd lo n data ≠ .store a l g :=
  fun h => nomatch h

theorem statusEffs_eq (lat : Nat) (tgt : BitVec 4) (off : Nat) (st : BitVec 5) (q : QEntry) :
    statusEffs lat tgt off st q = if st = 0 then [] else
      [(lat, Eff.setS st.toNat (statusPair tgt off q).1), (lat, Eff.setS (st.toNat + 1) (statusPair tgt off q).2)] := rfl

theorem statusEffs_ne_store {lat : Nat} {tgt : BitVec 4} {off : Nat} {st : BitVec 5} {q : QEntry} :
    ∀ p ∈ statusEffs lat tgt off st q, ∀ a l g, p.2 ≠ .store a l g := by
  rw [statusEffs_eq]
  split
  · simp
  · simp

theorem Runs.issued_mma {q va : BitVec 5} {fmt seg : BitVec 4} (h : Runs s t sl slotM [128 + q.toNat] n u)
    (hs : (t.core n u).activeStage.isEmpty = false) (hp : fmtPair fmt (t.core n u).activeStage.fmt = true)
    (hl : seg.toNat < 8 ∨ fmtBits fmt = 16) :
    exec (.mma sl fmt q va seg) s = .next (t.issued (.mma sl fmt q va seg) sl slotM [128 + q.toNat] n u
        [(4, .accAdd q.toNat (mmaLanes fmt ((t.core n u).rq q.toNat).anchor.toInt ((t.core n u).rv va) ((t.core n u).rvs va) seg.toNat
          (t.core n u).activeStage 0))]) := by
  have hs' : ¬ (t.ctx n u sl).c.activeStage.isEmpty = true := by simpa [State.ctx] using hs
  have hp' : ¬ (!fmtPair fmt (t.ctx n u sl).c.activeStage.fmt) = true := by simpa [State.ctx] using hp
  rw [← h.sound]
  exact (exec_mma ..).trans (h.issued rfl rfl rfl (by simpa using hl) ((if_neg hs').trans (if_neg hp')) (portConflict_single _ _ (by simp)) _ _)

/-- A clear to the anchor that its immediate field or its scalar names (R48, R139). -/
theorem Runs.issued_qclr {q qb : BitVec 5} {imm : Bool} {anc a : BitVec 11}
    (h : Runs s t sl slotM ((List.range (qb.toNat - q.toNat + 1)).map fun i => 128 + q.toNat + i) n u) (hq : q.toNat ≤ qb.toNat)
    (ha : (imm = true ∧ a = anc) ∨ (imm = false ∧ anc.toNat < 32 ∧ -1024 ≤ ((t.core n u).rs (anc.truncate 5)).toInt ∧
      ((t.core n u).rs (anc.truncate 5)).toInt ≤ 1023 ∧ a = BitVec.ofInt 11 ((t.core n u).rs (anc.truncate 5)).toInt)) :
    exec (.qclr sl q qb imm anc) s = .next (t.issued (.qclr sl q qb imm anc) sl slotM
      ((List.range (qb.toNat - q.toNat + 1)).map fun i => 128 + q.toNat + i) n u [(1, .accClear q.toNat qb.toNat a)]) := by
  rcases ha with ⟨rfl, rfl⟩ | ⟨rfl, hanc, hlo, hhi, rfl⟩
  · exact (exec_qclr ..).trans (h.issued rfl rfl rfl (by simpa using hq) rfl (portConflict_single _ _ (by simp)) _ _)
  · have hin : ¬ (((t.ctx n u sl).c.rs (anc.truncate 5)).toInt < -1024 ∨ 1023 < ((t.ctx n u sl).c.rs (anc.truncate 5)).toInt) := by
      simp only [State.ctx]
      omega
    exact (exec_qclr ..).trans (h.issued rfl rfl rfl (by simpa using ⟨hq, hanc⟩) (if_neg hin)
      (portConflict_single _ _ (by simp)) _ _)

theorem readoutShape_getD {tgt : BitVec 4} {pos : BitVec 3} {len lo : Nat} (h : readoutShape tgt pos = some (len, lo)) :
    (readoutShape tgt pos).getD (64, 0) = (len, lo) := by rw [h]; rfl

theorem Runs.issued_qread {vd q sb st : BitVec 5} {tgt : BitVec 4} {pos : BitVec 3} {rm : BitVec 2} {sat : Bool} {off : BitVec 7}
    {len lo : Nat} (h : Runs s t sl slotM (dV vd :: statusDests st) n u) (hok : readoutOk tgt pos rm sat sb st off = true)
    (hsh : readoutShape tgt pos = some (len, lo)) :
    exec (.qread sl vd q tgt pos rm sat sb st off) s =
      .next (t.issued (.qread sl vd q tgt pos rm sat sb st off) sl slotM (dV vd :: statusDests st) n u
        ((if rm = 2 then 5 else 3, vecBytes vd lo len (readoutBytes tgt pos (rmOf rm) sat off.toNat (t.ctx n u sl).seed
            ((t.core n u).rs sb) ((t.core n u).rq q.toNat))) ::
          statusEffs (if rm = 2 then 5 else 3) tgt off.toNat st ((t.core n u).rq q.toNat))) := by
  have hlo : lo = ((readoutShape tgt pos).getD (64, 0)).2 := by rw [readoutShape_getD hsh]
  have hlen : len = ((readoutShape tgt pos).getD (64, 0)).1 := by rw [readoutShape_getD hsh]
  subst hlo hlen
  refine (exec_qread ..).trans (h.issued rfl rfl rfl hok rfl (portConflict_of_noStore _ _ ?_) _ _)
  simpa [vecBytes_ne_store] using fun a b => statusEffs_ne_store (a, b)

theorem Runs.issued_qst {sa q sb st : BitVec 5} {tgt : BitVec 4} {pos : BitVec 3} {rm : BitVec 2} {sat : Bool} {off : BitVec 7}
    {len lo : Nat} (h : Runs s t sl slotM (statusDests st) n u) (hok : readoutOk tgt pos rm sat sb st off = true)
    (hsh : readoutShape tgt pos = some (len, lo)) (hal : ((t.core n u).rs sa).toNat % len = 0)
    (hin : ((t.core n u).rs sa).toNat + len ≤ tileSize) (hp : (t.core n u).portFree (if rm = 2 then 6 else 4)) :
    exec (.qst sl sa q tgt pos rm sat sb st off) s =
      .next (t.issued (.qst sl sa q tgt pos rm sat sb st off) sl slotM (statusDests st) n u
        ((if rm = 2 then 6 else 4, .store ((t.core n u).rs sa).toNat (bytesOfNat len (readoutBytes tgt pos (rmOf rm) sat off.toNat
            (t.ctx n u sl).seed ((t.core n u).rs sb) ((t.core n u).rq q.toNat))) (t.core n u).prov) ::
          statusEffs (if rm = 2 then 6 else 4) tgt off.toNat st ((t.core n u).rq q.toNat))) := by
  have hlen : len = ((readoutShape tgt pos).getD (64, 0)).1 := by rw [readoutShape_getD hsh]
  subst hlen
  have hgood : ¬ (((t.ctx n u sl).c.rs sa).toNat % ((readoutShape tgt pos).getD (64, 0)).1 ≠ 0 ∨
      tileSize < ((t.ctx n u sl).c.rs sa).toNat + ((readoutShape tgt pos).getD (64, 0)).1) := by
    simp only [State.ctx]
    omega
  refine (exec_qst ..).trans (h.issued rfl rfl rfl hok (if_neg hgood) (portConflict_of_portFree ?_) _ _)
  rintro p hmem a l g hst
  rcases List.mem_cons.mp hmem with rfl | hmem
  · exact hp
  · exact absurd hst (statusEffs_ne_store p hmem a l g)

theorem Runs.issued_qstat {st q : BitVec 5} (h : Runs s t sl slotM [dS st, dS (st + 1)] n u) (heven : st.toNat % 2 = 0) (hne : st ≠ 0) :
    exec (.qstat sl st q false) s = .next (t.issued (.qstat sl st q false) sl slotM [dS st, dS (st + 1)] n u
        (statusEffs 3 0 0 st ((t.core n u).rq q.toNat))) :=
  (exec_qstat ..).trans (h.issued rfl rfl rfl ((Bool.and_eq_true _ _).mpr ⟨decide_eq_true ⟨heven, hne⟩, rfl⟩) rfl
    (portConflict_of_noStore _ _ statusEffs_ne_store) _ _)

end Sys2Proof.Machine

namespace Sys2Proof

open Machine

/-- Settles O3: mma, the clear and the readouts each by its own lemma. -/
theorem accumulatorOps : Obligations.AccumulatorOps := by
  intro s t sl n u q
  refine ⟨fun fmt seg va h hs hp hl => h.issued_mma hs hp hl, fun qb anc hq h => ⟨?_, ?_⟩,
    fun vd sb st tgt pos rm sat off len lo hok hsh => ⟨fun h => ?_, fun sa h hal hin hp => ?_⟩, fun st heven hne h => ?_, fun sd h => ?_,
    fun vd pos h => ?_⟩
  · exact h.issued_qclr hq (.inl ⟨rfl, rfl⟩)
  · rintro r rfl hlo hhi
    have hr : (BitVec.ofNat 11 r.toNat).truncate 5 = r := BitVec.eq_of_toNat_eq (by simp)
    have hlt : (BitVec.ofNat 11 r.toNat).toNat < 32 := by simp; omega
    refine h.issued_qclr hq (.inr ⟨rfl, hlt, ?_⟩)
    rw [hr]
    exact ⟨hlo, hhi, rfl⟩
  · exact h.issued_qread hok hsh
  · exact h.issued_qst hok hsh hal hin hp
  · refine (h.issued_qstat heven hne).trans ?_
    rw [statusEffs_eq, if_neg hne]
  · exact (exec_qanc ..).trans (h.issued rfl rfl rfl rfl rfl (portConflict_single _ _ (by simp)) _ _)
  · exact (exec_qres ..).trans (h.issued rfl rfl rfl rfl rfl (portConflict_single _ _ (vecBytes_ne_store _ _ _ _)) _ _)

end Sys2Proof
end

section
/-! Vector arithmetic: lanes of binary32, of BF16 and of integers (R64, R145, R147). -/

namespace Sys2Proof.Machine

variable {s t : State} {sl : Slot} {n u : Nat}

theorem condEffs_ne_store {lat : Nat} {f : BitVec 5} : ∀ p ∈ condEffs lat f, ∀ a l g, p.2 ≠ .store a l g := by
  unfold condEffs
  split <;> simp

/-- An instruction whose body gives a whole register with its conditions. -/
theorem Runs.vec {vd : BitVec 5} (h : Runs s t sl slotM [dV vd] n u) {op : Op} (h1 : op.sl = sl) (h2 : op.slot = slotM)
    (h3 : op.dests = [dV vd]) (hl : op.legal = true) {lat : Nat} {r r' : Nat × BitVec 5} {cap : List (Nat × Nat)}
    (hb : op.body (t.ctx n u sl) = vecBody lat vd r cap) (hr : r = r') :
    coreOnly s op = .next (t.issued op.i sl slotM [dV vd] n u ((lat, vecWhole vd r'.1) :: condEffs lat r'.2)) := by
  subst hr
  exact h.issued h1 h2 h3 hl hb (portConflict_of_noStore _ _ (List.forall_mem_cons.mpr ⟨vecBytes_ne_store _ _ _ _, condEffs_ne_store⟩)) _ _

theorem foldl_or_zero (l : List α) : l.foldl (fun (acc : BitVec 5) _ => acc ||| 0) 0 = 0 := by
  induction l with
  | nil => rfl
  | cons x l ih => simp [ih]

/-- Lanes that raise no condition. -/
theorem packRes_quiet (w k : Nat) (f : Nat → Nat) : packRes w k (fun i => (f i, 0)) = (packLanes w k f, 0) := by
  simp only [packRes, packLanes, List.foldr_map, List.foldl_map, foldl_or_zero]

theorem packRes_congr {w k : Nat} {f g : Nat → LaneRes} (h : ∀ i, f i = g i) : packRes w k f = packRes w k g :=
  congrArg (packRes w k) (funext h)

/-- A binary32 lane narrowed to BF16 in the instruction's mode with element index `base` + i (R64, R147). -/
def narrowLane (r1 : Bool) (rm : BitVec 2) (seed : Seed) (base : BitVec 32) (i : Nat) (p : LaneRes) : LaneRes :=
  let q := narrowIeee r1 fmtBF16 (rmOf rm) (if rm = 2 then seed.rnd24 (base + BitVec.ofNat 32 i) else 0) p.1
  (q.1, p.2 ||| q.2)

/-- A BF16 result: binary32 lanes narrowed (R64, R147). -/
def bf16Lanes (r1 : Bool) (rm : BitVec 2) (seed : Seed) (base : BitVec 32) (f : Nat → LaneRes) : Nat × BitVec 5 :=
  packRes 16 32 fun i => narrowLane r1 rm seed base i (f i)

theorem floatLanes_f32 (x : Ctx) (rm : BitVec 2) (sb : BitVec 5) (f : (Nat → Nat) → Nat → LaneRes) :
    floatLanes x 0 rm sb f = packRes 32 16 (f id) := rfl

theorem bf16_eq : (1 : BitVec 2) = tyBf16 := rfl
theorem bf16_ne_i32 : ¬ (1 : BitVec 2) = tyI32 := by decide
theorem tyWidth_bf16 : tyWidth 1 = 16 := rfl
theorem tyLanes_bf16 : tyLanes 1 = 32 := rfl

theorem floatLanes_bf16 (x : Ctx) (rm : BitVec 2) (sb : BitVec 5) (f : (Nat → Nat) → Nat → LaneRes) :
    floatLanes x 1 rm sb f = bf16Lanes x.s.rev1 rm x.seed (x.c.rs sb) (f fun a => a * 2 ^ 16) := by
  rewrite [floatLanes, bf16Lanes]
  refine (if_pos bf16_eq).trans (packRes_congr fun i => ?_)
  rewrite [show widenBf16 = fun a => a * 2 ^ 16 from rfl, narrowLane]
  generalize f (fun a => a * 2 ^ 16) i = p
  obtain ⟨v, fl⟩ := p
  generalize narrowIeee = N
  rfl

@[simp] theorem State.ctx_s (t : State) (n u : Nat) (sl : Slot) : (t.ctx n u sl).s = t := (rfl)
@[simp] theorem State.ctx_c (t : State) (n u : Nat) (sl : Slot) : (t.ctx n u sl).c = t.core n u := (rfl)

section
variable {vd : BitVec 5} (h : Runs s t sl slotM [dV vd] n u) (i : Instr) (va vb : BitVec 5)
include h

theorem Runs.vecArith_f32 (f : Bool → Nat → Nat → LaneRes) (g : BitVec 32 → BitVec 32 → BitVec 32) {r : Nat × BitVec 5}
    (hr : packRes 32 16 (fun i => f t.rev1 (laneAt ((t.core n u).rv va) 32 i) (laneAt ((t.core n u).rv vb) 32 i)) = r) :
    vecArith s i sl 0 vd va vb 0 0 f g = .next (t.issued i sl slotM [dV vd] n u ((4, vecWhole vd r.1) :: condEffs 4 r.2)) :=
  h.vec rfl rfl rfl rfl rfl hr

theorem Runs.vecArith_bf16 {rm : BitVec 2} (hrm : rm ≠ 3) (sb : BitVec 5) (f : Bool → Nat → Nat → LaneRes)
    (g : BitVec 32 → BitVec 32 → BitVec 32) {r : Nat × BitVec 5}
    (hr : bf16Lanes t.rev1 rm (t.ctx n u sl).seed ((t.core n u).rs sb) (fun i => f t.rev1 (laneAt ((t.core n u).rv va) 16 i * 2 ^ 16)
      (laneAt ((t.core n u).rv vb) 16 i * 2 ^ 16)) = r) :
    vecArith s i sl 1 vd va vb rm sb f g = .next (t.issued i sl slotM [dV vd] n u ((4, vecWhole vd r.1) :: condEffs 4 r.2)) := by
  unfold vecArith
  refine h.vec rfl rfl rfl (decide_eq_true hrm) rfl (.trans ?_ hr)
  rewrite [State.ctx_s, State.ctx_c]
  exact (if_neg bf16_ne_i32).trans (floatLanes_bf16 ..)

theorem Runs.vecArith_i32 (f : Bool → Nat → Nat → LaneRes) {g : BitVec 32 → BitVec 32 → BitVec 32} {k : Int → Int → Int}
    (hg : ∀ a b, g a b = BitVec.ofInt 32 (k a.toInt b.toInt)) {r : Nat × BitVec 5}
    (hr : (packLanes 32 16 fun i => (BitVec.ofInt 32 (k (BitVec.ofNat 32 (laneAt ((t.core n u).rv va) 32 i)).toInt
        (BitVec.ofNat 32 (laneAt ((t.core n u).rv vb) 32 i)).toInt)).toNat, 0) = r) :
    vecArith s i sl 2 vd va vb 0 0 f g = .next (t.issued i sl slotM [dV vd] n u ((4, vecWhole vd r.1) :: condEffs 4 r.2)) := by
  simp only [← hg] at hr
  exact h.vec rfl rfl rfl rfl rfl hr

theorem Runs.vecMinMax_f32 (max : Bool) {r : Nat × BitVec 5}
    (hr : packRes 32 16 (fun i => f32MinMax t.rev1 max (laneAt ((t.core n u).rv va) 32 i) (laneAt ((t.core n u).rv vb) 32 i)) = r) :
    vecMinMax s i sl max 0 vd va vb = .next (t.issued i sl slotM [dV vd] n u ((4, vecWhole vd r.1) :: condEffs 4 r.2)) :=
  h.vec rfl rfl rfl rfl rfl hr

theorem Runs.vecMinMax_bf16 (max : Bool) {r : Nat × BitVec 5}
    (hr : packRes 16 32 (fun i =>
      ((f32MinMax t.rev1 max (laneAt ((t.core n u).rv va) 16 i * 2 ^ 16) (laneAt ((t.core n u).rv vb) 16 i * 2 ^ 16)).1 / 2 ^ 16,
        (f32MinMax t.rev1 max (laneAt ((t.core n u).rv va) 16 i * 2 ^ 16) (laneAt ((t.core n u).rv vb) 16 i * 2 ^ 16)).2)) = r) :
    vecMinMax s i sl max 1 vd va vb = .next (t.issued i sl slotM [dV vd] n u ((4, vecWhole vd r.1) :: condEffs 4 r.2)) := by
  unfold vecMinMax
  refine h.vec rfl rfl rfl rfl rfl (.trans ?_ hr)
  rewrite [State.ctx_s, State.ctx_c]
  refine (if_neg bf16_ne_i32).trans ((if_pos bf16_eq).trans (packRes_congr fun i => ?_))
  rewrite [widenBf16, widenBf16]
  generalize f32MinMax _ _ _ _ = p
  obtain ⟨b, fl⟩ := p
  rfl

theorem Runs.vecMin_i32 {r : Nat × BitVec 5}
    (hr : (packLanes 32 16 fun i => (BitVec.ofInt 32 (min (BitVec.ofNat 32 (laneAt ((t.core n u).rv va) 32 i)).toInt
        (BitVec.ofNat 32 (laneAt ((t.core n u).rv vb) 32 i)).toInt)).toNat, 0) = r) :
    vecMinMax s i sl false 2 vd va vb = .next (t.issued i sl slotM [dV vd] n u ((4, vecWhole vd r.1) :: condEffs 4 r.2)) := by
  simp only [← bv_min_eq_ofInt] at hr
  exact h.vec rfl rfl rfl rfl rfl hr

theorem Runs.vecMax_i32 {r : Nat × BitVec 5}
    (hr : (packLanes 32 16 fun i => (BitVec.ofInt 32 (max (BitVec.ofNat 32 (laneAt ((t.core n u).rv va) 32 i)).toInt
        (BitVec.ofNat 32 (laneAt ((t.core n u).rv vb) 32 i)).toInt)).toNat, 0) = r) :
    vecMinMax s i sl true 2 vd va vb = .next (t.issued i sl slotM [dV vd] n u ((4, vecWhole vd r.1) :: condEffs 4 r.2)) := by
  simp only [← bv_max_eq_ofInt] at hr
  exact h.vec rfl rfl rfl rfl rfl hr

theorem Runs.issued_vcmp_f32 {cond : BitVec 3} (hc : cond.toNat < 7) {r : Nat × BitVec 5}
    (hr : packRes 32 16 (fun i =>
      let p := f32Cmp cond.toNat (laneAt ((t.core n u).rv va) 32 i) (laneAt ((t.core n u).rv vb) 32 i)
      (if p.1 then 2 ^ 32 - 1 else 0, p.2)) = r) :
    exec (.vcmp sl 0 cond vd va vb) s = .next (t.issued (.vcmp sl 0 cond vd va vb) sl slotM [dV vd] n u
      ((4, vecWhole vd r.1) :: condEffs 4 r.2)) :=
  (exec_vcmp ..).trans (h.vec rfl rfl rfl (decide_eq_true hc) rfl hr)

theorem Runs.issued_vcmp_bf16 {cond : BitVec 3} (hc : cond.toNat < 7) {r : Nat × BitVec 5}
    (hr : packRes 16 32 (fun i =>
      (if (f32Cmp cond.toNat (laneAt ((t.core n u).rv va) 16 i * 2 ^ 16) (laneAt
    ((t.core n u).rv vb) 16 i * 2 ^ 16)).1 then 2 ^ 16 - 1 else 0,
        (f32Cmp cond.toNat (laneAt ((t.core n u).rv va) 16 i * 2 ^ 16) (laneAt ((t.core n u).rv vb) 16 i * 2 ^ 16)).2)) = r) :
    exec (.vcmp sl 1 cond vd va vb) s = .next (t.issued (.vcmp sl 1 cond vd va vb) sl slotM [dV vd] n u
      ((4, vecWhole vd r.1) :: condEffs 4 r.2)) := by
  rewrite [exec_vcmp, execVcmp]
  refine h.vec rfl rfl rfl (decide_eq_true hc) rfl (.trans ?_ hr)
  rewrite [State.ctx_c, tyWidth_bf16, tyLanes_bf16]
  refine packRes_congr fun i => (if_neg bf16_ne_i32).trans ?_
  rewrite [if_pos bf16_eq]
  extract_lets wid
  generalize hp : f32Cmp _ (wid _) (wid _) = p
  replace hp : f32Cmp cond.toNat (laneAt ((t.core n u).rv va) 16 i * 2 ^ 16) (laneAt ((t.core n u).rv vb) 16 i * 2 ^ 16) = p := hp
  rewrite [hp]
  obtain ⟨b, fl⟩ := p
  rfl

theorem Runs.issued_vcmp_i32 {cond : BitVec 3} (hc : cond.toNat < 6) {p : Int → Int → Bool}
    (hp : ∀ a b, intCond cond.toNat a b = p a.toInt b.toInt) {r : Nat × BitVec 5}
    (hr : (packLanes 32 16 fun i => if p (BitVec.ofNat 32 (laneAt ((t.core n u).rv va) 32 i)).toInt
        (BitVec.ofNat 32 (laneAt ((t.core n u).rv vb) 32 i)).toInt then 2 ^ 32 - 1 else 0, 0) = r) :
    exec (.vcmp sl 2 cond vd va vb) s = .next (t.issued (.vcmp sl 2 cond vd va vb) sl slotM [dV vd] n u
      ((4, vecWhole vd r.1) :: condEffs 4 r.2)) := by
  simp only [← hp, ← packRes_quiet] at hr
  exact (exec_vcmp ..).trans (h.vec rfl rfl rfl (decide_eq_true hc) rfl hr)

end

/-- The conditions of R126 on signed lanes as orders of integers. -/
theorem intCond_of_cond {cond : BitVec 3} {p : Int → Int → Bool}
    (hp : cond = 0 ∧ p = (fun x y => decide (x = y)) ∨ cond = 1 ∧ p = (fun x y => decide (x ≠ y)) ∨
      cond = 2 ∧ p = (fun x y => decide (x < y)) ∨ cond = 3 ∧ p = (fun x y => decide (x ≤ y)) ∨
      cond = 4 ∧ p = (fun x y => decide (x > y)) ∨ cond = 5 ∧ p = (fun x y => decide (x ≥ y))) :
    cond.toNat < 6 ∧ ∀ a b : BitVec 32, intCond cond.toNat a b = p a.toInt b.toInt := by
  rcases hp with ⟨rfl, rfl⟩ | ⟨rfl, rfl⟩ | ⟨rfl, rfl⟩ | ⟨rfl, rfl⟩ | ⟨rfl, rfl⟩ | ⟨rfl, rfl⟩
  · exact ⟨by decide, fun a b => by simp [intCond, BitVec.toInt_inj]⟩
  · exact ⟨by decide, fun a b => by simp [intCond, BitVec.toInt_inj]⟩
  · exact ⟨by decide, fun a b => rfl⟩
  · refine ⟨by decide, fun a b => ?_⟩
    simp only [← Int.not_lt, decide_not]
    rfl
  · exact ⟨by decide, fun a b => rfl⟩
  · refine ⟨by decide, fun a b => ?_⟩
    simp only [ge_iff_le, ← Int.not_lt, decide_not]
    rfl

end Sys2Proof.Machine

namespace Sys2Proof

open Machine

/-- Settles O4: each operation by the lemma of its lanes' type. -/
theorem vectorArithmetic : Obligations.VectorArithmetic := by
  intro s t sl vd va vb vc sb rm cond n u h c r1 lane word half gives bf ints
  have hbf : ∀ f, bf16Lanes t.rev1 rm (t.ctx n u sl).seed (c.rs sb) f = bf f := fun f => packRes_congr fun i => by
    rewrite [narrowLane]
    generalize narrowIeee _ _ _ _ _ = q
    obtain ⟨b, fl⟩ := q
    rfl
  refine ⟨?_, ?_, ?_, ?_, fun hrm => ⟨?_, ?_, ?_, ?_⟩, ?_, ?_, ?_, ?_, ?_, ?_, ?_, ?_, ?_, fun hc => ⟨?_, ?_⟩, fun p hp => ?_⟩
  · exact (exec_vadd ..).trans (h.vecArith_f32 _ va vb _ _ rfl)
  · exact (exec_vsub ..).trans (h.vecArith_f32 _ va vb _ _ rfl)
  · exact (exec_vmul ..).trans (h.vecArith_f32 _ va vb _ _ rfl)
  · exact (exec_vfma ..).trans (h.vec rfl rfl rfl rfl rfl (floatLanes_f32 ..))
  · exact (exec_vadd ..).trans (h.vecArith_bf16 _ va vb hrm _ _ _ (hbf fun i => f32Add r1 (half va i) (half vb i)))
  · exact (exec_vsub ..).trans (h.vecArith_bf16 _ va vb hrm _ _ _ (hbf fun i => f32Sub r1 (half va i) (half vb i)))
  · exact (exec_vmul ..).trans (h.vecArith_bf16 _ va vb hrm _ _ _ (hbf fun i => f32Mul r1 (half va i) (half vb i)))
  · exact (exec_vfma ..).trans (h.vec rfl rfl rfl (decide_eq_true hrm) rfl 
      ((floatLanes_bf16 ..).trans (hbf fun i => f32Fma r1 (half va i) (half vb i) (half vc i))))
  · exact (exec_vadd ..).trans (h.vecArith_i32 _ va vb _ bv_add_eq_ofInt rfl)
  · exact (exec_vsub ..).trans (h.vecArith_i32 _ va vb _ bv_sub_eq_ofInt rfl)
  · exact (exec_vmul ..).trans (h.vecArith_i32 _ va vb _ bv_mul_eq_ofInt rfl)
  · exact (exec_vmin ..).trans (h.vecMinMax_f32 _ va vb _ rfl)
  · exact (exec_vmax ..).trans (h.vecMinMax_f32 _ va vb _ rfl)
  · exact (exec_vmin ..).trans (h.vecMinMax_bf16 _ va vb _ rfl)
  · exact (exec_vmax ..).trans (h.vecMinMax_bf16 _ va vb _ rfl)
  · exact (exec_vmin ..).trans (h.vecMin_i32 _ va vb rfl)
  · exact (exec_vmax ..).trans (h.vecMax_i32 _ va vb rfl)
  · exact h.issued_vcmp_f32 va vb hc rfl
  · exact h.issued_vcmp_bf16 va vb hc rfl
  · obtain ⟨hc, hi⟩ := intCond_of_cond hp
    exact h.issued_vcmp_i32 va vb hc hi rfl

end Sys2Proof
end

section
/-! Vector selects, bitwise operations, signs, moves, permutes, reductions and tests (R66, R136, R145, R146, R151). -/

namespace Sys2Proof.Machine

variable {s t : State} {sl : Slot} {n u : Nat}

theorem tyWidth_of_ne {ty : BitVec 2} (h : ty ≠ 3) : tyWidth ty = if ty = 1 then 16 else 32 := by
  have h3 : ¬ ty = tyB8 := h
  rw [tyWidth, if_neg h3]
  rfl

theorem tyLanes_of_ne {ty : BitVec 2} (h : ty ≠ 3) : tyLanes ty = if ty = 1 then 32 else 16 := by
  rw [tyLanes, tyWidth_of_ne h]
  split <;> rfl

theorem ty_ne_three {ty : BitVec 2} (h : ty = 0 ∨ ty = 1) : ty ≠ 3 := by
  rcases h with rfl | rfl <;> decide

section
variable {vd : BitVec 5} (h : Runs s t sl slotM [dV vd] n u)
include h

/-- An instruction whose body gives a whole register and raises no condition. -/
theorem Runs.vecQuiet {op : Op} (h1 : op.sl = sl) (h2 : op.slot = slotM) (h3 : op.dests = [dV vd]) (hl : op.legal = true) {lat d e : Nat}
    {cap : List (Nat × Nat)} (hb : op.body (t.ctx n u sl) = vecBody lat vd (d, 0) cap) (hd : d = e) :
    coreOnly s op = .next (t.issued op.i sl slotM [dV vd] n u [(lat, vecWhole vd e)]) :=
  h.vec h1 h2 h3 hl hb (congrArg (fun x => (x, 0)) hd)

theorem Runs.vecBitwise (i : Instr) (va vb : BitVec 5) {f : BitVec 512 → BitVec 512 → BitVec 512} {e : Nat}
    (he : (f ((t.core n u).rv va) ((t.core n u).rv vb)).toNat = e) :
    vecBitwise s i sl vd va vb f = .next (t.issued i sl slotM [dV vd] n u [(4, vecWhole vd e)]) :=
  h.vecQuiet rfl rfl rfl rfl rfl he

theorem Runs.vecSign (i : Instr) {ty : BitVec 2} (hty : ty = 0 ∨ ty = 1) (va vb : BitVec 5) (f : Nat → Nat → Nat → Nat) {e : Nat}
    (he : packLanes (if ty = 1 then 16 else 32) (if ty = 1 then 32 else 16) (fun i => f (2 ^ ((if ty = 1 then 16 else 32) - 1))
      (laneAt ((t.core n u).rv va) (if ty = 1 then 16 else 32) i) (laneAt ((t.core n u).rv vb) (if ty = 1 then 16 else 32) i)) = e) :
    vecSign s i sl ty vd va vb f = .next (t.issued i sl slotM [dV vd] n u [(4, vecWhole vd e)]) := by
  rw [← tyWidth_of_ne (ty_ne_three hty), ← tyLanes_of_ne (ty_ne_three hty)] at he
  exact h.vecQuiet rfl rfl rfl (decide_eq_true hty) rfl he

theorem Runs.issued_vsel {ty : BitVec 2} (hty : ty ≠ 3) (va vb vc : BitVec 5) {e : Nat}
    (he : packLanes (if ty = 1 then 16 else 32) (if ty = 1 then 32 else 16) (fun i =>
      if laneAt ((t.core n u).rv vc) (if ty = 1 then 16 else 32) i = 0 then laneAt ((t.core n u).rv vb) (if ty = 1 then 16 else 32) i
      else laneAt ((t.core n u).rv va) (if ty = 1 then 16 else 32) i) = e) :
    exec (.vsel sl ty vd va vb vc) s = .next (t.issued (.vsel sl ty vd va vb vc) sl slotM [dV vd] n u [(4, vecWhole vd e)]) := by
  rw [← tyWidth_of_ne hty, ← tyLanes_of_ne hty] at he
  simp only [← ite_not (p := laneAt _ _ _ = 0)] at he
  exact (exec_vsel ..).trans (h.vecQuiet rfl rfl rfl (decide_eq_true hty) rfl he)

/-- The binary32 input of a reduction's lane `i` (R147). -/
def reduceInput (c : Core) (ty : BitVec 2) (va : BitVec 5) (i : Nat) : Nat :=
  if ty = 1 then laneAt (c.rv va) 16 i * 2 ^ 16 else laneAt (c.rv va) 32 i

theorem Runs.vecReduce (i : Instr) {ty : BitVec 2} (hty : ty = 0 ∨ ty = 1) (va : BitVec 5) (f : Bool → Nat → Nat → LaneRes) {r : LaneRes}
    (hr : reduceTree (f t.rev1) ((List.range (if ty = 1 then 32 else 16)).map fun i => (reduceInput (t.core n u) ty va i, 0)) = r) :
    vecReduce s i sl ty vd va f =
      .next (t.issued i sl slotM [dV vd] n u ((6, vecWhole vd (packLanes 32 16 fun _ => r.1)) :: condEffs 6 r.2)) := by
  have hin : (fun i => ((if ty = tyBf16 then widenBf16 else id) (laneAt ((t.core n u).rv va) (tyWidth ty) i), (0 : BitVec 5))) =
      fun i => (reduceInput (t.core n u) ty va i, 0) := by
    funext i
    rcases hty with rfl | rfl <;> rfl
  rw [← tyLanes_of_ne (ty_ne_three hty), ← hin] at hr
  refine h.vec (r' := (packLanes 32 16 fun _ => r.1, r.2)) rfl rfl rfl (decide_eq_true hty) rfl ?_
  exact congrArg (fun r : LaneRes => (packLanes 32 16 fun _ => r.1, r.2)) hr

end

/-- The lanes a test counts as set (R145). -/
theorem laneNonzero_iff (ty : BitVec 2) (x : Nat) : laneNonzero ty x = true ↔
    if ty = 0 ∨ ty = 1 then x % 2 ^ (tyWidth ty - 1) ≠ 0 else x ≠ 0 := by
  by_cases h0 : ty = 0
  · subst h0
    exact decide_eq_true_iff
  by_cases h1 : ty = 1
  · subst h1
    exact decide_eq_true_iff
  have hf : ¬ ty = tyF32 := h0
  have hb : ¬ ty = tyBf16 := h1
  rw [laneNonzero, if_neg hf, if_neg hb, if_neg (not_or.mpr ⟨h0, h1⟩), decide_eq_true_iff]

end Sys2Proof.Machine

namespace Sys2Proof

open Machine

/-- Settles O5: each instruction by the lemma of its form, and the tests by what a lane counts as set. -/
theorem vectorMovesAndReductions : Obligations.VectorMovesAndReductions := by
  refine ⟨fun s t sl vd va vb vc sa sd k ty sel n u => ⟨fun h => ⟨fun hty => ?_, ?_, ?_, ?_, fun hty => ⟨?_, ?_, ?_⟩, ?_, ?_, ?_, ?_, fun hk => ?_⟩,
    fun h hk => ?_⟩, fun s t sl vd va pd ty n u => ⟨fun h hty => ⟨?_, ?_, ?_⟩, fun h => ⟨⟨(List.range (tyLanes ty)).any fun i => laneNonzero ty (laneAt ((t.core n u).rv va) (tyWidth ty) i), ?_, ?_⟩,
      (List.range (tyLanes ty)).all fun i => laneNonzero ty (laneAt ((t.core n u).rv va) (tyWidth ty) i), ?_, ?_⟩⟩⟩
  · exact h.issued_vsel hty va vb vc rfl
  · exact (exec_vand ..).trans (h.vecBitwise _ va vb (BitVec.toNat_and _ _))
  · exact (exec_vor ..).trans (h.vecBitwise _ va vb (BitVec.toNat_or _ _))
  · exact (exec_vxor ..).trans (h.vecBitwise _ va vb (BitVec.toNat_xor _ _))
  · exact (exec_vneg ..).trans (h.vecSign _ hty va 0 _ rfl)
  · exact (exec_vabs ..).trans (h.vecSign _ hty va 0 _ rfl)
  · exact (exec_vcopysign ..).trans (h.vecSign _ hty va vb _ rfl)
  · exact (exec_vbcast ..).trans (h.vecQuiet rfl rfl rfl rfl rfl rfl)
  · exact (exec_vpermW ..).trans (h.vecQuiet rfl rfl rfl rfl rfl rfl)
  · exact (exec_vpermB ..).trans (h.vecQuiet rfl rfl rfl rfl rfl rfl)
  · exact (exec_vpermSeg ..).trans (h.issued rfl rfl rfl rfl rfl (portConflict_single _ _ (by simp)) _ _)
  · exact (exec_vins ..).trans (h.issued rfl rfl rfl (decide_eq_true hk) rfl (portConflict_single _ _ (by simp)) _ _)
  · exact (exec_vext ..).trans (h.issued rfl rfl rfl (decide_eq_true hk) rfl (portConflict_single _ _ (by simp)) _ _)
  · exact (exec_vredsum ..).trans (h.vecReduce _ hty va _ rfl)
  · exact (exec_vredmax ..).trans (h.vecReduce _ hty va _ rfl)
  · exact (exec_vredmin ..).trans (h.vecReduce _ hty va _ rfl)
  · simp only [List.any_eq_true, List.mem_range, laneNonzero_iff]
    rfl
  · exact (exec_vtestAny ..).trans (h.issued rfl rfl rfl rfl rfl (portConflict_single _ _ (by simp)) _ _)
  · simp only [List.all_eq_true, List.mem_range, laneNonzero_iff]
    rfl
  · exact (exec_vtestAll ..).trans (h.issued rfl rfl rfl rfl rfl (portConflict_single _ _ (by simp)) _ _)

end Sys2Proof
end

section
/-! Vector functions, the generator's instructions and conversions (R58, R59, R65, R147 to R153). -/

namespace Sys2Proof.Machine

variable {s t : State} {sl : Slot} {n u : Nat}

theorem narrowLane_eq (r1 : Bool) (rm : BitVec 2) (seed : Seed) (base : BitVec 32) (i : Nat) (p : LaneRes) :
    narrowLane r1 rm seed base i p =
      let q := narrowIeee r1 fmtBF16 (rmOf rm) (if rm = 2 then seed.rnd24 (base + BitVec.ofNat 32 i) else 0) p.1
      (q.1, p.2 ||| q.2) := rfl

section
variable {vd : BitVec 5} (h : Runs s t sl slotM [dV vd] n u)
include h

theorem Runs.vecFun_f32 (i : Instr) (fn : Fun) (va : BitVec 5) {r : Nat × BitVec 5}
    (hr : packRes 32 16 (fun i => f32Fun t.rev1 fn (laneAt ((t.core n u).rv va) 32 i)) = r) :
    vecFun s i sl fn 0 vd va 0 0 = .next (t.issued i sl slotM [dV vd] n u ((10, vecWhole vd r.1) :: condEffs 10 r.2)) :=
  h.vec rfl rfl rfl rfl rfl ((floatLanes_f32 ..).trans hr)

theorem Runs.vecFun_bf16 (i : Instr) (fn : Fun) (va : BitVec 5) {rm : BitVec 2} (hrm : rm ≠ 3) (sb : BitVec 5) {r : Nat × BitVec 5}
    (hr : packRes 16 32 (fun i =>
      let p := f32Fun t.rev1 fn (laneAt ((t.core n u).rv va) 16 i * 2 ^ 16)
      let q := narrowIeee t.rev1 fmtBF16 (rmOf rm)
        (if rm = 2 then (t.ctx n u sl).seed.rnd24 ((t.core n u).rs sb + BitVec.ofNat 32 i) else 0) p.1
      (q.1, p.2 ||| q.2)) = r) :
    vecFun s i sl fn 1 vd va rm sb = .next (t.issued i sl slotM [dV vd] n u ((10, vecWhole vd r.1) :: condEffs 10 r.2)) := by
  have hlanes : bf16Lanes t.rev1 rm (t.ctx n u sl).seed ((t.core n u).rs sb)
      (fun i => f32Fun t.rev1 fn (laneAt ((t.core n u).rv va) 16 i * 2 ^ 16)) = r :=
    (packRes_congr fun i => narrowLane_eq _ _ _ _ _ (f32Fun t.rev1 fn (laneAt ((t.core n u).rv va) 16 i * 2 ^ 16))).trans hr
  unfold vecFun
  refine h.vec rfl rfl rfl (decide_eq_true hrm) rfl (.trans ?_ hlanes)
  rewrite [State.ctx_s, State.ctx_c]
  exact floatLanes_bf16 ..

/-- A generator instruction that keeps lanes whose random bits reach the threshold (R59, R153). -/
theorem Runs.issued_vdrop {ty : BitVec 2} (hty : ty ≠ 2) (va sb sc : BitVec 5) {e : Nat}
    (he : packLanes (tyWidth ty) (tyLanes ty) (fun i => if ((t.core n u).rs sc).toNat % 65536 ≤
        (t.ctx n u sl).seed.rnd16 ((t.core n u).rs sb + BitVec.ofNat 32 i) then laneAt ((t.core n u).rv va) (tyWidth ty) i else 0) = e) :
    exec (.vdrop sl ty vd va sb sc) s = .next (t.issued (.vdrop sl ty vd va sb sc) sl slotM [dV vd] n u [(5, vecWhole vd e)]) :=
  (exec_vdrop ..).trans (h.vecQuiet rfl rfl rfl (decide_eq_true hty) rfl he)

end

/-- The lane results of a narrowing conversion (R44, R45, R148, R149). -/
def narrowRes (r1 : Bool) (fmt : BitVec 4) (rm : BitVec 2) (sat : Bool) (sc : Nat) (rnd input : Nat → Nat) : Nat × BitVec 5 :=
  packRes (regBits fmt) (narrowShape fmt).1 fun i =>
    if fmtScaled fmt then narrowBlock fmt sc (rmOf rm) (rnd i) (input i) else narrowPlain r1 fmt (rmOf rm) sat (rnd i) (input i)

/-- The write of a narrowing conversion: its bytes at position `pos` with its scale code (R148). -/
def narrowEff (vd : BitVec 5) (fmt : BitVec 4) (pos : BitVec 3) (sc data : Nat) : Eff :=
  .setV vd.toNat (BitVec.ofNat 64 ((2 ^ (narrowShape fmt).2.1 - 1) * 2 ^ ((narrowShape fmt).2.1 * pos.toNat)))
    (BitVec.ofNat 512 (data * 2 ^ (8 * ((narrowShape fmt).2.1 * pos.toNat))))
    (BitVec.ofNat 8 ((2 ^ ((narrowShape fmt).2.1 / 8) - 1) * 2 ^ ((narrowShape fmt).2.1 * pos.toNat / 8)))
    (BitVec.ofNat 64 (packLanes 8 8 fun _ => sc))

/-- Input lane `i` of a narrowing conversion: 16 of the first register, then the second's (R148). -/
def narrowInput (c : Core) (va vb : BitVec 5) (i : Nat) : Nat := if i < 16 then laneAt (c.rv va) 32 i else laneAt (c.rv vb) 32 (i - 16)

/-- The random bits of lane `i` in the stochastic mode (R58). -/
def narrowRnd (seed : Seed) (base : BitVec 32) (rm : BitVec 2) (i : Nat) : Nat := if rm = 2 then seed.rnd24 (base + BitVec.ofNat 32 i) else 0

/-- The scale code that a narrowing conversion writes (R44). -/
def narrowScale (fmt : BitVec 4) (input : Nat → Nat) : Nat :=
  if fmtScaled fmt then blockScale fmt ((List.range (narrowShape fmt).1).map input) else 0x7F

theorem Runs.issued_vcvtNarrow {vd va vb sb : BitVec 5} (h : Runs s t sl slotM [dV vd] n u) {fmt : BitVec 4} {pos : BitVec 3}
    {rm : BitVec 2}
    {sat : Bool} (hpos : pos.toNat ≤ (narrowShape fmt).2.2) (hrm : rm ≠ 3) (hsat : sat = true → fmt = 0)
    (hvb : fmtScaled fmt = true ∨ vb = 0) {sc : Nat} (hsc : narrowScale fmt (narrowInput (t.core n u) va vb) = sc) {r : Nat × BitVec 5}
    (hr : narrowRes t.rev1 fmt rm sat sc (narrowRnd (t.ctx n u sl).seed ((t.core n u).rs sb) rm) (narrowInput (t.core n u) va vb) = r) :
    exec (.vcvtNarrow sl fmt vd va vb pos rm sat sb) s = .next (t.issued (.vcvtNarrow sl fmt vd va vb pos rm sat sb) sl slotM [dV vd] n u
      ((4, narrowEff vd fmt pos sc r.1) :: condEffs 4 r.2)) := by
  have hlegal : (decide (pos.toNat ≤ (narrowShape fmt).2.2) && decide (rm ≠ 3) && (!sat || decide (fmt = 0)) &&
      (fmtScaled fmt || decide (vb = 0))) = true := by
    have hsat' : (!sat || decide (fmt = 0)) = true := by
      cases sat
      · rfl
      · simpa using hsat rfl
    simp only [hsat', decide_eq_true hpos, decide_eq_true hrm, Bool.and_true, Bool.true_and]
    simpa using hvb
  have hns : ∀ p ∈ (4, narrowEff vd fmt pos sc r.1) :: condEffs 4 r.2, ∀ a l g, p.2 ≠ .store a l g :=
    List.forall_mem_cons.mpr ⟨by simp [narrowEff], condEffs_ne_store⟩
  subst hr hsc
  exact (exec_vcvtNarrow ..).trans (h.issued rfl rfl rfl hlegal rfl (portConflict_of_noStore _ _ hns) _ _)

theorem Runs.issued_vcvtWiden {vd va : BitVec 5} (h : Runs s t sl slotM [dV vd] n u) {fmt : BitVec 4} {pos : BitVec 3}
    (hpos : pos.toNat ≤ (if regBits fmt = 4 then 7 else if regBits fmt = 16 then 1 else 3)) {r : Nat × BitVec 5}
    (hr : packRes 32 16 (fun i => widenElem t.rev1 fmt (laneAt ((t.core n u).rv va) (regBits fmt) (16 * pos.toNat + i))
      (byteAt ((t.core n u).rvs va) (regBits fmt * (16 * pos.toNat + i) / 64))) = r) :
    exec (.vcvtWiden sl fmt vd va pos) s =
      .next (t.issued (.vcvtWiden sl fmt vd va pos) sl slotM [dV vd] n u ((4, vecWhole vd r.1) :: condEffs 4 r.2)) :=
  (exec_vcvtWiden ..).trans (h.vec rfl rfl rfl (decide_eq_true hpos) rfl hr)

end Sys2Proof.Machine

namespace Sys2Proof

open Machine

/-- Settles O6: the functions share one lemma per lane type; the generator and the conversions have their own. -/
theorem vectorFunctionsAndConversions : Obligations.VectorFunctionsAndConversions := by
  refine ⟨fun s t sl vd va sb sc rm ty n u h => ?_, fun s t sl vd va vb sb fmt pos rm sat n u h =>
    ⟨fun hpos hrm hsat hvb => h.issued_vcvtNarrow hpos hrm hsat hvb rfl rfl, fun hpos => h.issued_vcvtWiden hpos rfl⟩⟩
  refine ⟨⟨?_, fun hrm => ?_⟩, ⟨?_, fun hrm => ?_⟩, ⟨?_, fun hrm => ?_⟩, ⟨?_, fun hrm => ?_⟩, ⟨?_, fun hrm => ?_⟩, ⟨?_, fun hrm => ?_⟩,
    ⟨?_, fun hrm => ?_⟩, ⟨?_, fun hrm => ?_⟩, ⟨?_, fun hrm => ?_⟩, ⟨?_, fun hrm => ?_⟩, fun dom => ?_, fun hty => ?_⟩
  · exact (exec_vexp ..).trans (h.vecFun_f32 _ .exp va rfl)
  · exact (exec_vexp ..).trans (h.vecFun_bf16 _ .exp va hrm sb rfl)
  · exact (exec_vexp2 ..).trans (h.vecFun_f32 _ .exp2 va rfl)
  · exact (exec_vexp2 ..).trans (h.vecFun_bf16 _ .exp2 va hrm sb rfl)
  · exact (exec_vlog ..).trans (h.vecFun_f32 _ .log va rfl)
  · exact (exec_vlog ..).trans (h.vecFun_bf16 _ .log va hrm sb rfl)
  · exact (exec_vlog2 ..).trans (h.vecFun_f32 _ .log2 va rfl)
  · exact (exec_vlog2 ..).trans (h.vecFun_bf16 _ .log2 va hrm sb rfl)
  · exact (exec_vrcp ..).trans (h.vecFun_f32 _ .rcp va rfl)
  · exact (exec_vrcp ..).trans (h.vecFun_bf16 _ .rcp va hrm sb rfl)
  · exact (exec_vsqrt ..).trans (h.vecFun_f32 _ .sqrt va rfl)
  · exact (exec_vsqrt ..).trans (h.vecFun_bf16 _ .sqrt va hrm sb rfl)
  · exact (exec_vrsqrt ..).trans (h.vecFun_f32 _ .rsqrt va rfl)
  · exact (exec_vrsqrt ..).trans (h.vecFun_bf16 _ .rsqrt va hrm sb rfl)
  · exact (exec_vtanh ..).trans (h.vecFun_f32 _ .tanh va rfl)
  · exact (exec_vtanh ..).trans (h.vecFun_bf16 _ .tanh va hrm sb rfl)
  · exact (exec_verf ..).trans (h.vecFun_f32 _ .erf va rfl)
  · exact (exec_verf ..).trans (h.vecFun_bf16 _ .erf va hrm sb rfl)
  · exact (exec_vsig ..).trans (h.vecFun_f32 _ .sig va rfl)
  · exact (exec_vsig ..).trans (h.vecFun_bf16 _ .sig va hrm sb rfl)
  · exact (exec_vrand ..).trans (h.vecQuiet rfl rfl rfl rfl rfl rfl)
  · exact h.issued_vdrop hty va sb sc rfl

end Sys2Proof
end

section
/-! Loads, stores and the load of a weight stage (R99 to R102, R155 to R157, R161 to R163). -/

namespace Sys2Proof.Machine

variable {s t : State} {sl : Slot} {n u : Nat}

/-! ### Addresses and values -/

theorem tileAddr_eq (base : BitVec 32) (off : Int) : tileAddr base off = addrOf base off := by
  have h : (base + BitVec.ofInt 32 off) = BitVec.ofInt 32 ((base.toNat : Int) + off) := by
    rw [BitVec.ofInt_add, BitVec.ofInt_natCast, BitVec.ofNat_toNat, BitVec.setWidth_eq]
  rw [tileAddr, h, BitVec.toNat_ofInt]
  rfl

theorem natOfBytes_lt (bs : List Byte) : natOfBytes bs < 2 ^ (8 * bs.length) := by
  induction bs with
  | nil => simp [natOfBytes]
  | cons b bs ih =>
    have hb := b.isLt
    have hsucc : 2 ^ (8 * (b :: bs).length) = 256 * 2 ^ (8 * bs.length) := by
      rw [List.length_cons, Nat.mul_succ, Nat.pow_add, Nat.mul_comm]
    rw [hsucc, natOfBytes]
    omega

theorem State.readNat_lt (s : State) (a k : Nat) : s.readNat a k < 2 ^ (8 * k) := by
  simpa [State.readNat, State.readBytes] using natOfBytes_lt (s.readBytes a k)

/-- A value of `k` bytes extended to a scalar (R161). -/
theorem extend_eq {w k x : Nat} (hk : 0 < k) (hx : x < 2 ^ (8 * k)) (sx : Bool) :
    extend w k sx x = if sx then (BitVec.ofNat (8 * k) x).signExtend w else BitVec.ofNat w x := by
  have hmsb : (BitVec.ofNat (8 * k) x).msb = x.testBit (8 * k - 1) := by
    rw [BitVec.msb_eq_getLsbD_last, BitVec.getLsbD_ofNat]
    simp
    omega
  have hint : (BitVec.ofNat (8 * k) x).toInt = if x.testBit (8 * k - 1) then (x : Int) - 2 ^ (8 * k) else x := by
    rw [BitVec.toInt_eq_msb_cond, hmsb, BitVec.toNat_ofNat, Nat.mod_eq_of_lt hx]
    push_cast
    rfl
  cases sx
  · rw [extend, if_neg (by simp), if_neg (by simp)]
  · rw [if_pos rfl, bv_signExtend_eq_ofInt, hint, extend]
    by_cases hb : x.testBit (8 * k - 1) = true
    · rw [if_pos ⟨rfl, hb⟩, if_pos hb]
    · rw [if_neg (fun h => hb h.2), if_neg hb, BitVec.ofInt_natCast]

/-! ### Reads of tile memory -/

/-- What a read adds to an instruction's effects: a corrected word is counted (R102). -/
def eccEffs (sl : Slot) : List (Nat × Eff) := if sl.ecc = .corrected then [(1, .corrected)] else []

theorem eccEffs_ne_store {sl : Slot} : ∀ p ∈ eccEffs sl, ∀ a l g, p.2 ≠ .store a l g := by
  unfold eccEffs
  split <;> simp

/-- A readable range, read without an uncorrectable word, gives the body its data. -/
theorem Ctx.reading_of_readable {a len al : Nat} (hr : t.readable n u a len al) (hecc : sl.ecc ≠ .uncorrectable)
    (k : List (Nat × Eff) → Body) : (t.ctx n u sl).reading a len al k = k (eccEffs sl) := by
  obtain ⟨hal, hin, hbad⟩ := hr
  have hok : ¬ (!tileOk a len al) = true := by simp [tileOk, hal, hin]
  have hgood : ¬ (sl.ecc = .uncorrectable ∨ t.anyBad (t.tileBase n u + a) len = true) := by simp [hecc, hbad]
  exact (if_neg hok).trans (if_neg hgood)

theorem portConflict_cons_eccEffs {fl : List Flight} {p : Nat × Eff} (h : ∀ a l g, p.2 ≠ .store a l g) :
    portConflict fl (p :: eccEffs sl) = false :=
  portConflict_of_noStore _ _ (List.forall_mem_cons.mpr ⟨h, eccEffs_ne_store⟩)

theorem portConflict_store_eccEffs {c : Core} {lat a : Nat} {l : List (BitVec 8)} {g : BitVec 2} (h : c.portFree lat) :
    portConflict c.flight ((lat, .store a l g) :: eccEffs sl) = false := by
  refine portConflict_of_portFree fun p hp a' l' g' hst => ?_
  rcases List.mem_cons.mp hp with rfl | hp
  · exact h
  · exact absurd hst (eccEffs_ne_store p hp a' l' g')

/-- An instruction whose body goes on from a readable range (R101, R102). -/
theorem Runs.issuedReading {slot : Nat} {d : List Nat} (h : Runs s t sl slot d n u) {i : Instr} {legal : Bool} (hl : legal = true)
    {a : Ctx → Nat} {len al : Nat} {k : Ctx → List (Nat × Eff) → Body} (hr : t.readable n u (a (t.ctx n u sl)) len al)
    (hecc : sl.ecc ≠ .uncorrectable) {effs : List (Nat × Eff)} {cap : List (Nat × Nat)}
    (hk : k (t.ctx n u sl) (eccEffs sl) = .ok effs cap) (hp : portConflict (t.core n u).flight effs = false) (cl : Bool)
    (cb : State → CtlCore → CtlBody) :
    issue s { i := i, sl := sl, slot := slot, legal := legal, dests := d, body := fun x => x.reading (a x) len al (k x) } cl cb =
      .next (t.issued i sl slot d n u effs) :=
  h.issued rfl rfl rfl hl ((Ctx.reading_of_readable hr hecc _).trans hk) hp cl cb

section
variable {sa : BitVec 5} (hecc : sl.ecc ≠ .uncorrectable)
include hecc

theorem Runs.issued_ld {rd : BitVec 5} (h : Runs s t sl slotX [dS rd] n u) {imm : BitVec 16} {size : BitVec 2} {sx : Bool}
    (hsize : size.toNat < 3) (hsx : ¬(sx = true ∧ size = 2))
    (hr : t.readable n u (addrOf ((t.core n u).rs sa) imm.toInt) (2 ^ size.toNat) (2 ^ size.toNat)) :
    exec (.ld sl rd sa imm size sx) s = .next (t.issued (.ld sl rd sa imm size sx) sl slotX [dS rd] n u
      ((3, .setS rd.toNat
        (if sx then (BitVec.ofNat (8 * 2 ^ size.toNat)
            (t.readNat (t.tileBase n u + addrOf ((t.core n u).rs sa) imm.toInt) (2 ^ size.toNat))).signExtend 32
          else BitVec.ofNat 32 (t.readNat (t.tileBase n u + addrOf ((t.core n u).rs sa) imm.toInt) (2 ^ size.toNat)))) :: eccEffs sl)) := by
  have hlegal : (decide (size.toNat < 3) && !(sx && decide (size = 2))) = true := by
    cases sx
    · simp [hsize]
    · simpa [hsize] using hsx
  rw [← extend_eq (Nat.two_pow_pos _) (t.readNat_lt _ _), ← tileAddr_eq]
  rw [← tileAddr_eq] at hr
  refine (exec_ld ..).trans (h.issuedReading (cap := []) hlegal ?_ hecc ?_ (portConflict_cons_eccEffs (by simp)) _ _)
  · exact hr
  · rfl

theorem Runs.issued_st {rs : BitVec 5} (h : Runs s t sl slotX [] n u) {imm : BitVec 16} {size : BitVec 2} (hsize : size.toNat < 3)
    (hr : t.readable n u (addrOf ((t.core n u).rs sa) imm.toInt) (2 ^ size.toNat) (2 ^ size.toNat)) (hp : (t.core n u).portFree 1) :
    exec (.st sl rs sa imm size false) s = .next (t.issued (.st sl rs sa imm size false) sl slotX [] n u
      ((1, .store (addrOf ((t.core n u).rs sa) imm.toInt) (bytesOfNat (2 ^ size.toNat) ((t.core n u).rs rs).toNat) (t.core n u).prov) ::
        eccEffs sl)) := by
  rw [← tileAddr_eq] at hr ⊢
  refine (exec_st ..).trans (h.issuedReading (cap := []) (by simpa using hsize) ?_ hecc ?_ (portConflict_store_eccEffs hp) _ _)
  · exact hr
  · rfl

/-- A load of a line: its bytes or its six-bit elements unpacked, with plain scales or a scalar pair's (R162). -/
theorem Runs.issued_vld {vd sc : BitVec 5} (h : Runs s t sl slotX [dV vd] n u) {mode : BitVec 3} {imm : BitVec 11}
    (hr : t.readable n u (addrOf ((t.core n u).rs sa) (64 * imm.toInt)) 64 64) (hmode : mode.toNat < 4)
    (hsc : (if mode.toNat < 2 then decide (sc = 0) else decide (sc.toNat % 2 = 0)) = true) {data : Line} {scales : BitVec 64}
    (hdata : (if mode.toNat % 2 = 0 then t.readLine (t.tileBase n u + addrOf ((t.core n u).rs sa) (64 * imm.toInt))
      else BitVec.ofNat 512 (unpackSix (t.readLine (t.tileBase n u + addrOf ((t.core n u).rs sa) (64 * imm.toInt))))) = data)
    (hscales : (if mode.toNat < 2 then plainScales else (t.core n u).rsPair sc) = scales) :
    exec (.vld sl vd sa mode sc imm) s = .next (t.issued (.vld sl vd sa mode sc imm) sl slotX [dV vd] n u
      ((3, .setV vd.toNat (BitVec.allOnes 64) data 0xFF#8 scales) :: eccEffs sl)) := by
  subst hdata hscales
  rw [← tileAddr_eq] at hr ⊢
  refine (exec_vld ..).trans (h.issuedReading (cap := []) ((Bool.and_eq_true _ _).mpr ⟨decide_eq_true hmode, hsc⟩)
    ?_ hecc ?_ (portConflict_cons_eccEffs (by simp)) _ _)
  · exact hr
  · rfl

theorem Runs.issued_vsts {va : BitVec 5} (h : Runs s t sl slotX [] n u) {half : Bool} {imm : BitVec 16}
    (hr : t.readable n u (addrOf ((t.core n u).rs sa) imm.toInt) 4 4) (hp : (t.core n u).portFree 1) :
    exec (.vsts sl va sa half imm) s = .next (t.issued (.vsts sl va sa half imm) sl slotX [] n u
      ((1, .store (addrOf ((t.core n u).rs sa) imm.toInt)
        (bytesOfNat 4 (((t.core n u).rvs va).toNat / 2 ^ (if half then 32 else 0) % 2 ^ 32)) (t.core n u).prov) :: eccEffs sl)) := by
  rw [← tileAddr_eq] at hr ⊢
  refine (exec_vsts ..).trans (h.issuedReading (cap := []) rfl ?_ hecc ?_ (portConflict_store_eccEffs hp) _ _)
  · exact hr
  · rfl

/-- A weight load of a part that its format has, into an idle stage of its format or none (R155 to R157). -/
theorem Runs.issued_wld (h : Runs s t sl slotX [] n u) {fmt : BitVec 4} {part : BitVec 2} {imm : BitVec 16}
    (hstall : s.swapStalls n u = false)
    (hr : t.readable n u (addrOf ((t.core n u).rs sa) imm.toInt) (if part = 2 then 16 else 64) (if part = 2 then 16 else 64))
    (hpart : part = 0 ∨ (part = 1 ∧ fmtBits fmt ≠ 16) ∨ (part = 2 ∧ fmtScaled fmt = true)) (hswap : (t.core n u).swapIssued = false)
    (hfill : (t.island n).fill = none) (htag : (t.core n u).idleTag = none ∨ (t.core n u).idleTag = some fmt) :
    exec (.wld sl fmt part sa imm) s = .next (t.issued (.wld sl fmt part sa imm) sl slotX [] n u
      ((3, .fillPart fmt part.toNat (BitVec.ofNat 512
        (t.readNat (t.tileBase n u + addrOf ((t.core n u).rs sa) imm.toInt) (if part = 2 then 16 else 64)))) :: eccEffs sl)) := by
  rw [← tileAddr_eq] at hr ⊢
  rw [exec_wld]
  unfold execWld
  extract_lets len op
  have hlegal : op.legal = true := by
    rcases hpart with rfl | ⟨rfl, h16⟩ | ⟨rfl, hscaled⟩
    · rfl
    · simpa [op] using h16
    · simpa [op] using hscaled
  have hbusy : ¬ ((match (t.island n).fill with | some f => f.mask.getLsbD (u / 60) | none => false) ||
      (match (t.core n u).idleTag with | some t => decide (t ≠ fmt) | none => false)) = true := by
    rcases htag with htag | htag <;> simp [hfill, htag]
  have hns : ¬ (t.core n u).swapIssued = true := by simp [hswap]
  have hbody : op.body (t.ctx n u sl) = .ok ((3, .fillPart fmt part.toNat (BitVec.ofNat 512
      (t.readNat (t.tileBase n u + tileAddr ((t.core n u).rs sa) imm.toInt) (if part = 2 then 16 else 64)))) :: eccEffs sl) [] :=
    (if_neg hns).trans ((Ctx.reading_of_readable hr hecc _).trans (if_neg hbusy))
  simp only [h.site, hstall, Bool.false_eq_true, false_and, and_false, if_false]
  exact h.issued rfl rfl rfl hlegal hbody (portConflict_cons_eccEffs (by simp)) _ _

end

/-- A store of a line: 64 bytes, or the low six bits of each packed into 48 (R163). -/
theorem Runs.issued_vst {vs sa : BitVec 5} (h : Runs s t sl slotX [] n u) {mode : BitVec 3} {imm : BitVec 11} (hmode : mode.toNat < 2)
    (hal : addrOf ((t.core n u).rs sa) (64 * imm.toInt) % 64 = 0) (hin : addrOf ((t.core n u).rs sa) (64 * imm.toInt) + 64 ≤ tileSize)
    (hp : (t.core n u).portFree 1) :
    exec (.vst sl vs sa mode 0 imm) s = .next (t.issued (.vst sl vs sa mode 0 imm) sl slotX [] n u
      [(1, .store (addrOf ((t.core n u).rs sa) (64 * imm.toInt)) (if mode = 0 then bytesOfNat 64 ((t.core n u).rv vs).toNat
        else bytesOfNat 48 (packSix ((t.core n u).rv vs))) (t.core n u).prov)]) := by
  have hok : ¬ (!tileOk (tileAddr ((t.core n u).rs sa) (64 * imm.toInt)) 64 64) = true := by
    rw [tileAddr_eq]
    simp [tileOk, hal, hin]
  have hport : ∀ b, portConflict (t.core n u).flight
      [(1, .store (tileAddr ((t.core n u).rs sa) (64 * imm.toInt)) b (t.core n u).prov)] = false := fun b =>
    portConflict_of_portFree (by simpa using hp)
  rw [← tileAddr_eq]
  split
  · next h0 => exact (exec_vst ..).trans (h.issued rfl rfl rfl (by simpa using hmode) ((if_neg hok).trans (if_pos h0)) (hport _) _ _)
  · next h0 => exact (exec_vst ..).trans (h.issued rfl rfl rfl (by simpa using hmode) ((if_neg hok).trans (if_neg h0)) (hport _) _ _)

end Sys2Proof.Machine

namespace Sys2Proof

open Machine

/-- Settles O7: each access by its own lemma, over what a read of a readable range gives. -/
theorem loadsAndStores : Obligations.LoadsAndStores := by
  intro s t sl sa n u hecc
  refine ⟨fun rd imm size sx h hsize hsx hr => h.issued_ld hecc hsize hsx hr, fun rs imm size h hsize hr hp => h.issued_st hecc hsize hr hp,
    fun vd sc mode imm h hr => ⟨?_, ?_, ?_, ?_⟩, fun vs imm h hal hin hp => ⟨?_, ?_⟩, fun va half imm h hr hp => h.issued_vsts hecc hr hp,
    fun fmt part imm h hstall hr hpart hswap hfill htag => h.issued_wld hecc hstall hr hpart hswap hfill htag⟩
  · rintro rfl rfl
    exact h.issued_vld hecc hr (by decide) rfl rfl rfl
  · rintro rfl rfl
    exact h.issued_vld hecc hr (by decide) rfl rfl rfl
  · rintro rfl hsc
    exact h.issued_vld hecc hr (by decide) ((if_neg (by decide)).trans (decide_eq_true hsc)) rfl rfl
  · rintro rfl hsc
    exact h.issued_vld hecc hr (by decide) ((if_neg (by decide)).trans (decide_eq_true hsc)) rfl rfl
  · exact h.issued_vst (by decide) hal hin hp
  · exact h.issued_vst (by decide) hal hin hp

end Sys2Proof
end

section
/-! send, recv and stream.put (R107, R164, R165, R167). -/

namespace Sys2Proof.Machine

variable {s t : State} {sl : Slot} {n u : Nat}

/-- No send of the core presents `lat` issue cycles from now (R164). -/
def Core.presentFree (c : Core) (lat : Nat) : Prop := ∀ f ∈ c.flight, f.left = lat → ∀ p, f.eff ≠ .present p

theorem Core.sendClash_of_presentFree {c : Core} {lat : Nat} (h : c.presentFree lat) : c.sendClash lat = false := by
  refine List.any_eq_false.mpr fun f hf => ?_
  split
  · next p he => exact fun hl => h f hf (of_decide_eq_true hl) p he
  · exact Bool.false_ne_true

theorem Runs.issued_sendRegister (h : Runs s t sl slotX [] n u) (rid : BitVec 8) (va : BitVec 5) (hf : (t.core n u).presentFree 1) :
    exec (.sendRegister sl rid va 0) s = .next (t.issued (.sendRegister sl rid va 0) sl slotX [] n u
      [(1, .present { rid := rid.toNat, data := (t.core n u).rv va, prov := (t.core n u).prov })]) := by
  have hc : ¬ (t.ctx n u sl).c.sendClash 1 = true := by rw [State.ctx_c, Core.sendClash_of_presentFree hf]; exact Bool.false_ne_true
  exact (exec_sendRegister ..).trans (h.issued rfl rfl rfl rfl (if_neg hc) (portConflict_single _ _ (by simp)) _ _)

theorem Runs.issued_sendMemory (h : Runs s t sl slotX [] n u) (rid : BitVec 8) {sa : BitVec 5} {imm : BitVec 11}
    (hr : t.readable n u (addrOf ((t.core n u).rs sa) (64 * imm.toInt)) 64 64) (hecc : sl.ecc ≠ .uncorrectable)
    (hf : (t.core n u).presentFree 2) :
    exec (.sendMemory sl rid sa imm) s = .next (t.issued (.sendMemory sl rid sa imm) sl slotX [] n u
      ((2, .present
        { rid := rid.toNat, data := t.readLine (t.tileBase n u + addrOf ((t.core n u).rs sa) (64 * imm.toInt)), prov := (t.core n u).prov }) ::
        eccEffs sl)) := by
  have hc : ¬ (t.ctx n u sl).c.sendClash 2 = true := by rw [State.ctx_c, Core.sendClash_of_presentFree hf]; exact Bool.false_ne_true
  rw [← tileAddr_eq] at hr ⊢
  refine (exec_sendMemory ..).trans (h.issuedReading (cap := []) rfl ?_ hecc ?_ (portConflict_cons_eccEffs (by simp)) _ _)
  · exact hr
  · exact if_neg hc

section
variable {d : BitVec 5} {ind : Bool} {entry : BitVec 6} {sa : BitVec 5}
  (hfull : ((t.core n u).rm (recvEntry (t.core n u) ind entry sa)).full = true)
include hfull

theorem recv_proceeds : ¬ (!((t.ctx n u sl).c.rm (recvEntry (t.ctx n u sl).c ind entry sa)).full) = true := by
  rw [State.ctx_c, hfull]
  exact Bool.false_ne_true

theorem Runs.issued_recvVector (h : Runs s t sl slotX [dV d] n u) :
    exec (.recvVector sl d ind entry sa) s = .next (t.issued (.recvVector sl d ind entry sa) sl slotX [dV d] n u
      [(2, .setV d.toNat (BitVec.allOnes 64) ((t.core n u).rm (recvEntry (t.core n u) ind entry sa)).data 0xFF#8 plainScales),
        (1, .takeMbx (recvEntry (t.core n u) ind entry sa))]) :=
  (exec_recvVector ..).trans (h.issued rfl rfl rfl rfl (if_neg (recv_proceeds hfull)) (portConflict_of_noStore _ _ (by simp)) _ _)

theorem Runs.issued_recvScalar (h : Runs s t sl slotX [dS d] n u) :
    exec (.recvScalar sl d ind entry sa) s = .next (t.issued (.recvScalar sl d ind entry sa) sl slotX [dS d] n u
      [(2, .setS d.toNat (BitVec.ofNat 32 ((t.core n u).rm (recvEntry (t.core n u) ind entry sa)).data.toNat)),
        (1, .takeMbx (recvEntry (t.core n u) ind entry sa))]) := by
  rw [← bv_zeroExtend_eq_ofNat]
  exact (exec_recvScalar ..).trans (h.issued rfl rfl rfl rfl (if_neg (recv_proceeds hfull)) (portConflict_of_noStore _ _ (by simp)) _ _)

end

/-- A put on a bound channel whose quarters carry the core's tag, with room for the flit it completes (R167). -/
theorem Runs.issued_streamPut (h : Runs s t sl slotX [] n u) {ch : BitVec 3} (va : BitVec 5)
    (hbind : t.getF (aIslPutBind n u ch.toNat) F.islPutBind_valid = 1)
    (htag : (Tbl.get Chan.empty (t.core n u).chans ch.toNat).quarters = [] ∨
      (Tbl.get Chan.empty (t.core n u).chans ch.toNat).prov = (t.core n u).prov)
    (hroom : (Tbl.get Chan.empty (t.core n u).chans ch.toNat).quarters.length ≠ 3 ∨
      (t.island n).launchOut.length + t.putsUnderWay n < 4) :
    exec (.streamPut sl ch va) s =
      .next (t.issued (.streamPut sl ch va) sl slotX [] n u [(1, .put ch.toNat ((t.core n u).rv va) (t.core n u).prov)]) := by
  have h1 : ¬ (!t.flag (aIslPutBind n u ch.toNat) F.islPutBind_valid) = true := by simp [State.flag, hbind]
  have h2 : ¬ ((!(Tbl.get Chan.empty (t.core n u).chans ch.toNat).quarters.isEmpty) = true ∧
      (Tbl.get Chan.empty (t.core n u).chans ch.toNat).prov ≠ (t.core n u).prov) := by
    rintro ⟨hq, hp⟩
    rcases htag with he | he
    · simp [he] at hq
    · exact hp he
  have h3 : ¬ ((Tbl.get Chan.empty (t.core n u).chans ch.toNat).quarters.length = 3 ∧
      launchPath ≤ (t.island n).launchOut.length + t.putsUnderWay n) := by
    simp only [launchPath]
    omega
  exact (exec_streamPut ..).trans (h.issued rfl rfl rfl rfl ((if_neg h1).trans ((if_neg h2).trans (if_neg h3)))
    (portConflict_single _ _ (by simp)) _ _)

end Sys2Proof.Machine

namespace Sys2Proof

open Machine

/-- Settles O8: each instruction by its own lemma. -/
theorem sendReceivePut : Obligations.SendReceivePut := by
  intro s t sl n u
  refine ⟨fun rid va sa imm h => ⟨fun hf => h.issued_sendRegister rid va hf, fun hr hecc hf => h.issued_sendMemory rid hr hecc hf⟩,
    fun d ind entry sa hfull => ⟨fun h => Runs.issued_recvVector hfull h, fun h => Runs.issued_recvScalar hfull h⟩,
    fun ch va h hbind htag hroom => h.issued_streamPut va hbind htag hroom⟩

end Sys2Proof
end

section
/-! Remote operations (R169 to R173). -/

namespace Sys2Proof.Machine

variable {s t : State} {sl : Slot} {n u : Nat}

/-- A remote operation whose operands meet its shape's demands takes tracker `k` (R170, R171). -/
theorem Runs.issued_rmem (h : Runs s t sl slotX [] n u) (i : Instr) {op k len lal ral : Nat} {sa sb sc : BitVec 5} {ctr : BitVec 8}
    (hsa : sa.toNat % 2 = 0) (hctr : ctr.toNat ≠ 255) (hg : ((t.core n u).rsPair sa).toNat < 2 ^ 56) (hprov : (t.core n u).prov = 0)
    (hk : (t.core n u).freeTracker = some k) (hsc : op = 4 ∨ op = 5 → sc = 0) (hsb : op = 6 → sb = 0)
    (hshape : remoteShape op ((t.core n u).rsPair sa).toNat ((t.core n u).rs sc).toNat = (len, lal, ral, true, true))
    (hral : ((t.core n u).rsPair sa).toNat % ral = 0) (hsync : op = 6 → t.isSyncAddr ((t.core n u).rsPair sa).toNat = true)
    (hlocal : op ≠ 6 → ((t.core n u).rs sb).toNat % lal = 0 ∧ ((t.core n u).rs sb).toNat + len ≤ tileSize) :
    rmem s i op sl sa sb sc ctr = .next (t.issued i sl slotX [] n u [(1, .remote k
      { op := op, gaddr := ((t.core n u).rsPair sa).toNat, buf := ((t.core n u).rs sb).toNat, parm := (t.core n u).rs sc, ctr := ctr.toNat, prov := 0 })]) := by
  have hlegal : (decide (sa.toNat % 2 = 0 ∧ ctr.toNat ≠ 255) && (decide (op ≠ 4 ∧ op ≠ 5) || decide (sc = 0)) &&
      (decide (op ≠ 6) || decide (sb = 0))) = true := by
    simp only [Bool.and_eq_true, Bool.or_eq_true, decide_eq_true_eq]
    refine ⟨⟨⟨hsa, hctr⟩, ?_⟩, ?_⟩
    · by_cases h45 : op = 4 ∨ op = 5
      · exact .inr (hsc h45)
      · exact .inl (not_or.mp h45)
    · exact (em (op = 6)).symm.imp id hsb
  have h1 : ¬ (((t.core n u).rsPair sa).toNat ≠ ((t.core n u).rsPair sa).toNat ∨ ((t.core n u).rsPair sa).toNat % ral ≠ 0 ∨
      (op = 6 ∧ t.isSyncAddr ((t.core n u).rsPair sa).toNat = false)) := by
    rintro (h | h | ⟨h6, hs⟩)
    · exact h rfl
    · exact h hral
    · exact absurd (hsync h6) (by simp [hs])
  have h2 : ¬ (op ≠ 6 ∧ (!tileOk ((t.core n u).rs sb).toNat len lal) = true) := by
    rintro ⟨h6, hbad⟩
    simp [tileOk, hlocal h6] at hbad
  have h3 : ¬ (!t.remoteTagOk op ((t.core n u).rsPair sa).toNat 0) = true := by simp [State.remoteTagOk]
  unfold rmem
  refine h.issued (cap := []) rfl rfl rfl hlegal ?_ (portConflict_single _ _ (by simp)) _ _
  simp only [State.ctx_c, State.ctx_s, Nat.mod_eq_of_lt hg, hshape, if_neg h1, if_neg h2, if_neg h3, hk, hprov, Bool.not_true, Bool.false_eq_true, if_false]

theorem remoteShape_transfer {op g p : Nat} (hop : op = 0 ∨ op = 1) (h8 : p % 8 = 0) (hlo : 8 ≤ p) (hhi : p ≤ 256)
    (hin : g % 256 + p ≤ 256) : remoteShape op g p = (p, 8, 8, true, true) := by
  have hmod : p % 512 = p := Nat.mod_eq_of_lt (by omega)
  have hrange : decide (p < 512 ∧ 8 ≤ p ∧ p ≤ 256 ∧ p % 8 = 0) = true := decide_eq_true ⟨by omega, hlo, hhi, h8⟩
  rcases hop with rfl | rfl <;> simp only [remoteShape, hmod, hrange, decide_eq_true hin]

theorem remoteShape_put {g p : Nat} (hp : p < 2 ^ 30) (h8 : p % 2 ^ 18 % 8 = 0) (hlo : 8 ≤ p % 2 ^ 18) (hhi : p % 2 ^ 18 ≤ 163840) :
    remoteShape 2 g p = (p % 2 ^ 18, 8, 8, true, true) := by
  have hrange : decide (p < 2 ^ 30 ∧ 8 ≤ p % 2 ^ 18 ∧ p % 2 ^ 18 ≤ 163840 ∧ p % 2 ^ 18 % 8 = 0) = true := decide_eq_true ⟨hp, hlo, hhi, h8⟩
  simp only [remoteShape, hrange]

theorem cfmtSize_eq (p : Nat) : cfmtSize (bitsAt p 8 2) = match p / 256 % 4 with | 0 => 1 | 1 => 1 | 2 => 2 | _ => 4 := by
  have hlt : p / 256 % 4 < 4 := Nat.mod_lt _ (by decide)
  show cfmtSize (p / 256 % 4) = _
  generalize p / 256 % 4 = c at hlt ⊢
  interval_cases c <;> rfl

theorem remoteShape_xadd {g p : Nat} (hp : p < 2 ^ 22) :
    remoteShape 3 g p = ((p % 256 + 1) * cfmtSize (bitsAt p 8 2), cfmtSize (bitsAt p 8 2), if p / 1024 % 2 = 1 then 8 else 2, true, true) := by
  simp only [remoteShape, Nat.testBit_eq_decide_div_mod_eq, decide_eq_true hp, decide_eq_true_eq]

end Sys2Proof.Machine

namespace Sys2Proof

open Machine

/-- Settles O9: every operation is a request whose operands meet its shape. -/
theorem remoteOps : Obligations.RemoteOps := by
  intro s t sl sa sb sc ctr n u k h c g b p hsa hctr hg hprov hk hands
  refine ⟨fun h8 hlo hhi hg8 hin hb8 hb => ⟨?_, ?_⟩, fun hp hl8 hlo hhi hg8 hb8 hb => ?_, fun hp hral hb8 hb => ?_, fun hsc hg8 hb8 hb => ?_,
    fun hsc hg8 hb8 hb => ?_, fun hsb hg8 hsync => ?_⟩
  · exact (exec_rmemRd ..).trans (h.issued_rmem _ hsa hctr hg hprov hk (by simp) (by simp)
      (remoteShape_transfer (.inl rfl) h8 hlo hhi hin) hg8 (by simp) fun _ => ⟨hb8, hb⟩)
  · exact (exec_rmemWr ..).trans (h.issued_rmem _ hsa hctr hg hprov hk (by simp) (by simp)
      (remoteShape_transfer (.inr rfl) h8 hlo hhi hin) hg8 (by simp) fun _ => ⟨hb8, hb⟩)
  · exact (exec_rmemPut ..).trans (h.issued_rmem _ hsa hctr hg hprov hk (by simp) (by simp)
      (remoteShape_put hp hl8 hlo hhi) hg8 (by simp) fun _ => ⟨hb8, hb⟩)
  · refine (exec_rmemXadd ..).trans (h.issued_rmem _ hsa hctr hg hprov hk (by simp) (by simp)
      (remoteShape_xadd hp) hral (by simp) fun _ => ?_)
    rw [cfmtSize_eq]
    exact ⟨hb8, hb⟩
  · exact (exec_rmemFadd ..).trans (h.issued_rmem _ hsa hctr hg hprov hk (fun _ => hsc) (by simp) rfl hg8 (by simp) fun _ => ⟨hb8, hb⟩)
  · exact (exec_rmemCas ..).trans (h.issued_rmem _ hsa hctr hg hprov hk (fun _ => hsc) (by simp) rfl hg8 (by simp) fun _ => ⟨hb8, hb⟩)
  · exact (exec_rmemSinc ..).trans (h.issued_rmem _ hsa hctr hg hprov hk (by simp) (fun _ => hsb) rfl hg8 (fun _ => hsync) (by simp))

end Sys2Proof
end

section
/-! What the traffic of a cycle leaves alone: the scalars and predicates of the cores (R81), and how far the islands are and what they hold
(R86, R87). -/

namespace Sys2Proof.Machine

/-- The cores, the switches and the islands. -/
structure Units where
  cores    : Tbl Core
  clusters : Tbl Cluster
  islands  : Tbl Island

/-- The part of the state that records, events, messages and registers do not reach. -/
def State.units (s : State) : Units := ⟨s.cores, s.clusters, s.islands⟩

/-- The scalar and predicate registers of a core. -/
structure ScalarFile where
  sregs : Tbl (BitVec 32)
  preds : Tbl Bool

def Core.file (c : Core) : ScalarFile := ⟨c.sregs, c.preds⟩

/-- The scalars and predicates of each core. -/
def State.files (s : State) (m v : Nat) : ScalarFile := (s.core m v).file

/-- An island without the traffic that its crossings, landings, counters and weight tree hold: its cycle counts, waits and stalls. -/
def Island.pace (x : Island) : Island :=
  { x with landed := false, inbound := [], taken := [], landings := [], released := [], launchOut := [], side := [], adds := [],
           ticks := 0, droops := [], treeIn := [], fill := none }

/-- The pace of each island. -/
def State.paces (s : State) (m : Nat) : Island := (s.island m).pace

/-! ### Records, events and messages reach no unit -/

@[simp] theorem State.units_ite (c : Prop) [Decidable c] (s t : State) :
    (if c then s else t).units = if c then s.units else t.units := apply_ite State.units c s t

/-- A fold leaves the units alone when each of its steps does. -/
@[simp] theorem State.units_foldl {α : Type} {f : State → α → State} (l : List α) (h : ∀ (s : State) (x : α), (f s x).units = s.units)
    (s : State) : (l.foldl f s).units = s.units := by
  induction l generalizing s with
  | nil => rfl
  | cons x l ih => exact (ih _).trans (h s x)

@[simp] theorem State.units_setF (s : State) (a : Nat) (f : Fld) (v : Nat) : (s.setF a f v).units = s.units := (rfl)
@[simp] theorem State.units_bump (s : State) (a : Nat) (f : Fld) (n : Nat) : (s.bump a f n).units = s.units := (rfl)
@[simp] theorem State.units_wrapAdd (s : State) (a : Nat) (f : Fld) (n : Nat) : (s.wrapAdd a f n).units = s.units := (rfl)
@[simp] theorem State.units_setFs (s : State) (a : Nat) (l : List (Fld × Nat)) : (s.setFs a l).units = s.units := by simp [State.setFs]
@[simp] theorem State.units_setFlag (s : State) (a : Nat) (f : Fld) (b : Bool) : (s.setFlag a f b).units = s.units := (rfl)
@[simp] theorem State.units_queueCtl (s : State) (p : Nat) (c : Ctl) : (s.queueCtl p c).units = s.units := (rfl)
@[simp] theorem State.units_holdCtl (s : State) (c : Ctl) : (s.holdCtl c).units = s.units := (rfl)
@[simp] theorem State.units_loopCtl (s : State) (m : Msg) : (s.loopCtl m).units = s.units := (rfl)
@[simp] theorem State.units_unicast (s : State) (c : Ctl) : (s.unicast c).units = s.units := by
  simp only [State.unicast]
  repeat' split
  all_goals simp
@[simp] theorem State.units_sendTo (s : State) (dest : Nat) (m : Msg) : (s.sendTo dest m).units = s.units := by simp [State.sendTo]
@[simp] theorem State.units_writeEvent (s : State) (cls code flags : Nat) (unit : BitVec 32) (detail : Nat) :
    (s.writeEvent cls code flags unit detail).units = s.units := by simp [State.writeEvent]
@[simp] theorem State.units_mk (regs : Tbl Nat) (mem : List Host.Cell) (tags : Tbl (BitVec 2)) (bad : Tbl Bool)
    (cores clusters islands ctls sram beatAcc ctl flt manifest brt boc tier ports fab gmu rcv nv i3c pins bus fresh pending) :
    (State.mk regs mem tags bad cores clusters islands ctls sram beatAcc ctl flt manifest brt boc tier ports fab gmu rcv nv i3c
      pins bus fresh pending).units = ⟨cores, clusters, islands⟩ := (rfl)
@[simp] theorem State.units_eta (s : State) : (⟨s.cores, s.clusters, s.islands⟩ : Units) = s.units := (rfl)
@[simp] theorem State.units_event (s : State) (cls code flags : Nat) (unit : BitVec 32) (detail : Nat) :
    (s.event cls code flags unit detail).units = s.units := by simp [State.event]
@[simp] theorem State.units_ledgerRecord (s : State) (kind cause : Nat) (unit : BitVec 32) (detail : Nat) :
    (s.ledgerRecord kind cause unit detail).units = s.units := by simp [State.ledgerRecord]
@[simp] theorem State.units_showUnits (s : State) : s.showUnits.units = s.units := by simp [State.showUnits]
@[simp] theorem State.units_lostToSlice (s : State) : s.lostToSlice.units = s.units := (rfl)
@[simp] theorem State.units_capacityAfter (s : State) (unit : BitVec 32) : (s.capacityAfter unit).units = s.units := by
  simp [State.capacityAfter]
@[simp] theorem State.units_retireUnit (s : State) (unit : BitVec 32) (cause detail : Nat) :
    (s.retireUnit unit cause detail).units = s.units := by simp [State.retireUnit]
@[simp] theorem State.units_faultDetected (s : State) (unit : BitVec 32) (cause detail : Nat) :
    (s.faultDetected unit cause detail).units = s.units := by simp [State.faultDetected]
@[simp] theorem State.units_suspect (s : State) (b : Nat) : (s.suspect b).units = s.units := (rfl)
@[simp] theorem State.units_suspectStep (s : State) (k b : Nat) : (s.suspectStep k b).units = s.units := by simp [State.suspectStep]
@[simp] theorem State.units_corrected (s : State) (m : BurstMem) : (s.corrected m).units = s.units := by simp [State.corrected]
@[simp] theorem State.units_markBad (s : State) (a : Nat) : (s.markBad a).units = s.units := (rfl)
@[simp] theorem State.units_faultReport (s : State) (cause : Nat) (fields : List (Nat × Nat)) :
    (s.faultReport cause fields).units = s.units := by simp [State.faultReport]
@[simp] theorem State.units_capture (s : State) (n cl img : Nat) : (s.capture n cl img).units = s.units := by
  simp only [State.capture]
  repeat' split
  all_goals simp
@[simp] theorem State.units_checkFail (s : State) (n u k : Nat) (image : Option Nat) : (s.checkFail n u k image).units = s.units := by
  simp only [State.checkFail]
  split <;> simp
@[simp] theorem State.units_suspReport (s : State) (n u : Nat) (step : BitVec 64) (reason : BitVec 16) :
    (s.suspReport n u step reason).units = s.units := by simp [State.suspReport]

/-! ### Scalars and predicates -/

theorem State.files_of_cores {s t : State} (h : t.cores = s.cores) : t.files = s.files := by
  funext m v
  simp only [State.files, State.core, h]

theorem State.files_of_units {s t : State} (h : t.units = s.units) : t.files = s.files :=
  State.files_of_cores (congrArg Units.cores h)

@[simp] theorem State.files_ite (c : Prop) [Decidable c] (s t : State) :
    (if c then s else t).files = if c then s.files else t.files := apply_ite State.files c s t

@[simp] theorem State.files_foldl {α : Type} {f : State → α → State} (l : List α) (h : ∀ (s : State) (x : α), (f s x).files = s.files)
    (s : State) : (l.foldl f s).files = s.files := by
  induction l generalizing s with
  | nil => rfl
  | cons x l ih => exact (ih _).trans (h s x)

/-- A core replaced by one with the same scalars and predicates. -/
theorem State.files_setCore {s : State} {n u : Nat} {c : Core} (h : c.file = s.files n u) : (s.setCore n u c).files = s.files := by
  funext m v
  simp only [State.files, State.core_setCore]
  split
  · next hk => rw [h, State.files, State.core, State.core, hk]
  · rfl

@[simp] theorem State.files_setF (s : State) (a : Nat) (f : Fld) (v : Nat) : (s.setF a f v).files = s.files := (rfl)
@[simp] theorem State.files_bump (s : State) (a : Nat) (f : Fld) (n : Nat) : (s.bump a f n).files = s.files := (rfl)
@[simp] theorem State.files_wrapAdd (s : State) (a : Nat) (f : Fld) (n : Nat) : (s.wrapAdd a f n).files = s.files := (rfl)
@[simp] theorem State.files_setIsland (s : State) (n : Nat) (x : Island) : (s.setIsland n x).files = s.files := (rfl)
@[simp] theorem State.files_setCluster (s : State) (n cl : Nat) (c : Cluster) : (s.setCluster n cl c).files = s.files := (rfl)
@[simp] theorem State.files_event (s : State) (cls code flags : Nat) (unit : BitVec 32) (detail : Nat) :
    (s.event cls code flags unit detail).files = s.files := State.files_of_units (by simp)
@[simp] theorem State.files_setFs (s : State) (a : Nat) (l : List (Fld × Nat)) : (s.setFs a l).files = s.files :=
  State.files_of_units (by simp)
@[simp] theorem State.files_islandFault (s : State) (n code residue : Nat) : (s.islandFault n code residue).files = s.files := by
  funext m v
  exact congrArg Core.file (State.core_islandFault s n code residue m v)
@[simp] theorem State.files_coreFault (s : State) (n u : Nat) (cs : List Cause) : (s.coreFault n u cs).files = s.files := by
  simp only [State.coreFault, State.files_islandFault, State.files_ite, State.files_setFs, ite_self]
  exact State.files_setCore rfl
@[simp] theorem State.files_switchFault (s : State) (n cl code : Nat) : (s.switchFault n cl code).files = s.files := by
  simp only [State.switchFault]
  split <;> simp
@[simp] theorem State.files_freeTracker (s : State) (n u k : Nat) : (s.freeTracker n u k).files = s.files := State.files_setCore rfl
@[simp] theorem State.files_applyAdds (s : State) (n : Nat) : (s.applyAdds n).files = s.files := by
  refine (State.files_setIsland ..).trans (State.files_foldl _ (fun s p => ?_) s)
  split <;> simp
@[simp] theorem State.files_writeMbx (s : State) (n u e : Nat) (data : Line) (prov : BitVec 2) :
    (s.writeMbx n u e data prov).files = s.files := State.files_setCore rfl
@[simp] theorem State.files_applySignal (s : State) (g : Signal) : (s.applySignal g).files = s.files := by
  simp only [State.applySignal, State.addCounter]
  split <;> simp
@[simp] theorem State.files_landEnd (s : State) (e : LandEnd) : (s.landEnd e).files = s.files := by
  simp only [State.landEnd]
  split <;> simp
@[simp] theorem State.files_landWrite (s : State) (n : Nat) (w : LandWrite) (rest : List LandWrite) :
    (s.landWrite n w rest).files = s.files := by
  simp only [State.landWrite]
  split <;> simp
@[simp] theorem State.files_landOne (s : State) (n : Nat) (busy : List Nat) : (s.landOne n busy).files = s.files := by
  simp only [State.landOne]
  split <;> simp

@[simp] theorem Core.file_setIdleStage (c : Core) (st : Stage) : (c.setIdleStage st).file = c.file := by
  simp only [Core.setIdleStage]
  split <;> rfl

@[simp] theorem State.files_distribute (s : State) (n : Nat) : (s.distribute n).files = s.files := by
  simp only [State.distribute]
  split
  · split
    · simp
    · exact State.files_foldl _ (fun s u => State.files_setCore (Core.file_setIdleStage ..)) _
  · rfl
@[simp] theorem State.files_anyCycle (s : State) (n : Nat) (busy : List Nat) : (s.anyCycle n busy).files = s.files := by
  simp [State.anyCycle]
@[simp] theorem State.files_rereadSync (s : State) (n u : Nat) : (s.rereadSync n u).files = s.files := State.files_setCore rfl
@[simp] theorem State.files_waitCycle (s : State) (n : Nat) : (s.waitCycle n).files = s.files := by simp [State.waitCycle]
@[simp] theorem State.files_waitFor (n k : Nat) (s : State) : (State.waitFor n k s).files = s.files := by
  induction k generalizing s with
  | zero => rfl
  | succ k ih => simp [State.waitFor, ih]

theorem Core.rs_congr {c d : Core} (h : c.file = d.file) (r : BitVec 5) : c.rs r = d.rs r := by
  simp only [Core.rs, congrArg ScalarFile.sregs h, show c.sregs = d.sregs from congrArg ScalarFile.sregs h]

theorem Core.rp_congr {c d : Core} (h : c.file = d.file) (p : BitVec 3) : c.rp p = d.rp p := by
  simp only [Core.rp, show c.preds = d.preds from congrArg ScalarFile.preds h]

/-! ### The islands' pace -/

theorem State.paces_of_islands {s t : State} (h : t.islands = s.islands) : t.paces = s.paces := by
  funext m
  simp only [State.paces, State.island, h]

theorem State.paces_of_units {s t : State} (h : t.units = s.units) : t.paces = s.paces :=
  State.paces_of_islands (congrArg Units.islands h)

@[simp] theorem State.paces_ite (c : Prop) [Decidable c] (s t : State) :
    (if c then s else t).paces = if c then s.paces else t.paces := apply_ite State.paces c s t

@[simp] theorem State.paces_foldl {α : Type} {f : State → α → State} (l : List α) (h : ∀ (s : State) (x : α), (f s x).paces = s.paces)
    (s : State) : (l.foldl f s).paces = s.paces := by
  induction l generalizing s with
  | nil => rfl
  | cons x l ih => exact (ih _).trans (h s x)

/-- An island replaced by one with other traffic. -/
theorem State.paces_setIsland {s : State} {n : Nat} {x : Island} (h : x.pace = s.paces n) : (s.setIsland n x).paces = s.paces := by
  funext m
  simp only [State.paces, State.island_setIsland]
  split
  · next hm => rw [h, hm, State.paces]
  · rfl

@[simp] theorem State.paces_setF (s : State) (a : Nat) (f : Fld) (v : Nat) : (s.setF a f v).paces = s.paces := (rfl)
@[simp] theorem State.paces_bump (s : State) (a : Nat) (f : Fld) (n : Nat) : (s.bump a f n).paces = s.paces := (rfl)
@[simp] theorem State.paces_wrapAdd (s : State) (a : Nat) (f : Fld) (n : Nat) : (s.wrapAdd a f n).paces = s.paces := (rfl)
@[simp] theorem State.paces_setCore (s : State) (n u : Nat) (c : Core) : (s.setCore n u c).paces = s.paces := (rfl)
@[simp] theorem State.paces_setCluster (s : State) (n cl : Nat) (c : Cluster) : (s.setCluster n cl c).paces = s.paces := (rfl)
@[simp] theorem State.paces_freeTracker (s : State) (n u k : Nat) : (s.freeTracker n u k).paces = s.paces := (rfl)
@[simp] theorem State.paces_applyAdds (s : State) (n : Nat) : (s.applyAdds n).paces = s.paces := by
  have hadds : ∀ l : List SideAdd, (l.foldl (fun (s : State) p =>
      match p.free with
      | some (u, k) => (s.wrapAdd (aIslSync n p.ctr) F.islSync_value p.amt.toNat).freeTracker n u k
      | none => s.wrapAdd (aIslSync n p.ctr) F.islSync_value p.amt.toNat) s).paces = s.paces := fun l =>
    State.paces_foldl _ (fun s p => by split <;> simp) s
  refine (State.paces_setIsland ?_).trans (hadds _)
  exact (congrFun (hadds _) n).symm
@[simp] theorem State.paces_writeMbx (s : State) (n u e : Nat) (data : Line) (prov : BitVec 2) :
    (s.writeMbx n u e data prov).paces = s.paces := (rfl)
@[simp] theorem State.paces_applySignal (s : State) (g : Signal) : (s.applySignal g).paces = s.paces := by
  simp only [State.applySignal]
  split
  · simp
  · exact State.paces_setIsland rfl
  · rfl
@[simp] theorem State.paces_landEnd (s : State) (e : LandEnd) : (s.landEnd e).paces = s.paces := by
  simp only [State.landEnd]
  split <;> simp
@[simp] theorem State.paces_landWrite (s : State) (n : Nat) (w : LandWrite) (rest : List LandWrite) :
    (s.landWrite n w rest).paces = s.paces := by
  have hset : ((s.writeMbx n w.unit w.entry w.data w.prov).setIsland n { (s.writeMbx n w.unit w.entry w.data w.prov).island n with
      released := rest }).paces = s.paces := State.paces_setIsland rfl
  simp only [State.landWrite]
  split <;> simp [hset]
@[simp] theorem State.paces_landOne (s : State) (n : Nat) (busy : List Nat) : (s.landOne n busy).paces = s.paces := by
  simp only [State.landOne]
  split <;> simp
@[simp] theorem State.paces_distribute (s : State) (n : Nat) : (s.distribute n).paces = s.paces := by
  simp only [State.distribute]
  split
  · split
    · exact State.paces_setIsland rfl
    · exact (State.paces_foldl _ (fun s u => State.paces_setCore ..) _).trans (State.paces_setIsland rfl)
  · rfl
@[simp] theorem State.paces_anyCycle (s : State) (n : Nat) (busy : List Nat) : (s.anyCycle n busy).paces = s.paces := by
  simp only [State.anyCycle, State.paces_ite, State.paces_bump, ite_self, State.paces_distribute]
  exact (State.paces_setIsland (by rfl)).trans (by simp)
@[simp] theorem State.paces_rereadSync (s : State) (n u : Nat) : (s.rereadSync n u).paces = s.paces := (rfl)

/-- A cycle held for wait.cyc counts (R87), and leaves the island's pace otherwise as it was. -/
theorem State.paces_waitCycle (s : State) (n : Nat) : (s.waitCycle n).paces n = (s.paces n).nextCyc := by
  have h : (((s.anyCycle n []).liveCores n).foldl (fun s u => s.rereadSync n u) (s.anyCycle n [])).paces = s.paces := by simp
  simp only [State.waitCycle, State.paces, State.island_setIsland_same]
  exact congrArg Island.nextCyc (congrFun h n)

end Sys2Proof.Machine
end

section
/-! Counters, waits and steps (R174 to R182, R207). -/

namespace Sys2Proof.Machine

theorem State.cyc_paces (s : State) (m : Nat) : (s.paces m).cyc = (s.island m).cyc := rfl

/-- The machine after `k` cycles held for wait.cyc counts them (R87, R178). -/
theorem State.paces_waitFor (n k : Nat) (s : State) (hk : (s.island n).cyc + k < 2 ^ 32) :
    (State.waitFor n k s).paces n = { s.paces n with cyc := (s.island n).cyc + k } := by
  induction k generalizing s with
  | zero => rfl
  | succ k ih =>
    have hone := s.paces_waitCycle n
    have hcyc : ((s.waitCycle n).island n).cyc = (s.island n).cyc + 1 := by
      rw [← State.cyc_paces, hone]
      simp only [Island.nextCyc, State.cyc_paces]
      omega
    rw [State.waitFor, ih _ (by omega), hone, hcyc]
    simp only [Island.nextCyc, Nat.add_assoc, Nat.add_comm 1 k]

@[simp] theorem Core.launch_nil (c : Core) : c.launch [] = c := by simp [Core.launch]

/-- A wait.cyc counts itself late or not, holds the island, and gives it its lag (R178, R207). -/
theorem State.waitCyc_eq (s : State) (n u operand : Nat) :
    let x := s.island n
    let v := State.waitFor n (operand - x.cyc)
      (if operand < x.cyc0 then s.setCore n u ((s.core n u).launch [(1, .waitLate)]) else s)
    let top := max (x.waitMax.getD 0) operand
    s.waitCyc n u operand = v.setIsland n { v.island n with lag := (v.island n).cyc - top, waitMax := some top } := by
  intro x v top
  cases hm : (s.island n).waitMax <;> simp [State.waitCyc, x, v, top, hm]

/-- A wait.cyc brings the island's count to the operand, and its lag to the count less the largest operand of the cycle (R178, R207). -/
theorem State.island_waitCyc (s : State) (n u operand : Nat) (ho : operand < 2 ^ 32) :
    let x := s.island n
    let y := (s.waitCyc n u operand).island n
    y.cyc = max x.cyc operand ∧ y.waitMax = some (max (x.waitMax.getD 0) operand) ∧
      y.lag = max x.cyc operand - max (x.waitMax.getD 0) operand := by
  intro x y
  have hisland : ((if operand < x.cyc0 then s.setCore n u ((s.core n u).launch [(1, .waitLate)]) else s).island n) = x := by
    split <;> rfl
  have hcyc : ((State.waitFor n (operand - x.cyc) (if operand < x.cyc0 then s.setCore n u ((s.core n u).launch [(1, .waitLate)])
      else s)).island n).cyc = max x.cyc operand := by
    by_cases hle : operand ≤ x.cyc
    · rw [Nat.sub_eq_zero_of_le hle, max_eq_left hle]
      exact congrArg Island.cyc hisland
    · refine (congrArg Island.cyc (State.paces_waitFor n _ _ (by rw [hisland]; omega))).trans ?_
      rw [hisland]
      exact (by omega : x.cyc + (operand - x.cyc) = max x.cyc operand)
  simp only [y, State.waitCyc_eq, State.island_setIsland_same]
  rw [hcyc]
  exact ⟨rfl, rfl, rfl⟩

@[simp] theorem State.files_waitCyc (s : State) (n u operand : Nat) : (s.waitCyc n u operand).files = s.files := by
  simp only [State.waitCyc_eq, State.files_setIsland, State.files_waitFor, State.files_ite]
  split
  · exact State.files_setCore rfl
  · rfl

/-- A wait.cyc whose cycle has come waits for nothing (R178). -/
theorem State.waitCyc_of_le (s : State) (n u operand : Nat) (h : operand ≤ (s.island n).cyc) :
    (s.waitCyc n u operand).regs = s.regs ∧
      (s.waitCyc n u operand).core n u = (s.core n u).launch (if operand < (s.island n).cyc0 then [(1, .waitLate)] else []) := by
  rw [State.waitCyc_eq, Nat.sub_eq_zero_of_le h]
  simp only [State.waitFor, State.core_setIsland]
  split
  · exact ⟨rfl, State.core_setCore_same ..⟩
  · exact ⟨rfl, by simp [Core.launch]⟩

variable {s t : State} {sl : Slot} {n u : Nat}

/-- A wait.cyc that runs joins its bundle and holds the island (R178). -/
theorem Runs.issued_waitCyc (h : Runs s t sl slotX [] n u) {f : Bool} {w : BitVec 24} (hw : f = false → w = 0) (sa : BitVec 5) :
    exec (.waitCyc sl f sa w) s =
      .next ((t.issued (.waitCyc sl f sa w) sl slotX [] n u []).waitCyc n u (if f then w.toNat else ((t.core n u).rs sa).toNat)) := by
  have hlegal : (f || decide (w = 0)) = true := by
    cases f
    · simp [hw rfl]
    · rfl
  refine ((exec_waitCyc ..).trans (h.takes rfl rfl rfl hlegal rfl _ _)).trans ?_
  simp only [State.takeBody, h.quiet.1, h.quiet.2]
  rfl

/-- A counter that has reached the operand of a wait: the wait issues with no effect of its own. -/
theorem Runs.issued_syncWait (h : Runs s t sl slotX [] n u) {m : BitVec 8} {sa : BitVec 5}
    (hr : ctrReached (t.syncCtr n m.toNat) ((t.core n u).rs sa) = true) :
    exec (.syncWait sl m false sa) s = .next (t.issued (.syncWait sl m false sa) sl slotX [] n u []) :=
  (exec_syncWait ..).trans (h.issued (effs := []) (cap := []) rfl rfl rfl rfl (if_pos hr) rfl _ _)

theorem Runs.issued_ccWait (h : Runs s t sl slotX [] n u) {k : BitVec 12} {sa : BitVec 5}
    (hr : ctrReached (BitVec.ofNat 32 (t.getF (aCrpCc k.toNat) F.crpCc_value)) ((t.core n u).rs sa) = true) :
    exec (.ccWait sl k sa) s = .next (t.issued (.ccWait sl k sa) sl slotX [] n u []) :=
  (exec_ccWait ..).trans (h.issued (effs := []) (cap := []) rfl rfl rfl rfl (if_pos hr) rfl _ _)

/-- A breath.end on a core none of whose channels holds a quarter ends its core with its group (R168, R179). -/
theorem Runs.issued_breathEnd (h : Runs s t sl slotX [] n u)
    (hq : ∀ ch < 8, (Tbl.get Chan.empty (t.core n u).chans ch).quarters = []) :
    exec (.breathEnd sl) s = .next (t.issued (.breathEnd sl) sl slotX [] n u [(1, .endBreath)]) := by
  have hnone : ¬ ((List.range 8).any fun ch => !(Tbl.get Chan.empty (t.core n u).chans ch).quarters.isEmpty) = true := by
    simp only [List.any_eq_true, List.mem_range, not_exists, not_and]
    exact fun ch hch => by simp [hq ch hch]
  exact (exec_breathEnd ..).trans (h.issued (effs := [(1, .endBreath)]) (cap := []) rfl rfl rfl rfl (if_neg hnone)
    (portConflict_of_noStore _ _ (by simp)) _ _)

/-- What completes `wait.cyc`. -/
theorem Runs.waits (h : Runs s t sl slotX [] n u) {f : Bool} {w : BitVec 24} (hw : f = false → w = 0) (sa : BitVec 5) :
    let c := t.core n u
    let target := if f then w.toNat else (c.rs sa).toNat
    CompletesWith (exec (.waitCyc sl f sa w) s) fun v =>
      (v.island n).cyc = max (t.island n).cyc target ∧
      (v.island n).waitMax = some (max ((t.island n).waitMax.getD 0) target) ∧
      (v.island n).lag = max (t.island n).cyc target - max ((t.island n).waitMax.getD 0) target ∧
      (∀ r, (v.core n u).rs r = c.rs r) ∧ (∀ p, (v.core n u).rp p = c.rp p) ∧ t.sameMemory v ∧
      (target ≤ (t.island n).cyc → v.regs = t.regs ∧
        v.core n u = (c.openSlot (.waitCyc sl f sa w) sl slotX []).launch
          (if target < (t.island n).cyc0 then [(1, Eff.waitLate)] else [])) := by
  intro c target
  have htarget : target < 2 ^ 32 := by
    simp only [target]
    split
    · exact w.isLt.trans (by decide)
    · exact (c.rs sa).isLt
  have hfile : (((t.issued (.waitCyc sl f sa w) sl slotX [] n u []).waitCyc n u target).core n u).file = c.file := by
    refine (congrFun (congrFun (State.files_waitCyc ..) n) u).trans ?_
    exact (congrArg Core.file (State.core_setCore_same t n u _)).trans rfl
  have hkept : ((t.issued (.waitCyc sl f sa w) sl slotX [] n u []).waitCyc n u target).kept = t.kept := State.kept_waitCyc ..
  obtain ⟨hcyc, hmax, hlag⟩ := State.island_waitCyc (t.issued (.waitCyc sl f sa w) sl slotX [] n u []) n u target htarget
  refine ⟨_, h.issued_waitCyc hw sa, hcyc, hmax, hlag, Core.rs_congr hfile, Core.rp_congr hfile, ?_, fun hle => ?_⟩
  · exact ⟨congrArg Backing.mem hkept, congrArg Backing.tags hkept, congrArg Backing.bad hkept⟩
  · obtain ⟨hregs, hcore⟩ := State.waitCyc_of_le (t.issued (.waitCyc sl f sa w) sl slotX [] n u []) n u target hle
    refine ⟨hregs, hcore.trans ?_⟩
    rw [State.issued, State.core_setCore_same, Core.launch_nil]
    rfl

end Sys2Proof.Machine

namespace Sys2Proof

open Machine

/-- Settles O10: a wait.cyc by the cycles it holds, the others by their bodies. -/
theorem countersWaitsAndSteps : Obligations.CountersWaitsAndSteps := by
  refine ⟨?_, ?_⟩
  · intro s t sl m rd sa imm k w n u c ctr
    refine ⟨fun h => ⟨?_, ?_, ?_, fun hr => ?_, fun hr => ?_, fun f hf => ?_⟩, fun h => ?_⟩
    · exact (exec_syncAdd ..).trans (h.issued (effs := [(2, .syncAdd m.toNat (BitVec.ofNat 32 imm.toNat))]) (cap := [])
        rfl rfl rfl rfl (congrArg (fun x => Body.ok [(2, .syncAdd m.toNat x)] []) (bv_zeroExtend_eq_ofNat imm))
        (portConflict_of_noStore _ _ (by simp)) _ _)
    · exact (exec_syncAdd ..).trans (h.issued (effs := [(2, .syncAdd m.toNat (c.rs sa))]) (cap := []) rfl rfl rfl rfl rfl
        (portConflict_of_noStore _ _ (by simp)) _ _)
    · exact (exec_syncSet ..).trans (h.issued (effs := [(2, .syncSet m.toNat (c.rs sa))]) (cap := []) rfl rfl rfl rfl rfl
        (portConflict_of_noStore _ _ (by simp)) _ _)
    · exact h.issued_syncWait (decide_eq_true hr)
    · exact h.issued_ccWait (decide_eq_true hr)
    · exact h.waits hf sa
    · exact (exec_syncRd ..).trans (h.issued (effs := [(3, .readSync rd.toNat m.toNat ctr)]) (cap := []) rfl rfl rfl rfl rfl
        (portConflict_of_noStore _ _ (by simp)) _ _)
  · intro s t sl sa tag reason n u c
    refine ⟨fun hq h => h.issued_breathEnd hq, fun heven h => ?_, fun htag h => h.issued_provBegin htag, fun h => h.issued_provEnd,
      fun h => ?_⟩
    · exact (exec_stepSet ..).trans (h.issued (effs := [(1, .setStep (c.rsPair sa))]) (cap := []) rfl rfl rfl (decide_eq_true heven)
        rfl (portConflict_of_noStore _ _ (by simp)) _ _)
    · exact (exec_suspSet ..).trans (h.issued (effs := [(1, .suspect c.step reason)]) (cap := []) rfl rfl rfl rfl rfl
        (portConflict_of_noStore _ _ (by simp)) _ _)

end Sys2Proof
end

section
/-! Instructions that do not run: predicated off, or with a reserved encoding (R116, R119, R123, R235). -/

namespace Sys2Proof.Machine

/-! ### The breath's state under records and messages -/

/-- A fold keeps what each of its steps keeps. -/
theorem State.foldl_frame {α β : Type} (g : State → β) {f : State → α → State} (l : List α) (h : ∀ (s : State) (x : α), g (f s x) = g s)
    (s : State) : g (l.foldl f s) = g s := by
  induction l generalizing s with
  | nil => rfl
  | cons x l ih => exact (ih _).trans (h s x)

/-- The breath's record in the package. -/
def State.breath (s : State) : BreathSt := s.brt

@[simp] theorem State.breath_ite (c : Prop) [Decidable c] (s t : State) :
    (if c then s else t).breath = if c then s.breath else t.breath := apply_ite State.breath c s t
@[simp] theorem State.breath_foldl {α : Type} {f : State → α → State} (l : List α)
    (h : ∀ (s : State) (x : α), (f s x).breath = s.breath) (s : State) : (l.foldl f s).breath = s.breath :=
  State.foldl_frame State.breath l h s
@[simp] theorem State.breath_setF (s : State) (a : Nat) (f : Fld) (v : Nat) : (s.setF a f v).breath = s.breath := (rfl)
@[simp] theorem State.breath_bump (s : State) (a : Nat) (f : Fld) (v : Nat) : (s.bump a f v).breath = s.breath := (rfl)
@[simp] theorem State.breath_setIsland (s : State) (n : Nat) (x : Island) : (s.setIsland n x).breath = s.breath := (rfl)
@[simp] theorem State.breath_setFs (s : State) (a : Nat) (l : List (Fld × Nat)) : (s.setFs a l).breath = s.breath := by
  simp [State.setFs]
@[simp] theorem State.breath_queueCtl (s : State) (p : Nat) (c : Ctl) : (s.queueCtl p c).breath = s.breath := (rfl)
@[simp] theorem State.breath_holdCtl (s : State) (c : Ctl) : (s.holdCtl c).breath = s.breath := (rfl)
@[simp] theorem State.breath_loopCtl (s : State) (m : Msg) : (s.loopCtl m).breath = s.breath := (rfl)
@[simp] theorem State.breath_unicast (s : State) (c : Ctl) : (s.unicast c).breath = s.breath := by
  simp only [State.unicast]
  repeat' split
  all_goals simp
@[simp] theorem State.breath_sendTo (s : State) (dest : Nat) (m : Msg) : (s.sendTo dest m).breath = s.breath := by simp [State.sendTo]
@[simp] theorem State.breath_writeEvent (s : State) (cls code flags : Nat) (unit : BitVec 32) (detail : Nat) :
    (s.writeEvent cls code flags unit detail).breath = s.breath := by simp [State.writeEvent]
@[simp] theorem State.breath_mk (regs : Tbl Nat) (mem : List Host.Cell) (tags : Tbl (BitVec 2)) (bad : Tbl Bool)
    (cores clusters islands ctls sram beatAcc ctl flt manifest brt boc tier ports fab gmu rcv nv i3c pins bus fresh pending) :
    (State.mk regs mem tags bad cores clusters islands ctls sram beatAcc ctl flt manifest brt boc tier ports fab gmu rcv nv i3c
      pins bus fresh pending).breath = brt := (rfl)
theorem State.breath_eta (s : State) : s.brt = s.breath := (rfl)
@[simp] theorem State.breath_event (s : State) (cls code flags : Nat) (unit : BitVec 32) (detail : Nat) :
    (s.event cls code flags unit detail).breath = s.breath := by simp [State.event, State.breath_eta]
@[simp] theorem State.breath_faultReport (s : State) (cause : Nat) (fields : List (Nat × Nat)) :
    (s.faultReport cause fields).breath = s.breath := by simp [State.faultReport]

/-! ### A fault of an island that is not fenced -/

/-- An island not yet fenced is, and the breath is aborted (R235). -/
theorem State.islandFault_fences {s : State} {n : Nat} (h : s.isFenced n = false) (code residue : Nat) :
    (s.islandFault n code residue).getF (aIslBreath n) F.islBreath_state = 2 ∧ (s.islandFault n code residue).brt.aborted = true := by
  have habove : islBase 0 ≤ aIslBreath n := by simp only [aIslBreath, islBase]; omega
  simp only [State.islandFault, h, Bool.false_eq_true, if_false, State.breath_eta, State.breath_faultReport, State.breath_event, State.breath_mk]
  refine ⟨?_, trivial⟩
  refine ((State.sparesIslands_sendTo ..).regs _ _ habove).trans (((State.sparesIslands_event ..).regs _ _ habove).trans ?_)
  exact ((State.sparesIslands_dropQueues ..).regs _ _ habove).trans (State.getF_setF_same ..)

/-- A write of another register leaves an island free. -/
theorem State.isFenced_setFs {s : State} {n a : Nat} (ha : a ≠ aIslBreath n) (l : List (Fld × Nat)) (hl : ∀ p ∈ l, p.1.lo < 64) :
    (s.setFs a l).isFenced n = s.isFenced n := by
  have hother : ∀ (l : List (Fld × Nat)) (s : State), (∀ p ∈ l, p.1.lo < 64) →
      (s.setFs a l).getF (aIslBreath n) F.islBreath_state = s.getF (aIslBreath n) F.islBreath_state := by
    intro l
    induction l with
    | nil => exact fun _ _ => rfl
    | cons p l ih =>
      refine fun s hl => (ih (s.setF a p.1 p.2) fun q hq => hl q (List.mem_cons_of_mem p hq)).trans
        (State.getF_setF_other s a p.1 p.2 ?_)
      have hp := hl p List.mem_cons_self
      simp only [fkey, F.islBreath_state]
      omega
  simp only [State.isFenced, hother l s hl]

theorem State.isFenced_setCore (s : State) (m u : Nat) (c : Core) (n : Nat) : (s.setCore m u c).isFenced n = s.isFenced n := rfl

/-- A fault of a core fences its island and aborts the breath (R116, R235). -/
theorem State.coreFault_fences {s : State} {n : Nat} (h : s.isFenced n = false) (u : Nat) (cs : List Cause) :
    (s.coreFault n u cs).getF (aIslBreath n) F.islBreath_state = 2 ∧ (s.coreFault n u cs).brt.aborted = true := by
  simp only [State.coreFault]
  refine State.islandFault_fences ?_ _ _
  split
  · rw [State.isFenced_setFs]
    · exact h
    · simp only [aIslCoreFault, aIslBreath]; omega
    · simp [F.islCoreFault_code, F.islCoreFault_slot, F.islCoreFault_addr, F.islCoreFault_more, F.islCoreFault_cyc]
  · exact h

/-! ### What a core's first fault records -/

/-- The first fault of a core since island reset is recorded with its slot (R116, R119). -/
theorem State.getF_coreFault_slot (s : State) (n u : Nat) (cs : List Cause) (h : s.getF (aIslCoreFault n u) F.islCoreFault_code = 0) :
    (s.coreFault n u cs).getF (aIslCoreFault n u) F.islCoreFault_slot = (faultOf ((s.core n u).causes ++ cs)).1 % 2 ^ 2 := by
  simp only [State.coreFault, State.getF_islandFault_coreFault, h, true_or, if_true]
  refine State.getF_setFs_head (State.setF _ _ _ _) _ F.islCoreFault_slot _ _ ?_
  simp [F.islCoreFault_slot, F.islCoreFault_addr, F.islCoreFault_more, F.islCoreFault_cyc]

/-- One reserved encoding in a bundle that only illegality faults is recorded with its slot (R117). -/
theorem faultOf_slot_of_reserved {cs : List Cause} (hk : ∀ c ∈ cs, c.kind ≠ .fetch ∧ c.kind ≠ .execution) {k : Nat}
    (hr : causeSlots .reserved cs = [k]) (h3 : k < 3) : (faultOf cs).1 = k := by
  have hfetch : (cs.find? fun c => decide (c.kind = .fetch)) = none := by
    rw [List.find?_eq_none]
    exact fun c hc => by simp [(hk c hc).1]
  have hexec : (cs.filter fun c => decide (c.kind = .execution)) = [] := by
    rw [List.filter_eq_nil_iff]
    exact fun c hc => by simp [(hk c hc).2]
  simp only [faultOf, hfetch, hexec, illegalSlot, hr, ne_eq, List.cons_ne_nil, not_false_eq_true, if_true, true_or, or_true]
  exact Nat.min_eq_right h3.le

/-- The reserved encoding of an instruction in its own slot is the only one that it brings. -/
theorem Ctx.causeSlots_reserved_illegal (x : Ctx) (op : Op) (h : op.legal = false) : causeSlots .reserved (x.illegal op) = [op.slot] := by
  simp only [causeSlots, Ctx.illegal, List.filter_append, List.map_append, h, true_or, if_true]
  have hheader : ((if (x.c.open_ = false ∧ 8 ≤ x.c.group) ∨ op.sl.hdr ≠ 0 then [({ kind := .header, slot := 3, code := 0x01 } : Cause)]
      else []).filter fun c => decide (c.kind = .reserved)) = [] := by split <;> simp
  have hdup : ((if dupDest x.c.dests op.slot op.dests = true then
      ({ kind := .duplicate, slot := op.slot, code := 0x01 } : Cause) ::
        (x.c.dests.filter fun p => decide (p.1 ≠ op.slot) && op.dests.contains p.2).map fun p =>
          { kind := .duplicate, slot := p.1, code := 0x01 }
      else []).filter fun c => decide (c.kind = .reserved)) = [] := by split <;> simp [List.filter_map, Function.comp_def]
  rw [hheader, hdup]
  rfl

/-! ### Slots that do not execute -/

variable {s t : State} {op : Op} {n u : Nat}

/-- A legal encoding in a sound bundle, with destinations of its own, brings no illegality. -/
theorem Reaches.lawful (h : Reaches s t op.sl op.slot n u) (hl : op.legal = true)
    (hd : dupDest (t.core n u).dests op.slot op.dests = false) : (t.ctx n u op.sl).illegal op = [] := by
  obtain ⟨-, hhdr, hres⟩ := h.clean
  have hg : ¬ ((t.core n u).open_ = false ∧ 8 ≤ (t.core n u).group) := by
    rintro ⟨hopen, hgroup⟩
    rcases h.group with hg | hg
    · exact absurd (hopen.symm.trans hg) (by decide)
    · omega
  simp [Ctx.illegal, State.ctx_c, hl, hd, hhdr, hres, hg]

/-- An instruction whose predicate is false takes its place in the bundle and does nothing (R78, R123). -/
theorem Reaches.predicated_off (h : Reaches s t op.sl op.slot n u) (hl : op.legal = true)
    (hd : dupDest (t.core n u).dests op.slot op.dests = false) (hp : (t.core n u).rp op.sl.pred = false) (legal : Bool)
    (body : State → CtlCore → CtlBody) :
    issue s op legal body = .next (t.setCore n u ((t.core n u).openSlot op.i op.sl op.slot op.dests)) := by
  have hexec : (t.ctx n u op.sl).executes op = false := by simp [Ctx.executes, State.ctx_c, hp]
  have hcauses : (t.ctx n u op.sl).causes op = [] := by simp [Ctx.causes, h.lawful hl hd, hexec]
  have hfetch : (t.ctx n u op.sl).fetchEffs = [] := if_neg fun hf => absurd (h.clean.1.symm.trans hf.2) (by decide)
  rw [h.issues rfl rfl legal body, h.issueNow rfl, hcauses, if_neg (by simp), hp, hfetch, Core.launch_nil]
  rfl

/-- A reserved encoding faults its core, and with it the island and the breath (R116, R119, R123, R235). -/
theorem Reaches.reserved (h : Reaches s t op.sl op.slot n u) (hl : op.legal = false)
    (hf : t.getF (aIslCoreFault n u) F.islCoreFault_code = 0) (hfree : t.isFenced n = false) (legal : Bool)
    (body : State → CtlCore → CtlBody) :
    CompletesWith (issue s op legal body) fun v =>
      (v.core n u).run = .faulted ∧ v.getF (aIslCoreFault n u) F.islCoreFault_code = 1 ∧
      (op.slot < 3 → v.getF (aIslCoreFault n u) F.islCoreFault_slot = op.slot) ∧
      v.getF (aIslBreath n) F.islBreath_state = 2 ∧ v.brt.aborted = true ∧ v.sameMemory t := by
  obtain ⟨v, hv, hrun, hcode⟩ := h.faults_of_not_legal hl hf legal body
  have hne : (t.ctx n u op.sl).illegal op ≠ [] := List.ne_nil_of_mem ((t.ctx n u op.sl).reserved_mem_illegal op hl)
  have hcauses : (((t.core n u).openSlot op.i op.sl op.slot op.dests).launch (t.ctx n u op.sl).fetchEffs).causes = [] := h.whole
  have hstate : v = (t.setCore n u (((t.core n u).openSlot op.i op.sl op.slot op.dests).launch
      (t.ctx n u op.sl).fetchEffs)).coreFault n u ((t.ctx n u op.sl).illegal op) := by
    have hissue := h.issues rfl rfl legal body
    rw [h.issueNow rfl, Ctx.causes_of_not_legal _ op hl, if_pos hne, State.slotFaulted_of_not_legal t n u op hl hne] at hissue
    exact Host.Outcome.next.inj (hv.symm.trans hissue)
  obtain ⟨hbreath, haborted⟩ := State.coreFault_fences (s := t.setCore n u _) hfree u ((t.ctx n u op.sl).illegal op)
  have hkept : v.kept = t.kept := by rw [hstate]; simp
  refine ⟨v, hv, hrun, hcode, fun h3 => ?_, hstate ▸ hbreath, hstate ▸ haborted, ?_⟩
  · rw [hstate, State.getF_coreFault_slot (State.setCore _ n u _) n u _ hf, State.core_setCore_same, hcauses, List.nil_append,
      faultOf_slot_of_reserved ((t.ctx n u op.sl).illegal_kinds op) (Ctx.causeSlots_reserved_illegal _ op hl) h3]
    exact Nat.mod_eq_of_lt (by omega)
  · exact ⟨(congrArg Backing.mem hkept).symm, (congrArg Backing.tags hkept).symm, (congrArg Backing.bad hkept).symm⟩

end Sys2Proof.Machine

namespace Sys2Proof

open Machine

/-- Settles O12: by the causes that the slot brings its bundle. -/
theorem predicatedOffAndIllegal : Obligations.PredicatedOffAndIllegal := fun _ _ _ _ _ legal body h =>
  ⟨fun hl hd hp => h.predicated_off hl hd hp legal body, fun hl hf hfree => h.reserved hl hf hfree legal body⟩

end Sys2Proof
end

section
/-! What an effect delivered writes (R81, R96 to R100, R110, R131). -/

namespace Sys2Proof.Machine

/-! ### Register fields after a counted event -/

/-- A counter counts, and stays at its largest value (R12). -/
@[simp] theorem State.getF_bump_same (s : State) (a : Nat) (f : Fld) (n : Nat) : (s.bump a f n).getF a f = raised f (s.getF a f) n := by
  rw [State.bump, State.getF_setF_same, raised]
  have := Nat.two_pow_pos f.width
  exact Nat.mod_eq_of_lt (by omega)

theorem State.getF_bump_other (s : State) (a : Nat) (f : Fld) (n : Nat) {b : Nat} {g : Fld} (h : fkey b g ≠ fkey a f) :
    (s.bump a f n).getF b g = s.getF b g := State.getF_setF_other s a f _ h

theorem State.regsBut_refl (s : State) (l : List (Nat × Fld)) : s.regsBut s l := fun _ _ _ => rfl

theorem State.regsBut.trans {s t v : State} {l : List (Nat × Fld)} (h : s.regsBut t l) (k : t.regsBut v l) : s.regsBut v l :=
  fun b g hb => (k b g hb).trans (h b g hb)

/-- A write of a listed field. -/
theorem State.regsBut.setF {s t : State} {l : List (Nat × Fld)} (h : s.regsBut t l) {a : Nat} {f : Fld} (ha : (a, f) ∈ l) (v : Nat) :
    s.regsBut (t.setF a f v) l := by
  intro b g hb
  have hk : fkey b g ≠ fkey a f := fun hk => hb (List.mem_map.mpr ⟨(a, f), ha, hk.symm⟩)
  exact (State.getF_setF_other t a f v hk).trans (h b g hb)

theorem State.regsBut.bump {s t : State} {l : List (Nat × Fld)} (h : s.regsBut t l) {a : Nat} {f : Fld} (ha : (a, f) ∈ l) (n : Nat) :
    s.regsBut (t.bump a f n) l := h.setF ha _

/-- A field of a register that none of the listed fields is in. -/
theorem fkey_notMem {a : Nat} {f : Fld} {l : List (Nat × Fld)} (hf : f.lo < 64) (h : ∀ p ∈ l, p.1 ≠ a ∧ p.2.lo < 64) :
    fkey a f ∉ l.map fun p => fkey p.1 p.2 := by
  intro hmem
  obtain ⟨p, hp, hkey⟩ := List.mem_map.mp hmem
  obtain ⟨hne, hlo⟩ := h p hp
  simp only [fkey] at hkey
  omega

/-! ### Numbers packed lane by lane -/

theorem packLanes_succ (w n : Nat) (f : Nat → Nat) :
    packLanes w (n + 1) f = packLanes w n (fun i => f (i + 1)) * 2 ^ w + f 0 % 2 ^ w := by
  simp only [packLanes, List.range_succ_eq_map, List.foldr_cons, List.foldr_map]

/-- A lane of packed lanes. -/
theorem packLanes_lane (w n : Nat) (f : Nat → Nat) {i : Nat} (hi : i < n) : packLanes w n f / 2 ^ (w * i) % 2 ^ w = f i % 2 ^ w := by
  induction n generalizing i f with
  | zero => omega
  | succ n ih =>
    rw [packLanes_succ]
    cases i with
    | zero => simp
    | succ i =>
      have hpos := Nat.two_pow_pos w
      have hlane : (packLanes w n (fun i => f (i + 1)) * 2 ^ w + f 0 % 2 ^ w) / 2 ^ w = packLanes w n (fun i => f (i + 1)) := by
        rw [Nat.mul_comm, Nat.mul_add_div hpos, Nat.div_eq_of_lt (Nat.mod_lt _ hpos), Nat.add_zero]
      rw [Nat.mul_succ, Nat.add_comm (w * i) w, Nat.pow_add, ← Nat.div_div_eq_div_mul, hlane, ih _ (by omega)]

theorem testBit_byteAt {w : Nat} (x : BitVec w) (b k : Nat) : (byteAt x b).testBit k = (decide (k < 8) && x.getLsbD (8 * b + k)) := by
  rw [byteAt, show (256 : Nat) = 2 ^ 8 from rfl, Nat.testBit_mod_two_pow, Nat.testBit_div_two_pow, Nat.add_comm k, BitVec.testBit_toNat]

/-- A byte merged in under a mask of packed bytes, each all ones or zero. -/
theorem byteAt_mergeBits {w : Nat} (old new : BitVec w) {n : Nat} (m : Nat → Bool) {b : Nat} (hb : b < n) (hw : 8 * n = w) :
    byteAt (mergeBits old new (BitVec.ofNat w (packLanes 8 n fun i => if m i then 255 else 0))) b =
      if m b then byteAt new b else byteAt old b := by
  have hmask : ∀ k < 8, (BitVec.ofNat w (packLanes 8 n fun i => if m i then 255 else 0)).getLsbD (8 * b + k) = m b := by
    intro k hk
    have hlane : (packLanes 8 n (fun i => if m i then 255 else 0) / 2 ^ (8 * b) % 2 ^ 8).testBit k = (if m b then 255 else 0 : Nat).testBit k := by
      rw [packLanes_lane 8 n _ hb]
      split <;> rfl
    rw [Nat.testBit_mod_two_pow, Nat.testBit_div_two_pow, Nat.add_comm k, decide_eq_true hk, Bool.true_and] at hlane
    rw [BitVec.getLsbD_ofNat, hlane, decide_eq_true (by omega), Bool.true_and]
    split
    · next hm => rw [hm, show (255 : Nat) = 2 ^ 8 - 1 from rfl, Nat.testBit_two_pow_sub_one, decide_eq_true hk]
    · next hm => rw [Nat.zero_testBit, Bool.eq_false_iff.mpr hm]
  refine Nat.eq_of_testBit_eq fun k => ?_
  rw [apply_ite (fun x : Nat => x.testBit k), testBit_byteAt, testBit_byteAt, testBit_byteAt, mergeBits, BitVec.getLsbD_or,
    BitVec.getLsbD_and, BitVec.getLsbD_and, BitVec.getLsbD_not]
  by_cases hk : k < 8
  · rw [hmask k hk, decide_eq_true (by omega : 8 * b + k < w)]
    cases m b <;> simp
  · simp [hk]

/-! ### Registers of a core -/

variable (c : Core) (cyc : Nat)

theorem Core.apply_setS_eq (r : Nat) (x : BitVec 32) :
    c.apply cyc (.setS r x) = { c with sregs := (c.apply cyc (.setS r x)).sregs } ∧
      ∀ i : BitVec 5, (c.apply cyc (.setS r x)).rs i = if i.toNat = r ∧ r ≠ 0 then x else c.rs i := by
  rw [Core.apply_setS]
  by_cases hr : r = 0
  · simp [hr]
  · simp only [if_neg hr]
    refine ⟨trivial, fun i => ?_⟩
    simp only [Core.rs, Tbl.get_set]
    by_cases hi : i = 0
    · subst hi
      simp [Ne.symm hr]
    · rw [if_neg hi, if_neg hi]
      simp [hr]

theorem Core.apply_setP_eq (p : Nat) (b : Bool) :
    c.apply cyc (.setP p b) = { c with preds := (c.apply cyc (.setP p b)).preds } ∧
      ∀ i : BitVec 3, (c.apply cyc (.setP p b)).rp i = if i.toNat = p ∧ p ≠ 0 then b else c.rp i := by
  rw [Core.apply_setP]
  by_cases hp : p = 0
  · simp [hp]
  · simp only [if_neg hp]
    refine ⟨trivial, fun i => ?_⟩
    simp only [Core.rp, Tbl.get_set]
    by_cases hi : i = 0
    · subst hi
      simp [Ne.symm hp]
    · rw [if_neg hi, if_neg hi]
      simp [hp]

/-- A vector register written under its masks. -/
theorem Core.apply_setV_eq (v : Nat) (mask scales : BitVec 64) (data : BitVec 512) (smask : BitVec 8) :
    let d := c.apply cyc (.setV v mask data smask scales)
    d = { c with vregs := d.vregs, vscales := d.vscales } ∧
      ∀ i : BitVec 5, (i.toNat ≠ v → d.rv i = c.rv i ∧ d.rvs i = c.rvs i) ∧
        (i.toNat = v → (∀ b < 64, byteAt (d.rv i) b = if mask.getLsbD b then byteAt data b else byteAt (c.rv i) b) ∧
          ∀ g < 8, byteAt (d.rvs i) g = if smask.getLsbD g then byteAt scales g else byteAt (c.rvs i) g) := by
  intro d
  have hd : d = _ := Core.apply_setV c cyc v mask data smask scales
  refine ⟨by rw [hd], fun i => ⟨fun hne => ?_, fun heq => ⟨fun b hb => ?_, fun g hg => ?_⟩⟩⟩
  · rw [hd]
    exact ⟨Tbl.get_set_other _ _ _ hne, Tbl.get_set_other _ _ _ hne⟩
  · rw [hd]
    simp only [Core.rv, heq, Tbl.get_set_same]
    exact byteAt_mergeBits _ _ _ hb rfl
  · rw [hd]
    simp only [Core.rvs, heq, Tbl.get_set_same]
    exact byteAt_mergeBits _ _ _ hg rfl

/-- The tensor register holds 31 bits (R131). -/
theorem Core.apply_setTensor_toNat (x : BitVec 32) : (c.apply cyc (.setTensor x)).tensor.toNat = x.toNat % 2 ^ 31 := by
  rw [Core.apply_setTensor, BitVec.toNat_and]
  exact Nat.and_two_pow_sub_one_eq_mod x.toNat 31

/-- A swap exchanges the stages and empties the one that goes idle (R110). -/
theorem Core.apply_swap_stages : (c.apply cyc .swap).activeStage = c.idleStage ∧ (c.apply cyc .swap).idleStage = Stage.empty := by
  rw [Core.apply_swap]
  cases h : c.active1 <;> simp [Core.setIdleStage, Core.activeStage, Core.idleStage, h]

/-! ### The accumulator -/

/-- Contributions from lane `k` on, added each to its lane. -/
theorem Tbl.get_foldl_addLanes (ls : List LaneAdd) (k : Nat) (t : Tbl Lane) (j : Nat) :
    Tbl.get Lane.zero ((ls.zipIdx k).foldl (fun t p => Tbl.set Lane.zero t p.2 ((Tbl.get Lane.zero t p.2).add p.1)) t) j =
      if k ≤ j ∧ j < k + ls.length then (Tbl.get Lane.zero t j).add (ls.getD (j - k) LaneAdd.zero) else Tbl.get Lane.zero t j := by
  induction ls generalizing k t with
  | nil => simp [show ¬ (k ≤ j ∧ j < k) by omega]
  | cons a ls ih =>
    rw [List.zipIdx_cons, List.foldl_cons, ih, Tbl.get_set]
    simp only [List.length_cons]
    rcases lt_trichotomy j k with hlt | rfl | hgt
    · rw [if_neg (by omega), if_neg hlt.ne, if_neg (by omega)]
    · simp
    · obtain ⟨d, rfl⟩ : ∃ d, j = k + 1 + d := ⟨j - (k + 1), by omega⟩
      simp only [show k + 1 + d ≠ k by omega, if_false, show k + 1 + d - (k + 1) = d by omega, show k + 1 + d - k = d + 1 by omega,
        List.getD_cons_succ]
      exact if_congr (by omega) rfl rfl

theorem Core.apply_accAdd_eq (q : Nat) {ls : List LaneAdd} (hls : ls.length = 16) :
    let d := c.apply cyc (.accAdd q ls)
    d = { c with qs := d.qs } ∧ (∀ r, r ≠ q → d.rq r = c.rq r) ∧ (d.rq q).anchor = (c.rq q).anchor ∧
      ∀ j < 16, (d.rq q).lane j = ((c.rq q).lane j).add (ls.getD j LaneAdd.zero) := by
  intro d
  have hq : d.rq q = (c.rq q).addLanes ls := Tbl.get_set_same ..
  refine ⟨rfl, fun r hr => Tbl.get_set_other _ _ _ hr, by rw [hq, QEntry.addLanes], fun j hj => ?_⟩
  rw [hq, QEntry.lane, QEntry.addLanes, Tbl.get_foldl_addLanes, if_pos (by omega), Nat.sub_zero]
  rfl

/-- One value written at `m` keys from `a` on. -/
theorem Tbl.get_foldl_set {α : Type} [DecidableEq α] (d : α) (a m : Nat) (x : α) (t : Tbl α) (r : Nat) :
    Tbl.get d ((List.range m).foldl (fun t i => Tbl.set d t (a + i) x) t) r = if a ≤ r ∧ r < a + m then x else Tbl.get d t r := by
  induction m with
  | zero => simp [show ¬ (a ≤ r ∧ r < a) by omega]
  | succ m ih =>
    rw [List.range_succ, List.foldl_append, List.foldl_cons, List.foldl_nil, Tbl.get_set, ih]
    by_cases hr : r = a + m
    · simp [hr]
    · simp only [if_neg hr]
      exact if_congr (by omega) rfl rfl

theorem Core.apply_accClear_eq {qa qb : Nat} (h : qa ≤ qb) (a : BitVec 11) :
    let d := c.apply cyc (.accClear qa qb a)
    d = { c with qs := d.qs, flight := d.flight } ∧
      ∀ r, d.rq r = if qa ≤ r ∧ r ≤ qb then { anchor := a, lanes := [] } else c.rq r := by
  refine ⟨rfl, fun r => (Tbl.get_foldl_set QEntry.zero qa (qb - qa + 1) _ c.qs r).trans ?_⟩
  exact if_congr (by omega) rfl rfl

/-! ### Stores -/

theorem State.readByte_writeBytes (bs : List Byte) (s : State) (a i : Nat) :
    (s.writeBytes a bs).readByte i = if a ≤ i ∧ i < a + bs.length then bs.getD (i - a) 0 else s.readByte i := by
  induction bs generalizing s a with
  | nil => simp [State.writeBytes, show ¬ (a ≤ i ∧ i < a) by omega]
  | cons b bs ih =>
    rw [State.writeBytes, ih, State.readByte_writeByte, List.length_cons]
    rcases lt_trichotomy i a with hlt | rfl | hgt
    · rw [if_neg (by omega), if_neg hlt.ne, if_neg (by omega)]
    · simp
    · obtain ⟨d, rfl⟩ : ∃ d, i = a + 1 + d := ⟨i - (a + 1), by omega⟩
      simp only [show a + 1 + d ≠ a by omega, if_false, show a + 1 + d - (a + 1) = d by omega, show a + 1 + d - a = d + 1 by omega,
        List.getD_cons_succ]
      exact if_congr (by omega) rfl rfl

theorem State.tagAt_setTags (s : State) (a n : Nat) (tag : BitVec 2) (i : Nat) :
    (s.setTags a n tag).tagAt i = if a / 64 ≤ i / 64 ∧ i / 64 ≤ (a + n - 1) / 64 ∧ n ≠ 0 then tag else s.tagAt i := by
  simp only [State.setTags]
  split
  · next hn => simp [hn]
  · next hn =>
    refine (Tbl.get_foldl_set 0 (a / 64) _ tag s.tags (i / 64)).trans ?_
    have hle : a / 64 ≤ (a + n - 1) / 64 := Nat.div_le_div_right (by omega)
    exact if_congr (by omega) rfl rfl

/-- What a store leaves besides memory, tags and known-bad words. -/
structure Outside where
  regs  : Tbl Nat
  units : Units

def State.outside (s : State) : Outside := ⟨s.regs, s.units⟩

theorem State.outside_writeBytes (bs : List Byte) (s : State) (a : Nat) : (s.writeBytes a bs).outside = s.outside := by
  induction bs generalizing s a with
  | nil => rfl
  | cons b bs ih => exact ih (s.writeByte a b) (a + 1)

theorem State.outside_store (s : State) (a : Nat) (bs : List Byte) (tag : BitVec 2) : (s.store a bs tag).outside = s.outside := by
  refine .trans ?_ (State.outside_writeBytes bs s a)
  simp only [State.store, State.repair, State.setTags]
  repeat' split
  all_goals rfl

theorem State.readByte_store (s : State) (a : Nat) (bs : List Byte) (tag : BitVec 2) (i : Nat) :
    (s.store a bs tag).readByte i = if a ≤ i ∧ i < a + bs.length then bs.getD (i - a) 0 else s.readByte i := by
  refine .trans ?_ (State.readByte_writeBytes bs s a i)
  simp only [State.store, State.repair, State.setTags]
  repeat' split
  all_goals rfl

theorem State.tagAt_store (s : State) (a : Nat) (bs : List Byte) (tag : BitVec 2) (i : Nat) :
    (s.store a bs tag).tagAt i = if a / 64 ≤ i / 64 ∧ i / 64 ≤ (a + bs.length - 1) / 64 ∧ bs ≠ [] then tag else s.tagAt i := by
  have hrepair : (s.store a bs tag).tagAt i = ((s.writeBytes a bs).setTags a bs.length tag).tagAt i := by
    simp only [State.store, State.repair]
    split <;> rfl
  have hbytes : (s.writeBytes a bs).tagAt i = s.tagAt i := by
    clear hrepair
    induction bs generalizing s a with
    | nil => rfl
    | cons b bs ih => exact ih (s.writeByte a b) (a + 1)
  rw [hrepair, State.tagAt_setTags, hbytes]
  simp

end Sys2Proof.Machine

namespace Sys2Proof

open Machine

/-- Settles O13: an effect on a core's registers by its register, a store by its bytes. -/
theorem deliveryWritesItsDestination : Obligations.DeliveryWritesItsDestination := by
  refine ⟨fun c cyc => ⟨fun r x _ => c.apply_setS_eq cyc r x, fun r _ => c.apply_setS_eq cyc r (BitVec.ofNat 32 cyc),
    fun p b _ => c.apply_setP_eq cyc p b, fun v mask scales data smask _ => c.apply_setV_eq cyc v mask scales data smask,
    fun _ => ⟨rfl, rfl⟩, c.apply_setTensor_toNat cyc, (c.apply_swap_stages cyc).1, (c.apply_swap_stages cyc).2,
    fun q ls hls => c.apply_accAdd_eq cyc q hls, fun qa qb a h => c.apply_accClear_eq cyc h a, fun _ _ _ => rfl, fun e => ?_⟩,
    fun s n u => ?_, fun s n u a bytes tag => ?_⟩
  · simp only [Core.apply_takeMbx, Core.rm, Tbl.get_set_same, and_self]
  · rw [State.deliver_waitLate]
    exact ⟨State.getF_bump_same .., (s.regsBut_refl _).bump (by simp) 1, rfl, rfl, rfl, rfl⟩
  · have hout := State.outside_store s (s.tileBase n u + a) bytes tag
    have hunits := congrArg Outside.units hout
    rw [State.deliver_store]
    exact ⟨State.readByte_store _ _ _ _, State.tagAt_store _ _ _ _, congrArg Outside.regs hout, congrArg Units.cores hunits,
      congrArg Units.clusters hunits, congrArg Units.islands hunits⟩

end Sys2Proof
end

section
/-! Effects in flight and the issue cycle that delivers them (R81, R82). -/

namespace Sys2Proof.Machine

/-! ### One effect in flight -/

/-- A core with one effect in flight. -/
def Core.holds (c : Core) (left : Nat) (e : Eff) : Prop := ∃ fresh, c.flight = [{ left := left, fresh := fresh, eff := e }]

theorem Core.holds.due {c : Core} {left : Nat} {e : Eff} (h : c.holds left e) : c.due = if left ≤ 1 then [e] else [] := by
  obtain ⟨fresh, h⟩ := h
  by_cases hl : left ≤ 1
  · cases he : e.setsAstat <;> simp [Core.due, h, hl, he]
  · simp [Core.due, h, hl]

theorem Core.holds.tickFlights {c : Core} {left : Nat} {e : Eff} (h : c.holds left e) (hl : 1 < left) :
    c.tickFlights.holds (left - 1) e := by
  obtain ⟨fresh, h⟩ := h
  exact ⟨false, by simp [Core.tickFlights, h, hl]⟩

theorem Core.holds.tickFlights_done {c : Core} {e : Eff} (h : c.holds 1 e) : c.tickFlights.flight = [] := by
  obtain ⟨fresh, h⟩ := h
  simp [Core.tickFlights, h]

/-- An effect launched is `k` issue cycles nearer after `k` of them (R81). -/
theorem Core.holds_repeat {c : Core} (h : c.flight = []) (lat : Nat) (e : Eff) {k : Nat} (hk : k < lat) :
    (Nat.repeat Core.tickFlights k (c.launch [(lat, e)])).holds (lat - k) e := by
  induction k with
  | zero => exact ⟨true, by simp [Nat.repeat, Core.launch, h]⟩
  | succ k ih =>
    have hone := (ih (by omega)).tickFlights (by omega)
    rwa [Nat.sub_sub] at hone

/-- An effect delivers at the end of its latency-th issue cycle and not before (R81). -/
theorem Core.launch_delivers {c : Core} {lat : Nat} (e : Eff) (h : c.flight = []) (hlat : 1 ≤ lat) :
    (∀ k < lat - 1, (Nat.repeat Core.tickFlights k (c.launch [(lat, e)])).due = []) ∧
      (Nat.repeat Core.tickFlights (lat - 1) (c.launch [(lat, e)])).due = [e] ∧
      (Nat.repeat Core.tickFlights lat (c.launch [(lat, e)])).flight = [] := by
  have hlast : (Nat.repeat Core.tickFlights (lat - 1) (c.launch [(lat, e)])).holds 1 e := by
    have := Core.holds_repeat h lat e (k := lat - 1) (by omega)
    rwa [Nat.sub_sub_self hlat] at this
  refine ⟨fun k hk => ?_, hlast.due, ?_⟩
  · rw [(Core.holds_repeat h lat e (by omega)).due, if_neg (by omega)]
  · obtain ⟨d, rfl⟩ : ∃ d, lat = d + 1 := ⟨lat - 1, by omega⟩
    exact hlast.tickFlights_done

/-! ### The scalars and predicates that effects leave -/

/-- What an effect on a core leaves of its scalars and predicates. -/
def ScalarFile.apply (f : ScalarFile) (cyc : Nat) (e : Eff) : ScalarFile :=
  (({ Core.reset with sregs := f.sregs, preds := f.preds } : Core).apply cyc e).file

theorem Core.file_apply (c : Core) (cyc : Nat) (e : Eff) : (c.apply cyc e).file = c.file.apply cyc e := by
  cases e with
  | setS r x => by_cases hr : r = 0 <;> simp only [ScalarFile.apply, Core.apply_setS, hr, if_true, if_false] <;> rfl
  | setCyc r => by_cases hr : r = 0 <;> simp only [ScalarFile.apply, Core.apply_setCyc, hr, if_true, if_false] <;> rfl
  | readSync r k x => by_cases hr : r = 0 <;> simp only [ScalarFile.apply, Core.apply_readSync, hr, if_true, if_false] <;> rfl
  | setP p b => by_cases hp : p = 0 <;> simp only [ScalarFile.apply, Core.apply_setP, hp, if_true, if_false] <;> rfl
  | swap => simp only [ScalarFile.apply, Core.apply_swap, Core.file_setIdleStage]; rfl
  | fillPart fmt part data => simp only [ScalarFile.apply, Core.apply_fillPart, Core.file_setIdleStage]; rfl
  | _ => rfl

theorem Core.file_foldl_apply (c : Core) (cyc : Nat) (l : List Eff) :
    (l.foldl (fun c e => c.apply cyc e) c).file = l.foldl (fun f e => f.apply cyc e) c.file := by
  induction l generalizing c with
  | nil => rfl
  | cons e l ih => rw [List.foldl_cons, ih, Core.file_apply, List.foldl_cons]

/-- Sets of counters and additions to them reach no core. -/
theorem ScalarFile.apply_of_phase (f : ScalarFile) (cyc : Nat) {e : Eff} (h : e.phase ≠ 0) : f.apply cyc e = f := by
  cases e <;> first
    | rfl
    | exact absurd rfl h

theorem ScalarFile.foldl_apply_phase (f : ScalarFile) (cyc : Nat) (l : List Eff) :
    (l.filter fun e => decide (e.phase = 0)).foldl (fun f e => f.apply cyc e) f = l.foldl (fun f e => f.apply cyc e) f := by
  induction l generalizing f with
  | nil => rfl
  | cons e l ih =>
    by_cases he : e.phase = 0
    · simp [he, ih]
    · simp [he, ih, f.apply_of_phase cyc he]

/-! ### Delivery of one effect, and of a phase -/

theorem State.files_putQuarter (s : State) (n u ch : Nat) (data : Line) (prov : BitVec 2) :
    (s.putQuarter n u ch data prov).files = s.files := by
  simp only [State.putQuarter]
  split <;> exact State.files_setCore rfl

theorem State.files_setCore_eq (s : State) (n u : Nat) (c : Core) (m v : Nat) :
    (s.setCore n u c).files m v = if ckey m v = ckey n u then c.file else s.files m v := by
  simp only [State.files, State.core_setCore, apply_ite Core.file]

/-- A core's place in the table decides its scalars and predicates. -/
theorem State.files_of_ckey (s : State) {m v n u : Nat} (h : ckey m v = ckey n u) : s.files m v = s.files n u := by
  simp only [State.files, State.core, h]

/-- An effect that acts on more than its core leaves the scalars and predicates alone. -/
theorem State.files_deliver_outer (s : State) (n u : Nat) {e : Eff} (h : e.own = false) :
    (s.deliver n u e).files = s.files ∧ ∀ f : ScalarFile, ∀ cyc, f.apply cyc e = f := by
  cases e with
  | store a bytes tag =>
    exact ⟨State.files_of_units (congrArg Outside.units (State.outside_store s _ bytes tag)), fun _ _ => rfl⟩
  | put ch data prov => exact ⟨State.files_putQuarter .., fun _ _ => rfl⟩
  | syncAdd k x => exact ⟨State.files_wrapAdd .., fun _ _ => rfl⟩
  | syncSet k x => exact ⟨State.files_setF .., fun _ _ => rfl⟩
  | suspect step reason => exact ⟨State.files_of_units (State.units_suspReport ..), fun _ _ => rfl⟩
  | corrected => exact ⟨State.files_of_units (State.units_corrected ..), fun _ _ => rfl⟩
  | fetchCorrected => exact ⟨State.files_of_units (State.units_corrected ..), fun _ _ => rfl⟩
  | check lanes image => exact ⟨State.files_of_units (State.units_checkFail ..), fun _ _ => rfl⟩
  | waitLate => exact ⟨State.files_bump .., fun _ _ => rfl⟩
  | remote k r => exact ⟨State.files_setCore rfl, fun _ _ => rfl⟩
  | _ => cases h

theorem State.files_deliver (s : State) (n u : Nat) (e : Eff) (m v : Nat) :
    (s.deliver n u e).files m v = if ckey m v = ckey n u then (s.files n u).apply (s.island n).cyc e else s.files m v := by
  cases he : e.own with
  | false =>
    obtain ⟨hfiles, hfile⟩ := s.files_deliver_outer n u he
    rw [hfiles, hfile]
    split
    · next hk => exact s.files_of_ckey hk
    · rfl
  | true => rw [State.deliver_own _ _ _ e he, State.files_setCore_eq, Core.file_apply]; rfl

theorem State.paces_putQuarter (s : State) (n u ch : Nat) (data : Line) (prov : BitVec 2) :
    (s.putQuarter n u ch data prov).paces = s.paces := by
  simp only [State.putQuarter]
  split
  · rfl
  · exact State.paces_setIsland (s := s.setCore n u _) rfl

theorem State.paces_deliver (s : State) (n u : Nat) (e : Eff) : (s.deliver n u e).paces = s.paces := by
  cases he : e.own with
  | true => rw [State.deliver_own _ _ _ e he, State.paces_setCore]
  | false =>
    cases e with
    | store a bytes tag => exact State.paces_of_units (congrArg Outside.units (State.outside_store s _ bytes tag))
    | put ch data prov => exact State.paces_putQuarter ..
    | syncAdd k x => exact State.paces_wrapAdd ..
    | syncSet k x => exact State.paces_setF ..
    | suspect step reason => exact State.paces_of_units (State.units_suspReport ..)
    | corrected => exact State.paces_of_units (State.units_corrected ..)
    | fetchCorrected => exact State.paces_of_units (State.units_corrected ..)
    | check lanes image => exact State.paces_of_units (State.units_checkFail ..)
    | waitLate => exact State.paces_bump ..
    | remote k r => rfl
    | _ => cases he

/-- Effects of one core delivered in order. -/
theorem State.files_foldl_deliver (l : List Eff) (s : State) (n u m v : Nat) :
    (l.foldl (fun s e => s.deliver n u e) s).files m v =
      if ckey m v = ckey n u then l.foldl (fun f e => f.apply (s.island n).cyc e) (s.files n u) else s.files m v := by
  induction l generalizing s with
  | nil =>
    split
    · next hk => exact s.files_of_ckey hk
    · rfl
  | cons e l ih =>
    have hcyc : ((s.deliver n u e).island n).cyc = (s.island n).cyc := by rw [← State.cyc_paces, State.paces_deliver, State.cyc_paces]
    rw [List.foldl_cons, ih, hcyc, s.files_deliver n u e n u, if_pos rfl, s.files_deliver n u e m v, List.foldl_cons]
    split <;> rfl

@[simp] theorem State.paces_deliverPhase (s : State) (n ph : Nat) (due : List (Nat × List Eff)) :
    (s.deliverPhase n ph due).paces = s.paces := by
  refine State.paces_foldl due (fun s p => ?_) s
  exact State.paces_foldl _ (fun s e => s.paces_deliver n p.1 e) s

theorem ckey_inj {n m u v : Nat} (hu : u < 1024) (hv : v < 1024) : ckey m v = ckey n u ↔ m = n ∧ v = u := by
  simp only [ckey]
  omega

/-- A phase leaves the scalars and predicates of every core that it does not name. -/
theorem State.files_deliverPhase_other (due : List (Nat × List Eff)) (s : State) (n ph m v : Nat)
    (h : ∀ p ∈ due, ckey m v ≠ ckey n p.1) : (s.deliverPhase n ph due).files m v = s.files m v := by
  induction due generalizing s with
  | nil => rfl
  | cons p due ih =>
    refine (ih _ fun q hq => h q (List.mem_cons_of_mem p hq)).trans ?_
    exact (State.files_foldl_deliver _ s n p.1 m v).trans (if_neg (h p List.mem_cons_self))

/-- A phase leaves a core that it names once what the core's effects of that phase leave. -/
theorem State.files_deliverPhase_mem (us : List Nat) (s : State) (n ph u : Nat) (g : Nat → List Eff) (hlt : ∀ v ∈ us, v < 1024)
    (hnd : us.Nodup) (hu : u ∈ us) :
    (s.deliverPhase n ph (us.map fun u => (u, g u))).files n u =
      ((g u).filter fun e => decide (e.phase = ph)).foldl (fun f e => f.apply (s.island n).cyc e) (s.files n u) := by
  induction us generalizing s with
  | nil => cases hu
  | cons v us ih =>
    obtain ⟨hv, hnd⟩ := List.nodup_cons.mp hnd
    have hltv := hlt v List.mem_cons_self
    have hone := State.files_foldl_deliver ((g v).filter fun e => decide (e.phase = ph)) s n v n u
    have hpace : ((((g v).filter fun e => decide (e.phase = ph)).foldl (fun s e => s.deliver n v e) s).island n).cyc = (s.island n).cyc := by
      rw [← State.cyc_paces, State.paces_foldl _ (fun s e => s.paces_deliver n v e), State.cyc_paces]
    rcases List.mem_cons.mp hu with rfl | hu
    · refine (State.files_deliverPhase_other (us.map fun u => (u, g u)) _ n ph n u fun p hp => ?_).trans (hone.trans (if_pos rfl))
      obtain ⟨w, hw, rfl⟩ := List.mem_map.mp hp
      rw [Ne, ckey_inj (hlt w (List.mem_cons_of_mem u hw)) hltv]
      exact fun h => hv (h.2 ▸ hw)
    · refine (ih _ (fun w hw => hlt w (List.mem_cons_of_mem v hw)) hnd hu).trans ?_
      rw [hpace, hone, if_neg]
      rw [ckey_inj hltv (hlt u (List.mem_cons_of_mem v hu))]
      exact fun h => hv (h.2 ▸ hu)

/-- The phases of counters leave every scalar and predicate. -/
theorem State.files_deliverPhase_counters (s : State) (n : Nat) {ph : Nat} (hph : ph ≠ 0) (due : List (Nat × List Eff)) :
    (s.deliverPhase n ph due).files = s.files := by
  refine State.files_foldl due (fun s p => ?_) s
  funext m v
  rw [State.files_foldl_deliver]
  have hsame : ∀ (l : List Eff) (f : ScalarFile),
      (l.filter fun e => decide (e.phase = ph)).foldl (fun f e => f.apply (s.island n).cyc e) f = f := by
    intro l
    induction l with
    | nil => exact fun _ => rfl
    | cons e l ih =>
      intro f
      by_cases he : e.phase = ph
      · simp [he, ih, f.apply_of_phase (s.island n).cyc (he ▸ hph)]
      · simp [he, ih]
  rw [hsame]
  split
  · next hk => exact (s.files_of_ckey hk).symm
  · rfl

/-! ### What else a cycle does -/

theorem State.files_setCore_port (s : State) (n u : Nat) (p : Option Present) :
    (s.setCore n u { (s.core n u).tickFlights with port := p }).files = s.files := State.files_setCore rfl


@[simp] theorem State.files_crossingParity (s : State) (n q : Nat) (bad : Bool) : (s.crossingParity n q bad).files = s.files :=
  State.files_of_units (by simp [State.crossingParity])
@[simp] theorem State.files_xTake (s : State) (n q : Nat) : (s.xTake n q).files = s.files := by
  simp only [State.xTake]
  repeat' split
  all_goals simp
@[simp] theorem State.files_meshOut (s : State) (n cl cyc d : Nat) (p : Present) : (s.meshOut n cl cyc d p).files = s.files := by
  simp only [State.meshOut]
  repeat' split
  all_goals simp
@[simp] theorem State.files_endSwitches (s : State) (n : Nat) : (s.endSwitches n).files = s.files := by simp [State.endSwitches]
@[simp] theorem State.files_moveWord (s : State) (n cl : Nat) (w : BitVec 128) (rep : Nat) : (s.moveWord n cl w rep).files = s.files := by
  refine State.files_foldl _ (fun t id => ?_) s
  cases h : t.sourceData n cl id (routeSrc (t.route n cl id)) <;> simp [h]
@[simp] theorem State.files_runWord (s : State) (n cl : Nat) : (s.runWord n cl).files = s.files := by
  simp only [State.runWord]
  split <;> simp
@[simp] theorem State.files_beginCycle (s : State) (n : Nat) : (s.beginCycle n).files = s.files := by simp [State.beginCycle]
theorem State.files_fetchFaulted (s : State) (n u code : Nat) : (s.fetchFaulted n u code).files = s.files := by
  refine (State.files_coreFault ..).trans (State.files_of_units ?_)
  split <;> simp
@[simp] theorem State.files_fetchIdle (s : State) (n u : Nat) : (s.fetchIdle n u).files = s.files := by
  simp only [State.fetchIdle]
  repeat' split
  · rfl
  · exact State.files_fetchFaulted ..
  · exact State.files_coreFault ..
  · exact State.files_setCore rfl

theorem Core.file_closeBundle (c : Core) : c.closeBundle.file = c.file := by
  simp only [Core.closeBundle]
  repeat' split
  all_goals rfl

/-! ### The cores of an island -/

/-- The cores' table is in canonical form. -/
def State.coresWf (s : State) : Prop := Tbl.wf Core.reset s.cores = true

theorem State.coresWf.setCore {s : State} (h : s.coresWf) (n u : Nat) (c : Core) : (s.setCore n u c).coresWf := Tbl.set_wf _ _ h

theorem State.coresWf.of_units {s t : State} (h : s.coresWf) (hu : t.units = s.units) : t.coresWf := by
  rw [State.coresWf, show t.cores = s.cores from congrArg Units.cores hu]
  exact h

theorem State.coresWf.of_cores {s t : State} (h : s.coresWf) (hu : t.cores = s.cores) : t.coresWf := by rwa [State.coresWf, hu]

/-- The tables of the cores and of the switches. -/
def State.sites (s : State) : Tbl Core × Tbl Cluster := (s.cores, s.clusters)

theorem State.sites_of_units {s t : State} (h : t.units = s.units) : t.sites = s.sites :=
  congrArg (fun x : Units => (x.cores, x.clusters)) h

theorem State.sites_dropQueues (s : State) (n : Nat) : (s.dropQueues n).sites = s.sites := by
  refine (State.foldl_frame State.sites _ (fun s q => ?_) _).trans rfl
  split <;> rfl

/-- A fault of an island reaches its crossings, but no core and no switch (R235). -/
theorem State.sites_islandFault (s : State) (n code residue : Nat) : (s.islandFault n code residue).sites = s.sites := by
  simp only [State.islandFault]
  split
  · rfl
  · refine (State.sites_of_units (State.units_faultReport ..)).trans ((State.sites_of_units (State.units_event ..)).trans ?_)
    exact State.sites_dropQueues ..

theorem State.coresWf.coreFault {s : State} (h : s.coresWf) (n u : Nat) (cs : List Cause) : (s.coreFault n u cs).coresWf := by
  refine State.coresWf.of_cores ?_ (congrArg Prod.fst (State.sites_islandFault ..))
  split
  · exact (h.setCore ..).of_units (State.units_setFs ..)
  · exact h.setCore ..

theorem State.coresWf.fetchIdle {s : State} (h : s.coresWf) (n u : Nat) : (s.fetchIdle n u).coresWf := by
  simp only [State.fetchIdle]
  repeat' split
  · exact h
  · refine State.coresWf.coreFault (h.of_units ?_) ..
    split <;> simp
  · exact h.coreFault ..
  · exact h.setCore ..

theorem State.coresWf.foldl {α : Type} {f : State → α → State} (l : List α) (hf : ∀ (s : State) (x : α), s.coresWf → (f s x).coresWf)
    {s : State} (h : s.coresWf) : (l.foldl f s).coresWf := by
  induction l generalizing s with
  | nil => exact h
  | cons x l ih => exact ih (hf s x h)

theorem Tbl.okFrom_keys {α : Type} [DecidableEq α] {d : α} {t : Tbl α} {lo : Nat} (h : Tbl.okFrom d lo t = true) :
    (∀ k ∈ t.map Prod.fst, lo ≤ k) ∧ (t.map Prod.fst).Nodup := by
  induction t generalizing lo with
  | nil => simp
  | cons p t ih =>
    simp only [Tbl.okFrom, Bool.and_eq_true, decide_eq_true_eq] at h
    obtain ⟨⟨hlo, -⟩, ht⟩ := h
    obtain ⟨hge, hnd⟩ := ih ht
    refine ⟨?_, List.nodup_cons.mpr ⟨fun hmem => by have := hge _ hmem; omega, hnd⟩⟩
    simp only [List.map_cons, List.mem_cons, forall_eq_or_imp]
    exact ⟨hlo, fun k hk => by have := hge k hk; omega⟩

theorem State.liveCores_lt (s : State) (n : Nat) : ∀ u ∈ s.liveCores n, u < 1024 := by
  intro u hu
  obtain ⟨p, -, rfl⟩ := List.mem_map.mp hu
  exact Nat.mod_lt _ (by decide)

/-- Each core of an island is listed once. -/
theorem State.coresWf.liveCores_nodup {s : State} (h : s.coresWf) (n : Nat) : (s.liveCores n).Nodup := by
  have hkeys : ((s.cores.filter fun p => decide (p.1 / 1024 = n)).map Prod.fst).Nodup :=
    (Tbl.okFrom_keys h).2.sublist (List.filter_sublist.map _)
  have hfrom : s.liveCores n = ((s.cores.filter fun p => decide (p.1 / 1024 = n)).map Prod.fst).map (· % 1024) := by
    rw [State.liveCores, List.map_map]
    rfl
  rw [hfrom]
  refine hkeys.map_on ?_
  intro x hx y hy hxy
  obtain ⟨p, hp, rfl⟩ := List.mem_map.mp hx
  obtain ⟨q, hq, rfl⟩ := List.mem_map.mp hy
  have hp := of_decide_eq_true (List.mem_filter.mp hp).2
  have hq := of_decide_eq_true (List.mem_filter.mp hq).2
  change p.1 % 1024 = q.1 % 1024 at hxy
  omega

/-- A core that is not listed is as after reset. -/
theorem State.core_of_notMem_liveCores {s : State} {n u : Nat} (hu : u < 1024) (h : u ∉ s.liveCores n) : s.core n u = Core.reset := by
  refine Tbl.get_of_notMem_keys _ fun hmem => h ?_
  obtain ⟨p, hp, hk⟩ := List.mem_map.mp hmem
  simp only [ckey] at hk
  exact List.mem_map.mpr ⟨p, List.mem_filter.mpr ⟨hp, by simp only [decide_eq_true_eq]; omega⟩, by omega⟩

/-! ### An issue cycle -/

/-- A cycle's end leaves each core of the island what its due effects leave (R81, R82). -/
theorem State.files_deliverCycle {s : State} (hwf : s.coresWf) (n : Nat) {u : Nat} (hu : u < 1024) :
    (s.deliverCycle n).files n u = ((s.core n u).due.foldl (fun c e => c.apply (s.island n).cyc e) (s.core n u)).file ∧
      ∀ m v, m ≠ n → v < 1024 → (s.deliverCycle n).files m v = s.files m v := by
  have hticked : ∀ l : List Nat, (l.foldl (fun s u => s.setCore n u { (s.core n u).tickFlights with port := none }) s).files = s.files :=
    fun l => State.files_foldl l (fun s u => s.files_setCore_port n u _) s
  have hpace : ∀ l : List Nat, (l.foldl (fun s u => s.setCore n u { (s.core n u).tickFlights with port := none }) s).paces = s.paces :=
    fun l => State.paces_foldl l (fun s u => State.paces_setCore ..) s
  have hend : ∀ s : State, ((s.liveCores n).foldl (fun s u => s.setCore n u (s.core n u).closeBundle) s).files = s.files :=
    fun s => State.files_foldl _ (fun s u => State.files_setCore (Core.file_closeBundle _)) s
  rw [State.deliverCycle, hend, State.files_anyCycle, State.files_deliverPhase_counters _ n (by decide),
    State.files_deliverPhase_counters _ n (by decide), State.files_endSwitches, Core.file_foldl_apply]
  refine ⟨?_, fun m v hm hv => ?_⟩
  · by_cases hmem : u ∈ s.liveCores n
    · rw [State.files_deliverPhase_mem _ _ n 0 u (fun u => (s.core n u).due) (s.liveCores_lt n) (hwf.liveCores_nodup n) hmem,
        ScalarFile.foldl_apply_phase, hticked, ← State.cyc_paces, hpace, State.cyc_paces]
      rfl
    · rw [State.files_deliverPhase_other, hticked, State.files, State.core_of_notMem_liveCores hu hmem]
      · rfl
      · intro p hp
        obtain ⟨w, hw, rfl⟩ := List.mem_map.mp hp
        rw [Ne, ckey_inj (s.liveCores_lt n w hw) hu]
        exact fun h => hmem (h.2 ▸ hw)
  · rw [State.files_deliverPhase_other, hticked]
    intro p hp
    obtain ⟨w, hw, rfl⟩ := List.mem_map.mp hp
    rw [Ne, ckey_inj (s.liveCores_lt n w hw) hv]
    exact fun h => hm h.1

/-- After its faults are met and its effects delivered, a cycle leaves the scalars and predicates alone. -/
theorem State.files_issueCycle (s : State) (n : Nat) :
    (s.issueCycle n).files = ((((s.liveCores n).foldl (fun s u => s.fetchIdle n u) s).endFaults n).deliverCycle n).files := by
  simp only [State.issueCycle]
  split
  · rfl
  · rw [State.files_beginCycle]
    rfl

end Sys2Proof.Machine

namespace Sys2Proof

open Machine

/-- Settles O14: by what is left of a flight after each cycle, and by the phases of a cycle's delivery. -/
theorem deliveryIsOnTime : Obligations.DeliveryIsOnTime := by
  refine ⟨fun c lat e h hlat => Core.launch_delivers e h hlat, ?_⟩
  intro s n u t due hwf hu hfaults _
  have hwft : t.coresWf := State.coresWf.foldl _ (fun s u h => h.fetchIdle n u) hwf
  obtain ⟨hhere, hother⟩ := State.files_deliverCycle hwft n hu
  have hfiles : (s.issueCycle n).files = (t.deliverCycle n).files := by rw [State.files_issueCycle, ← hfaults]
  have hcore : ((s.issueCycle n).core n u).file = due.file := (congrFun (congrFun hfiles n) u).trans hhere
  refine ⟨Core.rs_congr hcore, Core.rp_congr hcore, fun m v r hm hv => Core.rs_congr ?_ r⟩
  have hsame : t.files = s.files := State.files_foldl _ (fun s u => State.files_fetchIdle s n u) s
  calc ((s.issueCycle n).core m v).file = (t.deliverCycle n).files m v := congrFun (congrFun hfiles m) v
    _ = t.files m v := hother m v hm hv
    _ = s.files m v := by rw [hsame]

end Sys2Proof
end

section
/-! Holds and stalls (R85 to R93, R165, R207, R235). -/

namespace Sys2Proof.Machine

/-! ### A stall cycle counted -/

/-- The register fields in which stall cycles and throttled cycles leave traces, but for the count of stall cycles. -/
def stallFields (n : Nat) : List (Nat × Fld) :=
  [(aIslStallCnt n, F.islStallCnt_episodes), (aIslStallCnt n, F.islStallCnt_maxRun), (aIslStallCause n, F.islStallCause_mailboxCycles),
   (aIslStallCause n, F.islStallCause_counterCycles), (aIslStallCause n, F.islStallCause_crossingCycles),
   (aIslOverrun n, F.islOverrun_crossingCycles), (aIslStallFirst n, F.islStallFirst_cyc), (aIslStallFirst n, F.islStallFirst_unit),
   (aIslStallFirst n, F.islStallFirst_cause), (aIslStallFirst n, F.islStallFirst_id), (aIslStallFirst n, F.islStallFirst_valid),
   (aIslThrottle n, F.islThrottle_cycles)]

theorem State.sites_setIsland (s : State) (n : Nat) (x : Island) : (s.setIsland n x).sites = s.sites := rfl

theorem State.islands_setIsland (s : State) (n : Nat) (x : Island) :
    (s.setIsland n x).islands = Tbl.set Island.reset s.islands n x := rfl

theorem State.regsBut.setFs {s t : State} {l : List (Nat × Fld)} (h : s.regsBut t l) (a : Nat) {w : List (Fld × Nat)}
    (hw : ∀ p ∈ w, (a, p.1) ∈ l) : s.regsBut (t.setFs a w) l := by
  induction w generalizing t with
  | nil => exact h
  | cons p w ih => exact ih (h.setF (hw p List.mem_cons_self) p.2) fun q hq => hw q (List.mem_cons_of_mem p hq)

theorem State.regsBut.ite {s t v : State} {l : List (Nat × Fld)} {c : Prop} [Decidable c] (ht : s.regsBut t l) (hv : s.regsBut v l) :
    s.regsBut (if c then t else v) l := by
  split
  · exact ht
  · exact hv

/-- A stall cycle's count, its traces, and its part of the island's pace. -/
theorem State.countStall_traces (s : State) (n cyc : Nat) :
    (s.bump (aIslStallCnt n) F.islStallCnt_count 1).regsBut (s.countStall n cyc) (stallFields n) ∧
      (s.countStall n cyc).sites = s.sites ∧
      (s.countStall n cyc).islands = Tbl.set Island.reset s.islands n
        { s.island n with stallRun := (s.island n).stallRun + 1, lag := (s.island n).lag + 1 } := by
  unfold State.countStall
  extract_lets x run has a s1 s2 s3 c s4 s5 s6 f s7 y
  have h7 : s7.units = s.units := by
    have h6 : s6.units = s.units := by simp [s6, s5, s4, s3, s2, s1]
    simp only [s7]
    split <;> simp [h6]
  have hregs : s1.regsBut s7 (stallFields n) := by
    have h2 : s1.regsBut s2 (stallFields n) := ((s1.regsBut_refl _).bump (by simp [stallFields, a]) 1).ite (s1.regsBut_refl _)
    have h3 : s1.regsBut s3 (stallFields n) := (h2.setF (by simp [stallFields, a]) _).ite h2
    have h4 : s1.regsBut s4 (stallFields n) := (h3.bump (by simp [stallFields, c]) 1).ite h3
    have h5 : s1.regsBut s5 (stallFields n) := (h4.bump (by simp [stallFields, c]) 1).ite h4
    have h6 : s1.regsBut s6 (stallFields n) := ((h5.bump (by simp [stallFields, c]) 1).bump (by simp [stallFields]) 1).ite h5
    simp only [s7]
    split
    · exact h6.setFs f (by simp [stallFields, f])
    · exact h6
  have hislands : s7.islands = s.islands := congrArg Units.islands h7
  have hy : y = x := by simp only [y, State.island, hislands, x]
  refine ⟨hregs, (State.sites_setIsland ..).trans (State.sites_of_units h7), ?_⟩
  rw [State.islands_setIsland, hislands, hy]

theorem State.island_countStall (s : State) (n cyc : Nat) : (s.countStall n cyc).island n =
    { s.island n with stallRun := (s.island n).stallRun + 1, lag := (s.island n).lag + 1 } := by
  rw [State.island, (s.countStall_traces n cyc).2.2, Tbl.get_set_same]

theorem State.core_of_sites {s t : State} (h : t.sites = s.sites) (m u : Nat) : t.core m u = s.core m u := by
  rw [State.core, show t.cores = s.cores from congrArg Prod.fst h]
  rfl

theorem State.cluster_of_sites {s t : State} (h : t.sites = s.sites) (m cl : Nat) : t.cluster m cl = s.cluster m cl := by
  rw [State.cluster, show t.clusters = s.clusters from congrArg Prod.snd h]
  rfl

/-! ### A recv that finds its entry empty -/

@[simp] theorem Core.undo_undo (c : Core) : c.undo.undo = c.undo := by
  cases h : c.open_ <;> simp [Core.undo, h]

/-- The bundles of an island's cores taken back. -/
theorem State.core_foldl_undo (us : List Nat) (s : State) (n : Nat) (hlt : ∀ u ∈ us, u < 1024) {m k : Nat} (hk : k < 1024) :
    (us.foldl (fun s u => s.setCore n u (s.core n u).undo) s).core m k =
      if m = n ∧ k ∈ us then (s.core m k).undo else s.core m k := by
  induction us generalizing s with
  | nil => simp
  | cons u us ih =>
    have hu := ckey_inj (n := n) (m := m) (hlt u List.mem_cons_self) hk
    rw [List.foldl_cons, ih _ fun v hv => hlt v (List.mem_cons_of_mem u hv)]
    simp only [State.core_setCore, hu, List.mem_cons]
    by_cases hm : m = n ∧ k = u
    · obtain ⟨rfl, rfl⟩ := hm
      simp
    · simp only [if_neg hm]
      exact if_congr (by tauto) rfl rfl

theorem State.countHeld_traces (n k : Nat) (s : State) (cyc : Nat) :
    (State.countHeld n k cyc s).sites = s.sites ∧ ((State.countHeld n k cyc s).island n).stalls = (s.island n).stalls ∧
      ((State.countHeld n k cyc s).island n).held = (s.island n).held := by
  induction k generalizing s cyc with
  | zero => exact ⟨rfl, rfl, rfl⟩
  | succ k ih =>
    obtain ⟨hsites, hstalls, hheld⟩ := ih (s.countStall n cyc) (cyc + 1)
    rw [State.island_countStall] at hstalls hheld
    exact ⟨hsites.trans (s.countStall_traces n cyc).2.1, hstalls, hheld⟩

/-- A stalling command takes the bundles of its island back, and waits behind them (R86). -/
theorem State.stallWith_eq (s : State) (n : Nat) (st : List StallAt) (i : Instr) (ha : s.brt.aborted = false) :
    let v := s.stallWith n st i
    (v.island n).stalls = st ∧
      (v.island n).held = ((s.liveCores n).flatMap fun k => (s.core n k).cmds).map (fun i => (0, i)) ++ (s.island n).held ++ [(0, i)] ∧
      (∀ m k, k < 1024 → v.core m k = if m = n then (s.core m k).undo else s.core m k) ∧
      ((s.island n).cyc = (s.island n).cyc0 → v.regs = s.regs) := by
  have hother : ∀ (us : List Nat) (s : State), let v := us.foldl (fun s u => s.setCore n u (s.core n u).undo) s
      v.regs = s.regs ∧ v.islands = s.islands := by
    intro us
    induction us with
    | nil => exact fun s => ⟨rfl, rfl⟩
    | cons u us ih => exact fun s => ih (s.setCore n u (s.core n u).undo)
  unfold State.stallWith
  rw [if_neg (by rw [ha]; exact Bool.false_ne_true)]
  extract_lets cmds s1 x s2 s3
  obtain ⟨hregs, hislands⟩ := hother (s.liveCores n) s
  have hx : x = s.island n := by simp only [x, s1, State.island, hislands]
  obtain ⟨hsites, hstalls, hheld⟩ := State.countHeld_traces n (x.cyc - x.cyc0) s2 x.cyc0
  refine ⟨?_, ?_, fun m k hk => ?_, fun hc => ?_⟩
  · rw [State.island_setIsland_same]
    refine hstalls.trans ?_
    rw [State.island_setIsland_same]
  · rw [State.island_setIsland_same]
    refine hheld.trans ?_
    rw [State.island_setIsland_same, ← hx]
  · refine (State.core_of_sites hsites m k).trans ((State.core_foldl_undo _ s n (s.liveCores_lt n) hk).trans ?_)
    by_cases hm : m = n
    · subst hm
      by_cases hmem : k ∈ s.liveCores m
      · simp [hmem]
      · simp only [hmem, and_false, if_false, if_true, State.core_of_notMem_liveCores hk hmem]
        rfl
    · simp [hm]
  · have hnone : s3 = s2 := by simp only [s3, hx, hc, Nat.sub_self, State.countHeld]
    change s3.regs = s.regs
    rw [hnone]
    exact hregs

/-! ### A cycle of an island to which nothing arrives -/

/-- No landing and no addition to a counter waits to enter the island. -/
def State.quietIn (s : State) (n : Nat) : Prop := (s.island n).released = [] ∧ (s.island n).adds = []

theorem State.applyAdds_of_quietIn {s : State} {n : Nat} (h : s.quietIn n) :
    s.applyAdds n = s.setIsland n { s.island n with adds := [] } := by
  simp only [State.applyAdds, h.2, List.foldl_nil]

theorem State.landOne_of_released {s : State} {n : Nat} (h : (s.island n).released = []) (busy : List Nat) : s.landOne n busy = s := by
  simp only [State.landOne, h]

/-- The causes of faults that each core's open bundle has. -/
def State.causesAt (s : State) (m u : Nat) : List Cause := (s.core m u).causes

theorem State.causesAt_setIdleStage (s : State) (n u : Nat) (st : Stage) :
    (s.setCore n u ((s.core n u).setIdleStage st)).causesAt = s.causesAt := by
  funext m v
  simp only [State.causesAt, State.core_setCore]
  split
  · next hk =>
    have hsame : s.core m v = s.core n u := by simp only [State.core, hk]
    rw [hsame, Core.setIdleStage]
    split <;> rfl
  · rfl

/-- The distributor writes the weight stages of cores, and of its island the tile under way (R266). -/
theorem State.distribute_rest (s : State) (n : Nat) :
    (s.distribute n).regs = s.regs ∧ (s.distribute n).causesAt = s.causesAt ∧ (s.quietIn n → (s.distribute n).quietIn n) := by
  have hcores : ∀ (us : List Nat) (p : TreePart) (s : State),
      let v := us.foldl (fun (s : State) u => s.setCore n u ((s.core n u).setIdleStage ((s.core n u).idleStage.fill p.fmt p.part p.data))) s
      v.regs = s.regs ∧ v.causesAt = s.causesAt ∧ v.islands = s.islands := by
    intro us p
    induction us with
    | nil => exact fun s => ⟨rfl, rfl, rfl⟩
    | cons u us ih =>
      intro s v
      obtain ⟨hregs, hcauses, hislands⟩ := ih (s.setCore n u ((s.core n u).setIdleStage ((s.core n u).idleStage.fill p.fmt p.part p.data)))
      exact ⟨hregs, hcauses.trans (s.causesAt_setIdleStage ..), hislands⟩
  unfold State.distribute
  extract_lets x
  split
  · next f p ps _ _ =>
    split
    · refine ⟨rfl, rfl, fun h => ?_⟩
      rw [State.quietIn, State.island_setIsland_same]
      exact h
    · obtain ⟨hregs, hcauses, hislands⟩ := hcores (maskCores f.mask) p
        (s.setIsland n { x with treeIn := ps, fill := (nextPart f.fmt f.part).map fun k => { f with part := k, pieces := 0 } })
      refine ⟨hregs, hcauses, fun h => ?_⟩
      have hisland := State.island_setIsland_same s n
        { x with treeIn := ps, fill := (nextPart f.fmt f.part).map fun k => { f with part := k, pieces := 0 } }
      rw [State.island] at hisland
      rw [State.quietIn, State.island, hislands, hisland]
      exact h
  · exact ⟨rfl, rfl, id⟩

/-- A cycle in which nothing arrives leaves of the registers only a throttled cycle's count. -/
theorem State.anyCycle_of_quietIn {s : State} {n : Nat} (h : s.quietIn n) :
    s.regsBut (s.anyCycle n []) (stallFields n) ∧ (s.anyCycle n []).causesAt = s.causesAt ∧ (s.anyCycle n []).quietIn n := by
  have hadds : (s.setIsland n { s.island n with adds := [] }).landOne n [] = s.setIsland n { s.island n with adds := [] } :=
    State.landOne_of_released (by rw [State.island_setIsland_same]; exact h.1) _
  simp only [State.anyCycle, State.applyAdds_of_quietIn h, hadds, State.island_setIsland_same]
  obtain ⟨hregs, hcauses, hquiet⟩ := State.distribute_rest
    ((s.setIsland n { s.island n with adds := [] }).setIsland n { s.island n with adds := [], landed := false, ticks :=
    (s.island n).ticks + 1 }) n
  have hbut : ∀ v : State, v.regs = s.regs → s.regsBut v (stallFields n) := fun v hv b g _ => by simp only [State.getF, hv]
  have hin := hquiet ⟨by rw [State.island_setIsland_same]; exact h.1, by rw [State.island_setIsland_same]⟩
  split
  · exact ⟨hbut _ hregs, hcauses, hin⟩
  · exact ⟨(hbut _ hregs).bump (by simp [stallFields]) 1, hcauses, hin⟩

/-! ### Stall cycles -/

/-- What a stall cycle leaves before its island's limit is looked at. -/
def State.stalled (s : State) (n : Nat) : State :=
  let t := (s.countStall n (s.island n).cyc).anyCycle n []
  t.setIsland n { (t.island n).nextCyc with cyc0 := (t.island n).nextCyc.cyc, lag0 := (t.island n).lag }

theorem State.stallCycle_eq (s : State) (n : Nat) : s.stallCycle n =
    if (s.stalled n).getF (aIslStallLimit n) F.islStallLimit_cycles < ((s.stalled n).island n).stallRun
      then (s.stalled n).stallTimeoutFault n else s.stalled n := by
  simp only [State.stallCycle, State.stalled, State.island_setIsland_same]
  rfl

/-- An island after a cycle in which it stalled. -/
def Island.afterStall (x : Island) : Island := { x.nextCyc with cyc0 := x.nextCyc.cyc, lag0 := x.lag }

theorem State.pace_stalled (s : State) (n : Nat) : ((s.stalled n).island n).pace =
    ({ (s.island n).pace with stallRun := (s.island n).stallRun + 1, lag := (s.island n).lag + 1 } : Island).afterStall := by
  have hpace : (((s.countStall n (s.island n).cyc).anyCycle n []).island n).pace =
      ({ s.island n with stallRun := (s.island n).stallRun + 1, lag := (s.island n).lag + 1 } : Island).pace := by
    rw [← State.island_countStall s n (s.island n).cyc]
    exact congrFun (State.paces_anyCycle ..) n
  rw [State.stalled, State.island_setIsland_same]
  exact congrArg Island.afterStall hpace

/-- A stall cycle of an island to which nothing arrives counts, and leaves every register but those of stalls and every scalar. -/
theorem State.stalled_step {s : State} {n : Nat} (h : s.quietIn n) :
    s.regsBut (s.stalled n) ((aIslStallCnt n, F.islStallCnt_count) :: stallFields n) ∧
      (s.stalled n).getF (aIslStallCnt n) F.islStallCnt_count =
        raised F.islStallCnt_count (s.getF (aIslStallCnt n) F.islStallCnt_count) 1 ∧
      (s.stalled n).causesAt = s.causesAt ∧ (s.stalled n).quietIn n ∧ (s.stalled n).files = s.files := by
  obtain ⟨hcount, hsites, -⟩ := s.countStall_traces n (s.island n).cyc
  have hq : (s.countStall n (s.island n).cyc).quietIn n := by
    rw [State.quietIn, State.island_countStall]
    exact h
  obtain ⟨hany, hcauses, hquiet⟩ := State.anyCycle_of_quietIn hq
  have hregs := hcount.trans hany
  have hkey : fkey (aIslStallCnt n) F.islStallCnt_count ∉ (stallFields n).map fun p => fkey p.1 p.2 := by
    simp [stallFields, fkey, aIslStallCnt, aIslStallCause, aIslOverrun, aIslStallFirst, aIslThrottle, F.islStallCnt_count,
      F.islStallCnt_episodes, F.islStallCnt_maxRun, F.islStallCause_mailboxCycles, F.islStallCause_counterCycles,
      F.islStallCause_crossingCycles, F.islOverrun_crossingCycles, F.islStallFirst_cyc, F.islStallFirst_unit, F.islStallFirst_cause,
      F.islStallFirst_id, F.islStallFirst_valid, F.islThrottle_cycles]
    omega
  refine ⟨fun b g hb => ?_, ?_, ?_, ?_, ?_⟩
  · rw [List.map_cons, List.mem_cons, not_or] at hb
    exact (hregs b g hb.2).trans (State.getF_bump_other s _ _ 1 hb.1)
  · exact (hregs _ _ hkey).trans (State.getF_bump_same ..)
  · refine (hcauses.trans ?_)
    funext m u
    exact congrArg Core.causes (State.core_of_sites hsites m u)
  · rw [State.quietIn, State.stalled, State.island_setIsland_same]
    exact hquiet
  · rw [State.stalled, State.files_setIsland, State.files_anyCycle]
    exact State.files_of_cores (congrArg Prod.fst hsites)

/-- The fields of an island that tell its pace. -/
theorem State.island_stalled (s : State) (n : Nat) (hcyc : (s.island n).cyc + 1 < 2 ^ 32) :
    let x := s.island n
    let y := (s.stalled n).island n
    y.stallRun = x.stallRun + 1 ∧ y.lag = x.lag + 1 ∧ y.cyc = x.cyc + 1 ∧ y.stalls = x.stalls ∧ y.held = x.held := by
  have h := s.pace_stalled n
  refine ⟨(congrArg Island.stallRun h).trans rfl, (congrArg Island.lag h).trans rfl, (congrArg Island.cyc h).trans ?_,
    (congrArg Island.stalls h).trans rfl, (congrArg Island.held h).trans rfl⟩
  exact Nat.min_eq_left (a := (s.island n).cyc + 1) (by omega)

/-- A register whose fields a stall cycle does not write. -/
theorem State.getF_stalled_other {s : State} {n : Nat} (h : s.quietIn n) {b : Nat} {g : Fld}
    (hb : fkey b g ∉ ((aIslStallCnt n, F.islStallCnt_count) :: stallFields n).map fun p => fkey p.1 p.2) :
    (s.stalled n).getF b g = s.getF b g := (State.stalled_step h).1 b g hb

/-- Stalls leave their traces in the registers from ISL_OVERRUN to ISL_STALL_FIRST. -/
theorem stallFields_addr (n : Nat) : ∀ p ∈ (aIslStallCnt n, F.islStallCnt_count) :: stallFields n,
    islBase n < p.1 ∧ p.1 < islBase n + 0x220 ∧ p.2.lo < 64 := by
  simp [stallFields, aIslStallCnt, aIslStallCause, aIslOverrun, aIslStallFirst, aIslThrottle, F.islStallCnt_count, F.islStallCnt_episodes,
    F.islStallCnt_maxRun, F.islStallCause_mailboxCycles, F.islStallCause_counterCycles, F.islStallCause_crossingCycles,
    F.islOverrun_crossingCycles, F.islStallFirst_cyc, F.islStallFirst_unit, F.islStallFirst_cause, F.islStallFirst_id,
    F.islStallFirst_valid, F.islThrottle_cycles]

theorem stallFields_notMem {n a : Nat} {f : Fld} (ha : a ≤ islBase n ∨ islBase n + 0x220 ≤ a) (hf : f.lo < 64) :
    fkey a f ∉ ((aIslStallCnt n, F.islStallCnt_count) :: stallFields n).map fun p => fkey p.1 p.2 :=
  fkey_notMem hf fun p hp => by
    obtain ⟨h1, h2, h3⟩ := stallFields_addr n p hp
    exact ⟨by omega, h3⟩

theorem stallLimit_notMem (n : Nat) :
    fkey (aIslStallLimit n) F.islStallLimit_cycles ∉ ((aIslStallCnt n, F.islStallCnt_count) :: stallFields n).map fun p => fkey p.1 p.2 :=
  stallFields_notMem (.inr (Nat.le_refl _)) (by decide)

/-- Below its limit an island goes on stalling, and counts (R86 to R88, R92, R207). -/
theorem State.stallFor_counts (k : Nat) {s : State} {n : Nat} (hst : (s.island n).stalls ≠ []) (hq : s.quietIn n)
    (hlim : (s.island n).stallRun + k ≤ s.getF (aIslStallLimit n) F.islStallLimit_cycles)
    (hcnt : s.getF (aIslStallCnt n) F.islStallCnt_count + k < 2 ^ F.islStallCnt_count.width) (hcyc : (s.island n).cyc + k < 2 ^ 32) :
    let x := s.island n
    let t := State.stallFor n k s
    let y := t.island n
    t.getF (aIslStallCnt n) F.islStallCnt_count = s.getF (aIslStallCnt n) F.islStallCnt_count + k ∧ y.stallRun = x.stallRun + k ∧
      y.lag = x.lag + k ∧ y.cyc = x.cyc + k ∧ y.stalls = x.stalls ∧ y.held = x.held ∧ t.files = s.files := by
  induction k generalizing s with
  | zero => exact ⟨rfl, rfl, rfl, rfl, rfl, rfl, rfl⟩
  | succ k ih =>
    obtain ⟨hrun, hlag, hcyc', hstalls, hheld⟩ := s.island_stalled n (by omega)
    obtain ⟨-, hcount, -, hq', hfiles⟩ := State.stalled_step hq
    have hlimit := State.getF_stalled_other hq (stallLimit_notMem n)
    rw [raised, Nat.min_eq_left (by omega)] at hcount
    have hcycle : s.stallCycle n = s.stalled n := by
      rw [State.stallCycle_eq, if_neg]
      rw [hlimit, hrun]
      omega
    have hnext : State.stallFor n (k + 1) s = State.stallFor n k (s.stalled n) := by
      rw [State.stallFor, if_neg (by simpa using hst), hcycle]
    obtain ⟨h1, h2, h3, h4, h5, h6, h7⟩ := ih (s := s.stalled n) (by rw [hstalls]; exact hst) hq' (by rw [hlimit, hrun]; omega)
      (by rw [hcount]; omega) (by rw [hcyc']; omega)
    rw [hnext]
    rw [hcount] at h1
    rw [hrun] at h2
    rw [hlag] at h3
    rw [hcyc'] at h4
    exact ⟨by omega, by omega, by omega, by omega, h5.trans hstalls, h6.trans hheld, h7.trans hfiles⟩

/-! ### A stall that passes the limit -/

theorem State.stallFor_of_stalls_nil (k : Nat) {s : State} {n : Nat} (h : (s.island n).stalls = []) : State.stallFor n k s = s := by
  cases k with
  | zero => rfl
  | succ k => rw [State.stallFor, if_pos (by rw [h]; rfl)]

theorem State.isFenced_of_getF {s t : State} {n : Nat}
    (h : t.getF (aIslBreath n) F.islBreath_state = s.getF (aIslBreath n) F.islBreath_state) : t.isFenced n = s.isFenced n := by
  simp only [State.isFenced, h]

/-- A fault of a switch stops it, fences its island and aborts the breath (R192, R235). -/
theorem State.switchFault_fences {s : State} {n : Nat} (h : s.isFenced n = false) (cl code : Nat) :
    (s.switchFault n cl code).getF (aIslBreath n) F.islBreath_state = 2 ∧ (s.switchFault n cl code).brt.aborted = true ∧
      ((s.switchFault n cl code).cluster n cl).faulted = true := by
  unfold State.switchFault
  extract_lets c a s1 s2
  have h1 : s1.isFenced n = false := h
  have h2 : s2.isFenced n = false := by
    simp only [s2]
    split
    · rw [State.isFenced_setFs]
      · exact h1
      · simp only [a, aIslSwStatus, aIslBreath]; omega
      · simp [F.islSwStatus_state, F.islSwStatus_code, F.islSwStatus_word, F.islSwStatus_cyc]
    · exact h1
  have hsites : s2.sites = s1.sites := by
    refine State.sites_of_units ?_
    simp only [s2, State.units_ite, State.units_setFs, ite_self]
  obtain ⟨hbreath, habort⟩ := State.islandFault_fences h2 code 0
  refine ⟨hbreath, habort, ?_⟩
  rw [State.cluster_of_sites ((State.sites_islandFault ..).trans hsites), State.cluster_setCluster_same]

/-- One execution fault of a slot is recorded with that slot and its code (R117). -/
theorem faultOf_execution {k : Nat} (hk : k < 3) (code : Nat) :
    (faultOf [{ kind := .execution, slot := k, code := code }]).1 = k ∧
      (faultOf [{ kind := .execution, slot := k, code := code }]).2.1 = code := by
  have hmin : min 3 k = k := Nat.min_eq_right hk.le
  simp [faultOf, illegalSlot, causeSlots, lowSlot, hmin]

/-- A single stall that has lasted longer than the limit faults its unit, and the island holds no more (R90, R235). -/
theorem State.stallTimeoutFault_single {s : State} {n : Nat} {a : StallAt} (hst : (s.island n).stalls = [a]) (hf : s.isFenced n = false) :
    let t := s.stallTimeoutFault n
    t.brt.aborted = true ∧ (t.island n).stalls = [] ∧ (t.island n).held = [] ∧ t.getF (aIslBreath n) F.islBreath_state = 2 ∧
      (960 ≤ a.unit → (t.cluster n (a.unit - 960)).faulted = true) ∧
      (a.unit < 960 → (t.core n a.unit).run = .faulted ∧
        (a.slot < 3 → (s.core n a.unit).causes = [] → s.getF (aIslCoreFault n a.unit) F.islCoreFault_code = 0 →
          t.getF (aIslCoreFault n a.unit) F.islCoreFault_code = 0x0A ∧
          t.getF (aIslCoreFault n a.unit) F.islCoreFault_slot = a.slot)) := by
  simp only [State.stallTimeoutFault, hst, List.foldl_cons, List.foldl_nil]
  refine ⟨?_, by rw [State.island_setIsland_same], by rw [State.island_setIsland_same], ?_, fun h => ?_, fun h => ⟨?_, fun h3 hc h0 => ?_⟩⟩
  · split
    · exact (State.coreFault_fences hf ..).2
    · exact (State.switchFault_fences hf ..).2.1
  · split
    · exact (State.coreFault_fences hf ..).1
    · exact (State.switchFault_fences hf ..).1
  · rw [if_neg (by omega)]
    exact (State.switchFault_fences hf ..).2.2
  · rw [if_pos h]
    exact State.core_coreFault_run ..
  · rw [if_pos h]
    obtain ⟨hslot, hcode⟩ := faultOf_execution h3 0x0A
    refine ⟨(State.getF_coreFault_code _ _ _ _ h0).trans ?_, (State.getF_coreFault_slot _ _ _ _ h0).trans ?_⟩
    · rw [hc, List.nil_append, hcode]
      rfl
    · rw [hc, List.nil_append, hslot]
      exact Nat.mod_eq_of_lt (by omega)

theorem breathState_notMem (n : Nat) :
    fkey (aIslBreath n) F.islBreath_state ∉ ((aIslStallCnt n, F.islStallCnt_count) :: stallFields n).map fun p => fkey p.1 p.2 :=
  stallFields_notMem (.inl (Nat.le_refl _)) (by decide)

theorem coreFault_notMem (n u : Nat) :
    fkey (aIslCoreFault n u) F.islCoreFault_code ∉ ((aIslStallCnt n, F.islStallCnt_count) :: stallFields n).map fun p => fkey p.1 p.2 :=
  stallFields_notMem (.inr (by simp only [aIslCoreFault]; omega)) (by decide)

/-- The first cycle of a stall that passes the limit faults (R90). -/
theorem State.stallFor_faults {s : State} {n k : Nat} {a : StallAt} (hst : (s.island n).stalls = [a]) (hq : s.quietIn n) (hk : 0 < k)
    (hlim : s.getF (aIslStallLimit n) F.islStallLimit_cycles < (s.island n).stallRun + 1) :
    State.stallFor n k s = (s.stalled n).stallTimeoutFault n ∧ ((s.stalled n).island n).stalls = [a] := by
  have hstalls : ((s.stalled n).island n).stalls = [a] := (congrArg Island.stalls (s.pace_stalled n)).trans hst
  have hcycle : s.stallCycle n = (s.stalled n).stallTimeoutFault n := by
    rw [State.stallCycle_eq, if_pos]
    rw [State.getF_stalled_other hq (stallLimit_notMem n), show ((s.stalled n).island n).stallRun = (s.island n).stallRun + 1 from
      congrArg Island.stallRun (s.pace_stalled n)]
    exact hlim
  obtain ⟨d, rfl⟩ : ∃ d, k = d + 1 := ⟨k - 1, by omega⟩
  refine ⟨?_, hstalls⟩
  rw [State.stallFor, if_neg (by simp [hst]), hcycle]
  refine State.stallFor_of_stalls_nil d ?_
  simp only [State.stallTimeoutFault, State.island_setIsland_same]

/-! ### A hold ends -/

/-- A slot whose core's turn has come issues at `t`: its core is in a breath, nothing of the slot or its bundle is reserved, faults or
fails a check, its destinations are its own, and its predicate is true. -/
structure Ready (t : State) (sl : Slot) (slot : Nat) (dests : List Nat) (n u : Nat) : Prop where
  run : (t.core n u).run = .issuing
  whole : (t.core n u).causes = []
  group : (t.core n u).open_ = true ∨ (t.core n u).group < 8
  clean : sl.fetch = .clean ∧ sl.hdr = 0 ∧ sl.res = false
  sound : sl.chk = 0
  fetched : (t.ctx n u sl).fetchFault = none
  single : dupDest (t.core n u).dests slot dests = false
  pred : (t.core n u).rp sl.pred = true

/-- Such a slot with a legal encoding puts its effects in flight. -/
theorem Ready.issued {t : State} {sl : Slot} {slot : Nat} {d : List Nat} {n u : Nat} (h : Ready t sl slot d n u) {op : Op} (h1 : op.sl = sl)
    (h2 : op.slot = slot) (h3 : op.dests = d) (hl : op.legal = true) {effs : List (Nat × Eff)}
    (hb : op.body (t.ctx n u sl) = .ok effs []) (hp : portConflict (t.core n u).flight effs = false) :
    t.issueNow n u op = t.issued op.i sl slot d n u effs := by
  subst h1 h2 h3
  obtain ⟨hfetch, hhdr, hres⟩ := h.clean
  have hgroup : ¬ ((t.core n u).open_ = false ∧ 8 ≤ (t.core n u).group) := by
    rintro ⟨hopen, hge⟩
    rcases h.group with hg | hg
    · exact absurd (hopen.symm.trans hg) (by decide)
    · omega
  have hcauses : (t.ctx n u op.sl).causes op = [] := by
    simp [Ctx.causes, Ctx.illegal, Ctx.bodyCauses, State.ctx_c, hl, h.single, hhdr, hres, hgroup, hb, hp]
  have hquiet : (t.ctx n u op.sl).fetchEffs = [] := if_neg fun hf => absurd (hfetch.symm.trans hf.2) (by decide)
  have hchecks : (t.ctx n u op.sl).checkEffs op.slot [] = [] := if_pos h.sound
  simp only [State.issueNow, h.run, reduceCtorEq, false_and, or_self, if_false, h.fetched, h.whole, hcauses, ne_eq, not_true_eq_false,
    h.pred, Bool.not_true, Bool.false_eq_true, State.takeBody, hb, hquiet, hchecks, List.append_nil]
  rfl

/-- A kept command whose turn has come issues at once (R86). -/
theorem issue_of_skip {s : State} {op : Op} {n u : Nat} (hsite : op.sl.site = .core n u) (hcore : s.hasCore n u = true)
    (hskip : (s.island n).skip = some 0) (hstalls : (s.island n).stalls = []) (hhalt : (s.island n).halted = false)
    (legal : Bool) (body : State → CtlCore → CtlBody) :
    issue s op legal body = .next ((s.setIsland n { s.island n with skip := none }).issueNow n u op) := by
  have hunskip : s.unskip n = s.setIsland n { s.island n with skip := none } := by rw [State.unskip, if_neg (by simp [hskip])]
  simp only [issue, hsite, hcore, if_true, State.issueCore, State.advOf, hskip, hstalls, List.isEmpty_nil, Bool.not_true,
    Bool.false_eq_true, if_false, State.advance, hunskip, State.island_setIsland_same, hhalt]

/-- A hold with one kept command ends: the command issues (R86). -/
theorem State.releaseHold_single {t v : State} {n : Nat} {i : Instr} (hheld : (t.island n).held = [(0, i)])
    (hresume : (t.island n).resume = false) (ha : t.brt.aborted = false)
    (hrun : runKept i ((t.setIsland n { t.island n with stalls := [], held := [], resume := false }).setIsland n
      { t.island n with stalls := [], held := [], resume := false, skip := some 0 }) = .next v) (hskip : (v.island n).skip = none) :
    t.releaseHold n = v := by
  have hunskip : v.unskip n = v := by rw [State.unskip, if_pos hskip]
  simp only [State.releaseHold, hresume, ha, Bool.false_eq_true, if_false, List.isEmpty_nil, Bool.not_true, hheld, State.runHeld,
    State.island_setIsland_same, hrun, hunskip]

variable {s t : State} {sl : Slot} {n u : Nat} {vd sa : BitVec 5} {entry : BitVec 6}

/-- A recv whose entry is empty stalls its island (R165). -/
theorem Runs.stalls_recvVector (h : Runs s t sl slotX [dV vd] n u) (hempty : ((t.core n u).rm entry.toNat).full = false) :
    exec (.recvVector sl vd false entry sa) s =
      .next (t.stallWith n [{ unit := u, slot := slotX, cause := 0, id := entry.toNat }] (.recvVector sl vd false entry sa)) := by
  have hbody : (if (!((t.ctx n u sl).c.rm (recvEntry (t.ctx n u sl).c false entry sa)).full) = true then
      Body.stall 0 (recvEntry (t.ctx n u sl).c false entry sa) else
      .ok [(2, .setV vd.toNat (BitVec.ofNat 64 (2 ^ 64 - 1)) ((t.ctx n u sl).c.rm (recvEntry (t.ctx n u sl).c false entry sa)).data 0xFF#8
        plainScales), (1, .takeMbx (recvEntry (t.ctx n u sl).c false entry sa))] []) = Body.stall 0 entry.toNat := by
    refine if_pos ?_
    rw [State.ctx_c]
    exact (congrArg not hempty).trans rfl
  refine (exec_recvVector ..).trans ((h.takes rfl rfl rfl rfl ?_ _ _).trans ?_)
  · exact congrArg ((t.ctx n u sl).bodyCauses slotX) hbody
  · simp only [State.takeBody]
    rw [hbody]
    rfl

theorem Ready.setIsland {d : List Nat} {slot : Nat} (h : Ready t sl slot d n u) (m : Nat) (x : Island) :
    Ready (t.setIsland m x) sl slot d n u :=
  ⟨h.run, h.whole, h.group, h.clean, h.sound, h.fetched, h.single, h.pred⟩

/-- A kept recv issues once its entry is full (R107, R165). -/
theorem Ready.runKept_recvVector (h : Ready t sl slotX [dV vd] n u) (hsite : sl.site = .core n u) (hcore : t.hasCore n u = true)
    (hskip : (t.island n).skip = some 0) (hstalls : (t.island n).stalls = []) (hhalt : (t.island n).halted = false)
    (hfull : ((t.core n u).rm entry.toNat).full = true) :
    ∃ v, runKept (.recvVector sl vd false entry sa) t = .next v ∧ v.island n = { t.island n with skip := none } ∧ v.regs = t.regs ∧
      t.sameMemory v ∧ v.core n u = ((t.core n u).openSlot (.recvVector sl vd false entry sa) sl slotX [dV vd]).launch
        [(2, .setV vd.toNat (BitVec.allOnes 64) ((t.core n u).rm entry.toNat).data 0xFF#8 plainScales), (1, .takeMbx entry.toNat)] := by
  have hissue := (h.setIsland n { t.island n with skip := none }).issued rfl rfl rfl rfl
    (op := { i := .recvVector sl vd false entry sa, sl := sl, slot := slotX, legal := true, dests := [dV vd], body := fun x =>
      if !(x.c.rm (recvEntry x.c false entry sa)).full then .stall 0 (recvEntry x.c false entry sa)
      else .ok [(2, .setV vd.toNat (BitVec.ofNat 64 (2 ^ 64 - 1)) (x.c.rm (recvEntry x.c false entry sa)).data 0xFF#8 plainScales),
        (1, .takeMbx (recvEntry x.c false entry sa))] [] })
    (if_neg (recv_proceeds (sl := sl) (ind := false) (sa := sa) hfull)) (portConflict_of_noStore _ _ (by simp))
  refine ⟨_, (issue_of_skip hsite hcore hskip hstalls hhalt _ _).trans (congrArg Host.Outcome.next hissue), ?_, rfl, ⟨rfl, rfl, rfl⟩, ?_⟩
  · exact State.island_setIsland_same ..
  · exact State.core_setCore_same ..

/-- A hold of one recv whose entry has filled ends with its issue (R86, R107, R165). -/
theorem State.releaseHold_recvVector (h : Ready t sl slotX [dV vd] n u) (hsite : sl.site = .core n u) (hcore : t.hasCore n u = true)
    (hresume : (t.island n).resume = false) (hheld : (t.island n).held = [(0, .recvVector sl vd false entry sa)])
    (hhalt : (t.island n).halted = false) (ha : t.brt.aborted = false) (hfull : ((t.core n u).rm entry.toNat).full = true) :
    let v := t.releaseHold n
    (v.island n).stalls = [] ∧ (v.island n).held = [] ∧ v.regs = t.regs ∧ t.sameMemory v ∧
      v.core n u = ((t.core n u).openSlot (.recvVector sl vd false entry sa) sl slotX [dV vd]).launch
        [(2, .setV vd.toNat (BitVec.allOnes 64) ((t.core n u).rm entry.toNat).data 0xFF#8 plainScales), (1, .takeMbx entry.toNat)] := by
  have hisland := State.island_setIsland_same (t.setIsland n { t.island n with stalls := [], held := [], resume := false }) n
      { t.island n with stalls := [], held := [], resume := false, skip := some 0 }
  obtain ⟨v, hrun, hv, hregs, hmem, hc⟩ := ((h.setIsland n { t.island n with stalls := [], held := [], resume := false }).setIsland n
    { t.island n with stalls := [], held := [], resume := false, skip := some 0 }).runKept_recvVector (sa := sa) (entry := entry)
      hsite hcore (by rw [hisland]) (by rw [hisland]) (by rw [hisland]; exact hhalt) hfull
  rw [hisland] at hv
  rw [State.releaseHold_single hheld hresume ha hrun (by rw [hv])]
  exact ⟨by rw [hv], by rw [hv], hregs, hmem, hc⟩

end Sys2Proof.Machine

namespace Sys2Proof

open Machine

/-- Settles O15: a stall by the cycle it takes back, a long one by induction on its cycles, a hold's end by the command it kept. -/
theorem holdsAndStalls : Obligations.HoldsAndStalls := by
  refine ⟨fun s t sl vd sa entry n u h hempty => ?_, fun s n k hn hst hrel hadds => ⟨fun hlim hcnt hcyc => ?_, fun a k hst hk hlim hf => ?_⟩,
    ?_⟩
  · obtain ⟨hstalls, hheld, hcores, hregs⟩ := t.stallWith_eq n [{ unit := u, slot := slotX, cause := 0, id := entry.toNat }]
      (.recvVector sl vd false entry sa) h.still.2.2.1
    have hkept := State.kept_stallWith t n [{ unit := u, slot := slotX, cause := 0, id := entry.toNat }] (.recvVector sl vd false entry sa)
    exact ⟨_, h.stalls_recvVector hempty, hstalls, hheld, hcores,
      ⟨(congrArg Backing.mem hkept).symm, (congrArg Backing.tags hkept).symm, (congrArg Backing.bad hkept).symm⟩, hregs⟩
  · obtain ⟨h1, h2, h3, h4, h5, h6, h7⟩ := State.stallFor_counts k hst ⟨hrel, hadds⟩ hlim hcnt hcyc
    exact ⟨_, (exec_stallTimeout ..).trans (if_pos hn), h1, h2, h3, h4, h5, h6, fun u r _ =>
      Core.rs_congr (congrFun (congrFun h7 n) u) r⟩
  · have hq : s.quietIn n := ⟨hrel, hadds⟩
    obtain ⟨hfor, hsame⟩ := State.stallFor_faults hst hq hk hlim
    obtain ⟨-, -, hcauses, -, -⟩ := State.stalled_step hq
    have hfenced := State.isFenced_of_getF (State.getF_stalled_other hq (breathState_notMem n))
    obtain ⟨h1, h2, h3, h4, h5, h6⟩ := State.stallTimeoutFault_single hsame (hfenced.trans hf)
    refine ⟨_, (exec_stallTimeout ..).trans (if_pos hn), ?_⟩
    rw [hfor]
    exact ⟨h1, h2, h3, h4, h5, fun hu => ⟨(h6 hu).1, fun h3 hc h0 => (h6 hu).2 h3 ((congrFun (congrFun hcauses n) a.unit).trans hc)
      ((State.getF_stalled_other hq (coreFault_notMem n a.unit)).trans h0)⟩⟩
  · intro s t sl vd sa entry n u k a c hn hst ht hsite hcore hstalls hresume hheld hhalt ha hrun hcauses hgroup hfetch hhdr hres hchk
      hfault hdup hpred hfull
    have hexec : exec (.islandHoldRelease n k) s = .next (t.releaseHold n) := by
      have hgoes : ¬ (t.island n).stalls.isEmpty = true := by simp [hstalls]
      refine (exec_islandHoldRelease ..).trans ((if_pos hn).trans ((if_neg (by simpa using hst)).trans ?_))
      rw [← ht]
      exact congrArg Host.Outcome.next (if_neg hgoes)
    exact ⟨_, hexec, State.releaseHold_recvVector ⟨hrun, hcauses, hgroup, ⟨hfetch, hhdr, hres⟩, hchk, hfault, hdup, hpred⟩ hsite hcore
      hresume hheld hhalt ha hfull⟩

end Sys2Proof
end

section
/-! The control space: plain writes, reads that clear, and the accesses that are refused (R8 to R13). -/

namespace Sys2Proof.Machine

/-! ### Fields of one register -/

/-- The fields of a register start at different bits of its word. -/
theorem RegName.fields_apart (r : RegName) : (r.fields.map Fld.lo).Nodup ∧ ∀ f ∈ r.fields, f.lo < 64 := by
  cases r <;> decide

theorem fkey_ne_of_addr {a b : Nat} {f g : Fld} (h : b ≠ a) (hf : f.lo < 64) (hg : g.lo < 64) : fkey b g ≠ fkey a f := by
  simp only [fkey]
  omega

theorem fkey_ne_of_lo (a : Nat) {f g : Fld} (h : g.lo ≠ f.lo) : fkey a g ≠ fkey a f := by
  simp only [fkey]
  omega

/-- A state without its registers. -/
def State.offRegs (s : State) : State := { s with regs := [] }

/-- A step that may write field `f` of the register at `a`, by its present value alone, and nothing else of the state. -/
structure FieldStep (a : Nat) (step : State → Fld → State) : Prop where
  other : ∀ s f b g, fkey b g ≠ fkey a f → (step s f).getF b g = s.getF b g
  own : ∀ s t f, s.getF a f = t.getF a f → (step s f).getF a f = (step t f).getF a f
  rest : ∀ s f, (step s f).offRegs = s.offRegs

namespace FieldStep

variable {a : Nat} {step : State → Fld → State}

/-- Fields that start at bits of their own are each stepped once. -/
theorem getF_foldl (h : FieldStep a step) {l : List Fld} (hl : (l.map Fld.lo).Nodup) (s : State) {f : Fld} :
    (f ∈ l → (l.foldl step s).getF a f = (step s f).getF a f) ∧ (f.lo ∉ l.map Fld.lo → (l.foldl step s).getF a f = s.getF a f) := by
  induction l generalizing s with
  | nil => simp
  | cons g l ih =>
    obtain ⟨hg, hnd⟩ := List.nodup_cons.mp hl
    refine ⟨fun hf => ?_, fun hf => ?_⟩
    · rcases List.mem_cons.mp hf with rfl | hf
      · exact (ih hnd (step s f)).2 hg
      · have hne : f.lo ≠ g.lo := fun heq => hg (heq ▸ List.mem_map_of_mem hf)
        exact ((ih hnd (step s g)).1 hf).trans (h.own _ _ _ (h.other s g a f (fkey_ne_of_lo a hne)))
    · obtain ⟨hne, hf⟩ : f.lo ≠ g.lo ∧ f.lo ∉ l.map Fld.lo := List.ne_and_not_mem_of_not_mem_cons hf
      exact ((ih hnd (step s g)).2 hf).trans (h.other s g a f (fkey_ne_of_lo a hne))

theorem getF_foldl_other (h : FieldStep a step) {l : List Fld} (hl : ∀ f ∈ l, f.lo < 64) (s : State) {b : Nat} {g : Fld} (hb : b ≠ a)
    (hg : g.lo < 64) : (l.foldl step s).getF b g = s.getF b g := by
  induction l generalizing s with
  | nil => rfl
  | cons f l ih =>
    exact (ih (fun e he => hl e (List.mem_cons_of_mem f he)) (step s f)).trans
      (h.other s f b g (fkey_ne_of_addr hb (hl f List.mem_cons_self) hg))

theorem rest_foldl (h : FieldStep a step) (l : List Fld) (s : State) : (l.foldl step s).offRegs = s.offRegs := by
  induction l generalizing s with
  | nil => rfl
  | cons f l ih => exact (ih (step s f)).trans (h.rest s f)

/-- A step taken of some fields only. -/
theorem filter (h : FieldStep a step) (p : Fld → Bool) : FieldStep a fun s f => if p f then step s f else s where
  other s f b g hk := by
    by_cases hp : p f
    · simp only [hp, if_true, h.other s f b g hk]
    · simp only [hp, Bool.false_eq_true, if_false]
  own s t f hv := by
    by_cases hp : p f
    · simp only [hp, if_true, h.own s t f hv]
    · simp only [hp, Bool.false_eq_true, if_false, hv]
  rest s f := by
    by_cases hp : p f
    · simp only [hp, if_true, h.rest s f]
    · simp only [hp, Bool.false_eq_true, if_false]

/-- A field written by its present value. -/
theorem setF (a : Nat) (x : Fld → Nat → Nat) : FieldStep a fun s f => s.setF a f (x f (s.getF a f)) where
  other s f b g hk := State.getF_setF_other s a f _ hk
  own s t f hv := by simp only [State.getF_setF_same, hv]
  rest _ _ := rfl

end FieldStep

/-! ### What an access makes of the fields -/

/-- One field of a plain write (R10). -/
def State.plainField (a v : Nat) (s : State) (f : Fld) : State :=
  match f.acc with
  | .rw => s.setF a f (v / 2 ^ f.lo)
  | .rw1c => s.setF a f (s.getF a f - (s.getF a f &&& bitsAt v f.lo f.width))
  | _ => s

theorem State.plainWrite_eq (s : State) (r : RegName) (a v : Nat) : s.plainWrite r a v = r.fields.foldl (State.plainField a v) s := rfl

theorem fieldStep_plain (a v : Nat) : FieldStep a (State.plainField a v) where
  other s f b g hk := by
    unfold State.plainField
    split
    · exact State.getF_setF_other s a f _ hk
    · exact State.getF_setF_other s a f _ hk
    · rfl
  own s t f hv := by
    unfold State.plainField
    split
    · simp only [State.getF_setF_same]
    · simp only [State.getF_setF_same, hv]
    · exact hv
  rest s f := by
    unfold State.plainField
    split <;> rfl

/-- One field of the bits that hardware sets in the same cycle (R11). -/
def State.hwField (a hw : Nat) (s : State) (f : Fld) : State :=
  if decide (f.acc = .rw1c) then s.setF a f (s.getF a f ||| bitsAt hw f.lo f.width) else s

theorem fieldStep_hw (a hw : Nat) : FieldStep a (State.hwField a hw) :=
  (FieldStep.setF a fun f x => x ||| bitsAt hw f.lo f.width).filter fun f => decide (f.acc = .rw1c)

/-- One field of a read that clears (R10). -/
def State.rcField (a : Nat) (s : State) (f : Fld) : State := if decide (f.acc = .rc) then s.setF a f f.reset else s

theorem fieldStep_clear (a : Nat) : FieldStep a (State.rcField a) :=
  (FieldStep.setF a fun f _ => f.reset).filter fun f => decide (f.acc = .rc)

/-- A state without its registers and the bus's answer. -/
def State.offBus (s : State) : State := { s with regs := [], bus := ⟨false, 0⟩ }

/-- What is neither a register nor the bus's answer. -/
theorem State.of_offBus {β : Type} (g : State → β) (hg : ∀ s, g s.offBus = g s) {s t : State} (h : t.offBus = s.offBus) : g t = g s := by
  rw [← hg t, h, hg]

theorem State.offBus_foldl {a : Nat} {step : State → Fld → State} (h : FieldStep a step) (l : List Fld) (s : State) :
    (l.foldl step s).offBus = s.offBus ∧ (l.foldl step s).bus = s.bus := by
  have hoff := congrArg State.offBus (h.rest_foldl l s)
  have hbus := congrArg State.bus (h.rest_foldl l s)
  exact ⟨hoff, hbus⟩

theorem State.sameMemory_of_offBus {s t : State} (h : t.offBus = s.offBus) : s.sameMemory t :=
  ⟨State.of_offBus State.mem (fun _ => rfl) h, State.of_offBus State.tags (fun _ => rfl) h, State.of_offBus State.bad (fun _ => rfl) h⟩

/-! ### Which register lies where -/

/-- An access to one register does not move the others (R22, R239). -/
theorem State.regAt_congr {s t : State} {a : Nat} (hoff : t.offBus = s.offBus)
    (hregs : ∀ b g, b ≠ a → g.lo < 64 → t.getF b g = s.getF b g) :
    t.regAt a = s.regAt a := by
  by_cases ha : islBase 0 ≤ a
  · have hne : aBocCapacity ≠ a := by
      have hlt : aBocCapacity < islBase 0 := by decide
      omega
    have hforce : t.boc.force = s.boc.force := State.of_offBus (fun s => s.boc.force) (fun _ => rfl) hoff
    have hnum : t.numIslands = s.numIslands := by
      simp only [State.numIslands, State.perField, hforce, hregs _ F.bocCapacity_islandsPerField hne (by decide)]
    simp only [State.regAt, hnum]
  · simp only [State.regAt, ha, if_false]

/-- No register lies in the valve map's image (R398, R436). -/
theorem State.regAt_valve (s : State) {a : Nat} (h : valveBase ≤ a ∧ a < valveBase + valveSize) : s.regAt a = none := by
  obtain ⟨o, rfl⟩ : ∃ o, a = valveBase + o := ⟨a - valveBase, by omega⟩
  have hsize : o < 667008 := Nat.add_lt_add_iff_left.mp h.2
  have hflt : fltBase ≤ valveBase + o := by
    have : fltBase ≤ valveBase := by decide
    omega
  have hbelow : ¬ islBase 0 ≤ valveBase + o ∧ ¬ bocBase ≤ valveBase + o ∧ ¬ secBase ≤ valveBase + o := by
    have h1 : valveBase + 667008 < islBase 0 := by decide
    have h2 : valveBase + 667008 < bocBase := by decide
    have h3 : valveBase + 667008 < secBase := by decide
    omega
  have hnone : faultReg (valveBase + o - fltBase) = none := by
    rw [show valveBase + o = fltBase + (0x400000 + o) from Nat.add_assoc .., Nat.add_sub_cancel_left]
    simp only [faultReg, regIn]
    rw [if_neg (by omega), if_neg (by omega), if_neg (by omega), if_neg (by omega), if_neg (by omega)]
    simp only [Option.map_eq_none_iff, List.find?_eq_none, decide_eq_true_eq, List.mem_cons, List.not_mem_nil, or_false, forall_eq_or_imp,
      forall_eq]
    omega
  simp only [State.regAt, hbelow, if_false, if_pos hflt, hnone, ite_self]

/-! ### Writes -/

/-- A plain register is written plainly, unless the present state or the value forbids it. -/
theorem State.ctlWrite_of_plain {s : State} {a : Nat} {r : RegName} (h : s.regAt a = some r) (hp : r.plain) (v : Word) :
    s.ctlWrite a v = if s.writeRefused r a || writeReserved r v.toNat then s.busDone true else (s.plainWrite r a v.toNat).busDone false := by
  simp only [RegName.plain, List.mem_cons, List.not_mem_nil, or_false, not_or] at hp
  cases r <;> simp only [State.ctlWrite, h, reduceCtorEq, if_false, not_true_eq_false, false_and, and_false] at hp ⊢

/-- A register write of eight bytes at an aligned address where a register lies: the write, then the bits that hardware sets. -/
theorem execRegisterWrite_of_regAt {s : State} {a : Nat} {r : RegName} {v hw : Word} (hal : a % 8 = 0)
    (h : (s.ctlWrite a v).regAt a = some r) :
    execRegisterWrite a 8 v hw s = .next (r.fields.foldl (State.hwField a hw.toNat) (s.ctlWrite a v)) := by
  simp only [execRegisterWrite, ne_eq, not_true_eq_false, hal, or_self, if_false, h, List.foldl_filter]
  rfl

theorem State.aligned_of_regAt {s : State} {a : Nat} {r : RegName} (h : s.regAt a = some r) : a % 8 = 0 := by
  by_contra hal
  rw [State.regAt, if_pos hal] at h
  cases h

theorem testBit_bitsAt (x lo w b : Nat) (hb : b < w) : (bitsAt x lo w).testBit b = x.testBit (lo + b) := by
  rw [bitsAt, Nat.testBit_mod_two_pow, Nat.testBit_div_two_pow, Nat.add_comm b, decide_eq_true hb, Bool.true_and]

/-- The bits of `x` that `y` does not have (R10). -/
theorem testBit_sub_and (x y b : Nat) : (x - (x &&& y)).testBit b = (x.testBit b && !y.testBit b) := by
  have hmod : (x &&& y) % 2 = (x % 2 &&& y % 2) := Nat.and_mod_two_pow (n := 1)
  have hdiv : (x &&& y) / 2 = (x / 2 &&& y / 2) := Nat.and_div_two
  have hle : (x / 2 &&& y / 2) ≤ x / 2 := Nat.and_le_left
  have hlow : y % 2 = 0 ∧ (x &&& y) % 2 = 0 ∨ y % 2 = 1 ∧ (x &&& y) % 2 = x % 2 := by
    rcases Nat.mod_two_eq_zero_or_one y with hy | hy
    · exact .inl ⟨hy, by rw [hmod, hy, Nat.and_zero]⟩
    · refine .inr ⟨hy, ?_⟩
      rw [hmod, hy, Nat.and_one_is_mod, Nat.mod_mod]
  cases b with
  | zero =>
    simp only [Nat.testBit_zero]
    rcases hlow with ⟨hy, hxy⟩ | ⟨hy, hxy⟩
    · rw [hy, show (x - (x &&& y)) % 2 = x % 2 by omega]
      simp
    · rw [hy, show (x - (x &&& y)) % 2 = 0 by omega]
      simp
  | succ b =>
    rw [Nat.testBit_succ, Nat.testBit_succ, Nat.testBit_succ, show (x - (x &&& y)) / 2 = x / 2 - (x / 2 &&& y / 2) by omega]
    exact testBit_sub_and (x / 2) (y / 2) b

/-- A plain write that is allowed (R8, R10, R11). -/
theorem plainWrite_fields {s : State} {a : Nat} {r : RegName} (v hw : Word) :
    let t := r.fields.foldl (State.hwField a hw.toNat) ((s.plainWrite r a v.toNat).busDone false)
    (∀ f ∈ r.fields, (f.acc = .rw → t.getF a f = v.toNat / 2 ^ f.lo % 2 ^ f.width) ∧
      (f.acc = .rw1c → ∀ b < f.width, (t.getF a f).testBit b =
        ((s.getF a f).testBit b && !v.getLsbD (f.lo + b) || hw.getLsbD (f.lo + b))) ∧
      (f.acc ≠ .rw → f.acc ≠ .rw1c → t.getF a f = s.getF a f)) ∧
    (∀ b g, b ≠ a → g.lo < 64 → t.getF b g = s.getF b g) ∧ t.bus.err = false ∧ t.offBus = s.offBus := by
  obtain ⟨hnd, hlo⟩ := r.fields_apart
  intro t
  have hplain := fieldStep_plain a v.toNat
  have hhw := fieldStep_hw a hw.toNat
  have hown : ∀ f ∈ r.fields, t.getF a f = (State.hwField a hw.toNat (State.plainField a v.toNat s f) f).getF a f := by
    intro f hf
    exact ((hhw.getF_foldl hnd _).1 hf).trans (hhw.own _ _ f ((hplain.getF_foldl hnd s).1 hf))
  refine ⟨fun f hf => ⟨fun hacc => ?_, fun hacc b hb => ?_, fun hrw hrw1c => ?_⟩, fun b g hb hg => ?_, ?_, ?_⟩
  · rw [hown f hf]
    simp [State.hwField, State.plainField, hacc]
  · rw [hown f hf]
    simp only [State.hwField, State.plainField, hacc, decide_true, if_true, State.getF_setF_same, Nat.testBit_mod_two_pow,
      Nat.testBit_or, decide_eq_true hb, Bool.true_and, testBit_sub_and, testBit_bitsAt _ _ _ _ hb, BitVec.testBit_toNat]
  · rw [hown f hf]
    cases hacc : f.acc <;> simp_all [State.hwField, State.plainField]
  · exact (hhw.getF_foldl_other hlo _ hb hg).trans (hplain.getF_foldl_other hlo s hb hg)
  · exact congrArg BusRes.err (State.offBus_foldl hhw r.fields _).2
  · exact (State.offBus_foldl hhw r.fields _).1.trans (State.offBus_foldl hplain r.fields s).1

/-- A write that is refused: the answer is an access error, and the fields stay (R8, R10, R13). -/
theorem refused_fields {s : State} {a : Nat} {r : RegName} :
    let t := r.fields.foldl (State.hwField a 0) (s.busDone true)
    t.bus.err = true ∧ (∀ f ∈ r.fields, t.getF a f % 2 ^ f.width = s.getF a f % 2 ^ f.width) ∧
      (∀ b g, b ≠ a → g.lo < 64 → t.getF b g = s.getF b g) ∧ t.offBus = s.offBus := by
  obtain ⟨hnd, hlo⟩ := r.fields_apart
  have hhw := fieldStep_hw a 0
  refine ⟨?_, fun f hf => ?_, fun b g hb hg => hhw.getF_foldl_other hlo _ hb hg, (State.offBus_foldl hhw r.fields _).1⟩
  · exact congrArg BusRes.err (State.offBus_foldl hhw r.fields _).2
  · rw [(hhw.getF_foldl hnd _).1 hf, State.hwField]
    split
    · simp [bitsAt]
    · rfl

/-! ### Reads -/

/-- A read where a register lies answers its word and clears its RC fields (R8, R10). -/
theorem execRcClearingRead_of_regAt {s : State} {a : Nat} {r : RegName} (h : s.regAt a = some r) :
    execRcClearingRead a 8 [] s =
      .next { r.fields.foldl (State.rcField a) s with bus := ⟨false, BitVec.ofNat 64 (s.readWord r a)⟩ } := by
  have hal := State.aligned_of_regAt h
  have hvalve : ¬ (valveBase ≤ a ∧ a < valveBase + valveSize ∧ a % 8 = 0) := fun hv => by
    rw [s.regAt_valve ⟨hv.1, hv.2.1⟩] at h
    cases h
  have hsame : ∀ (l : List Fld) (t : State), l.foldl (fun t _ => t) t = t := by
    intro l
    induction l with
    | nil => exact fun _ => rfl
    | cons f l ih => exact ih
  have hread : s.ctlRead a = (s.clearRc r a, some (s.readWord r a)) := by
    rw [State.ctlRead, if_neg hvalve, h]
  simp only [execRcClearingRead, ne_eq, not_true_eq_false, hal, or_self, if_false, hread, h, State.clearRc, State.clearFs,
    List.find?_nil, hsame, List.foldl_filter]
  rfl

/-- A register's word, its RC fields after a read, and the rest (R8, R10, R11). -/
theorem read_fields {s : State} {a : Nat} {r : RegName} :
    let t := r.fields.foldl (State.rcField a) s
    (∀ f ∈ r.fields, t.getF a f = if f.acc = .rc then f.reset % 2 ^ f.width else s.getF a f) ∧
      (∀ b g, b ≠ a → g.lo < 64 → t.getF b g = s.getF b g) ∧ t.offBus = s.offBus := by
  obtain ⟨hnd, hlo⟩ := r.fields_apart
  have hclear := fieldStep_clear a
  refine ⟨fun f hf => ?_, fun b g hb hg => hclear.getF_foldl_other hlo _ hb hg, (State.offBus_foldl hclear r.fields _).1⟩
  rw [(hclear.getF_foldl hnd s).1 hf, State.rcField]
  by_cases hacc : f.acc = .rc <;> simp [hacc]

end Sys2Proof.Machine

namespace Sys2Proof

open Machine

/-- Settles O16: a plain write field by field, a refused access by its answer. -/
theorem registerWrites : Obligations.RegisterWrites := by
  refine ⟨fun s a r v hw hr hp hallowed hres => ?_, fun s a len v hw same => ⟨fun hbad => ?_, fun hnone hvalve => ?_, fun r hr hp href => ?_⟩⟩
  · have hwrite : s.ctlWrite a v = (s.plainWrite r a v.toNat).busDone false := by
      rw [State.ctlWrite_of_plain hr hp, hallowed, hres]
      rfl
    obtain ⟨hfields, hother, herr, hoff⟩ := plainWrite_fields (s := s) (a := a) (r := r) v hw
    have hplain := fieldStep_plain a v.toNat
    have hat : (s.ctlWrite a v).regAt a = some r := by
      rw [hwrite, ← hr]
      exact State.regAt_congr (State.offBus_foldl hplain r.fields s).1 fun b g hb hg => hplain.getF_foldl_other r.fields_apart.2 s hb hg
    refine ⟨_, (exec_registerWrite ..).trans (execRegisterWrite_of_regAt (State.aligned_of_regAt hr) hat), ?_⟩
    rw [hwrite]
    exact ⟨hfields, hother, herr, State.sameMemory_of_offBus hoff, State.of_offBus State.cores (fun _ => rfl) hoff⟩
  · exact ⟨(exec_registerWrite ..).trans (if_pos hbad), (exec_rcClearingRead ..).trans (if_pos hbad)⟩
  · by_cases hal : a % 8 = 0
    · have h8 : ¬ ((8 : Nat) ≠ 8 ∨ a % 8 ≠ 0) := by simp [hal]
      have hv : ¬ (valveBase ≤ a ∧ a < valveBase + valveSize ∧ a % 8 = 0) := fun h => hvalve ⟨h.1, h.2.1⟩
      have hwrite : s.ctlWrite a v = s.busDone true := by
        simp only [State.ctlWrite, hnone, decide_eq_false hv, Bool.not_false]
      have hat : (s.busDone true).regAt a = none := hnone
      refine ⟨?_, ?_⟩
      · rw [exec_registerWrite, execRegisterWrite, if_neg h8, hwrite]
        simp only [hat]
      · rw [exec_rcClearingRead, execRcClearingRead, if_neg h8]
        simp only [State.ctlRead, if_neg hv, hnone]
    · have hbad : (8 : Nat) ≠ 8 ∨ a % 8 ≠ 0 := .inr hal
      exact ⟨(exec_registerWrite ..).trans (if_pos hbad), (exec_rcClearingRead ..).trans (if_pos hbad)⟩
  · have hwrite : s.ctlWrite a v = s.busDone true := by
      rw [State.ctlWrite_of_plain hr hp, if_pos (by simpa using href)]
    have hat : (s.ctlWrite a v).regAt a = some r := by rw [hwrite]; exact hr
    obtain ⟨herr, hfields, hother, hoff⟩ := refused_fields (s := s) (a := a) (r := r)
    refine ⟨_, (exec_registerWrite ..).trans (execRegisterWrite_of_regAt (State.aligned_of_regAt hr) hat), ?_⟩
    rw [hwrite]
    exact ⟨herr, hfields, hother, State.sameMemory_of_offBus hoff⟩

/-- Settles O17: the word, then field by field what the read clears. -/
theorem registerReads : Obligations.RegisterReads := by
  intro s a r hr
  obtain ⟨hfields, hother, hoff⟩ := read_fields (s := s) (a := a) (r := r)
  refine ⟨_, (exec_rcClearingRead ..).trans (execRcClearingRead_of_regAt hr), rfl, ?_, hfields, hother, State.sameMemory_of_offBus hoff,
    State.of_offBus State.cores (fun _ => rfl) hoff⟩
  exact BitVec.toNat_ofNat ..

end Sys2Proof
end

section
/-! Words of a cluster switch (R186 to R190). -/

namespace Sys2Proof.Machine

/-- A word of a switch between words begins at once on an island that issues (R187). -/
theorem switchWord_begins {s : State} {n cl : Nat} (hc : s.hasCluster n cl = true) (hi : s.issues n) (hw : (s.cluster n cl).word = none)
    (i : Instr) (w : BitVec 128) : switchWord s i n cl w 0 = .next (s.beginWord i n cl w) := by
  obtain ⟨hstalls, hskip, -, hhalt⟩ := hi
  have hunskip : s.unskip n = s := if_pos hskip
  simp only [switchWord, hc, hskip, hstalls, hunskip, hhalt, State.advance, Cluster.left, hw, List.isEmpty_nil, Bool.not_true,
    Bool.false_eq_true, if_false]

theorem bitsAt_kind (w : Nat) : bitsAt w 0 2 = w % 4 := by
  rw [bitsAt, Nat.pow_zero, Nat.div_one, show (2 : Nat) ^ 2 = 4 from rfl]

/-- A switch that may begin a word. -/
structure Begins (s : State) (n cl : Nat) (w : BitVec 128) : Prop where
  running : (s.cluster n cl).ended = false ∧ (s.cluster n cl).faulted = false
  inside : (s.cluster n cl).outside = false
  valid : s.wordInvalid n cl w = false

variable {s : State} {n cl : Nat} {w : BitVec 128}

/-- The switch at its next address. -/
def Cluster.next_ (c : Cluster) : Cluster := { c with pc := c.next, next := c.next + 1 }

/-- The word under way in its first cycle. -/
def Cluster.runs (c : Cluster) (w : BitVec 128) : Cluster := { c.next_ with word := some { word := w, rep := 0 } }

theorem Begins.beginWord_end (h : Begins s n cl w) (hk : w.toNat % 4 = 2) (i : Instr) :
    s.beginWord i n cl w = ((s.setCluster n cl (s.cluster n cl).next_).setCluster n cl
      { (s.cluster n cl).next_ with ended := true, word := none }).setF (aIslSwStatus n cl) F.islSwStatus_state 0 := by
  simp only [State.beginWord, h.running, h.inside, h.valid, bitsAt_kind, hk, Bool.or_self, Bool.false_eq_true, if_false, if_true,
    Cluster.next_]

/-- A word that neither ends the switch nor stalls is under way. -/
theorem Begins.beginWord_runs (h : Begins s n cl w) (hk : w.toNat % 4 ≠ 2)
    (hroutes : w.toNat % 4 = 0 → routesConflict ((wordRoutes w).map (s.route n cl)) = false ∧ s.wordStalls n cl w = []) (i : Instr) :
    s.beginWord i n cl w =
      ((s.setCluster n cl (s.cluster n cl).next_).setCluster n cl ((s.cluster n cl).runs w)).runWord n cl := by
  have hconflict : ¬ (w.toNat % 4 = 0 ∧ routesConflict ((wordRoutes w).map (s.route n cl)) = true) := by
    rintro ⟨h0, hc⟩
    rw [(hroutes h0).1] at hc
    exact Bool.false_ne_true hc
  have hstalls : (if w.toNat % 4 = 0 then s.wordStalls n cl w else []) = [] := by
    split
    · next h0 => exact (hroutes h0).2
    · rfl
  simp only [State.beginWord, h.running, h.inside, h.valid, bitsAt_kind, hk, hconflict, hstalls, Bool.or_self, Bool.false_eq_true, if_false,
    Cluster.runs, Cluster.next_]

theorem State.wordInvalid_setCluster (s : State) (m k : Nat) (c : Cluster) (n cl : Nat) (w : BitVec 128) :
    (s.setCluster m k c).wordInvalid n cl w = s.wordInvalid n cl w := rfl

/-- An idle word moves nothing (R186). -/
theorem State.runWord_idle {s : State} {c : Cluster} (hv : s.wordInvalid n cl w = false) (hk : w.toNat % 4 ≠ 0)
    (hc : s.cluster n cl = c.runs w) : s.runWord n cl = s := by
  simp only [State.runWord, hc, Cluster.runs, bitsAt_kind, hk, ne_eq, not_false_eq_true, if_true, hv, Bool.false_eq_true, if_false]

/-- The moves of one route whose source is a core (R187). -/
def Cluster.moves (c : Cluster) (e : BitVec 128) (p : Present) : Cluster :=
  { c with
    outs := c.outs ++ (routeMesh e).map fun d => (d, p),
    writes := c.writes ++ (routeCores e).map fun k => { core := k, entry := e.toNat / 2 ^ 8 % 64, data := p.data, prov := p.prov },
    served := c.served ++ [routeSrc e] }

theorem State.moveWord_single {s : State} {id : Nat} {p : Present} {e : BitVec 128} (hid : wordRoutes w = [id])
    (he : s.route n cl id = e) (hsrc : routeSrc e < 60) (hdata : s.sourceData n cl id (routeSrc e) = some p) :
    s.moveWord n cl w 0 = s.setCluster n cl ((s.cluster n cl).moves e p) := by
  have hentry : (bitsAt e.toNat 8 6 + if e.getLsbD 14 = true then 0 else 0) % 64 = e.toNat / 2 ^ 8 % 64 := by
    rw [ite_self, Nat.add_zero, bitsAt, show (2 : Nat) ^ 6 = 64 from rfl, Nat.mod_mod]
  have hedge : decide (64 ≤ routeSrc e) = false := decide_eq_false (by omega)
  unfold State.moveWord
  rw [hid, List.foldl_cons, List.foldl_nil, he]
  simp only [hdata, hedge, Bool.false_and, Bool.false_eq_true, if_false, hentry, Cluster.moves]

/-- A route word with one route moves what its source presents (R187). -/
theorem State.runWord_route {s : State} {c : Cluster} {id : Nat} {p : Present} {e : BitVec 128} (hv : s.wordInvalid n cl w = false)
    (hk : w.toNat % 4 = 0) (hc : s.cluster n cl = c.runs w) (hid : wordRoutes w = [id]) (he : s.route n cl id = e)
    (hsrc : routeSrc e < 60) (hdata : s.sourceData n cl id (routeSrc e) = some p) :
    s.runWord n cl = s.setCluster n cl ((c.runs w).moves e p) := by
  have hword : (s.cluster n cl).word = some { word := w, rep := 0 } := by rw [hc]; rfl
  rw [← hc, ← State.moveWord_single hid he hsrc hdata]
  simp only [State.runWord, hword, bitsAt_kind, hk, ne_eq, not_true_eq_false, if_false, hv, Bool.false_eq_true, hid,
    List.map_cons, List.map_nil, routesConflict, List.any_nil, Bool.or_self]

/-- A core's data in a cycle goes to the route that it names (R187). -/
theorem State.sourceData_core {s : State} {id src : Nat} {p : Present} (hsrc : src < 60) (hport : (s.core n (60 * cl + src)).port = some p)
    (hrid : p.rid = id) : s.sourceData n cl id src = some p := by
  simp only [State.sourceData, if_pos hsrc, hport, hrid, if_true]

end Sys2Proof.Machine

namespace Sys2Proof

open Machine

/-- Settles O18: a word begun at the next address, then by its kind. -/
theorem switchWords : Obligations.SwitchWords := by
  intro s n cl w c hcl hi hword hended hfaulted hinside hvalid
  have h : Begins s n cl w := ⟨⟨hended, hfaulted⟩, hinside, hvalid⟩
  have hbegun : ((s.setCluster n cl c.next_).setCluster n cl (c.runs w)).cluster n cl = c.runs w := State.cluster_setCluster_same ..
  refine ⟨fun hk => ?_, fun hk => ?_, ?_⟩
  · refine ⟨_, (exec_idleWord ..).trans (switchWord_begins hcl hi hword _ w), ?_⟩
    rw [h.beginWord_runs (by omega) (fun h0 => by omega), State.runWord_idle (s := (s.setCluster n cl c.next_).setCluster n cl (c.runs w)) hvalid
      (by omega) hbegun]
    exact ⟨hbegun, rfl, rfl, rfl, rfl, rfl⟩
  · refine ⟨_, (exec_endWord ..).trans (switchWord_begins hcl hi hword _ w), ?_⟩
    rw [h.beginWord_end hk]
    refine ⟨(State.cluster_setCluster_same ..).trans ?_, State.getF_setF_same .., rfl, rfl, rfl, rfl⟩
    rw [← hword]
    rfl
  · intro id p hk hid e hsrc hport hrid hstalls
    refine ⟨_, (exec_routeWord ..).trans (switchWord_begins hcl hi hword _ w), ?_⟩
    rw [h.beginWord_runs (by omega) (fun _ => ⟨by rw [hid]; rfl, hstalls⟩), State.runWord_route (s := (s.setCluster n cl c.next_).setCluster n cl
      (c.runs w)) (e := e) hvalid hk hbegun hid rfl hsrc (State.sourceData_core hsrc hport hrid)]
    exact ⟨State.cluster_setCluster_same .., rfl, rfl, rfl, rfl, rfl⟩

end Sys2Proof
end

section
/-! Crossings, landings, counter additions and the distributor (R108, R175, R191, R221, R222, R227, R266). -/

namespace Sys2Proof.Machine

/-! ### A parity mismatch of a crossing's entry -/

@[simp] theorem State.units_crossingParity (s : State) (n q : Nat) (bad : Bool) : (s.crossingParity n q bad).units = s.units := by
  simp [State.crossingParity]

/-- A mismatch makes the step suspect; a match changes no register (R227, R406). -/
theorem State.crossingParity_regs (s : State) (n q : Nat) (bad : Bool) :
    (bad = false → (s.crossingParity n q bad).regs = s.regs) ∧
      (bad = true → ((s.crossingParity n q bad).getF aFltSusp F.fltSusp_newer).testBit 2 = true) := by
  refine ⟨?_, ?_⟩ <;> rintro rfl
  · rfl
  · have hwidth : 2 < F.fltSusp_newer.width := by decide
    simp only [State.crossingParity, if_true, State.suspect, State.getF_setF_same, Nat.testBit_mod_two_pow, Nat.testBit_or,
      Nat.testBit_two_pow_self, Bool.or_true, Bool.and_true, decide_eq_true hwidth]

theorem State.sameMemory_of_kept {s t : State} (h : t.kept = s.kept) : s.sameMemory t :=
  ⟨congrArg Backing.mem h, congrArg Backing.tags h, congrArg Backing.bad h⟩

/-- An island changed, and a parity mismatch noted: only the island and the registers of suspicion differ. -/
theorem State.setIsland_crossingParity (s : State) (n : Nat) (x : Island) (q : Nat) (bad : Bool) :
    let t := (s.setIsland n x).crossingParity n q bad
    t.island n = x ∧ ((bad = false → t.regs = s.regs) ∧ (bad = true → (t.getF aFltSusp F.fltSusp_newer).testBit 2 = true)) ∧
      t.cores = s.cores ∧ s.sameMemory t := by
  have hunits := State.units_crossingParity (s.setIsland n x) n q bad
  have hislands : ((s.setIsland n x).crossingParity n q bad).islands = (s.setIsland n x).islands := congrArg Units.islands hunits
  refine ⟨?_, State.crossingParity_regs (s.setIsland n x) n q bad, congrArg Units.cores hunits,
    State.sameMemory_of_kept (State.kept_crossingParity (s.setIsland n x) n q bad)⟩
  rw [State.island, hislands]
  exact State.island_setIsland_same s n x

/-! ### A landing written into its mailbox -/

theorem Core.rm_setMbx (c : Core) (e : Nat) (m : Mbx) (k : Nat) :
    ({ c with mbx := Tbl.set Mbx.empty c.mbx e m } : Core).rm k = if k = e then m else c.rm k := Tbl.get_set ..

/-- A write of a mailbox entry reaches that entry alone (R107). -/
theorem State.rm_writeMbx (s : State) (n : Nat) {u v e k : Nat} (data : Line) (prov : BitVec 2) (hu : u < 1024) (hv : v < 1024) :
    ((s.writeMbx n u e data prov).core n v).rm k =
      if v = u ∧ k = e then { data := data, full := true, prov := prov } else (s.core n v).rm k := by
  simp only [State.writeMbx, State.core_setCore, ckey_inj hu hv, true_and]
  by_cases hvu : v = u
  · subst hvu
    simp only [if_true, true_and, Core.rm_setMbx]
  · simp only [hvu, if_false, false_and]

end Sys2Proof.Machine

namespace Sys2Proof

open Machine

/-- Settles O19: each traffic event by the head of its queue. -/
theorem crossingsAndLandings : Obligations.CrossingsAndLandings := by
  intro s n q bad hn hq x parity
  refine ⟨fun e l hl he => ?_, fun f hf harr => ?_, fun w l hl => ?_, fun w l hl hu hfin hempty hlanded hfree => ?_, fun a l hl => ?_,
    fun p l hfill htree hpart hidle => ?_⟩
  · refine ⟨_, (exec_crossingEntryVisible ..).trans (if_pos ⟨hn, hq⟩), ?_⟩
    simp only [State.island_setIsland_same]
    refine ⟨?_, rfl, rfl, ⟨rfl, rfl, rfl⟩, fun r hr => Tbl.get_set_other _ _ _ hr⟩
    simp [x, hl, replaceFirst, he]
  · refine ⟨_, (exec_crossingFreeIndication ..).trans (if_pos ⟨hn, hq⟩), ?_⟩
    simp only [State.island_setIsland_same]
    refine ⟨?_, rfl, rfl, rfl, ⟨rfl, rfl, rfl⟩⟩
    by_cases hfreed : f.old = true ∨ f.cyc + s.latR ≤ x.cyc
    · rw [if_pos hfreed]
      simp only [x] at hf hfreed
      simpa [hf, replaceFirst, harr, or_iff_not_imp_left] using hfreed
    · rw [if_neg hfreed]
      simpa [x, hf, replaceFirst, harr] using hfreed
  · obtain ⟨hisland, hparity, hcores, hmem⟩ := State.setIsland_crossingParity s n { x with landings := l, released := x.released ++ [w] } 17 bad
    refine ⟨_, (exec_landingInputRelease ..).trans ((if_pos hn).trans ?_), ?_, ?_, hparity, hcores, hmem⟩
    · simp only [x] at hl
      rw [hl]
    · rw [hisland]
    · rw [hisland]
  · have hgoes : ¬ (((s.core n w.unit).rm w.entry).full || (s.island n).landed || (s.routeBusy n).contains w.unit) = true := by
      have hbusy : (s.routeBusy n).contains w.unit = false := by simpa using hfree
      rw [hempty, show (s.island n).landed = false from hlanded, hbusy]
      exact Bool.false_ne_true
    have hrun : execHeldLandingWrite n s = .next ((s.landWrite n w l).setIsland n { (s.landWrite n w l).island n with landed := true }) := by
      rw [execHeldLandingWrite, if_pos hn, show (s.island n).released = w :: l from hl]
      exact if_neg hgoes
    have hwrite : s.landWrite n w l = (s.writeMbx n w.unit w.entry w.data w.prov).setIsland n { x with released := l } := by
      simp only [State.landWrite, hfin]
      rfl
    refine ⟨_, (exec_heldLandingWrite ..).trans hrun, ?_⟩
    simp only [hwrite, State.island_setIsland_same]
    refine ⟨(State.rm_writeMbx s n _ _ hu hu).trans (if_pos ⟨rfl, rfl⟩), trivial, trivial, fun u e hu' hne => ?_, rfl, ⟨rfl, rfl, rfl⟩⟩
    refine (State.rm_writeMbx s n _ _ hu hu').trans (if_neg ?_)
    rintro ⟨rfl, rfl⟩
    exact hne.elim (fun h => h rfl) fun h => h rfl
  · obtain ⟨hisland, hparity, hcores, hmem⟩ := State.setIsland_crossingParity s n { x with side := l, adds := x.adds ++ [a] } 19 bad
    refine ⟨_, (exec_syncCounterAddition ..).trans ((if_pos hn).trans ?_), ?_, ?_, hparity, hcores, hmem⟩
    · simp only [x] at hl
      rw [hl]
    · rw [hisland]
    · rw [hisland]
  · obtain ⟨hisland, hparity, hcores, hmem⟩ := State.setIsland_crossingParity s n
      { x with fill := some { fmt := p.fmt, mask := p.mask, part := 0, pieces := 0 } } 16 bad
    have hall : p.part = 0 ∧ ((maskCores p.mask).all fun u => (s.core n u).idleStage.isEmpty) = true := ⟨hpart, List.all_eq_true.mpr hidle⟩
    refine ⟨_, (exec_distributorTile ..).trans ((if_pos hn).trans ?_), ?_, ?_, hparity, hcores, hmem⟩
    · simp only [x] at hfill htree
      rw [hfill, htree]
      exact if_pos hall
    · rw [hisland]
    · rw [hisland]

end Sys2Proof
end

section
/-! What the package's records leave alone: events and their ring, the ledger, suspicion of the step and the capacity shown (R401 to
R403, R406, R433) have registers of their own, and control messages none. -/

namespace Sys2Proof.Machine

/-! ### The registers of the records -/

/-- Whether records are written to the register: the event ring and its events, the ledger, suspicion, the capacity left. -/
def logReg (a : Nat) : Bool :=
  [aFltRing, aFltLedger, aFltSusp, aBocCapacity].contains a || decide (aFltEvent 0 0 ≤ a ∧ a < aFltEvent 4096 0)

theorem logReg_event {i k : Nat} (hi : i < 4096) (hk : k < 8) : logReg (aFltEvent i k) = true := by
  have h : aFltEvent 0 0 ≤ aFltEvent i k ∧ aFltEvent i k < aFltEvent 4096 0 := by
    simp only [aFltEvent]
    omega
  simp only [logReg, decide_eq_true h, Bool.or_true]

/-- The register file without the records' registers. -/
def State.offLog (s : State) (k : Nat) : Nat := if logReg (k / 64) then 0 else Tbl.get 0 s.regs k

/-- A field that is in no record's register. -/
theorem State.getF_of_offLog {s t : State} (h : t.offLog = s.offLog) {b : Nat} {g : Fld} (hb : logReg b = false) (hg : g.lo < 64) :
    t.getF b g = s.getF b g := by
  have hkey : fkey b g / 64 = b := by simp only [fkey]; omega
  have := congrFun h (fkey b g)
  simp only [State.offLog, hkey, hb, Bool.false_eq_true, if_false] at this
  simp only [State.getF, this]

theorem State.offLog_setF (s : State) {a : Nat} (f : Fld) (v : Nat) (ha : logReg a = true) (hf : f.lo < 64) :
    (s.setF a f v).offLog = s.offLog := by
  funext k
  simp only [State.offLog]
  split
  · rfl
  case isFalse h =>
    refine Tbl.get_set_other 0 s.regs _ fun hk => h ?_
    rw [hk, show fkey a f / 64 = a by simp only [fkey]; omega, ha]

theorem State.offLog_bump (s : State) {a : Nat} (f : Fld) (n : Nat) (ha : logReg a = true) (hf : f.lo < 64) :
    (s.bump a f n).offLog = s.offLog := s.offLog_setF f _ ha hf

theorem State.offLog_of_regs {s t : State} (h : t.regs = s.regs) : t.offLog = s.offLog := by
  funext k
  simp only [State.offLog, h]

@[simp] theorem State.offLog_ite (c : Prop) [Decidable c] (s t : State) :
    (if c then s else t).offLog = if c then s.offLog else t.offLog := apply_ite State.offLog c s t

@[simp] theorem State.offLog_writeEvent (s : State) (cls code flags : Nat) (unit : BitVec 32) (detail : Nat) :
    (s.writeEvent cls code flags unit detail).offLog = s.offLog := by
  have hring : ∀ (s : State) (f : Fld) (v : Nat), f.lo < 64 → (s.setF aFltRing f v).offLog = s.offLog :=
    fun s f v hf => s.offLog_setF f v (by decide) hf
  have hwords : ∀ i < 4096, ∀ (g : Nat → Nat) (l : List Nat), (∀ k ∈ l, k < 8) → ∀ s : State,
      (l.foldl (fun s k => s.setF (aFltEvent i k) F.fltEvent_word (g k)) s).offLog = s.offLog := by
    intro i hi g l hl
    induction l with
    | nil => exact fun _ => rfl
    | cons k l ih =>
      intro s
      exact (ih (fun j hj => hl j (List.mem_cons_of_mem k hj)) _).trans
        (s.offLog_setF _ _ (logReg_event hi (hl k List.mem_cons_self)) (by decide))
  have hslot : s.getF aFltRing F.fltRing_head % 4096 < 4096 := Nat.mod_lt _ (by decide)
  simp only [State.writeEvent]
  refine (hring _ _ _ (by decide)).trans ?_
  split
  · refine (hring _ _ _ (by decide)).trans ((State.offLog_bump _ _ _ (by decide) (by decide)).trans ?_)
    exact hwords _ hslot _ _ (fun k hk => List.mem_range.mp hk) s
  · exact hwords _ hslot _ _ (fun k hk => List.mem_range.mp hk) s

@[simp] theorem State.offLog_event (s : State) (cls code flags : Nat) (unit : BitVec 32) (detail : Nat) :
    (s.event cls code flags unit detail).offLog = s.offLog := by
  simp only [State.event, State.offLog_ite, State.offLog_writeEvent]
  exact ite_self _

@[simp] theorem State.offLog_ledgerRecord (s : State) (kind cause : Nat) (unit : BitVec 32) (detail : Nat) :
    (s.ledgerRecord kind cause unit detail).offLog = s.offLog := by
  have hpending := s.offLog_bump (a := aFltLedger) F.fltLedger_pending 1 (by decide) (by decide)
  simp only [State.ledgerRecord]
  split
  · exact hpending
  · exact s.offLog_setF (a := aFltLedger) F.fltLedger_used _ (by decide) (by decide)

@[simp] theorem State.offLog_suspect (s : State) (b : Nat) : (s.suspect b).offLog = s.offLog :=
  s.offLog_setF _ _ (by decide) (by decide)

@[simp] theorem State.offLog_suspectStep (s : State) (k b : Nat) : (s.suspectStep k b).offLog = s.offLog := by
  simp only [State.suspectStep]
  split
  · exact s.offLog_setF _ _ (by decide) (by decide)
  · exact s.offLog_suspect b

@[simp] theorem State.offLog_corrected (s : State) (m : BurstMem) : (s.corrected m).offLog = s.offLog := by
  simp only [State.corrected]
  split_ifs
  · exact (State.offLog_suspect _ 1).trans (State.offLog_event _ _ _ _ _ _)
  · rfl

theorem State.offLog_capacity (s : State) (l : List (Fld × Nat)) (hl : ∀ p ∈ l, p.1.lo < 64) :
    (s.setFs aBocCapacity l).offLog = s.offLog := by
  induction l generalizing s with
  | nil => rfl
  | cons p l ih =>
    exact (ih (s.setF aBocCapacity p.1 p.2) fun q hq => hl q (List.mem_cons_of_mem p hq)).trans
      (s.offLog_setF _ _ (by decide) (hl p List.mem_cons_self))

@[simp] theorem State.offLog_showUnits (s : State) : s.showUnits.offLog = s.offLog := by
  simp only [State.showUnits]
  split
  · refine s.offLog_capacity _ ?_
    simp only [List.forall_mem_cons]
    decide
  · rfl

@[simp] theorem State.offLog_capacityAfter (s : State) (unit : BitVec 32) : (s.capacityAfter unit).offLog = s.offLog := by
  simp only [State.capacityAfter]
  split_ifs
  · exact s.offLog_showUnits
  · rfl
  · rfl

@[simp] theorem State.offLog_retireUnit (s : State) (unit : BitVec 32) (cause detail : Nat) :
    (s.retireUnit unit cause detail).offLog = s.offLog := by
  simp only [State.retireUnit]
  split
  · rfl
  · refine (State.offLog_capacityAfter _ unit).trans ?_
    exact (State.offLog_event _ _ _ _ _ _).trans (State.offLog_ledgerRecord _ _ _ _ _)

@[simp] theorem State.offLog_faultDetected (s : State) (unit : BitVec 32) (cause detail : Nat) :
    (s.faultDetected unit cause detail).offLog = s.offLog := by
  simp only [State.faultDetected]
  split
  · exact (State.offLog_retireUnit _ _ _ _).trans (State.offLog_ledgerRecord _ _ _ _ _)
  · exact State.offLog_ledgerRecord _ _ _ _ _

/-! ### A control message writes no register -/

@[simp] theorem State.regs_unicast (s : State) (c : Ctl) : (s.unicast c).regs = s.regs := by
  simp only [State.unicast]
  split
  · rfl
  · split <;> rfl

@[simp] theorem State.regs_sendTo (s : State) (dest : Nat) (m : Msg) : (s.sendTo dest m).regs = s.regs := State.regs_unicast s _

@[simp] theorem State.offLog_sendTo (s : State) (dest : Nat) (m : Msg) : (s.sendTo dest m).offLog = s.offLog :=
  State.offLog_of_regs (State.regs_sendTo s dest m)

@[simp] theorem State.getF_sendTo (s : State) (dest : Nat) (m : Msg) (b : Nat) (g : Fld) : (s.sendTo dest m).getF b g = s.getF b g := by
  simp only [State.getF, State.regs_sendTo]

@[simp] theorem State.offLog_faultReport (s : State) (cause : Nat) (fields : List (Nat × Nat)) :
    (s.faultReport cause fields).offLog = s.offLog := State.offLog_sendTo s _ _

@[simp] theorem State.getF_faultReport (s : State) (cause : Nat) (fields : List (Nat × Nat)) (b : Nat) (g : Fld) :
    (s.faultReport cause fields).getF b g = s.getF b g := State.getF_sendTo s _ _ b g

/-! ### A field of another register -/

theorem State.getF_event (s : State) (cls code flags : Nat) (unit : BitVec 32) (detail : Nat) {b : Nat} {g : Fld}
    (hb : logReg b = false) (hg : g.lo < 64) : (s.event cls code flags unit detail).getF b g = s.getF b g :=
  State.getF_of_offLog (s.offLog_event cls code flags unit detail) hb hg

/-- The address of another register. -/
theorem State.getF_setF_apart (s : State) {a b : Nat} (f g : Fld) (v : Nat) (h : b ≠ a) (hf : f.lo < 64) (hg : g.lo < 64) :
    (s.setF a f v).getF b g = s.getF b g := State.getF_setF_other s a f v (fkey_ne_of_addr h hf hg)

/-- Another field of the register. -/
theorem State.getF_setF_beside (s : State) (a : Nat) (f g : Fld) (v : Nat) (h : g.lo ≠ f.lo) : (s.setF a f v).getF a g = s.getF a g :=
  State.getF_setF_other s a f v (fkey_ne_of_lo a h)

/-- The islands' blocks lie past every record's register. -/
theorem logReg_of_island {a : Nat} (h : islBase 0 ≤ a) : logReg a = false := by
  have hring : aFltRing < islBase 0 := by decide
  have hledger : aFltLedger < islBase 0 := by decide
  have hsusp : aFltSusp < islBase 0 := by decide
  have hcapacity : aBocCapacity < islBase 0 := by decide
  have hevents : aFltEvent 4096 0 < islBase 0 := by decide
  have hend : ¬(aFltEvent 0 0 ≤ a ∧ a < aFltEvent 4096 0) := by omega
  simp only [logReg, List.contains_cons, List.contains_nil, decide_eq_false hend, Bool.or_false, Bool.or_eq_false_iff, beq_eq_false_iff_ne]
  exact ⟨by omega, by omega, by omega, by omega⟩

/-- The fields' blocks and those of the ports lie before the records' registers. -/
theorem logReg_of_lt {a : Nat} (h : a < fltBase) : logReg a = false := by
  have hring : fltBase < aFltRing := by decide
  have hledger : fltBase < aFltLedger := by decide
  have hsusp : fltBase < aFltSusp := by decide
  have hcapacity : fltBase < aBocCapacity := by decide
  have hevents : fltBase < aFltEvent 0 0 := by decide
  have hend : ¬(aFltEvent 0 0 ≤ a ∧ a < aFltEvent 4096 0) := by omega
  simp only [logReg, List.contains_cons, List.contains_nil, decide_eq_false hend, Bool.or_false, Bool.or_eq_false_iff, beq_eq_false_iff_ne]
  exact ⟨by omega, by omega, by omega, by omega⟩

/-! ### What is neither a register nor a record -/

/-- A state without its registers, its records, the state of its recovery and its breath, and its control messages. -/
def State.bare (s : State) : State :=
  { s with regs := [], flt := FltSt.reset, rcv := Recov.reset, brt := BreathSt.reset, ctl := CtlNet.reset, bus := ⟨false, 0⟩ }

theorem State.of_bare {β : Type} (g : State → β) (hg : ∀ s, g s.bare = g s) {s t : State} (h : t.bare = s.bare) : g t = g s := by
  rw [← hg t, h, hg]

theorem State.sameMemory_of_bare {s t : State} (h : t.bare = s.bare) : s.sameMemory t :=
  ⟨State.of_bare State.mem (fun _ => rfl) h, State.of_bare State.tags (fun _ => rfl) h, State.of_bare State.bad (fun _ => rfl) h⟩

theorem State.sameIslands_of_bare {s t : State} (h : t.bare = s.bare) : s.sameIslands t :=
  ⟨State.of_bare State.cores (fun _ => rfl) h, State.of_bare State.clusters (fun _ => rfl) h,
    State.of_bare State.islands (fun _ => rfl) h⟩

theorem State.tier_of_bare {s t : State} (h : t.bare = s.bare) : t.tier = s.tier := State.of_bare State.tier (fun _ => rfl) h

theorem State.sameIslands_of_units {s t : State} (h : t.units = s.units) : s.sameIslands t :=
  ⟨congrArg Units.cores h, congrArg Units.clusters h, congrArg Units.islands h⟩

@[simp] theorem State.bare_ite (c : Prop) [Decidable c] (s t : State) : (if c then s else t).bare = if c then s.bare else t.bare :=
  apply_ite State.bare c s t
@[simp] theorem State.bare_foldl {α : Type} {f : State → α → State} (l : List α)
    (h : ∀ (s : State) (x : α), (f s x).bare = s.bare) (s : State) : (l.foldl f s).bare = s.bare := State.foldl_frame State.bare l h s
@[simp] theorem State.bare_setF (s : State) (a : Nat) (f : Fld) (v : Nat) : (s.setF a f v).bare = s.bare := (rfl)
@[simp] theorem State.bare_bump (s : State) (a : Nat) (f : Fld) (n : Nat) : (s.bump a f n).bare = s.bare := (rfl)
@[simp] theorem State.bare_wrapAdd (s : State) (a : Nat) (f : Fld) (n : Nat) : (s.wrapAdd a f n).bare = s.bare := (rfl)
@[simp] theorem State.bare_setFlag (s : State) (a : Nat) (f : Fld) (b : Bool) : (s.setFlag a f b).bare = s.bare := (rfl)
@[simp] theorem State.bare_setFs (s : State) (a : Nat) (l : List (Fld × Nat)) : (s.setFs a l).bare = s.bare := by simp [State.setFs]
@[simp] theorem State.bare_writeEvent (s : State) (cls code flags : Nat) (unit : BitVec 32) (detail : Nat) :
    (s.writeEvent cls code flags unit detail).bare = s.bare := by simp [State.writeEvent]
@[simp] theorem State.bare_event (s : State) (cls code flags : Nat) (unit : BitVec 32) (detail : Nat) :
    (s.event cls code flags unit detail).bare = s.bare := by
  simp only [State.event]
  split_ifs
  · exact State.bare_writeEvent _ _ _ _ _ _
  · rfl
@[simp] theorem State.bare_ledgerRecord (s : State) (kind cause : Nat) (unit : BitVec 32) (detail : Nat) :
    (s.ledgerRecord kind cause unit detail).bare = s.bare := by
  simp only [State.ledgerRecord]
  split <;> rfl
@[simp] theorem State.bare_suspect (s : State) (b : Nat) : (s.suspect b).bare = s.bare := (rfl)
@[simp] theorem State.bare_suspectStep (s : State) (k b : Nat) : (s.suspectStep k b).bare = s.bare := by simp [State.suspectStep]
@[simp] theorem State.bare_corrected (s : State) (m : BurstMem) : (s.corrected m).bare = s.bare := by
  simp only [State.corrected]
  split_ifs
  · exact (State.bare_suspect _ 1).trans (State.bare_event _ _ _ _ _ _)
  · rfl
@[simp] theorem State.bare_showUnits (s : State) : s.showUnits.bare = s.bare := by simp [State.showUnits]
@[simp] theorem State.bare_capacityAfter (s : State) (unit : BitVec 32) : (s.capacityAfter unit).bare = s.bare := by
  simp only [State.capacityAfter]
  split_ifs
  · exact s.bare_showUnits
  · rfl
  · rfl
@[simp] theorem State.bare_retireUnit (s : State) (unit : BitVec 32) (cause detail : Nat) :
    (s.retireUnit unit cause detail).bare = s.bare := by
  simp only [State.retireUnit]
  split
  · rfl
  · refine (State.bare_capacityAfter _ unit).trans ?_
    exact (State.bare_event _ _ _ _ _ _).trans (State.bare_ledgerRecord _ _ _ _ _)
@[simp] theorem State.bare_faultDetected (s : State) (unit : BitVec 32) (cause detail : Nat) :
    (s.faultDetected unit cause detail).bare = s.bare := by simp [State.faultDetected]
@[simp] theorem State.bare_unicast (s : State) (c : Ctl) : (s.unicast c).bare = s.bare := by
  simp only [State.unicast]
  split
  · rfl
  · split <;> rfl
@[simp] theorem State.bare_sendTo (s : State) (dest : Nat) (m : Msg) : (s.sendTo dest m).bare = s.bare := State.bare_unicast s _
@[simp] theorem State.bare_faultReport (s : State) (cause : Nat) (fields : List (Nat × Nat)) :
    (s.faultReport cause fields).bare = s.bare := State.bare_sendTo s _ _

end Sys2Proof.Machine
end

section
/-! The scrubber, the rewrites and patrol of the LPDDR5X tier, its devices' reports and the retirement of a channel (R243, R248, R249,
R251, R267). -/

namespace Sys2Proof.Machine

/-! ### Where the fields' registers lie -/

theorem fldBase_lt_fltBase {f x : Nat} (hf : f < 8) (hx : x < 0x1000000) : fldBase f + x < fltBase := by
  simp only [fldBase, fltBase]
  omega

theorem logReg_fldChannels {f : Nat} (hf : f < 8) : logReg (aFldChannels f) = false :=
  logReg_of_lt (fldBase_lt_fltBase hf (x := 0) (by decide))

theorem logReg_fldChEcc {f ch : Nat} (hf : f < 8) (hch : ch < 16) : logReg (aFldChEcc f ch) = false :=
  logReg_of_lt (fldBase_lt_fltBase hf (x := 0x100 + 8 * ch) (by omega) |> (Nat.add_assoc ..).trans_lt)

theorem logReg_fldChState {f ch : Nat} (hf : f < 8) (hch : ch < 16) : logReg (aFldChState f ch) = false :=
  logReg_of_lt (fldBase_lt_fltBase hf (x := 0x180 + 8 * ch) (by omega) |> (Nat.add_assoc ..).trans_lt)

theorem logReg_islCoreEcc (n u : Nat) : logReg (aIslCoreEcc n u) = false :=
  logReg_of_island (by simp only [aIslCoreEcc, islBase]; omega)

theorem hasChannel_of {f ch : Nat} (hf : f < 8) (hch : ch < 16) : hasChannel f ch = true := decide_eq_true ⟨hf, hch⟩

/-! ### A word marked bad -/

theorem Tbl.mem_of_get {α : Type} {d : α} {t : Tbl α} {k : Nat} (h : Tbl.get d t k ≠ d) : (k, Tbl.get d t k) ∈ t := by
  induction t with
  | nil => exact absurd rfl h
  | cons p t ih =>
    obtain ⟨j, v⟩ := p
    by_cases hj : j = k
    · subst hj
      simp only [Tbl.get, if_true, List.mem_cons_self]
    · simp only [Tbl.get, hj, if_false] at h ⊢
      exact List.mem_cons_of_mem _ (ih h)

/-- A word known to be bad is found in every line that holds its first byte. -/
theorem State.anyBad_markBad (s : State) (a : Nat) : (s.markBad a).anyBad a 64 = true := by
  have hget : Tbl.get false (s.markBad a).bad (a / 8) = true := Tbl.get_set_same false s.bad (a / 8) true
  have hmem := Tbl.mem_of_get (d := false) (t := (s.markBad a).bad) (k := a / 8) (by rw [hget]; decide)
  rw [hget] at hmem
  refine List.any_eq_true.mpr ⟨_, hmem, ?_⟩
  simp only [Bool.true_and, decide_eq_true_eq]
  omega

theorem State.anyBad_of_bare {s t : State} (h : t.bare = s.bare) (a n : Nat) : t.anyBad a n = s.anyBad a n :=
  State.of_bare (fun s => s.anyBad a n) (fun _ => rfl) h

/-! ### The scrubber -/

/-- A read of a tile's line by the scrubber, of a line without bad words (R243). -/
theorem execTileScrub_clean {s : State} {n u line : Nat} (hcore : s.hasCore n u = true) (hline : line < 2560)
    (hgood : s.anyBad (s.tileBase n u + 64 * line) 64 = false) : execTileScrub n u line .clean s = .next s := by
  have hunit : s.hasCore n u = true ∧ line < 3072 := ⟨hcore, by omega⟩
  simp only [execTileScrub, if_pos hunit, hgood, Bool.false_eq_true, if_false]

theorem execTileScrub_corrected {s : State} {n u line : Nat} (hcore : s.hasCore n u = true) (hline : line < 2560)
    (hgood : s.anyBad (s.tileBase n u + 64 * line) 64 = false) :
    execTileScrub n u line .corrected s =
      .next ((s.bump (aIslCoreEcc n u) F.islCoreEcc_tmCorrected 1).corrected (.core n u)) := by
  have hunit : s.hasCore n u = true ∧ line < 3072 := ⟨hcore, by omega⟩
  simp only [execTileScrub, if_pos hunit, hgood, Bool.false_eq_true, if_false, decide_eq_true hline, if_true]

theorem execTileScrub_uncorrectable {s : State} {n u line : Nat} (hcore : s.hasCore n u = true) (hline : line < 2560)
    (hgood : s.anyBad (s.tileBase n u + 64 * line) 64 = false) :
    ∃ unit unit', execTileScrub n u line .uncorrectable s =
      .next (((((s.markBad (s.tileBase n u + 64 * line)).bump (aIslCoreEcc n u) F.islCoreEcc_tmUncorrected 1).event 2 0x10 2 unit
        (64 * line))).faultDetected unit' 2 0) := by
  have hunit : s.hasCore n u = true ∧ line < 3072 := ⟨hcore, by omega⟩
  simp only [execTileScrub, if_pos hunit, hgood, Bool.false_eq_true, if_false, decide_eq_true hline, if_true]
  exact ⟨_, _, rfl⟩

/-! ### The LPDDR5X tier -/

theorem State.getF_corrected (s : State) (m : BurstMem) {b : Nat} {g : Fld} (hb : logReg b = false) (hg : g.lo < 64) :
    (s.corrected m).getF b g = s.getF b g := State.getF_of_offLog (s.offLog_corrected m) hb hg

section
variable {s : State} {addr f ch : Nat} (hmapped : s.lpMapped addr = true) (hplace : s.channelOf addr = (f, ch))
  (hlive : s.chanRetired f ch = false) (hgood : s.anyBad (addr / 64 * 64) 64 = false)
include hplace hlive hgood

theorem State.lpBad_eq_false : s.lpBad addr = false := by
  simp only [State.lpBad, hplace, hlive, hgood, Bool.or_false]

variable (hqueue : addr / 64 ∉ Tbl.get [] s.tier.rewrite (16 * f + ch))

omit hlive hgood in
include hqueue in
theorem State.inRewrite_eq_false : s.inRewrite addr = false := by
  simp only [State.inRewrite, hplace, List.contains_eq_mem, decide_eq_false hqueue]

include hmapped

theorem execLpddrPatrolScrub_clean : execLpddrPatrolScrub addr .clean s = .next s := by
  have hbad := State.lpBad_eq_false hplace hlive hgood
  have hkind : ¬(Ecc.clean = Ecc.uncorrectable) ∧ ¬(Ecc.clean = Ecc.corrected) ∧ ¬(Ecc.clean = Ecc.link) := by decide
  obtain ⟨h1, h2, h3⟩ := hkind
  simp only [execLpddrPatrolScrub, if_pos hmapped, State.lpRead, hbad, Bool.false_or, decide_eq_false h1, Bool.false_eq_true,
    if_false, h2, h3, ite_self]

include hqueue

theorem execLpddrPatrolScrub_corrected : execLpddrPatrolScrub addr .corrected s = .next (s.lpCorrected addr) := by
  have hbad := State.lpBad_eq_false hplace hlive hgood
  have hout := State.inRewrite_eq_false hplace hqueue
  have hkind : ¬(Ecc.corrected = Ecc.uncorrectable) := by decide
  simp only [execLpddrPatrolScrub, if_pos hmapped, State.lpRead, hbad, hout, Bool.false_or, Bool.false_and, decide_eq_false hkind,
    Bool.false_eq_true, if_false, if_true]

theorem execLpddrPatrolScrub_link :
    execLpddrPatrolScrub addr .link s = .next (s.bump (aFldChEcc f ch) F.fldChEcc_link 1) := by
  have hbad := State.lpBad_eq_false hplace hlive hgood
  have hout := State.inRewrite_eq_false hplace hqueue
  have hkind : ¬(Ecc.link = Ecc.uncorrectable) ∧ ¬(Ecc.link = Ecc.corrected) := by decide
  obtain ⟨h1, h2⟩ := hkind
  simp only [execLpddrPatrolScrub, if_pos hmapped, State.lpRead, hbad, hout, Bool.false_or, Bool.false_and, decide_eq_false h1,
    Bool.false_eq_true, if_false, h2, if_true, hplace]

theorem execLpddrPatrolScrub_uncorrectable :
    execLpddrPatrolScrub addr .uncorrectable s = .next (s.lpUncorrectable addr) := by
  have hbad := State.lpBad_eq_false hplace hlive hgood
  have hout := State.inRewrite_eq_false hplace hqueue
  simp only [execLpddrPatrolScrub, if_pos hmapped, State.lpRead, hbad, hout, Bool.false_or, Bool.false_and, decide_true,
    Bool.false_eq_true, if_false, if_true]

end

/-- A corrected read of the tier counts and, where there is a place, queues the rewrite of its line (R248, R249). -/
theorem State.lpCorrected_counts {s : State} {addr f ch : Nat} (hf : f < 8) (hch : ch < 16) (hplace : s.channelOf addr = (f, ch))
    (hqueue : addr / 64 ∉ Tbl.get [] s.tier.rewrite (16 * f + ch))
    (hroom : (Tbl.get [] s.tier.rewrite (16 * f + ch)).length < 16) :
    (s.lpCorrected addr).getF (aFldChEcc f ch) F.fldChEcc_corrected =
        raised F.fldChEcc_corrected (s.getF (aFldChEcc f ch) F.fldChEcc_corrected) 1 ∧
      Tbl.get [] (s.lpCorrected addr).tier.rewrite (16 * f + ch) = Tbl.get [] s.tier.rewrite (16 * f + ch) ++ [addr / 64] ∧
      s.sameMemory (s.lpCorrected addr) ∧ s.sameIslands (s.lpCorrected addr) := by
  let v := (s.bump (aFldChEcc f ch) F.fldChEcc_corrected 1).corrected (.channel f ch)
  let q := Tbl.get [] s.tier.rewrite (16 * f + ch) ++ [addr / 64]
  have heq : s.lpCorrected addr = { v with tier := { v.tier with rewrite := Tbl.set [] v.tier.rewrite (16 * f + ch) q } } := by
    simp only [State.lpCorrected, hplace, List.contains_eq_mem, decide_eq_false hqueue, Bool.false_eq_true, if_false, if_pos hroom]
    rfl
  have hbare : v.bare = s.bare := (State.bare_corrected _ _).trans (State.bare_bump s _ _ _)
  have hcount : v.getF (aFldChEcc f ch) F.fldChEcc_corrected =
      raised F.fldChEcc_corrected (s.getF (aFldChEcc f ch) F.fldChEcc_corrected) 1 :=
    (State.getF_corrected _ _ (logReg_fldChEcc hf hch) (by decide)).trans (State.getF_bump_same s _ _ 1)
  have hmem : s.sameMemory v := State.sameMemory_of_bare hbare
  have hisl : s.sameIslands v := State.sameIslands_of_bare hbare
  rw [heq]
  exact ⟨hcount, Tbl.get_set_same [] _ _ _, hmem, hisl⟩

/-! ### A channel retired -/

/-- A channel marked retired and its retirement recorded, its field's map not yet changed (R267). -/
def State.channelLost (s : State) (f ch : Nat) : State :=
  let s' := s.setF (aFldChState f ch) F.fldChState_state 3
  (if s'.isRetired (unitId 6 f 0 0 0 ch) then s' else s'.ledgerRecord 4 2 (unitId 6 f 0 0 0 ch) 0).event 2 0x12 2
    (unitId 6 f 0 0 0 ch) ch

theorem State.offLog_channelLost (s : State) (f ch : Nat) :
    (s.channelLost f ch).offLog = (s.setF (aFldChState f ch) F.fldChState_state 3).offLog := by
  simp only [State.channelLost, State.offLog_event, State.offLog_ite, State.offLog_ledgerRecord, ite_self]

theorem State.bare_channelLost (s : State) (f ch : Nat) : (s.channelLost f ch).bare = s.bare := by
  simp only [State.channelLost, State.bare_event, State.bare_ite, State.bare_ledgerRecord, ite_self, State.bare_setF]

theorem State.getF_channelLost_other (s : State) {f ch b : Nat} (g : Fld) (hb : logReg b = false) (hg : g.lo < 64)
    (hstate : b ≠ aFldChState f ch) : (s.channelLost f ch).getF b g = s.getF b g :=
  (State.getF_of_offLog (s.offLog_channelLost f ch) hb hg).trans (s.getF_setF_apart _ g 3 hstate (by decide) hg)

theorem State.getF_channelLost_state (s : State) {f ch : Nat} (hf : f < 8) (hch : ch < 16) :
    (s.channelLost f ch).getF (aFldChState f ch) F.fldChState_state = 3 :=
  (State.getF_of_offLog (s.offLog_channelLost f ch) (logReg_fldChState hf hch) (by decide)).trans (s.getF_setF_same _ _ 3)

theorem State.getF_capacityAfter (s : State) (unit : BitVec 32) {b : Nat} {g : Fld} (hb : logReg b = false) (hg : g.lo < 64) :
    (s.capacityAfter unit).getF b g = s.getF b g := State.getF_of_offLog (s.offLog_capacityAfter unit) hb hg

/-- The retirement of a channel during a job (R267): it leaves the map at the next boundary. -/
theorem State.retireChannel_admitted {s : State} {f ch : Nat} (h : (s.channelLost f ch).flag aBocState F.bocState_admitted = true) :
    s.retireChannel f ch = ((s.channelLost f ch).setF (aFldChannels f) F.fldChannels_pending
      ((s.channelLost f ch).getF (aFldChannels f) F.fldChannels_pending ||| 2 ^ ch)).capacityAfter (unitId 6 f 0 0 0 ch) := by
  exact if_pos h

/-- The retirement of a channel outside a job (R267): it leaves the map at once. -/
theorem State.retireChannel_free {s : State} {f ch : Nat} (h : (s.channelLost f ch).flag aBocState F.bocState_admitted = false) :
    s.retireChannel f ch =
      if ((s.channelLost f ch).getF (aFldChannels f) F.fldChannels_active).testBit ch then
        ((s.channelLost f ch).setFs (aFldChannels f)
          [(F.fldChannels_active, (s.channelLost f ch).getF (aFldChannels f) F.fldChannels_active ^^^ 2 ^ ch),
            (F.fldChannels_count, (s.channelLost f ch).getF (aFldChannels f) F.fldChannels_count - 1)]).capacityAfter
          (unitId 6 f 0 0 0 ch)
      else s.channelLost f ch := by
  exact if_neg (ne_true_of_eq_false h)

@[simp] theorem State.bare_retireChannel (s : State) (f ch : Nat) : (s.retireChannel f ch).bare = s.bare := by
  cases h : (s.channelLost f ch).flag aBocState F.bocState_admitted with
  | true => simp only [State.retireChannel_admitted h, State.bare_capacityAfter, State.bare_setF, State.bare_channelLost]
  | false =>
    simp only [State.retireChannel_free h, State.bare_ite, State.bare_capacityAfter, State.bare_setFs, State.bare_channelLost, ite_self]

/-- A channel's retirement writes of the fields' registers the channel's state and its field's map. -/
theorem State.getF_retireChannel_other (s : State) {f ch b : Nat} (g : Fld) (hb : logReg b = false) (hg : g.lo < 64)
    (hstate : b ≠ aFldChState f ch) (hmap : b ≠ aFldChannels f) : (s.retireChannel f ch).getF b g = s.getF b g := by
  have hlost := s.getF_channelLost_other g hb hg hstate
  cases h : (s.channelLost f ch).flag aBocState F.bocState_admitted with
  | true =>
    rw [State.retireChannel_admitted h, State.getF_capacityAfter _ _ hb hg, State.getF_setF_apart _ _ _ _ hmap (by decide) hg, hlost]
  | false =>
    rw [State.retireChannel_free h]
    split
    · rw [State.getF_capacityAfter _ _ hb hg]
      simp only [State.setFs, List.foldl_cons, List.foldl_nil]
      rw [State.getF_setF_apart _ _ _ _ hmap (by decide) hg, State.getF_setF_apart _ _ _ _ hmap (by decide) hg, hlost]
    · exact hlost

theorem aFldChannels_ne_aFldChState {f f' ch : Nat} (hf : f < 8) (hch : ch < 16) (hf' : f' < 8) :
    aFldChannels f' ≠ aFldChState f ch := by
  simp only [aFldChannels, aFldChState, fldBase]
  omega

theorem aBocState_ne_aFldChState {f ch : Nat} (hf : f < 8) (hch : ch < 16) : aBocState ≠ aFldChState f ch := by
  have h : aFldChState f ch < fltBase := (fldBase_lt_fltBase hf (x := 0x180 + 8 * ch) (by omega) |> (Nat.add_assoc ..).trans_lt)
  have hboc : fltBase < aBocState := by decide
  omega

theorem testBit_xor_two_pow (a k : Nat) (h : a.testBit k = true) : (a ^^^ 2 ^ k).testBit k = false := by
  rw [Nat.testBit_xor, Nat.testBit_two_pow_self, h]
  rfl

/-- The retirement of a channel (R267): its state, and the map of its field, at once or when the job ends. -/
theorem State.retireChannel_effects {s : State} {f ch : Nat} (hf : f < 8) (hch : ch < 16) :
    (s.retireChannel f ch).getF (aFldChState f ch) F.fldChState_state = 3 ∧
      (s.flag aBocState F.bocState_admitted = true → (s.retireChannel f ch).chanRetired f ch = true) ∧
      (s.flag aBocState F.bocState_admitted = false → (s.getF (aFldChannels f) F.fldChannels_active).testBit ch = true →
        ((s.retireChannel f ch).getF (aFldChannels f) F.fldChannels_active).testBit ch = false ∧
        (s.retireChannel f ch).getF (aFldChannels f) F.fldChannels_count =
          (s.getF (aFldChannels f) F.fldChannels_count - 1) % 2 ^ F.fldChannels_count.width) := by
  have hstate := logReg_fldChState hf hch
  have hmap := logReg_fldChannels hf
  have hne : aFldChState f ch ≠ aFldChannels f := (aFldChannels_ne_aFldChState hf hch hf).symm
  have hlost : ∀ g : Fld, g.lo < 64 → (s.channelLost f ch).getF (aFldChannels f) g = s.getF (aFldChannels f) g :=
    fun g hg => s.getF_channelLost_other g hmap hg hne.symm
  have hadmitted : (s.channelLost f ch).flag aBocState F.bocState_admitted = s.flag aBocState F.bocState_admitted := by
    simp only [State.flag]
    rw [s.getF_channelLost_other F.bocState_admitted (by decide) (by decide) (aBocState_ne_aFldChState hf hch)]
  have hthree := s.getF_channelLost_state hf hch
  cases h : s.flag aBocState F.bocState_admitted with
  | true =>
    rw [State.retireChannel_admitted (hadmitted.trans h)]
    refine ⟨?_, fun _ => ?_, fun hno => absurd hno (by decide)⟩
    · rw [State.getF_capacityAfter _ _ hstate (by decide), State.getF_setF_apart _ _ _ _ hne (by decide) (by decide), hthree]
    · have hwidth : ch < F.fldChannels_pending.width := hch
      simp only [State.chanRetired]
      rw [State.getF_capacityAfter _ _ hmap (by decide), State.getF_setF_same, Nat.testBit_mod_two_pow, Nat.testBit_or,
        Nat.testBit_two_pow_self, Bool.or_true, decide_eq_true hwidth, Bool.and_true]
  | false =>
    rw [State.retireChannel_free (hadmitted.trans h), hlost _ (by decide), hlost _ (by decide)]
    refine ⟨?_, fun hno => absurd hno (by decide), fun _ hact => ?_⟩
    · split
      · rw [State.getF_capacityAfter _ _ hstate (by decide)]
        simp only [State.setFs, List.foldl_cons, List.foldl_nil]
        rw [State.getF_setF_apart _ _ _ _ hne (by decide) (by decide), State.getF_setF_apart _ _ _ _ hne (by decide) (by decide), hthree]
      · exact hthree
    · rw [if_pos hact, State.getF_capacityAfter _ _ hmap (by decide), State.getF_capacityAfter _ _ hmap (by decide)]
      simp only [State.setFs, List.foldl_cons, List.foldl_nil, State.getF_setF_same]
      rw [State.getF_setF_beside _ _ _ _ _ (by decide), State.getF_setF_same, Nat.testBit_mod_two_pow, testBit_xor_two_pow _ _ hact,
        Bool.and_false]
      exact ⟨rfl, trivial⟩

/-! ### An uncorrectable word of the tier -/

theorem aFldChEcc_ne_aFldChState (f ch : Nat) : aFldChEcc f ch ≠ aFldChState f ch := by
  simp only [aFldChEcc, aFldChState]
  omega

theorem aFldChEcc_ne_aFldChannels (f ch : Nat) : aFldChEcc f ch ≠ aFldChannels f := by
  simp only [aFldChEcc, aFldChannels]
  omega

/-- A bad line noted: the counts of errors stay, and so do the islands. -/
theorem State.noteBadLine_effects (s : State) {f ch : Nat} (a : Nat) (hf : f < 8) (hch : ch < 16) (g : Fld) (hg : g.lo < 64) :
    (s.noteBadLine f ch a).getF (aFldChEcc f ch) g = s.getF (aFldChEcc f ch) g ∧
      (s.noteBadLine f ch a).units = s.units := by
  have hlog := logReg_fldChEcc hf hch
  let x := { s.tier with badChunks := Tbl.set [] s.tier.badChunks (16 * f + ch) (s.recentBad (16 * f + ch) a) }
  let v := ({ s with tier := x } : State).faultDetected (unitId 6 f 0 0 0 ch) 2 0
  have hv : v.getF (aFldChEcc f ch) g = s.getF (aFldChEcc f ch) g :=
    State.getF_of_offLog (s := { s with tier := x }) (State.offLog_faultDetected _ _ _ _) hlog hg
  have hunits : v.units = s.units := State.units_faultDetected _ _ _ _
  simp only [State.noteBadLine]
  split
  · refine ⟨?_, (State.of_bare State.units (fun _ => rfl) (State.bare_retireChannel v f ch)).trans hunits⟩
    exact (v.getF_retireChannel_other g hlog hg (aFldChEcc_ne_aFldChState f ch) (aFldChEcc_ne_aFldChannels f ch)).trans hv
  · exact ⟨hv, hunits⟩

/-- An uncorrectable word of the tier (R249, R251): counted, and known as such from then on. -/
theorem State.lpUncorrectable_effects {s : State} {addr f ch : Nat} (hf : f < 8) (hch : ch < 16) (hplace : s.channelOf addr = (f, ch))
    (hbad : s.lpBad addr = false) :
    (s.lpUncorrectable addr).getF (aFldChEcc f ch) F.fldChEcc_uncorrected =
        raised F.fldChEcc_uncorrected (s.getF (aFldChEcc f ch) F.fldChEcc_uncorrected) 1 ∧
      (s.lpUncorrectable addr).anyBad (addr / 64 * 64) 64 = true ∧ (s.lpUncorrectable addr).mem = s.mem ∧
      (s.lpUncorrectable addr).tags = s.tags ∧ s.sameIslands (s.lpUncorrectable addr) := by
  let v := ((s.markBad (addr / 64 * 64)).bump (aFldChEcc f ch) F.fldChEcc_uncorrected 1).event 2 0x10 0 (unitId 6 f 0 0 0 ch)
    (addr / 64 * 64)
  have heq : s.lpUncorrectable addr = v.noteBadLine f ch addr := by
    simp only [State.lpUncorrectable, hplace, hbad, Bool.false_eq_true, if_false]
    rfl
  have hunits : v.units = s.units := (State.units_event _ _ _ _ _ _).trans (State.units_bump _ _ _ _)
  have hkept : v.kept = (s.markBad (addr / 64 * 64)).kept := (State.kept_event _ _ _ _ _ _).trans (State.kept_bump _ _ _ _)
  have hcount : v.getF (aFldChEcc f ch) F.fldChEcc_uncorrected =
      raised F.fldChEcc_uncorrected (s.getF (aFldChEcc f ch) F.fldChEcc_uncorrected) 1 :=
    (State.getF_event _ _ _ _ _ _ (logReg_fldChEcc hf hch) (by decide)).trans (State.getF_bump_same _ _ _ 1)
  obtain ⟨hkeep, hunits'⟩ := v.noteBadLine_effects addr hf hch F.fldChEcc_uncorrected (by decide)
  have hbacking := (State.kept_noteBadLine v f ch addr).trans hkept
  rw [heq]
  refine ⟨hkeep.trans hcount, ?_, congrArg Backing.mem hbacking, congrArg Backing.tags hbacking,
    State.sameIslands_of_units (hunits'.trans hunits)⟩
  have hbad : (v.noteBadLine f ch addr).bad = (s.markBad (addr / 64 * 64)).bad := congrArg Backing.bad hbacking
  rw [State.anyBad, hbad]
  exact s.anyBad_markBad (addr / 64 * 64)

/-! ### A device's report of its temperature -/

/-- What a device reports of one of its channels (R251): whether it is hot, whether it is above its limit. -/
def State.reportHeat (hot above : Bool) (temp : Nat) (s : State) (p : Nat × Nat) : State :=
  let was := s.flag (aFldChState p.1 p.2) F.fldChState_over
  let s' := (s.setFlag (aFldChState p.1 p.2) F.fldChState_hot hot).setFlag (aFldChState p.1 p.2) F.fldChState_over above
  if above && !was then s'.event 2 0x11 0 (unitId 6 p.1 0 0 0 p.2) (p.2 + temp * 2 ^ 16) else s'

theorem execDeviceTemperatureReport_eq {device : Nat} (hd : device < 16) (hot above : Bool) (temp : Nat) (s : State) :
    execDeviceTemperatureReport device hot above temp s =
      .next (((deviceChannels device).foldl (State.reportHeat hot above temp) s).setF aBocThermal F.bocThermal_lpddrOver
        ((deviceChannels device).foldl (State.reportHeat hot above temp) s).overMask) := if_pos hd

theorem aFldChState_injective {f ch f' ch' : Nat} (hch : ch < 16) (hch' : ch' < 16) (h : aFldChState f ch = aFldChState f' ch') :
    f = f' ∧ ch = ch' := by
  simp only [aFldChState, fldBase] at h
  omega

/-- The two flags that a temperature report writes show `hot` and `above`. -/
def State.showsHeat (hot above : Bool) (p : Nat × Nat) (s : State) : Prop :=
  s.getF (aFldChState p.1 p.2) F.fldChState_hot = hot.toNat ∧ s.getF (aFldChState p.1 p.2) F.fldChState_over = above.toNat

section
variable (hot above : Bool) (temp : Nat) (s : State)

@[simp] theorem State.bare_reportHeat (p : Nat × Nat) : (State.reportHeat hot above temp s p).bare = s.bare := by
  simp [State.reportHeat]

theorem State.getF_setFlag_same (a : Nat) (f : Fld) (b : Bool) (h : f.width = 1) : (s.setFlag a f b).getF a f = b.toNat := by
  rw [State.setFlag, State.getF_setF_same, h]
  cases b <;> rfl

theorem State.offLog_reportHeat (p : Nat × Nat) : (State.reportHeat hot above temp s p).offLog =
    ((s.setFlag (aFldChState p.1 p.2) F.fldChState_hot hot).setFlag (aFldChState p.1 p.2) F.fldChState_over above).offLog := by
  simp only [State.reportHeat, State.offLog_ite, State.offLog_event, ite_self]

theorem State.reportHeat_shows {p : Nat × Nat} (hf : p.1 < 8) (hch : p.2 < 16) :
    (State.reportHeat hot above temp s p).showsHeat hot above p := by
  have hlog := logReg_fldChState hf hch
  have hoff := State.offLog_reportHeat hot above temp s p
  refine ⟨(State.getF_of_offLog hoff hlog (by decide)).trans ?_, (State.getF_of_offLog hoff hlog (by decide)).trans ?_⟩
  · exact (State.getF_setF_beside _ _ _ _ _ (by decide)).trans (State.getF_setFlag_same s _ _ hot rfl)
  · exact State.getF_setFlag_same _ _ _ above rfl

theorem State.reportHeat_keeps {p q : Nat × Nat} (hq : q.1 < 8) (hq' : q.2 < 16) (hp' : p.2 < 16) (h : s.showsHeat hot above q) :
    (State.reportHeat hot above temp s p).showsHeat hot above q := by
  by_cases hpq : q = p
  · subst hpq
    exact State.reportHeat_shows hot above temp s hq hq'
  · have hne : aFldChState q.1 q.2 ≠ aFldChState p.1 p.2 := fun h =>
      hpq (Prod.ext (aFldChState_injective hq' hp' h).1 (aFldChState_injective hq' hp' h).2)
    have hkeep : ∀ g : Fld, g.lo < 64 →
        (State.reportHeat hot above temp s p).getF (aFldChState q.1 q.2) g = s.getF (aFldChState q.1 q.2) g := fun g hg =>
      (State.getF_of_offLog (State.offLog_reportHeat hot above temp s p) (logReg_fldChState hq hq') hg).trans
        ((State.getF_setF_apart _ _ g _ hne (by decide) hg).trans (State.getF_setF_apart s _ g _ hne (by decide) hg))
    exact ⟨(hkeep _ (by decide)).trans h.1, (hkeep _ (by decide)).trans h.2⟩

theorem State.foldl_reportHeat_shows {q : Nat × Nat} (hq : q.1 < 8) (hq' : q.2 < 16) (l : List (Nat × Nat))
    (hl : ∀ p ∈ l, p.2 < 16) (h : q ∈ l ∨ s.showsHeat hot above q) :
    (l.foldl (State.reportHeat hot above temp) s).showsHeat hot above q := by
  induction l generalizing s with
  | nil => exact h.resolve_left (List.not_mem_nil)
  | cons p l ih =>
    refine ih (State.reportHeat hot above temp s p) (fun r hr => hl r (List.mem_cons_of_mem p hr)) ?_
    rcases h with h | h
    · rcases List.mem_cons.mp h with rfl | h
      · exact .inr (State.reportHeat_shows hot above temp s hq hq')
      · exact .inl h
    · exact .inr (State.reportHeat_keeps hot above temp s hq hq' (hl p List.mem_cons_self) h)

end

theorem mem_deviceChannels {f ch : Nat} (hch : ch < 16) : (f, ch) ∈ deviceChannels (2 * f + ch / 8) := by
  refine List.mem_map.mpr ⟨ch % 8, List.mem_range.mpr (Nat.mod_lt _ (by decide)), Prod.ext ?_ ?_⟩ <;> simp only <;> omega

theorem snd_lt_of_mem_deviceChannels {device : Nat} {p : Nat × Nat} (h : p ∈ deviceChannels device) : p.2 < 16 := by
  obtain ⟨j, hj, rfl⟩ := List.mem_map.mp h
  have := List.mem_range.mp hj
  simp only
  omega

theorem State.overMask_lt (s : State) : s.overMask < 2 ^ F.bocThermal_lpddrOver.width := by
  have hsub : (((List.range 8).filter s.fieldOver).map fun f => 2 ^ f).Sublist ((List.range 8).map fun f => 2 ^ f) :=
    List.filter_sublist.map _
  have hle := hsub.sum_le_sum (fun _ _ => Nat.zero_le _)
  exact lt_of_le_of_lt hle (by decide)

theorem State.overMask_setF_thermal (s : State) (f : Fld) (v : Nat) (hf : f.lo < 64) : (s.setF aBocThermal f v).overMask = s.overMask := by
  have hfield : ∀ i ∈ List.range 8, (s.setF aBocThermal f v).fieldOver i = s.fieldOver i := by
    intro i hi
    simp only [State.fieldOver]
    rw [Bool.eq_iff_iff, List.any_eq_true, List.any_eq_true]
    refine exists_congr fun ch => and_congr_right fun hch => ?_
    have h : aFldChState i ch < fltBase :=
      (fldBase_lt_fltBase (List.mem_range.mp hi) (x := 0x180 + 8 * ch) (by have := List.mem_range.mp hch; omega) |>
        (Nat.add_assoc ..).trans_lt)
    have hboc : fltBase < aBocThermal := by decide
    simp only [State.flag]
    rw [State.getF_setF_apart s f F.fldChState_over v (by omega) hf (by decide)]
  simp only [State.overMask]
  rw [List.filter_congr hfield]

/-- A device's report (R251): its channels' flags, and the mask of the fields that are over their limit. -/
theorem deviceTemperatureReport_effects (s : State) {f ch : Nat} (hf : f < 8) (hch : ch < 16) (hot above : Bool) (temp : Nat) :
    CompletesWith (execDeviceTemperatureReport (2 * f + ch / 8) hot above temp s) fun t =>
      t.getF (aFldChState f ch) F.fldChState_hot = hot.toNat ∧ t.getF (aFldChState f ch) F.fldChState_over = above.toNat ∧
      t.getF aBocThermal F.bocThermal_lpddrOver = t.overMask ∧ s.sameMemory t ∧ s.sameIslands t := by
  have hdevice : 2 * f + ch / 8 < 16 := by omega
  let v := (deviceChannels (2 * f + ch / 8)).foldl (State.reportHeat hot above temp) s
  obtain ⟨hhot, hover⟩ : v.showsHeat hot above (f, ch) := State.foldl_reportHeat_shows hot above temp s hf hch _
    (fun _ hp => snd_lt_of_mem_deviceChannels hp) (.inl (mem_deviceChannels hch))
  have hbare : (v.setF aBocThermal F.bocThermal_lpddrOver v.overMask).bare = s.bare :=
    State.bare_foldl _ (State.bare_reportHeat hot above temp) s
  have hne : aFldChState f ch ≠ aBocThermal := by
    have h : aFldChState f ch < fltBase := (fldBase_lt_fltBase hf (x := 0x180 + 8 * ch) (by omega) |> (Nat.add_assoc ..).trans_lt)
    have hboc : fltBase < aBocThermal := by decide
    omega
  refine ⟨_, execDeviceTemperatureReport_eq hdevice hot above temp s, ?_, ?_, ?_, State.sameMemory_of_bare hbare,
    State.sameIslands_of_bare hbare⟩
  · exact (State.getF_setF_apart v _ _ _ hne (by decide) (by decide)).trans hhot
  · exact (State.getF_setF_apart v _ _ _ hne (by decide) (by decide)).trans hover
  · rw [State.getF_setF_same, State.overMask_setF_thermal _ _ _ (by decide), Nat.mod_eq_of_lt (State.overMask_lt _)]

/-! ### The statement -/

/-- Settles O20: the scrubber, and the commands of the LPDDR5X tier one by one. -/
theorem memoryErrorsAndChannels : Obligations.MemoryErrorsAndChannels := by
  unfold Obligations.MemoryErrorsAndChannels
  refine ⟨fun s n u line hcore hline => ?_, fun s f ch hf hch => ?_⟩
  · intro a cnt hgood
    have hlog := logReg_islCoreEcc n u
    refine ⟨execTileScrub_clean hcore hline hgood, ⟨_, execTileScrub_corrected hcore hline hgood, ?_⟩, ?_⟩
    · have hbare := (State.bare_corrected (s.bump (aIslCoreEcc n u) F.islCoreEcc_tmCorrected 1) (.core n u)).trans (State.bare_bump ..)
      refine ⟨?_, ?_, State.sameMemory_of_bare hbare, (State.sameIslands_of_bare hbare).1⟩
      · exact (State.getF_corrected _ _ hlog (by decide)).trans (State.getF_bump_same ..)
      · exact (State.getF_corrected _ _ hlog (by decide)).trans (State.getF_bump_other _ _ _ _ (fkey_ne_of_lo _ (by decide)))
    · obtain ⟨unit, unit', hrun⟩ := execTileScrub_uncorrectable hcore hline hgood
      refine ⟨_, hrun, ?_⟩
      have hbare := (State.bare_faultDetected ((((s.markBad a).bump (aIslCoreEcc n u) F.islCoreEcc_tmUncorrected 1).event 2 0x10 2
        unit (64 * line))) unit' 2 0).trans ((State.bare_event _ _ _ _ _ _).trans (State.bare_bump ..))
      obtain ⟨hmem, htags, -⟩ := State.sameMemory_of_bare hbare
      refine ⟨?_, (State.anyBad_of_bare hbare a 64).trans (s.anyBad_markBad a), hmem, htags, (State.sameIslands_of_bare hbare).1⟩
      exact (State.getF_of_offLog (State.offLog_faultDetected _ _ _ _) hlog (by decide)).trans
        ((State.getF_event _ _ _ _ _ _ hlog (by decide)).trans (State.getF_bump_same ..))
  · have hchannel := hasChannel_of hf hch
    refine ⟨⟨_, if_pos hchannel, ?_⟩, fun count => ⟨_, if_pos hchannel, ?_⟩, fun addr hmapped hplace hlive hgood => ?_,
      fun hot above temp => deviceTemperatureReport_effects s hf hch hot above temp, fun hstate => ?_⟩
    · exact ⟨Tbl.get_set_same [] _ _ _, fun k hk => Tbl.get_set_other [] _ _ hk, rfl, ⟨rfl, rfl, rfl⟩, rfl, rfl, rfl⟩
    · exact ⟨State.getF_bump_same .., (State.regsBut_refl s _).bump List.mem_cons_self _, ⟨rfl, rfl, rfl⟩, rfl, rfl, rfl⟩
    · intro k q
      refine ⟨execLpddrPatrolScrub_clean hmapped hplace hlive hgood, fun hqueue hroom => ?_, fun hqueue => ?_, fun hqueue => ?_⟩
      · exact ⟨_, execLpddrPatrolScrub_corrected hmapped hplace hlive hgood hqueue, State.lpCorrected_counts hf hch hplace hqueue hroom⟩
      · refine ⟨_, execLpddrPatrolScrub_link hmapped hplace hlive hgood hqueue, ?_⟩
        exact ⟨State.getF_bump_same .., (State.regsBut_refl s _).bump List.mem_cons_self _, rfl, ⟨rfl, rfl, rfl⟩, rfl, rfl, rfl⟩
      · exact ⟨_, execLpddrPatrolScrub_uncorrectable hmapped hplace hlive hgood hqueue,
          State.lpUncorrectable_effects hf hch hplace (State.lpBad_eq_false hplace hlive hgood)⟩
    · refine ⟨_, (if_pos hchannel).trans (if_neg hstate), ?_⟩
      obtain ⟨hthree, hjob, hfree⟩ := State.retireChannel_effects (s := s) hf hch
      have hbare := State.bare_retireChannel s f ch
      exact ⟨hthree, State.sameMemory_of_bare hbare, State.sameIslands_of_bare hbare, hjob, fun hno hact _ => hfree hno hact⟩

end Sys2Proof.Machine
end

section
/-! The reset of an island and the end of its breath (R89, R179, R203, R234). -/

namespace Sys2Proof.Machine

/-! ### Several fields of a register written or cleared -/

theorem State.getF_setFs_mem {a : Nat} {l : List (Fld × Nat)} (hl : (l.map fun p => p.1.lo).Nodup) {f : Fld} {v : Nat} (h : (f, v) ∈ l)
    (s : State) : (s.setFs a l).getF a f = v % 2 ^ f.width := by
  induction l generalizing s with
  | nil => exact absurd h List.not_mem_nil
  | cons p l ih =>
    obtain ⟨hp, hnd⟩ := List.nodup_cons.mp hl
    rcases List.mem_cons.mp h with rfl | h
    · exact s.getF_setFs_head a f v l fun q hq heq => hp (List.mem_map.mpr ⟨q, hq, heq⟩)
    · exact ih hnd h (s.setF a p.1 p.2)

theorem State.getF_setFs_apart {a b : Nat} (hb : b ≠ a) {l : List (Fld × Nat)} (hl : ∀ p ∈ l, p.1.lo < 64) {g : Fld} (hg : g.lo < 64)
    (s : State) : (s.setFs a l).getF b g = s.getF b g := by
  induction l generalizing s with
  | nil => rfl
  | cons p l ih =>
    exact (ih (fun q hq => hl q (List.mem_cons_of_mem p hq)) (s.setF a p.1 p.2)).trans
      (s.getF_setF_apart p.1 g p.2 hb (hl p List.mem_cons_self) hg)

theorem fieldStep_reset (a : Nat) : FieldStep a fun s f => s.setF a f f.reset := FieldStep.setF a fun f _ => f.reset

theorem State.getF_clearFs_mem {a : Nat} {l : List Fld} (hl : (l.map Fld.lo).Nodup) {f : Fld} (h : f ∈ l) (s : State) :
    (s.clearFs a l).getF a f = f.reset % 2 ^ f.width :=
  (((fieldStep_reset a).getF_foldl hl s).1 h).trans (s.getF_setF_same a f f.reset)

theorem State.getF_clearFs_apart {a b : Nat} (hb : b ≠ a) {l : List Fld} (hl : ∀ f ∈ l, f.lo < 64) {g : Fld} (hg : g.lo < 64)
    (s : State) : (s.clearFs a l).getF b g = s.getF b g := (fieldStep_reset a).getF_foldl_other hl s hb hg

@[simp] theorem State.bare_clearFs (s : State) (a : Nat) (l : List Fld) : (s.clearFs a l).bare = s.bare := by simp [State.clearFs]

/-- Registers at two places of an island's block. -/
theorem islBase_ne {n x y : Nat} (h : x ≠ y) : islBase n + x ≠ islBase n + y := by omega

/-! ### A table without some of its keys -/

theorem Tbl.get_filter {α : Type} (d : α) (t : Tbl α) (p : Nat → Bool) (k : Nat) :
    Tbl.get d (t.filter fun q => p q.1) k = if p k then Tbl.get d t k else d := by
  induction t with
  | nil => simp
  | cons q t ih =>
    obtain ⟨j, v⟩ := q
    cases hj : p j with
    | false =>
      rw [List.filter_cons_of_neg (by simp only [hj]; decide), ih]
      by_cases hjk : j = k
      · subst hjk
        simp only [hj, Bool.false_eq_true, if_false]
      · simp only [Tbl.get, hjk, if_false]
    | true =>
      rw [List.filter_cons_of_pos (by exact hj)]
      by_cases hjk : j = k
      · subst hjk
        simp only [Tbl.get, if_true, hj]
      · simp only [Tbl.get, hjk, if_false, ih]

/-! ### The registers an island reset clears -/

/-- The keys of a put's binding count, of the island's cores. -/
def putQuarterKey (n k : Nat) : Bool :=
  decide (islBase n + 0x20000 ≤ k / 64 ∧ k / 64 - islBase n < 0x2F000 ∧ k % 64 = F.islPutBind_quarters.lo)

theorem State.getF_clearIslandRegs (s : State) (n b : Nat) (g : Fld) :
    (s.clearIslandRegs n).getF b g =
      if !putQuarterKey n (fkey b g) && !s.resetCleared n (fkey b g) then s.getF b g else g.reset := by
  have hget : Tbl.get 0 (s.clearIslandRegs n).regs (fkey b g) =
      if !putQuarterKey n (fkey b g) then (if !s.resetCleared n (fkey b g) then Tbl.get 0 s.regs (fkey b g) else 0) else 0 :=
    (Tbl.get_filter 0 (s.regs.filter fun p => !s.resetCleared n p.1) (fun k => !putQuarterKey n k) (fkey b g)).trans
      (by rw [Tbl.get_filter 0 s.regs (fun k => !s.resetCleared n k)])
  simp only [State.getF, hget]
  cases putQuarterKey n (fkey b g) <;> cases s.resetCleared n (fkey b g) <;>
    simp only [Bool.not_true, Bool.not_false, Bool.and_self, Bool.and_true, Bool.and_false, Bool.false_eq_true, if_true, if_false,
      Nat.zero_xor]

theorem State.getF_clearIslandRegs_sync (s : State) (n : Nat) {k : Nat} (hk : k < 256) :
    (s.clearIslandRegs n).getF (aIslSync n k) F.islSync_value = 0 := by
  have hreg : fkey (aIslSync n k) F.islSync_value / 64 = islBase n + (0xC000 + 8 * k) := by
    simp only [fkey, aIslSync, F.islSync_value]
    omega
  have hcleared : s.resetCleared n (fkey (aIslSync n k) F.islSync_value) = true := by
    have hblock : islBase n ≤ islBase n + (0xC000 + 8 * k) ∧ islBase n + (0xC000 + 8 * k) < islBase n + 0x200000 := by omega
    have hsync : 0xC000 ≤ 0xC000 + 8 * k ∧ 0xC000 + 8 * k < 0xC800 := by omega
    simp only [State.resetCleared, hreg, Nat.add_sub_cancel_left, decide_eq_true hblock, decide_eq_true hsync, Bool.true_or,
      Bool.and_self]
  rw [State.getF_clearIslandRegs, hcleared, Bool.not_true, Bool.and_false]
  rfl

theorem State.getF_clearIslandRegs_stallLimit (s : State) (n : Nat) :
    (s.clearIslandRegs n).getF (aIslStallLimit n) F.islStallLimit_cycles = s.getF (aIslStallLimit n) F.islStallLimit_cycles := by
  have hreg : fkey (aIslStallLimit n) F.islStallLimit_cycles / 64 = islBase n + 0x220 := by
    simp only [fkey, aIslStallLimit, F.islStallLimit_cycles]
    omega
  have hput : putQuarterKey n (fkey (aIslStallLimit n) F.islStallLimit_cycles) = false := by
    refine decide_eq_false fun h => ?_
    rw [hreg] at h
    omega
  have hcheck : ¬(aFltCoreChk n 0 ≤ islBase n + 0x220 ∧ islBase n + 0x220 < aFltCoreChk n 960) := by
    simp only [aFltCoreChk, fltBase, islBase]
    omega
  have hkept : s.resetCleared n (fkey (aIslStallLimit n) F.islStallLimit_cycles) = false := by
    simp only [State.resetCleared, hreg, Nat.add_sub_cancel_left, decide_eq_false hcheck, Bool.or_false]
    rw [Bool.and_eq_false_iff]
    right
    decide
  rw [State.getF_clearIslandRegs, hput, hkept]
  rfl

/-! ### The reset of an island -/

theorem aGmuTrack_ne_island (n x : Nat) : islBase n + x ≠ aGmuTrack := by
  have h : aGmuTrack < islBase 0 := by decide
  simp only [islBase] at h ⊢
  omega

@[simp] theorem State.regs_dropQueues (s : State) (n : Nat) : (s.dropQueues n).regs = s.regs := by
  simp only [State.dropQueues]
  refine (State.foldl_frame State.regs _ (fun s q => ?_) _).trans rfl
  split <;> rfl

@[simp] theorem State.cores_dropQueues (s : State) (n : Nat) : (s.dropQueues n).cores = s.cores := by
  simp only [State.dropQueues]
  refine (State.foldl_frame State.cores _ (fun s q => ?_) _).trans rfl
  split <;> rfl

theorem State.core_resetIsland (s : State) (n m : Nat) {u : Nat} (hu : u < 960) :
    (s.resetIsland n).core m u = if m = n then Core.reset else s.core m u := by
  have hcores : (s.resetIsland n).cores = (s.dropQueues n).cores.filter fun p => !decide (p.1 / 1024 = n) := rfl
  have hkey : ckey m u / 1024 = m := by simp only [ckey]; omega
  rw [State.core, hcores, Tbl.get_filter _ _ fun k => !decide (k / 1024 = n), hkey, State.cores_dropQueues]
  by_cases hm : m = n
  · simp only [hm, decide_true, Bool.not_true, Bool.false_eq_true, if_true, if_false]
  · simp only [hm, decide_false, Bool.not_false, if_true, if_false, State.core]

theorem State.cluster_resetIsland (s : State) (n : Nat) {cl : Nat} (hcl : cl < 16) : (s.resetIsland n).cluster n cl = Cluster.reset := by
  have hclusters : (s.resetIsland n).clusters = (s.dropQueues n).clusters.filter fun p => !decide (p.1 / 16 = n) := rfl
  have hkey : (16 * n + cl) / 16 = n := by omega
  rw [State.cluster, hclusters, Tbl.get_filter _ _ fun k => !decide (k / 16 = n), hkey, decide_eq_true rfl, Bool.not_true,
    if_neg (by decide)]

theorem State.island_resetIsland (s : State) (n : Nat) : (s.resetIsland n).island n = Island.reset :=
  Tbl.get_set_same Island.reset _ n Island.reset

/-- An island reset clears registers, then shows that no breath runs and no reset waits. -/
theorem State.getF_resetIsland (s : State) (n b : Nat) (g : Fld) :
    ∃ x : State, (s.resetIsland n).getF b g =
        (((x.clearIslandRegs n).setF (aIslBreath n) F.islBreath_state 0).setF (aIslReset n) F.islReset_pending 0).getF b g ∧
      ∃ v, x.regs = (s.setF aGmuTrack F.gmuTrack_open v).regs :=
  ⟨_, rfl, _, congrArg (fun regs => Tbl.set 0 regs _ _) (State.regs_dropQueues s n)⟩

theorem State.resetIsland_registers (s : State) (n : Nat) :
    (∀ k < 256, (s.resetIsland n).getF (aIslSync n k) F.islSync_value = 0) ∧
      (s.resetIsland n).getF (aIslBreath n) F.islBreath_state = 0 ∧ (s.resetIsland n).getF (aIslReset n) F.islReset_pending = 0 ∧
      (s.resetIsland n).getF (aIslStallLimit n) F.islStallLimit_cycles = s.getF (aIslStallLimit n) F.islStallLimit_cycles := by
  refine ⟨fun k hk => ?_, ?_, ?_, ?_⟩
  · obtain ⟨x, heq, -⟩ := s.getF_resetIsland n (aIslSync n k) F.islSync_value
    have hreset : aIslSync n k ≠ aIslReset n := by simp only [aIslSync, aIslReset]; omega
    have hbreath : aIslSync n k ≠ aIslBreath n := by simp only [aIslSync, aIslBreath]; omega
    rw [heq, State.getF_setF_apart _ _ _ _ hreset (by decide) (by decide), State.getF_setF_apart _ _ _ _ hbreath (by decide) (by decide),
      State.getF_clearIslandRegs_sync x n hk]
  · obtain ⟨x, heq, -⟩ := s.getF_resetIsland n (aIslBreath n) F.islBreath_state
    have hreset : aIslBreath n ≠ aIslReset n := islBase_ne (by decide)
    rw [heq, State.getF_setF_apart _ _ _ _ hreset (by decide) (by decide), State.getF_setF_same, Nat.zero_mod]
  · obtain ⟨x, heq, -⟩ := s.getF_resetIsland n (aIslReset n) F.islReset_pending
    rw [heq, State.getF_setF_same, Nat.zero_mod]
  · obtain ⟨x, heq, v, hregs⟩ := s.getF_resetIsland n (aIslStallLimit n) F.islStallLimit_cycles
    have hx : x.getF (aIslStallLimit n) F.islStallLimit_cycles = s.getF (aIslStallLimit n) F.islStallLimit_cycles := by
      rw [State.getF, hregs]
      exact State.getF_setF_apart s _ _ v (aGmuTrack_ne_island n 0x220) (by decide) (by decide)
    have hreset : aIslStallLimit n ≠ aIslReset n := islBase_ne (by decide)
    have hbreath : aIslStallLimit n ≠ aIslBreath n := islBase_ne (by decide)
    rw [heq, State.getF_setF_apart _ _ _ _ hreset (by decide) (by decide), State.getF_setF_apart _ _ _ _ hbreath (by decide) (by decide),
      State.getF_clearIslandRegs_stallLimit, hx]

/-! ### The end of an island's breath -/

@[simp] theorem State.bare_closeStalls (s : State) (n : Nat) : (s.closeStalls n).bare = s.bare := by simp [State.closeStalls]

/-- The stall registers of a completed breath (R89): the counts are copied and cleared, and other registers stay. -/
theorem State.closeStalls_registers (s : State) (n : Nat) :
    (s.closeStalls n).getF (aIslStallLast n) F.islStallLast_count =
        s.getF (aIslStallCnt n) F.islStallCnt_count % 2 ^ F.islStallLast_count.width ∧
      (s.closeStalls n).getF (aIslStallCnt n) F.islStallCnt_count = 0 ∧
      (s.closeStalls n).getF (aIslStallCnt n) F.islStallCnt_episodes = 0 ∧
      (s.closeStalls n).getF (aIslStallFirst n) F.islStallFirst_valid = 0 := by
  have hcause : ∀ f ∈ [F.islStallCause_mailboxCycles, F.islStallCause_counterCycles, F.islStallCause_crossingCycles], f.lo < 64 := by
    decide
  have hcnt : ∀ f ∈ [F.islStallCnt_count, F.islStallCnt_episodes, F.islStallCnt_maxRun], f.lo < 64 := by decide
  have hfirst : ∀ f ∈ [F.islStallFirst_cyc, F.islStallFirst_unit, F.islStallFirst_cause, F.islStallFirst_id, F.islStallFirst_valid],
      f.lo < 64 := by decide
  have hlast1 : aIslStallLast n ≠ aIslStallFirst n := islBase_ne (by decide)
  have hlast2 : aIslStallLast n ≠ aIslStallCause n := islBase_ne (by decide)
  have hlast3 : aIslStallLast n ≠ aIslStallCnt n := islBase_ne (by decide)
  have hcnt1 : aIslStallCnt n ≠ aIslStallFirst n := islBase_ne (by decide)
  have hcnt2 : aIslStallCnt n ≠ aIslStallCause n := islBase_ne (by decide)
  simp only [State.closeStalls]
  refine ⟨?_, ?_, ?_, ?_⟩
  · rw [State.getF_clearFs_apart hlast1 hfirst (by decide), State.getF_clearFs_apart hlast2 hcause (by decide),
      State.getF_clearFs_apart hlast3 hcnt (by decide), State.getF_setFs_head]
    simp only [List.forall_mem_cons]
    decide
  · rw [State.getF_clearFs_apart hcnt1 hfirst (by decide), State.getF_clearFs_apart hcnt2 hcause (by decide),
      State.getF_clearFs_mem (by decide) (by decide)]
    rfl
  · rw [State.getF_clearFs_apart hcnt1 hfirst (by decide), State.getF_clearFs_apart hcnt2 hcause (by decide),
      State.getF_clearFs_mem (by decide) (by decide)]
    rfl
  · rw [State.getF_clearFs_mem (by decide) (by decide)]
    rfl

/-- An island whose work is over needs no further cycle. -/
theorem State.drain_of_breathOver {s : State} {n : Nat} (h : s.breathOver n = true) (k : Nat) : State.drain n k s = s := by
  cases k with
  | zero => rfl
  | succ k => simp only [State.drain, h, Bool.true_or, if_true]

theorem execIslandBreathComplete_over {s : State} {n : Nat} (hn : n < s.numIslands) (hlive : s.brt.aborted = false)
    (hstate : s.getF (aIslBreath n) F.islBreath_state = 1) (hopen : s.getF (aIslBreath n) F.islBreath_complete = 0)
    (hover : s.breathOver n = true) :
    ∃ b, execIslandBreathComplete n s =
      .next (((s.closeStalls n).setF (aIslBreath n) F.islBreath_complete 1).setFlag (aIslBreath n) F.islBreath_loadsDone b) := by
  refine ⟨((s.closeStalls n).setF (aIslBreath n) F.islBreath_complete 1).islandLoaded n, ?_⟩
  simp only [execIslandBreathComplete, if_pos hn, hlive, hstate, State.flag, hopen, State.drain_of_breathOver hover, hover, Bool.not_false,
    and_self, if_true, Bool.false_eq_true, ne_eq, not_true_eq_false, decide_false, or_self, if_false]

/-! ### The statement -/

/-- Settles O21: a reset request by its bit and the boundary, and the completion of a breath whose work is over. -/
theorem islandResetAndCompletion : Obligations.IslandResetAndCompletion := by
  unfold Obligations.IslandResetAndCompletion
  refine ⟨fun s n v hn => ⟨fun hzero => ?_, fun hone hno => ?_, fun hone hyes hlive => ?_⟩,
    fun s n hn hlive hstate hopen hover => ?_⟩
  · rw [exec_islandResetRequest, execIslandResetRequest, if_pos hn]
    simp only [hzero, Bool.not_false, if_true]
  · have hno' : ({ s with bus := ⟨false, 0⟩ } : State).atBoundary = false := hno
    refine ⟨({ s with bus := ⟨false, 0⟩ } : State).setF (aIslReset n) F.islReset_pending 1, ?_, ?_⟩
    · rw [exec_islandResetRequest, execIslandResetRequest, if_pos hn]
      simp only [hone, hno', Bool.not_true, Bool.false_and, Bool.false_eq_true, if_false]
    · refine ⟨State.getF_setF_same _ _ _ 1, ?_, ⟨rfl, rfl, rfl⟩, rfl, rfl, rfl⟩
      exact State.regsBut.setF (s := s) (t := { s with bus := ⟨false, 0⟩ }) (fun _ _ _ => rfl) List.mem_cons_self 1
  · have hyes' : ({ s with bus := ⟨false, 0⟩ } : State).atBoundary = true := hyes
    let v' : State := { s with bus := ⟨false, 0⟩ }
    refine ⟨v'.resetIsland n, ?_, ?_⟩
    · rw [exec_islandResetRequest, execIslandResetRequest, if_pos hn]
      simp only [hone, hyes', hlive, Bool.not_true, Bool.not_false, Bool.and_self, Bool.false_eq_true, if_false, if_true]
      rfl
    · obtain ⟨hsync, hbreath, hpending, hlimit⟩ := v'.resetIsland_registers n
      have hkept : (v'.resetIsland n).kept = s.kept := State.kept_resetIsland v' n
      refine ⟨fun u hu => ?_, fun cl hcl => State.cluster_resetIsland v' n hcl, State.island_resetIsland v' n, fun m u hm hu => ?_,
        hsync, hbreath, hpending, hlimit, State.sameMemory_of_kept hkept⟩
      · exact (State.core_resetIsland v' n n hu).trans (if_pos rfl)
      · exact (State.core_resetIsland v' n m hu).trans (if_neg hm)
  · obtain ⟨b', hrun⟩ := execIslandBreathComplete_over hn hlive hstate hopen hover
    obtain ⟨hlast, hcount, hepisodes, hvalid⟩ := s.closeStalls_registers n
    have hbare : ((((s.closeStalls n).setF (aIslBreath n) F.islBreath_complete 1).setFlag (aIslBreath n) F.islBreath_loadsDone b')).bare =
        s.bare := by
      simp only [State.bare_setFlag, State.bare_setF, State.bare_closeStalls]
    have hkeep : ∀ b (g : Fld), b ≠ aIslBreath n → g.lo < 64 →
        ((((s.closeStalls n).setF (aIslBreath n) F.islBreath_complete 1).setFlag (aIslBreath n) F.islBreath_loadsDone b')).getF b g =
          (s.closeStalls n).getF b g := fun b g hb hg =>
      (State.getF_setF_apart _ _ _ _ hb (by decide) hg).trans (State.getF_setF_apart _ _ _ _ hb (by decide) hg)
    have hlast' : aIslStallLast n ≠ aIslBreath n := islBase_ne (by decide)
    have hcnt' : aIslStallCnt n ≠ aIslBreath n := islBase_ne (by decide)
    have hfirst' : aIslStallFirst n ≠ aIslBreath n := islBase_ne (by decide)
    refine ⟨_, hrun, ?_, (hkeep _ _ hlast' (by decide)).trans hlast, (hkeep _ _ hcnt' (by decide)).trans hcount,
      (hkeep _ _ hcnt' (by decide)).trans hepisodes, (hkeep _ _ hfirst' (by decide)).trans hvalid,
      State.sameIslands_of_bare hbare, State.sameMemory_of_bare hbare⟩
    exact (State.getF_setF_beside _ _ _ _ _ (by decide)).trans (State.getF_setF_same _ _ _ 1)

end Sys2Proof.Machine
end

section
/-! Missed starts, the overrun check, slip requests and slip orders (R206, R208 to R211). -/

namespace Sys2Proof.Machine

/-! ### What a message taken, or sent to all, leaves alone -/

section
variable {β : Type} (g : State → β) (hg : ∀ s x, g { s with ctl := x } = g s)
include hg

/-- A message sent to one package changes the control network alone. -/
theorem State.unicast_ctl (s : State) (c : Ctl) : g (s.unicast c) = g s := by
  simp only [State.unicast]
  split
  · exact hg s _
  · split <;> exact hg s _

/-- A broadcast passed on changes the control network alone. -/
theorem State.forwardBcast_ctl (s : State) (c : Ctl) : g (s.forwardBcast c) = g s := by
  have hpass : ∀ (s : State) (dir : Nat), g (match s.dirPort dir with
      | some p => s.queueCtl p c
      | none => s.unicast { c with bcast := false, dest := s.neighbour dir }) = g s := by
    intro s dir
    split
    · exact hg s _
    · exact State.unicast_ctl g hg s _
  refine State.foldl_frame g _ (fun s dir => ?_) s
  generalize hb : (if dir % 2 = 0 then (s.bcastDirs (dir / 2) c.source).1 else (s.bcastDirs (dir / 2) c.source).2) = b
  cases b with
  | true => exact (congrArg g (if_pos hb)).trans (hpass s dir)
  | false => exact congrArg g (if_neg (ne_true_of_eq_false hb))

theorem State.sendAll_ctl (s : State) (m : Msg) : g (s.sendAll m) = g s := (hg _ _).trans (State.forwardBcast_ctl g hg s _)

/-- A message taken out leaves what depends on neither the control network nor the ports. -/
theorem State.takeMsg_ctl (hp : ∀ s x, g { s with ports := x } = g s) (s : State) (m : Msg) : g (s.takeMsg m) = g s := by
  simp only [State.takeMsg]
  split
  · exact hg s _
  · split
    · exact hp s _
    · rfl

end

section
variable (s : State) (m : Msg)

@[simp] theorem State.regs_takeMsg : (s.takeMsg m).regs = s.regs := State.takeMsg_ctl State.regs (fun _ _ => rfl) (fun _ _ => rfl) s m
@[simp] theorem State.getF_takeMsg (b : Nat) (g : Fld) : (s.takeMsg m).getF b g = s.getF b g := by
  simp only [State.getF, State.regs_takeMsg]
@[simp] theorem State.units_takeMsg : (s.takeMsg m).units = s.units := State.takeMsg_ctl State.units (fun _ _ => rfl) (fun _ _ => rfl) s m
@[simp] theorem State.breath_takeMsg : (s.takeMsg m).breath = s.breath :=
  State.takeMsg_ctl State.breath (fun _ _ => rfl) (fun _ _ => rfl) s m

@[simp] theorem State.regs_sendAll : (s.sendAll m).regs = s.regs := State.sendAll_ctl State.regs (fun _ _ => rfl) s m
@[simp] theorem State.bare_sendAll : (s.sendAll m).bare = s.bare := State.sendAll_ctl State.bare (fun _ _ => rfl) s m
@[simp] theorem State.breath_sendAll : (s.sendAll m).breath = s.breath := State.sendAll_ctl State.breath (fun _ _ => rfl) s m

/-- A message sent to all comes back to its sender. -/
theorem State.mem_loop_sendAll : m ∈ (s.sendAll m).ctl.loop := List.mem_append_right _ List.mem_cons_self

end

/-! ### Missed starts -/

/-- Counters of islands' registers raised: the other registers stay. -/
theorem State.foldl_bump_apart (l : List Nat) (a : Nat → Nat) (f : Fld) (hf : f.lo < 64) {b : Nat} {g : Fld} (hg : g.lo < 64)
    (hb : ∀ n, b ≠ a n) (s : State) : (l.foldl (fun s n => s.bump (a n) f 1) s).getF b g = s.getF b g :=
  State.foldl_frame (fun s => s.getF b g) l (fun s n => s.getF_setF_apart f g _ (hb n) hf hg) s

theorem lt_islBase_ne {b n x : Nat} (h : b < islBase 0) : b ≠ islBase n + x := by
  simp only [islBase] at h ⊢
  omega

/-- A missed start is counted and kept (R206). -/
theorem State.missStart_effects {s : State} (h : s.replays = false) (k : Nat) :
    (s.missStart k).brt = { s.brt with missed := true } ∧
      (s.missStart k).getF aBocStartLog F.bocStartLog_missed =
        raised F.bocStartLog_missed (s.getF aBocStartLog F.bocStartLog_missed) 1 ∧
      (∀ b (g : Fld), b < islBase 0 → g.lo < 64 → b ≠ aBocStartLog → (s.missStart k).getF b g = s.getF b g) ∧
      (s.missStart k).bare = s.bare := by
  let s1 := s.bump aBocStartLog F.bocStartLog_missed 1
  let late := if s1.brt.running && decide (k = s1.brt.next) then s1.allIslands.filter s1.incomplete else []
  let s2 := late.foldl (fun s n => s.bump (aIslOverrun n) F.islOverrun_missed 1) s1
  have heq : s.missStart k = State.faultReport { s2 with brt := { s2.brt with missed := true } } 2 [] := by
    rw [State.missStart, h]
    rfl
  have hbrt : s2.breath = s.breath := State.breath_foldl late (fun s n => State.breath_bump s _ _ _) s1
  have hbare : s2.bare = s.bare := State.bare_foldl late (fun s n => State.bare_bump s _ _ _) s1
  have hfold : ∀ b (g : Fld), b < islBase 0 → g.lo < 64 → s2.getF b g = s1.getF b g := fun b g hb hg =>
    State.foldl_bump_apart late aIslOverrun F.islOverrun_missed (by decide) hg (fun n => lt_islBase_ne hb) s1
  rw [heq]
  refine ⟨?_, ?_, fun b g hb hg hne => ?_, ?_⟩
  · exact (State.breath_faultReport _ _ _).trans (congrArg (fun x : BreathSt => { x with missed := true }) hbrt)
  · rw [State.getF_faultReport]
    exact (hfold _ _ (by decide) (by decide)).trans (s.getF_bump_same ..)
  · rw [State.getF_faultReport]
    exact (hfold _ _ hb hg).trans (s.getF_setF_apart _ _ _ hne (by decide) hg)
  · exact (State.bare_faultReport _ _ _).trans hbare

/-! ### The overrun check -/

/-- An island that is behind at the check (R209). -/
theorem State.behind_eq (s : State) : (s.allIslands.filter fun n => !s.flag (aIslBreath n) F.islBreath_complete &&
      decide ((s.island n).cyc - (s.island n).lag < s.brt.check)) =
    s.allIslands.filter fun n => s.incomplete n && decide ((s.island n).position < s.brt.check) := (rfl)

/-- The check taken, each island that is behind counted (R209). -/
def State.overrunCounted (s : State) (late : List Nat) : State :=
  let s1 := late.foldl (fun s n => s.bump (aIslOverrun n) F.islOverrun_behind 1) s
  { s1 with brt := { s1.brt with checked := true } }

section
variable {s : State} (hjob : s.brt.job = true) (hrunning : s.brt.running = true) (htaken : s.brt.taken = false)
  (hlive : s.brt.aborted = false) (hown : s.replays = false)
include hjob hrunning htaken hlive

theorem execMissedStart_eq (hnew : s.brt.missed = false) : execMissedStart s = .next (s.missStart s.brt.next) := by
  simp only [execMissedStart, hjob, hrunning, htaken, hnew, hlive, Bool.not_false, Bool.and_self, if_true]

include hown
variable (hopen : s.brt.checked = false)
include hopen

theorem execOverrunCheck_clear
    (hnone : (s.allIslands.filter fun n => s.incomplete n && decide ((s.island n).position < s.brt.check)) = [])
    (htrack : s.getF aGmuTrack F.gmuTrack_open = 0) : execOverrunCheck s = .next { s with brt := { s.brt with checked := true } } := by
  simp only [execOverrunCheck, hjob, hrunning, htaken, hopen, hlive, Bool.not_false, Bool.and_self, if_true, hnone, List.foldl_nil,
    htrack, List.isEmpty_nil, ne_eq, not_true_eq_false, decide_false, true_and, true_or]

theorem execOverrunCheck_behind {late : List Nat}
    (hlate : (s.allIslands.filter fun n => s.incomplete n && decide ((s.island n).position < s.brt.check)) = late) (hsome : late ≠ []) :
    ∃ dest m, execOverrunCheck s =
      .next (((s.overrunCounted late).bump aBocStartLog F.bocStartLog_requests 1).sendTo dest m) := by
  have hempty : late.isEmpty = false := by
    cases late with
    | nil => exact absurd rfl hsome
    | cons => rfl
  refine ⟨(s.overrunCounted late).lead, ?_⟩
  simp only [execOverrunCheck, hjob, hrunning, htaken, hopen, hlive, Bool.not_false, Bool.and_self, if_true, hlate, hempty, hown,
    Bool.false_eq_true, false_and, or_self, if_false]
  exact ⟨_, rfl⟩

end

theorem State.overrunCounted_effects (s : State) (late : List Nat) :
    (s.overrunCounted late).brt = { s.brt with checked := true } ∧ (s.overrunCounted late).bare = s.bare ∧
      (s.overrunCounted late).getF aBocStartLog F.bocStartLog_requests = s.getF aBocStartLog F.bocStartLog_requests := by
  refine ⟨?_, ?_, ?_⟩
  · exact congrArg (fun x : BreathSt => { x with checked := true }) (State.breath_foldl late (fun s n => State.breath_bump s _ _ _) s)
  · exact State.bare_foldl late (fun s n => State.bare_bump s _ _ _) s
  · exact State.foldl_bump_apart late aIslOverrun F.islOverrun_behind (by decide) (by decide) (fun n => lt_islBase_ne (by decide)) s

/-! ### Slips -/

theorem execSlipRequest_taken {s : State} {msg : Msg} (hlead : (s.takeMsg msg).isLead = true) (hjob : (s.takeMsg msg).brt.job = true)
    (hnext : msgBits msg 32 64 = (s.takeMsg msg).brt.next)
    (hearly : beatReached (s.takeMsg msg).beat ((s.takeMsg msg).tNext - nsBeat ((s.takeMsg msg).noticeW / 2)) = false) :
    execSlipRequest msg s = .next { s.takeMsg msg with brt := { (s.takeMsg msg).brt with
      asked := some (((s.takeMsg msg).brt.asked.getD 0) ||| msgBits msg 24 8) } } := by
  have hopen : ¬(msgBits msg 32 64 ≠ (s.takeMsg msg).brt.next ∨ ¬(s.takeMsg msg).brt.job = true ∨
      beatReached (s.takeMsg msg).beat ((s.takeMsg msg).tNext - nsBeat ((s.takeMsg msg).noticeW / 2)) = true) := by
    rw [hearly]
    rintro (h | h | h)
    · exact h hnext
    · exact h hjob
    · exact absurd h (by decide)
  simp only [execSlipRequest]
  rw [if_neg (by rw [hlead]; decide), if_neg (by simpa using hopen)]
  cases (s.takeMsg msg).brt.asked <;> rfl

theorem execSlipOrderSend_asked {s : State} (hlead : s.isLead = true) (hjob : s.brt.job = true) (hrunning : s.brt.running = true)
    (hlive : s.brt.aborted = false) (hsettled : s.commitPending = false) {c : Nat} (hc : s.brt.asked = some c) :
    execSlipOrderSend s =
      .next (s.sendAll (s.msgOf 0x02 [(24, c), (32, s.brt.next), (96, s.getF aBocSlipCfg F.bocSlipCfg_quantum)])) := by
  simp only [execSlipOrderSend, hlead, hjob, hrunning, hlive, hsettled, hc, Bool.not_false, Bool.and_self, if_true, Option.isNone_some,
    Bool.false_eq_true, false_and, if_false, Nat.add_zero]

section
variable {s : State} {msg : Msg} (hjob : (s.takeMsg msg).brt.job = true) (hown : (s.takeMsg msg).replays = false)
include hjob hown

theorem execSlipOrder_late (hlate : msgBits msg 32 64 < (s.takeMsg msg).brt.next ∨
      msgBits msg 32 64 = (s.takeMsg msg).brt.next ∧ beatReached (s.takeMsg msg).beat (s.takeMsg msg).tNext = true) :
    execSlipOrder msg s = .next ((s.takeMsg msg).missStart (msgBits msg 32 64)) := by
  simp only [execSlipOrder, hjob, hown, Bool.not_true, Bool.false_eq_true, or_self, if_false]
  exact if_pos hlate

theorem execSlipOrder_early (hearly : (s.takeMsg msg).brt.next < msgBits msg 32 64 ∨
      msgBits msg 32 64 = (s.takeMsg msg).brt.next ∧ beatReached (s.takeMsg msg).beat (s.takeMsg msg).tNext = false) :
    execSlipOrder msg s =
      .next (State.slip { s.takeMsg msg with brt := { (s.takeMsg msg).brt with asked := none } } (msgBits msg 96 32)) := by
  have hopen : ¬(msgBits msg 32 64 < (s.takeMsg msg).brt.next ∨
      msgBits msg 32 64 = (s.takeMsg msg).brt.next ∧ beatReached (s.takeMsg msg).beat (s.takeMsg msg).tNext = true) := by
    rcases hearly with h | ⟨h, hb⟩
    · omega
    · rw [hb]
      rintro (h' | ⟨-, h'⟩)
      · omega
      · exact absurd h' (by decide)
  simp only [execSlipOrder, hjob, hown, Bool.not_true, Bool.false_eq_true, or_self, if_false]
  exact if_neg hopen

end

/-- The trigger armed at a beat, and no other register than the trigger's (R378). -/
theorem State.armTrigger_effects (s : State) (beat : Nat) :
    (s.armTrigger beat).getF aTimTrig F.timTrig_beat = beat % 2 ^ F.timTrig_beat.width ∧
      (∀ b (g : Fld), b ≠ aTimTrig → b ≠ aTimTrigState → g.lo < 64 → (s.armTrigger beat).getF b g = s.getF b g) ∧
      (s.armTrigger beat).brt = s.brt ∧ s.sameIslands (s.armTrigger beat) ∧ s.sameMemory (s.armTrigger beat) := by
  let s1 := s.setF aTimTrig F.timTrig_beat beat
  let s2 := s1.setF aTimTrigState F.timTrigState_armed 1
  have hne : aTimTrig ≠ aTimTrigState := by decide
  have htrig : s2.getF aTimTrig F.timTrig_beat = beat % 2 ^ F.timTrig_beat.width :=
    (s1.getF_setF_apart F.timTrigState_armed F.timTrig_beat 1 hne (by decide) (by decide)).trans (s.getF_setF_same ..)
  have hother : ∀ b (g : Fld), b ≠ aTimTrig → b ≠ aTimTrigState → g.lo < 64 → s2.getF b g = s.getF b g := fun b g hb hb' hg =>
    (s1.getF_setF_apart F.timTrigState_armed g 1 hb' (by decide) hg).trans (s.getF_setF_apart F.timTrig_beat g beat hb (by decide) hg)
  simp only [State.armTrigger]
  split
  · refine ⟨?_, fun b g hb hb' hg => ?_, rfl, ⟨rfl, rfl, rfl⟩, rfl, rfl, rfl⟩
    · exact (State.getF_setF_apart _ F.timTrigState_late F.timTrig_beat 1 hne (by decide) (by decide)).trans htrig
    · exact (State.getF_setF_apart _ F.timTrigState_late g 1 hb' (by decide) hg).trans (hother b g hb hb' hg)
  · exact ⟨htrig, hother, rfl, ⟨rfl, rfl, rfl⟩, rfl, rfl, rfl⟩

/-- A slip (R211): the next start moves, the trigger with it if it is armed, and the slip is counted. -/
theorem State.slip_effects (s : State) (ns : Nat) :
    (s.slip ns).getF aBocTNext F.bocTNext_beat = (s.tNext + nsBeat ns).toNat ∧
      (s.slip ns).getF aBocSlip F.bocSlip_count = raised F.bocSlip_count (s.getF aBocSlip F.bocSlip_count) 1 ∧
      (s.slip ns).getF aBocSlip F.bocSlip_total = raised F.bocSlip_total (s.getF aBocSlip F.bocSlip_total) ns ∧
      (s.slip ns).brt = { s.brt with checked := false } ∧
      (s.getF aTimTrigState F.timTrigState_armed = 1 → (s.slip ns).getF aTimTrig F.timTrig_beat = (s.tNext + nsBeat ns).toNat) ∧
      s.sameIslands (s.slip ns) ∧ s.sameMemory (s.slip ns) := by
  have hlt : (s.tNext + nsBeat ns).toNat < 2 ^ 64 := BitVec.isLt _
  let s1 := s.setF aBocTNext F.bocTNext_beat (s.tNext + nsBeat ns).toNat
  let s2 := if s1.flag aTimTrigState F.timTrigState_armed then s1.armTrigger (s.tNext + nsBeat ns).toNat else s1
  obtain ⟨htrig, hother, hbrt, hisl, hmem⟩ := s1.armTrigger_effects (s.tNext + nsBeat ns).toNat
  have hother' : ∀ b (g : Fld), b ≠ aTimTrig → b ≠ aTimTrigState → g.lo < 64 → s2.getF b g = s1.getF b g := by
    intro b g hb hb' hg
    simp only [s2]
    split
    · exact hother b g hb hb' hg
    · rfl
  have hbrt' : s2.brt = s.brt := by
    simp only [s2]
    split
    · exact hbrt
    · rfl
  have hisl' : s.sameIslands s2 := by
    simp only [s2]
    split
    · exact hisl
    · exact ⟨rfl, rfl, rfl⟩
  have hmem' : s.sameMemory s2 := by
    simp only [s2]
    split
    · exact hmem
    · exact ⟨rfl, rfl, rfl⟩
  have hslip : ∀ g : Fld, g.lo < 64 → s2.getF aBocSlip g = s.getF aBocSlip g := fun g hg =>
    (hother' _ g (by decide) (by decide) hg).trans (s.getF_setF_apart _ _ _ (by decide) (by decide) hg)
  refine ⟨?_, ?_, ?_, congrArg (fun x : BreathSt => { x with checked := false }) hbrt', fun harmed => ?_, hisl', hmem'⟩
  · calc (s.slip ns).getF aBocTNext F.bocTNext_beat
      _ = s2.getF aBocTNext F.bocTNext_beat :=
        (State.getF_setF_apart _ _ _ _ (by decide) (by decide) (by decide)).trans
          (State.getF_setF_apart s2 _ _ _ (by decide) (by decide) (by decide))
      _ = s1.getF aBocTNext F.bocTNext_beat := hother' _ _ (by decide) (by decide) (by decide)
      _ = (s.tNext + nsBeat ns).toNat := (s.getF_setF_same ..).trans (Nat.mod_eq_of_lt hlt)
  · calc (s.slip ns).getF aBocSlip F.bocSlip_count
      _ = (s2.bump aBocSlip F.bocSlip_count 1).getF aBocSlip F.bocSlip_count := State.getF_setF_beside _ _ _ _ _ (by decide)
      _ = raised F.bocSlip_count (s2.getF aBocSlip F.bocSlip_count) 1 := s2.getF_bump_same ..
      _ = raised F.bocSlip_count (s.getF aBocSlip F.bocSlip_count) 1 := by rw [hslip _ (by decide)]
  · calc (s.slip ns).getF aBocSlip F.bocSlip_total
      _ = raised F.bocSlip_total ((s2.bump aBocSlip F.bocSlip_count 1).getF aBocSlip F.bocSlip_total) ns := State.getF_bump_same ..
      _ = raised F.bocSlip_total (s.getF aBocSlip F.bocSlip_total) ns := by
        rw [State.getF_bump_other _ _ _ _ (fkey_ne_of_lo _ (by decide)), hslip _ (by decide)]
  · have harmed' : s1.flag aTimTrigState F.timTrigState_armed = true := by
      have h : s1.getF aTimTrigState F.timTrigState_armed = 1 :=
        (s.getF_setF_apart _ _ _ (by decide) (by decide) (by decide)).trans harmed
      simp only [State.flag, h]
      decide
    calc (s.slip ns).getF aTimTrig F.timTrig_beat
      _ = s2.getF aTimTrig F.timTrig_beat :=
        (State.getF_setF_apart _ _ _ _ (by decide) (by decide) (by decide)).trans
          (State.getF_setF_apart s2 _ _ _ (by decide) (by decide) (by decide))
      _ = (s1.armTrigger (s.tNext + nsBeat ns).toNat).getF aTimTrig F.timTrig_beat := by simp only [s2, if_pos harmed']
      _ = (s.tNext + nsBeat ns).toNat := htrig.trans (Nat.mod_eq_of_lt hlt)

/-! ### The statement -/

/-- Settles O22: a start missed, the check, the lead's request and order, and an order in time or late. -/
theorem startsAndSlips : Obligations.StartsAndSlips := by
  unfold Obligations.StartsAndSlips
  intro s msg s0
  refine ⟨fun hjob hrunning htaken hlive hown => ⟨fun hnew => ?_, fun hopen => ?_⟩,
    fun hlead hjob hnext hearly => execSlipRequest_taken hlead hjob hnext hearly,
    fun hlead hjob hrunning hlive hsettled c hc => ?_, fun hjob hown => ?_⟩
  · obtain ⟨hbrt, hcount, -, hbare⟩ := State.missStart_effects hown s.brt.next
    exact ⟨_, execMissedStart_eq hjob hrunning htaken hlive hnew, congrArg BreathSt.missed hbrt, hcount,
      State.sameIslands_of_bare hbare, State.sameMemory_of_bare hbare⟩
  · intro behind
    refine ⟨fun hnone htrack => execOverrunCheck_clear hjob hrunning htaken hlive hown hopen hnone htrack, fun hsome => ?_⟩
    obtain ⟨dest, m, hrun⟩ := execOverrunCheck_behind hjob hrunning htaken hlive hown hopen (late := behind) rfl hsome
    obtain ⟨hbrt, hbare, hcount⟩ := s.overrunCounted_effects behind
    have hbare' := (State.bare_sendTo ((s.overrunCounted behind).bump aBocStartLog F.bocStartLog_requests 1) dest m).trans
      ((State.bare_bump ..).trans hbare)
    refine ⟨_, hrun, ?_, ?_, State.sameIslands_of_bare hbare', State.sameMemory_of_bare hbare'⟩
    · have h := State.breath_sendTo ((s.overrunCounted behind).bump aBocStartLog F.bocStartLog_requests 1) dest m
      exact congrArg BreathSt.checked (h.trans hbrt)
    · rw [State.getF_sendTo, State.getF_bump_same, hcount]
  · have hbare := State.bare_sendAll s (s.msgOf 0x02 [(24, c), (32, s.brt.next), (96, s.getF aBocSlipCfg F.bocSlipCfg_quantum)])
    exact ⟨_, execSlipOrderSend_asked hlead hjob hrunning hlive hsettled hc, State.mem_loop_sendAll s _, State.regs_sendAll s _,
      State.breath_sendAll s _, State.sameIslands_of_bare hbare, State.sameMemory_of_bare hbare⟩
  · intro k later
    refine ⟨fun hearly => ?_, fun hlate => ?_⟩
    · obtain ⟨hnext, hcount, htotal, hbrt, htrig, hisl, hmem⟩ :=
        State.slip_effects { s0 with brt := { s0.brt with asked := none } } (msgBits msg 96 32)
      have hunits : s0.units = s.units := State.units_takeMsg s msg
      have hkept : s0.kept = s.kept := State.kept_takeMsg s msg
      refine ⟨_, execSlipOrder_early hjob hown hearly, hnext, hcount, htotal, congrArg BreathSt.checked hbrt, congrArg BreathSt.asked hbrt,
        htrig, ?_, ?_⟩
      · exact ⟨hisl.1.trans (congrArg Units.cores hunits), hisl.2.1.trans (congrArg Units.clusters hunits),
          hisl.2.2.trans (congrArg Units.islands hunits)⟩
      · exact ⟨hmem.1.trans (congrArg Backing.mem hkept), hmem.2.1.trans (congrArg Backing.tags hkept),
          hmem.2.2.trans (congrArg Backing.bad hkept)⟩
    · obtain ⟨hbrt, hcount, hother, hbare⟩ := State.missStart_effects hown k
      have hunits : (s0.missStart k).units = s.units := (State.of_bare State.units (fun _ => rfl) hbare).trans (State.units_takeMsg s msg)
      have hkept : (s0.missStart k).kept = s.kept := (State.of_bare State.kept (fun _ => rfl) hbare).trans (State.kept_takeMsg s msg)
      exact ⟨_, execSlipOrder_late hjob hown hlate, congrArg BreathSt.missed hbrt, hcount,
        hother _ _ (by decide) (by decide) (by decide), State.sameIslands_of_units hunits, State.sameMemory_of_kept hkept⟩

end Sys2Proof.Machine
end

section
/-! Droop stretches, setpoint requests, ramps and stops (R215, R216, R230, R231). -/

namespace Sys2Proof.Machine

/-- What one step of a fold brings about, and every step keeps, holds after the fold. -/
theorem foldl_establishes {σ α : Type} {P : σ → Prop} {f : σ → α → σ} {x : α} (hmake : ∀ s, P (f s x)) (hkeep : ∀ s y, P s → P (f s y))
    {l : List α} (hx : x ∈ l) (s : σ) : P (l.foldl f s) := by
  have hrest : ∀ (l : List α) (s : σ), P s → P (l.foldl f s) := by
    intro l
    induction l with
    | nil => exact fun _ h => h
    | cons y l ih => exact fun s h => ih _ (hkeep s y h)
  induction l generalizing s with
  | nil => exact absurd hx List.not_mem_nil
  | cons y l ih =>
    rcases List.mem_cons.mp hx with rfl | hx
    · exact hrest l _ (hmake s)
    · exact ih hx _

/-! ### A droop stretch -/

/-- A stretch that throttling does not cover (R216): counted, and noted in the island's window. -/
theorem droopStretch_effects {s : State} {n k : Nat} (hn : n < s.numIslands) (h1 : 1 ≤ k) (h4 : k ≤ 4)
    (hthrottle : s.getF (aIslClock n) F.islClock_throttle < k) :
    CompletesWith (execDroopStretch n k s) fun t =>
      t.getF (aIslStretch n) F.islStretch_droop = raised F.islStretch_droop (s.getF (aIslStretch n) F.islStretch_droop) 1 ∧
      (s.island n).ticks ∈ (t.island n).droops ∧ t.cores = s.cores ∧ s.sameMemory t := by
  let l := ((s.island n).droops.filter fun c => decide ((s.island n).ticks < c + 1024)) ++ [(s.island n).ticks]
  let a := aIslStretch n
  let s1 := (s.setIsland n { s.island n with droops := l }).bump a F.islStretch_droop 1
  let s2 := if s1.getF a F.islStretch_windowMax < l.length then s1.setF a F.islStretch_windowMax (min l.length 15) else s1
  let s3 := if 8 < l.length then s2.bump a F.islStretch_excess 1 else s2
  have hrun : execDroopStretch n k s = .next s3 := by
    have hcovered : ¬(k = 0 ∨ 4 < k ∨ k ≤ s.getF (aIslClock n) F.islClock_throttle) := by omega
    simp only [execDroopStretch, if_pos hn, if_neg hcovered]
    rfl
  have hs2 : s2.bare = s1.bare ∧ s2.getF a F.islStretch_droop = s1.getF a F.islStretch_droop := by
    simp only [s2]
    split
    · exact ⟨rfl, s1.getF_setF_beside a _ _ _ (by decide)⟩
    · exact ⟨rfl, rfl⟩
  have hs3 : s3.bare = s1.bare ∧ s3.getF a F.islStretch_droop = s1.getF a F.islStretch_droop := by
    simp only [s3]
    split
    · exact ⟨hs2.1, (s2.getF_setF_beside a _ _ _ (by decide)).trans hs2.2⟩
    · exact hs2
  have hisl : s3.island n = { s.island n with droops := l } :=
    (State.of_bare (fun s => s.island n) (fun _ => rfl) hs3.1).trans (State.island_setIsland_same s n _)
  have hmem : s.sameMemory s3 := State.sameMemory_of_bare (s := s1) hs3.1
  refine ⟨s3, hrun, hs3.2.trans (State.getF_bump_same ..), ?_, State.of_bare (s := s1) State.cores (fun _ => rfl) hs3.1, hmem⟩
  rw [hisl]
  exact List.mem_append_right _ List.mem_cons_self

/-! ### What names a setpoint -/

/-- The breath table's setpoint depends on memory, the breath and two registers. -/
theorem State.namedSetpoint_congr {s t : State} (hmem : t.mem = s.mem) (hbrt : t.brt = s.brt)
    (hstate : ∀ g : Fld, g.lo < 64 → t.getF aBocState g = s.getF aBocState g)
    (htable : t.getF aBocBtable F.bocBtable_base = s.getF aBocBtable F.bocBtable_base) : t.namedSetpoint = s.namedSetpoint := by
  have hread : ∀ a n, t.readNat a n = s.readNat a n := by
    intro a n
    have hbyte : t.readByte = s.readByte := funext fun b => by simp only [State.readByte, hmem]
    simp only [State.readNat, State.readBytes, hbyte]
  have hentry : ∀ i, t.breathEntry i = s.breathEntry i := fun i => by simp only [State.breathEntry, htable, hread]
  have himage : t.hasImage = s.hasImage := by simp only [State.hasImage, State.flag, hstate _ (by decide : F.bocState_image.lo < 64)]
  have haccepting : t.accepting = s.accepting := by
    simp only [State.accepting, himage, hbrt, State.flag, hstate _ (by decide : F.bocState_ready.lo < 64)]
  unfold State.namedSetpoint State.curEntry
  rw [himage, haccepting, hbrt, hentry, hentry]

theorem State.namedSetpoint_setF (s : State) (f : Fld) (v : Nat) (hf : f.lo < 64) :
    (s.setF aBocSetpoint f v).namedSetpoint = s.namedSetpoint :=
  State.namedSetpoint_congr rfl rfl (fun g hg => s.getF_setF_apart f g v (by decide) hf hg)
    (s.getF_setF_apart f _ v (by decide) hf (by decide))

/-! ### A setpoint requested -/

/-- A request shown (R230): the code, whether it is pending, and the other fields as they were. -/
theorem State.requestSetpoint_effects (s : State) (code : Nat) :
    (s.requestSetpoint code).getF aBocSetpoint F.bocSetpoint_request = code % 2 ^ F.bocSetpoint_request.width ∧
      (s.requestSetpoint code).getF aBocSetpoint F.bocSetpoint_pending =
        (if s.namedSettled && decide (code % 2 ^ F.bocSetpoint_request.width = 0) then 0 else 1) ∧
      (s.requestSetpoint code).getF aBocSetpoint F.bocSetpoint_current = s.getF aBocSetpoint F.bocSetpoint_current ∧
      (s.requestSetpoint code).bare = s.bare := by
  let s1 := s.setF aBocSetpoint F.bocSetpoint_request code
  have hrequest : s1.getF aBocSetpoint F.bocSetpoint_request = code % 2 ^ F.bocSetpoint_request.width := s.getF_setF_same ..
  have hcurrent : s1.getF aBocSetpoint F.bocSetpoint_current = s.getF aBocSetpoint F.bocSetpoint_current :=
    s.getF_setF_beside _ _ _ _ (by decide)
  have hnamed : s1.namedSettled = s.namedSettled := by
    simp only [State.namedSettled, s1, s.namedSetpoint_setF F.bocSetpoint_request code (by decide)]
    rw [hcurrent]
  refine ⟨(s1.getF_setF_beside _ _ _ _ (by decide)).trans hrequest, ?_, (s1.getF_setF_beside _ _ _ _ (by decide)).trans hcurrent, rfl⟩
  refine (s1.getF_setF_same _ _ _).trans ?_
  rw [hnamed, hrequest]
  cases s.namedSettled && decide (code % 2 ^ F.bocSetpoint_request.width = 0) <;> rfl

theorem execSetpointRequestWrite_zero {s : State} {v : Word} (h : bitsAt v.toNat 5 5 = 0) :
    execSetpointRequestWrite v s = .next { s.requestSetpoint 0 with bus := ⟨false, 0⟩ } := by
  simp only [execSetpointRequestWrite, h, if_true]

theorem execSetpointRequestWrite_refused {s : State} {v : Word} (h : 0 < bitsAt v.toNat 5 5)
    (hout : bitsAt v.toNat 5 5 < (if s.getF aBocSetpoint F.bocSetpoint_imageMin = 0 then 12 else
        s.getF aBocSetpoint F.bocSetpoint_imageMin) ∨
      s.getF aBocSetpoint F.bocSetpoint_gradeMax < bitsAt v.toNat 5 5) :
    execSetpointRequestWrite v s = .next { s with bus := ⟨true, 0⟩ } := by
  simp only [execSetpointRequestWrite, if_neg (Nat.pos_iff_ne_zero.mp h)]
  exact if_pos hout

theorem execSetpointRequestWrite_taken {s : State} {v : Word} (h : 0 < bitsAt v.toNat 5 5)
    (hmin : (if s.getF aBocSetpoint F.bocSetpoint_imageMin = 0 then 12 else s.getF aBocSetpoint F.bocSetpoint_imageMin) ≤
      bitsAt v.toNat 5 5)
    (hmax : bitsAt v.toNat 5 5 ≤ s.getF aBocSetpoint F.bocSetpoint_gradeMax) :
    execSetpointRequestWrite v s =
      .next { (s.requestSetpoint (bitsAt v.toNat 5 5)).setCeiling (bitsAt v.toNat 5 5) with bus := ⟨false, 0⟩ } := by
  simp only [execSetpointRequestWrite, if_neg (Nat.pos_iff_ne_zero.mp h)]
  exact if_neg (not_or.mpr ⟨Nat.not_lt.mpr hmin, Nat.not_lt.mpr hmax⟩)

/-- A ceiling on the supply changes one register of the power block and the pin. -/
theorem State.getF_setCeiling (s : State) (code : Nat) {b : Nat} {g : Fld} (hb : b ≠ aBocPower) (hg : g.lo < 64) :
    (s.setCeiling code).getF b g = s.getF b g := s.getF_setF_apart F.bocPower_lowered g 0 hb (by decide) hg

/-! ### A setpoint stop -/

/-- The clocks of every island shown at a setpoint, and locked (R231). -/
def State.retune (s : State) (c : Nat) : State :=
  s.allIslands.foldl (fun s n => s.setFs (aIslClock n) [(F.islClock_setpoint, c), (F.islClock_locked, 1)]) s

theorem clockFields_lo (c : Nat) : ∀ p ∈ [(F.islClock_setpoint, c), (F.islClock_locked, 1)], p.1.lo < 64 := by
  simp only [List.forall_mem_cons]
  exact ⟨by decide, by decide, fun _ h => absurd h List.not_mem_nil⟩

theorem State.bare_retune (s : State) (c : Nat) : (s.retune c).bare = s.bare :=
  State.bare_foldl _ (fun s _ => State.bare_setFs s _ _) s

theorem State.breath_retune (s : State) (c : Nat) : (s.retune c).breath = s.breath :=
  State.breath_foldl _ (fun s _ => State.breath_setFs s _ _) s

theorem State.getF_retune_apart (s : State) (c : Nat) {b : Nat} {g : Fld} (hb : b < islBase 0) (hg : g.lo < 64) :
    (s.retune c).getF b g = s.getF b g :=
  State.foldl_frame (fun s => s.getF b g) _
    (fun s _ => State.getF_setFs_apart (lt_islBase_ne hb) (clockFields_lo c) hg s) s

theorem State.getF_retune (s : State) {c n : Nat} (hc : c < 32) (hn : n < s.numIslands) :
    (s.retune c).getF (aIslClock n) F.islClock_setpoint = c ∧ (s.retune c).getF (aIslClock n) F.islClock_locked = 1 := by
  have hlist : ([(F.islClock_setpoint, c), (F.islClock_locked, 1)].map fun p => p.1.lo).Nodup := by
    simp only [List.map_cons, List.map_nil]
    decide
  have hmake : ∀ s : State,
      (s.setFs (aIslClock n) [(F.islClock_setpoint, c), (F.islClock_locked, 1)]).getF (aIslClock n) F.islClock_setpoint = c ∧
        (s.setFs (aIslClock n) [(F.islClock_setpoint, c), (F.islClock_locked, 1)]).getF (aIslClock n) F.islClock_locked = 1 :=
    fun s => ⟨(State.getF_setFs_mem hlist List.mem_cons_self s).trans (Nat.mod_eq_of_lt hc),
      State.getF_setFs_mem hlist (List.mem_cons_of_mem _ List.mem_cons_self) s⟩
  refine foldl_establishes (x := n) (P := fun s : State => s.getF (aIslClock n) F.islClock_setpoint = c ∧
    s.getF (aIslClock n) F.islClock_locked = 1) hmake (fun s m h => ?_) (List.mem_range.mpr hn) s
  by_cases hm : m = n
  · subst hm
    exact hmake s
  · have hne : aIslClock n ≠ aIslClock m := by
      simp only [aIslClock, islBase]
      omega
    exact ⟨(State.getF_setFs_apart hne (clockFields_lo c) (by decide) s).trans h.1,
      (State.getF_setFs_apart hne (clockFields_lo c) (by decide) s).trans h.2⟩

theorem State.numIslands_congr {s t : State} (hboc : t.boc = s.boc)
    (hcapacity : t.getF aBocCapacity F.bocCapacity_islandsPerField = s.getF aBocCapacity F.bocCapacity_islandsPerField) :
    t.numIslands = s.numIslands := by
  simp only [State.numIslands, State.perField, hboc, hcapacity]

/-- A stop's new setpoint in the registers, the supply and the request (R231). -/
def State.newSetpoint (s : State) (c : Nat) : State :=
  let s1 := { s.setF aBocSetpoint F.bocSetpoint_current c with
    pins := { s.pins with supply := if c < s.getF aBocSetpoint F.bocSetpoint_current then c else max s.pins.supply c } }
  if s.namedSetpoint = 0 then s1.setF aBocSetpoint F.bocSetpoint_request 0 else s1.setCeiling c

theorem execSetpointStop_taken {s : State} {c : Nat} (duration : Nat) (htarget : s.stopTarget = some c) (hlive : s.brt.aborted = false)
    (hsupplied : s.supplied c = true) (hdone : s.brt.running = true → s.breathDone = true)
    (hloaded : s.accepting = true → s.loadsFinished = true) :
    execSetpointStop duration s =
      .next (((((s.newSetpoint c).retune c).bump aBocFreqLog F.bocFreqLog_changes 1).setF aBocFreqLog F.bocFreqLog_lastStop
        duration).showPending) := by
  have hbreath : (!s.brt.running || s.breathDone) = true := by
    cases h : s.brt.running with
    | false => rfl
    | true => rw [hdone h]; rfl
  have hload : (!s.accepting || s.loadsFinished) = true := by
    cases h : s.accepting with
    | false => rfl
    | true => rw [hloaded h]; rfl
  have hcan : s.canStop c = true := by simp only [State.canStop, hlive, hsupplied, hbreath, hload, Bool.not_false, Bool.and_self]
  simp only [execSetpointStop, htarget, hcan, Bool.not_true, Bool.false_eq_true, if_false, decide_eq_true_eq]
  rfl

theorem State.newSetpoint_effects (s : State) {c : Nat} (hc : c < 32) :
    (s.newSetpoint c).getF aBocSetpoint F.bocSetpoint_current = c ∧
      (c < s.getF aBocSetpoint F.bocSetpoint_current → (s.newSetpoint c).pins.supply = c) ∧
      (s.namedSetpoint = 0 → (s.newSetpoint c).getF aBocSetpoint F.bocSetpoint_request = 0) ∧
      (s.namedSetpoint ≠ 0 → (s.newSetpoint c).pins.ceiling = c) ∧
      (∀ b (g : Fld), b ≠ aBocSetpoint → b ≠ aBocPower → g.lo < 64 → (s.newSetpoint c).getF b g = s.getF b g) ∧
      (s.newSetpoint c).boc = s.boc ∧ s.sameIslands (s.newSetpoint c) ∧ s.sameMemory (s.newSetpoint c) := by
  have hcur : (s.setF aBocSetpoint F.bocSetpoint_current c).getF aBocSetpoint F.bocSetpoint_current = c :=
    (s.getF_setF_same ..).trans (Nat.mod_eq_of_lt hc)
  simp only [State.newSetpoint]
  split
  case isTrue h =>
    refine ⟨?_, fun hlt => if_pos hlt, fun _ => State.getF_setF_same .., fun h' => absurd h h', fun b g hb hb' hg => ?_, rfl,
      ⟨rfl, rfl, rfl⟩, rfl, rfl, rfl⟩
    · exact (State.getF_setF_beside _ aBocSetpoint F.bocSetpoint_request F.bocSetpoint_current 0 (by decide)).trans hcur
    · exact (State.getF_setF_apart _ F.bocSetpoint_request g 0 hb (by decide) hg).trans
        (s.getF_setF_apart F.bocSetpoint_current g c hb (by decide) hg)
  case isFalse h =>
    refine ⟨?_, fun hlt => if_pos hlt, fun h' => absurd h' h, fun _ => rfl, fun b g hb hb' hg => ?_, rfl, ⟨rfl, rfl, rfl⟩, rfl, rfl, rfl⟩
    · exact (State.getF_setCeiling _ c (by decide) (by decide)).trans hcur
    · exact (State.getF_setCeiling _ c hb' hg).trans (s.getF_setF_apart F.bocSetpoint_current g c hb (by decide) hg)

/-- The end of a stop: its count, its duration, the pending flag; the setpoint's other fields stay. -/
theorem State.stopShown_effects (s : State) (duration : Nat) :
    let t := ((s.bump aBocFreqLog F.bocFreqLog_changes 1).setF aBocFreqLog F.bocFreqLog_lastStop duration).showPending
    t.getF aBocFreqLog F.bocFreqLog_changes = raised F.bocFreqLog_changes (s.getF aBocFreqLog F.bocFreqLog_changes) 1 ∧
      t.getF aBocFreqLog F.bocFreqLog_lastStop = duration % 2 ^ F.bocFreqLog_lastStop.width ∧
      (∀ b (g : Fld), b ≠ aBocFreqLog → g.lo < 64 → (b = aBocSetpoint → g.lo ≠ F.bocSetpoint_pending.lo) → t.getF b g = s.getF b g) ∧
      t.bare = s.bare ∧ t.pins = s.pins := by
  let s1 := s.bump aBocFreqLog F.bocFreqLog_changes 1
  let s2 := s1.setF aBocFreqLog F.bocFreqLog_lastStop duration
  have hshow : ∀ (g : Fld) , g.lo < 64 → s2.showPending.getF aBocFreqLog g = s2.getF aBocFreqLog g := fun g hg =>
    s2.getF_setF_apart F.bocSetpoint_pending g _ (by decide) (by decide) hg
  refine ⟨?_, ?_, fun b g hb hg hpending => ?_, rfl, rfl⟩
  · exact (hshow _ (by decide)).trans ((s1.getF_setF_beside aBocFreqLog F.bocFreqLog_lastStop F.bocFreqLog_changes duration
      (by decide)).trans (s.getF_bump_same ..))
  · exact (hshow _ (by decide)).trans (s1.getF_setF_same ..)
  · have hs2 : s2.getF b g = s.getF b g := (s1.getF_setF_apart F.bocFreqLog_lastStop g duration hb (by decide) hg).trans
      (s.getF_setF_apart F.bocFreqLog_changes g _ hb (by decide) hg)
    by_cases h : b = aBocSetpoint
    · subst h
      exact (s2.getF_setF_beside aBocSetpoint F.bocSetpoint_pending g _ (hpending rfl)).trans hs2
    · exact (s2.getF_setF_apart F.bocSetpoint_pending g _ h (by decide) hg).trans hs2

/-! ### The statement -/

/-- Settles O23: stretches, requests in range, out of range and zero, the ramp's end, and a stop. -/
theorem clocksAndSetpoints : Obligations.ClocksAndSetpoints := by
  unfold Obligations.ClocksAndSetpoints
  intro s
  refine ⟨fun n k hn h1 h4 hthrottle => droopStretch_effects hn h1 h4 hthrottle, fun v => ?_, ?_, ?_⟩
  · intro code imin
    have hlt : bitsAt v.toNat 5 5 < 2 ^ F.bocSetpoint_request.width := Nat.mod_lt _ (by decide)
    refine ⟨fun hzero => ?_, fun hmin hmax hpos => ?_, fun hpos hout => execSetpointRequestWrite_refused hpos hout⟩
    · obtain ⟨hrequest, hpending, -, hbare⟩ := s.requestSetpoint_effects 0
      have hmem : s.sameMemory (s.requestSetpoint 0) := State.sameMemory_of_bare hbare
      have hisl : s.sameIslands (s.requestSetpoint 0) := State.sameIslands_of_bare hbare
      refine ⟨_, execSetpointRequestWrite_zero hzero, hrequest, ?_, rfl, rfl, hisl, hmem⟩
      refine hpending.trans ?_
      cases s.namedSettled <;> rfl
    · obtain ⟨hrequest, hpending, hcurrent, hbare⟩ := s.requestSetpoint_effects code
      have hcode : code % 2 ^ F.bocSetpoint_request.width = code := Nat.mod_eq_of_lt hlt
      have hmem : s.sameMemory (s.requestSetpoint code) := State.sameMemory_of_bare hbare
      have hisl : s.sameIslands (s.requestSetpoint code) := State.sameIslands_of_bare hbare
      have hkeep : ∀ g : Fld, g.lo < 64 →
          ((s.requestSetpoint code).setCeiling code).getF aBocSetpoint g = (s.requestSetpoint code).getF aBocSetpoint g :=
        fun g hg => State.getF_setCeiling _ code (by decide) hg
      refine ⟨_, execSetpointRequestWrite_taken hpos hmin hmax, (hkeep _ (by decide)).trans (hrequest.trans hcode), ?_,
        (hkeep _ (by decide)).trans hcurrent, rfl, rfl, hisl, hmem⟩
      refine (hkeep _ (by decide)).trans (hpending.trans ?_)
      rw [hcode, decide_eq_false (Nat.pos_iff_ne_zero.mp hpos), Bool.and_false]
      rfl
  · refine ⟨{ s with pins := { s.pins with supply := max s.pins.supply s.rampGoal } }, rfl, rfl, Nat.le_max_left _ _, ?_, fun hreq => ?_⟩
    · refine decide_eq_true (.inr ?_)
      exact le_trans (le_trans (Nat.le_max_left _ _) (Nat.le_max_left _ _)) (Nat.le_max_right _ _)
    · have hgoal : s.requestedSetpoint ≤ s.rampGoal := by
        simp only [State.rampGoal, if_neg hreq]
        exact le_trans (Nat.le_max_right _ _) (Nat.le_max_left _ _)
      exact decide_eq_true (.inr (le_trans hgoal (Nat.le_max_right _ _)))
  · intro c duration htarget hc hlive hsupplied hdone hloaded
    obtain ⟨hcur, hlower, hrequest, hceiling, hother, hboc, hisl, hmem⟩ := s.newSetpoint_effects hc
    let s1 := s.newSetpoint c
    obtain ⟨hchanges, hlast, hkeep, hbare, hpins⟩ := (s1.retune c).stopShown_effects duration
    have hpins1 : (s1.retune c).pins = s1.pins := State.of_bare State.pins (fun _ => rfl) (s1.bare_retune c)
    have hbare' := hbare.trans (s1.bare_retune c)
    have hreg : ∀ g : Fld, g.lo < 64 → g.lo ≠ F.bocSetpoint_pending.lo →
        ((((s1.retune c).bump aBocFreqLog F.bocFreqLog_changes 1).setF aBocFreqLog F.bocFreqLog_lastStop duration).showPending).getF
          aBocSetpoint g = s1.getF aBocSetpoint g := fun g hg hpending =>
      (hkeep aBocSetpoint g (by decide) hg fun _ => hpending).trans (s1.getF_retune_apart c (by decide) hg)
    have hcur' := (hreg F.bocSetpoint_current (by decide) (by decide)).trans hcur
    have hislands : s1.numIslands = s.numIslands :=
      State.numIslands_congr hboc (hother _ _ (by decide) (by decide) (by decide))
    have hfreq : (s1.retune c).getF aBocFreqLog F.bocFreqLog_changes = s.getF aBocFreqLog F.bocFreqLog_changes :=
      (s1.getF_retune_apart c (by decide) (by decide)).trans (hother _ _ (by decide) (by decide) (by decide))
    refine ⟨_, execSetpointStop_taken duration htarget hlive hsupplied hdone hloaded, hcur', ?_, fun hlt => ?_, fun hzero => ?_,
      fun hnamed => ?_, fun n hn => ?_, ?_, hlast, ?_, ?_⟩
    · exact decide_eq_true (.inl (le_of_eq hcur'.symm))
    · rw [hpins, hpins1]
      exact hlower hlt
    · exact (hreg _ (by decide) (by decide)).trans (hrequest hzero)
    · rw [hpins, hpins1]
      exact hceiling hnamed
    · obtain ⟨hset, hlocked⟩ := s1.getF_retune (n := n) hc (hislands ▸ hn)
      have hne : aIslClock n ≠ aBocFreqLog := (lt_islBase_ne (b := aBocFreqLog) (by decide)).symm
      have hne' : aIslClock n ≠ aBocSetpoint := (lt_islBase_ne (b := aBocSetpoint) (by decide)).symm
      exact ⟨(hkeep _ _ hne (by decide) fun h => absurd h hne').trans hset,
        (hkeep _ _ hne (by decide) fun h => absurd h hne').trans hlocked⟩
    · rw [hchanges, hfreq]
    · obtain ⟨h1, h2, h3⟩ := State.sameIslands_of_bare hbare'
      exact ⟨h1.trans hisl.1, h2.trans hisl.2.1, h3.trans hisl.2.2⟩
    · obtain ⟨h1, h2, h3⟩ := State.sameMemory_of_bare hbare'
      exact ⟨h1.trans hmem.1, h2.trans hmem.2.1, h3.trans hmem.2.2⟩

end Sys2Proof.Machine
end

section
/-! The state after power-on reset (R9), the I3C target and the test access port (R468, R469, R507, R508), and the words of a bundle
(R122, R123, R137, R144, R160). -/

namespace Sys2Proof.Machine

/-! ### The state after reset -/

/-- Settles O56: the reset state holds the Reset column, and nothing else. -/
theorem resetState : Obligations.ResetState := by
  unfold Obligations.ResetState
  refine ⟨fun a f h => State.getF_reset h, ?_, ?_, ?_, ?_, rfl, fun _ => rfl, rfl, rfl, rfl, rfl, rfl, rfl, rfl, rfl, rfl, rfl, rfl⟩
  · exact (State.getF_reset aTimIncr_notMem_fusedRegs).trans rfl
  · exact (State.getF_reset (by decide)).trans rfl
  · exact (State.getF_reset (by decide)).trans rfl
  · exact (State.getF_reset (by decide)).trans rfl

/-! ### The I3C target -/

theorem length_bytesOfNat (n x : Nat) : (bytesOfNat n x).length = n := by
  induction n generalizing x with
  | zero => rfl
  | succ n ih => rw [bytesOfNat, List.length_cons, ih]

theorem length_bigBytes (n x : Nat) : (bigBytes n x).length = n := by rw [bigBytes, List.length_reverse, length_bytesOfNat]

theorem State.i3cAddressed_eq {s : State} (hlive : s.i3cLive = true) (h : s.i3c.addr.isSome = true) : s.i3cAddressed = true := by
  rw [State.i3cAddressed, hlive, h, Bool.and_self]

/-- The mirror ends with a count of its refreshes (R508). -/
theorem State.mirrorBytes_count (s : State) (count : Nat) :
    ∃ l, s.mirrorBytes count = l ++ bytesOfNat 1 count ∧ l.length = 63 := by
  unfold State.mirrorBytes
  extract_lets b flags
  exact ⟨_, rfl, by simp only [List.length_append, length_bytesOfNat]⟩

theorem bytesOfNat_one (x : Nat) : bytesOfNat 1 x = [BitVec.ofNat 8 x] := rfl

theorem append_two {α : Type} {a b : List α} {x y : α} (ha : a = [x]) (hb : b = [y]) (r : List α) : ∃ l, a ++ (b ++ r) = x :: y :: l :=
  ⟨r, by rw [ha, hb]; rfl⟩

/-- The mirror begins with its version and the health (R508). -/
theorem State.mirrorBytes_health (s : State) (count : Nat) : ∃ l, s.mirrorBytes count = 1 :: BitVec.ofNat 8 s.health :: l := by
  unfold State.mirrorBytes
  extract_lets b flags
  simp only [List.append_assoc]
  exact append_two (bytesOfNat_one 1) (bytesOfNat_one _) _

@[simp] theorem State.regs_refreshMirror (s : State) : s.refreshMirror.regs = s.regs := by simp only [State.refreshMirror]
@[simp] theorem State.units_refreshMirror (s : State) : s.refreshMirror.units = s.units := by simp only [State.refreshMirror, State.units]

/-- A refresh of the mirror (R508). -/
theorem State.refreshMirror_mirror (s : State) :
    s.refreshMirror.i3c.mirror.length = 64 ∧ s.refreshMirror.i3c.mirror.head? = some 1 ∧
      s.refreshMirror.i3c.mirror[1]? = some (BitVec.ofNat 8 s.health) ∧
      s.refreshMirror.i3c.mirror[63]? = some (s.i3c.mirror.getD 63 0 + 1) := by
  have hmirror : s.refreshMirror.i3c.mirror = s.mirrorBytes ((s.i3c.mirror.getD 63 0).toNat + 1) := rfl
  have hcount : BitVec.ofNat 8 ((s.i3c.mirror.getD 63 0).toNat + 1) = s.i3c.mirror.getD 63 0 + 1 := by
    rw [BitVec.ofNat_add, BitVec.ofNat_toNat, BitVec.setWidth_eq]
    rfl
  rw [hmirror]
  obtain ⟨l, hlast, hl⟩ := s.mirrorBytes_count ((s.i3c.mirror.getD 63 0).toNat + 1)
  obtain ⟨l', hfirst⟩ := s.mirrorBytes_health ((s.i3c.mirror.getD 63 0).toNat + 1)
  refine ⟨?_, ?_, ?_, ?_⟩
  · rw [hlast, List.length_append, length_bytesOfNat, hl]
  · rw [hfirst]
    rfl
  · rw [hfirst]
    rfl
  · rw [hlast, List.getElem?_append_right (le_of_eq hl), hl, ← hcount]
    rfl

/-! ### The statement -/

/-- Settles O51: each command of the I3C target, and the instruction the test access port takes. -/
theorem i3cAndTestPort : Obligations.I3cAndTestPort := by
  unfold Obligations.I3cAndTestPort
  intro s a hlive addressed answers
  have haddr : addressed → s.i3cAddressed = true := State.i3cAddressed_eq hlive
  refine ⟨fun hnone => ?_, if_pos hlive, fun h => if_pos (haddr h), fun h => if_pos (haddr h), fun h => if_pos (haddr h),
    fun h => if_pos (haddr h), fun h => ?_, fun e => ⟨rfl, rfl⟩, fun h b l => ?_, fun h k => if_pos (haddr h), ?_, fun i => ?_⟩
  · have hfree : (s.i3cLive && s.i3c.addr.isNone) = true := by rw [hlive, hnone]; rfl
    refine ⟨_, if_pos hfree, rfl, ?_, rfl, rfl, ⟨rfl, rfl, rfl⟩, rfl, rfl, rfl⟩
    rw [List.length_append, length_bigBytes]
    rfl
  · exact ⟨_, if_pos (haddr h), length_bigBytes _ _, rfl, rfl, ⟨rfl, rfl, rfl⟩, rfl, rfl, rfl⟩
  · have hrun : execI3cPrivateWrite (b :: l) s = .next { s with i3c := { s.i3c with ptr := b.toNat % 64 } } := by
      simp only [execI3cPrivateWrite, haddr h]
    exact hrun
  · obtain ⟨hlength, hhead, hhealth, hlast⟩ := s.refreshMirror_mirror
    exact ⟨_, if_pos hlive, hlength, hhead, hhealth, hlast, s.regs_refreshMirror, State.sameIslands_of_units s.units_refreshMirror,
      State.sameMemory_of_kept s.kept_refreshMirror⟩
  · refine ⟨_, rfl, fun h => ?_, fun h => ?_, fun h => ?_, rfl⟩
    · rcases h with rfl | rfl | rfl <;> rfl
    · subst h
      rfl
    · subst h
      change (if s.flag aSecState F.secState_locked then TapInstr.bypass else TapInstr.other) = _
      by_cases hlocked : s.getF aSecState F.secState_locked = 0
      · rw [State.flag, decide_eq_false (not_not.mpr hlocked), if_pos hlocked]
        rfl
      · rw [State.flag, decide_eq_true hlocked, if_neg hlocked]
        rfl

/-! ### The words of a bundle -/

theorem length_ite_nil {α : Type} (b : Bool) (x : α) : (if b then [x] else []).length = b.toNat := by cases b <;> rfl

/-- The header of a slot whose encoding is reserved, in a bundle that neither ends its group nor has a predicate (R123). -/
def BundleEnv.reserved (env : BundleEnv) (slot : Nat) : Slot :=
  { site := env.site, pred := 0, adv := env.adv, eog := false, chk := env.chk slot, ecc := env.ecc slot, res := true, hdr := 0
    fetch := env.fetch }

/-- Settles O60: a slot for each valid bit, and the words of the examples. -/
theorem bundleWords : Obligations.BundleWords := by
  unfold Obligations.BundleWords
  intro env
  dsimp only
  refine ⟨fun w => ?_, ?_, ?_, ?_, ?_, ?_, ?_, fun c hc => ?_⟩
  · simp only [bundleCommands, List.length_append, length_ite_nil]
  iterate 6 · rfl
  · have hunlisted : bundleCommands env (BitVec.ofNat 128 (1 + 0x3F * 2 ^ 3 * 2 ^ 6)) = [.jr (env.reserved 0) 0] := rfl
    have habove : bundleCommands env (BitVec.ofNat 128 (1 + (0x01 * 2 ^ 3 + 2 ^ 24) * 2 ^ 6)) = [.add (env.reserved 0) 0 0 0] := rfl
    have hfield : bundleCommands env (BitVec.ofNat 128 (1 + (0x23 * 2 ^ 3 + 2 ^ 9) * 2 ^ 6)) = [.jr (env.reserved 0) 0] := rfl
    rw [hunlisted, habove, hfield] at hc
    simp only [List.cons_append, List.nil_append, List.mem_cons, List.not_mem_nil, or_false] at hc
    rcases hc with rfl | rfl | rfl
    · exact ⟨0, 0, 0, .inl rfl⟩
    · exact ⟨0, 0, 0, .inr rfl⟩
    · exact ⟨0, 0, 0, .inl rfl⟩

end Sys2Proof.Machine
end

section
/-! Accumulation is exact (R46, R47, R49 to R51, R70): contributions floor once, and a lane's sum, residue and wraparounds add. -/

namespace Sys2Proof.Machine

/-! ### The floor of a product -/

/-- The floor of a shifted integer, and whether it lost bits. -/
theorem floorShift_spec (m sh : Int) :
    (0 ≤ sh → floorShift m sh = m * 2 ^ sh.toNat ∧ floorLoses m sh = false) ∧
      (sh < 0 → floorShift m sh * 2 ^ (-sh).toNat ≤ m ∧ m < (floorShift m sh + 1) * 2 ^ (-sh).toNat ∧
        (floorLoses m sh = true ↔ floorShift m sh * 2 ^ (-sh).toNat ≠ m)) := by
  refine ⟨fun h => ⟨if_pos h, if_pos h⟩, fun h => ?_⟩
  have hneg : ¬ 0 ≤ sh := by omega
  have hpos : (0 : Int) < 2 ^ (-sh).toNat := by positivity
  have hdiv := Int.mul_ediv_add_emod m (2 ^ (-sh).toNat)
  have hnonneg := Int.emod_nonneg m (ne_of_gt hpos)
  have hlt := Int.emod_lt_of_pos m hpos
  simp only [floorShift, floorLoses, if_neg hneg, decide_eq_true_eq]
  generalize m / 2 ^ (-sh).toNat = q at hdiv
  generalize m % 2 ^ (-sh).toNat = r at hdiv hnonneg hlt
  generalize (2 : Int) ^ (-sh).toNat = k at hdiv hlt
  rw [mul_comm] at hdiv
  refine ⟨by omega, ?_, by omega⟩
  rw [add_mul, one_mul]
  omega

theorem residueOf_toNat (x : BitVec 144) : residueOf x.toNat = x.toNat % 65535 := by
  rw [residueOf, Nat.mod_eq_of_lt x.isLt]

/-- A residue fits its 16 bits. -/
theorem toNat_ofNat_residue (k : Nat) : (BitVec.ofNat 16 (k % 65535)).toNat = k % 65535 := by
  rw [BitVec.toNat_ofNat]
  omega

theorem alignAdd_res (anchor m e : Int) : (alignAdd anchor m e).res.toNat = (alignAdd anchor m e).t.toNat % 65535 := by
  simp only [alignAdd]
  rw [residueOf_toNat, toNat_ofNat_residue]

theorem signedInt_xor (s t : Bool) (k : Nat) : signedInt (xor s t) k = if s = t then (k : Int) else -(k : Int) := by
  cases s <;> cases t <;> rfl

/-! ### Residues and wraparounds -/

theorem residueAgrees_iff (sum : BitVec 144) (res wraps : BitVec 16) :
    residueAgrees sum res wraps = true ↔ (sum.toNat + wraps.toNat) % 65535 = res.toNat % 65535 := by
  rw [residueAgrees, decide_eq_true_iff, residueOf_toNat]
  omega

theorem toNat_addWraps (x y : BitVec 144) (a b : BitVec 16) :
    (addWraps x y a b).toNat = (a.toNat + b.toNat + (x.toNat + y.toNat) / 2 ^ 144) % 65535 := toNat_ofNat_residue _

/-- The sum of two agreeing parts agrees: 2^144 is 1 modulo 65,535 (R70). -/
theorem residueAgrees_add {x y : BitVec 144} {rx ry wx wy : BitVec 16} (hx : residueAgrees x rx wx = true)
    (hy : residueAgrees y ry wy = true) :
    residueAgrees (x + y) (BitVec.ofNat 16 (addResidue rx.toNat ry.toNat)) (addWraps x y wx wy) = true := by
  rw [residueAgrees_iff] at hx hy ⊢
  rw [toNat_addWraps, BitVec.toNat_add, addResidue, toNat_ofNat_residue]
  have hsplit := Nat.mod_add_div (x.toNat + y.toNat) (2 ^ 144)
  generalize (x.toNat + y.toNat) % 2 ^ 144 = r at hsplit ⊢
  generalize (x.toNat + y.toNat) / 2 ^ 144 = c at hsplit ⊢
  omega

theorem addWraps_comm (x y : BitVec 144) (a b : BitVec 16) : addWraps x y a b = addWraps y x b a := by
  rw [addWraps, addWraps, Nat.add_comm a.toNat, Nat.add_comm x.toNat]

/-- Wraparounds of three parts, taken from the left or from the right. -/
theorem addWraps_assoc (x y z : BitVec 144) (a b c : BitVec 16) :
    addWraps (x + y) z (addWraps x y a b) c = addWraps x (y + z) a (addWraps y z b c) := by
  refine BitVec.eq_of_toNat_eq ?_
  simp only [toNat_addWraps, BitVec.toNat_add]
  have hx := x.isLt
  have hy := y.isLt
  have hz := z.isLt
  omega

theorem addResidue_assoc (a b c : BitVec 16) :
    addResidue (BitVec.ofNat 16 (addResidue a.toNat b.toNat)).toNat c.toNat =
      addResidue a.toNat (BitVec.ofNat 16 (addResidue b.toNat c.toNat)).toNat := by
  simp only [addResidue, toNat_ofNat_residue]
  omega

/-! ### Lanes -/

/-- A lane whose residue agrees with its sum. -/
def Lane.agrees (x : Lane) : Prop := residueAgrees x.sum x.res x.wraps = true

/-- A contribution whose residue agrees with its sum. -/
def LaneAdd.agrees (a : LaneAdd) : Prop := residueAgrees a.t a.res a.wraps = true

theorem alignAdd_agrees (anchor m e : Int) : (alignAdd anchor m e).agrees := by
  rw [LaneAdd.agrees, residueAgrees_iff, alignAdd_res]
  have hwraps : (alignAdd anchor m e).wraps.toNat = 0 := rfl
  rw [hwraps, Nat.add_zero, Nat.mod_mod]

theorem laneAddZero_agrees : LaneAdd.zero.agrees := by
  rw [LaneAdd.agrees, residueAgrees_iff]
  decide

/-- Every product's contribution agrees: a special value's is zero with a flag (R41). -/
theorem productAdd_agrees (anchor : Int) (a b : Val) : (productAdd anchor a b).agrees := by
  have hzero : residueAgrees (0 : BitVec 144) 0 0 = true := laneAddZero_agrees
  cases a <;> cases b <;> simp only [productAdd]
  case fin.fin => exact alignAdd_agrees ..
  case inf.inf => split_ifs <;> exact hzero
  case inf.fin => split_ifs <;> exact hzero
  case fin.inf => split_ifs <;> exact hzero
  all_goals exact hzero

theorem LaneAdd.plus_agrees {a b : LaneAdd} (ha : a.agrees) (hb : b.agrees) : (a.plus b).agrees := residueAgrees_add ha hb

theorem Lane.add_agrees {x : Lane} {a : LaneAdd} (hx : x.agrees) (ha : a.agrees) : (x.add a).agrees := residueAgrees_add hx ha

theorem Lane.chk_add {x : Lane} {a : LaneAdd} (hx : x.agrees) (ha : a.agrees) : (x.add a).chk = (x.chk || a.chk) := by
  have h : residueAgrees (x.add a).sum (x.add a).res (x.add a).wraps = true := Lane.add_agrees hx ha
  have hdef : (x.add a).chk = (x.chk || a.chk || !residueAgrees (x.add a).sum (x.add a).res (x.add a).wraps) := rfl
  rw [hdef, h, Bool.not_true, Bool.or_false]

theorem Lane.chk_of_disagrees {x : Lane} {a : LaneAdd} (h : ¬(x.add a).agrees) : (x.add a).chk = true := by
  have hdef : (x.add a).chk = (x.chk || a.chk || !residueAgrees (x.add a).sum (x.add a).res (x.add a).wraps) := rfl
  rw [hdef, Bool.eq_false_iff.mpr h, Bool.not_false, Bool.or_true]

theorem Lane.eq_of_fields {x y : Lane} (hsum : x.sum = y.sum) (hres : x.res = y.res) (hwraps : x.wraps = y.wraps) (hlost : x.lost = y.lost)
    (hchk : x.chk = y.chk) (hnan : x.nan = y.nan) (hpos : x.pos = y.pos) (hneg : x.neg = y.neg) : x = y := by
  cases x
  cases y
  simp_all only

/-- Two contributions one after the other add what they add together. -/
theorem Lane.add_add {x : Lane} {a b : LaneAdd} (hx : x.agrees) (ha : a.agrees) (hb : b.agrees) :
    (x.add a).add b = x.add (a.plus b) := by
  refine Lane.eq_of_fields ?_ ?_ ?_ ?_ ?_ ?_ ?_ ?_
  · exact BitVec.add_assoc ..
  · exact congrArg (BitVec.ofNat 16) (addResidue_assoc x.res a.res b.res)
  · exact addWraps_assoc x.sum a.t b.t x.wraps a.wraps b.wraps
  · exact Bool.or_assoc ..
  · rw [Lane.chk_add (Lane.add_agrees hx ha) hb, Lane.chk_add hx ha, Lane.chk_add hx (LaneAdd.plus_agrees ha hb)]
    exact Bool.or_assoc ..
  · exact Bool.or_assoc ..
  · exact Bool.or_assoc ..
  · exact Bool.or_assoc ..

theorem LaneAdd.plus_comm (a b : LaneAdd) : a.plus b = b.plus a := by
  simp only [LaneAdd.plus, addResidue, BitVec.add_comm a.t, Nat.add_comm a.res.toNat, addWraps_comm a.t, Bool.or_comm a.lost,
    Bool.or_comm a.nan, Bool.or_comm a.pos, Bool.or_comm a.neg, Bool.or_comm a.chk]

theorem Lane.foldl_agrees {x : Lane} (hx : x.agrees) {l : List LaneAdd} (hl : ∀ a ∈ l, a.agrees) : (l.foldl Lane.add x).agrees := by
  induction l generalizing x with
  | nil => exact hx
  | cons a l ih => exact ih (Lane.add_agrees hx (hl a List.mem_cons_self)) fun b hb => hl b (List.mem_cons_of_mem a hb)

/-- What a lane holds does not depend on the order of its contributions (R49). -/
theorem Lane.foldl_perm {l m : List LaneAdd} (hperm : l.Perm m) {x : Lane} (hx : x.agrees) (hl : ∀ a ∈ l, a.agrees) :
    l.foldl Lane.add x = m.foldl Lane.add x := by
  induction hperm generalizing x with
  | nil => rfl
  | cons a _ ih => exact ih (Lane.add_agrees hx (hl a List.mem_cons_self)) fun b hb => hl b (List.mem_cons_of_mem a hb)
  | swap a b l =>
    have hb := hl b List.mem_cons_self
    have ha := hl a (List.mem_cons_of_mem b List.mem_cons_self)
    have hswap : (x.add b).add a = (x.add a).add b := by
      rw [Lane.add_add hx hb ha, Lane.add_add hx ha hb, LaneAdd.plus_comm]
    simp only [List.foldl_cons, hswap]
  | trans hlm _ ih₁ ih₂ => exact (ih₁ hx hl).trans (ih₂ hx fun a ha => hl a (hlm.mem_iff.mpr ha))

/-- What a lane holds does not depend on how its contributions are grouped (R49). -/
theorem Lane.add_foldl {x : Lane} {a : LaneAdd} {l : List LaneAdd} (hx : x.agrees) (ha : a.agrees) (hl : ∀ c ∈ l, c.agrees) :
    x.add (l.foldl LaneAdd.plus a) = l.foldl Lane.add (x.add a) := by
  induction l generalizing a with
  | nil => rfl
  | cons b l ih =>
    have hb := hl b List.mem_cons_self
    calc x.add ((b :: l).foldl LaneAdd.plus a)
      _ = l.foldl Lane.add (x.add (a.plus b)) := ih (LaneAdd.plus_agrees ha hb) fun c hc => hl c (List.mem_cons_of_mem b hc)
      _ = (b :: l).foldl Lane.add (x.add a) := by rw [← Lane.add_add hx ha hb, List.foldl_cons]

/-! ### The statement -/

/-- Settles O59: the floor of a product, agreement kept by addition, order and grouping, and the readout's window. -/
theorem accumulationIsExact : Obligations.AccumulationIsExact := by
  unfold Obligations.AccumulationIsExact
  refine ⟨fun anchor e d s t m n => ?_, ?_, fun sum => ?_⟩
  · intro p sh a
    have hp : signedInt (xor s t) (m * n) = p := signedInt_xor s t (m * n)
    have ha : a = alignAdd anchor p (e + d) := congrArg (alignAdd anchor · (e + d)) hp
    obtain ⟨hup, hdown⟩ := floorShift_spec p sh
    refine ⟨floorShift p sh, by rw [ha]; rfl, ?_, by rw [ha]; rfl, by rw [ha]; rfl, by rw [ha]; rfl, fun h => ?_, fun h => ?_⟩
    · rw [ha]
      exact alignAdd_res anchor p (e + d)
    · rw [ha]
      exact hup h
    · rw [ha]
      exact hdown h
  · intro consistent sound
    refine ⟨by decide, laneAddZero_agrees, productAdd_agrees, fun a b ha hb => LaneAdd.plus_agrees ha hb,
      fun x a hx ha => ⟨Lane.add_agrees hx ha, Lane.chk_add hx ha⟩, fun x a h => Lane.chk_of_disagrees h,
      fun l m x hx hl hperm => Lane.foldl_perm hperm hx hl,
      fun l a b x hx ha hb hl => ⟨Lane.add_add hx ha hb, Lane.add_foldl hx ha hl⟩⟩
  · rw [sumOverflows, decide_eq_true_iff]
    omega

end Sys2Proof.Machine
end

section
/-! Flits that a port sends (R310, R313, R316): their fields and payload, and what a transmission leaves alone. -/

namespace Sys2Proof.Machine

/-! ### Fields and payload -/

/-- A flit's payload is the number it was built from. -/
theorem payload_flitOf (h P : Nat) : (flitOf h P).payload = BitVec.ofNat 2048 P := by
  refine BitVec.eq_of_getLsbD_eq fun i hi => ?_
  have hdiv : ∀ k j : Nat, (P / 2 ^ k).testBit j = P.testBit (j + k) := fun k j => Nat.testBit_div_two_pow P j
  simp only [Flit.payload, flitOf, BitVec.getLsbD_append, BitVec.getLsbD_ofNat, hdiv]
  have h2048 : decide (i < 2048) = true := decide_eq_true hi
  rw [h2048, Bool.true_and]
  by_cases h0 : i < 512
  · simp only [h0, decide_true, if_true, Bool.true_and]
  · by_cases h1 : i - 512 < 512
    · simp only [h0, h1, decide_true, if_true, if_false, Bool.true_and]
      rw [show i - 512 + 512 = i by omega]
    · by_cases h2 : i - 512 - 512 < 512
      · simp only [h0, h1, h2, decide_true, if_true, if_false, Bool.true_and]
        rw [show i - 512 - 512 + 1024 = i by omega]
      · have h3 : i - 512 - 512 - 512 < 512 := by omega
        simp only [h0, h1, h2, h3, decide_true, if_false, Bool.true_and]
        rw [show i - 512 - 512 - 512 + 1536 = i by omega]

theorem payload_flitOf_payload (h : Nat) (f : Flit) : (flitOf h f.payload.toNat).payload = f.payload := by
  rw [payload_flitOf, BitVec.ofNat_toNat, BitVec.setWidth_eq]

end Sys2Proof.Machine

namespace Sys2Proof

/-- A flit with its sequence number entered (R316). -/
def Flit.numbered (f : Flit) (n : Nat) : Flit := { f with hdr := BitVec.ofNat 128 (f.hdr.toNat / 2 ^ 14 * 2 ^ 14 + n * 2 ^ 2 + f.kind) }

section
variable (f : Flit) {n : Nat}

@[simp] theorem Flit.payload_numbered : (f.numbered n).payload = f.payload := rfl

theorem Flit.kind_lt : f.kind < 4 := Nat.mod_lt _ (by decide)

variable (hn : n < 4096)
include hn

theorem Flit.hdr_numbered : (f.numbered n).hdr.toNat = f.hdr.toNat / 2 ^ 14 * 2 ^ 14 + n * 2 ^ 2 + f.kind := by
  have hlt := f.hdr.isLt
  have hkind := f.kind_lt
  rw [Flit.numbered, BitVec.toNat_ofNat]
  omega

theorem Flit.kind_numbered : (f.numbered n).kind = f.kind := by
  have hkind := f.kind_lt
  rw [Flit.kind, Machine.bitsAt, f.hdr_numbered hn]
  omega

theorem Flit.seq_numbered : (f.numbered n).seq = n := by
  have hkind := f.kind_lt
  rw [Flit.seq, Machine.bitsAt, f.hdr_numbered hn]
  omega

/-- The fields above the sequence number stay. -/
theorem Flit.field_numbered {lo : Nat} (w : Nat) (hlo : 14 ≤ lo) : (f.numbered n).field lo w = f.field lo w := by
  have hkind := f.kind_lt
  obtain ⟨k, rfl⟩ := Nat.exists_eq_add_of_le hlo
  have hdiv : (f.numbered n).hdr.toNat / 2 ^ 14 = f.hdr.toNat / 2 ^ 14 := by
    rw [f.hdr_numbered hn]
    omega
  rw [Flit.field, Flit.field, Machine.bitsAt, Machine.bitsAt, Nat.pow_add, ← Nat.div_div_eq_div_mul, ← Nat.div_div_eq_div_mul, hdiv]

end

end Sys2Proof

namespace Sys2Proof.Machine

theorem field_flitOf {h : Nat} (hh : h < 2 ^ 128) (P lo w : Nat) : (flitOf h P).field lo w = bitsAt h lo w := by
  rw [Flit.field, flitOf, BitVec.toNat_ofNat, Nat.mod_eq_of_lt hh]

theorem kind_flitOf {h : Nat} (hh : h < 2 ^ 128) (P : Nat) : (flitOf h P).kind = bitsAt h 0 2 := field_flitOf hh P 0 2

/-! ### What a transmission leaves alone -/

/-- What the launches of a port work on: its queues and relays, the slot last used, the next number and the flits not yet acked. -/
structure LaunchSide where
  queues : Tbl LaunchQ
  used   : Option Nat
  relays : List Relay
  next   : Nat
  buf    : List Flit

def Port.side (x : Port) : LaunchSide := ⟨x.queues, x.used, x.relays, x.next, x.buf⟩

def State.sides (s : State) (p : Nat) : LaunchSide := (s.port p).side

/-- A state without its registers and its ports. -/
def State.offPorts (s : State) : State := { s with regs := [], ports := [] }

theorem State.of_offPorts {β : Type} (g : State → β) (hg : ∀ s, g s.offPorts = g s) {s t : State} (h : t.offPorts = s.offPorts) :
    g t = g s := by
  rw [← hg t, h, hg]

@[simp] theorem State.offPorts_setF (s : State) (a : Nat) (f : Fld) (v : Nat) : (s.setF a f v).offPorts = s.offPorts := (rfl)
@[simp] theorem State.offPorts_bump (s : State) (a : Nat) (f : Fld) (n : Nat) : (s.bump a f n).offPorts = s.offPorts := (rfl)
@[simp] theorem State.offPorts_setPort (s : State) (p : Nat) (x : Port) : (s.setPort p x).offPorts = s.offPorts := (rfl)
@[simp] theorem State.offPorts_setFs (s : State) (a : Nat) (l : List (Fld × Nat)) : (s.setFs a l).offPorts = s.offPorts :=
  State.foldl_frame State.offPorts l (fun s (p : Fld × Nat) => State.offPorts_setF s a p.1 p.2) s

theorem State.sides_setPort (s : State) (p : Nat) (x : Port) (q : Nat) :
    (s.setPort p x).sides q = if q = p then x.side else s.sides q := by
  simp only [State.sides, State.port_setPort]
  split <;> rfl

/-- A port changed beside its launches. -/
theorem State.sides_setPort_same {s : State} {p : Nat} {x : Port} (h : x.side = (s.port p).side) : (s.setPort p x).sides = s.sides := by
  funext q
  rw [State.sides_setPort, h]
  split
  case isTrue hq => rw [hq, State.sides]
  case isFalse => rfl

@[simp] theorem State.sides_setF (s : State) (a : Nat) (f : Fld) (v : Nat) : (s.setF a f v).sides = s.sides := rfl
@[simp] theorem State.sides_bump (s : State) (a : Nat) (f : Fld) (n : Nat) : (s.bump a f n).sides = s.sides := rfl

theorem Port.side_linkFields (x : Port) (ack : Nat) : (x.linkFields ack).2.side = x.side := by
  have hfold : ∀ (k : Nat → Nat) (l : List Nat) (y : Port), (l.foldl (fun x v =>
      { x with pend := Tbl.set 0 x.pend v (Tbl.get 0 x.pend v - k v),
               grant := Tbl.set 0 x.grant v ((Tbl.get 0 x.grant v + k v) % 65536) }) y).side = y.side := by
    intro k l
    induction l with
    | nil => exact fun _ => rfl
    | cons v l ih => exact fun y => (ih _).trans rfl
  exact hfold (fun v => min (Tbl.get 0 x.pend v) 63) (List.range 6) x

/-- A transmission changes its port beside the launches, and may count injected errors. -/
theorem State.transmit_eq (s : State) (p : Nat) (f : Flit) : ∃ (x : Port) (c : Bool) (n : Nat), x.side = (s.port p).side ∧
    s.transmit p f = if c then (s.setPort p x).bump (aLnkInjCtl p) F.lnkInjCtl_injected n else s.setPort p x := by
  refine ⟨_, _, _, ?_, rfl⟩
  exact (Port.side_linkFields (s.port p) (s.injectAck p (s.port p)).1).trans rfl

/-- A transmission: the port's line side, and a count of injected errors. -/
theorem State.transmit_frame (s : State) (p : Nat) (f : Flit) :
    (s.transmit p f).sides = s.sides ∧ (s.transmit p f).offPorts = s.offPorts ∧
      ∀ b (g : Fld), b ≠ aLnkInjCtl p → g.lo < 64 → (s.transmit p f).getF b g = s.getF b g := by
  obtain ⟨x, c, n, hx, heq⟩ := s.transmit_eq p f
  have hsides := State.sides_setPort_same hx
  rw [heq]
  cases c with
  | false => exact ⟨hsides, rfl, fun b g _ _ => rfl⟩
  | true => exact ⟨hsides, rfl, fun b g hb hg => (s.setPort p x).getF_setF_apart F.lnkInjCtl_injected g _ hb (by decide) hg⟩

@[simp] theorem State.sides_transmit (s : State) (p : Nat) (f : Flit) : (s.transmit p f).sides = s.sides := (s.transmit_frame p f).1
@[simp] theorem State.offPorts_transmit (s : State) (p : Nat) (f : Flit) : (s.transmit p f).offPorts = s.offPorts :=
  (s.transmit_frame p f).2.1

theorem State.getF_transmit (s : State) (p : Nat) (f : Flit) {b : Nat} {g : Fld} (hb : b ≠ aLnkInjCtl p) (hg : g.lo < 64) :
    (s.transmit p f).getF b g = s.getF b g := (s.transmit_frame p f).2.2 b g hb hg

theorem State.sendNew_eq (s : State) (p : Nat) (f : Flit) : ∃ (x : Port) (c : Bool),
    x.side = { s.sides p with next := ((s.port p).next + 1) % 4096, buf := (s.port p).buf ++ [f.numbered (s.port p).next] } ∧
    s.sendNew p f = if c then ((s.setPort p x).transmit p (f.numbered (s.port p).next)).bump (aLnkReplay p) F.lnkReplay_full 1
      else (s.setPort p x).transmit p (f.numbered (s.port p).next) := by
  refine ⟨_, _, ?_, rfl⟩
  rfl

/-- A new flit sent (R316): it takes the next number and is kept until acked; two registers may count. -/
theorem State.sendNew_effects (s : State) (p : Nat) (f : Flit) :
    (s.sendNew p f).sides p = { s.sides p with next := ((s.port p).next + 1) % 4096, buf := (s.port p).buf ++ [f.numbered
    (s.port p).next] } ∧
      (∀ q, q ≠ p → (s.sendNew p f).sides q = s.sides q) ∧ (s.sendNew p f).offPorts = s.offPorts ∧
      ∀ b (g : Fld), b ≠ aLnkInjCtl p → b ≠ aLnkReplay p → g.lo < 64 → (s.sendNew p f).getF b g = s.getF b g := by
  obtain ⟨x, c, hx, heq⟩ := s.sendNew_eq p f
  have hsides := (s.setPort p x).sides_transmit p (f.numbered (s.port p).next)
  have hoff := (s.setPort p x).offPorts_transmit p (f.numbered (s.port p).next)
  have hregs : ∀ b (g : Fld), b ≠ aLnkInjCtl p → g.lo < 64 →
      ((s.setPort p x).transmit p (f.numbered (s.port p).next)).getF b g = s.getF b g :=
    fun b g hb hg => (s.setPort p x).getF_transmit p _ hb hg
  have hsent : (s.sendNew p f).sides = (s.setPort p x).sides ∧ (s.sendNew p f).offPorts = s.offPorts ∧
      ∀ b (g : Fld), b ≠ aLnkInjCtl p → b ≠ aLnkReplay p → g.lo < 64 → (s.sendNew p f).getF b g = s.getF b g := by
    rw [heq]
    cases c with
    | false => exact ⟨hsides, hoff, fun b g hb _ hg => hregs b g hb hg⟩
    | true =>
      exact ⟨hsides, hoff, fun b g hb hb' hg =>
        (State.getF_setF_apart _ F.lnkReplay_full g _ hb' (by decide) hg).trans (hregs b g hb hg)⟩
  refine ⟨?_, fun q hq => ?_, hsent.2⟩
  · rw [hsent.1, State.sides_setPort, if_pos rfl, hx]
  · rw [hsent.1, State.sides_setPort, if_neg hq]

theorem State.offPorts_sendNew (s : State) (p : Nat) (f : Flit) : (s.sendNew p f).offPorts = s.offPorts := (s.sendNew_effects p f).2.2.1

theorem State.getF_sendNew (s : State) (p : Nat) (f : Flit) {b : Nat} {g : Fld} (hb : b ≠ aLnkInjCtl p) (hb' : b ≠ aLnkReplay p)
    (hg : g.lo < 64) : (s.sendNew p f).getF b g = s.getF b g := (s.sendNew_effects p f).2.2.2 b g hb hb' hg

end Sys2Proof.Machine
end

section
/-! The beat counter and its registers, and timed launches (R376 to R379, R385, R392, R393). -/

namespace Sys2Proof.Machine

/-! ### What a port's slot is planned for -/

/-- A port takes a slot: its plan is made once (R277). -/
def State.takeSlot (s : State) (p slot0 : Nat) : State :=
  s.setPort p { s.port p with used := some (s.evenSlot p slot0), heldOut := (s.port p).tickHeld.heldOut }

/-- What planning a slot leaves alone: the numbers sent and the slot taken, every register but the launch queues' and the count of late
claims. -/
structure PlanKeeps (s t : State) (p : Nat) : Prop where
  next : (t.sides p).next = (s.sides p).next
  buf  : (t.sides p).buf = (s.sides p).buf
  used : (t.sides p).used = (s.sides p).used
  rest : t.offPorts = s.offPorts
  regs : ∀ b (g : Fld), (∀ q < 64, b ≠ aCrpLqState p q) → b ≠ aCrpLate p → g.lo < 64 → t.getF b g = s.getF b g

namespace PlanKeeps

theorem refl (s : State) (p : Nat) : PlanKeeps s s p := ⟨rfl, rfl, rfl, rfl, fun _ _ _ _ _ => rfl⟩

theorem trans {s t v : State} {p : Nat} (h : PlanKeeps s t p) (k : PlanKeeps t v p) : PlanKeeps s v p where
  next := k.next.trans h.next
  buf := k.buf.trans h.buf
  used := k.used.trans h.used
  rest := k.rest.trans h.rest
  regs b g hq hlate hg := (k.regs b g hq hlate hg).trans (h.regs b g hq hlate hg)

theorem setF_queue (s : State) (p : Nat) {q : Nat} (hq : q < 64) (f : Fld) (v : Nat) (hf : f.lo < 64) :
    PlanKeeps s (s.setF (aCrpLqState p q) f v) p :=
  ⟨rfl, rfl, rfl, rfl, fun _ g hb _ hg => s.getF_setF_apart f g v (hb q hq) hf hg⟩

theorem setF_late (s : State) (p : Nat) (f : Fld) (v : Nat) (hf : f.lo < 64) : PlanKeeps s (s.setF (aCrpLate p) f v) p :=
  ⟨rfl, rfl, rfl, rfl, fun _ g _ hb hg => s.getF_setF_apart f g v hb hf hg⟩

/-- A port's queues or relays changed. -/
theorem setPort (s : State) (p : Nat) {x : Port} (hnext : x.next = (s.port p).next) (hbuf : x.buf = (s.port p).buf)
    (hused : x.used = (s.port p).used) : PlanKeeps s (s.setPort p x) p where
  next := by rw [State.sides_setPort, if_pos rfl]; exact hnext
  buf := by rw [State.sides_setPort, if_pos rfl]; exact hbuf
  used := by rw [State.sides_setPort, if_pos rfl]; exact hused
  rest := rfl
  regs _ _ _ _ _ := rfl

theorem setLq (s : State) (p : Nat) {q : Nat} (hq : q < 64) (l : LaunchQ) : PlanKeeps s (s.setLq p q l) p :=
  (setPort s p (x := { s.port p with queues := Tbl.set LaunchQ.reset (s.port p).queues q l }) rfl rfl rfl).trans
    (setF_queue _ p hq F.crpLqState_occupancy l.flits.length (by decide))

theorem owe (s : State) (p : Nat) {q : Nat} (hq : q < 64) (last : Bool) : PlanKeeps s (s.owe p q last) p := by
  have hbump : PlanKeeps s (s.bump (aCrpLqState p q) F.crpLqState_owed 1) p := setF_queue s p hq _ _ (by decide)
  simp only [State.owe]
  split
  · exact hbump.trans (setLq _ p hq _)
  · exact hbump

end PlanKeeps

theorem slQueue_lt (e : Nat) : slQueue e < 64 := Nat.mod_lt _ (by decide)

theorem State.lt_of_mem_claims {s : State} {p slot q : Nat} (h : q ∈ s.claims p slot) : q < 64 := by
  simp only [State.claims] at h
  split at h
  · obtain ⟨e, -, rfl⟩ := List.mem_map.mp h
    exact slQueue_lt e
  · exact absurd h List.not_mem_nil

/-- Whatever a slot is planned for, the plan keeps what `PlanKeeps` says. -/
theorem State.slotPlan_keeps {s : State} {p slot0 : Nat} (hused : (s.port p).used ≠ some (s.evenSlot p slot0)) :
    PlanKeeps (s.takeSlot p slot0) (s.slotPlan p slot0).1 p := by
  have hrefl := PlanKeeps.refl (s.takeSlot p slot0) p
  have hclaims : ∀ {c : Bool} {q : Nat} {l : List Nat},
      (if c then (s.takeSlot p slot0).claims p (s.oddSlot p slot0) else []) = q :: l → q < 64 := by
    intro c q l h
    cases c with
    | false => exact absurd h (by simp)
    | true => exact State.lt_of_mem_claims (h ▸ List.mem_cons_self)
  unfold State.slotPlan
  extract_lets slot claimSlot x s1 runs cl due rest
  rw [if_neg hused]
  have hlq : ∀ q l, cl = q :: l → q < 64 := fun q l h => hclaims h
  have hrelay : ∀ r, PlanKeeps s1 (s1.lateRelay p r) p := fun r => PlanKeeps.setPort s1 p rfl rfl rfl
  clear_value cl due
  split
  · exact hrefl
  · split
    · rename_i q l
      have howe := PlanKeeps.owe s1 p (hlq q l rfl) (decide (claimSlot = s.lastClaim p q))
      split
      · exact howe
      · split
        · exact howe.trans (PlanKeeps.setF_late _ p F.crpLate_held _ (by decide))
        · exact hrefl
    · rename_i r _
      split
      · exact hrefl
      · exact hrelay r
    · exact hrefl


/-! ### The beat counter's registers -/

theorem incrementWrite_taken {s : State} {v : Word} (hmin : 27460302903 ≤ v.toNat % 2 ^ 40) (hmax : v.toNat % 2 ^ 40 ≤ 27515278485) :
    execTimIncrWrite v s = .next ((s.setF aTimIncr F.timIncr_incr (v.toNat % 2 ^ 40)).busDone false) := by
  have hbits : bitsAt v.toNat 0 40 = v.toNat % 2 ^ 40 := by rw [bitsAt, Nat.pow_zero, Nat.div_one]
  have hok : incrOk (v.toNat % 2 ^ 40) = true := decide_eq_true ⟨hmin, hmax⟩
  simp only [execTimIncrWrite, hbits, hok, if_true]

theorem incrementWrite_refused {s : State} {v : Word} (h : v.toNat % 2 ^ 40 < 27460302903 ∨ 27515278485 < v.toNat % 2 ^ 40) :
    execTimIncrWrite v s = .next (s.busDone true) := by
  have hbits : bitsAt v.toNat 0 40 = v.toNat % 2 ^ 40 := by rw [bitsAt, Nat.pow_zero, Nat.div_one]
  have hok : incrOk (v.toNat % 2 ^ 40) = false := decide_eq_false (by omega)
  simp only [execTimIncrWrite, hbits, hok, Bool.false_eq_true, if_false]

/-- The trigger armed for a beat (R392): late if the beat has come. -/
theorem State.armTrigger_registers (s : State) (beat : Nat) :
    (s.armTrigger beat).getF aTimTrigState F.timTrigState_armed = 1 ∧
      (beatReached s.beat (BitVec.ofNat 64 beat) = true → (s.armTrigger beat).getF aTimTrigState F.timTrigState_late = 1) ∧
      s.regsBut (s.armTrigger beat)
        [(aTimTrig, F.timTrig_beat), (aTimTrigState, F.timTrigState_armed), (aTimTrigState, F.timTrigState_late)] := by
  let l := [(aTimTrig, F.timTrig_beat), (aTimTrigState, F.timTrigState_armed), (aTimTrigState, F.timTrigState_late)]
  have hbeat : ((s.setF aTimTrig F.timTrig_beat beat).setF aTimTrigState F.timTrigState_armed 1).beat = s.beat := rfl
  have hrest : s.regsBut ((s.setF aTimTrig F.timTrig_beat beat).setF aTimTrigState F.timTrigState_armed 1) l :=
    ((s.regsBut_refl l).setF (by simp [l]) _).setF (by simp [l]) _
  have harmed : ((s.setF aTimTrig F.timTrig_beat beat).setF aTimTrigState F.timTrigState_armed 1).getF aTimTrigState
      F.timTrigState_armed = 1 := State.getF_setF_same ..
  simp only [State.armTrigger, hbeat]
  split
  · exact ⟨(State.getF_setF_beside _ aTimTrigState F.timTrigState_late F.timTrigState_armed 1 (by decide)).trans harmed,
      fun _ => State.getF_setF_same .., hrest.setF (by simp [l]) _⟩
  · rename_i hlate
    exact ⟨harmed, fun h => absurd h hlate, hrest⟩

/-- The accumulator advanced by a step of the phase (R378). -/
theorem beatAcc_stepped (acc : BitVec 80) (n : Nat) (v : Word) :
    acc + BitVec.ofNat 80 n + v.signExtend 80 <<< 16 = BitVec.ofInt 80 ((acc.toNat + n : Nat) + v.toInt * 65536) := by
  have hacc : acc + BitVec.ofNat 80 n = BitVec.ofInt 80 ((acc.toNat + n : Nat) : Int) := by
    rw [BitVec.ofInt_natCast, BitVec.ofNat_add, BitVec.ofNat_toNat, BitVec.setWidth_eq]
  have hstep : v.signExtend 80 <<< 16 = BitVec.ofInt 80 (v.toInt * 65536) := by
    rw [BitVec.signExtend, BitVec.shiftLeft_eq_mul_twoPow, BitVec.ofInt_mul]
    congr 1
  rw [hacc, hstep, BitVec.ofInt_add]

theorem tick_unstepped {s : State} (hpower : s.pins.power = .on) (hphase : s.pins.phase = none) :
    execReferenceClockTick s = .next { s with beatAcc := BitVec.ofNat 80 (s.beatAcc.toNat + s.getF aTimIncr F.timIncr_incr) } := by
  have hadd : s.beatAcc + BitVec.ofNat 80 (s.getF aTimIncr F.timIncr_incr) =
      BitVec.ofNat 80 (s.beatAcc.toNat + s.getF aTimIncr F.timIncr_incr) := by
    rw [BitVec.ofNat_add, BitVec.ofNat_toNat, BitVec.setWidth_eq]
  simp only [execReferenceClockTick, hpower, hphase, hadd, ne_eq, not_true_eq_false, if_false]

theorem tick_stepped {s : State} {v : Word} (hpower : s.pins.power = .on) (hphase : s.pins.phase = some v) :
    execReferenceClockTick s = .next ({ s with
      beatAcc := BitVec.ofInt 80 ((s.beatAcc.toNat + s.getF aTimIncr F.timIncr_incr : Nat) + v.toInt * 65536)
      pins := { s.pins with phase := none } }.bump aTimStatus F.timStatus_steps 1) := by
  simp only [execReferenceClockTick, hpower, hphase, beatAcc_stepped, ne_eq, not_true_eq_false, if_false]

/-- The reference clock that counts fails (R377): the other one counts, and the failure shows. -/
theorem refclkFail_effects {s : State} {c : Nat} (hc : c < 2) (hnow : s.getF aTimStatus F.timStatus_refclk = c)
    (hfail : s.getF aTimStatus F.timStatus_refclkFail < 4) :
    CompletesWith (execRefclkFail c s) fun t =>
      t.getF aTimStatus F.timStatus_refclk = 1 - c ∧ (t.getF aTimStatus F.timStatus_refclkFail).testBit c = true ∧
      t.beatAcc = s.beatAcc ∧ s.sameIslands t ∧ s.sameMemory t := by
  let l := [(F.timStatus_refclk, 1 - c), (F.timStatus_refclkFail, s.getF aTimStatus F.timStatus_refclkFail ||| 2 ^ c)]
  let s1 := s.setFs aTimStatus l
  have hnodup : (l.map fun p => p.1.lo).Nodup := by simp [l, F.timStatus_refclk, F.timStatus_refclkFail]
  have hshow : ∀ f v, (f, v) ∈ l → f.lo < 64 → (s1.event 5 0x40 0 0 c).getF aTimStatus f = v % 2 ^ f.width := fun f v hmem hlo =>
    (s1.getF_event 5 0x40 0 0 c (by decide : logReg aTimStatus = false) hlo).trans (State.getF_setFs_mem hnodup hmem s)
  have hbare : (s1.event 5 0x40 0 0 c).bare = s.bare := by simp [s1]
  refine ⟨s1.event 5 0x40 0 0 c, by simp only [execRefclkFail, if_pos hc, if_pos hnow, s1, l], ?_, ?_,
    State.of_bare State.beatAcc (fun _ => rfl) hbare, State.sameIslands_of_bare hbare, State.sameMemory_of_bare hbare⟩
  · rw [hshow F.timStatus_refclk (1 - c) (by simp [l]) (by decide)]
    exact Nat.mod_eq_of_lt (by simp [F.timStatus_refclk])
  · rw [hshow F.timStatus_refclkFail (s.getF aTimStatus F.timStatus_refclkFail ||| 2 ^ c) (by simp [l]) (by decide),
      Nat.testBit_mod_two_pow, Nat.testBit_or, Nat.testBit_two_pow_self, Bool.or_true, Bool.and_true]
    exact decide_eq_true hc

/-! ### Timed launches -/

theorem launchArm_refused {s : State} {p e : Nat} {v : Word} (hp : p < numPorts) (he : e < 4)
    (harmed : s.getF (aTimTlqCtl p e) F.timTlqCtl_arm ≠ 0) (hv : v.getLsbD 16 = true) :
    execTlqArm p e v s = .next (s.busDone true) := by
  have hflag : s.flag (aTimTlqCtl p e) F.timTlqCtl_arm = true := decide_eq_true harmed
  simp only [execTlqArm, if_pos (And.intro hp he), hflag, hv, and_self, if_true]

/-- What a write to an entry's control register sets (R385). -/
def launchFields (v : Nat) : List (Fld × Nat) :=
  [(F.timTlqCtl_dest, v), (F.timTlqCtl_bcast, v / 2 ^ 14), (F.timTlqCtl_local, v / 2 ^ 15), (F.timTlqCtl_arm, v / 2 ^ 16)]

theorem nodup_launchFields (v : Nat) : ((launchFields v).map fun p => p.1.lo).Nodup := by
  simp [launchFields, F.timTlqCtl_dest, F.timTlqCtl_bcast, F.timTlqCtl_local, F.timTlqCtl_arm]

theorem launchArm_taken {s : State} {p e : Nat} {v : Word} (hp : p < numPorts) (he : e < 4)
    (h : s.getF (aTimTlqCtl p e) F.timTlqCtl_arm = 0 ∨ v.getLsbD 16 = false) :
    let t := s.setFs (aTimTlqCtl p e) (launchFields v.toNat)
    execTlqArm p e v s = .next ((if v.getLsbD 16 then t.setF (aTimTlqCtl p e) F.timTlqCtl_sent 0 else t).busDone false) := by
  have hfree : ¬(s.flag (aTimTlqCtl p e) F.timTlqCtl_arm = true ∧ v.getLsbD 16 = true) := by
    rintro ⟨hflag, hv⟩
    rcases h with h | h
    · exact of_decide_eq_true hflag h
    · exact absurd (h.symm.trans hv) (by decide)
  simp only [execTlqArm, if_pos (And.intro hp he), if_neg hfree, launchFields]

/-- An entry written (R385): its fields from the word, its sent mark cleared when it is armed. -/
theorem launchArm_effects {s : State} {p e : Nat} {v : Word} (hp : p < numPorts) (he : e < 4)
    (h : s.getF (aTimTlqCtl p e) F.timTlqCtl_arm = 0 ∨ v.getLsbD 16 = false) :
    let a := aTimTlqCtl p e
    CompletesWith (execTlqArm p e v s) fun t =>
      (∀ f x, (f, x) ∈ launchFields v.toNat → t.getF a f = x % 2 ^ f.width) ∧
      (v.getLsbD 16 = true → t.getF a F.timTlqCtl_sent = 0) ∧ t.bus.err = false ∧
      s.regsBut t [(a, F.timTlqCtl_dest), (a, F.timTlqCtl_bcast), (a, F.timTlqCtl_local), (a, F.timTlqCtl_arm), (a, F.timTlqCtl_sent)] ∧
      t.bare = s.bare := by
  intro a
  let l := [(a, F.timTlqCtl_dest), (a, F.timTlqCtl_bcast), (a, F.timTlqCtl_local), (a, F.timTlqCtl_arm), (a, F.timTlqCtl_sent)]
  let s1 := s.setFs a (launchFields v.toNat)
  have hwritten : ∀ f x, (f, x) ∈ launchFields v.toNat → s1.getF a f = x % 2 ^ f.width := fun f x hmem =>
    State.getF_setFs_mem (nodup_launchFields v.toNat) hmem s
  have hregs : s.regsBut s1 l := (s.regsBut_refl l).setFs a (by simp [launchFields, l])
  have hbare : s1.bare = s.bare := by simp [s1]
  have hapart : ∀ f x, (f, x) ∈ launchFields v.toNat → f.lo ≠ F.timTlqCtl_sent.lo := by
    simp only [launchFields, List.mem_cons, Prod.mk.injEq, List.not_mem_nil, or_false]
    rintro f x (⟨rfl, -⟩ | ⟨rfl, -⟩ | ⟨rfl, -⟩ | ⟨rfl, -⟩) <;> decide
  refine ⟨_, launchArm_taken hp he h, ?_⟩
  cases v.getLsbD 16 with
  | false => exact ⟨hwritten, fun h => absurd h (by decide), rfl, hregs, hbare⟩
  | true =>
    have hsent : s.regsBut (s1.setF a F.timTlqCtl_sent 0) l := hregs.setF (by simp [l]) 0
    refine ⟨fun f x hmem => ?_, fun _ => s1.getF_setF_same a F.timTlqCtl_sent 0, rfl, hsent, hbare⟩
    exact (s1.getF_setF_beside a F.timTlqCtl_sent f 0 (hapart f x hmem)).trans (hwritten f x hmem)

/-- A word with fields below 2^34 beside a message above 2^128. -/
theorem flitMessages_ctlFlit {c : Ctl} (hdest : c.dest < 2 ^ 14) (hsource : c.source < 2 ^ 14) (f : Flit)
    (hf : f.payload = (ctlFlit c [c.msg]).payload) :
    flitMessages f = [
      { dest := c.dest, bcast := c.bcast, local_ := c.local_, msg := c.msg
        source := if bcastKinds.contains (msgBits c.msg 0 8) ∨ msgBits c.msg 0 8 = 0x27 then msgBits c.msg 8 14 else c.source }] := by
  let word := c.dest + (if c.bcast then 2 ^ 14 else 0) + (if c.local_ then 2 ^ 15 else 0) + c.source * 2 ^ 16 + 2 ^ 30
  have hflags : (if c.bcast then 2 ^ 14 else 0) = c.bcast.toNat * 2 ^ 14 ∧ (if c.local_ then 2 ^ 15 else 0) = c.local_.toNat * 2 ^ 15 := by
    cases c.bcast <;> cases c.local_ <;> exact ⟨rfl, rfl⟩
  have hbcast := c.bcast.toNat_le
  have hlocal := c.local_.toNat_le
  have hmsg := c.msg.isLt
  have hword : word = c.dest + c.bcast.toNat * 2 ^ 14 + c.local_.toNat * 2 ^ 15 + c.source * 2 ^ 16 + 2 ^ 30 := by
    simp only [word, hflags.1, hflags.2]
  have hpayload : f.payload.toNat = word + c.msg.toNat * 2 ^ 128 := by
    rw [hf, ctlFlit, payload_flitOf, BitVec.toNat_ofNat]
    simp only [List.zipIdx_cons, List.zipIdx_nil, List.map_cons, List.map_nil, List.sum_cons, List.sum_nil, List.length_cons, List.length_nil]
    refine Nat.mod_eq_of_lt ?_ |>.trans ?_ <;> simp only [hflags.1, hflags.2, hword] <;> omega
  have hone : bitsAt f.payload.toNat 30 4 = 1 := by rw [hpayload, hword, bitsAt]; omega
  have hlow : f.payload.toNat % 2 ^ 128 = word := by rw [hpayload, hword]; omega
  have hhigh : f.payload.toNat / 2 ^ (128 * (0 + 1)) = c.msg.toNat := by rw [hpayload, hword]; omega
  simp only [flitMessages, hone, List.range_one, List.map_cons, List.map_nil, hlow, hhigh, BitVec.ofNat_toNat, BitVec.setWidth_eq, ctlOf]
  have hd : bitsAt word 0 14 = c.dest := by rw [hword, bitsAt]; omega
  have hs : bitsAt word 16 14 = c.source := by rw [hword, bitsAt]; omega
  have hb : word.testBit 14 = c.bcast := by
    rw [Nat.testBit_eq_decide_div_mod_eq, hword]
    cases c.bcast <;> simp <;> omega
  have hl : word.testBit 15 = c.local_ := by
    rw [Nat.testBit_eq_decide_div_mod_eq, hword]
    cases c.local_ <;> simp <;> omega
  rw [hd, hs, hb, hl]

theorem tlqCtl_ne_port {p e : Nat} (hp : p < numPorts) (he : e < 4) (q : Nat) (hq : q < 64) :
    aTimTlqCtl p e ≠ aCrpLqState p q ∧ aTimTlqCtl p e ≠ aCrpLate p ∧ aTimTlqCtl p e ≠ aLnkInjCtl p ∧ aTimTlqCtl p e ≠ aLnkReplay p ∧
      aTimTlqMsg0 p e ≠ aCrpLqState p q ∧ aTimTlqMsg0 p e ≠ aCrpLate p ∧ aTimTlqMsg1 p e ≠ aCrpLqState p q ∧
      aTimTlqMsg1 p e ≠ aCrpLate p := by
  simp only [numPorts, maxPorts] at hp
  simp only [aTimTlqCtl, aTimTlqMsg0, aTimTlqMsg1, aCrpLqState, aCrpLate, aLnkInjCtl, aLnkReplay, prtBase, timBase]
  omega

/-- The control message of an armed entry (R393). -/
def State.timedCtl (s : State) (p e : Nat) : Ctl :=
  { dest := s.getF (aTimTlqCtl p e) F.timTlqCtl_dest, bcast := s.flag (aTimTlqCtl p e) F.timTlqCtl_bcast
    local_ := s.flag (aTimTlqCtl p e) F.timTlqCtl_local, source := s.self
    msg := BitVec.ofNat 128
      (s.getF (aTimTlqMsg0 p e) F.timTlqMsg0_value + s.getF (aTimTlqMsg1 p e) F.timTlqMsg1_value * 2 ^ 64) }

theorem State.timedCtl_plan {s t : State} {p e : Nat} (hp : p < numPorts) (he : e < 4) {slot : Nat} (h : PlanKeeps
    (s.takeSlot p slot) t p) :
    t.timedCtl p e = s.timedCtl p e := by
  have hctl : ∀ f : Fld, f.lo < 64 → t.getF (aTimTlqCtl p e) f = s.getF (aTimTlqCtl p e) f := fun f hf =>
    h.regs _ f (fun q hq => (tlqCtl_ne_port hp he q hq).1) (tlqCtl_ne_port hp he 0 (by decide)).2.1 hf
  have hmsg0 : t.getF (aTimTlqMsg0 p e) F.timTlqMsg0_value = s.getF (aTimTlqMsg0 p e) F.timTlqMsg0_value := by
    refine h.regs _ _ (fun q hq => ?_) ?_ (by decide)
    · obtain ⟨-, -, -, -, hne, -⟩ := tlqCtl_ne_port hp he q hq
      exact hne
    · obtain ⟨-, -, -, -, -, hne, -⟩ := tlqCtl_ne_port hp he 0 (by decide)
      exact hne
  have hmsg1 : t.getF (aTimTlqMsg1 p e) F.timTlqMsg1_value = s.getF (aTimTlqMsg1 p e) F.timTlqMsg1_value := by
    refine h.regs _ _ (fun q hq => ?_) ?_ (by decide)
    · obtain ⟨-, -, -, -, -, -, hne, -⟩ := tlqCtl_ne_port hp he q hq
      exact hne
    · obtain ⟨-, -, -, -, -, -, -, hne⟩ := tlqCtl_ne_port hp he 0 (by decide)
      exact hne
  have hself : t.self = s.self := State.of_offPorts State.self (fun _ => rfl) h.rest
  simp only [State.timedCtl, State.flag, hctl _ (by decide : F.timTlqCtl_dest.lo < 64), hctl _ (by decide : F.timTlqCtl_bcast.lo < 64),
    hctl _ (by decide : F.timTlqCtl_local.lo < 64), hmsg0, hmsg1, hself]

/-- An entry sent in a slot (R393): disarmed, marked as sent, and its message in a new flit. -/
theorem State.timedSend_effects (s : State) {p e : Nat} (hp : p < numPorts) (he : e < 4) :
    (s.timedSend p e).getF (aTimTlqCtl p e) F.timTlqCtl_arm = 0 ∧ (s.timedSend p e).getF (aTimTlqCtl p e) F.timTlqCtl_sent = 1 ∧
      (s.timedSend p e).sides p = { s.sides p with
        next := ((s.port p).next + 1) % 4096
        buf := (s.port p).buf ++ [(ctlFlit (s.timedCtl p e) [(s.timedCtl p e).msg]).numbered (s.port p).next] } ∧
      (s.timedSend p e).offPorts = s.offPorts := by
  let l := [(F.timTlqCtl_arm, 0), (F.timTlqCtl_sent, 1), (F.timTlqCtl_lateSlots, min (s.slotAt s.beat - s.slotAt (s.tlqBeat p e)).toNat 4095)]
  let s1 := s.setFs (aTimTlqCtl p e) l
  obtain ⟨hside, -, hrest, hregs⟩ := s1.sendNew_effects p (ctlFlit (s.timedCtl p e) [(s.timedCtl p e).msg])
  obtain ⟨-, -, hinj, hreplay, -⟩ := tlqCtl_ne_port hp he 0 (by decide)
  have hnodup : (l.map fun p => p.1.lo).Nodup := by simp [l, F.timTlqCtl_arm, F.timTlqCtl_sent, F.timTlqCtl_lateSlots]
  have hsides : s1.sides = s.sides := State.foldl_frame State.sides l (fun s (v : Fld × Nat) => s.sides_setF _ v.1 v.2) s
  have hport : s1.port = s.port := State.foldl_frame State.port l (fun s (v : Fld × Nat) => rfl) s
  refine ⟨(hregs _ _ hinj hreplay (by decide)).trans (State.getF_setFs_mem hnodup (v := 0) (by simp [l]) s),
    (hregs _ _ hinj hreplay (by decide)).trans (State.getF_setFs_mem hnodup (v := 1) (by simp [l]) s), ?_,
    hrest.trans (s.offPorts_setFs (aTimTlqCtl p e) l)⟩
  rw [hsides, hport] at hside
  exact hside

/-- A timed launch takes its slot (R393). -/
theorem timedLaunch_effects {s : State} {p e slot : Nat} (hp : p < numPorts) (he : e < 4) (huse : (s.slotPlan p slot).2 = .timed e) :
    CompletesWith (execTimedLaunch p e slot s) fun t =>
      t.getF (aTimTlqCtl p e) F.timTlqCtl_arm = 0 ∧ t.getF (aTimTlqCtl p e) F.timTlqCtl_sent = 1 ∧
      (t.port p).used = some (s.evenSlot p slot) ∧ (t.port p).next = ((s.port p).next + 1) % 4096 ∧
      (t.port p).buf = (s.port p).buf ++ [(ctlFlit (s.timedCtl p e) [(s.timedCtl p e).msg]).numbered (s.port p).next] ∧
      t.offPorts = s.offPorts := by
  have hfresh : (s.port p).used ≠ some (s.evenSlot p slot) := by
    intro hused
    simp only [State.slotPlan, if_pos hused] at huse
    exact absurd huse (by simp)
  have hplan := State.slotPlan_keeps hfresh
  let t := (s.slotPlan p slot).1
  obtain ⟨harm, hsent, hside, hrest⟩ := t.timedSend_effects hp he
  have htake : (s.takeSlot p slot).sides p = { s.sides p with used := some (s.evenSlot p slot) } := by
    rw [State.takeSlot, State.sides_setPort, if_pos rfl]
    rfl
  have hnext : (t.port p).next = (s.port p).next := hplan.next.trans (congrArg LaunchSide.next htake)
  have hbuf : (t.port p).buf = (s.port p).buf := hplan.buf.trans (congrArg LaunchSide.buf htake)
  have hused : (t.port p).used = some (s.evenSlot p slot) := hplan.used.trans (congrArg LaunchSide.used htake)
  rw [hnext, hbuf, State.timedCtl_plan hp he hplan] at hside
  refine ⟨t.timedSend p e, ?_, harm, hsent, (congrArg LaunchSide.used hside).trans hused, congrArg LaunchSide.next hside,
    congrArg LaunchSide.buf hside, hrest.trans hplan.rest⟩
  simp only [execTimedLaunch, if_pos (And.intro hp he), huse, if_true, State.slotLaunch]
  rfl

end Sys2Proof.Machine

open Sys2Proof Sys2Proof.Machine

/-- Settles O26, clause by clause: register writes through the rules of `setF` and `setFs`, timed launches through what a slot's plan keeps
and what a new flit brings. -/
theorem beatCounterAndTimedLaunches : Obligations.BeatCounterAndTimedLaunches := by
  unfold Obligations.BeatCounterAndTimedLaunches
  refine ⟨fun s v => ?_, fun s p e hp he => ?_⟩
  · intro incr
    refine ⟨fun hmin hmax => ?_, incrementWrite_refused, fun hadm => ?_, fun hadm => ?_, ?_, fun hpower => ?_,
      fun c hc hnow hfail => refclkFail_effects hc hnow hfail, fun hroot => ?_⟩
    · refine ⟨_, incrementWrite_taken hmin hmax, ?_, rfl, (s.regsBut_refl _).setF List.mem_cons_self _, ⟨rfl, rfl, rfl⟩, ⟨rfl, rfl, rfl⟩, rfl⟩
      exact (s.getF_setF_same aTimIncr F.timIncr_incr incr).trans (Nat.mod_eq_of_lt (Nat.mod_lt _ (by decide)))
    · show execTimPhaseWrite v s = _
      simp only [execTimPhaseWrite, hadm, if_true]
    · show execTimPhaseWrite v s = _
      simp only [execTimPhaseWrite, hadm, Bool.false_eq_true, if_false]
      rfl
    · obtain ⟨hbeat, -, -, hisl, hmem⟩ := s.armTrigger_effects v.toNat
      obtain ⟨harmed, hlate, hregs⟩ := s.armTrigger_registers v.toNat
      rw [BitVec.ofNat_toNat, BitVec.setWidth_eq] at hlate
      exact ⟨_, rfl, hbeat.trans (Nat.mod_eq_of_lt v.isLt), harmed, hlate, hregs, rfl, hisl, hmem⟩
    · intro acc
      refine ⟨fun hphase => tick_unstepped hpower hphase, fun hphase => ?_⟩
      exact ⟨_, tick_stepped hpower hphase, rfl, rfl, State.getF_bump_same .., (s.regsBut_refl _).bump List.mem_cons_self 1, ⟨rfl, rfl, rfl⟩,
        rfl, rfl, rfl⟩
    · have hflag : s.flag aTimStatus F.timStatus_root = true := decide_eq_true hroot
      refine ⟨s.setF aTimStatus F.timStatus_holdover 1, ?_, s.getF_setF_same .., (s.regsBut_refl _).setF List.mem_cons_self _,
        ⟨rfl, rfl, rfl⟩, rfl, rfl, rfl⟩
      show execHoldoverTimeout s = _
      simp only [execHoldoverTimeout, hflag, if_true]
  · intro a
    refine ⟨fun v => ⟨fun h => ?_, fun harmed hv => launchArm_refused hp he harmed hv⟩, fun slot huse hnext hself hdest => ?_⟩
    · obtain ⟨t, hrun, hwritten, hsent, herr, hregs, hbare⟩ := launchArm_effects hp he h
      have hbit : ∀ k, v.toNat / 2 ^ k % 2 ^ 1 = (v.getLsbD k).toNat := fun k => by
        rw [BitVec.getLsbD, Nat.testBit_eq_decide_div_mod_eq, Nat.pow_one]
        rcases Nat.mod_two_eq_zero_or_one (v.toNat / 2 ^ k) with h | h <;> simp [h]
      exact ⟨t, hrun, hwritten F.timTlqCtl_dest v.toNat (by simp [launchFields]),
        (hwritten F.timTlqCtl_bcast (v.toNat / 2 ^ 14) (by simp [launchFields])).trans (hbit 14),
        (hwritten F.timTlqCtl_local (v.toNat / 2 ^ 15) (by simp [launchFields])).trans (hbit 15),
        (hwritten F.timTlqCtl_arm (v.toNat / 2 ^ 16) (by simp [launchFields])).trans (hbit 16), hsent, herr, hregs,
        State.sameIslands_of_bare hbare, State.sameMemory_of_bare hbare⟩
    · intro m
      obtain ⟨t, hrun, harm, hsent, hused, hnum, hbuf, hrest⟩ := timedLaunch_effects hp he huse
      have hislands : s.sameIslands t := ⟨State.of_offPorts State.cores (fun _ => rfl) hrest,
        State.of_offPorts State.clusters (fun _ => rfl) hrest, State.of_offPorts State.islands (fun _ => rfl) hrest⟩
      have hmemory : s.sameMemory t := ⟨State.of_offPorts State.mem (fun _ => rfl) hrest,
        State.of_offPorts State.tags (fun _ => rfl) hrest, State.of_offPorts State.bad (fun _ => rfl) hrest⟩
      refine ⟨t, hrun, harm, hsent, hused, hnum, ⟨_, hbuf, ?_, Flit.seq_numbered _ hnext, ?_⟩, hislands, hmemory⟩
      · rw [Flit.kind_numbered _ hnext, ctlFlit, kind_flitOf (by decide)]
        rfl
      · exact flitMessages_ctlFlit (c := s.timedCtl p e) hdest hself _ rfl
end

section
/-! Launch queue entries, slot launches, owed claims and relays (R273, R277, R278, R287, R291, R292). -/

namespace Sys2Proof.Machine

/-! ### What a slot's traffic leaves alone -/

/-- A state without its registers, its ports, its messages and the digests of what it launched. -/
def State.offTraffic (s : State) : State :=
  { s with regs := [], ports := [], fab := { s.fab with launches := [], digests := [] }, ctl := { s.ctl with queue := [] } }

theorem State.of_offTraffic {β : Type} (g : State → β) (hg : ∀ s, g s.offTraffic = g s) {s t : State} (h : t.offTraffic = s.offTraffic) :
    g t = g s := by
  rw [← hg t, h, hg]

theorem State.offTraffic_of_offPorts {s t : State} (h : t.offPorts = s.offPorts) : t.offTraffic = s.offTraffic :=
  State.of_offPorts State.offTraffic (fun _ => rfl) h

theorem State.sameIslands_of_offTraffic {s t : State} (h : t.offTraffic = s.offTraffic) : s.sameIslands t :=
  ⟨State.of_offTraffic State.cores (fun _ => rfl) h, State.of_offTraffic State.clusters (fun _ => rfl) h,
    State.of_offTraffic State.islands (fun _ => rfl) h⟩

theorem State.sameMemory_of_offTraffic {s t : State} (h : t.offTraffic = s.offTraffic) : s.sameMemory t :=
  ⟨State.of_offTraffic State.mem (fun _ => rfl) h, State.of_offTraffic State.tags (fun _ => rfl) h,
    State.of_offTraffic State.bad (fun _ => rfl) h⟩

/-- What traffic of port `p` on behalf of anything but its launch queue `q` leaves alone. -/
structure Spares (p q : Nat) (s t : State) : Prop where
  owed : t.owed p q = s.owed p q
  used : (t.port p).used = (s.port p).used
  rest : t.offTraffic = s.offTraffic

namespace Spares

variable {p q : Nat} {s t v : State}

theorem refl (s : State) : Spares p q s s := ⟨rfl, rfl, rfl⟩

theorem trans (h : Spares p q s t) (k : Spares p q t v) : Spares p q s v :=
  ⟨k.owed.trans h.owed, k.used.trans h.used, k.rest.trans h.rest⟩

theorem setPort (s : State) {x : Port} (h : x.used = (s.port p).used) : Spares p q s (s.setPort p x) :=
  ⟨rfl, by rw [State.port_setPort, if_pos rfl, h], rfl⟩

theorem setF (s : State) {a : Nat} (f : Fld) (v : Nat) (ha : aCrpLqState p q ≠ a) (hf : f.lo < 64) : Spares p q s (s.setF a f v) :=
  ⟨s.getF_setF_apart f _ v ha hf (by decide), rfl, rfl⟩

theorem bump (s : State) {a : Nat} (f : Fld) (n : Nat) (ha : aCrpLqState p q ≠ a) (hf : f.lo < 64) : Spares p q s (s.bump a f n) :=
  setF s f _ ha hf

end Spares

/-- The registers of a port's queue lie apart from those of its link, its other queues and its late counts. -/
theorem lqState_apart (p : Nat) {q : Nat} (hq : q < 64) :
    aCrpLqState p q ≠ aLnkInjCtl p ∧ aCrpLqState p q ≠ aLnkReplay p ∧ aCrpLqState p q ≠ aCrpLate p ∧
      ∀ k, k ≠ q → aCrpLqState p q ≠ aCrpLqState p k := by
  simp only [aCrpLqState, aCrpLate, aLnkInjCtl, aLnkReplay, prtBase]
  refine ⟨by omega, by omega, by omega, fun k hk => by omega⟩

section
variable {p q : Nat} (hq : q < 64) (s : State)
include hq

theorem spares_transmit (f : Flit) : Spares p q s (s.transmit p f) where
  owed := s.getF_transmit p f (lqState_apart p hq).1 (by decide)
  used := congrArg LaunchSide.used (congrFun (s.sides_transmit p f) p)
  rest := State.offTraffic_of_offPorts (s.offPorts_transmit p f)

theorem spares_sendNew (f : Flit) : Spares p q s (s.sendNew p f) where
  owed := s.getF_sendNew p f (lqState_apart p hq).1 (lqState_apart p hq).2.1 (by decide)
  used := congrArg LaunchSide.used (s.sendNew_effects p f).1
  rest := State.offTraffic_of_offPorts (s.offPorts_sendNew p f)

theorem spares_sendReplay : Spares p q s (s.sendReplay p) := by
  simp only [State.sendReplay]
  split
  · exact .refl s
  · have hport := fun l => Spares.setPort (q := q) s (x := { s.port p with replay := l }) rfl
    split
    · exact (hport _).trans (spares_transmit hq _ _)
    · exact hport _

theorem spares_sendRelay (slot : Nat) (r : Relay) (late : Bool) : Spares p q s (s.sendRelay p slot r late) := by
  have hport := Spares.setPort (q := q) s (x := { s.port p with relays := (s.port p).relays.erase r }) rfl
  simp only [State.sendRelay]
  split
  · exact (hport.trans (.bump _ F.crpLate_relays 1 (lqState_apart p hq).2.2.1 (by decide))).trans (spares_sendNew hq _ _)
  · exact hport.trans (spares_sendNew hq _ _)

theorem spares_sendCtl : Spares p q s (s.sendCtl p) := by
  simp only [State.sendCtl]
  split
  · exact .refl s
  · refine Spares.trans ?_ (spares_sendNew hq _ _)
    exact ⟨rfl, rfl, rfl⟩

theorem spares_sendVcFlit (v : Nat) : Spares p q s (s.sendVcFlit p v) := by
  simp only [State.sendVcFlit]
  split
  · exact .refl s
  · refine Spares.trans ?_ (spares_sendNew hq _ _)
    exact Spares.setPort s rfl

theorem spares_sendVc (v : Nat) : Spares p q s (s.sendVc p v) := by
  have hidle : ∀ t : State, Spares p q t (t.sendIdle p) := fun t => spares_transmit hq t _
  have hback : ∀ (t : State) f, Spares p q t (t.holdBack p v f) := by
    intro t f
    refine Spares.trans ?_ (.bump _ F.lnkInjCtl_injected 1 (lqState_apart p hq).1 (by decide))
    exact Spares.setPort t rfl
  simp only [State.sendVc]
  split
  · exact spares_sendVcFlit hq s v
  · rename_i f _
    refine (hback s f).trans ?_
    split
    · split
      · exact hidle _
      · exact spares_sendVcFlit hq _ _
    · exact hidle _

theorem spares_timedSend (e : Nat) (he : e < 4) (hp : p < numPorts) : Spares p q s (s.timedSend p e) := by
  have hne : aCrpLqState p q ≠ aTimTlqCtl p e := fun h => (tlqCtl_ne_port hp he q hq).1 h.symm
  simp only [State.timedSend]
  refine Spares.trans ⟨State.getF_setFs_apart hne (by simp [F.timTlqCtl_arm, F.timTlqCtl_sent, F.timTlqCtl_lateSlots]) (by decide) s, ?_, ?_⟩
    (spares_sendNew hq _ _)
  · rfl
  · rfl

end

/-- A launch counts in the digest of its step and nowhere else. -/
theorem State.digestLaunch_eq (s : State) (stream : Nat) (prov : BitVec 2) (payload : BitVec 2048) :
    ∃ l d, s.digestLaunch stream prov payload = { s with fab := { s.fab with launches := l, digests := d } } := by
  simp only [State.digestLaunch]
  split
  · exact ⟨_, _, rfl⟩
  · exact ⟨_, _, rfl⟩

theorem spares_launchHead {p q : Nat} (hq : q < 64) (s : State) {k : Nat} (hk : k ≠ q) (slot : Nat) (late last : Bool) :
    Spares p q s (s.launchHead p k slot late last) := by
  obtain ⟨-, -, hlate, hother⟩ := lqState_apart p hq
  have hsetLq : ∀ (t : State) l, Spares p q t (t.setLq p k l) := by
    intro t l
    refine Spares.trans ?_ (.setF _ F.crpLqState_occupancy _ (hother k hk) (by decide))
    exact Spares.setPort t rfl
  have hdigest : ∀ (t : State) stream prov payload, Spares p q t (t.digestLaunch stream prov payload) := by
    intro t stream prov payload
    obtain ⟨l, d, h⟩ := t.digestLaunch_eq stream prov payload
    rw [h]
    exact ⟨rfl, rfl, rfl⟩
  unfold State.launchHead
  split
  · exact .refl s
  · extract_lets l s1 ends ends2 closes crc l1 s2 s3
    have h1 : Spares p q s s1 := by
      simp only [s1]
      split
      · exact (Spares.setF s F.crpLqState_owed _ (hother k hk) (by decide)).trans (.bump _ F.crpLate_launches 1 hlate (by decide))
      · exact .refl s
    have h2 : Spares p q s1 s2 := (hsetLq s1 l1).trans (.setF _ F.crpLqState_launched _ (hother k hk) (by decide))
    have h3 : Spares p q s s3 := h1.trans (h2.trans (hdigest s2 _ _ _))
    split
    · exact h3
    · exact h3.trans (spares_sendNew hq s3 _)

theorem spares_carryHead {p q : Nat} (hq : q < 64) (s : State) {k : Nat} (hk : k ≠ q) (slot : Nat) (late last : Bool) :
    Spares p q s (s.carryHead p k slot late last) := by
  have hlaunch := spares_launchHead (p := p) hq s hk slot late last
  simp only [State.carryHead]
  split
  · exact hlaunch.trans (spares_transmit hq _ _)
  · exact hlaunch

/-- What a free slot carries, and that is no launch of a queue without a flit. -/
theorem State.freeUse_cases (s : State) (p slot : Nat) :
    s.freeUse p slot ∈ [SlotUse.replay, .idle, .ctl] ∨ (∃ q, s.freeUse p slot = .lateHead q ∧ (s.lqHead p q).isSome = true) ∨
      (∃ r, s.freeUse p slot = .relay r true) ∨ (∃ e, s.freeUse p slot = .timed e ∧ e < 4) ∨ (∃ h, s.freeUse p slot = .held h) ∨
      ∃ v, s.freeUse p slot = .vc v := by
  simp only [State.freeUse]
  split
  · simp
  split
  · simp
  split
  · simp
  split
  · rename_i q hlate
    simp only [State.lateQueue] at hlate
    split at hlate
    · cases hlate
    · have hhead := List.find?_some hlate
      rw [Bool.and_eq_true] at hhead
      exact .inr (.inl ⟨_, rfl, hhead.2⟩)
  · exact .inr (.inr (.inl ⟨_, rfl⟩))
  · rename_i e htlq
    exact .inr (.inr (.inr (.inl ⟨_, rfl, List.mem_range.mp (List.mem_of_find?_eq_some htlq)⟩)))
  · split
    · simp
    split
    · simp
    split
    · exact .inr (.inr (.inr (.inr (.inl ⟨_, rfl⟩))))
    · exact .inr (.inr (.inr (.inr (.inr ⟨_, rfl⟩))))
    · simp

/-- A slot whose claim finds nothing carries something else or nothing; the queue's count stays as it is. -/
theorem spares_rest {p q : Nat} (hp : p < numPorts) (hq : q < 64) (s : State) (hhead : s.lqHead p q = none) (slot slot' : Nat) :
    Spares p q s (s.carry p slot (s.restUse p slot')) := by
  have hidle : Spares p q s (s.sendIdle p) := spares_transmit hq s _
  simp only [State.restUse]
  split
  · exact hidle
  split
  · exact Spares.setPort s rfl
  split
  · rcases s.freeUse_cases p slot' with h | ⟨k, h, hk⟩ | ⟨r, h⟩ | ⟨e, h, he⟩ | ⟨x, h⟩ | ⟨v, h⟩
    · simp only [List.mem_cons, List.not_mem_nil, or_false] at h
      rcases h with h | h | h <;> rw [h]
      · exact spares_sendReplay hq s
      · exact hidle
      · exact spares_sendCtl hq s
    all_goals rw [h]
    · have hne : k ≠ q := fun hkq => by rw [hkq, hhead] at hk; exact absurd hk (by decide)
      exact spares_carryHead hq s hne slot true false
    · exact spares_sendRelay hq s slot r true
    · exact spares_timedSend hq s e he hp
    · refine Spares.trans ?_ (spares_sendNew hq _ _)
      exact Spares.setPort s rfl
    · exact spares_sendVc hq s v
  · exact .refl s

/-! ### A queue's entry -/

theorem execLaunchQueueEntry_taken {s : State} {n : Nat} {f : PutFlit} {l : List PutFlit} (hn : n < s.numIslands)
    (hout : (s.island n).launchOut = f :: l) (hroom : (s.lq f.port f.queue).flits.length < 4) :
    execLaunchQueueEntry ⟨n, false⟩ s = .next ((s.setIsland n { s.island n with launchOut := l }).setLq f.port f.queue
      { s.lq f.port f.queue with flits := (s.lq f.port f.queue).flits ++
        [{ since := s.beat, stream := s.binding f.port f.queue, prov := f.prov, q0 := f.q0, q1 := f.q1, q2 := f.q2, q3 := f.q3 }] }) := by
  have hfull : ¬4 ≤ (s.lq f.port f.queue).flits.length := Nat.not_le.mpr hroom
  simp only [execLaunchQueueEntry, if_pos hn, hout, if_neg hfull]
  rfl

theorem State.lq_setLq (s : State) (p q : Nat) (l : LaunchQ) : (s.setLq p q l).lq p q = l := by
  have hport : (s.setLq p q l).port p = { s.port p with queues := Tbl.set LaunchQ.reset (s.port p).queues q l } := by
    show (s.setPort p _).port p = _
    rw [State.port_setPort, if_pos rfl]
  rw [State.lq, hport]
  exact Tbl.get_set_same ..

/-! ### What a slot is planned for -/

section
variable {s : State} {p slot0 : Nat} (hrun : s.brt.running = true) (habort : s.brt.aborted = false)
  (hused : (s.port p).used ≠ some (s.evenSlot p slot0)) (hconf : s.slotConflict p (s.evenSlot p slot0) (s.oddSlot p slot0) = false)
include hrun habort hused hconf

theorem State.slotPlan_claimed {q : Nat} (hclaims : s.claims p (s.oddSlot p slot0) = [q]) :
    s.slotPlan p slot0 =
      let s1 := s.takeSlot p slot0
      let last := decide (s.oddSlot p slot0 = s.lastClaim p q)
      let rest := fun (t : State) => (t, t.restUse p (s.evenSlot p slot0))
      if !s.fetched p q (s.evenSlot p slot0) || !(s.sending p || s.rcv.folds) then rest (s1.owe p q last)
      else if !(s.port p).canSend && !s.rcv.folds then rest ((s1.owe p q last).bump (aCrpLate p) F.crpLate_held 1)
      else (s1, .claim q (decide (0 < s.owed p q)) last) := by
  have hside := s.sides_setPort p { s.port p with used := some (s.evenSlot p slot0), heldOut := (s.port p).tickHeld.heldOut } p
  rw [if_pos rfl] at hside
  have hqueues : ((s.takeSlot p slot0).port p).queues = (s.port p).queues := congrArg LaunchSide.queues hside
  have hrelays : ((s.takeSlot p slot0).port p).relays = (s.port p).relays := congrArg LaunchSide.relays hside
  have hcl : (s.takeSlot p slot0).claims p (s.oddSlot p slot0) = [q] := hclaims
  have hcf : (s.takeSlot p slot0).slotConflict p (s.evenSlot p slot0) (s.oddSlot p slot0) = false := by
    rw [← hconf]
    simp only [State.slotConflict, State.relaysDue, hrelays]
    rfl
  have hft : (s.takeSlot p slot0).fetched p q (s.evenSlot p slot0) = s.fetched p q (s.evenSlot p slot0) := by
    simp only [State.fetched, State.lqHead, State.lq, hqueues]
    rfl
  unfold State.takeSlot at *
  simp only [State.slotPlan, if_neg hused, hrun, habort, Bool.not_false, Bool.and_self, if_true, hcf, Bool.false_eq_true, and_false,
    if_false, hcl, hft]
  rfl

theorem State.slotPlan_relayed {r : Relay} (hclaims : s.claims p (s.oddSlot p slot0) = []) (hdue : s.relaysDue p (s.evenSlot p slot0) = [r])
    (hsend : s.sending p = true) (hcarry : s.carriesSched p = true) (hcan : (s.port p).canSend = true) :
    s.slotPlan p slot0 = (s.takeSlot p slot0, .relay r false) := by
  have hside := s.sides_setPort p { s.port p with used := some (s.evenSlot p slot0), heldOut := (s.port p).tickHeld.heldOut } p
  rw [if_pos rfl] at hside
  have hrelays : ((s.takeSlot p slot0).port p).relays = (s.port p).relays := congrArg LaunchSide.relays hside
  have hcl : (s.takeSlot p slot0).claims p (s.oddSlot p slot0) = [] := hclaims
  have hcf : (s.takeSlot p slot0).slotConflict p (s.evenSlot p slot0) (s.oddSlot p slot0) = false := by
    rw [← hconf]
    simp only [State.slotConflict, State.relaysDue, hrelays]
    rfl
  have hrd : (s.takeSlot p slot0).relaysDue p (s.evenSlot p slot0) = [r] := by
    rw [← hdue]
    simp only [State.relaysDue, hrelays]
    rfl
  have hsn : (s.takeSlot p slot0).sending p = true := hsend
  have hcs : (s.takeSlot p slot0).carriesSched p = true := hcarry
  unfold State.takeSlot at *
  simp only [State.slotPlan, if_neg hused, hrun, habort, Bool.not_false, Bool.and_self, if_true, hcf, Bool.false_eq_true, and_false,
    if_false, hcl, hrd, hsn, hcs, hcan]

end

/-! ### A head flit on time, and a relay -/

/-- The fields of a scheduled flit's header (R313). -/
theorem schedHeader_fields {stream : Nat} (hk : stream < 4096) (slot : Nat) (prov : BitVec 2) (gend : Bool) (check : BitVec 32) :
    let h := schedHeader stream slot false prov gend check
    h < 2 ^ 128 ∧ bitsAt h 0 2 = 1 ∧ bitsAt h 68 12 = stream ∧ bitsAt h 80 12 = slot % 4096 ∧ bitsAt h 92 1 = 0 ∧
      bitsAt h 93 2 = prov.toNat := by
  have hprov := prov.isLt
  have hcheck := check.isLt
  have hend : (if gend then 2 ^ 95 + check.toNat * 2 ^ 96 else 0) = gend.toNat * (2 ^ 95 + check.toNat * 2 ^ 96) := by
    cases gend <;> simp
  obtain ⟨c, hc, heq⟩ : ∃ c < 2 ^ 33, gend.toNat * (2 ^ 95 + check.toNat * 2 ^ 96) = c * 2 ^ 95 := by
    cases gend
    · exact ⟨0, by decide, by simp⟩
    · exact ⟨1 + 2 * check.toNat, by omega, by simp only [Bool.toNat_true]; omega⟩
  simp only [schedHeader, hend, heq, bitsAt, Bool.false_eq_true, if_false]
  refine ⟨by omega, by omega, by omega, by omega, by omega, by omega⟩

theorem State.launchHead_sends {s : State} {p q : Nat} (slot : Nat) (last : Bool) {g : QFlit} {k : Nat}
    (hhead : s.lqHead p q = some (g, k)) (hfolds : s.rcv.folds = false) :
    ∃ (l1 : LaunchQ) (launches : Tbl Nat) (digests : Tbl (BitVec 256)) (gend : Bool) (check : BitVec 32), l1.flits = (s.lq p q).flits.tail ∧
      s.launchHead p q slot false last =
        let t := (s.setLq p q l1).wrapAdd (aCrpLqState p q) F.crpLqState_launched 1
        State.sendNew { t with fab := { t.fab with launches := launches, digests := digests } } p
          (flitOf (schedHeader k slot false g.prov gend check) g.payload.toNat) := by
  unfold State.launchHead
  split
  case h_1 hnone => rw [hhead] at hnone; cases hnone
  rename_i f stream hsome
  rw [hhead] at hsome
  cases hsome
  extract_lets l s1 ends1 ends closes crc l1 s2 s3
  obtain ⟨launches, digests, hdigest⟩ := s2.digestLaunch_eq k g.prov g.payload
  have hfolds3 : s3.rcv.folds = false := by
    simp only [s3, hdigest]
    exact hfolds
  rw [hfolds3]
  exact ⟨l1, launches, digests, closes, ~~~crc, rfl, congrArg (fun t => State.sendNew t p _) hdigest⟩

/-- A head flit launched on time (R278): it leaves its queue, counts, and is sent. -/
theorem State.carryHead_onTime {s : State} {p q : Nat} (slot : Nat) (last : Bool) {g : QFlit} {k : Nat} (hq : q < 64)
    (hhead : s.lqHead p q = some (g, k)) (hfolds : s.rcv.folds = false) :
    ∃ gend check,
      ((s.carryHead p q slot false last).lq p q).flits = (s.lq p q).flits.tail ∧
      (s.carryHead p q slot false last).getF (aCrpLqState p q) F.crpLqState_launched =
        (s.getF (aCrpLqState p q) F.crpLqState_launched + 1) % 2 ^ 32 ∧
      (s.carryHead p q slot false last).sides p = { s.sides p with
        queues := ((s.carryHead p q slot false last).sides p).queues
        next := ((s.port p).next + 1) % 4096
        buf := (s.port p).buf ++ [(flitOf (schedHeader k slot false g.prov gend check) g.payload.toNat).numbered (s.port p).next] } ∧
      (s.carryHead p q slot false last).offTraffic = s.offTraffic := by
  obtain ⟨l1, launches, digests, gend, check, hl1, heq⟩ := State.launchHead_sends slot last hhead hfolds
  let t := (s.setLq p q l1).wrapAdd (aCrpLqState p q) F.crpLqState_launched 1
  let v : State := { t with fab := { t.fab with launches := launches, digests := digests } }
  let f := flitOf (schedHeader k slot false g.prov gend check) g.payload.toNat
  obtain ⟨hside, -, hrest, hregs⟩ := v.sendNew_effects p f
  have hoff : (s.launchHead p q slot false last).offTraffic = s.offTraffic := by
    rw [heq]
    exact (State.offTraffic_of_offPorts hrest).trans rfl
  have hcarry : s.carryHead p q slot false last = v.sendNew p f := by
    have hkept : (s.launchHead p q slot false last).rcv = s.rcv := State.of_offTraffic State.rcv (fun _ => rfl) hoff
    simp only [State.carryHead, hkept, hfolds, Bool.false_and, Bool.false_eq_true, if_false]
    exact heq
  have hport : v.port p = { s.port p with queues := Tbl.set LaunchQ.reset (s.port p).queues q l1 } := by
    show (s.setPort p _).port p = _
    rw [State.port_setPort, if_pos rfl]
  have hlaunched : v.getF (aCrpLqState p q) F.crpLqState_launched = (s.getF (aCrpLqState p q) F.crpLqState_launched + 1) % 2 ^ 32 := by
    have hone : (s.setLq p q l1).getF (aCrpLqState p q) F.crpLqState_launched = s.getF (aCrpLqState p q) F.crpLqState_launched :=
      State.getF_setF_beside _ _ F.crpLqState_occupancy F.crpLqState_launched _ (by decide)
    have hadd : v.getF (aCrpLqState p q) F.crpLqState_launched =
        ((s.setLq p q l1).getF (aCrpLqState p q) F.crpLqState_launched + 1) % 2 ^ 32 := State.getF_setF_same ..
    rw [hadd, hone]
  have hsides : v.sides p = { s.sides p with queues := Tbl.set LaunchQ.reset (s.port p).queues q l1 } := congrArg Port.side hport
  rw [hcarry]
  obtain ⟨hinj, hreplay, -⟩ := lqState_apart p hq
  refine ⟨gend, check, ?_, (hregs _ _ hinj hreplay (by decide)).trans hlaunched, ?_, (congrArg State.offTraffic heq.symm).trans hoff⟩
  · have hqs : ((v.sendNew p f).port p).queues = Tbl.set LaunchQ.reset (s.port p).queues q l1 :=
      (congrArg LaunchSide.queues hside).trans (congrArg LaunchSide.queues hsides)
    rw [State.lq, hqs, Tbl.get_set_same, hl1]
  · rw [hside, hsides, hport]

/-- The header of a flit relayed in a slot (R287). -/
def relayHeader (h slot : Nat) (late : Bool) : Nat :=
  1 + bitsAt h 68 12 * 2 ^ 68 + slot % 4096 * 2 ^ 80 + (if late then 2 ^ 92 else 0) + h / 2 ^ 93 * 2 ^ 93

/-- A relayed flit's stream and its own fields stay; the slot tag is that of this slot. -/
theorem relayHeader_fields {h : Nat} (hlt : h < 2 ^ 128) (slot : Nat) :
    relayHeader h slot false < 2 ^ 128 ∧ bitsAt (relayHeader h slot false) 0 2 = 1 ∧ bitsAt (relayHeader h slot false) 68 12 = bitsAt h 68 12 ∧
      bitsAt (relayHeader h slot false) 80 12 = slot % 4096 ∧ bitsAt (relayHeader h slot false) 92 1 = 0 ∧
      bitsAt (relayHeader h slot false) 93 35 = bitsAt h 93 35 := by
  simp only [relayHeader, bitsAt, Bool.false_eq_true, if_false]
  refine ⟨by omega, by omega, by omega, by omega, by omega, by omega⟩

theorem State.sendRelay_onTime (s : State) (p slot : Nat) (r : Relay) :
    s.sendRelay p slot r false = (s.setPort p { s.port p with relays := (s.port p).relays.erase r }).sendNew p
      (flitOf (relayHeader r.flit.hdr.toNat slot false) r.flit.payload.toNat) := by
  rfl

/-! ### Slots -/

theorem State.sides_takeSlot (s : State) (p slot0 : Nat) :
    (s.takeSlot p slot0).sides p = { s.sides p with used := some (s.evenSlot p slot0) } := by
  rw [State.takeSlot, State.sides_setPort, if_pos rfl]
  rfl

theorem State.lqHead_takeSlot (s : State) (p slot0 q : Nat) : (s.takeSlot p slot0).lqHead p q = s.lqHead p q := by
  have hqueues : ((s.takeSlot p slot0).port p).queues = (s.port p).queues := congrArg LaunchSide.queues (s.sides_takeSlot p slot0)
  simp only [State.lqHead, State.lq, hqueues]
  rfl

/-- What a queue can launch does not depend on what it owes. -/
theorem State.lqHead_bump_owed (s : State) (p q : Nat) :
    (s.bump (aCrpLqState p q) F.crpLqState_owed 1).lqHead p q = s.lqHead p q := by
  have hread : ∀ a (g : Fld), g.lo ≠ F.crpLqState_owed.lo → g.lo < 64 →
      (s.bump (aCrpLqState p q) F.crpLqState_owed 1).getF a g = s.getF a g := fun a g hne hg =>
    State.getF_setF_other s _ _ _ (by simp only [fkey, F.crpLqState_owed] at hne ⊢; omega)
  have hbinding : (s.bump (aCrpLqState p q) F.crpLqState_owed 1).binding p q = s.binding p q := by
    simp only [State.binding, State.flag, hread _ F.crpConfig_lqBank (by decide) (by decide),
      hread _ F.crpLqBind_valid (by decide) (by decide), hread _ F.crpLqBind_stream (by decide) (by decide)]
    rfl
  simp only [State.lqHead, hbinding]
  rfl

theorem execSlotLaunch_eq {s t : State} {p slot0 : Nat} {u : SlotUse} (hp : p < numPorts) (hplan : s.slotPlan p slot0 = (t, u)) :
    execSlotLaunch p slot0 s = .next (t.carry p (s.evenSlot p slot0) u) := by
  have hport : hasPort p = true := decide_eq_true hp
  simp only [execSlotLaunch, hport, if_true, State.slotLaunch, hplan]

theorem execRelayLaunch_eq {s t : State} {p slot0 : Nat} {r : Relay} {late : Bool} (hp : p < numPorts)
    (hplan : s.slotPlan p slot0 = (t, .relay r late)) :
    execRelayLaunch p slot0 s = .next (t.carry p (s.evenSlot p slot0) (.relay r late)) := by
  have hport : hasPort p = true := decide_eq_true hp
  simp only [execRelayLaunch, hport, if_true, State.slotLaunch, hplan]

section
variable {s : State} {p slot0 : Nat} (hp : p < numPorts) (hrun : s.brt.running = true) (habort : s.brt.aborted = false)
  (hused : (s.port p).used ≠ some (s.evenSlot p slot0)) (hconf : s.slotConflict p (s.evenSlot p slot0) (s.oddSlot p slot0) = false)
  (hsend : s.sending p = true)
include hp hrun habort hused hconf hsend

/-- A claimed slot whose queue has its head in time carries it (R277, R278). -/
theorem slotLaunch_onTime {q : Nat} (hclaims : s.claims p (s.oddSlot p slot0) = [q]) (hnext : (s.port p).next < 4096) {g : QFlit} {k : Nat}
    (hhead : s.lqHead p q = some (g, k)) (hk : k < 4096) (hfetch : s.fetched p q (s.evenSlot p slot0) = true) (howed : s.owed p q = 0)
    (hcan : (s.port p).canSend = true) (hfolds : s.rcv.folds = false) :
    CompletesWith (execSlotLaunch p slot0 s) fun t =>
      (t.lq p q).flits = (s.lq p q).flits.tail ∧
      t.getF (aCrpLqState p q) F.crpLqState_launched = (s.getF (aCrpLqState p q) F.crpLqState_launched + 1) % 2 ^ 32 ∧
      (t.port p).next = ((s.port p).next + 1) % 4096 ∧ (t.port p).used = some (s.evenSlot p slot0) ∧
      (∃ f : Flit, (t.port p).buf = (s.port p).buf ++ [f] ∧ f.kind = 1 ∧ f.seq = (s.port p).next ∧ f.payload = g.payload ∧
        f.field 68 12 = k ∧ f.field 80 12 = s.evenSlot p slot0 % 4096 ∧ f.field 92 1 = 0 ∧ f.field 93 2 = g.prov.toNat) ∧
      s.sameIslands t ∧ s.sameMemory t := by
  have hq : q < 64 := State.lt_of_mem_claims (hclaims ▸ List.mem_cons_self)
  let last := decide (s.oddSlot p slot0 = s.lastClaim p q)
  have hplan : s.slotPlan p slot0 = (s.takeSlot p slot0, .claim q false last) := by
    rw [State.slotPlan_claimed hrun habort hused hconf hclaims]
    simp only [hfetch, hsend, hcan, howed, Bool.not_true, Bool.true_or, Bool.or_self, Bool.false_and, Bool.false_eq_true, if_false,
      Nat.lt_irrefl, decide_false, last]
  have hside := s.sides_takeSlot p slot0
  have hhead1 : (s.takeSlot p slot0).lqHead p q = some (g, k) := (s.lqHead_takeSlot p slot0 q).trans hhead
  have hflits : ((s.takeSlot p slot0).lq p q).flits = (s.lq p q).flits := by
    rw [State.lq, State.lq]
    exact congrArg (fun x : LaunchSide => (Tbl.get LaunchQ.reset x.queues q).flits) hside
  have hnum : ((s.takeSlot p slot0).port p).next = (s.port p).next := congrArg LaunchSide.next hside
  have hbuf : ((s.takeSlot p slot0).port p).buf = (s.port p).buf := congrArg LaunchSide.buf hside
  obtain ⟨gend, check, hl, hcount, hsides, hrest⟩ :=
    State.carryHead_onTime (s.evenSlot p slot0) last hq hhead1 hfolds
  obtain ⟨hlt, hkind, hstream, hslot, hlate, hprov⟩ := schedHeader_fields hk (s.evenSlot p slot0) g.prov gend check
  rw [hnum, hbuf] at hsides
  refine ⟨_, execSlotLaunch_eq hp hplan, hl.trans (congrArg List.tail hflits), hcount, congrArg LaunchSide.next hsides,
    (congrArg LaunchSide.used hsides).trans (congrArg LaunchSide.used hside),
    ⟨_, congrArg LaunchSide.buf hsides, ?_, Flit.seq_numbered _ hnext, ?_, ?_, ?_, ?_, ?_⟩,
    State.sameIslands_of_offTraffic hrest, State.sameMemory_of_offTraffic hrest⟩
  · rw [Flit.kind_numbered _ hnext, kind_flitOf hlt, hkind]
  · rw [Flit.payload_numbered, payload_flitOf, BitVec.ofNat_toNat, BitVec.setWidth_eq]
  · rw [Flit.field_numbered _ hnext 12 (by decide), field_flitOf hlt, hstream]
  · rw [Flit.field_numbered _ hnext 12 (by decide), field_flitOf hlt, hslot]
  · rw [Flit.field_numbered _ hnext 1 (by decide), field_flitOf hlt, hlate]
  · rw [Flit.field_numbered _ hnext 2 (by decide), field_flitOf hlt, hprov]

omit hsend in
/-- A claimed slot whose queue has nothing is owed (R277); the slot may carry something else. -/
theorem slotLaunch_owed {q : Nat} (hclaims : s.claims p (s.oddSlot p slot0) = [q]) (hhead : s.lqHead p q = none)
    (hlast : s.oddSlot p slot0 ≠ s.lastClaim p q) :
    CompletesWith (execSlotLaunch p slot0 s) fun t =>
      t.owed p q = raised F.crpLqState_owed (s.owed p q) 1 ∧ (t.port p).used = some (s.evenSlot p slot0) ∧ s.sameIslands t ∧
        s.sameMemory t := by
  have hq : q < 64 := State.lt_of_mem_claims (hclaims ▸ List.mem_cons_self)
  let t := (s.takeSlot p slot0).bump (aCrpLqState p q) F.crpLqState_owed 1
  have hplan : s.slotPlan p slot0 = (t, t.restUse p (s.evenSlot p slot0)) := by
    rw [State.slotPlan_claimed hrun habort hused hconf hclaims]
    simp only [State.fetched, hhead, Bool.not_false, Bool.true_or, if_true, State.owe, hlast, decide_false, Bool.false_eq_true, if_false]
    rfl
  have hnone : t.lqHead p q = none := (State.lqHead_bump_owed _ p q).trans ((s.lqHead_takeSlot p slot0 q).trans hhead)
  have hspared := spares_rest hp hq t hnone (s.evenSlot p slot0) (s.evenSlot p slot0)
  have hrest : (t.carry p (s.evenSlot p slot0) (t.restUse p (s.evenSlot p slot0))).offTraffic = s.offTraffic := hspared.rest
  refine ⟨_, execSlotLaunch_eq hp hplan, hspared.owed.trans (State.getF_bump_same ..), hspared.used.trans ?_,
    State.sameIslands_of_offTraffic hrest, State.sameMemory_of_offTraffic hrest⟩
  exact congrArg LaunchSide.used (s.sides_takeSlot p slot0)

/-- A relay due in a slot without claims leaves in it (R287). -/
theorem relayLaunch_effects {r : Relay} (hcarry : s.carriesSched p = true) (hcan : (s.port p).canSend = true)
    (hdue : s.relaysDue p (s.evenSlot p slot0) = [r]) (hclaims : s.claims p (s.oddSlot p slot0) = []) (hnext : (s.port p).next < 4096) :
    CompletesWith (execRelayLaunch p slot0 s) fun t =>
      (t.port p).relays = (s.port p).relays.erase r ∧ (t.port p).used = some (s.evenSlot p slot0) ∧
      (∃ f : Flit, (t.port p).buf = (s.port p).buf ++ [f] ∧ f.kind = 1 ∧ f.payload = r.flit.payload ∧
        f.field 68 12 = r.flit.field 68 12 ∧ f.field 80 12 = s.evenSlot p slot0 % 4096 ∧ f.field 92 1 = 0 ∧
        f.field 93 35 = r.flit.field 93 35) ∧
      s.sameIslands t ∧ s.sameMemory t := by
  have hplan := State.slotPlan_relayed hrun habort hused hconf hclaims hdue hsend hcarry hcan
  have hside := s.sides_takeSlot p slot0
  let s1 := s.takeSlot p slot0
  let s2 := s1.setPort p { s1.port p with relays := (s1.port p).relays.erase r }
  obtain ⟨hlt, hkind, hstream, hslot, hlate, hrest⟩ := relayHeader_fields r.flit.hdr.isLt (s.evenSlot p slot0)
  let f := flitOf (relayHeader r.flit.hdr.toNat (s.evenSlot p slot0) false) r.flit.payload.toNat
  obtain ⟨hsent, -, hoff, -⟩ := s2.sendNew_effects p f
  have hside2 : s2.sides p = { s.sides p with relays := (s.port p).relays.erase r, used := some (s.evenSlot p slot0) } := by
    rw [State.sides_setPort, if_pos rfl]
    have hrel : (s1.port p).relays = (s.port p).relays := congrArg LaunchSide.relays hside
    rw [hrel]
    exact congrArg (fun x : LaunchSide => { x with relays := (s.port p).relays.erase r }) hside
  have hnum : (s2.port p).next = (s.port p).next := congrArg LaunchSide.next hside2
  have hbuf : (s2.port p).buf = (s.port p).buf := congrArg LaunchSide.buf hside2
  rw [hside2, hnum, hbuf] at hsent
  have hframe : (s2.sendNew p f).offTraffic = s.offTraffic :=
    State.offTraffic_of_offPorts hoff
  have hexec : execRelayLaunch p slot0 s = .next (s2.sendNew p f) := by
    rw [execRelayLaunch_eq hp hplan]
    exact congrArg Host.Outcome.next (s1.sendRelay_onTime p (s.evenSlot p slot0) r)
  generalize s2.sendNew p f = t at *
  refine ⟨t, hexec, congrArg LaunchSide.relays hsent, congrArg LaunchSide.used hsent, ⟨_, congrArg LaunchSide.buf hsent, ?_, ?_, ?_, ?_, ?_, ?_⟩,
    State.sameIslands_of_offTraffic hframe, State.sameMemory_of_offTraffic hframe⟩
  · rw [Flit.kind_numbered _ hnext, kind_flitOf hlt, hkind]
  · rw [Flit.payload_numbered, payload_flitOf_payload]
  · rw [Flit.field_numbered _ hnext 12 (by decide), field_flitOf hlt, hstream, Flit.field]
  · rw [Flit.field_numbered _ hnext 12 (by decide), field_flitOf hlt, hslot]
  · rw [Flit.field_numbered _ hnext 1 (by decide), field_flitOf hlt, hlate]
  · rw [Flit.field_numbered _ hnext 35 (by decide), field_flitOf hlt, hrest, Flit.field]

end

end Sys2Proof.Machine

open Sys2Proof Sys2Proof.Machine

/-- Settles O30: an entry, the plan of a slot for a claim or a relay, and what the slot's traffic leaves alone. -/
theorem scheduledLaunches : Obligations.ScheduledLaunches := by
  unfold Obligations.ScheduledLaunches
  refine fun s => ⟨fun n f l hn hout hroom => ?_, ?_, ?_⟩
  · refine ⟨_, execLaunchQueueEntry_taken hn hout hroom, ?_, ?_, ?_, ?_, rfl, rfl, rfl, rfl⟩
    · rw [State.lq_setLq]
    · refine (State.getF_setF_same ..).trans ?_
      rw [List.length_append, List.length_singleton]
      exact Nat.mod_eq_of_lt (Nat.lt_of_le_of_lt hroom (by decide))
    · exact congrArg Island.launchOut (s.island_setIsland_same n { s.island n with launchOut := l })
    · exact (s.regsBut_refl _).setF List.mem_cons_self _
  · intro p q slot0 hp hrun habort hsend slot odd hused hclaims hconf hnext
    exact ⟨fun g k hhead hk hfetch howed hcan hfolds =>
      slotLaunch_onTime hp hrun habort hused hconf hsend hclaims hnext hhead hk hfetch howed hcan hfolds,
      fun hhead hlast => slotLaunch_owed hp hrun habort hused hconf hclaims hhead hlast⟩
  · intro p slot0 r hp hrun habort hsend hcarry hcan slot hused hdue hclaims hconf hnext
    exact relayLaunch_effects hp hrun habort hused hconf hsend hcarry hcan hdue hclaims hnext
end

section
/-! Power, optics, temperature and trips (R216, R517, R519, R522, R526 to R528). -/

namespace Sys2Proof.Machine

theorem State.sameIslands.trans {s t v : State} (h : s.sameIslands t) (k : t.sameIslands v) : s.sameIslands v :=
  ⟨k.1.trans h.1, k.2.1.trans h.2.1, k.2.2.trans h.2.2⟩

theorem State.sameMemory.trans {s t v : State} (h : s.sameMemory t) (k : t.sameMemory v) : s.sameMemory v :=
  ⟨k.1.trans h.1, k.2.1.trans h.2.1, k.2.2.trans h.2.2⟩

/-! ### Power -/

theorem State.getF_requestSetpoint (s : State) (code : Nat) {b : Nat} {g : Fld} (hb : b ≠ aBocSetpoint) (hg : g.lo < 64) :
    (s.requestSetpoint code).getF b g = s.getF b g :=
  (State.getF_setF_apart _ F.bocSetpoint_pending g _ hb (by decide) hg).trans
    (s.getF_setF_apart F.bocSetpoint_request g code hb (by decide) hg)

/-- A step that power control asks for (R522). -/
def State.askStep (s : State) (code : Nat) : State :=
  (s.requestSetpoint code).setF aBocPower F.bocPower_lowered (if code < s.pins.ceiling then 1 else 0)

theorem State.getF_askStep (s : State) (code : Nat) {b : Nat} {g : Fld} (hb : b ≠ aBocSetpoint)
    (hlo : g.lo ≠ F.bocPower_lowered.lo) (hg : g.lo < 64) : (s.askStep code).getF b g = s.getF b g :=
  (State.getF_setF_other _ _ _ _ (by
    simp only [fkey, F.bocPower_lowered] at hlo ⊢
    omega)).trans (s.getF_requestSetpoint code hb hg)

theorem State.bare_askStep (s : State) (code : Nat) : (s.askStep code).bare = s.bare := (s.requestSetpoint_effects code).2.2.2

/-- The seconds counted below the limit (R522). -/
def State.counting (s : State) (average limit : Nat) : State :=
  { s with pins := { s.pins with cool := if 10 * average < 9 * limit then min (s.pins.cool + 1) 10 else 0 } }

/-- Power control asks for at most one step (R522). -/
theorem State.controlPower_cases (s : State) (average limit : Nat) :
    s.controlPower average limit = s.counting average limit ∨
      ∃ code, s.controlPower average limit = (s.counting average limit).askStep code := by
  unfold State.controlPower
  extract_lets cur imin cool s1
  split
  · split
    · exact .inr ⟨_, rfl⟩
    · exact .inl rfl
  · split
    · exact .inr ⟨_, rfl⟩
    · exact .inl rfl

theorem State.controlPower_frame (s : State) (average limit : Nat) :
    (∀ b (g : Fld), b ≠ aBocSetpoint → g.lo ≠ F.bocPower_lowered.lo → g.lo < 64 → (s.controlPower average limit).getF b g = s.getF b g) ∧
      s.sameIslands (s.controlPower average limit) ∧ s.sameMemory (s.controlPower average limit) := by
  rcases s.controlPower_cases average limit with h | ⟨code, h⟩
  · rw [h]
    exact ⟨fun _ _ _ _ _ => rfl, ⟨rfl, rfl, rfl⟩, rfl, rfl, rfl⟩
  · rw [h]
    have hbare := (s.counting average limit).bare_askStep code
    exact ⟨fun b g hb hlo hg => (s.counting average limit).getF_askStep code hb hlo hg,
      State.sameIslands_of_bare (s := s.counting average limit) hbare, State.sameMemory_of_bare (s := s.counting average limit) hbare⟩

/-- Over the limit and above the image's smallest setpoint, one step down is asked for (R522). -/
theorem State.controlPower_over {s : State} {average limit : Nat} (hover : limit < average)
    (hmin : s.getF aBocSetpoint F.bocSetpoint_imageMin < s.getF aBocSetpoint F.bocSetpoint_current)
    (h1 : 1 < s.getF aBocSetpoint F.bocSetpoint_current) (h32 : s.getF aBocSetpoint F.bocSetpoint_current < 32) :
    (s.controlPower average limit).getF aBocSetpoint F.bocSetpoint_request = s.getF aBocSetpoint F.bocSetpoint_current - 1 ∧
      (s.controlPower average limit).getF aBocSetpoint F.bocSetpoint_pending = 1 := by
  let code := s.getF aBocSetpoint F.bocSetpoint_current - 1
  let t := s.counting average limit
  have heq : s.controlPower average limit = t.askStep code := by
    simp only [State.controlPower, if_pos hover, if_pos hmin]
    rfl
  obtain ⟨hrequest, hpending, -, -⟩ := t.requestSetpoint_effects code
  have hcode : code % 2 ^ F.bocSetpoint_request.width = code := Nat.mod_eq_of_lt (by simp only [F.bocSetpoint_request, code]; omega)
  have hne : aBocSetpoint ≠ aBocPower := by decide
  rw [heq]
  refine ⟨((t.requestSetpoint code).getF_setF_apart F.bocPower_lowered _ _ hne (by decide) (by decide)).trans (hrequest.trans hcode),
    ((t.requestSetpoint code).getF_setF_apart F.bocPower_lowered _ _ hne (by decide) (by decide)).trans (hpending.trans ?_)⟩
  have hzero : decide (code = 0) = false := decide_eq_false (by simp only [code]; omega)
  rw [hcode, hzero, Bool.and_false]
  rfl

/-- The measurements (R526) change the coolant's register and the input's. -/
theorem State.measure_frame (s : State) :
    (∀ b (g : Fld), b ≠ aBocCoolant → b ≠ aBocPower → g.lo < 64 → s.measure.getF b g = s.getF b g) ∧
      s.measure.brt = s.brt ∧ s.sameIslands s.measure ∧ s.sameMemory s.measure := by
  let c := (Config.coolant s.fresh).toNat
  let l := [(F.bocCoolant_inlet, c), (F.bocCoolant_outlet, c / 2 ^ 16), (F.bocCoolant_flow, c / 2 ^ 32), (F.bocCoolant_drop, c / 2 ^ 48)]
  have hl : ∀ p ∈ l, p.1.lo < 64 := by
    simp only [l, List.forall_mem_cons]
    exact ⟨by decide, by decide, by decide, by decide, fun _ h => absurd h List.not_mem_nil⟩
  refine ⟨fun b g hb hb' hg => ?_, rfl, ⟨rfl, rfl, rfl⟩, rfl, rfl, rfl⟩
  exact (State.getF_setF_apart _ F.bocPower_inputVoltage g _ hb' (by decide) hg).trans (State.getF_setFs_apart hb hl hg s)

/-- What a limit derated by the coolant is at most (R526). -/
theorem deratedLimit_le (inlet flow : Nat) :
    (inlet ≤ 350 → 2000 ≤ flow → deratedLimit inlet flow = 1250) ∧
      (350 < inlet → inlet ≤ 400 → 2000 ≤ flow → deratedLimit inlet flow = 1100) ∧
      (400 < inlet → inlet ≤ 450 → 1600 ≤ flow → deratedLimit inlet flow ≤ 900) := by
  simp only [deratedLimit]
  refine ⟨fun h1 h2 => ?_, fun h1 h2 h3 => ?_, fun h1 h2 h3 => ?_⟩
  · rw [if_neg (by omega), if_neg (Nat.not_lt.mpr h2), if_pos h1]
  · rw [if_neg (by omega), if_neg (Nat.not_lt.mpr h3), if_neg (Nat.not_le.mpr h1), if_pos h2]
  · have hbase : (if inlet ≤ 350 then 1250 else if inlet ≤ 400 then 1100 else 900) = 900 := by
      rw [if_neg (by omega), if_neg (Nat.not_le.mpr h1)]
    rw [if_neg (by omega), hbase]
    split
    · rename_i hflow
      exact Nat.div_le_of_le_mul (by omega)
    · exact Nat.le_refl 900

/-- One update of power control (R522, R526). -/
theorem powerControlUpdate_effects (s : State) (average : Nat) : ∃ t, execPowerControlUpdate average s = .next t ∧
    let limit := min (s.getF aBocPowerCfg F.bocPowerCfg_limit)
      (deratedLimit (t.getF aBocCoolant F.bocCoolant_inlet) (t.getF aBocCoolant F.bocCoolant_flow))
    t.getF aBocPower F.bocPower_inputPower = average % 2 ^ 16 ∧ t.getF aBocPower F.bocPower_limit = limit % 2 ^ 16 ∧
      (s.brt.job = false → t.getF aBocSetpoint F.bocSetpoint_request = s.getF aBocSetpoint F.bocSetpoint_request) ∧
      (s.brt.job = true → limit < average →
        s.getF aBocSetpoint F.bocSetpoint_imageMin < s.getF aBocSetpoint F.bocSetpoint_current →
        1 < s.getF aBocSetpoint F.bocSetpoint_current → s.getF aBocSetpoint F.bocSetpoint_current < 32 →
        t.getF aBocSetpoint F.bocSetpoint_request = s.getF aBocSetpoint F.bocSetpoint_current - 1 ∧
          t.getF aBocSetpoint F.bocSetpoint_pending = 1) ∧
      s.sameIslands t ∧ s.sameMemory t := by
  obtain ⟨hmeasured, hbrt, hisl, hmem⟩ := s.measure_frame
  let s1 := s.measure
  let cfg := s1.getF aBocPowerCfg F.bocPowerCfg_limit
  let der := deratedLimit (s1.getF aBocCoolant F.bocCoolant_inlet) (s1.getF aBocCoolant F.bocCoolant_flow)
  let l := [(F.bocPower_inputPower, average), (F.bocPower_limit, min cfg der), (F.bocPower_derated, if der < cfg then 1 else 0)]
  let s2 := s1.setFs aBocPower l
  let t := if s2.brt.job then s2.controlPower average (min cfg der) else s2
  have hjob : s2.brt.job = s.brt.job := congrArg BreathSt.job hbrt
  have hnodup : (l.map fun p => p.1.lo).Nodup := by simp [l, F.bocPower_inputPower, F.bocPower_limit, F.bocPower_derated]
  have hl : ∀ p ∈ l, p.1.lo < 64 := by simp [l, F.bocPower_inputPower, F.bocPower_limit, F.bocPower_derated]
  have hs2 : ∀ b (g : Fld), b ≠ aBocPower → g.lo < 64 → s2.getF b g = s1.getF b g := fun b g hb hg => State.getF_setFs_apart hb hl hg s1
  have hset : ∀ g : Fld, g.lo < 64 → s2.getF aBocSetpoint g = s.getF aBocSetpoint g := fun g hg =>
    (hs2 _ g (by decide) hg).trans (hmeasured _ g (by decide) (by decide) hg)
  obtain ⟨hframe, hislands, hmemory⟩ := s2.controlPower_frame average (min cfg der)
  have ht : ∀ b (g : Fld), b ≠ aBocSetpoint → g.lo ≠ F.bocPower_lowered.lo → g.lo < 64 → t.getF b g = s2.getF b g := by
    intro b g hb hlo hg
    simp only [t]
    split
    · exact hframe b g hb hlo hg
    · rfl
  have hcfg : cfg = s.getF aBocPowerCfg F.bocPowerCfg_limit := hmeasured _ _ (by decide) (by decide) (by decide)
  have hcool : ∀ g : Fld, g.lo ≠ F.bocPower_lowered.lo → g.lo < 64 → t.getF aBocCoolant g = s1.getF aBocCoolant g := fun g hlo hg =>
    (ht _ g (by decide) hlo hg).trans (hs2 _ g (by decide) hg)
  refine ⟨t, rfl, ?_⟩
  rw [hcool F.bocCoolant_inlet (by decide) (by decide), hcool F.bocCoolant_flow (by decide) (by decide), ← hcfg]
  refine ⟨(ht _ _ (by decide) (by decide) (by decide)).trans (State.getF_setFs_mem hnodup (v := average) (by simp [l]) s1),
    (ht _ _ (by decide) (by decide) (by decide)).trans (State.getF_setFs_mem hnodup (v := min cfg der) (by simp [l]) s1),
    fun hoff => ?_, fun hon hover hmin h1 h32 => ?_, ?_, ?_⟩
  · have hstay : t = s2 := by simp only [t, hjob, hoff, Bool.false_eq_true, if_false]
    rw [hstay]
    exact hset _ (by decide)
  · have hrun : t = s2.controlPower average (min cfg der) := by simp only [t, hjob, hon, if_true]
    rw [← hset F.bocSetpoint_current (by decide)] at hmin h1 h32 ⊢
    rw [← hset F.bocSetpoint_imageMin (by decide)] at hmin
    rw [hrun]
    exact State.controlPower_over hover hmin h1 h32
  · simp only [t]
    split
    · exact hislands
    · exact hisl
  · simp only [t]
    split
    · exact hmemory
    · exact hmem

/-! ### Optics -/

theorem length_filter_eq_sum (g : Nat → Bool) (l : List Nat) : (l.filter g).length = (l.map fun w => (g w).toNat).sum := by
  induction l with
  | nil => rfl
  | cons w l ih =>
    cases h : g w with
    | false => simp [h, ih]
    | true => simp [h, ih]; omega

/-- What open-fibre control writes for one wavelength (R537). -/
def opticFields (port full : Nat) (signals : BitVec 9) (fresh w : Nat) : List (Fld × Nat) :=
  [(F.lnkWlOpt_rxPower, (Config.opticalPower port w fresh).toNat), (F.lnkWlOpt_txPower, (Config.opticalPower port w fresh).toNat / 2 ^ 16),
    (F.lnkWlOpt_full, full), (F.lnkWlOpt_los, if signals.getLsbD w then 0 else 1)]

/-- Whatever a fold of `setFs` writes, at distinct addresses, stands. -/
theorem getF_foldl_setFs {a : Nat → Nat} {w : Nat → List (Fld × Nat)} (hw : ∀ k, ((w k).map fun p => p.1.lo).Nodup)
    (hlo : ∀ k, ∀ p ∈ w k, p.1.lo < 64) {l : List Nat} {k : Nat} (hk : k ∈ l) (hinj : ∀ j ∈ l, a j = a k → j = k) {f : Fld} {v : Nat}
    (hf : (f, v) ∈ w k) (s : State) : (l.foldl (fun s k => s.setFs (a k) (w k)) s).getF (a k) f = v % 2 ^ f.width := by
  have hstays : ∀ (l : List Nat) (t : State), (∀ j ∈ l, a j = a k → j = k) → t.getF (a k) f = v % 2 ^ f.width →
      (l.foldl (fun s k => s.setFs (a k) (w k)) t).getF (a k) f = v % 2 ^ f.width := by
    intro l
    induction l with
    | nil => exact fun _ _ h => h
    | cons j l ih =>
      intro t hinj h
      refine ih _ (fun i hi => hinj i (List.mem_cons_of_mem j hi)) ?_
      by_cases hj : a j = a k
      · rw [hinj j List.mem_cons_self hj]
        exact State.getF_setFs_mem (hw k) hf t
      · exact (State.getF_setFs_apart (Ne.symm hj) (hlo j) (hlo k _ hf) t).trans h
  induction l generalizing s with
  | nil => exact absurd hk List.not_mem_nil
  | cons j l ih =>
    have hrest : ∀ i ∈ l, a i = a k → i = k := fun i hi => hinj i (List.mem_cons_of_mem j hi)
    rcases List.mem_cons.mp hk with rfl | hk
    · exact hstays l _ hrest (State.getF_setFs_mem (hw k) hf s)
    · exact ih hk hrest _

theorem State.regsBut.foldl {α : Type} {step : State → α → State} {s : State} {l : List (Nat × Fld)} (xs : List α)
    (hstep : ∀ (t : State), ∀ x ∈ xs, s.regsBut t l → s.regsBut (step t x) l) : ∀ t : State, s.regsBut t l → s.regsBut
    (xs.foldl step t) l := by
  induction xs with
  | nil => exact fun _ h => h
  | cons x xs ih =>
    exact fun t h => ih (fun t y hy => hstep t y (List.mem_cons_of_mem x hy)) _ (hstep t x List.mem_cons_self h)

theorem regsBut_opticFields (p full : Nat) (signals : BitVec 9) (fresh : Nat) (ws : List Nat) (s : State) :
    s.regsBut (ws.foldl (fun s w => s.setFs (aLnkWlOpt p w) (opticFields p full signals fresh w)) s)
      (ws.flatMap fun w => [(aLnkWlOpt p w, F.lnkWlOpt_rxPower), (aLnkWlOpt p w, F.lnkWlOpt_txPower),
        (aLnkWlOpt p w, F.lnkWlOpt_full), (aLnkWlOpt p w, F.lnkWlOpt_los)]) := by
  refine State.regsBut.foldl ws (fun t w hw h => h.setFs _ fun q hq => ?_) s (s.regsBut_refl _)
  refine List.mem_flatMap.mpr ⟨w, hw, ?_⟩
  simp only [opticFields, List.mem_cons, List.not_mem_nil, or_false] at hq
  rcases hq with rfl | rfl | rfl | rfl <;> simp

/-- Open-fibre control (R537): each receiver's signal, and full power with signal on four of them. -/
theorem openFibreControl_effects (s : State) {p : Nat} (hp : p < numPorts) (signals : BitVec 9) :
    CompletesWith (execOpenFibreControl p signals s) fun t =>
      ∀ w < 9, t.getF (aLnkWlOpt p w) F.lnkWlOpt_los = (!signals.getLsbD w).toNat ∧
        t.getF (aLnkWlOpt p w) F.lnkWlOpt_full =
          (if 4 ≤ ((List.range 9).map fun w => (signals.getLsbD w).toNat).sum then 1 else 0) ∧
        s.regsBut t ((List.range 9).flatMap fun w => [(aLnkWlOpt p w, F.lnkWlOpt_rxPower), (aLnkWlOpt p w, F.lnkWlOpt_txPower),
          (aLnkWlOpt p w, F.lnkWlOpt_full), (aLnkWlOpt p w, F.lnkWlOpt_los)]) ∧ s.sameIslands t ∧ s.sameMemory t := by
  let full := if 4 ≤ ((List.range 9).filter fun w => signals.getLsbD w).length then 1 else 0
  let fields := opticFields p full signals s.fresh
  let s1 := (List.range 9).foldl (fun s w => s.setFs (aLnkWlOpt p w) (fields w)) s
  have hrun : execOpenFibreControl p signals s = .next { s1 with fresh := s.fresh + 1 } := by
    simp only [execOpenFibreControl, if_pos hp]
    rfl
  have hnodup : ∀ w, ((fields w).map fun p => p.1.lo).Nodup := fun w => by
    simp [fields, opticFields, F.lnkWlOpt_rxPower, F.lnkWlOpt_txPower, F.lnkWlOpt_full, F.lnkWlOpt_los]
  have hlo : ∀ w, ∀ p ∈ fields w, p.1.lo < 64 := fun w => by
    simp [fields, opticFields, F.lnkWlOpt_rxPower, F.lnkWlOpt_txPower, F.lnkWlOpt_full, F.lnkWlOpt_los]
  have hwritten : ∀ w < 9, ∀ f v, (f, v) ∈ fields w → s1.getF (aLnkWlOpt p w) f = v % 2 ^ f.width := fun w hw f v hmem =>
    getF_foldl_setFs hnodup hlo (List.mem_range.mpr hw) (fun j _ hj => by simp only [aLnkWlOpt] at hj; omega) hmem s
  have hbare : s1.bare = s.bare := State.bare_foldl _ (fun s _ => State.bare_setFs s _ _) s
  have hregs := regsBut_opticFields p full signals s.fresh (List.range 9) s
  refine ⟨_, hrun, fun w hw => ⟨?_, ?_, ?_, ?_, ?_⟩⟩
  · refine (hwritten w hw F.lnkWlOpt_los (if signals.getLsbD w then 0 else 1) (by simp [fields, opticFields])).trans ?_
    cases signals.getLsbD w <;> rfl
  · refine (hwritten w hw F.lnkWlOpt_full full (by simp [fields, opticFields])).trans ?_
    simp only [full, length_filter_eq_sum]
    split <;> rfl
  · exact hregs
  · exact State.sameIslands_of_bare (t := s1) hbare
  · exact State.sameMemory_of_bare (t := s1) hbare

/-! ### Temperature -/

theorem State.perField_congr {s t : State} (hboc : t.boc = s.boc)
    (hreg : t.getF aBocCapacity F.bocCapacity_islandsPerField = s.getF aBocCapacity F.bocCapacity_islandsPerField) : t.perField = s.perField := by
  rw [State.perField, State.perField, hboc, hreg]

/-- A field's reading shown, with its largest one and the module's hottest (R527). -/
def State.reading (s : State) (f temp : Nat) : State :=
  let a := aBocFieldTemp f
  let s := s.setF a F.bocFieldTemp_temp temp
  let s := if s.getF a F.bocFieldTemp_max < temp then s.setF a F.bocFieldTemp_max temp else s
  s.setF aBocThermal F.bocThermal_hottest
    ((List.range 8).foldl (fun m f => max m (s.getF (aBocFieldTemp f) F.bocFieldTemp_temp)) 0)

/-- The consecutive readings of at least 110 °C (R517). -/
def State.hotReadings (s : State) (f temp : Nat) : Nat := if 1100 ≤ temp then Tbl.get 0 s.pins.hot f + 1 else 0

/-- A reading with the counts of the field that go with it. -/
def State.sampled (s : State) (f temp : Nat) : State :=
  { s.reading f temp with
    pins := { s.pins with hot := Tbl.set 0 s.pins.hot f (s.hotReadings f temp), tick := Tbl.set 0 s.pins.tick f (Tbl.get 0 s.pins.tick f - 1) } }

theorem State.reading_frame (s : State) (f temp : Nat) :
    (s.reading f temp).bare = s.bare ∧ s.regsBut (s.reading f temp)
      [(aBocFieldTemp f, F.bocFieldTemp_temp), (aBocFieldTemp f, F.bocFieldTemp_max), (aBocThermal, F.bocThermal_hottest)] := by
  simp only [State.reading]
  split
  · exact ⟨rfl, (((s.regsBut_refl _).setF (by simp) _).setF (by simp) _).setF (by simp) _⟩
  · exact ⟨rfl, ((s.regsBut_refl _).setF (by simp) _).setF (by simp) _⟩

theorem aBocThermal_ne_fieldTemp {f : Nat} (hf : f < 8) : aBocFieldTemp f ≠ aBocThermal := by
  unfold aBocFieldTemp aBocThermal bocBase
  omega

theorem State.reading_shows (s : State) {f temp : Nat} (hf : f < 8) (htemp : temp < 2 ^ 16) :
    (s.reading f temp).getF (aBocFieldTemp f) F.bocFieldTemp_temp = temp ∧
      (s.reading f temp).getF (aBocFieldTemp f) F.bocFieldTemp_max = max (s.getF (aBocFieldTemp f) F.bocFieldTemp_max) temp := by
  have hne := aBocThermal_ne_fieldTemp hf
  have hmod : temp % 2 ^ 16 = temp := Nat.mod_eq_of_lt htemp
  let s1 := s.setF (aBocFieldTemp f) F.bocFieldTemp_temp temp
  have h1 : s1.getF (aBocFieldTemp f) F.bocFieldTemp_temp = temp := (s.getF_setF_same ..).trans hmod
  have hold : s1.getF (aBocFieldTemp f) F.bocFieldTemp_max = s.getF (aBocFieldTemp f) F.bocFieldTemp_max :=
    s.getF_setF_beside _ F.bocFieldTemp_temp F.bocFieldTemp_max temp (by decide)
  have hhottest : ∀ (t : State) (g : Fld) (v : Nat), g.lo < 64 →
      (t.setF aBocThermal F.bocThermal_hottest v).getF (aBocFieldTemp f) g = t.getF (aBocFieldTemp f) g := fun t g v hg =>
    t.getF_setF_apart F.bocThermal_hottest g v hne (by decide) hg
  unfold State.reading
  extract_lets a t1 t2
  rw [hhottest _ _ _ (by decide), hhottest _ _ _ (by decide)]
  have ht2 : t2 = if s1.getF (aBocFieldTemp f) F.bocFieldTemp_max < temp then s1.setF (aBocFieldTemp f) F.bocFieldTemp_max temp
      else s1 := rfl
  rw [ht2, hold]
  split
  · rename_i hlt
    refine ⟨(s1.getF_setF_beside _ F.bocFieldTemp_max F.bocFieldTemp_temp temp (by decide)).trans h1, ?_⟩
    exact (s1.getF_setF_same ..).trans (hmod.trans (Nat.max_eq_right (Nat.le_of_lt hlt)).symm)
  · rename_i hle
    exact ⟨h1, hold.trans (Nat.max_eq_left (Nat.not_lt.mp hle)).symm⟩

theorem State.sampled_frame (s : State) (f temp : Nat) :
    s.sameIslands (s.sampled f temp) ∧ s.sameMemory (s.sampled f temp) ∧
      s.regsBut (s.sampled f temp)
        [(aBocFieldTemp f, F.bocFieldTemp_temp), (aBocFieldTemp f, F.bocFieldTemp_max), (aBocThermal, F.bocThermal_hottest)] := by
  obtain ⟨hbare, hregs⟩ := s.reading_frame f temp
  exact ⟨State.sameIslands_of_bare (t := s.reading f temp) hbare, State.sameMemory_of_bare (t := s.reading f temp) hbare, hregs⟩

/-- What throttling reads, after a sample. -/
theorem State.sampled_reads (s : State) {f temp : Nat} (hf : f < 8) :
    (s.sampled f temp).getF (aBocFieldTemp f) F.bocFieldTemp_throttle = s.getF (aBocFieldTemp f) F.bocFieldTemp_throttle ∧
      (s.sampled f temp).getF aBocThermal F.bocThermal_threshold = s.getF aBocThermal F.bocThermal_threshold ∧
      (s.sampled f temp).fieldOver f = s.fieldOver f ∧ (s.sampled f temp).perField = s.perField := by
  obtain ⟨-, -, hregs⟩ := s.sampled_frame f temp
  have hne := aBocThermal_ne_fieldTemp hf
  have hread : ∀ b (g : Fld), g.lo < 64 → (b ≠ aBocFieldTemp f ∨ g.lo ≠ 0 ∧ g.lo ≠ 16) → (b ≠ aBocThermal ∨ g.lo ≠ 0) →
      (s.sampled f temp).getF b g = s.getF b g := by
    intro b g hg htemp hhot
    refine hregs b g ?_
    simp only [List.map_cons, List.map_nil, List.mem_cons, List.not_mem_nil, or_false, fkey, F.bocFieldTemp_temp, F.bocFieldTemp_max,
      F.bocThermal_hottest]
    omega
  have hapart : ∀ b, b ≠ aBocFieldTemp f → b ≠ aBocThermal → ∀ g : Fld, g.lo < 64 → (s.sampled f temp).getF b g = s.getF b g :=
    fun b h h' g hg => hread b g hg (.inl h) (.inl h')
  refine ⟨hread _ _ (by decide) (.inr (by decide)) (.inl hne), hread _ _ (by decide) (.inl hne.symm) (.inr (by decide)), ?_, ?_⟩
  · have hover : ∀ ch, (s.sampled f temp).getF (aFldChState f ch) F.fldChState_over = s.getF (aFldChState f ch) F.fldChState_over := by
      intro ch
      refine hread _ _ (by decide) (.inr (by decide)) ?_
      exact .inr (by decide)
    simp only [State.fieldOver, State.flag, hover]
  · have hcap : aBocCapacity ≠ aBocFieldTemp f := by
      unfold aBocCapacity aBocFieldTemp
      omega
    have hforce : (s.sampled f temp).boc = s.boc := State.of_bare (t := s.reading f temp) State.boc (fun _ => rfl) (s.reading_frame f temp).1
    exact State.perField_congr hforce (hapart _ hcap (by decide) F.bocCapacity_islandsPerField (by decide))

/-- A sample (R517, R527): the readings, then a step of the throttle, or the trip. -/
theorem execThermalSample_eq {s : State} {f : Nat} (temp : Nat) (hf : f < 8) (hon : s.pins.power = .on) :
    execThermalSample f temp s = if 2 ≤ s.hotReadings f temp then .next (s.sampled f temp).thermalReset
      else .next ((s.sampled f temp).throttleStep f temp) := by
  have hpins : (s.reading f temp).pins = s.pins := State.of_bare State.pins (fun _ => rfl) (s.reading_frame f temp).1
  have hopen : execThermalSample f temp s =
      let r := s.reading f temp
      let hot := if 1100 ≤ temp then Tbl.get 0 r.pins.hot f + 1 else 0
      let t : State := { r with
        pins := { r.pins with hot := Tbl.set 0 r.pins.hot f hot, tick := Tbl.set 0 r.pins.tick f (Tbl.get 0 r.pins.tick f - 1) } }
      if 2 ≤ hot then .next t.thermalReset else .next (t.throttleStep f temp) := by
    unfold execThermalSample
    rw [if_neg (Nat.not_le.mpr hf), if_neg (by simp [hon])]
    rfl
  rw [hopen]
  simp only [hpins]
  rfl

theorem execThermalSample_cool {s : State} {f temp : Nat} (hf : f < 8) (hon : s.pins.power = .on) (htemp : temp < 1100) :
    execThermalSample f temp s = .next ((s.sampled f temp).throttleStep f temp) := by
  have hcold : s.hotReadings f temp = 0 := if_neg (Nat.not_le.mpr htemp)
  rw [execThermalSample_eq temp hf hon, hcold, if_neg (by decide)]

theorem State.throttleStep_rests {s : State} {f temp : Nat} (hbelow : temp ≤ 10 * s.getF aBocThermal F.bocThermal_threshold)
    (hover : s.fieldOver f = false) (hthr : s.getF (aBocFieldTemp f) F.bocFieldTemp_throttle = 0) : s.throttleStep f temp = s := by
  have hlt : ¬10 * s.getF aBocThermal F.bocThermal_threshold < temp := Nat.not_lt.mpr hbelow
  simp only [State.throttleStep, hover, hthr, hlt, decide_false, Bool.or_self, Bool.false_and, Bool.false_eq_true, if_false,
    Nat.lt_irrefl, false_and, and_false]

/-- The throttle of a field one step up, and when it steps next (R527). -/
def State.stepped (s : State) (f t : Nat) : State :=
  { s with pins := { s.pins with tick := Tbl.set 0 s.pins.tick f samplesPerFall } }.setThrottle f t

theorem State.throttleStep_rises {s : State} {f temp : Nat} (habove : 10 * s.getF aBocThermal F.bocThermal_threshold < temp)
    (hthr : s.getF (aBocFieldTemp f) F.bocFieldTemp_throttle < 4) (htick : Tbl.get 0 s.pins.tick f ≤ 90) :
    s.throttleStep f temp = s.stepped f (s.getF (aBocFieldTemp f) F.bocFieldTemp_throttle + 1) := by
  have hgo : s.getF (aBocFieldTemp f) F.bocFieldTemp_throttle < 4 ∧ Tbl.get 0 s.pins.tick f + 10 ≤ samplesPerFall :=
    ⟨hthr, by simp only [samplesPerFall]; omega⟩
  simp only [State.throttleStep, habove, hgo, decide_true, Bool.true_or, Bool.and_self, and_self, if_true]
  rfl

/-- The first islands of a field take its throttle. -/
def State.slowed (s : State) (f k n t : Nat) : State :=
  (List.range n).foldl (fun s i => s.setFs (aIslClock (f * k + i)) [(F.islClock_throttle, t)]) s

theorem islClock_ne {b : Nat} (hb : b < islBase 0) (n : Nat) : b ≠ aIslClock n := by
  unfold aIslClock islBase at *
  omega

theorem State.slowed_frame (s : State) (f k n t : Nat) :
    (s.slowed f k n t).bare = s.bare ∧
      ∀ b (g : Fld), b < islBase 0 → g.lo < 64 → (s.slowed f k n t).getF b g = s.getF b g := by
  refine ⟨State.bare_foldl _ (fun s _ => State.bare_setFs s _ _) s, fun b g hb hg => ?_⟩
  exact State.foldl_frame (fun s => s.getF b g) (List.range n)
    (fun s i => s.getF_setF_apart F.islClock_throttle g t (islClock_ne hb _) (by decide) hg) s

/-- The loop over a field's islands asks for their number at each of them; it never changes. -/
theorem State.foldl_throttle_eq (f t : Nat) (l : List Nat) : ∀ s : State,
    l.foldl (fun s i => s.setF (aIslClock (f * s.perField + i)) F.islClock_throttle t) s =
      l.foldl (fun s' i => s'.setFs (aIslClock (f * s.perField + i)) [(F.islClock_throttle, t)]) s := by
  induction l with
  | nil => exact fun _ => rfl
  | cons i l ih =>
    intro s
    have hcap : aBocCapacity ≠ aIslClock (f * s.perField + i) := islClock_ne (by decide) _
    have hper : (s.setF (aIslClock (f * s.perField + i)) F.islClock_throttle t).perField = s.perField :=
      State.perField_congr rfl (s.getF_setF_apart F.islClock_throttle F.bocCapacity_islandsPerField t hcap (by decide) (by decide))
    rw [List.foldl_cons, ih, hper]
    rfl

/-- The mask of throttled fields with one more in it. -/
theorem throttling_testBit (old : Nat) {f : Nat} (hf : f < 8) : (((old &&& (255 ^^^ 2 ^ f)) + 2 ^ f) % 2 ^ 8).testBit f = true := by
  have hclear : (old &&& (255 ^^^ 2 ^ f)).testBit f = false := by
    rw [Nat.testBit_and, Nat.testBit_xor, Nat.testBit_two_pow_self]
    have hset : (255 : Nat).testBit f = true := by
      have := Nat.testBit_two_pow_sub_one 8 f
      rw [show (2 ^ 8 - 1 : Nat) = 255 from rfl] at this
      rw [this]
      exact decide_eq_true hf
    rw [hset, Bool.xor_self, Bool.and_false]
  rw [Nat.testBit_mod_two_pow, Nat.add_comm, Nat.testBit_two_pow_add_eq, hclear, Bool.not_false, Bool.and_true]
  exact decide_eq_true hf

/-- A throttle set (R216, R527): in the field's register, in its islands', and in the module's mask. -/
theorem State.stepped_effects (s : State) {f t : Nat} (hf : f < 8) (ht : t < 8) (hpos : 0 < t) :
    (s.stepped f t).getF (aBocFieldTemp f) F.bocFieldTemp_throttle = t ∧
      (∀ i < s.perField, (s.stepped f t).getF (aIslClock (f * s.perField + i)) F.islClock_throttle = t) ∧
      ((s.stepped f t).getF aBocThermal F.bocThermal_throttling).testBit f = true ∧
      s.sameIslands (s.stepped f t) ∧ s.sameMemory (s.stepped f t) := by
  let s0 : State := { s with pins := { s.pins with tick := Tbl.set 0 s.pins.tick f samplesPerFall } }
  let s1 := s0.setF (aBocFieldTemp f) F.bocFieldTemp_throttle t
  let s2 := s1.slowed f s.perField s.perField t
  let v := (s2.getF aBocThermal F.bocThermal_throttling &&& (255 ^^^ 2 ^ f)) + 2 ^ f
  obtain ⟨hbare, hapart⟩ := s1.slowed_frame f s.perField s.perField t
  have hcap : aBocCapacity ≠ aBocFieldTemp f := by
    unfold aBocCapacity aBocFieldTemp
    omega
  have hper : s1.perField = s.perField :=
    State.perField_congr rfl (s0.getF_setF_apart F.bocFieldTemp_throttle F.bocCapacity_islandsPerField t hcap (by decide) (by decide))
  have heq : s.stepped f t = s2.setF aBocThermal F.bocThermal_throttling v := by
    have hloop := State.foldl_throttle_eq f t (List.range s1.perField) s1
    rw [hper] at hloop
    unfold State.stepped State.setThrottle
    extract_lets src r1 r2 others
    have hr2 : r2 = s2 := by
      simp only [r2]
      rw [show r1.perField = s.perField from hper]
      exact hloop
    simp only [others, hr2, if_neg (Nat.pos_iff_ne_zero.mp hpos)]
    rfl
  have hne := aBocThermal_ne_fieldTemp hf
  have hlow : aBocFieldTemp f < islBase 0 := by
    unfold aBocFieldTemp bocBase islBase
    omega
  have hmod : t % 2 ^ 3 = t := Nat.mod_eq_of_lt ht
  rw [heq]
  refine ⟨?_, fun i hi => ?_, ?_, State.sameIslands_of_bare (s := s1) hbare, State.sameMemory_of_bare (s := s1) hbare⟩
  · refine (s2.getF_setF_apart F.bocThermal_throttling F.bocFieldTemp_throttle v hne (by decide) (by decide)).trans ?_
    refine (hapart _ F.bocFieldTemp_throttle hlow (by decide)).trans ?_
    exact (s0.getF_setF_same ..).trans hmod
  · have hcl : aIslClock (f * s.perField + i) ≠ aBocThermal := (islClock_ne (by decide) _).symm
    refine (s2.getF_setF_apart F.bocThermal_throttling F.islClock_throttle v hcl (by decide) (by decide)).trans ?_
    refine (getF_foldl_setFs (fun _ => by simp) (fun _ => by simp [F.islClock_throttle]) (List.mem_range.mpr hi) (fun j _ hj => ?_)
      List.mem_cons_self s1).trans hmod
    unfold aIslClock islBase at hj
    omega
  · rw [s2.getF_setF_same]
    exact throttling_testBit _ hf

/-! ### Trips -/

theorem State.resetBy_cause (s : State) {cause : Nat} (h : cause < 8) :
    (s.resetBy cause).getF aBocResetCause F.bocResetCause_cause = cause := by
  refine (State.getF_setFs_mem ?_ (v := cause) List.mem_cons_self _).trans (Nat.mod_eq_of_lt (Nat.lt_of_lt_of_le h (by decide)))
  simp [F.bocResetCause_cause, F.bocResetCause_count]

/-- A trip (R517): the package is held in thermal reset, and drives THERM_TRIP_N. -/
theorem State.thermalReset_effects {s : State} (hon : s.pins.power = .on) :
    s.thermalReset.pins.power = .thermal ∧ s.thermalReset.pins.trip = true ∧
      s.thermalReset.getF aBocResetCause F.bocResetCause_cause = 5 := by
  have heq : s.thermalReset = { s.resetBy 5 with pins := { (s.resetBy 5).pins with power := .thermal, trip := true } } := by
    simp only [State.thermalReset, hon]
  rw [heq]
  exact ⟨rfl, rfl, s.resetBy_cause (by decide)⟩

end Sys2Proof.Machine

open Sys2Proof Sys2Proof.Machine

/-- Settles O28: power control through the one step it may ask for, optics through a fold over the receivers, and a temperature sample through
what it shows and the step of the throttle after it. -/
theorem powerAndTemperature : Obligations.PowerAndTemperature := by
  unfold Obligations.PowerAndTemperature
  refine ⟨fun s => ⟨fun v => ?_, fun average => ?_, fun hon => ?_, fun p signals hp => openFibreControl_effects s hp signals⟩,
    fun s f temp hf hon htemp => ?_⟩
  · intro x
    have hbits : bitsAt v.toNat 0 16 = x := by rw [bitsAt, Nat.pow_zero, Nat.div_one]
    refine ⟨fun hmin hmax => ?_, fun hout => ?_⟩
    · refine ⟨(s.setF aBocPowerCfg F.bocPowerCfg_limit x).busDone false, ?_, ?_, rfl, (s.regsBut_refl _).setF List.mem_cons_self _,
        ⟨rfl, rfl, rfl⟩, rfl, rfl, rfl⟩
      · show execBocPowerCfgWrite v s = _
        simp only [execBocPowerCfgWrite, hbits]
        rw [if_neg (by omega)]
      · exact (s.getF_setF_same ..).trans (Nat.mod_eq_of_lt (Nat.mod_lt _ (by decide)))
    · show execBocPowerCfgWrite v s = _
      simp only [execBocPowerCfgWrite, hbits]
      rw [if_pos hout]
  · obtain ⟨t, hrun, hinput, hlimit, hidle, hover, hisl, hmem⟩ := powerControlUpdate_effects s average
    obtain ⟨h1250, h1100, h900⟩ := deratedLimit_le (t.getF aBocCoolant F.bocCoolant_inlet) (t.getF aBocCoolant F.bocCoolant_flow)
    exact ⟨t, hrun, hinput, hlimit, fun h1 h2 => (Nat.min_le_right _ _).trans (h1250 h1 h2).le,
      fun h1 h2 h3 => (Nat.min_le_right _ _).trans (h1100 h1 h2 h3).le, fun h1 h2 h3 => (Nat.min_le_right _ _).trans (h900 h1 h2 h3),
      hidle, hover, hisl, hmem⟩
  · refine ⟨s.setF aBocPower F.bocPower_lowInput 1, ?_, s.getF_setF_same .., (s.regsBut_refl _).setF List.mem_cons_self _,
      ⟨rfl, rfl, rfl⟩, rfl, rfl, rfl⟩
    show execLowInput s = _
    simp only [execLowInput, hon, if_true]
  · intro a limit thr
    obtain ⟨hisl, hmem, hregs⟩ := s.sampled_frame f temp
    obtain ⟨hthr, hthreshold, hover, hper⟩ := s.sampled_reads (temp := temp) hf
    refine ⟨fun hbelow hcool hwithin hzero => ?_, fun habove hcool hrise htick hfields => ?_, fun hhot hsecond => ?_,
      fun d hd p hp hflag => ?_⟩
    · obtain ⟨hshown, hmax⟩ := s.reading_shows hf htemp
      have hstay : (s.sampled f temp).throttleStep f temp = s.sampled f temp :=
        State.throttleStep_rests (by rw [hthreshold]; exact hbelow) (hover.trans hwithin) (hthr.trans hzero)
      exact ⟨s.sampled f temp, (execThermalSample_cool hf hon hcool).trans (congrArg _ hstay), hshown, hmax, hthr.trans hzero, hisl, hmem,
        hregs⟩
    · have hticked : Tbl.get 0 (s.sampled f temp).pins.tick f ≤ 90 := by
        have hget : Tbl.get 0 (s.sampled f temp).pins.tick f = Tbl.get 0 s.pins.tick f - 1 := Tbl.get_set_same ..
        omega
      have hstep : (s.sampled f temp).throttleStep f temp = (s.sampled f temp).stepped f (thr + 1) := by
        rw [State.throttleStep_rises (by rw [hthreshold]; exact habove) (by rw [hthr]; exact hrise) hticked, hthr]
      obtain ⟨hown, hislands, hmask, hisl', hmem'⟩ := (s.sampled f temp).stepped_effects hf (t := thr + 1) (by omega) (Nat.succ_pos thr)
      rw [hper] at hislands
      exact ⟨_, (execThermalSample_cool hf hon hcool).trans (congrArg _ hstep), hown, hislands, hmask, hisl.trans hisl',
        hmem.trans hmem'⟩
    · have htwo : 2 ≤ s.hotReadings f temp := by
        rw [State.hotReadings, if_pos hhot]
        omega
      refine ⟨(s.sampled f temp).thermalReset, ?_, State.thermalReset_effects hon⟩
      show execThermalSample f temp s = _
      rw [execThermalSample_eq temp hf hon, if_pos htwo]
    · have hany : ((deviceChannels d).any fun p => s.flag (aFldChState p.1 p.2) F.fldChState_over) = true :=
        List.any_eq_true.mpr ⟨p, hp, decide_eq_true (by rw [hflag]; decide)⟩
      refine ⟨s.thermalReset, ?_, State.thermalReset_effects hon⟩
      show execLpddrOverLimitTrip d s = _
      simp only [execLpddrOverLimitTrip, if_neg (Nat.not_le.mpr hd), hon, hany, and_self, if_true]
end

section
/-! Patch orders and the bypass pairs (R295 to R298, R301, R487). -/

namespace Sys2Proof.Machine

/-! ### Numbers in base 4 -/

theorem bitsAt_mod {m k w : Nat} (h : k + w ≤ m) (x : Nat) : bitsAt (x % 2 ^ m) k w = bitsAt x k w := by
  have hdvd : 2 ^ (k + w) ∣ 2 ^ m := Nat.pow_dvd_pow 2 h
  have hcut : ∀ y, bitsAt y k w = y % 2 ^ (k + w) / 2 ^ k := fun y => by
    rw [bitsAt, Nat.pow_add, Nat.mod_mul_right_div_self]
  rw [hcut, hcut, Nat.mod_mod_of_dvd _ hdvd]

theorem bitsAt_above {x m k : Nat} (hx : x < 2 ^ m) (hk : m ≤ k) (w : Nat) : bitsAt x k w = 0 := by
  rw [bitsAt, Nat.div_eq_of_lt (Nat.lt_of_lt_of_le hx (Nat.pow_le_pow_right (by decide) hk)), Nat.zero_mod]

/-- One digit replaced. -/
def setDigit (x i v : Nat) : Nat := x - bitsAt x (2 * i) 2 * 2 ^ (2 * i) + v * 2 ^ (2 * i)

theorem setDigit_parts (x i v : Nat) : setDigit x i v = (x / 2 ^ (2 * i) / 4 * 4 + v) * 2 ^ (2 * i) + x % 2 ^ (2 * i) := by
  have hsplit := Nat.div_add_mod x (2 ^ (2 * i))
  have hq := Nat.div_add_mod (x / 2 ^ (2 * i)) 4
  rw [setDigit, bitsAt, show (2 : Nat) ^ 2 = 4 from rfl]
  generalize x / 2 ^ (2 * i) = q at *
  generalize x % 2 ^ (2 * i) = r at *
  generalize 2 ^ (2 * i) = P at *
  have hx : x = q / 4 * 4 * P + q % 4 * P + r := by
    rw [← Nat.add_mul, Nat.mul_comm (q / 4) 4, hq, Nat.mul_comm q P, hsplit]
  rw [hx, Nat.add_mul]
  omega

theorem digit_setDigit_same (x i : Nat) {v : Nat} (hv : v < 4) : bitsAt (setDigit x i v) (2 * i) 2 = v := by
  have hlt := Nat.mod_lt x (Nat.two_pow_pos (2 * i))
  rw [setDigit_parts, bitsAt, Nat.mul_comm, Nat.mul_add_div (Nat.two_pow_pos _), Nat.div_eq_of_lt hlt]
  omega

theorem digit_setDigit_other (x : Nat) {i j v : Nat} (hv : v < 4) (h : j ≠ i) : bitsAt (setDigit x i v) (2 * j) 2 = bitsAt x (2 * j) 2 := by
  have hlt := Nat.mod_lt x (Nat.two_pow_pos (2 * i))
  rcases Nat.lt_or_gt_of_ne h with h | h
  · have hlow : setDigit x i v % 2 ^ (2 * i) = x % 2 ^ (2 * i) := by
      rw [setDigit_parts, Nat.mul_comm, Nat.mul_add_mod, Nat.mod_mod]
    rw [← bitsAt_mod (show 2 * j + 2 ≤ 2 * i by omega) (setDigit x i v), hlow, bitsAt_mod (by omega)]
  · obtain ⟨k, rfl⟩ := Nat.exists_eq_add_of_lt h
    have hpow : 2 ^ (2 * (i + k + 1)) = 2 ^ (2 * i) * (4 * 2 ^ (2 * k)) := by
      rw [show 2 * (i + k + 1) = 2 * i + (2 + 2 * k) by omega, Nat.pow_add, Nat.pow_add]
    have hhigh : setDigit x i v / 2 ^ (2 * i) / 4 = x / 2 ^ (2 * i) / 4 := by
      rw [setDigit_parts, Nat.mul_comm, Nat.mul_add_div (Nat.two_pow_pos _), Nat.div_eq_of_lt hlt]
      omega
    rw [bitsAt, bitsAt, hpow, ← Nat.div_div_eq_div_mul, ← Nat.div_div_eq_div_mul, ← Nat.div_div_eq_div_mul, ← Nat.div_div_eq_div_mul, hhigh]

/-- The number with given digits. -/
def digits (g : Nat → Nat) (n : Nat) : Nat := ((List.range n).map fun i => g i % 4 * 2 ^ (2 * i)).sum

theorem digits_succ (g : Nat → Nat) (n : Nat) : digits g (n + 1) = digits g n + g n % 4 * 2 ^ (2 * n) := by
  simp only [digits, List.range_succ, List.map_append, List.map_cons, List.map_nil, List.sum_append, List.sum_cons, List.sum_nil, Nat.add_zero]

theorem digits_lt (g : Nat → Nat) (n : Nat) : digits g n < 2 ^ (2 * n) := by
  induction n with
  | zero => exact Nat.one_pos
  | succ n ih =>
    have hpow : 2 ^ (2 * (n + 1)) = 2 ^ (2 * n) * 4 := by rw [show 2 * (n + 1) = 2 * n + 2 by omega, Nat.pow_add]
    have hd : g n % 4 * 2 ^ (2 * n) ≤ 3 * 2 ^ (2 * n) := Nat.mul_le_mul_right _ (by omega)
    rw [digits_succ, hpow]
    omega

theorem digit_digits (g : Nat → Nat) {n k : Nat} (hk : k < n) : bitsAt (digits g n) (2 * k) 2 = g k % 4 := by
  induction n with
  | zero => omega
  | succ n ih =>
    rw [digits_succ]
    by_cases hn : k < n
    · rw [← ih hn, ← bitsAt_mod (show 2 * k + 2 ≤ 2 * n by omega) (digits g n + _), Nat.add_mul_mod_self_right, bitsAt_mod (by omega)]
    · obtain rfl : k = n := by omega
      rw [bitsAt, Nat.add_mul_div_right _ _ (Nat.two_pow_pos _), Nat.div_eq_of_lt (digits_lt g k), Nat.zero_add]
      exact Nat.mod_mod _ 4

/-! ### The bypass pairs -/

/-- The pairs as a map gives them (R298). -/
theorem State.drone_mapDrones (s : State) {f : Nat → Nat} {i : Nat} (hi : i < 24) (hf : f (s.drone i) < 4) :
    (s.mapDrones f).drone i = f (s.drone i) := by
  have hget : (s.mapDrones f).getF aCrpDrone F.crpDrone_state = digits (fun i => f (s.drone i)) 24 :=
    (s.getF_setF_same ..).trans (Nat.mod_eq_of_lt (digits_lt _ 24))
  rw [State.drone, hget, digit_digits _ hi]
  exact Nat.mod_eq_of_lt hf

theorem State.drone_setDrone_same (s : State) {i v : Nat} (hi : i < 24) (hv : v < 4) : (s.setDrone i v).drone i = v := by
  have hget : (s.setDrone i v).getF aCrpDrone F.crpDrone_state = setDigit (s.getF aCrpDrone F.crpDrone_state) i v % 2 ^ 48 :=
    s.getF_setF_same ..
  rw [State.drone, hget, bitsAt_mod (by omega), digit_setDigit_same _ _ hv]

theorem State.drone_setDrone_other {s : State} (hs : s.getF aCrpDrone F.crpDrone_state < 2 ^ 48) {i j v : Nat} (hv : v < 4) (h : j ≠ i) :
    (s.setDrone i v).drone j = s.drone j := by
  have hget : (s.setDrone i v).getF aCrpDrone F.crpDrone_state = setDigit (s.getF aCrpDrone F.crpDrone_state) i v % 2 ^ 48 :=
    s.getF_setF_same ..
  rw [State.drone, State.drone, hget]
  by_cases hj : j < 24
  · rw [bitsAt_mod (by omega), digit_setDigit_other _ hv h]
  · rw [bitsAt_above (Nat.mod_lt _ (Nat.two_pow_pos 48)) (by omega), bitsAt_above hs (by omega)]

theorem State.drone_congr {s t : State} (h : t.getF aCrpDrone F.crpDrone_state = s.getF aCrpDrone F.crpDrone_state) (i : Nat) :
    t.drone i = s.drone i := by rw [State.drone, State.drone, h]

/-- A mapped or single change of the pairs is a write of their register alone. -/
theorem State.only_drone (s : State) (v : Nat) :
    s.regsBut (s.setF aCrpDrone F.crpDrone_state v) [(aCrpDrone, F.crpDrone_state)] ∧
      s.sameIslands (s.setF aCrpDrone F.crpDrone_state v) ∧ s.sameMemory (s.setF aCrpDrone F.crpDrone_state v) :=
  ⟨(s.regsBut_refl _).setF List.mem_cons_self v, ⟨rfl, rfl, rfl⟩, rfl, rfl, rfl⟩

/-- All bypasses closed at once (R298). -/
theorem State.drones_shut (s : State) : (∀ i < 24, (s.mapDrones fun _ => 0).drone i = 0) ∧
    s.regsBut (s.mapDrones fun _ => 0) [(aCrpDrone, F.crpDrone_state)] ∧ s.sameIslands (s.mapDrones fun _ => 0) ∧
      s.sameMemory (s.mapDrones fun _ => 0) :=
  ⟨fun _ hi => s.drone_mapDrones hi (by decide), s.only_drone _⟩

/-! ### A patch order -/

/-- An order in time (R296): the patch is active from its breath on. -/
theorem execPatchOrder_taken {s : State} {msg : Msg} (hjob : (s.takeMsg msg).brt.job = true) (htaken : (s.takeMsg msg).brt.taken = false)
    (htime : (s.takeMsg msg).brt.next < msgBits msg 32 64 ∨
      (msgBits msg 32 64 = (s.takeMsg msg).brt.next ∧ beatReached (s.takeMsg msg).beat (s.takeMsg msg).tNext = false))
    (hnew : ∀ x ∈ (s.takeMsg msg).fab.patches, x.1 ≠ msgBits msg 96 19) :
    execPatchOrder msg s =
      .next (((s.takeMsg msg).activate (msgBits msg 96 19) (msgBits msg 32 64)).setF aCrpPatchLog F.crpPatchLog_last (msgBits msg 96 19)) := by
  have hlate : (decide (msgBits msg 32 64 < (s.takeMsg msg).brt.next) ||
      (decide (msgBits msg 32 64 = (s.takeMsg msg).brt.next) && beatReached (s.takeMsg msg).beat (s.takeMsg msg).tNext)) = false := by
    rcases htime with h | ⟨h, hbeat⟩
    · rw [decide_eq_false (by omega), decide_eq_false (by omega)]
      rfl
    · rw [decide_eq_false (by omega), hbeat, Bool.and_false]
      rfl
  have hany : ((s.takeMsg msg).fab.patches.any fun p => decide (p.1 = msgBits msg 96 19)) = false := by
    rw [List.any_eq_false]
    exact fun x hx => by simp [hnew x hx]
  have htaken' : ((((s.takeMsg msg).activate (msgBits msg 96 19) (msgBits msg 32 64)).setF aCrpPatchLog F.crpPatchLog_last
      (msgBits msg 96 19))).brt.taken = false := htaken
  simp only [execPatchOrder, hjob, hlate, hany, htaken', Bool.not_true, Bool.and_false, Bool.false_eq_true, if_false]

/-- A patch active, counted and named as the last one (R296, R301). -/
theorem State.activate_effects (s : State) (key breath : Nat) : let t := (s.activate key breath).setF aCrpPatchLog F.crpPatchLog_last key
    t.fab.patches = s.fab.patches ++ [(key, breath)] ∧
      t.getF aCrpFabric F.crpFabric_patches = raised F.crpFabric_patches (s.getF aCrpFabric F.crpFabric_patches) 1 ∧
      t.getF aCrpPatchLog F.crpPatchLog_activations =
        raised F.crpPatchLog_activations (s.getF aCrpPatchLog F.crpPatchLog_activations) 1 ∧
      t.getF aCrpPatchLog F.crpPatchLog_last = key % 2 ^ F.crpPatchLog_last.width ∧ s.sameIslands t ∧ s.sameMemory t := by
  let s0 : State := { s with fab := { s.fab with patches := s.fab.patches ++ [(key, breath)] } }
  let s1 := s0.bump aCrpFabric F.crpFabric_patches 1
  let s2 := s1.bump aCrpPatchLog F.crpPatchLog_activations 1
  have hne : aCrpFabric ≠ aCrpPatchLog := by decide
  have hlast : ∀ g : Fld, g.lo ≠ F.crpPatchLog_last.lo → (s2.setF aCrpPatchLog F.crpPatchLog_last key).getF aCrpPatchLog g =
      s2.getF aCrpPatchLog g := fun g hg => s2.getF_setF_beside _ _ g key hg
  have hold : s1.getF aCrpPatchLog F.crpPatchLog_activations = s.getF aCrpPatchLog F.crpPatchLog_activations :=
    s0.getF_setF_apart F.crpFabric_patches F.crpPatchLog_activations _ hne.symm (by decide) (by decide)
  refine ⟨rfl, ?_, ?_, s2.getF_setF_same .., ⟨rfl, rfl, rfl⟩, rfl, rfl, rfl⟩
  · refine (s2.getF_setF_apart F.crpPatchLog_last F.crpFabric_patches key hne (by decide) (by decide)).trans ?_
    exact (s1.getF_setF_apart F.crpPatchLog_activations F.crpFabric_patches _ hne (by decide) (by decide)).trans (s0.getF_bump_same ..)
  · refine (hlast F.crpPatchLog_activations (by decide)).trans ?_
    exact (s1.getF_bump_same ..).trans (by rw [hold])

/-- A withdrawal begins to close every bypass that is not closed (R298). -/
theorem dronePathClose_withdrawal {s : State} {b : Beat} (hb : s.boc.closeAt = some b) :
    CompletesWith (execDronePathClose .withdrawal s) fun t =>
      (∀ i < 24, t.drone i = if s.drone i = 0 then 0 else 3) ∧ t.getF aBocAdmit F.bocAdmit_beat = b.toNat ∧ s.sameIslands t ∧
        s.sameMemory t := by
  let f : Nat → Nat := fun v => if v = 0 then 0 else 3
  have hf : ∀ v, f v < 4 := fun v => by
    simp only [f]
    split <;> decide
  have hne : aCrpDrone ≠ aBocAdmit := by decide
  have hkeep : (s.closeDrones b).getF aCrpDrone F.crpDrone_state = (s.mapDrones f).getF aCrpDrone F.crpDrone_state :=
    (s.mapDrones f).getF_setF_apart F.bocAdmit_beat F.crpDrone_state b.toNat hne (by decide) (by decide)
  have hbeat : (s.closeDrones b).getF aBocAdmit F.bocAdmit_beat = b.toNat :=
    ((s.mapDrones f).getF_setF_same ..).trans (Nat.mod_eq_of_lt b.isLt)
  have hbare : (s.closeDrones b).bare = s.bare := by simp only [State.closeDrones, State.mapDrones, State.bare_setF]
  refine ⟨s.closeDrones b, ?_, fun i hi => ?_, hbeat, State.sameIslands_of_bare hbare, State.sameMemory_of_bare hbare⟩
  · simp only [execDronePathClose, hb]
  · exact (State.drone_congr hkeep i).trans (s.drone_mapDrones hi (hf _))

/-- The package is about to join (R487). -/
def State.joins (s : State) : State := { s with boc := { s.boc with joining := true } }

theorem State.joins_frame (s : State) : s.joins.boc.joining = true ∧ (∀ b (g : Fld), s.joins.getF b g = s.getF b g) ∧
    s.sameIslands s.joins ∧ s.sameMemory s.joins := ⟨rfl, fun _ _ => rfl, ⟨rfl, rfl, rfl⟩, rfl, rfl, rfl⟩

/-- Admission opens every bypass that is not open (R298, R487). -/
theorem admissionOpen_effects {s : State} {b : Beat} (hb : s.boc.admitAt = some b) (hj : s.boc.joining = false) :
    CompletesWith (execAdmissionOpen s) fun t =>
      (∀ i < 24, t.drone i = if s.drone i = 2 then 2 else 1) ∧ t.boc.joining = true ∧ t.getF aBocState F.bocState_step = 10 ∧
        s.sameIslands t ∧ s.sameMemory t := by
  let f : Nat → Nat := fun v => if v = 2 then 2 else 1
  have hf : ∀ v, f v < 4 := fun v => by
    simp only [f]
    split <;> decide
  let s1 := (s.mapDrones f).setF aBocAdmit F.bocAdmit_beat b.toNat
  let s2 := s1.joins
  obtain ⟨hjoins, hread, hisl, hmem⟩ := s1.joins_frame
  let t := s2.setF aBocState F.bocState_step 10
  have hrun : execAdmissionOpen s = .next t := by
    simp only [execAdmissionOpen, hb, hj, Bool.false_eq_true, if_false]
    rfl
  have hne1 : aCrpDrone ≠ aBocAdmit := by decide
  have hne2 : aCrpDrone ≠ aBocState := by decide
  have hkeep : t.getF aCrpDrone F.crpDrone_state = (s.mapDrones f).getF aCrpDrone F.crpDrone_state :=
    (s2.getF_setF_apart F.bocState_step F.crpDrone_state 10 hne2 (by decide) (by decide)).trans
      ((hread _ _).trans ((s.mapDrones f).getF_setF_apart F.bocAdmit_beat F.crpDrone_state b.toNat hne1 (by decide) (by decide)))
  have h1 : s1.bare = s.bare := by simp only [s1, State.mapDrones, State.bare_setF]
  have h3 : t.bare = s2.bare := s2.bare_setF aBocState F.bocState_step 10
  refine ⟨t, hrun, fun i hi => ?_, (congrArg BocSt.joining (State.of_bare State.boc (fun _ => rfl) h3)).trans hjoins, s2.getF_setF_same ..,
    ((State.sameIslands_of_bare h1).trans hisl).trans (State.sameIslands_of_bare h3),
    ((State.sameMemory_of_bare h1).trans hmem).trans (State.sameMemory_of_bare h3)⟩
  exact (State.drone_congr hkeep i).trans (s.drone_mapDrones hi (hf _))

end Sys2Proof.Machine

open Sys2Proof Sys2Proof.Machine

/-- Settles O32: the order through the state after its message is taken, the bypasses as digits of their register. -/
theorem patchesAndBypasses : Obligations.PatchesAndBypasses := by
  unfold Obligations.PatchesAndBypasses
  refine fun s => ⟨fun msg => ?_, fun hs => ?_⟩
  · intro s0 b key hjob htaken htime hnew
    obtain ⟨hpatches, hactive, hcount, hlast, hisl, hmem⟩ := s0.activate_effects key b
    have hmsg : s.sameMemory s0 := ⟨State.takeMsg_ctl State.mem (fun _ _ => rfl) (fun _ _ => rfl) s msg,
      State.takeMsg_ctl State.tags (fun _ _ => rfl) (fun _ _ => rfl) s msg, State.takeMsg_ctl State.bad (fun _ _ => rfl) (fun _ _ => rfl) s msg⟩
    exact ⟨_, execPatchOrder_taken hjob htaken htime hnew, hpatches, hactive, hcount, hlast,
      (State.sameIslands_of_units (s.units_takeMsg msg)).trans hisl, hmsg.trans hmem⟩
  · intro only
    refine ⟨fun i hi hd => ?_, fun i hi hd => ?_, fun b hb => ?_, fun hp => ?_, fun hp => ?_, fun hp => ?_, fun b hb hj => ?_⟩
    · refine ⟨s.setDrone i 2, ?_, s.drone_setDrone_same hi (by decide), fun j hj => State.drone_setDrone_other hs (by decide) hj,
        s.only_drone _⟩
      show execDronePathFullyOpen i s = _
      simp only [execDronePathFullyOpen, hi, hd, if_true]
    · refine ⟨s.setDrone i 0, ?_, s.drone_setDrone_same hi (by decide), fun j hj => State.drone_setDrone_other hs (by decide) hj,
        s.only_drone _⟩
      show execDronePathFullyClosed i s = _
      simp only [execDronePathFullyClosed, hi, hd, if_true]
    · exact dronePathClose_withdrawal hb
    · refine ⟨_, ?_, s.drones_shut⟩
      show execDronePathClose .powerLoss s = _
      simp only [execDronePathClose, hp, if_true]
    · refine ⟨_, ?_, s.drones_shut⟩
      show execDronePathClose .resetN s = _
      simp only [execDronePathClose, hp, if_true]
    · refine ⟨_, ?_, s.drones_shut⟩
      show execDronePathClose .thermTrip s = _
      simp only [execDronePathClose, hp, if_true]
    · exact admissionOpen_effects hb hj
end

section
/-! Loss of a link and the injection registers (R336, R339, R340, R342, R343, R484). -/

namespace Sys2Proof.Machine

/-! ### What a link's changes leave alone -/

/-- A state without its registers, its ports, its messages and what failures record. -/
def State.shell (s : State) : State := { s.bare with ports := [] }

theorem State.of_shell {β : Type} (g : State → β) (hg : ∀ s, g s.shell = g s) {s t : State} (h : t.shell = s.shell) : g t = g s := by
  rw [← hg t, h, hg]

theorem State.shell_of_bare {s t : State} (h : t.bare = s.bare) : t.shell = s.shell := congrArg (fun s : State => { s with ports := [] }) h

theorem State.shell_of_offPorts {s t : State} (h : t.offPorts = s.offPorts) : t.shell = s.shell :=
  State.of_offPorts State.shell (fun _ => rfl) h

theorem State.sameIslands_of_shell {s t : State} (h : t.shell = s.shell) : s.sameIslands t :=
  ⟨State.of_shell State.cores (fun _ => rfl) h, State.of_shell State.clusters (fun _ => rfl) h,
    State.of_shell State.islands (fun _ => rfl) h⟩

theorem State.sameMemory_of_shell {s t : State} (h : t.shell = s.shell) : s.sameMemory t :=
  ⟨State.of_shell State.mem (fun _ => rfl) h, State.of_shell State.tags (fun _ => rfl) h, State.of_shell State.bad (fun _ => rfl) h⟩

@[simp] theorem State.shell_setPort (s : State) (p : Nat) (x : Port) : (s.setPort p x).shell = s.shell := (rfl)

/-- A register of a port's link block lies apart from the others that a change of the link touches. -/
theorem linkReg_apart {p k : Nat} (hp : p < numPorts) (hk : k < 0x200) :
    logReg (prtBase p + 0x8000 + k) = false ∧ prtBase p + 0x8000 + k ≠ aBocState ∧ prtBase p + 0x8000 + k ≠ aBocDisc p ∧
      prtBase p + 0x8000 + k ≠ aGmuFence ∧ prtBase p + 0x8000 + k ≠ aTimStatus ∧ prtBase p + 0x8000 + k ≠ aCrpConfig p ∧
      prtBase p + 0x8000 + k ≠ aLnkInjCtl p := by
  simp only [numPorts, maxPorts] at hp
  refine ⟨logReg_of_lt ?_, ?_, ?_, ?_, ?_, ?_, ?_⟩
  · unfold prtBase fltBase
    omega
  · unfold prtBase aBocState bocBase
    omega
  · unfold prtBase aBocDisc bocBase
    omega
  · unfold prtBase aGmuFence gmuBase
    omega
  · unfold prtBase aTimStatus timBase
    omega
  · unfold prtBase aCrpConfig prtBase
    omega
  · unfold prtBase aLnkInjCtl prtBase
    omega

theorem State.bare_classify (s : State) (p : Nat) : (s.classify p).bare = s.bare := by
  unfold State.classify
  extract_lets c x moved s1 s2 s3
  have h3 : s3.bare = s.bare := by
    have h1 : s1.bare = s.bare := by
      simp only [s1]
      split
      · exact s.bare_setF ..
      · rfl
    exact (State.bare_setF _ aGmuFence _ _).trans ((State.bare_setFs _ _ _).trans h1)
  split
  · exact (State.bare_event _ _ _ _ _ _).trans ((State.bare_setF _ _ _ _).trans h3)
  · exact h3

/-- A class taken leaves the link's block as it is, but that the link of a looped or quarantined port idles (R484). -/
theorem State.classify_link (s : State) {p : Nat} (hp : p < numPorts) :
    (∀ k < 0x200, ∀ g : Fld, g.lo < 64 → (k ≠ 0 ∨ g.lo ≠ 0) →
      (s.classify p).getF (prtBase p + 0x8000 + k) g = s.getF (prtBase p + 0x8000 + k) g) ∧
      ((s.classify p).lnk p = 6 ∨ (s.classify p).lnk p = s.lnk p) := by
  have hdisc : ∀ (c k port : Nat), ∀ q ∈ [(F.bocDisc_class, c), (F.bocDisc_partner, k), (F.bocDisc_partnerPort, port)], q.1.lo < 64 := by
    intro c k port
    simp only [List.forall_mem_cons]
    exact ⟨by decide, by decide, by decide, fun _ h => absurd h List.not_mem_nil⟩
  unfold State.classify
  extract_lets c x moved s1 s2 s3
  have h3 : ∀ k < 0x200, ∀ g : Fld, g.lo < 64 → s3.getF (prtBase p + 0x8000 + k) g = s.getF (prtBase p + 0x8000 + k) g := by
    intro k hk g hg
    obtain ⟨-, hstate, hbd, hfence, -⟩ := linkReg_apart hp hk
    have h1 : s1.getF (prtBase p + 0x8000 + k) g = s.getF (prtBase p + 0x8000 + k) g := by
      simp only [s1]
      split
      · exact s.getF_setF_apart F.bocState_ready g 0 hstate (by decide) hg
      · rfl
    exact (s2.getF_setF_apart F.gmuFence_fenced g _ hfence (by decide) hg).trans ((State.getF_setFs_apart hbd (hdisc _ _ _) hg s1).trans h1)
  obtain ⟨hlog, -⟩ := linkReg_apart (k := 0) hp (by decide)
  split
  · refine ⟨fun k hk g hg hne => ?_, .inl ?_⟩
    · obtain ⟨hlog, -⟩ := linkReg_apart hp hk
      refine (State.getF_event _ _ _ _ _ _ hlog hg).trans ((State.getF_setF_other _ _ _ _ ?_).trans (h3 k hk g hg))
      simp only [fkey, aLnkState, F.lnkState_state]
      omega
    · exact (State.getF_event _ _ _ _ _ _ hlog (by decide)).trans (State.getF_setF_same ..)
  · exact ⟨fun k hk g hg _ => h3 k hk g hg, .inr (h3 0 (by decide) _ (by decide))⟩

@[simp] theorem State.bare_askTag (s : State) (p : Nat) : (s.askTag p).bare = s.bare := by
  simp only [State.askTag]
  split
  · split
    · exact s.bare_sendTo ..
    · rfl
  · rfl

@[simp] theorem State.regs_askTag (s : State) (p : Nat) : (s.askTag p).regs = s.regs := by
  simp only [State.askTag]
  split
  · split
    · exact s.regs_sendTo ..
    · rfl
  · rfl

/-- Messages that find other ways change nothing but messages. -/
theorem State.rerouteCtl_frame {β : Type} (g : State → β) (hctl : ∀ s x, g { s with ctl := x } = g s) (s : State) (p : Nat) :
    g (s.rerouteCtl p) = g s := by
  simp only [State.rerouteCtl]
  refine (State.foldl_frame g _ (fun s c => ?_) _).trans (hctl s _)
  split
  · rfl
  · exact State.unicast_ctl g hctl s _

/-! ### A link declared down -/

/-- A port whose link is down keeps nothing of it (R339, R340). -/
def Port.emptied (x : Port) : Port :=
  { x with buf := [], replay := [], timer := none, held := [], lost := [], vcs := [], ctlIn := [], out := [], fails := [], proc := .none,
           later := [], wire := none, trainStep := 0, full := false, heldOut := [], sentAt := [], rttLeft := 0 }

/-- A link declared down (R339, R340). -/
structure LinkLost (s t : State) (p cause : Nat) : Prop where
  lnk : t.lnk p = 0 ∨ t.lnk p = 6
  lanes : t.getF (aLnkState p) F.lnkState_lanes = 0
  cause : t.getF (aLnkState p) F.lnkState_downCause = cause
  port : ∃ x : Port, t.port p = x.emptied
  downs : t.getF (aLnkEvents p) F.lnkEvents_downs = raised F.lnkEvents_downs (s.getF (aLnkEvents p) F.lnkEvents_downs) 1
  rest : t.shell = s.shell

theorem State.linkDown_lost {s : State} {p cause : Nat} (hp : p < numPorts) (hup : s.linkUp p = true) (hcause : cause < 8) :
    LinkLost s (s.linkDown p cause) p cause := by
  have hnodup : ([(F.lnkState_state, 0), (F.lnkState_lanes, 0), (F.lnkState_retrainPending, 0), (F.lnkState_downCause, cause)].map
      fun q : Fld × Nat => q.1.lo).Nodup := by
    simp [F.lnkState_state, F.lnkState_lanes, F.lnkState_retrainPending, F.lnkState_downCause]
  have hlo : ∀ q ∈ [(F.lnkState_state, 0), (F.lnkState_lanes, 0), (F.lnkState_retrainPending, 0), (F.lnkState_downCause, cause)],
      q.1.lo < 64 := by
    simp [F.lnkState_state, F.lnkState_lanes, F.lnkState_retrainPending, F.lnkState_downCause]
  have hblock : ∀ (k : Nat), k < 0x200 → prtBase p + 0x8000 + k ≠ aLnkInjCtl p := fun k hk => by
    obtain ⟨-, -, -, -, -, -, h⟩ := linkReg_apart hp hk
    exact h
  have hevents : aLnkEvents p = prtBase p + 0x8000 + 0x38 := rfl
  have hevreplay : aLnkEvents p ≠ aLnkReplay p := by
    unfold aLnkEvents aLnkReplay
    omega
  have hevstate : aLnkEvents p ≠ aLnkState p := by
    unfold aLnkEvents aLnkState
    omega
  unfold State.linkDown
  rw [if_neg (by simp [hup])]
  extract_lets key x uses s1 s2 x2 s3 s4 s5 s6 s7 s8 s9
  have h1 : s1.shell = s.shell ∧ s1.getF (aLnkEvents p) F.lnkEvents_downs = s.getF (aLnkEvents p) F.lnkEvents_downs := by
    simp only [s1]
    split
    · exact ⟨State.shell_of_offPorts (s.offPorts_sendNew p _), s.getF_sendNew p _ (hblock 0x38 (by decide)) hevreplay (by decide)⟩
    · exact ⟨rfl, rfl⟩
  have h2 : s2.shell = s.shell ∧ s2.getF (aLnkEvents p) F.lnkEvents_downs = s.getF (aLnkEvents p) F.lnkEvents_downs := by
    refine ⟨(State.shell_of_bare (s1.bare_askTag p)).trans h1.1, ?_⟩
    rw [State.getF, s1.regs_askTag p]
    exact h1.2
  have h4 : s4.shell = s.shell ∧ s4.port p = x2.emptied ∧ s4.getF (aLnkEvents p) F.lnkEvents_downs = s.getF (aLnkEvents p) F.lnkEvents_downs ∧
      ∀ f v, (f, v) ∈ [(F.lnkState_state, 0), (F.lnkState_lanes, 0), (F.lnkState_retrainPending, 0), (F.lnkState_downCause, cause)] →
        s4.getF (aLnkState p) f = v % 2 ^ f.width := by
    have hbare : s4.bare = s3.bare := s3.bare_setFs (aLnkState p) _
    refine ⟨(State.shell_of_bare hbare).trans ((s2.shell_setPort p x2.emptied).trans h2.1), ?_, ?_, fun f v hf => State.getF_setFs_mem hnodup hf s3⟩
    · refine (State.of_bare (fun s => s.port p) (fun _ => rfl) hbare).trans ?_
      exact (s2.port_setPort p x2.emptied p).trans (if_pos rfl)
    · exact (State.getF_setFs_apart hevstate hlo (by decide) s3).trans h2.2
  obtain ⟨hshell, hport, hev, hset⟩ := h4
  have h7 : s7.bare = s4.bare ∧ ∀ k < 0x200, ∀ g : Fld, g.lo < 64 → s7.getF (prtBase p + 0x8000 + k) g = s5.getF (prtBase p + 0x8000 + k) g := by
    have h6 : s6.bare = s4.bare ∧ ∀ k < 0x200, ∀ g : Fld, g.lo < 64 → s6.getF (prtBase p + 0x8000 + k) g = s5.getF (prtBase p + 0x8000 + k) g := by
      simp only [s6]
      split
      · refine ⟨(s5.bare_setF ..).trans (s4.bare_bump ..), fun k hk g hg => ?_⟩
        obtain ⟨-, -, -, -, -, hconfig, -⟩ := linkReg_apart hp hk
        exact s5.getF_setF_apart F.crpConfig_sched g 2 hconfig (by decide) hg
      · exact ⟨s4.bare_bump .., fun _ _ _ _ => rfl⟩
    simp only [s7]
    split
    · refine ⟨(s6.bare_setF ..).trans h6.1, fun k hk g hg => ?_⟩
      obtain ⟨-, -, -, -, htime, -⟩ := linkReg_apart hp hk
      exact (s6.getF_setF_apart F.timStatus_holdover g 1 htime (by decide) hg).trans (h6.2 k hk g hg)
    · exact h6
  obtain ⟨hbare7, hread7⟩ := h7
  obtain ⟨hclass, hlnk⟩ := s7.classify_link hp
  have h8 : s8.bare = s7.bare ∧ s8.regs = (s7.classify p).regs :=
    ⟨((s7.classify p).rerouteCtl_frame State.bare (fun _ _ => rfl) p).trans (s7.bare_classify p),
      (s7.classify p).rerouteCtl_frame State.regs (fun _ _ => rfl) p⟩
  have hread8 : ∀ b g, s8.getF b g = (s7.classify p).getF b g := fun b g => by rw [State.getF, h8.2, State.getF]
  let t := if s9.changeExpected p then s9 else s9.faultReport 3 [(96, key), (115, if uses then 1 else 0)]
  have h9 : t.bare = s4.bare ∧ ∀ k < 0x200, ∀ g : Fld, g.lo < 64 →
      t.getF (prtBase p + 0x8000 + k) g = (s7.classify p).getF (prtBase p + 0x8000 + k) g := by
    have hbare9 : s9.bare = s4.bare := (s8.bare_event ..).trans (h8.1.trans hbare7)
    have hread9 : ∀ k < 0x200, ∀ g : Fld, g.lo < 64 →
        s9.getF (prtBase p + 0x8000 + k) g = (s7.classify p).getF (prtBase p + 0x8000 + k) g := fun k hk g hg => by
      obtain ⟨hlog, -⟩ := linkReg_apart hp hk
      exact (s8.getF_event _ _ _ _ _ hlog hg).trans (hread8 _ _)
    simp only [t]
    split
    · exact ⟨hbare9, hread9⟩
    · exact ⟨(s9.bare_faultReport ..).trans hbare9, fun k hk g hg => (s9.getF_faultReport ..).trans (hread9 k hk g hg)⟩
  obtain ⟨hbaret, hreadt⟩ := h9
  have hfield : ∀ f v, (f, v) ∈ [(F.lnkState_state, 0), (F.lnkState_lanes, 0), (F.lnkState_retrainPending, 0), (F.lnkState_downCause, cause)] →
      s7.getF (aLnkState p) f = v % 2 ^ f.width := fun f v hf =>
    (hread7 0 (by decide) f (hlo _ hf)).trans ((s4.getF_setF_apart F.lnkEvents_downs f _ hevstate.symm (by decide) (hlo _ hf)).trans
    (hset f v hf))
  have hkept : ∀ f : Fld, f.lo < 64 → f.lo ≠ 0 → t.getF (aLnkState p) f = s7.getF (aLnkState p) f := fun f hf hne =>
    (hreadt 0 (by decide) f hf).trans (hclass 0 (by decide) f hf (.inr hne))
  refine ⟨?_, ?_, ?_, ⟨x2, (State.of_bare (fun s => s.port p) (fun _ => rfl) hbaret).trans hport⟩, ?_, (State.shell_of_bare hbaret).trans hshell⟩
  · have hstate : t.lnk p = (s7.classify p).lnk p := hreadt 0 (by decide) F.lnkState_state (by decide)
    have hzero : s7.lnk p = 0 := hfield F.lnkState_state 0 (by simp)
    show t.lnk p = 0 ∨ t.lnk p = 6
    rw [hstate]
    exact hlnk.symm.imp (fun h => h.trans hzero) id
  · exact (hkept F.lnkState_lanes (by decide) (by decide)).trans (hfield F.lnkState_lanes 0 (by simp))
  · refine (hkept F.lnkState_downCause (by decide) (by decide)).trans ((hfield F.lnkState_downCause cause (by simp)).trans ?_)
    exact Nat.mod_eq_of_lt hcause
  · refine (hreadt 0x38 (by decide) F.lnkEvents_downs (by decide)).trans ((hclass 0x38 (by decide) _ (by decide) (.inl (by decide))).trans ?_)
    refine (hread7 0x38 (by decide) F.lnkEvents_downs (by decide)).trans ((s4.getF_bump_same (aLnkEvents p) F.lnkEvents_downs 1).trans ?_)
    rw [hev]

/-! ### The injection registers -/

theorem execInjectionControlWrite_refused {s : State} {p : Nat} (hp : p < numPorts) (h : s.getF (aLnkInjCtl p) F.lnkInjCtl_permitted = 0)
    {k : Nat} (hk : k < 5) (v : Word) : execInjectionControlWrite p (0x8200 + 8 * k) v s = .next { s with bus := ⟨true, 0⟩ } := by
  have hport : hasPort p = true ∧ (0x8200 + 8 * k) % 8 = 0 ∧ 0x8200 ≤ 0x8200 + 8 * k ∧ 0x8200 + 8 * k ≤ 0x8220 :=
    ⟨decide_eq_true hp, by omega, by omega, by omega⟩
  have hflag : s.flag (aLnkInjCtl p) F.lnkInjCtl_permitted = false := decide_eq_false (fun hne => hne h)
  simp only [execInjectionControlWrite, if_pos hport, hflag, Bool.not_false, true_or, if_true]

/-- The register at an offset of the injection block, and the fields that a write gives it (R343). -/
def injWrite (p offset v : Nat) : Nat × List (Fld × Nat) :=
  match offset with
  | 0x8200 => (aLnkInjCtl p, [(F.lnkInjCtl_enable, bitsAt v 1 1), (F.lnkInjCtl_count, bitsAt v 2 1)])
  | 0x8208 => (aLnkInjDrop p, [(F.lnkInjDrop_n, bitsAt v 0 16)])
  | 0x8210 => (aLnkInjParity p, [(F.lnkInjParity_lanes, bitsAt v 0 8), (F.lnkInjParity_n, bitsAt v 8 16)])
  | 0x8218 => (aLnkInjAck p, [(F.lnkInjAck_mode, bitsAt v 0 2), (F.lnkInjAck_n, bitsAt v 2 16), (F.lnkInjAck_k, bitsAt v 18 10)])
  | _ => (aLnkInjReorder p, [(F.lnkInjReorder_n, bitsAt v 0 16), (F.lnkInjReorder_hold, bitsAt v 16 12)])

/-- While injection is permitted, a write without a reserved encoding sets the register's fields (R342). -/
theorem execInjectionControlWrite_taken {s : State} {p offset : Nat} {v : Word} (hp : p < numPorts)
    (h : s.getF (aLnkInjCtl p) F.lnkInjCtl_permitted ≠ 0) (hoffset : offset ∈ [0x8200, 0x8208, 0x8210, 0x8218, 0x8220])
    (hres : injReserved offset v = false) :
    execInjectionControlWrite p offset v s =
      .next (State.setFs { s with bus := ⟨false, 0⟩ } (injWrite p offset v.toNat).1 (injWrite p offset v.toNat).2) := by
  have hport : hasPort p = true := decide_eq_true hp
  have hflag : s.flag (aLnkInjCtl p) F.lnkInjCtl_permitted = true := decide_eq_true h
  simp only [List.mem_cons, List.not_mem_nil, or_false] at hoffset
  rcases hoffset with rfl | rfl | rfl | rfl | rfl <;> simp only [execInjectionControlWrite, hport, hflag, hres] <;> rfl

theorem State.bus_setF (s : State) (a : Nat) (f : Fld) (v : Nat) : (s.setF a f v).bus = s.bus := rfl

/-- Every field written at an offset, and all else as it was. -/
theorem injectionControlWrite_effects {s : State} {p offset : Nat} {v : Word} (hp : p < numPorts)
    (h : s.getF (aLnkInjCtl p) F.lnkInjCtl_permitted ≠ 0) (hoffset : offset ∈ [0x8200, 0x8208, 0x8210, 0x8218, 0x8220])
    (hres : injReserved offset v = false) (hnodup : ((injWrite p offset v.toNat).2.map fun q => q.1.lo).Nodup) :
    CompletesWith (execInjectionControlWrite p offset v s) fun t =>
      (∀ f x, (f, x) ∈ (injWrite p offset v.toNat).2 → t.getF (injWrite p offset v.toNat).1 f = x % 2 ^ f.width) ∧
      (t.bus.err = false ∧ s.sameIslands t ∧ s.sameMemory t) ∧
      s.regsBut t ((injWrite p offset v.toNat).2.map fun q => ((injWrite p offset v.toNat).1, q.1)) := by
  let s0 : State := { s with bus := ⟨false, 0⟩ }
  let a := (injWrite p offset v.toNat).1
  let l := (injWrite p offset v.toNat).2
  have hbare : (s0.setFs a l).bare = s0.bare := s0.bare_setFs a l
  have hbus : (s0.setFs a l).bus = s0.bus := State.foldl_frame State.bus l (fun s (q : Fld × Nat) => (s.bus_setF a q.1 q.2)) s0
  refine ⟨_, execInjectionControlWrite_taken hp h hoffset hres, fun f x hf => State.getF_setFs_mem hnodup hf s0,
    ⟨by rw [hbus], State.sameIslands_of_bare (s := s0) hbare, State.sameMemory_of_bare (s := s0) hbare⟩, ?_⟩
  exact (s0.regsBut_refl _).setFs a fun q hq => List.mem_map.mpr ⟨q, hq, rfl⟩

theorem bitsAt_mod_self (v lo w : Nat) : bitsAt v lo w % 2 ^ w = bitsAt v lo w := Nat.mod_mod _ _

end Sys2Proof.Machine

open Sys2Proof Sys2Proof.Machine

/-- Settles O36: every loss is `linkDown`, every permitted injection write one `setFs`. -/
theorem linkLossAndInjection : Obligations.LinkLossAndInjection := by
  unfold Obligations.LinkLossAndInjection
  refine ⟨fun s p msg hp hup => ?_, fun s p v hp => ?_⟩
  · intro down
    have hport : hasPort p = true := decide_eq_true hp
    have hdown : ∀ {t : State} {cause : Nat}, LinkLost s t p cause → down t cause := by
      intro t cause h
      obtain ⟨x, hx⟩ := h.port
      exact ⟨h.lnk, h.lanes, h.cause, by rw [hx]; rfl, by rw [hx]; rfl, by rw [hx]; rfl, by rw [hx]; rfl, h.downs,
        State.sameIslands_of_shell h.rest, State.sameMemory_of_shell h.rest⟩
    refine ⟨fun hquiet => ?_, ?_, fun hquiet hrelocked => ?_⟩
    · refine ⟨s.linkDown p 3, ?_, hdown (State.linkDown_lost hp hup (by decide))⟩
      show execRetrainTimeout p s = _
      simp only [execRetrainTimeout, hport, hquiet, if_true]
    · have hlost : LinkLost (s.takeCtl p msg) ((s.takeCtl p msg).linkDown p 4) p 4 := State.linkDown_lost hp hup (by decide)
      refine ⟨(s.takeCtl p msg).linkDown p 4, ?_, hdown ⟨hlost.lnk, hlost.lanes, hlost.cause, hlost.port, hlost.downs, hlost.rest⟩⟩
      show execDownNotice p msg s = _
      simp only [execDownNotice, hport, if_true]
    · refine ⟨s.linkDown p 2, ?_, hdown (State.linkDown_lost hp hup (by decide))⟩
      show execNoValidFlitTimeout p s = _
      simp only [execNoValidFlitTimeout, hport, if_true]
  · intro x ok
    have hlow : ∀ w, bitsAt x 0 w % 2 ^ w = x % 2 ^ w := fun w => by rw [bitsAt, Nat.pow_zero, Nat.div_one, Nat.mod_mod]
    refine ⟨fun hno k hk => execInjectionControlWrite_refused hp hno hk v, fun hyes => ⟨?_, ?_, ?_, fun hmode hn hk => ?_, fun hhold => ?_⟩⟩
    · obtain ⟨t, hrun, hset, hok, hregs⟩ := injectionControlWrite_effects (offset := 0x8200) (v := v) hp hyes (by simp) rfl
        (by simp [injWrite, F.lnkInjCtl_enable, F.lnkInjCtl_count])
      refine ⟨t, hrun, (hset F.lnkInjCtl_enable (bitsAt x 1 1) (by simp [injWrite, x])).trans (bitsAt_mod_self x 1 1),
        (hset F.lnkInjCtl_count (bitsAt x 2 1) (by simp [injWrite, x])).trans (bitsAt_mod_self x 2 1), hok, hregs⟩
    · obtain ⟨t, hrun, hset, hok, hregs⟩ := injectionControlWrite_effects (offset := 0x8208) (v := v) hp hyes (by simp) rfl
        (by simp [injWrite])
      exact ⟨t, hrun, (hset F.lnkInjDrop_n (bitsAt x 0 16) (by simp [injWrite, x])).trans (hlow 16), hok, hregs⟩
    · obtain ⟨t, hrun, hset, hok, -⟩ := injectionControlWrite_effects (offset := 0x8210) (v := v) hp hyes (by simp) rfl
        (by simp [injWrite, F.lnkInjParity_lanes, F.lnkInjParity_n])
      exact ⟨t, hrun, (hset F.lnkInjParity_lanes (bitsAt x 0 8) (by simp [injWrite, x])).trans (hlow 8),
        (hset F.lnkInjParity_n (bitsAt x 8 16) (by simp [injWrite, x])).trans (bitsAt_mod_self x 8 16), hok⟩
    · have hres : injReserved 0x8218 v = false := by
        have h0 : bitsAt v.toNat 0 2 = x % 4 := by
          rw [bitsAt, Nat.pow_zero, Nat.div_one]
          rfl
        have h2 : bitsAt v.toNat 2 16 ≠ 0 := Nat.pos_iff_ne_zero.mp hn
        have h18 : bitsAt v.toNat 18 10 ≠ 0 := Nat.pos_iff_ne_zero.mp hk
        have h3 : bitsAt v.toNat 0 2 ≠ 3 := by omega
        simp only [injReserved, h2, h18, h3, decide_false, Bool.and_false, Bool.or_false]
      obtain ⟨t, hrun, hset, hok, -⟩ := injectionControlWrite_effects (offset := 0x8218) (v := v) hp hyes (by simp) hres
        (by simp [injWrite, F.lnkInjAck_mode, F.lnkInjAck_n, F.lnkInjAck_k])
      exact ⟨t, hrun, (hset F.lnkInjAck_mode (bitsAt x 0 2) (by simp [injWrite, x])).trans (hlow 2),
        (hset F.lnkInjAck_n (bitsAt x 2 16) (by simp [injWrite, x])).trans (bitsAt_mod_self x 2 16),
        (hset F.lnkInjAck_k (bitsAt x 18 10) (by simp [injWrite, x])).trans (bitsAt_mod_self x 18 10), hok⟩
    · have hres : injReserved 0x8220 v = false := by
        have h0 : bitsAt v.toNat 0 16 = x % 2 ^ 16 := by rw [bitsAt, Nat.pow_zero, Nat.div_one]
        have h16 : bitsAt v.toNat 16 12 = x / 2 ^ 16 % 2 ^ 12 := rfl
        simp only [injReserved, h0, h16]
        rcases hhold with h | h
        · rw [h]
          rfl
        · rw [decide_eq_false (Nat.pos_iff_ne_zero.mp h), Bool.and_false]
      obtain ⟨t, hrun, hset, hok, -⟩ := injectionControlWrite_effects (offset := 0x8220) (v := v) hp hyes (by simp) hres
        (by simp [injWrite, F.lnkInjReorder_n, F.lnkInjReorder_hold])
      exact ⟨t, hrun, (hset F.lnkInjReorder_n (bitsAt x 0 16) (by simp [injWrite, x])).trans (hlow 16),
        (hset F.lnkInjReorder_hold (bitsAt x 16 12) (by simp [injWrite, x])).trans (bitsAt_mod_self x 16 12), hok⟩
end

section
/-! A routing change is built, flipped and retired (R367 to R372). -/

namespace Sys2Proof.Machine

/-! ### The banks' states -/

/-- The field of a bank's state (R367). -/
def bankFld (b : Nat) : Fld := if b = 0 then F.gmuEpoch_bank0 else F.gmuEpoch_bank1

theorem State.bankState_eq (s : State) (b : Nat) : s.bankState b = s.getF aGmuEpoch (bankFld b) := rfl

theorem bankFld_lo (b : Nat) : (bankFld b).lo < 64 ∧ (bankFld b).lo ≠ F.gmuEpoch_inject.lo ∧ (bankFld b).lo ≠ F.gmuEpoch_changes.lo := by
  unfold bankFld
  split <;> decide

theorem State.bankState_setBank_same (s : State) (b : Nat) {v : Nat} (hv : v < 4) : (s.setBank b v).bankState b = v := by
  refine (s.getF_setF_same aGmuEpoch (bankFld b) v).trans (Nat.mod_eq_of_lt ?_)
  unfold bankFld
  split <;> exact hv

theorem State.bankState_setBank_other (s : State) {b c : Nat} (v : Nat) (h : bankFld c ≠ bankFld b) :
    (s.setBank b v).bankState c = s.bankState c := by
  refine s.getF_setF_beside aGmuEpoch (bankFld b) (bankFld c) v ?_
  unfold bankFld at *
  split_ifs at * <;> first | contradiction | decide

theorem bankFld_other {e : Nat} (h : e < 2) : bankFld (1 - e) ≠ bankFld e ∧ bankFld e ≠ bankFld (1 - e) := by
  have : e = 0 ∨ e = 1 := by omega
  rcases this with rfl | rfl <;> exact ⟨by decide, by decide⟩

/-! ### A table built -/

theorem State.of_offRegs {β : Type} (g : State → β) (hg : ∀ s, g s.offRegs = g s) {s t : State}
    (h : t.offRegs = s.offRegs) : g t = g s := by
  rw [← hg t, h, hg]

/-- The ports of a route depend on no routing table. -/
theorem State.routePorts_congr {s t : State} (hrest : t.offRegs = s.offRegs)
    (hregs : ∀ b (g : Fld), b ≤ aGmuFence → g.lo < 64 → t.getF b g = s.getF b g) (dest : Nat) : t.routePorts dest = s.routePorts dest := by
  have hkey : ∀ p, t.linkKey p = s.linkKey p := fun p => State.of_offRegs (fun s => s.linkKey p) (fun _ => rfl) hrest
  have hdir : ∀ d, t.dirProductive d dest = s.dirProductive d dest := fun d =>
    State.of_offRegs (fun s => s.dirProductive d dest) (fun _ => rfl) hrest
  have hdowns : t.gmu.downs = s.gmu.downs := State.of_offRegs (fun s => s.gmu.downs) (fun _ => rfl) hrest
  have hfence : ∀ p, t.fenced p = s.fenced p := fun p => by rw [State.fenced, State.fenced, hregs _ _ (Nat.le_refl _) (by decide)]
  unfold State.routePorts
  refine congrArg (fun l => (l.map fun p => 2 ^ p).sum) (List.filter_congr fun p hp => ?_)
  have hlt : p < 48 := List.mem_range.mp hp
  have hconfig : aCrpConfig p ≤ aGmuFence := by
    unfold aCrpConfig prtBase aGmuFence gmuBase
    omega
  have hstate : aLnkState p ≤ aGmuFence := by
    unfold aLnkState prtBase aGmuFence gmuBase
    omega
  have hup : t.linkUp p = s.linkUp p := by rw [State.linkUp, State.linkUp, hregs _ _ hstate (by decide)]
  simp only [hkey, hdir, hdowns, hfence, hup, hregs _ F.crpConfig_sched hconfig (by decide)]

theorem State.getF_clearSpan (s : State) {a n b : Nat} {g : Fld} (h : b < a) (hg : g.lo < 64) :
    (s.clearSpan a n).getF b g = s.getF b g := by
  have hkeep : (!(decide (64 * a ≤ fkey b g ∧ fkey b g < 64 * (a + n)))) = true := by
    rw [Bool.not_eq_true', decide_eq_false_iff_not]
    simp only [fkey]
    omega
  have hget := Tbl.get_filter 0 s.regs (fun k => !(decide (64 * a ≤ k ∧ k < 64 * (a + n)))) (fkey b g)
  rw [if_pos hkeep] at hget
  exact congrArg (· ^^^ g.reset) hget

/-- One entry of a routing table. -/
def State.buildRoute (b : Nat) (s : State) (d : Nat) : State :=
  s.setFs (aGmuRoute b d) [(F.gmuRoute_ports, s.routePorts d), (F.gmuRoute_valid, 1)]

theorem routeFields (v : Nat) : ([(F.gmuRoute_ports, v), (F.gmuRoute_valid, 1)].map fun q : Fld × Nat => q.1.lo).Nodup ∧
    ∀ q ∈ [(F.gmuRoute_ports, v), (F.gmuRoute_valid, 1)], q.1.lo < 64 := by
  simp [F.gmuRoute_ports, F.gmuRoute_valid]

theorem State.offRegs_setF (s : State) (a : Nat) (f : Fld) (v : Nat) : (s.setF a f v).offRegs = s.offRegs := (rfl)

theorem State.offRegs_setFs (s : State) (a : Nat) (l : List (Fld × Nat)) : (s.setFs a l).offRegs = s.offRegs :=
  State.foldl_frame State.offRegs l (fun s (q : Fld × Nat) => State.offRegs_setF s a q.1 q.2) s

/-- What a table's construction keeps and brings (R368, R370). -/
structure RoutesBuilt (v t : State) (b : Nat) (ds : List Nat) : Prop where
  rest : t.offRegs = v.offRegs
  regs : ∀ a (g : Fld), a ≤ aGmuFence → g.lo < 64 → t.getF a g = v.getF a g
  valid : ∀ d ∈ ds, t.getF (aGmuRoute b d) F.gmuRoute_valid = 1
  ports : ∀ d ∈ ds, t.getF (aGmuRoute b d) F.gmuRoute_ports = v.routePorts d % 2 ^ F.gmuRoute_ports.width

theorem RoutesBuilt.route {v t : State} {b : Nat} {ds : List Nat} (h : RoutesBuilt v t b ds) (d : Nat) :
    RoutesBuilt v (t.buildRoute b d) b (ds ++ [d]) := by
  have hlow : aGmuFence < aGmuRoute b d := by
    unfold aGmuFence aGmuRoute
    omega
  obtain ⟨hnodup, hlo⟩ := routeFields (t.routePorts d)
  have hports : t.routePorts d = v.routePorts d := State.routePorts_congr h.rest h.regs d
  have hset : ∀ f x, (f, x) ∈ [(F.gmuRoute_ports, t.routePorts d), (F.gmuRoute_valid, 1)] →
      (t.buildRoute b d).getF (aGmuRoute b d) f = x % 2 ^ f.width := fun f x hf => State.getF_setFs_mem hnodup hf t
  have hvalid : (t.buildRoute b d).getF (aGmuRoute b d) F.gmuRoute_valid = 1 := hset F.gmuRoute_valid 1 (by simp)
  have hout : (t.buildRoute b d).getF (aGmuRoute b d) F.gmuRoute_ports = v.routePorts d % 2 ^ F.gmuRoute_ports.width :=
    hports ▸ hset F.gmuRoute_ports (t.routePorts d) (by simp)
  have hother : ∀ x, x ≠ d → ∀ g : Fld, g.lo < 64 → (t.buildRoute b d).getF (aGmuRoute b x) g = t.getF (aGmuRoute b x) g := by
    intro x hx g hg
    refine State.getF_setFs_apart ?_ hlo hg t
    unfold aGmuRoute
    omega
  refine ⟨(t.offRegs_setFs _ _).trans h.rest, fun a g ha hg => ?_, fun x hx => ?_, fun x hx => ?_⟩
  · exact (State.getF_setFs_apart (Nat.ne_of_lt (Nat.lt_of_le_of_lt ha hlow)) hlo hg t).trans (h.regs a g ha hg)
  · by_cases hxd : x = d
    · rw [hxd, hvalid]
    · have hmem : x ∈ ds := (List.mem_append.mp hx).resolve_right (by simp [hxd])
      exact (hother x hxd _ (by decide)).trans (h.valid x hmem)
  · by_cases hxd : x = d
    · rw [hxd, hout]
    · have hmem : x ∈ ds := (List.mem_append.mp hx).resolve_right (by simp [hxd])
      exact (hother x hxd _ (by decide)).trans (h.ports x hmem)

theorem RoutesBuilt.foldl {v : State} {b : Nat} (l : List Nat) : ∀ {t : State} {ds : List Nat}, RoutesBuilt v t b ds →
    RoutesBuilt v (l.foldl (State.buildRoute b) t) b (ds ++ l) := by
  induction l with
  | nil => exact fun h => by rw [List.append_nil]; exact h
  | cons d l ih =>
    intro t ds h
    have := ih (h.route d)
    rwa [List.append_assoc, List.singleton_append] at this

theorem State.buildBank_built (s : State) (b : Nat) : RoutesBuilt s (s.buildBank b) b s.boxMembers := by
  have hlow : aGmuFence < aGmuRoute b 0 := by
    unfold aGmuFence aGmuRoute
    omega
  have hclear : RoutesBuilt s (s.clearSpan (aGmuRoute b 0) (8 * 16384)) b [] :=
    ⟨rfl, fun a g ha hg => s.getF_clearSpan (Nat.lt_of_le_of_lt ha hlow) hg, fun _ h => absurd h List.not_mem_nil,
      fun _ h => absurd h List.not_mem_nil⟩
  exact hclear.foldl (s.clearSpan (aGmuRoute b 0) (8 * 16384)).boxMembers

/-! ### The steps of a routing change -/

/-- A message taken changes no register, no unit and no memory. -/
theorem State.takeMsg_frame (s : State) (m : Msg) : s.sameIslands (s.takeMsg m) ∧ s.sameMemory (s.takeMsg m) :=
  ⟨State.sameIslands_of_units (s.units_takeMsg m), State.takeMsg_ctl State.mem (fun _ _ => rfl) (fun _ _ => rfl) s m,
    State.takeMsg_ctl State.tags (fun _ _ => rfl) (fun _ _ => rfl) s m, State.takeMsg_ctl State.bad (fun _ _ => rfl) (fun _ _ => rfl) s m⟩

theorem State.frame_of_bare {s t : State} (h : t.bare = s.bare) : s.sameIslands t ∧ s.sameMemory t :=
  ⟨State.sameIslands_of_bare h, State.sameMemory_of_bare h⟩

theorem State.frame_trans {s t v : State} (h : s.sameIslands t ∧ s.sameMemory t) (k : t.sameIslands v ∧ t.sameMemory v) :
    s.sameIslands v ∧ s.sameMemory v := ⟨h.1.trans k.1, h.2.trans k.2⟩

theorem State.frame_sendAll (s : State) (m : Msg) : s.sameIslands (s.sendAll m) ∧ s.sameMemory (s.sendAll m) :=
  State.frame_of_bare (s.bare_sendAll m)

/-- A table built in the retired bank and marked as installed (R369, R370). -/
theorem routeInstall_effects {s : State} {msg : Msg} (hfree : (s.takeMsg msg).bankState (msgBits msg 22 1) ≠ 2) :
    CompletesWith (execRouteInstall msg s) fun t =>
      t.bankState (msgBits msg 22 1) = 1 ∧ t.bankState (1 - msgBits msg 22 1) = s.bankState (1 - msgBits msg 22 1) ∧
      (s.sameIslands t ∧ s.sameMemory t) ∧
      (∀ d ∈ (s.takeMsg msg).boxMembers, t.getF (aGmuRoute (msgBits msg 22 1) d) F.gmuRoute_valid = 1 ∧
        t.getF (aGmuRoute (msgBits msg 22 1) d) F.gmuRoute_ports =
          ((s.takeMsg msg).noteLink (msgBits msg 64 19) (msg.getLsbD 83)).routePorts d % 2 ^ F.gmuRoute_ports.width) := by
  let s0 := s.takeMsg msg
  let e := msgBits msg 22 1
  let v := s0.noteLink (msgBits msg 64 19) (msg.getLsbD 83)
  let u := v.buildBank e
  let w := u.setBank e 1
  let m := w.msgOf 0x05 [(22, e), (64, routeContent (msgBits msg 64 19) (msg.getLsbD 83))]
  have hbuilt : RoutesBuilt v u e s0.boxMembers := v.buildBank_built e
  have he : e < 2 := Nat.mod_lt _ (by decide)
  have hroute : ∀ d, aGmuRoute e d ≠ aGmuEpoch := fun d => by
    unfold aGmuRoute aGmuEpoch
    omega
  have hkept : ∀ d (g : Fld), g.lo < 64 → w.getF (aGmuRoute e d) g = u.getF (aGmuRoute e d) g := fun d g hg =>
    u.getF_setF_apart (bankFld e) g 1 (hroute d) (bankFld_lo e).1 hg
  have hsend : ∀ b g, (w.sendTo (msgBits msg 8 14) m).getF b g = w.getF b g := fun b g => w.getF_sendTo _ _ b g
  refine ⟨w.sendTo (msgBits msg 8 14) m, ?_, ?_, ?_, ?_, fun d hd => ⟨?_, ?_⟩⟩
  · simp only [execRouteInstall, if_neg hfree]
    rfl
  · exact (hsend _ _).trans (u.bankState_setBank_same e (by decide))
  · refine (hsend _ _).trans ((u.bankState_setBank_other 1 (bankFld_other he).1).trans ?_)
    refine (hbuilt.regs aGmuEpoch (bankFld (1 - e)) (by decide) (bankFld_lo _).1).trans ?_
    exact s.getF_takeMsg msg aGmuEpoch (bankFld (1 - e))
  · have hbuild : u.bare = v.bare := State.of_offRegs State.bare (fun _ => rfl) hbuilt.rest
    have hnote : s0.sameIslands v ∧ s0.sameMemory v := ⟨⟨rfl, rfl, rfl⟩, rfl, rfl, rfl⟩
    have hwrite : w.bare = u.bare := u.bare_setF aGmuEpoch (bankFld e) 1
    exact State.frame_trans (s.takeMsg_frame msg)
      (State.frame_trans hnote (State.frame_of_bare ((w.bare_sendTo _ _).trans (hwrite.trans hbuild))))
  · exact (hsend _ _).trans ((hkept d _ (by decide)).trans (hbuilt.valid d hd))
  · exact (hsend _ _).trans ((hkept d _ (by decide)).trans (hbuilt.ports d hd))

/-- The last answer: the lead broadcasts the flip (R369). -/
theorem routeReady_last {s : State} {msg : Msg} {key : Nat} {down : Bool} (hlead : (s.takeMsg msg).isLead = true)
    (hasked : (s.takeMsg msg).gmu.asked = [(key, down)]) (hkey : msgBits msg 64 19 = key)
    (hall : ∀ q ∈ (s.takeMsg msg).livingMembers, q = msgBits msg 8 14 ∨ (q, key) ∈ (s.takeMsg msg).gmu.ready) :
    CompletesWith (execRouteReady msg s) fun t =>
      (s.takeMsg msg).msgOf 0x06 [(22, msgBits msg 22 1), (64, ((s.takeMsg msg).nowNs + 10000) % 2 ^ 48)] ∈ t.ctl.loop ∧
      t.regs = (s.takeMsg msg).regs ∧ (s.sameIslands t ∧ s.sameMemory t) := by
  let s0 := s.takeMsg msg
  let x := (msgBits msg 8 14, msgBits msg 64 19)
  let ready := if s0.gmu.ready.contains x then s0.gmu.ready else s0.gmu.ready ++ [x]
  let s1 : State := { s0 with gmu := { s0.gmu with ready := ready } }
  let m := s0.msgOf 0x06 [(22, msgBits msg 22 1), (64, (s0.nowNs + 10000) % 2 ^ 48)]
  have hmem : ∀ y, y = x ∨ y ∈ s0.gmu.ready → y ∈ ready := by
    intro y hy
    simp only [ready]
    split
    · rename_i hx
      rcases hy with rfl | hy
      · exact List.contains_iff_mem.mp hx
      · exact hy
    · rcases hy with rfl | hy
      · exact List.mem_append_right _ List.mem_cons_self
      · exact List.mem_append_left _ hy
  have hdone : (s1.livingMembers.all fun p => s1.gmu.asked.all fun c => ready.contains (p, c.1)) = true := by
    refine List.all_eq_true.mpr fun q hq => List.all_eq_true.mpr fun c hc => List.contains_iff_mem.mpr (hmem _ ?_)
    have hc' : c = (key, down) := List.mem_singleton.mp (hasked ▸ hc)
    rw [hc']
    rcases hall q hq with h | h
    · exact .inl (by rw [h, ← hkey])
    · exact .inr h
  have hframe : s0.sameIslands s1 ∧ s0.sameMemory s1 := ⟨⟨rfl, rfl, rfl⟩, rfl, rfl, rfl⟩
  have hopen : ¬((!s0.isLead) = true ∨ s0.gmu.asked.isEmpty = true) := by
    rw [hlead, hasked]
    simp
  refine ⟨s1.sendAll m, ?_, s1.mem_loop_sendAll m, s1.regs_sendAll m, State.frame_trans (s.takeMsg_frame msg)
    (State.frame_trans hframe (s1.frame_sendAll m))⟩
  unfold execRouteReady
  rw [if_neg hopen]
  exact if_pos hdone

/-- The flip (R369): the installed bank is active, and new packets take its epoch bit. -/
theorem epochFlip_effects {s : State} (hnow : s.getF aGmuEpoch F.gmuEpoch_inject < 2) (hflip : s.gmu.flip.isSome = true)
    (hbank : s.bankState (1 - s.getF aGmuEpoch F.gmuEpoch_inject) = 1) :
    CompletesWith (execEpochFlip s) fun t =>
      let now := s.getF aGmuEpoch F.gmuEpoch_inject
      t.bankState (1 - now) = 2 ∧ t.getF aGmuEpoch F.gmuEpoch_inject = 1 - now ∧ t.bankState now = s.bankState now ∧
        t.getF aGmuEpoch F.gmuEpoch_changes = raised F.gmuEpoch_changes (s.getF aGmuEpoch F.gmuEpoch_changes) 1 ∧ t.gmu.flip = none ∧
        s.sameIslands t ∧ s.sameMemory t := by
  let now := s.getF aGmuEpoch F.gmuEpoch_inject
  let e := 1 - now
  let s1 := s.setBank e 2
  let s2 := s1.setF aGmuEpoch F.gmuEpoch_inject e
  let s3 := s2.bump aGmuEpoch F.gmuEpoch_changes 1
  have hlate : ∀ b, s3.bankState b = s1.bankState b := fun b =>
    (s2.getF_setF_beside aGmuEpoch F.gmuEpoch_changes (bankFld b) _ (bankFld_lo b).2.2).trans
      (s1.getF_setF_beside aGmuEpoch F.gmuEpoch_inject (bankFld b) e (bankFld_lo b).2.1)
  have hchanges : s2.getF aGmuEpoch F.gmuEpoch_changes = s.getF aGmuEpoch F.gmuEpoch_changes :=
    (s1.getF_setF_beside aGmuEpoch F.gmuEpoch_inject F.gmuEpoch_changes e (by decide)).trans
      (s.getF_setF_beside aGmuEpoch (bankFld e) F.gmuEpoch_changes 2 (bankFld_lo e).2.2.symm)
  have hinject : s3.getF aGmuEpoch F.gmuEpoch_inject = e :=
    (s2.getF_setF_beside aGmuEpoch F.gmuEpoch_changes F.gmuEpoch_inject _ (by decide)).trans
      ((s1.getF_setF_same ..).trans (Nat.mod_eq_of_lt (show 1 - now < 2 by omega)))
  refine ⟨{ s3 with gmu := { s3.gmu with flip := none } }, ?_, (hlate _).trans (s.bankState_setBank_same e (by decide)), hinject,
    (hlate _).trans (s.bankState_setBank_other 2 (bankFld_other hnow).2), (s2.getF_bump_same ..).trans (by rw [hchanges]), rfl,
    ⟨rfl, rfl, rfl⟩, rfl, rfl, rfl⟩
  unfold execEpochFlip
  rw [if_pos ⟨hflip, hbank⟩]

/-- The old bank retired on a member (R372). -/
theorem epochRetire_effects {s : State} (hnow : s.getF aGmuEpoch F.gmuEpoch_inject < 2)
    (hbank : s.bankState (1 - s.getF aGmuEpoch F.gmuEpoch_inject) = 2) (hlead : s.isLead = false) :
    CompletesWith (execEpochRetire s) fun t =>
      let now := s.getF aGmuEpoch F.gmuEpoch_inject
      t.bankState (1 - now) = 0 ∧ t.bankState now = s.bankState now ∧ t.gmu.asked = [] ∧ s.sameIslands t ∧ s.sameMemory t := by
  let e := 1 - s.getF aGmuEpoch F.gmuEpoch_inject
  let s1 := s.setBank e 0
  let s2 : State := { s1 with gmu := { s1.gmu with asked := [], ready := [], changes := [] } }
  have hrole : aFltState ≠ aGmuEpoch := by decide
  have hlead2 : s2.isLead = false := by
    rw [← hlead, State.isLead, State.isLead]
    exact congrArg (fun v => decide (v = 1)) (s.getF_setF_apart (bankFld e) F.fltState_role 0 hrole (bankFld_lo e).1 (by decide))
  have hresume : s2.leadResume = s2 := by
    simp only [State.leadResume, hlead2, Bool.false_and, Bool.false_eq_true, if_false]
  refine ⟨s2, ?_, s.bankState_setBank_same e (by decide), s.bankState_setBank_other 0 (bankFld_other hnow).2, rfl, ⟨rfl, rfl, rfl⟩, rfl, rfl, rfl⟩
  have hstay : ¬(s2.isLead = true ∧ (!s1.gmu.changes.isEmpty) = true) := fun h => absurd (h.1.symm.trans hlead2) (by decide)
  unfold execEpochRetire
  rw [if_pos hbank]
  exact congrArg Host.Outcome.next ((if_neg hstay).trans hresume)

end Sys2Proof.Machine

open Sys2Proof Sys2Proof.Machine

/-- Settles O40, step by step of the change: install, the last answer, the flip, the retirement. -/
theorem routingChanges : Obligations.RoutingChanges := by
  unfold Obligations.RoutingChanges
  intro s msg s0 e now rest
  refine ⟨fun hfree _ => routeInstall_effects hfree, fun hlead key down hasked _ hkey hall => routeReady_last hlead hasked hkey hall, ?_,
    fun hnow hflip hbank => epochFlip_effects hnow hflip hbank, fun hnow hbank hlead => epochRetire_effects hnow hbank hlead⟩
  have hframe : s0.sameIslands { s0 with gmu := { s0.gmu with flip := some (msgBits msg 64 48) } } ∧
      s0.sameMemory { s0 with gmu := { s0.gmu with flip := some (msgBits msg 64 48) } } := ⟨⟨rfl, rfl, rfl⟩, rfl, rfl, rfl⟩
  exact ⟨_, rfl, rfl, s.regs_takeMsg msg, State.frame_trans (s.takeMsg_frame msg) hframe⟩
end

section
/-! Authentication tags and the end of a silent session (R455, R461 to R463). -/

namespace Sys2Proof.Machine

/-! ### A message to one package -/

/-- A message to another package with a route waits for the port of that route (R480, R542). -/
theorem State.sendTo_routed {s : State} {k o : Nat} {m : Msg} (hk : k ≠ s.self) (hroute : s.ctlRoute k = some o) :
    s.sendTo k m = s.queueCtl o { dest := k, bcast := false, local_ := false, source := s.self, msg := m } := by
  simp only [State.sendTo, State.unicast, if_neg hk, hroute]

theorem State.mem_queueCtl (s : State) (o : Nat) (c : Ctl) : c ∈ Tbl.get [] (s.queueCtl o c).ctl.queue o := by
  have hget : Tbl.get [] (s.queueCtl o c).ctl.queue o = Tbl.get [] s.ctl.queue o ++ [c] := Tbl.get_set_same ..
  rw [hget]
  exact List.mem_append_right _ List.mem_cons_self

theorem State.sendTo_queues {s : State} {k o : Nat} (m : Msg) (hk : k ≠ s.self) (hroute : s.ctlRoute k = some o) :
    ∃ c ∈ Tbl.get [] (s.sendTo k m).ctl.queue o, c.dest = k ∧ c.bcast = false ∧ c.msg = m := by
  rw [State.sendTo_routed hk hroute]
  exact ⟨_, s.mem_queueCtl o _, rfl, rfl, rfl⟩

/-- A port with flits sent since its previous tag sends one over them (R462). -/
theorem State.sendTag_sends {s : State} {p k : Nat} (hpartner : (s.port p).partner = some k) (henc : (s.port p).encTx = true)
    (htag : (s.port p).tagged < (s.port p).eTx) :
    s.sendTag p = (s.setPort p { s.port p with tagged := (s.port p).eTx }).sendTo k (s.authTagMsg p ((s.port p).eTx - 1)) := by
  unfold State.sendTag
  extract_lets x
  split
  · rename_i k' hk'
    cases hpartner.symm.trans hk'
    exact if_pos ⟨henc, htag⟩
  · rename_i hnone
    cases hpartner.symm.trans hnone

/-! ### Tags judged -/

theorem State.quarantine_frame (s : State) (p : Nat) : (s.quarantine p).bare = s.bare ∧
    ∀ g : Fld, g.lo < 64 → p < numPorts → (s.quarantine p).getF aSecAuth g = s.getF aSecAuth g := by
  let s1 := ((s.setF (aBocDisc p) F.bocDisc_class 3).setFence p true).setF (aLnkState p) F.lnkState_state 6
  have hbare : s1.bare = s.bare := by simp only [s1, State.setFence, State.bare_setF]
  refine ⟨(s1.bare_event _ _ _ _ _).trans hbare, fun g hg hp => ?_⟩
  have hdisc : aSecAuth ≠ aBocDisc p := by
    unfold aSecAuth secBase aBocDisc bocBase
    omega
  have hstate : aSecAuth ≠ aLnkState p := by
    simp only [numPorts, maxPorts] at hp
    unfold aSecAuth secBase aLnkState prtBase
    omega
  refine (s1.getF_event _ _ _ _ _ (by decide) hg).trans ?_
  refine (State.getF_setF_apart _ F.lnkState_state g 6 hstate (by decide) hg).trans ?_
  exact (State.getF_setF_apart _ F.gmuFence_fenced g _ (by decide) (by decide) hg).trans
    (s.getF_setF_apart F.bocDisc_class g 3 hdisc (by decide) hg)

/-- A tag that fails (R463): counted on its port and in the register; a second one quarantines the port. -/
theorem State.judgeTag_bad (s : State) {p : Nat} (hp : p < numPorts) (e : Nat) :
    (s.judgeTag p e false).port p = { s.port p with authBad := (s.port p).authBad + 1 } ∧
      (s.judgeTag p e false).getF aSecAuth F.secAuth_failed = raised F.secAuth_failed (s.getF aSecAuth F.secAuth_failed) 1 ∧
      (s.judgeTag p e false).shell = s.shell := by
  unfold State.judgeTag
  rw [if_neg (by decide)]
  extract_lets s1 a s2 s3 s4 x
  have h3 : s3.bare = s1.bare ∧ s3.getF aSecAuth F.secAuth_failed = s2.getF aSecAuth F.secAuth_failed := by
    simp only [s3]
    split
    · exact ⟨rfl, rfl⟩
    · refine ⟨(s2.bare_setFs _ _).trans (s1.bare_bump ..), ?_⟩
      exact (State.getF_setF_beside _ a F.secAuth_valid F.secAuth_failed 1 (by decide)).trans
        (s2.getF_setF_beside a F.secAuth_port F.secAuth_failed p (by decide))
  have h4 : s4.bare = s1.bare ∧ s4.getF aSecAuth F.secAuth_failed = s2.getF aSecAuth F.secAuth_failed :=
    ⟨(State.bare_faultReport _ _ _).trans ((s3.bare_event _ _ _ _ _).trans h3.1),
      (State.getF_faultReport _ _ _ _ _).trans ((s3.getF_event _ _ _ _ _ (by decide) (by decide)).trans h3.2)⟩
  let t := if 2 ≤ x.authBad + 1 then s4.quarantine p else s4
  have ht : t.bare = s1.bare ∧ t.getF aSecAuth F.secAuth_failed = s2.getF aSecAuth F.secAuth_failed := by
    simp only [t]
    split
    · obtain ⟨hbare, hread⟩ := s4.quarantine_frame p
      exact ⟨hbare.trans h4.1, (hread F.secAuth_failed (by decide) hp).trans h4.2⟩
    · exact h4
  refine ⟨(State.of_bare (fun s => s.port p) (fun _ => rfl) ht.1).trans ((s.port_setPort p _ p).trans (if_pos rfl)),
    ht.2.trans (s1.getF_bump_same ..), (State.shell_of_bare ht.1).trans (s.shell_setPort ..)⟩

/-- A tag that verifies (R463): its flits are covered. -/
theorem State.judgeTag_good (s : State) (p e : Nat) :
    s.judgeTag p e true = s.setPort p { s.port p with covered := max (s.port p).covered (e + 1) } := by
  simp only [State.judgeTag, if_true]

/-- A tag whose flits are released is judged at once (R463). -/
theorem State.judgeTags_one {s : State} {p e : Nat} {ok : Bool} (hwait : (s.port p).tagWait = [(e, ok)]) (he : e < (s.port p).eRx) :
    s.judgeTags p =
      let v := s.setPort p { s.port p with tagWait := [] }
      (if ok then v.bump aSecAuth F.secAuth_verified 1 else v).judgeTag p e ok := by
  simp only [State.judgeTags, hwait, he, List.filter_cons, List.filter_nil, decide_true, Bool.not_true, Bool.false_eq_true, if_true,
    if_false, List.foldl_cons, List.foldl_nil]

/-- A held report that goes, or waits on, is a message or a note of recovery. -/
theorem State.reportLate_frame {β : Type} (g : State → β) (hctl : ∀ s x, g { s with ctl := x } = g s)
    (hrcv : ∀ s x, g { s with rcv := x } = g s) (s : State) : g s.reportLate = g s := by
  simp only [State.reportLate]
  split
  · split
    · simp only [State.stepReport]
      split
      · exact (State.unicast_ctl g hctl _ _).trans (hrcv s _)
      · exact (hrcv _ _).trans (hrcv s _)
    · rfl
  · rfl

/-- A tag received whose flits are all released is judged at once (R462, R463). -/
theorem execAuthTag_judged {s : State} {p : Nat} {msg : Msg} {ok : Bool} (hp : p < numPorts)
    (henc : ((s.takeMsg msg).port p).encRx = true) (hwait : ((s.takeMsg msg).port p).tagWait = [])
    (hkind : msgBits msg 0 8 = 0x40 + oppositePort p)
    (he : resolveE (((s.takeMsg msg).port p).eRx - 1) (msgBits msg 8 24) < ((s.takeMsg msg).port p).eRx) :
    ∃ v : State, v.port p = { (s.takeMsg msg).port p with tagWait := [] } ∧ v.shell = (s.takeMsg msg).shell ∧ v.regs = s.regs ∧
      execAuthTag p msg ok s = .next (((if ok then v.bump aSecAuth F.secAuth_verified 1 else v).judgeTag p
        (resolveE (((s.takeMsg msg).port p).eRx - 1) (msgBits msg 8 24)) ok).reportLate) := by
  let s0 := s.takeMsg msg
  let e := resolveE ((s0.port p).eRx - 1) (msgBits msg 8 24)
  let s1 := s0.setPort p { s0.port p with tagWait := (s0.port p).tagWait ++ [(e, ok)] }
  have hport : s1.port p = { s0.port p with tagWait := (s0.port p).tagWait ++ [(e, ok)] } := (s0.port_setPort p _ p).trans (if_pos rfl)
  have hone : (s1.port p).tagWait = [(e, ok)] := by rw [hport, hwait]; rfl
  have hlt : e < (s1.port p).eRx := by rw [hport]; exact he
  have hrun : execAuthTag p msg ok s = .next ((s1.judgeTags p).reportLate) := by
    have hhas : hasPort p = true := decide_eq_true hp
    unfold execAuthTag
    rw [if_pos hhas]
    exact if_pos ⟨henc, hkind⟩
  refine ⟨s1.setPort p { s1.port p with tagWait := [] }, ?_, rfl, s.regs_takeMsg msg, ?_⟩
  · refine (s1.port_setPort p _ p).trans ((if_pos rfl).trans ?_)
    rw [hport]
  · rw [hrun, State.judgeTags_one hone hlt]

end Sys2Proof.Machine

open Sys2Proof Sys2Proof.Machine

/-- Settles O44: tags sent and asked for are messages with a route, tags received are judged. -/
theorem tagsAndSessions : Obligations.TagsAndSessions := by
  unfold Obligations.TagsAndSessions
  intro s p msg hp s0 x rest sends
  have hport : hasPort p = true := decide_eq_true hp
  refine ⟨fun k o hpartner hk hroute henc htag => ?_, ?_, fun k o hopp => ?_, fun henc hcover => ?_, fun id => ?_⟩
  · let s1 := s.setPort p { x with tagged := x.eTx }
    have hsend : execAuthTagSend p s = .next (s1.sendTo k (s.authTagMsg p (x.eTx - 1))) := by
      have hpartner' : (s.port p).partner = some k := hpartner
      unfold execAuthTagSend
      rw [if_pos hport, State.sendTag_sends hpartner' henc htag]
    refine ⟨_, hsend, State.sendTo_queues _ hk hroute, ?_, State.regs_sendTo _ _ _, ?_, ?_⟩
    · rw [State.sendTo_routed (s := s1) hk hroute]
      exact (s.port_setPort p _ p).trans (if_pos rfl)
    · exact State.sameIslands_of_shell ((State.shell_of_bare (s1.bare_sendTo _ _)).trans (s.shell_setPort p _))
    · exact State.sameMemory_of_shell ((State.shell_of_bare (s1.bare_sendTo _ _)).trans (s.shell_setPort p _))
  · intro y e henc hwait hkind he hnone
    have hmsg := s.takeMsg_frame msg
    have hframe : ∀ t : State, t.shell = s0.shell → rest t := fun t ht =>
      ⟨hmsg.1.trans (State.sameIslands_of_shell ht), hmsg.2.trans (State.sameMemory_of_shell ht)⟩
    refine ⟨?_, ?_⟩
    · obtain ⟨v, hvport, hvshell, hvregs, hrun⟩ := execAuthTag_judged (ok := true) hp henc hwait hkind he
      let w := v.bump aSecAuth F.secAuth_verified 1
      have hw : (w.judgeTag p e true).shell = s0.shell ∧ (w.judgeTag p e true).regs = w.regs ∧
          ((w.judgeTag p e true).port p).covered = max y.covered (e + 1) := by
        have hwport : w.port p = { y with tagWait := [] } := hvport
        rw [w.judgeTag_good]
        refine ⟨(w.shell_setPort p _).trans ((State.shell_of_bare (v.bare_bump ..)).trans hvshell), rfl, ?_⟩
        rw [w.port_setPort, if_pos rfl, hwport]
      have hfinal := (w.judgeTag p e true).reportLate_frame State.regs (fun _ _ => rfl) (fun _ _ => rfl)
      have hread : ∀ b g, (w.judgeTag p e true).reportLate.getF b g = w.getF b g := fun b g => by
        rw [State.getF, hfinal, hw.2.1, State.getF]
      have hold : ∀ b g, v.getF b g = s.getF b g := fun b g => by rw [State.getF, hvregs, State.getF]
      refine ⟨_, hrun, ?_, ?_, ?_, hframe _ ?_⟩
      · exact (congrArg Port.covered ((w.judgeTag p e true).reportLate_frame (fun s => s.port p) (fun _ _ => rfl) (fun _ _ => rfl))).trans hw.2.2
      · refine (hread _ _).trans ((v.getF_bump_same ..).trans ?_)
        rw [hold]
      · intro b g hb
        refine (hread b g).trans (((v.regsBut_refl _).bump (a := aSecAuth) (f := F.secAuth_verified) List.mem_cons_self 1 b g hb).trans (hold b g))
      · exact ((w.judgeTag p e true).reportLate_frame State.shell (fun _ _ => rfl) (fun _ _ => rfl)).trans hw.1
    · obtain ⟨v, hvport, hvshell, hvregs, hrun⟩ := execAuthTag_judged (ok := false) hp henc hwait hkind he
      obtain ⟨hbadport, hfailed, hshell⟩ := v.judgeTag_bad hp e
      have hlate := (v.judgeTag p e false).reportLate_frame (fun s => s.port p) (fun _ _ => rfl) (fun _ _ => rfl)
      have hvport' : v.port p = { y with tagWait := [] } := hvport
      refine ⟨_, hrun, ?_, ?_, ?_, hframe _ ?_⟩
      · refine (congrArg Port.covered (hlate.trans hbadport)).trans ?_
        rw [hvport']
      · refine (congrArg Port.authBad (hlate.trans hbadport)).trans ?_
        rw [hvport']
      · refine ((v.judgeTag p e false).reportLate_frame (fun s => s.getF aSecAuth F.secAuth_failed) (fun _ _ => rfl) (fun _ _ => rfl)).trans
          (hfailed.trans ?_)
        rw [State.getF, hvregs, ← State.getF]
      · exact ((v.judgeTag p e false).reportLate_frame State.shell (fun _ _ => rfl) (fun _ _ => rfl)).trans (hshell.trans hvshell)
  · intro y e hpartner hk hroute henc he htag
    have hrun : execTagRequest msg s = .next (s0.sendTo k (s0.authTagMsg p e)) := by
      have hy : ((s.takeMsg msg).port (oppositePort (msgBits msg 8 6))).partner = some k := hopp ▸ hpartner
      unfold execTagRequest
      simp only [hy]
      rw [← hopp]
      exact if_pos ⟨hport, henc, he, htag⟩
    have hmsg := s.takeMsg_frame msg
    refine ⟨_, hrun, State.sendTo_queues _ hk hroute, (State.regs_sendTo _ _ _).trans (s.regs_takeMsg msg), ?_⟩
    · exact State.frame_trans hmsg (State.frame_of_bare (s0.bare_sendTo _ _))
  · obtain ⟨hbadport, hfailed, hshell⟩ := s.judgeTag_bad hp x.covered
    have hrun : execAuthTagTimeout p s = .next (s.judgeTag p x.covered false) := by
      unfold execAuthTagTimeout
      rw [if_pos hport]
      exact if_pos ⟨henc, hcover⟩
    exact ⟨_, hrun, congrArg Port.authBad hbadport, hfailed, State.sameIslands_of_shell hshell, State.sameMemory_of_shell hshell⟩
  · refine ⟨s.endSession id, rfl, ?_, fun j hj => ?_, rfl, rfl, ⟨rfl, rfl, rfl⟩, rfl, rfl, rfl⟩
    · refine List.find?_eq_none.mpr fun x hx => ?_
      have hne := (List.mem_filter.mp hx).2
      simpa using hne
    · simp only [State.session, State.endSession, List.find?_filter]
      refine congrArg (fun f => List.find? f s.boc.sessions) (funext fun x => ?_)
      by_cases hx : x.id = j
      · simp [hx, hj]
      · simp [hx]
end

section
/-! Control messages forwarded, spread and dropped; failover of the Bocal; errors of field controllers (R475, R476, R480 to R482). -/

namespace Sys2Proof.Machine

/-! ### Messages on their way -/

theorem State.unicast_routed {s : State} {c : Ctl} {o : Nat} (hdest : c.dest ≠ s.self) (hroute : s.ctlRoute c.dest = some o) :
    s.unicast c = s.queueCtl o c := by
  simp only [State.unicast, if_neg hdest, hroute]

theorem State.unicast_held {s : State} {c : Ctl} (hdest : c.dest ≠ s.self) (hroute : s.ctlRoute c.dest = none) :
    s.unicast c = s.holdCtl c := by
  simp only [State.unicast, if_neg hdest, hroute]

theorem State.queue_queueCtl_same (s : State) (o : Nat) (c : Ctl) :
    Tbl.get [] (s.queueCtl o c).ctl.queue o = Tbl.get [] s.ctl.queue o ++ [c] := Tbl.get_set_same ..

theorem State.queue_queueCtl_other (s : State) {o q : Nat} (c : Ctl) (h : q ≠ o) :
    Tbl.get [] (s.queueCtl o c).ctl.queue q = Tbl.get [] s.ctl.queue q := Tbl.get_set_other _ _ _ h

/-- What waits for the package itself only grows while messages are forwarded. -/
theorem State.mem_loop_unicast {s : State} {m : Msg} (h : m ∈ s.ctl.loop) (c : Ctl) : m ∈ (s.unicast c).ctl.loop := by
  simp only [State.unicast]
  split
  · exact List.mem_append_left _ h
  · split <;> exact h

theorem State.mem_loop_forwardBcast {s : State} {m : Msg} (h : m ∈ s.ctl.loop) (c : Ctl) : m ∈ (s.forwardBcast c).ctl.loop := by
  have hpass : ∀ (s : State) (dir : Nat), m ∈ s.ctl.loop → m ∈ (match s.dirPort dir with
      | some p => s.queueCtl p c
      | none => s.unicast { c with bcast := false, dest := s.neighbour dir }).ctl.loop := by
    intro s dir h
    split
    · exact h
    · exact State.mem_loop_unicast h _
  have hstep : ∀ (s : State) (dir : Nat), m ∈ s.ctl.loop → m ∈ (
      let (up, down) := s.bcastDirs (dir / 2) c.source
      if (if dir % 2 = 0 then up else down) then
        match s.dirPort dir with
        | some p => s.queueCtl p c
        | none => s.unicast { c with bcast := false, dest := s.neighbour dir }
      else s).ctl.loop := by
    intro s dir h
    generalize hb : (if dir % 2 = 0 then (s.bcastDirs (dir / 2) c.source).1 else (s.bcastDirs (dir / 2) c.source).2) = b
    cases b with
    | true => exact (congrArg (fun t : State => m ∈ t.ctl.loop) (if_pos hb)).mpr (hpass s dir h)
    | false => exact (congrArg (fun t : State => m ∈ t.ctl.loop) (if_neg (ne_true_of_eq_false hb))).mpr h
  unfold State.forwardBcast
  generalize List.range 6 = l
  induction l generalizing s with
  | nil => exact h
  | cons dir l ih => exact ih (hstep s dir h)

theorem State.self_takeMsg (s : State) (m : Msg) : (s.takeMsg m).self = s.self :=
  State.takeMsg_ctl State.self (fun _ _ => rfl) (fun _ _ => rfl) s m

theorem State.frame_queueCtl (s : State) (o : Nat) (c : Ctl) : (s.queueCtl o c).regs = s.regs ∧ s.sameIslands (s.queueCtl o c) ∧
    s.sameMemory (s.queueCtl o c) := ⟨rfl, ⟨rfl, rfl, rfl⟩, rfl, rfl, rfl⟩

/-- A message for another package waits for the port of its route (R480). -/
theorem ctlForward_routed {s : State} {routing : BitVec 128} {msg : Msg} {o : Nat} (hlocal : (ctlOf routing.toNat msg).local_ = false)
    (hbcast : (ctlOf routing.toNat msg).bcast = false) (hdest : (ctlOf routing.toNat msg).dest ≠ s.self)
    (hroute : (s.takeMsg msg).ctlRoute (ctlOf routing.toNat msg).dest = some o) :
    execCtlForward routing [msg] s = .next ((s.takeMsg msg).queueCtl o (ctlOf routing.toNat msg)) := by
  have hdest0 : (ctlOf routing.toNat msg).dest ≠ (s.takeMsg msg).self := by
    rw [s.self_takeMsg msg]
    exact hdest
  simp only [execCtlForward, List.foldl_cons, List.foldl_nil, hlocal, hbcast, Bool.or_self, Bool.false_eq_true, if_false, ne_eq, hdest,
    not_false_eq_true, if_true, State.unicast_routed hdest0 hroute]

/-- A broadcast is delivered here as well (R481). -/
theorem ctlBroadcastForward_spreads {s : State} {routing : BitVec 128} {msg : Msg} (hlocal : (ctlOf routing.toNat msg).local_ = false)
    (hbcast : (ctlOf routing.toNat msg).bcast = true) (hsource : (ctlOf routing.toNat msg).source ≠ s.self)
    (hkind : s.bcastKind msg = true) :
    CompletesWith (execCtlBroadcastForward routing [msg] s) fun t =>
      msg ∈ t.ctl.loop ∧ t.regs = s.regs ∧ s.sameIslands t ∧ s.sameMemory t := by
  let c := ctlOf routing.toNat msg
  let s1 := (s.takeMsg msg).loopCtl msg
  have hrun : execCtlBroadcastForward routing [msg] s = .next (s1.forwardBcast { c with bcast := true, dest := 0 }) := by
    simp only [execCtlBroadcastForward, List.foldl_cons, List.foldl_nil, hlocal, hbcast, hsource, hkind, decide_false, Bool.not_true,
      Bool.or_self, Bool.false_eq_true, if_false, if_true]
    rfl
  have hmem : msg ∈ s1.ctl.loop := List.mem_append_right _ List.mem_cons_self
  have hregs : (s1.forwardBcast { c with bcast := true, dest := 0 }).regs = s1.regs := State.forwardBcast_ctl State.regs (fun _ _ => rfl) s1 _
  have hbare : (s1.forwardBcast { c with bcast := true, dest := 0 }).bare = s1.bare := State.forwardBcast_ctl State.bare (fun _ _ => rfl) s1 _
  have hloop : (s.takeMsg msg).sameIslands s1 ∧ (s.takeMsg msg).sameMemory s1 := ⟨⟨rfl, rfl, rfl⟩, rfl, rfl, rfl⟩
  exact ⟨_, hrun, State.mem_loop_forwardBcast hmem _, hregs.trans (s.regs_takeMsg msg),
    State.frame_trans (s.takeMsg_frame msg) (State.frame_trans hloop (State.frame_of_bare hbare))⟩

/-! ### Messages that found no port -/

/-- What is left of the held messages is counted and gone (R480). -/
def State.dropHeld (s : State) : State :=
  { s with ctl := { s.ctl with held := [] } }.bump aBocBrq F.bocBrq_ctlDropped s.ctl.held.length

theorem ctlDropTimeout_one {s : State} {h : Ctl} (hheld : s.ctl.held = [h]) :
    execCtlDropTimeout s = .next (State.unicast { s with ctl := { s.ctl with held := [] } } h).dropHeld := by
  simp only [execCtlDropTimeout, hheld, List.foldl_cons, List.foldl_nil]
  rfl

theorem State.dropHeld_effects (s : State) : s.dropHeld.ctl = { s.ctl with held := [] } ∧
    s.dropHeld.getF aBocBrq F.bocBrq_ctlDropped =
      raised F.bocBrq_ctlDropped (s.getF aBocBrq F.bocBrq_ctlDropped) s.ctl.held.length ∧
    s.regsBut s.dropHeld [(aBocBrq, F.bocBrq_ctlDropped)] ∧ s.sameIslands s.dropHeld ∧ s.sameMemory s.dropHeld := by
  let s1 : State := { s with ctl := { s.ctl with held := [] } }
  exact ⟨rfl, s1.getF_bump_same .., (s.regsBut_refl _).bump List.mem_cons_self _, ⟨rfl, rfl, rfl⟩, rfl, rfl, rfl⟩

/-! ### Records -/

section
variable {β : Type} (g : State → β) (hregs : ∀ s x, g { s with regs := x } = g s) (hflt : ∀ s x, g { s with flt := x } = g s)
include hregs

theorem State.writeEvent_frame (s : State) (cls code flags : Nat) (unit : BitVec 32) (detail : Nat) :
    g (s.writeEvent cls code flags unit detail) = g s := by
  have hset : ∀ (s : State) a f v, g (s.setF a f v) = g s := fun s a f v => hregs s _
  simp only [State.writeEvent]
  refine (hset _ _ _ _).trans ?_
  split
  · exact (hset _ _ _ _).trans ((hset _ _ _ _).trans (State.foldl_frame g _ (fun s k => hset s _ _ _) s))
  · exact State.foldl_frame g _ (fun s k => hset s _ _ _) s

include hflt

/-- An event changes the ring's registers and the counts of events alone (R397, R433). -/
theorem State.event_frame (s : State) (cls code flags : Nat) (unit : BitVec 32) (detail : Nat) :
    g (s.event cls code flags unit detail) = g s := by
  unfold State.event
  extract_lets n rest src s1
  have h1 : g s1 = g s := hflt s _
  split
  · exact (s1.writeEvent_frame g hregs cls code flags unit detail).trans h1
  · exact h1

/-- A record of the ledger changes the ledger and its register alone (R398). -/
theorem State.ledgerRecord_frame (s : State) (kind cause : Nat) (unit : BitVec 32) (detail : Nat) :
    g (s.ledgerRecord kind cause unit detail) = g s := by
  simp only [State.ledgerRecord]
  split
  · exact hregs s _
  · exact (hflt _ _).trans (hregs s _)

end

/-! ### The Bocal and the field controllers -/

theorem bocalFailover_twin {s : State} (hfail : s.boc.selfCheckFailed = true) (hjob : s.brt.job = false)
    (htwin : s.getF aBocState F.bocState_twin = 0) :
    CompletesWith (execBocalFailover s) fun t =>
      t.getF aBocState F.bocState_twin = 1 ∧ t.boc.selfCheckFailed = false ∧ t.boc.dead = s.boc.dead ∧ t.ctls = [] ∧
        s.sameIslands t ∧ s.sameMemory t := by
  let s1 : State := { s with boc := { s.boc with selfCheckFailed := false }, ctls := [] }
  let s2 := s1.setF aBocState F.bocState_twin 1
  let s3 := s2.event 8 0x72 0 (unitId 7 0 0 0 0 2) 0
  let t := s3.ledgerRecord 2 1 (unitId 7 0 0 0 0 2) 0
  have hbare : t.bare = s1.bare :=
    (s3.bare_ledgerRecord _ _ _ _).trans ((s2.bare_event _ _ _ _ _).trans (s1.bare_setF _ _ _))
  have hboc : t.boc = s1.boc := State.of_bare State.boc (fun _ => rfl) hbare
  have hflag : s1.flag aBocState F.bocState_twin = false := decide_eq_false (fun h => h htwin)
  have hread : t.getF aBocState F.bocState_twin = s3.getF aBocState F.bocState_twin :=
    State.getF_of_offLog (s3.offLog_ledgerRecord _ _ _ _) (by decide) (by decide)
  have hbrt : t.brt = s.brt :=
    (s3.ledgerRecord_frame State.brt (fun _ _ => rfl) (fun _ _ => rfl) 2 1 (unitId 7 0 0 0 0 2) 0).trans
      (s2.event_frame State.brt (fun _ _ => rfl) (fun _ _ => rfl) 8 0x72 0 (unitId 7 0 0 0 0 2) 0)
  have hidle : t.brt.job = false := by rw [hbrt, hjob]
  refine ⟨t, ?_, ?_, congrArg BocSt.selfCheckFailed hboc, (congrArg BocSt.dead hboc).trans rfl, State.of_bare (s := s1) State.ctls (fun _ => rfl) hbare,
    State.sameIslands_of_bare (s := s1) hbare, State.sameMemory_of_bare (s := s1) hbare⟩
  · unfold execBocalFailover
    rw [if_neg (by simp [hfail])]
    extract_lets r1 unit r2
    rw [if_neg (by simpa using hflag), if_neg (by simpa using hidle)]
  · exact hread.trans ((s2.getF_event _ _ _ _ _ (by decide) (by decide)).trans (s1.getF_setF_same ..))

theorem State.capacityAfter_keeps {β : Type} (g : State → β) (hregs : ∀ s x, g { s with regs := x } = g s)
    (hgone : ∀ s, g s.lostToSlice = g s) (s : State) (unit : BitVec 32) : g (s.capacityAfter unit) = g s := by
  simp only [State.capacityAfter]
  split
  · simp only [State.showUnits]
    split
    · exact State.foldl_frame g _ (fun s (q : Fld × Nat) => hregs s _) s
    · rfl
  · split
    · exact hgone s
    · rfl

/-- A unit newly retired stands in the list of those (R398, R402). -/
theorem State.mem_newly_retireUnit {s : State} {unit : BitVec 32} (hold : unit ∉ s.flt.retired) (hnew : unit ∉ s.flt.newly)
    (cause detail : Nat) : unit ∈ (s.retireUnit unit cause detail).flt.newly ∧
    (s.retireUnit unit cause detail).rcv.errors = s.rcv.errors := by
  let s1 := s.ledgerRecord 4 cause unit detail
  let s2 := s1.event 8 0x70 2 unit 0
  let s3 : State := { s2 with flt := { s2.flt with newly := s2.flt.newly ++ [unit] }, rcv := { s2.rcv with retired := s2.rcv.retired + 1 } }
  have heq : s.retireUnit unit cause detail = s3.capacityAfter unit := by
    have hno : ¬((s.flt.retired.contains unit || s.flt.newly.contains unit) = true) := by
      simp [hold, hnew]
    unfold State.retireUnit
    rw [if_neg hno]
  have hrcv : s2.rcv = s.rcv :=
    (s1.event_frame State.rcv (fun _ _ => rfl) (fun _ _ => rfl) 8 0x70 2 unit 0).trans
      (s.ledgerRecord_frame State.rcv (fun _ _ => rfl) (fun _ _ => rfl) 4 cause unit detail)
  rw [heq]
  refine ⟨?_, ?_⟩
  · have hflt := s3.capacityAfter_keeps State.flt (fun _ _ => rfl) (fun _ => rfl) unit
    rw [hflt]
    exact List.mem_append_right _ List.mem_cons_self
  · have herr := s3.capacityAfter_keeps (fun s => s.rcv.errors) (fun _ _ => rfl) (fun _ => rfl) unit
    exact herr.trans (show s2.rcv.errors = s.rcv.errors by rw [hrcv])

/-- The second error of a field controller in a job retires its field (R476). -/
theorem fieldControllerError_second {s : State} {f : Nat} (hf : f < 8) (hjob : s.brt.job = true) (hone : Tbl.get 0 s.rcv.errors f = 1)
    (hold : unitId 5 f 0 0 0 0 ∉ s.flt.retired) (hnew : unitId 5 f 0 0 0 0 ∉ s.flt.newly) :
    CompletesWith (execFieldControllerError f s) fun t =>
      Tbl.get 0 t.rcv.errors f = 2 ∧ unitId 5 f 0 0 0 0 ∈ t.flt.newly ∧ s.sameIslands t ∧ s.sameMemory t := by
  let s1 : State := { s with rcv := { s.rcv with errors := Tbl.set 0 s.rcv.errors f 2 } }
  let s2 := s1.faultReport 4 []
  have hrun : execFieldControllerError f s = .next (s2.retireUnit (unitId 5 f 0 0 0 0) 1 0) := by
    simp only [execFieldControllerError, hf, hjob, hone, if_true]
    rfl
  have hflt : s2.flt = s.flt := State.unicast_ctl State.flt (fun _ _ => rfl) s1 _
  have hrcv : s2.rcv = s1.rcv := State.unicast_ctl State.rcv (fun _ _ => rfl) s1 _
  obtain ⟨hmem, herr⟩ := State.mem_newly_retireUnit (s := s2) (by rw [hflt]; exact hold) (by rw [hflt]; exact hnew) 1 0
  refine ⟨_, hrun, ?_, hmem, State.frame_of_bare (s := s) ((s2.bare_retireUnit _ _ _).trans (s1.bare_faultReport _ _))⟩
  rw [herr, hrcv]
  exact Tbl.get_set_same 0 s.rcv.errors f 2

end Sys2Proof.Machine

open Sys2Proof Sys2Proof.Machine

/-- Settles O45: a message's way is `unicast` or `spread`; what the twin and the field controllers do, step by step. -/
theorem controlMessagesAndFailover : Obligations.ControlMessagesAndFailover := by
  unfold Obligations.ControlMessagesAndFailover
  intro s routing msg c s0 rest
  refine ⟨fun o hlocal hbcast hdest hroute => ?_, fun hlocal hbcast hsource hkind => ctlBroadcastForward_spreads hlocal hbcast hsource hkind,
    fun h hheld hdest => ⟨fun hroute => ?_, fun o hroute hcount => ?_⟩, fun hfail hjob htwin => bocalFailover_twin hfail hjob htwin,
    fun hfail htwin => ?_, fun f hf hjob hone hold hnew => fieldControllerError_second hf hjob hone hold hnew⟩
  · obtain ⟨hregs, hframe⟩ := s0.frame_queueCtl o c
    exact ⟨_, ctlForward_routed hlocal hbcast hdest hroute, s0.queue_queueCtl_same o c, fun q hq => s0.queue_queueCtl_other c hq,
      hregs.trans (s.regs_takeMsg msg), State.frame_trans (s.takeMsg_frame msg) hframe⟩
  · let s1 : State := { s with ctl := { s.ctl with held := [] } }
    have hhold : s1.unicast h = s1.holdCtl h := State.unicast_held (s := s1) hdest hroute
    obtain ⟨hctl, hdropped, hregs, hisl, hmem⟩ := (s1.holdCtl h).dropHeld_effects
    refine ⟨_, ctlDropTimeout_one hheld, ?_⟩
    show _ ∧ _
    rw [show State.unicast { s with ctl := { s.ctl with held := [] } } h = s1.holdCtl h from hhold, hctl]
    exact ⟨rfl, rfl, hdropped, hregs, hisl, hmem⟩
  · let s1 : State := { s with ctl := { s.ctl with held := [] } }
    have hqueue : s1.unicast h = s1.queueCtl o h := State.unicast_routed (s := s1) hdest hroute
    obtain ⟨hctl, hdropped, hregs, hisl, hmem⟩ := (s1.queueCtl o h).dropHeld_effects
    refine ⟨_, ctlDropTimeout_one hheld, ?_⟩
    show _ ∧ _
    rw [show State.unicast { s with ctl := { s.ctl with held := [] } } h = s1.queueCtl o h from hqueue, hctl]
    refine ⟨rfl, s1.queue_queueCtl_same o h, hdropped.trans ?_, hisl, hmem⟩
    exact Nat.min_eq_left (Nat.le_sub_one_of_lt hcount)
  · let s1 : State := { s with boc := { s.boc with selfCheckFailed := false }, ctls := [] }
    have hflag : s1.flag aBocState F.bocState_twin = true := decide_eq_true htwin
    refine ⟨{ s1 with boc := { s1.boc with dead := true } }, ?_, rfl, rfl, ⟨rfl, rfl, rfl⟩, rfl, rfl, rfl⟩
    show execBocalFailover s = _
    unfold execBocalFailover
    rw [if_neg (by simp [hfail])]
    exact if_pos hflag
end

section
/-! The Bocal request protocol: messages dropped or answered again, and what an accepted request runs (R455, R500, R501, R503). -/

namespace Sys2Proof.Machine

/-! ### Sessions found and replaced -/

theorem State.session_id {s : State} {id : BitVec 64} {x : Session} (h : s.session id = some x) : x.id = id :=
  of_decide_eq_true (List.find?_some (p := fun y : Session => decide (y.id = id)) h)

theorem find?_map_same_id (l : List Session) (x : Session) (id : BitVec 64) (hx : x.id = id)
    (h : (l.find? fun y => decide (y.id = id)).isSome = true) :
    (l.map fun y => if y.id = x.id then x else y).find? (fun y => decide (y.id = id)) = some x := by
  induction l with
  | nil => exact absurd h (by simp)
  | cons y l ih =>
    by_cases hy : y.id = id
    · have hyx : y.id = x.id := hy.trans hx.symm
      rw [List.map_cons, if_pos hyx, List.find?_cons_of_pos (by simpa using hx)]
    · have hyx : y.id ≠ x.id := fun h => hy (h.trans hx)
      rw [List.find?_cons_of_neg (by simpa using hy)] at h
      rw [List.map_cons, if_neg hyx, List.find?_cons_of_neg (by simpa using hy), ih h]

theorem State.session_setSession {s : State} {x y : Session} {id : BitVec 64} (h : s.session id = some x) (hy : y.id = id) :
    (s.setSession y).session id = some y := by
  refine find?_map_same_id s.boc.sessions y id hy ?_
  rw [show (s.boc.sessions.find? fun y => decide (y.id = id)) = some x from h]
  rfl

/-! ### Responses -/

section
variable {β : Type} (g : State → β) (hsessions : ∀ s l, g { s with boc := { s.boc with sessions := l } } = g s)
  (hresp : ∀ s x, g { s with boc := { s.boc with resp := x } } = g s)
include hsessions hresp

/-- A response that does not end its session changes sessions and the last response alone (R501). -/
theorem State.respond_frame (s : State) (r : Brq) {out : Nat} (hout : out + 1 < 2 ^ 32) (code status : Nat) (data : List Byte)
    (keep : Bool) :
    g (s.respond r out code status data keep) = g s := by
  unfold State.respond
  extract_lets a src s1
  have h1 : g s1 = g s := hresp s _
  split
  · rw [if_neg (Nat.not_le.mpr hout)]
    exact (hsessions s1 _).trans h1
  · exact h1

end

theorem State.resp_respond (s : State) (r : Brq) {out : Nat} (hout : out + 1 < 2 ^ 32) (code status : Nat) (data : List Byte)
    (keep : Bool) :
    (s.respond r out code status data keep).boc.resp =
      some { session := r.session, counter := out, code := code, rid := r.rid, status := status, data := data } := by
  unfold State.respond
  extract_lets a src s1
  split
  · rw [if_neg (Nat.not_le.mpr hout)]
    rfl
  · rfl

/-! ### What a request runs -/

/-- A message without an open session, with a tag that does not verify or a used counter (R455). -/
theorem State.sessionRequest_dropped {s : State} {r : Brq} (hlive : s.brqLive = true) (hcls : r.cls = 1)
    (h : s.session r.session = none ∨ r.tagOk = false ∨ ∃ x, s.session r.session = some x ∧ x.accepts r.counter = false)
    (code : Nat) (may : Session → Bool) (inRecovery : Bool) (act : Act) (after : State → State) :
    s.sessionRequest r code may inRecovery act after = s.dropBrq := by
  have h02 : ¬(r.cls = 0 ∨ r.cls = 2) := by omega
  have h1 : ¬r.cls ≠ 1 := by omega
  unfold State.sessionRequest
  rw [if_neg (by simp [hlive]), if_neg h02, if_neg h1]
  split
  · rfl
  · rename_i x hx
    have hbad : (!r.tagOk || !x.accepts r.counter) = true := by
      rcases h with h | h | ⟨y, hy, h⟩
      · rw [h] at hx; cases hx
      · rw [h]; rfl
      · rw [hy] at hx
        cases hx
        rw [h, Bool.not_false, Bool.or_true]
    exact if_pos hbad

/-- A message accepted in its session goes on with the session's record after it (R455). -/
theorem State.sessionRequest_accepted {s : State} {r : Brq} {x : Session} (hlive : s.brqLive = true) (hcls : r.cls = 1)
    (hfound : s.session r.session = some x) (htag : r.tagOk = true) (hfresh : x.accepts r.counter = true) (hsmall : r.counter < 2 ^ 32)
    (code : Nat) (may : Session → Bool) (inRecovery : Bool) (act : Act) (after : State → State) :
    s.sessionRequest r code may inRecovery act after =
      let y := x.accept r.counter
      let s := s.setSession y
      match y.answers.find? fun a => decide (a.rid = r.rid) with
      | some a => s.respond r y.out a.code a.status a.data false
      | none =>
        let (s, status, data) :=
          if s.boc.recovery && !inRecovery then (s, 0x08, [])
          else if !may y then (s, 0x01, [])
          else act y s
        let s := (s.countAnswer status).respond r y.out (code + 0x8000) status data true
        if status = 0 then after s else s := by
  have h02 : ¬(r.cls = 0 ∨ r.cls = 2) := by omega
  have h1 : ¬r.cls ≠ 1 := by omega
  have hgood : ¬((!r.tagOk || !x.accepts r.counter) = true) := by simp [htag, hfresh]
  unfold State.sessionRequest
  rw [if_neg (by simp [hlive]), if_neg h02, if_neg h1]
  split
  · rename_i hnone
    cases hfound.symm.trans hnone
  · rename_i y hy
    cases hfound.symm.trans hy
    exact (if_neg hgood).trans (if_neg (Nat.not_le.mpr hsmall))

/-- A request answered before gets its answer again (R501). -/
theorem State.sessionRequest_repeated {s : State} {r : Brq} {x : Session} {a : Resp} (hlive : s.brqLive = true) (hcls : r.cls = 1)
    (hfound : s.session r.session = some x) (htag : r.tagOk = true) (hfresh : x.accepts r.counter = true) (hsmall : r.counter < 2 ^ 32)
    (ha : (x.answers.find? fun a => decide (a.rid = r.rid)) = some a)
    (code : Nat) (may : Session → Bool) (inRecovery : Bool) (act : Act) (after : State → State) :
    s.sessionRequest r code may inRecovery act after =
      (s.setSession (x.accept r.counter)).respond r x.out a.code a.status a.data false := by
  have ha' : ((x.accept r.counter).answers.find? fun a => decide (a.rid = r.rid)) = some a := ha
  rw [State.sessionRequest_accepted hlive hcls hfound htag hfresh hsmall]
  simp only [ha']
  rfl

/-- A request performed (R503): its answer has status 0, is counted, and what follows the answer is done. -/
def State.completed (s : State) (r : Brq) (x : Session) (code : Nat) (data : List Byte) : State :=
  (s.bump aBocBrq F.bocBrq_accepted 1).respond r x.out (code + 0x8000) 0 data true

theorem State.sessionRequest_done {s t : State} {r : Brq} {x : Session} {data : List Byte} (h : InSession s r x) {code : Nat}
    {may : Session → Bool} {inRecovery : Bool} {act : Act} {after : State → State} (hmay : may (x.accept r.counter) = true)
    (hact : act (x.accept r.counter) (s.setSession (x.accept r.counter)) = (t, 0, data)) :
    s.sessionRequest r code may inRecovery act after = after (t.completed r x code data) := by
  have hnew : ((x.accept r.counter).answers.find? fun a => decide (a.rid = r.rid)) = none :=
    List.find?_eq_none.mpr fun a ha => by simpa using h.new a ha
  have hnormal : (s.setSession (x.accept r.counter)).boc.recovery = false := h.normal
  rw [State.sessionRequest_accepted h.live h.cls h.found h.tag h.fresh h.small]
  simp only [hnew, hnormal, Bool.false_and, Bool.false_eq_true, if_false, hmay, Bool.not_true, hact, if_true]
  rfl

/-- What an accepted request without a state of its own leaves: everything but the sessions and the last response. -/
theorem State.completed_frame {β : Type} (g : State → β) (hsessions : ∀ s l, g { s with boc := { s.boc with sessions := l } } = g s)
    (hresp : ∀ s x, g { s with boc := { s.boc with resp := x } } = g s) (t : State) (r : Brq) {x : Session} (hout : x.out + 1 < 2 ^ 32)
    (code : Nat) (data : List Byte) : g (t.completed r x code data) = g (t.bump aBocBrq F.bocBrq_accepted 1) :=
  (t.bump aBocBrq F.bocBrq_accepted 1).respond_frame g hsessions hresp r hout _ _ _ _

end Sys2Proof.Machine

open Sys2Proof Sys2Proof.Machine

/-- Every request of the list runs in a session (R503). -/
theorem request_inSession (s : State) (r : Brq) (w : Bool) (i n : Nat) (bs : List Byte) (ecc : Eccs) (verdict : Verdict) (b : BitVec 64)
    (word : Word) : ∀ c ∈ [Instr.objWrite r i n 0 ⟨bs, ecc⟩, .objCommit r i n 0 verdict, .objDiscard r i n, .sessionClose r,
      .timePoll r b b, .timeSteer r w w word word, .eventAck r n, .regRead r n, .regWrite r n word, .admitRequest r b, .admitNotice r n b,
      .withdraw r, .start r b, .stop r, .decide r n i, .update r n, .confirm r, .reset r, .toneRun r n, .ckptRead r i n],
    ∃ code may inRecovery act after, exec c s = .next (s.sessionRequest r code may inRecovery act after) := by
  intro c hc
  simp only [List.mem_cons, List.not_mem_nil, or_false] at hc
  rcases hc with rfl | rfl | rfl | rfl | rfl | rfl | rfl | rfl | rfl | rfl | rfl | rfl | rfl | rfl | rfl | rfl | rfl | rfl | rfl | rfl <;>
    exact ⟨_, _, _, _, _, rfl⟩

/-- Settles O47, for every request through `State.sessionRequest`. -/
theorem requestMessages : Obligations.RequestMessages := by
  unfold Obligations.RequestMessages
  intro s r w i n bs ecc verdict b word c hc hlive hcls
  obtain ⟨code, may, inRecovery, act, after, hrun⟩ := request_inSession s r w i n bs ecc verdict b word c hc
  refine ⟨fun h => ?_, fun x a hfound htag hfresh hsmall ha hout => ?_⟩
  · rw [hrun, State.sessionRequest_dropped hlive hcls h]
  · rw [hrun, State.sessionRequest_repeated hlive hcls hfound htag hfresh hsmall ha]
    let s1 := s.setSession (x.accept r.counter)
    have hkeep : ∀ {β : Type} (g : State → β), (∀ s l, g { s with boc := { s.boc with sessions := l } } = g s) →
        (∀ s x, g { s with boc := { s.boc with resp := x } } = g s) → g (s1.respond r x.out a.code a.status a.data false) = g s :=
      fun g hsessions hresp => (s1.respond_frame g hsessions hresp r hout _ _ _ _).trans (hsessions s _)
    exact ⟨_, rfl, s1.resp_respond r hout _ _ _ _, hkeep State.regs (fun _ _ => rfl) (fun _ _ => rfl),
      hkeep State.nv (fun _ _ => rfl) (fun _ _ => rfl),
      ⟨hkeep State.cores (fun _ _ => rfl) (fun _ _ => rfl), hkeep State.clusters (fun _ _ => rfl) (fun _ _ => rfl),
        hkeep State.islands (fun _ _ => rfl) (fun _ _ => rfl)⟩,
      hkeep State.mem (fun _ _ => rfl) (fun _ _ => rfl), hkeep State.tags (fun _ _ => rfl) (fun _ _ => rfl),
      hkeep State.bad (fun _ _ => rfl) (fun _ _ => rfl)⟩
end

section
/-! Sessions, time, registers and events over the Bocal's request protocol (R384, R433, R454, R455, R503, R505). -/

namespace Sys2Proof.Machine

/-! ### What a request done leaves (R503, R509) -/

theorem InSession.completes {s t : State} {r : Brq} {x : Session} {data : List Byte} (h : InSession s r x) {code : Nat}
    {may : Session → Bool} {inRecovery : Bool} {act : Act} {after : State → State} {p : State → Prop} (hmay : may (x.accept r.counter) = true)
    (hact : act (x.accept r.counter) (s.setSession (x.accept r.counter)) = (t, 0, data)) (hp : p (after (t.completed r x code data))) :
    CompletesWith (.next (s.sessionRequest r code may inRecovery act after)) p :=
  ⟨_, congrArg Host.Outcome.next (State.sessionRequest_done h hmay hact), hp⟩

theorem State.done_completed {s t : State} {r : Brq} {x : Session} (hgoing : x.out + 1 < 2 ^ 32)
    (hcount : t.getF aBocBrq F.bocBrq_accepted = s.getF aBocBrq F.bocBrq_accepted) (code : Nat) (data : List Byte) :
    s.done (t.completed r x code data) r x code data := by
  refine ⟨State.resp_respond _ r hgoing _ _ _ _, ?_⟩
  rw [t.completed_frame (fun u => u.getF aBocBrq F.bocBrq_accepted) (fun _ _ => rfl) (fun _ _ => rfl) r hgoing, State.getF_bump_same, hcount]

theorem State.getF_completed (t : State) {r : Brq} {x : Session} (hgoing : x.out + 1 < 2 ^ 32) (code : Nat) (data : List Byte) {b : Nat}
    {g : Fld} (hg : fkey b g ≠ fkey aBocBrq F.bocBrq_accepted) : (t.completed r x code data).getF b g = t.getF b g :=
  (t.completed_frame (fun u => u.getF b g) (fun _ _ => rfl) (fun _ _ => rfl) r hgoing code data).trans (State.getF_bump_other _ _ _ _ hg)

theorem State.regsBut.completed {s t : State} {r : Brq} {x : Session} {l : List (Nat × Fld)} (h : s.regsBut t l)
    (hgoing : x.out + 1 < 2 ^ 32) (hmem : (aBocBrq, F.bocBrq_accepted) ∈ l) (code : Nat) (data : List Byte) :
    s.regsBut (t.completed r x code data) l := fun b g hb =>
  (t.getF_completed hgoing code data fun hk => hb (List.mem_map.mpr ⟨_, hmem, hk.symm⟩)).trans (h b g hb)

theorem State.frame_completed {s t : State} {r : Brq} {x : Session} (h : s.sameIslands t ∧ s.sameMemory t) (hgoing : x.out + 1 < 2 ^ 32)
    (code : Nat) (data : List Byte) : s.sameIslands (t.completed r x code data) ∧ s.sameMemory (t.completed r x code data) := by
  have hkeep : ∀ {β : Type} (g : State → β), (∀ s l, g { s with boc := { s.boc with sessions := l } } = g s) →
      (∀ s y, g { s with boc := { s.boc with resp := y } } = g s) → g (t.bump aBocBrq F.bocBrq_accepted 1) = g t →
      g (t.completed r x code data) = g t :=
    fun g hs hr hb => (t.completed_frame g hs hr r hgoing code data).trans hb
  exact State.frame_trans h
    ⟨⟨hkeep State.cores (fun _ _ => rfl) (fun _ _ => rfl) rfl, hkeep State.clusters (fun _ _ => rfl) (fun _ _ => rfl) rfl,
      hkeep State.islands (fun _ _ => rfl) (fun _ _ => rfl) rfl⟩,
    hkeep State.mem (fun _ _ => rfl) (fun _ _ => rfl) rfl, hkeep State.tags (fun _ _ => rfl) (fun _ _ => rfl) rfl,
    hkeep State.bad (fun _ _ => rfl) (fun _ _ => rfl) rfl⟩

/-- A session's record has no part in the cores, the memory and the registers. -/
theorem State.frame_setSession (s : State) (y : Session) : s.sameIslands (s.setSession y) ∧ s.sameMemory (s.setSession y) :=
  ⟨⟨rfl, rfl, rfl⟩, rfl, rfl, rfl⟩

/-! ### Registers that requests name -/

theorem State.regAt_bocResetCause (s : State) : s.regAt aBocResetCause = some .bocResetCause := rfl
theorem State.regAt_bocPowerCfg (s : State) : s.regAt aBocPowerCfg = some .bocPowerCfg := rfl

/-- The reset cause's register has no read-to-clear fields. -/
theorem State.ctlRead_bocResetCause (s : State) :
    s.ctlRead aBocResetCause =
      (s, some (s.getF aBocResetCause F.bocResetCause_cause + s.getF aBocResetCause F.bocResetCause_count * 2 ^ 4)) := by
  unfold State.ctlRead
  rw [if_neg (by decide), s.regAt_bocResetCause]
  have hword : s.readWord .bocResetCause aBocResetCause =
      s.getF aBocResetCause F.bocResetCause_cause * 2 ^ 0 + (s.getF aBocResetCause F.bocResetCause_count * 2 ^ 4 + 0) := rfl
  exact congrArg (fun w => (s, some w)) (show s.readWord .bocResetCause aBocResetCause =
    s.getF aBocResetCause F.bocResetCause_cause + s.getF aBocResetCause F.bocResetCause_count * 2 ^ 4 by omega)

/-- A power limit in its range (R503). -/
theorem State.ctlWrite_bocPowerCfg (s : State) {v : Word} (hlow : 300 ≤ v.toNat % 2 ^ 16) (hhigh : v.toNat % 2 ^ 16 ≤ 1250) :
    s.ctlWrite aBocPowerCfg v = (s.setF aBocPowerCfg F.bocPowerCfg_limit (v.toNat % 2 ^ 16)).busDone false := by
  have hv : bitsAt v.toNat 0 16 = v.toNat % 2 ^ 16 := by rw [bitsAt, Nat.pow_zero, Nat.div_one]
  have hin : ¬(bitsAt v.toNat 0 16 < 300 ∨ 1250 < bitsAt v.toNat 0 16) := by rw [hv]; omega
  have hrun : execBocPowerCfgWrite v s = .next ((s.setF aBocPowerCfg F.bocPowerCfg_limit (v.toNat % 2 ^ 16)).busDone false) := by
    rw [execBocPowerCfgWrite, if_neg hin, hv]
  have hreg : s.ctlWrite aBocPowerCfg v = outState s (execBocPowerCfgWrite v s) := by
    unfold State.ctlWrite
    rw [s.regAt_bocPowerCfg]
  rw [hreg, hrun, outState]

/-! ### The requests -/

/-- A session entered after those of its id left is the one found by it. -/
theorem find?_filter_append (l : List Session) {x : Session} {id : BitVec 64} (hx : x.id = id) :
    ((l.filter fun y => decide (y.id ≠ id)) ++ [x]).find? (fun y => decide (y.id = id)) = some x := by
  have hgone : (l.filter fun y => decide (y.id ≠ id)).find? (fun y => decide (y.id = id)) = none :=
    List.find?_eq_none.mpr fun y hy => by simpa using (List.mem_filter.mp hy).2
  rw [List.find?_append, hgone, Option.none_or, List.find?_cons_of_pos (by simpa using hx)]

/-- The owner's opening of a session (R454, R455). -/
theorem sessionOpen_owner {s : State} {r : Brq} {sid : BitVec 64} (hlive : s.brqLive = true) (hcls : r.cls = 2)
    (hnormal : s.boc.recovery = false) (howner : s.owner.isSome = true) (hroom : s.boc.sessions.length < 8) (hnew : s.session sid = none)
    (next : BitVec 256) :
    CompletesWith (execSessionOpen r true 0 sid s.boc.challenge next .good s) fun t =>
      (∃ x, t.session sid = some x ∧ x.owner = true ∧ x.top = 0 ∧ x.out = 0 ∧ x.answers = []) ∧ t.boc.challenge = next ∧
        t.boc.resp = some { session := 0, counter := 0, code := 0x8011, rid := r.rid, status := 0, data := bytesOfNat 8 sid.toNat } ∧
        s.sameIslands t ∧ s.sameMemory t := by
  have hnone : s.owner.isNone = false := by simpa using howner
  let auth := s.nv.auths.find? fun a => decide (a.number = 0)
  let x : Session := { id := sid, owner := true, record := 0, perms := match auth with | some a => a.perms | none => 0, top := 0, seen := [],
                       out := 0, answers := [] }
  unfold execSessionOpen
  rw [if_neg (by simp [hlive]), if_neg (by omega), if_neg (by omega)]
  simp only [hnormal, Bool.false_and, Bool.false_eq_true, if_false, ne_eq, not_true_eq_false, if_true, hnone, Bool.or_false,
    decide_eq_true_eq, reduceCtorEq, if_neg (Nat.not_le.mpr hroom)]
  refine ⟨_, rfl, ⟨x, ?_, rfl, rfl, rfl, rfl⟩, rfl, rfl, ⟨rfl, rfl, rfl⟩, rfl, rfl, rfl⟩
  exact find?_filter_append s.boc.sessions rfl

/-- The end of a session (R455). -/
theorem sessionClose_effects {s : State} {r : Brq} {x : Session} (h : InSession s r x) :
    CompletesWith (execSessionClose r s) fun t => s.done t r x 0x12 [] ∧ t.session r.session = none ∧ s.sameIslands t ∧ s.sameMemory t := by
  let u := s.setSession (x.accept r.counter)
  have hframe := State.frame_completed (s.frame_setSession (x.accept r.counter)) h.going (r := r) 0x12 []
  refine h.completes (t := u) rfl rfl ⟨State.done_completed (t := u) h.going rfl _ _, ?_, hframe⟩
  exact List.find?_eq_none.mpr fun y hy => by simpa using (List.mem_filter.mp hy).2

theorem timePoll_effects {s : State} {r : Brq} {x : Session} (h : InSession s r x) (arrival departure : Beat) :
    CompletesWith (execTimePoll r arrival departure s) fun t =>
      s.done t r x 0x20 (bytesOfNat 8 arrival.toNat ++ bytesOfNat 8 departure.toNat) ∧
        s.regsBut t [(aBocBrq, F.bocBrq_accepted)] ∧ s.sameIslands t ∧ s.sameMemory t := by
  let u := s.setSession (x.accept r.counter)
  have hregs : s.regsBut u [(aBocBrq, F.bocBrq_accepted)] := fun _ _ _ => rfl
  exact h.completes (t := u) rfl rfl ⟨State.done_completed (t := u) h.going rfl _ _, hregs.completed h.going List.mem_cons_self _ _,
    State.frame_completed (s.frame_setSession _) h.going _ _⟩

/-- The increment and the phase of a package that is not in a slice (R384). -/
theorem timeSteer_effects {s : State} {r : Brq} {x : Session} (h : InSession s r x) {incr : Word} (phase : Word) (hmay : x.may 0 = true)
    (hout : s.admitted = false) (hlow : 27460302903 ≤ incr.toNat) (hhigh : incr.toNat ≤ 27515278485) :
    CompletesWith (execTimeSteer r true true incr phase s) fun t =>
      s.done t r x 0x21 [] ∧ t.getF aTimIncr F.timIncr_incr = incr.toNat ∧ t.pins.phase = some phase ∧ s.sameIslands t ∧ s.sameMemory t := by
  let u := s.setSession (x.accept r.counter)
  let v := u.setF aTimIncr F.timIncr_incr incr.toNat
  let w : State := { v with pins := { v.pins with phase := some phase } }
  let z := if w.flag aTimStatus F.timStatus_root then w.setF aTimStatus F.timStatus_holdover 0 else w
  have hwhole : bitsAt incr.toNat 0 40 = incr.toNat := by
    rw [bitsAt, Nat.pow_zero, Nat.div_one]
    exact Nat.mod_eq_of_lt (by omega)
  have hok : incrOk incr.toNat = true := decide_eq_true ⟨hlow, hhigh⟩
  have hadmitted : u.admitted = false := hout
  have hstatus : u.steerStatus true true incr.toNat = 0 := by
    simp only [State.steerStatus, hadmitted, hok, Bool.false_and, Bool.not_true, Bool.and_false, Bool.false_eq_true, if_false]
  have hz : ∀ {β : Type} (g : State → β), (∀ y, g (y.setF aTimStatus F.timStatus_holdover 0) = g y) → g z = g w := by
    intro β g hg
    simp only [z]
    split
    · exact hg w
    · rfl
  have hother : ∀ {b : Nat} {g : Fld}, fkey b g ≠ fkey aTimStatus F.timStatus_holdover → z.getF b g = v.getF b g :=
    fun hg => hz (fun y => y.getF _ _) fun y => State.getF_setF_other y _ _ _ hg
  have hframe : s.sameIslands z ∧ s.sameMemory z :=
    ⟨⟨hz State.cores fun _ => rfl, hz State.clusters fun _ => rfl, hz State.islands fun _ => rfl⟩,
      hz State.mem fun _ => rfl, hz State.tags fun _ => rfl, hz State.bad fun _ => rfl⟩
  refine h.completes (t := z) hmay ?_ ⟨State.done_completed (t := z) h.going ?_ _ _, ?_, ?_, State.frame_completed hframe h.going _ _⟩
  · simp only [hwhole, ne_eq, not_true_eq_false, if_false, show (s.setSession (x.accept r.counter)).steerStatus true true incr.toNat = 0 from hstatus,
      if_true]
    rfl
  · exact (hother (by decide)).trans (State.getF_setF_other u _ _ _ (by decide))
  · refine (z.getF_completed h.going _ _ (by decide)).trans ((hother (by decide)).trans ?_)
    rw [State.getF_setF_same]
    exact Nat.mod_eq_of_lt (show incr.toNat < 2 ^ 40 by omega)
  · exact (z.completed_frame (fun y => y.pins.phase) (fun _ _ => rfl) (fun _ _ => rfl) r h.going _ _).trans (hz (fun y => y.pins.phase) fun _ => rfl)

theorem eventAck_effects {s : State} {r : Brq} {x : Session} (h : InSession s r x) (seq : Nat) (hmay : x.may 7 = true) :
    CompletesWith (execEventAck r seq s) fun t =>
      s.done t r x 0x30 [] ∧ t.getF aFltRing F.fltRing_read = seq % 2 ^ 16 ∧
        s.regsBut t [(aBocBrq, F.bocBrq_accepted), (aFltRing, F.fltRing_read)] ∧ s.sameIslands t ∧ s.sameMemory t := by
  let u := s.setSession (x.accept r.counter)
  let v := u.setF aFltRing F.fltRing_read seq
  have hregs : s.regsBut v [(aBocBrq, F.bocBrq_accepted), (aFltRing, F.fltRing_read)] :=
    State.regsBut.setF (t := u) (fun _ _ _ => rfl) (by simp) seq
  exact h.completes (t := v) hmay rfl ⟨State.done_completed (t := v) h.going (State.getF_setF_other u _ _ _ (by decide)) _ _,
    (v.getF_completed h.going _ _ (by decide)).trans (State.getF_setF_same ..), hregs.completed h.going (by simp) _ _,
    State.frame_completed ⟨⟨rfl, rfl, rfl⟩, rfl, rfl, rfl⟩ h.going _ _⟩

theorem regRead_bocResetCause {s : State} {r : Brq} {x : Session} (h : InSession s r x) (hmay : x.may 7 = true) :
    CompletesWith (execRegRead r aBocResetCause s) fun t =>
      s.done t r x 0x31 (bytesOfNat 8 (s.getF aBocResetCause F.bocResetCause_cause + s.getF aBocResetCause F.bocResetCause_count * 2 ^ 4)) ∧
        s.regsBut t [(aBocBrq, F.bocBrq_accepted)] ∧ s.sameIslands t ∧ s.sameMemory t := by
  let u := s.setSession (x.accept r.counter)
  have hregs : s.regsBut u [(aBocBrq, F.bocBrq_accepted)] := fun _ _ _ => rfl
  refine h.completes (t := u) hmay ?_ ⟨State.done_completed (t := u) h.going rfl _ _, hregs.completed h.going List.mem_cons_self _ _,
    State.frame_completed (s.frame_setSession _) h.going _ _⟩
  rw [State.ctlRead_bocResetCause]
  rfl

theorem regWrite_bocPowerCfg {s : State} {r : Brq} {x : Session} (h : InSession s r x) {v : Word} (howner : x.owner = true)
    (hlow : 300 ≤ v.toNat % 2 ^ 16) (hhigh : v.toNat % 2 ^ 16 ≤ 1250) :
    CompletesWith (execRegWrite r aBocPowerCfg v s) fun t =>
      s.done t r x 0x32 [] ∧ t.getF aBocPowerCfg F.bocPowerCfg_limit = v.toNat % 2 ^ 16 ∧
        s.regsBut t [(aBocBrq, F.bocBrq_accepted), (aBocPowerCfg, F.bocPowerCfg_limit)] ∧ s.sameIslands t ∧ s.sameMemory t := by
  let u := s.setSession (x.accept r.counter)
  let w := (u.setF aBocPowerCfg F.bocPowerCfg_limit (v.toNat % 2 ^ 16)).busDone false
  have hmay : ((x.accept r.counter).owner || ((x.accept r.counter).perms.testBit 6 && isInjection aBocPowerCfg)) = true := by
    rw [show (x.accept r.counter).owner = true from howner, Bool.true_or]
  have hregs : s.regsBut w [(aBocBrq, F.bocBrq_accepted), (aBocPowerCfg, F.bocPowerCfg_limit)] :=
    State.regsBut.setF (t := u) (fun _ _ _ => rfl) (by simp) _
  refine h.completes (t := w) hmay ?_ ⟨State.done_completed (t := w) h.going (State.getF_setF_other u _ _ _ (by decide)) _ _,
    ?_, hregs.completed h.going (by simp) _ _, State.frame_completed ⟨⟨rfl, rfl, rfl⟩, rfl, rfl, rfl⟩ h.going _ _⟩
  · rw [if_neg (by decide), State.ctlWrite_bocPowerCfg _ hlow hhigh]
    rfl
  · refine (w.getF_completed h.going _ _ (by decide)).trans ((State.getF_setF_same u _ _ _).trans ?_)
    exact Nat.mod_mod _ _

end Sys2Proof.Machine

open Sys2Proof Sys2Proof.Machine

/-- Settles O48, request by request. -/
theorem sessionAndRegisterRequests : Obligations.SessionAndRegisterRequests := by
  unfold Obligations.SessionAndRegisterRequests
  intro s r
  exact ⟨fun _ next hlive hcls hnormal howner hroom hnew => sessionOpen_owner hlive hcls hnormal howner hroom hnew next,
    fun _ h => ⟨sessionClose_effects h, timePoll_effects h,
      fun _ phase hmay hout hlow hhigh => timeSteer_effects h phase hmay hout hlow hhigh, eventAck_effects h, regRead_bocResetCause h,
      fun _ howner hlow hhigh => regWrite_bocPowerCfg h howner hlow hhigh⟩⟩
end

section
/-! The slice's life, updates and resets over the Bocal's request protocol (R414, R423, R438, R446, R471, R485, R493 to R495, R498). -/

namespace Sys2Proof.Machine

/-! ### Requests with a reset after the answer -/

/-- A request whose effect comes after its answer (R503): the answer stands, and the memory of the Bocal beside it is as it was. -/
theorem State.completed_nv {t : State} {r : Brq} {x : Session} (hgoing : x.out + 1 < 2 ^ 32) (code : Nat) (data : List Byte) :
    (t.completed r x code data).nv = t.nv :=
  t.completed_frame State.nv (fun _ _ => rfl) (fun _ _ => rfl) r hgoing code data

theorem State.resp_completed (t : State) {r : Brq} {x : Session} (hgoing : x.out + 1 < 2 ^ 32) (code : Nat) (data : List Byte) :
    (t.completed r x code data).answered r x code 0 data := State.resp_respond _ r hgoing _ _ _ _

/-- What a commanded reset leaves (R471): the answer, what the boot NOR keeps, and the cause. -/
theorem State.commandedReset_effects (s : State) {cause : Nat} (h : cause < 8) :
    (s.commandedReset cause).boc.resp = s.boc.resp ∧ (s.commandedReset cause).nv = s.nv ∧
      (s.commandedReset cause).getF aBocResetCause F.bocResetCause_cause = cause ∧ (s.commandedReset cause).pins.power = .held ∧
      (s.commandedReset cause).cores = [] :=
  ⟨rfl, rfl, s.resetBy_cause h, rfl, rfl⟩

/-! ### The health image and the end of a job -/

section
variable {β : Type} (g : State → β) (hregs : ∀ s x, g { s with regs := x } = g s)
include hregs

/-- The health image is in the registers and, when the state shown changes, in the I3C target's mirror (R434, R505). -/
theorem State.updateHealth_frame (hmirror : ∀ s x, g { s with i3c := x } = g s) (s : State) : g s.updateHealth = g s := by
  unfold State.updateHealth
  extract_lets img s1 was s2
  have h2 : g s2 = g s :=
    (hregs s1 _).trans (State.foldl_frame g _ (fun t k => hregs t (t.setF (aFltHealth k) F.fltHealth_word (img / 2 ^ (64 * k))).regs) s)
  split
  · exact h2
  · exact (hmirror _ _).trans h2

/-- The end of a job drops the patches and the job (R306, R446). -/
theorem State.endJob_frame (hfab : ∀ s x, g { s with fab := x } = g s) (hbrt : ∀ s x, g { s with brt := x } = g s) (s : State) :
    g s.endJob = g s := by
  unfold State.endJob
  exact (State.foldl_frame g _ (fun t _ => hregs t _) _).trans ((hfab _ _).trans ((hregs _ _).trans (hbrt s _)))

end

theorem State.getF_updateHealth (s : State) {b : Nat} {g : Fld} (hb : ∀ k < 8, b ≠ aFltHealth k) (hg : g.lo < 64)
    (hstate : fkey b g ≠ fkey aBocState F.bocState_state) : s.updateHealth.getF b g = s.getF b g := by
  unfold State.updateHealth
  extract_lets img s1 was s2
  have h1 : s1.getF b g = s.getF b g := by
    refine List.foldlRecOn (motive := fun t : State => t.getF b g = s.getF b g) _ _ rfl fun t ht k hk => ?_
    exact (t.getF_setF_apart _ _ _ (hb k (List.mem_range.mp hk)) (by decide) hg).trans ht
  have h2 : s2.getF b g = s.getF b g := (s1.getF_setF_other _ _ _ hstate).trans h1
  split
  · exact h2
  · exact (congrArg (fun x => Tbl.get 0 x (fkey b g) ^^^ g.reset) s2.regs_refreshMirror).trans h2

/-- Registers outside the ports and the fabric's one. -/
theorem State.getF_endJob (s : State) {b : Nat} {g : Fld} (hb : fabBase < b) (hg : g.lo < 64) : s.endJob.getF b g = s.getF b g := by
  have hport : ∀ p < numPorts, b ≠ aCrpConfig p := fun p hp => by
    unfold numPorts at hp
    unfold aCrpConfig prtBase
    unfold fabBase at hb
    omega
  have hfabric : b ≠ aCrpFabric := by
    unfold aCrpFabric
    omega
  let s1 : State := { s with brt := { s.brt with job := false } }
  have hdrop : s1.dropPatches.getF b g = s.getF b g := s1.getF_setF_apart F.crpFabric_patches g 0 hfabric (by decide) hg
  refine List.foldlRecOn (motive := fun t : State => t.getF b g = s.getF b g) _ _ hdrop fun t ht p hp => ?_
  exact (t.getF_setF_apart _ _ _ (hport p (List.mem_range.mp (List.mem_filter.mp hp).1)) (by decide) hg).trans ht

/-! ### A withdrawal begins (R446) -/

/-- The messages of a withdrawal. -/
theorem foldl_sendTo_frame {β : Type} (g : State → β) (hctl : ∀ s x, g { s with ctl := x } = g s) (l : List Nat) (m : Msg) (s : State) :
    g (l.foldl (fun s p => s.sendTo p m) s) = g s :=
  State.foldl_frame g _ (fun t p => State.unicast_ctl g hctl t _) s

/-- What a withdrawal leaves when it closes: its messages on their way, the beat at which the paths close, and no breath and no job. -/
structure Withdraws (s t : State) : Prop where
  frame : s.sameIslands t ∧ s.sameMemory t
  read : ∀ {b : Nat} {g : Fld}, fabBase < b → g.lo < 64 → t.getF b g = s.getF b g
  resp : t.boc.resp = s.boc.resp

theorem State.tryWithdraw_effects (s : State) :
    Withdraws s s.tryWithdraw ∧
      (s.getF aBocState F.bocState_withdrawing = 1 → s.brt.running = false → s.boc.closeAt = none → s.getF aGmuTrack F.gmuTrack_open = 0 →
        s.tryWithdraw.boc.closeAt = some (s.beat + nsBeat 10000000)) := by
  unfold State.tryWithdraw
  split
  case isFalse hno =>
    refine ⟨⟨⟨⟨rfl, rfl, rfl⟩, rfl, rfl, rfl⟩, fun _ _ => rfl, rfl⟩, fun hflag hrun hclose hopen => absurd ?_ hno⟩
    simp [State.flag, hflag, hrun, hclose, hopen]
  case isTrue =>
    extract_lets close m near s1
    let s2 : State := { s1 with boc := { s1.boc with closeAt := some close } }
    let s3 : State := { s2 with brt := { s2.brt with running := false } }
    have h1 : ∀ {β : Type} (g : State → β), (∀ s x, g { s with ctl := x } = g s) → g s1 = g s := by
      intro β g hctl
      simp only [s1]
      split
      · exact (foldl_sendTo_frame g hctl near m _).trans (State.unicast_ctl g hctl s _)
      · rfl
    have hend : ∀ {β : Type} (g : State → β), (∀ s x, g { s with ctl := x } = g s) → (∀ s x, g { s with regs := x } = g s) →
        (∀ s x, g { s with fab := x } = g s) → (∀ s x, g { s with brt := x } = g s) → (∀ s x, g { s with boc := x } = g s) →
        g s3.endJob = g s :=
      fun g hctl hregs hfab hbrt hboc => (State.endJob_frame g hregs hfab hbrt s3).trans ((hbrt s2 _).trans ((hboc s1 _).trans (h1 g hctl)))
    have hboc : s3.endJob.boc = s2.boc := State.endJob_frame State.boc (fun _ _ => rfl) (fun _ _ => rfl) (fun _ _ => rfl) s3
    refine ⟨⟨⟨⟨hend State.cores (fun _ _ => rfl) (fun _ _ => rfl) (fun _ _ => rfl) (fun _ _ => rfl) (fun _ _ => rfl),
      hend State.clusters (fun _ _ => rfl) (fun _ _ => rfl) (fun _ _ => rfl) (fun _ _ => rfl) (fun _ _ => rfl),
      hend State.islands (fun _ _ => rfl) (fun _ _ => rfl) (fun _ _ => rfl) (fun _ _ => rfl) (fun _ _ => rfl)⟩,
      hend State.mem (fun _ _ => rfl) (fun _ _ => rfl) (fun _ _ => rfl) (fun _ _ => rfl) (fun _ _ => rfl),
      hend State.tags (fun _ _ => rfl) (fun _ _ => rfl) (fun _ _ => rfl) (fun _ _ => rfl) (fun _ _ => rfl),
      hend State.bad (fun _ _ => rfl) (fun _ _ => rfl) (fun _ _ => rfl) (fun _ _ => rfl) (fun _ _ => rfl)⟩,
      fun hb hg => (State.getF_endJob _ hb hg).trans (h1 (fun t => t.getF _ _) fun _ _ => rfl), ?_⟩, fun _ _ _ _ => ?_⟩
    · exact (congrArg BocSt.resp hboc).trans (h1 (fun t => t.boc.resp) fun _ _ => rfl)
    · exact congrArg BocSt.closeAt hboc

/-! ### Units that tones retire (R414) -/

theorem State.flt_event (s : State) (cls code flags : Nat) (unit : BitVec 32) (detail : Nat) :
    ∃ l, (s.event cls code flags unit detail).flt = { s.flt with events := l } := by
  unfold State.event
  extract_lets n rest src s1
  split
  · exact ⟨_, s1.writeEvent_frame State.flt (fun _ _ => rfl) cls code flags unit detail⟩
  · exact ⟨_, rfl⟩

theorem State.flt_ledgerRecord (s : State) (kind cause : Nat) (unit : BitVec 32) (detail : Nat) :
    ∃ l, (s.ledgerRecord kind cause unit detail).flt = { s.flt with ledger := l } := by
  simp only [State.ledgerRecord]
  split
  · exact ⟨_, rfl⟩
  · exact ⟨_, rfl⟩

/-- A retirement adds its unit to the new ones unless it is retired already (R402). -/
theorem State.retireUnit_units (s : State) (unit : BitVec 32) (cause detail : Nat) :
    (s.retireUnit unit cause detail).flt.retired = s.flt.retired ∧ s.flt.newly ⊆ (s.retireUnit unit cause detail).flt.newly ∧
      (unit ∈ s.flt.retired ∨ unit ∈ (s.retireUnit unit cause detail).flt.newly) := by
  unfold State.retireUnit
  split
  case isTrue h =>
    refine ⟨rfl, List.Subset.refl _, ?_⟩
    simpa using h
  case isFalse =>
    extract_lets s1
    obtain ⟨l, hl⟩ := s.flt_ledgerRecord 4 cause unit detail
    obtain ⟨k, hk⟩ := (s.ledgerRecord 4 cause unit detail).flt_event 8 0x70 2 unit 0
    have h1 : s1.flt = { s.flt with ledger := l, events := k } := hk.trans (by rw [hl])
    rw [State.capacityAfter_keeps State.flt (fun _ _ => rfl) (fun _ => rfl)]
    refine ⟨show s1.flt.retired = s.flt.retired by rw [h1], ?_, .inr (List.mem_append_right _ List.mem_cons_self)⟩
    exact show s.flt.newly ⊆ s1.flt.newly ++ [unit] by
      rw [h1]
      exact List.subset_append_left _ _

/-- One unit of a tone's faults: a record, and its retirement. -/
def State.toneUnit (pack : Nat) (s : State) (u : BitVec 32) : State := (s.ledgerRecord 3 6 u pack).retireUnit u 6 pack

theorem State.toneUnit_units (pack : Nat) (s : State) (u : BitVec 32) :
    (s.toneUnit pack u).flt.retired = s.flt.retired ∧ s.flt.newly ⊆ (s.toneUnit pack u).flt.newly ∧
      (u ∈ s.flt.retired ∨ u ∈ (s.toneUnit pack u).flt.newly) := by
  obtain ⟨l, hl⟩ := s.flt_ledgerRecord 3 6 u pack
  have h := (s.ledgerRecord 3 6 u pack).retireUnit_units u 6 pack
  rw [hl] at h
  exact h

theorem State.toneUnits_retire (pack : Nat) (bad : List (BitVec 32)) (s : State) :
    (bad.foldl (State.toneUnit pack) s).flt.retired = s.flt.retired ∧ s.flt.newly ⊆ (bad.foldl (State.toneUnit pack) s).flt.newly ∧
      ∀ u ∈ bad, u ∈ s.flt.retired ∨ u ∈ (bad.foldl (State.toneUnit pack) s).flt.newly := by
  induction bad generalizing s with
  | nil => exact ⟨rfl, List.Subset.refl _, fun _ h => absurd h List.not_mem_nil⟩
  | cons v bad ih =>
    obtain ⟨hret, hsub, hin⟩ := s.toneUnit_units pack v
    obtain ⟨kret, ksub, kin⟩ := ih (s.toneUnit pack v)
    refine ⟨kret.trans hret, fun u hu => ksub (hsub hu), fun u hu => ?_⟩
    rcases List.mem_cons.mp hu with rfl | hu
    · exact hin.imp_right fun h => ksub h
    · exact hret ▸ kin u hu

theorem State.bare_toneUnits (pack : Nat) (bad : List (BitVec 32)) (s : State) : (bad.foldl (State.toneUnit pack) s).bare = s.bare :=
  State.foldl_frame State.bare _ (fun t u => ((t.ledgerRecord 3 6 u pack).bare_retireUnit _ _ _).trans (t.bare_ledgerRecord _ _ _ _)) s

theorem State.offLog_toneUnits (pack : Nat) (bad : List (BitVec 32)) (s : State) : (bad.foldl (State.toneUnit pack) s).offLog = s.offLog :=
  State.foldl_frame State.offLog _ (fun t u => ((t.ledgerRecord 3 6 u pack).offLog_retireUnit _ _ _).trans (t.offLog_ledgerRecord _ _ _ _)) s

/-! ### What a session's record leaves as it is -/

@[simp] theorem State.getF_setSession (s : State) (y : Session) (b : Nat) (g : Fld) : (s.setSession y).getF b g = s.getF b g := rfl
@[simp] theorem State.flag_setSession (s : State) (y : Session) (b : Nat) (g : Fld) : (s.setSession y).flag b g = s.flag b g := rfl
@[simp] theorem State.manifest_setSession (s : State) (y : Session) : (s.setSession y).manifest = s.manifest := rfl
@[simp] theorem State.brt_setSession (s : State) (y : Session) : (s.setSession y).brt = s.brt := rfl
@[simp] theorem State.fab_setSession (s : State) (y : Session) : (s.setSession y).fab = s.fab := rfl
@[simp] theorem State.rcv_setSession (s : State) (y : Session) : (s.setSession y).rcv = s.rcv := rfl
@[simp] theorem State.beat_setSession (s : State) (y : Session) : (s.setSession y).beat = s.beat := rfl
@[simp] theorem State.packs_setSession (s : State) (y : Session) : (s.setSession y).boc.packs = s.boc.packs := rfl
@[simp] theorem State.ahead_setSession (s : State) (y : Session) (b : Beat) (ns : Nat) : (s.setSession y).ahead b ns = s.ahead b ns := rfl
@[simp] theorem State.admitted_setSession (s : State) (y : Session) : (s.setSession y).admitted = s.admitted := rfl
@[simp] theorem State.isMember_setSession (s : State) (y : Session) (p : Nat) : (s.setSession y).isMember p = s.isMember p := rfl
@[simp] theorem State.allReady_setSession (s : State) (y : Session) : (s.setSession y).allReady = s.allReady := rfl
@[simp] theorem Session.may_accept (bit : Nat) (x : Session) (n : Nat) : (x.accept n).may bit = x.may bit := rfl

/-! ### The requests -/

section
variable {s : State} {r : Brq} {x : Session} (h : InSession s r x)
include h

theorem admitRequest_effects {b : Beat} (hmay : x.may 2 = true) (hman : s.manifest.isSome = true)
    (hgrant : s.getF aBocState F.bocState_grant ≠ 0) (hstep : s.getF aBocState F.bocState_step = 9)
    (hclass : s.getF aBocCapacity F.bocCapacity_class ≠ 3) (hahead : s.ahead b 100000000 = true) :
    CompletesWith (execAdmitRequest r b s) fun t =>
      s.done t r x 0x40 [] ∧ t.boc.admitAt = some b ∧ s.sameIslands t ∧ s.sameMemory t := by
  let u := s.setSession (x.accept r.counter)
  let v : State := { u with boc := { u.boc with admitAt := some b } }
  refine h.completes (t := v) hmay ?_ ⟨State.done_completed (t := v) h.going rfl _ _,
    v.completed_frame (fun y => y.boc.admitAt) (fun _ _ => rfl) (fun _ _ => rfl) r h.going _ _,
    State.frame_completed ⟨⟨rfl, rfl, rfl⟩, rfl, rfl, rfl⟩ h.going _ _⟩
  have hnone : s.manifest.isNone = false := by simpa using hman
  have hflag : s.flag aBocState F.bocState_grant = true := decide_eq_true hgrant
  rw [if_neg (by simp [hnone, hflag, hstep, hclass]), if_neg (by simp [hahead])]

theorem admitNotice_effects {j : Nat} {b : Beat} (hmay : x.may 2 = true) (hlead : s.isLead = true) (hidle : s.brt.running = false)
    (hpatches : s.fab.patches = []) (hahead : s.ahead b 100000000 = true) (hmember : s.isMember j = true) :
    CompletesWith (execAdmitNotice r j b s) fun t =>
      s.done t r x 0x41 [] ∧ j ∈ t.rcv.joiners ∧ j ∉ t.rcv.lost ∧ s.sameIslands t ∧ s.sameMemory t := by
  let u := s.setSession (x.accept r.counter)
  let near := (((List.range 6).map fun d => u.neighbourOf j d).filter fun p => u.isMember p && decide (p ≠ j)).eraseDups
  let w := near.foldl (fun s p => s.sendTo p (u.msgOf 0x70 [(24, j), (40, b.toNat / 65536)])) u
  let v : State := { w with rcv := { w.rcv with joiners := j :: w.rcv.joiners.filter fun p => p ≠ j, lost := w.rcv.lost.filter fun p => p ≠ j } }
  have hw : ∀ {β : Type} (g : State → β), (∀ s x, g { s with ctl := x } = g s) → g w = g u := fun g hctl =>
    foldl_sendTo_frame g hctl near _ u
  have hframe : s.sameIslands v ∧ s.sameMemory v :=
    ⟨⟨hw State.cores fun _ _ => rfl, hw State.clusters fun _ _ => rfl, hw State.islands fun _ _ => rfl⟩,
      hw State.mem fun _ _ => rfl, hw State.tags fun _ _ => rfl, hw State.bad fun _ _ => rfl⟩
  have hrcv := v.completed_frame State.rcv (fun _ _ => rfl) (fun _ _ => rfl) r h.going 0x41 []
  refine h.completes (t := v) (by simp [hmay, hlead]) ?_
    ⟨State.done_completed (t := v) h.going (hw (fun y => y.getF aBocBrq F.bocBrq_accepted) fun _ _ => rfl) _ _, ?_, ?_,
      State.frame_completed hframe h.going _ _⟩
  · rw [if_neg (by simp [hidle, hpatches]), if_neg (by simp [hahead]), if_neg (by simp [hmember])]
  · exact hrcv.symm ▸ List.mem_cons_self
  · refine hrcv.symm ▸ fun hj => ?_
    simpa using (List.mem_filter.mp hj).2

theorem withdraw_effects (hmay : x.may 2 = true) (hin : s.admitted = true) :
    CompletesWith (execWithdraw r s) fun t =>
      s.done t r x 0x42 [] ∧ t.getF aBocState F.bocState_withdrawing = 1 ∧
      (s.brt.running = false → s.boc.closeAt = none → s.getF aGmuTrack F.gmuTrack_open = 0 →
        t.boc.closeAt = some (s.beat + nsBeat 10000000)) ∧ s.sameIslands t ∧ s.sameMemory t := by
  let u := s.setSession (x.accept r.counter)
  let v := u.setF aBocState F.bocState_withdrawing 1
  let z := v.tryWithdraw
  obtain ⟨hw, hclose⟩ := v.tryWithdraw_effects
  have hz : ∀ {β : Type} (g : State → β), (∀ s y, g { s with regs := y } = g s) → (∀ s y, g { s with i3c := y } = g s) →
      g z.updateHealth = g z := fun g hregs hmirror => State.updateHealth_frame g hregs hmirror z
  have hread : ∀ {b : Nat} {g : Fld}, bocBase ≤ b → g.lo < 64 → fkey b g ≠ fkey aBocState F.bocState_state →
      z.updateHealth.getF b g = v.getF b g := fun {b g} hb hg hk =>
    (z.getF_updateHealth (fun k hk => by unfold aFltHealth fltBase; unfold bocBase at hb; omega) hg hk).trans
      (hw.read (by unfold fabBase; unfold bocBase at hb; omega) hg)
  have hframe : s.sameIslands z.updateHealth ∧ s.sameMemory z.updateHealth :=
    State.frame_trans hw.frame ⟨⟨hz State.cores (fun _ _ => rfl) fun _ _ => rfl, hz State.clusters (fun _ _ => rfl) fun _ _ => rfl,
      hz State.islands (fun _ _ => rfl) fun _ _ => rfl⟩, hz State.mem (fun _ _ => rfl) fun _ _ => rfl,
      hz State.tags (fun _ _ => rfl) fun _ _ => rfl, hz State.bad (fun _ _ => rfl) fun _ _ => rfl⟩
  refine h.completes (t := z.updateHealth) hmay ?_ ⟨State.done_completed h.going ?_ _ _, ?_, fun hrun hnone hopen => ?_,
    State.frame_completed hframe h.going _ _⟩
  · rw [if_neg (by simp [hin])]
  · exact (hread (by decide) (by decide) (by decide)).trans (State.getF_setF_other u _ _ _ (by decide))
  · exact (State.getF_completed _ h.going _ _ (by decide)).trans ((hread (by decide) (by decide) (by decide)).trans (u.getF_setF_same ..))
  · refine (State.completed_frame (fun y => y.boc.closeAt) (fun _ _ => rfl) (fun _ _ => rfl) _ r h.going _ _).trans
      ((hz (fun y => y.boc.closeAt) (fun _ _ => rfl) fun _ _ => rfl).trans (hclose (u.getF_setF_same ..) hrun hnone ?_))
    exact (State.getF_setF_other u _ _ _ (by decide)).trans hopen

/-- A request that the lead broadcasts. -/
theorem broadcast_effects {u : State} (m : Msg) (hframe : s.sameIslands u ∧ s.sameMemory u)
    (hcount : u.getF aBocBrq F.bocBrq_accepted = s.getF aBocBrq F.bocBrq_accepted) (code : Nat) (data : List Byte) :
    s.done ((u.sendAll m).completed r x code data) r x code data ∧ m ∈ ((u.sendAll m).completed r x code data).ctl.loop ∧
      ((u.sendAll m).completed r x code data).rcv = u.rcv ∧
      s.sameIslands ((u.sendAll m).completed r x code data) ∧ s.sameMemory ((u.sendAll m).completed r x code data) := by
  have hread : (u.sendAll m).getF aBocBrq F.bocBrq_accepted = s.getF aBocBrq F.bocBrq_accepted :=
    (State.sendAll_ctl (fun y => y.getF aBocBrq F.bocBrq_accepted) (fun _ _ => rfl) u m).trans hcount
  have hctl : ((u.sendAll m).completed r x code data).ctl = (u.sendAll m).ctl := (u.sendAll m).completed_frame State.ctl (fun _ _ => rfl) (fun _ _ => rfl) r h.going code data
  have hrcv := (u.sendAll m).completed_frame State.rcv (fun _ _ => rfl) (fun _ _ => rfl) r h.going code data
  exact ⟨State.done_completed h.going hread _ _, hctl.symm ▸ u.mem_loop_sendAll m, hrcv.trans (State.sendAll_ctl State.rcv (fun _ _ => rfl) u m),
    State.frame_completed (State.frame_trans hframe (u.frame_sendAll m)) h.going _ _⟩

theorem start_effects (hmay : x.may 2 = true) (hlead : s.isLead = true) (hidle : s.brt.job = false) (hin : s.admitted = true)
    (hready : s.allReady = true) :
    CompletesWith (execStart r 0 s) fun t =>
      s.done t r x 0x43 (bytesOfNat 8 (s.beat + nsBeat 10000000).toNat) ∧
        s.msgOf 0x72 [(40, (s.beat + nsBeat 10000000).toNat / 65536)] ∈ t.ctl.loop ∧ s.sameIslands t ∧ s.sameMemory t := by
  let u := s.setSession (x.accept r.counter)
  let b := s.beat + nsBeat 10000000
  obtain ⟨hdone, hmem, -, hframe⟩ :=
    broadcast_effects h (u.msgOf 0x72 [(40, b.toNat / 65536)]) (s.frame_setSession (x.accept r.counter)) rfl 0x43 (bytesOfNat 8 b.toNat)
  refine h.completes (t := u.sendAll (u.msgOf 0x72 [(40, b.toNat / 65536)]))
    (by simp [hmay, hlead]) ?_ ⟨hdone, hmem, hframe⟩
  have hnow : s.ahead b 10000000 = true := by
    simp only [State.ahead, beatReached, show b - (s.beat + nsBeat 10000000) = 0 from BitVec.sub_self b]
    decide
  have hnear : beatReached (s.beat + nsBeat 10000000000) b = true := by
    have hdiff : s.beat + nsBeat 10000000000 - b = nsBeat 10000000000 - nsBeat 10000000 := add_sub_add_left_eq_sub _ _ _
    simp only [beatReached, hdiff]
    decide
  simp only [if_true]
  rw [if_neg (by simp [hidle, hin, hready]), if_neg (by simpa using ⟨hnow, hnear⟩)]
  rfl

theorem stop_effects (hmay : x.may 2 = true) (hlead : s.isLead = true) (hjob : s.brt.job = true) (hrun : s.brt.running = true)
    (hopen : s.brt.taken = false) (hlive : s.brt.aborted = false) :
    CompletesWith (execStop r s) fun t =>
      s.done t r x 0x44 [] ∧ t.brt = { s.brt with stopping := true } ∧ s.sameIslands t ∧ s.sameMemory t := by
  let u := s.setSession (x.accept r.counter)
  let v : State := { u with brt := { u.brt with stopping := true } }
  refine h.completes (t := v) (by simp [hmay, hlead]) ?_
    ⟨State.done_completed (t := v) h.going rfl _ _, v.completed_frame State.brt (fun _ _ => rfl) (fun _ _ => rfl) r h.going _ _,
      State.frame_completed ⟨⟨rfl, rfl, rfl⟩, rfl, rfl, rfl⟩ h.going _ _⟩
  rw [if_neg (by simp [hjob]), if_pos (by simp [hrun, hopen, hlive])]

theorem decide_effects {n : Nat} (hmay : x.may 2 = true) (hlead : s.isLead = true) (hwait : s.rcv.waits = some n) :
    CompletesWith (execDecide r n 1 s) (fun t =>
      s.done t r x 0x45 [] ∧ t.rcv.decided = n ∧ s.msgOf 0x22 [(24, n)] ∈ t.ctl.loop ∧ s.sameIslands t ∧ s.sameMemory t) ∧
    CompletesWith (execDecide r n 2 s) fun t =>
      s.done t r x 0x45 [] ∧ t.rcv.restart = true ∧ s.msgOf 0x23 [(24, n)] ∈ t.ctl.loop ∧ s.sameIslands t ∧ s.sameMemory t := by
  let u := s.setSession (x.accept r.counter)
  have hgo : ((x.accept r.counter).may 2 && s.isLead) = true := by simp [hmay, hlead]
  have hfound : ¬(u.rcv.waits ≠ some n) := fun hne => hne hwait
  let v : State := { u with rcv := { u.rcv with
      decided := n, replay := none, waits := none, reports := u.rcv.reports.filter fun r => decide (n < r.step),
      digests := u.rcv.digests.filter fun d => decide (n < d.step), swept := u.rcv.swept.filter fun w => decide (n < w.2 + 4) } }
  let w : State := { u with rcv := { u.rcv with
      replay := none, waits := none, restart := true, reports := u.rcv.reports.filter fun r => decide (r.step < n),
      digests := u.rcv.digests.filter fun d => decide (d.step < n) } }
  obtain ⟨hdone, hmem, hrcv, hframe⟩ :=
    broadcast_effects (u := v) h (v.msgOf 0x22 [(24, n)]) ⟨⟨rfl, rfl, rfl⟩, rfl, rfl, rfl⟩ rfl 0x45 []
  obtain ⟨kdone, kmem, krcv, kframe⟩ :=
    broadcast_effects (u := w) h (w.msgOf 0x23 [(24, n)]) ⟨⟨rfl, rfl, rfl⟩, rfl, rfl, rfl⟩ rfl 0x45 []
  refine ⟨h.completes (t := u.commitStep n) hgo ?_ ⟨hdone, congrArg Recov.decided hrcv, hmem, hframe⟩,
    h.completes (t := u.discardStep n) hgo ?_ ⟨kdone, congrArg Recov.restart krcv, kmem, kframe⟩⟩
  · rw [if_neg (by decide), if_neg hfound]
    rfl
  · rw [if_neg (by decide), if_neg hfound]
    rfl

theorem update_effects {slot : Nat} (hslot : slot < 2) (hmay : x.may 4 = true) (hout : s.admitted = false) :
    CompletesWith (execUpdate r slot s) fun t =>
      t.answered r x 0x50 0 [] ∧ t.nv = { s.nv with bcr := { preferred := slot, trial := true, boots := 0 } } ∧
        t.getF aBocResetCause F.bocResetCause_cause = 4 ∧ t.pins.power = .held ∧ t.cores = [] := by
  let u := s.setSession (x.accept r.counter)
  let v : State := { u with nv := { u.nv with bcr := { preferred := slot, trial := true, boots := 0 } } }
  obtain ⟨hresp, hnv, hcause, hpower, hcores⟩ := (v.completed r x 0x50 []).commandedReset_effects (cause := 4) (by decide)
  refine h.completes (t := v) hmay ?_ ⟨hresp.trans (v.resp_completed h.going _ _), hnv.trans (State.completed_nv h.going _ _), hcause, hpower, hcores⟩
  rw [if_neg (by simp [hout]), if_neg (Nat.not_le.mpr hslot)]

theorem confirm_effects (hmay : x.may 4 = true) (htrial : s.getF aSecState F.secState_trial ≠ 0) (hver : s.boc.secVer < 2 ^ 7)
    (hctr : s.getF aSecCounters F.secCounters_ctr0 < 2 ^ 7) :
    CompletesWith (execConfirm r s) fun t =>
      s.done t r x 0x51 [] ∧ t.getF aSecState F.secState_trial = 0 ∧
        t.getF aSecCounters F.secCounters_ctr0 = max (s.getF aSecCounters F.secCounters_ctr0) s.boc.secVer ∧
        t.nv.bcr = { s.nv.bcr with trial := false, boots := 0 } ∧ s.sameIslands t ∧ s.sameMemory t := by
  let u := s.setSession (x.accept r.counter)
  let v := u.setF aSecState F.secState_trial 0
  let w := v.setF aSecCounters F.secCounters_ctr0 (max (v.getF aSecCounters F.secCounters_ctr0) v.boc.secVer)
  let z : State := { w with nv := { w.nv with bcr := { w.nv.bcr with trial := false, boots := 0 } } }
  have hold : v.getF aSecCounters F.secCounters_ctr0 = s.getF aSecCounters F.secCounters_ctr0 := u.getF_setF_other _ _ _ (by decide)
  refine h.completes (t := z) hmay ?_ ⟨State.done_completed h.going ?_ _ _, ?_, ?_, congrArg NonVol.bcr (State.completed_nv h.going _ _),
    State.frame_completed ⟨⟨rfl, rfl, rfl⟩, rfl, rfl, rfl⟩ h.going _ _⟩
  · rw [if_neg (by simp [show s.flag aSecState F.secState_trial = true from decide_eq_true htrial])]
  · exact (v.getF_setF_other _ _ _ (by decide)).trans (u.getF_setF_other _ _ _ (by decide))
  · exact (z.getF_completed h.going _ _ (by decide)).trans ((v.getF_setF_other _ _ _ (by decide)).trans (u.getF_setF_same ..))
  · refine (z.getF_completed h.going _ _ (by decide)).trans ((v.getF_setF_same ..).trans ?_)
    rw [hold]
    exact Nat.mod_eq_of_lt (Nat.max_lt.mpr ⟨hctr, hver⟩)

theorem reset_effects (hmay : x.may 4 = true) (hout : s.admitted = false) :
    CompletesWith (execReset r s) fun t =>
      t.answered r x 0x52 0 [] ∧ t.nv = s.nv ∧ t.getF aBocResetCause F.bocResetCause_cause = 3 ∧ t.pins.power = .held ∧ t.cores = [] := by
  let u := s.setSession (x.accept r.counter)
  obtain ⟨hresp, hnv, hcause, hpower, hcores⟩ := (u.completed r x 0x52 []).commandedReset_effects (cause := 3) (by decide)
  refine h.completes (t := u) hmay ?_ ⟨hresp.trans (u.resp_completed h.going _ _), hnv.trans (State.completed_nv h.going _ _), hcause, hpower, hcores⟩
  rw [if_neg (by simp [hout])]

theorem toneRun_effects {k : Pack} (hmay : x.may 3 = true) (hidle : s.brt.job = false) (hpacks : s.boc.packs = [k]) :
    CompletesWith (execToneRun r 0 s) fun t =>
      s.done t r x 0x53 [] ∧ t.fresh = s.fresh + 1 ∧
        (∀ u ∈ Config.toneFaults k.number s.fresh, u ∈ s.flt.retired ∨ u ∈ t.flt.newly) ∧ s.sameIslands t ∧ s.sameMemory t := by
  let u := s.setSession (x.accept r.counter)
  let v : State := { u with fresh := u.fresh + 1 }
  let bad := Config.toneFaults k.number s.fresh
  let z := bad.foldl (State.toneUnit k.number) v
  have hbare : z.bare = v.bare := State.bare_toneUnits _ _ _
  obtain ⟨-, -, hin⟩ := State.toneUnits_retire k.number bad v
  have hflt := z.completed_frame State.flt (fun _ _ => rfl) (fun _ _ => rfl) r h.going 0x53 []
  refine h.completes (t := z) hmay ?_ ⟨State.done_completed h.going ?_ _ _, ?_, ?_,
    State.frame_completed ⟨State.sameIslands_of_bare (s := v) hbare, State.sameMemory_of_bare (s := v) hbare⟩ h.going _ _⟩
  · simp only [if_true, State.brt_setSession, State.packs_setSession, hidle, hpacks]
    rw [if_neg (by decide), if_neg (by simp)]
    rfl
  · exact State.getF_of_offLog (s := v) (State.offLog_toneUnits _ _ _) (by decide) (by decide)
  · exact (z.completed_frame State.fresh (fun _ _ => rfl) (fun _ _ => rfl) r h.going _ _).trans (State.of_bare State.fresh (fun _ => rfl) hbare)
  · exact hflt.symm ▸ hin

end

end Sys2Proof.Machine

open Sys2Proof Sys2Proof.Machine

/-- Settles O49, request by request. -/
theorem sliceAndUpdateRequests : Obligations.SliceAndUpdateRequests := by
  unfold Obligations.SliceAndUpdateRequests
  intro s r x h
  exact ⟨fun _ => admitRequest_effects h, fun _ _ => admitNotice_effects h, withdraw_effects h, start_effects h, stop_effects h,
    fun _ => decide_effects h, fun _ => update_effects h, confirm_effects h, reset_effects h, fun _ => toneRun_effects h⟩
end

section
/-! Admission, the start of a job, and a withdrawal noticed (R485 to R488, R492, R493, R495). -/

namespace Sys2Proof.Machine

/-! ### Ports that expect a joiner -/

/-- A port told of the beat from which its neighbour joins (R486). -/
def State.expectJoiner (b : Beat) (s : State) (p : Nat) : State := s.setPort p { s.port p with expectTo := some b }

theorem State.expectJoiner_same (b : Beat) (s : State) (p : Nat) : ((s.expectJoiner b p).port p).expectTo = some b := by
  rw [State.expectJoiner, State.port_setPort_same]

theorem State.expectJoiner_other (b : Beat) (s : State) {p q : Nat} (h : q ≠ p) : (s.expectJoiner b p).port q = s.port q :=
  Tbl.get_set_other Port.reset s.ports _ h

theorem State.expectTo_expectJoiners (b : Beat) (l : List Nat) (s : State) (q : Nat) :
    ((l.foldl (State.expectJoiner b) s).port q).expectTo = if q ∈ l then some b else (s.port q).expectTo := by
  induction l generalizing s with
  | nil => rw [if_neg List.not_mem_nil, List.foldl_nil]
  | cons p l ih =>
    rw [List.foldl_cons, ih]
    by_cases hl : q ∈ l
    · rw [if_pos hl, if_pos (List.mem_cons_of_mem p hl)]
    · by_cases hq : q = p
      · rw [if_neg hl, if_pos (List.mem_cons.mpr (.inl hq)), hq, State.expectJoiner_same]
      · rw [if_neg hl, if_neg (fun h => (List.mem_cons.mp h).elim hq hl), State.expectJoiner_other b s hq]

theorem admitNoticeMessage_effects (s : State) (msg : Msg) :
    CompletesWith (execAdmitNoticeMessage msg s) fun t =>
      (∀ p < numPorts, (t.port p).expectTo = if (s.takeMsg msg).neighbour (p / 8) = msgBits msg 24 14
        then some (BitVec.ofNat 64 (msgBits msg 40 48 * 65536)) else ((s.takeMsg msg).port p).expectTo) ∧
      t.regs = s.regs ∧ s.sameIslands t ∧ s.sameMemory t := by
  let s0 := s.takeMsg msg
  let b : Beat := BitVec.ofNat 64 (msgBits msg 40 48 * 65536)
  let l := (List.range numPorts).filter fun p => decide (s0.neighbour (p / 8) = msgBits msg 24 14)
  have hkeep : ∀ {β : Type} (g : State → β), (∀ s x, g { s with ports := x } = g s) → g (l.foldl (State.expectJoiner b) s0) = g s0 :=
    fun g hports => State.foldl_frame g l (fun t p => hports t _) s0
  obtain ⟨hisl, hmem⟩ := s.takeMsg_frame msg
  refine ⟨l.foldl (State.expectJoiner b) s0, rfl, fun p hp => ?_, (hkeep State.regs fun _ _ => rfl).trans (s.regs_takeMsg msg),
    hisl.trans ⟨hkeep State.cores fun _ _ => rfl, hkeep State.clusters fun _ _ => rfl, hkeep State.islands fun _ _ => rfl⟩,
    hmem.trans ⟨hkeep State.mem fun _ _ => rfl, hkeep State.tags fun _ _ => rfl, hkeep State.bad fun _ _ => rfl⟩⟩
  rw [State.expectTo_expectJoiners]
  by_cases hn : s0.neighbour (p / 8) = msgBits msg 24 14
  · rw [if_pos hn, if_pos (List.mem_filter.mpr ⟨List.mem_range.mpr hp, decide_eq_true hn⟩)]
  · rw [if_neg hn, if_neg (fun h : p ∈ l => hn (of_decide_eq_true (List.mem_filter.mp h).2))]

/-! ### A joiner admitted (R487, R488) -/

theorem coordOn_lt (a idx : Nat) : coordOn a idx < 32 := by
  unfold coordOn
  split <;> omega

theorem State.lt_of_mem_boxMembers {s : State} {d : Nat} (h : d ∈ s.boxMembers) : d < 2 ^ 17 := by
  have hlow : ∀ a, s.lowCorner a < 32 := fun a => by
    unfold State.lowCorner
    split
    · exact coordOn_lt _ _
    · decide
  have hext : ∀ a, s.extent a ≤ 32 := fun a => by
    unfold State.extent
    split
    · exact coordOn_lt _ _
    · decide
  obtain ⟨z, hz, h⟩ := List.mem_flatMap.mp h
  obtain ⟨y, hy, h⟩ := List.mem_flatMap.mp h
  obtain ⟨x, hx, rfl⟩ := List.mem_map.mp h
  have h0 := hlow 0
  have h1 := hlow 1
  have h2 := hlow 2
  have hx' := Nat.lt_of_lt_of_le (List.mem_range.mp hx) (hext 0)
  have hy' := Nat.lt_of_lt_of_le (List.mem_range.mp hy) (hext 1)
  have hz' := Nat.lt_of_lt_of_le (List.mem_range.mp hz) (hext 2)
  omega

theorem State.getF_clearSpan_apart (s : State) {a n b : Nat} {g : Fld} (h : b < a ∨ a + n ≤ b) (hg : g.lo < 64) :
    (s.clearSpan a n).getF b g = s.getF b g := by
  have hkeep : (!(decide (64 * a ≤ fkey b g ∧ fkey b g < 64 * (a + n)))) = true := by
    rw [Bool.not_eq_true', decide_eq_false_iff_not]
    simp only [fkey]
    omega
  have hget := Tbl.get_filter 0 s.regs (fun k => !(decide (64 * a ≤ k ∧ k < 64 * (a + n)))) (fkey b g)
  rw [if_pos hkeep] at hget
  exact congrArg (· ^^^ g.reset) hget

/-- The registers beside a table's own are as before its construction. -/
theorem State.getF_buildBank_above (s : State) {b : Nat} {g : Fld} (hb : timBase ≤ b) (hg : g.lo < 64) :
    (s.buildBank 0).getF b g = s.getF b g := by
  let s1 := s.clearSpan (aGmuRoute 0 0) (8 * 16384)
  have h1 : s1.getF b g = s.getF b g := s.getF_clearSpan_apart (.inr (by unfold aGmuRoute gmuBase; unfold timBase at hb; omega)) hg
  refine List.foldlRecOn (motive := fun t : State => t.getF b g = s.getF b g) _ _ h1 fun t ht d hd => ?_
  have hd' := State.lt_of_mem_boxMembers hd
  exact (State.getF_setFs_apart (by unfold aGmuRoute gmuBase; unfold timBase at hb; omega) (routeFields (t.routePorts d)).2 hg t).trans ht

/-- Channel states lie in the fields' blocks. -/
theorem State.getF_setChannels (s : State) (v : Nat) {b : Nat} {g : Fld} (hb : prtBase 0 ≤ b) (hg : g.lo < 64) :
    (s.setChannels v).getF b g = s.getF b g := by
  refine List.foldlRecOn (motive := fun t : State => t.getF b g = s.getF b g) _ _ rfl fun t ht k hk => ?_
  have hk' := List.mem_range.mp hk
  split
  · refine (t.getF_setF_apart F.fldChState_state g v ?_ (by decide) hg).trans ht
    unfold prtBase at hb
    unfold aFldChState fldBase
    omega
  · exact ht

theorem State.setChannels_frame {β : Type} (g : State → β) (hregs : ∀ s x, g { s with regs := x } = g s) (s : State) (v : Nat) :
    g (s.setChannels v) = g s := by
  refine State.foldl_frame g _ (fun t k => ?_) s
  split
  · exact hregs t _
  · rfl

/-- Injection permits lie in the ports' blocks. -/
theorem State.getF_permits (s : State) (v : Nat) {b : Nat} {g : Fld} (hb : fabBase ≤ b) (hg : g.lo < 64) :
    ((List.range numPorts).foldl (fun s p => s.setF (aLnkInjCtl p) F.lnkInjCtl_permitted v) s).getF b g = s.getF b g := by
  refine List.foldlRecOn (motive := fun t : State => t.getF b g = s.getF b g) _ _ rfl fun t ht p hp => ?_
  have hp' := List.mem_range.mp hp
  unfold numPorts at hp'
  refine (t.getF_setF_apart F.lnkInjCtl_permitted g v ?_ (by decide) hg).trans ht
  unfold fabBase at hb
  unfold aLnkInjCtl prtBase
  omega

/-- The registers that a new member shows before its routing table is built (R488). -/
def State.memberRegs (s : State) (m : Manifest) : State :=
  let s := s.setFs aBocState [(F.bocState_admitted, 1), (F.bocState_step, 11)]
  let own := ((List.range 3).map fun a => if s.ownsRing a then 2 ^ a else 0).sum
  let s := s.setFs aGmuCfg [(F.gmuCfg_timeout, m.timeout), (F.gmuCfg_admitted, 1)]
  let s := s.setFs aGmuSlice [(F.gmuSlice_low, m.low), (F.gmuSlice_extentM1, m.extentM1), (F.gmuSlice_own, own), (F.gmuSlice_torusM1, m.torusM1)]
  let s := s.setFs aBocSlipCfg [(F.bocSlipCfg_window, m.window), (F.bocSlipCfg_quantum, m.quantum)]
  let s := s.setFs aFltState [(F.fltState_role, m.role.1), (F.fltState_successor, m.role.2), (F.fltState_lead, m.leads.headD 0)]
  s.setFs aGmuEpoch [(F.gmuEpoch_inject, 0), (F.gmuEpoch_bank1, 0), (F.gmuEpoch_changes, 0)]

/-- The same member with its table, its authentication counts and its injection permits. -/
def State.memberTables (s : State) (m : Manifest) : State :=
  (List.range numPorts).foldl (fun s p => s.setF (aLnkInjCtl p) F.lnkInjCtl_permitted (m.flags % 2))
    (((s.buildBank 0).setBank 0 2).setFs aSecAuth [(F.secAuth_port, 0), (F.secAuth_valid, 0)])

/-- The same member with its channels in use, and no longer joining. -/
def State.memberJoined (s : State) : State :=
  { s.setChannels 2 with
    boc := { s.boc with joining := false, admitAt := none }
    rcv := { s.rcv with decided := s.committed, sweepFrom := s.committed } }

theorem State.memberJoined_shows (s : State) : s.memberJoined.regs = (s.setChannels 2).regs ∧ s.memberJoined.boc.joining = false ∧
    s.memberJoined.boc.admitAt = none := ⟨rfl, rfl, rfl⟩

theorem State.memberJoined_frame {β : Type} (g : State → β) (hregs : ∀ s x, g { s with regs := x } = g s)
    (hboc : ∀ s x, g { s with boc := x } = g s) (hrcv : ∀ s x, g { s with rcv := x } = g s) (s : State) : g s.memberJoined = g s := by
  have hset := State.setChannels_frame g hregs s 2
  unfold State.memberJoined
  generalize s.setChannels 2 = t at *
  let u : State := { t with boc := { s.boc with joining := false, admitAt := none } }
  exact (hrcv u { s.rcv with decided := s.committed, sweepFrom := s.committed }).trans
    ((hboc t { s.boc with joining := false, admitAt := none }).trans hset)

theorem State.becomeMember_eq (s : State) (m : Manifest) : s.becomeMember m = ((s.memberRegs m).memberTables m).memberJoined := (rfl)

theorem State.memberRegs_shows (s : State) (m : Manifest) :
    let t := s.memberRegs m
    t.getF aBocState F.bocState_admitted = 1 ∧ t.getF aBocState F.bocState_step = 11 ∧ t.getF aFltState F.fltState_role = m.role.1 % 4 ∧
      t.getF aFltState F.fltState_lead = m.leads.headD 0 % 2 ^ 14 ∧ t.getF aGmuEpoch F.gmuEpoch_inject = 0 ∧
      t.getF aBocSlipCfg F.bocSlipCfg_window = m.window % 2 ^ F.bocSlipCfg_window.width := by
  unfold State.memberRegs
  extract_lets s1 own s2 s3 s4 s5 t
  have hlast : ∀ {b : Nat} {g : Fld}, b ≠ aGmuEpoch → g.lo < 64 → t.getF b g = s5.getF b g := fun hb hg =>
    State.getF_setFs_apart hb (by simp [F.gmuEpoch_inject, F.gmuEpoch_bank1, F.gmuEpoch_changes]) hg s5
  have hrole : ∀ {b : Nat} {g : Fld}, b ≠ aFltState → g.lo < 64 → s5.getF b g = s4.getF b g := fun hb hg =>
    State.getF_setFs_apart hb (by simp [F.fltState_role, F.fltState_successor, F.fltState_lead]) hg s4
  have hslip : ∀ {b : Nat} {g : Fld}, b ≠ aBocSlipCfg → g.lo < 64 → s4.getF b g = s3.getF b g := fun hb hg =>
    State.getF_setFs_apart hb (by simp [F.bocSlipCfg_window, F.bocSlipCfg_quantum]) hg s3
  have hslice : ∀ {b : Nat} {g : Fld}, b ≠ aGmuSlice → g.lo < 64 → s3.getF b g = s2.getF b g := fun hb hg =>
    State.getF_setFs_apart hb (by simp [F.gmuSlice_low, F.gmuSlice_extentM1, F.gmuSlice_own, F.gmuSlice_torusM1]) hg s2
  have hcfg : ∀ {b : Nat} {g : Fld}, b ≠ aGmuCfg → g.lo < 64 → s2.getF b g = s1.getF b g := fun hb hg =>
    State.getF_setFs_apart hb (by simp [F.gmuCfg_timeout, F.gmuCfg_admitted]) hg s1
  have hstate : ∀ {g : Fld}, g.lo < 64 → t.getF aBocState g = s1.getF aBocState g := fun hg =>
    (hlast (by decide) hg).trans ((hrole (by decide) hg).trans ((hslip (by decide) hg).trans
      ((hslice (by decide) hg).trans (hcfg (by decide) hg))))
  refine ⟨(hstate (by decide)).trans ?_, (hstate (by decide)).trans ?_, (hlast (by decide) (by decide)).trans ?_,
    (hlast (by decide) (by decide)).trans ?_, ?_, (hlast (by decide) (by decide)).trans ((hrole (by decide) (by decide)).trans ?_)⟩
  · exact State.getF_setFs_mem (by simp [F.bocState_admitted, F.bocState_step]) List.mem_cons_self s
  · exact State.getF_setFs_mem (f := F.bocState_step) (v := 11) (by simp [F.bocState_admitted, F.bocState_step]) (by simp) s
  · exact State.getF_setFs_mem (by simp [F.fltState_role, F.fltState_successor, F.fltState_lead]) List.mem_cons_self s4
  · exact State.getF_setFs_mem (f := F.fltState_lead) (v := m.leads.headD 0) (by simp [F.fltState_role, F.fltState_successor, F.fltState_lead])
      (by simp) s4
  · exact State.getF_setFs_mem (by simp [F.gmuEpoch_inject, F.gmuEpoch_bank1, F.gmuEpoch_changes]) List.mem_cons_self s5
  · exact State.getF_setFs_mem (by simp [F.bocSlipCfg_window, F.bocSlipCfg_quantum]) List.mem_cons_self s3

theorem State.memberTables_shows (s : State) (m : Manifest) :
    (∀ {b : Nat} {g : Fld}, timBase ≤ b → b ≠ aSecAuth → g.lo < 64 → (s.memberTables m).getF b g = s.getF b g) ∧
      (s.memberTables m).getF aGmuEpoch F.gmuEpoch_inject = s.getF aGmuEpoch F.gmuEpoch_inject ∧ (s.memberTables m).bankState 0 = 2 := by
  let s1 := s.buildBank 0
  let s2 := s1.setBank 0 2
  have hauth : ∀ {b : Nat} {g : Fld}, fabBase ≤ b → b ≠ aSecAuth → g.lo < 64 → (s.memberTables m).getF b g = s2.getF b g := fun hb hne hg =>
    (State.getF_permits _ _ hb hg).trans (State.getF_setFs_apart hne (by simp [F.secAuth_port, F.secAuth_valid]) hg s2)
  refine ⟨fun hb hne hg => ?_, ?_, ?_⟩
  · refine (hauth (Nat.le_trans (by decide) hb) hne hg).trans
      ((s1.getF_setF_apart (bankFld 0) _ 2 ?_ (bankFld_lo 0).1 hg).trans (s.getF_buildBank_above hb hg))
    unfold timBase at hb
    unfold aGmuEpoch gmuBase
    omega
  · refine (hauth (by decide) (by decide) (by decide)).trans ((s1.getF_setF_beside aGmuEpoch (bankFld 0) _ 2 (bankFld_lo 0).2.1.symm).trans ?_)
    exact (s.buildBank_built 0).regs aGmuEpoch F.gmuEpoch_inject (by decide) (by decide)
  · exact (hauth (by decide) (by decide) (by decide)).trans (s1.bankState_setBank_same 0 (by decide))

/-- Routing tables, permits and channel states are registers. -/
theorem State.becomeMember_frame {β : Type} (g : State → β) (hregs : ∀ s x, g { s with regs := x } = g s)
    (hboc : ∀ s x, g { s with boc := x } = g s) (hrcv : ∀ s x, g { s with rcv := x } = g s) (s : State) (m : Manifest) :
    g (s.becomeMember m) = g s := by
  have hsets : ∀ (t : State) a l, g (t.setFs a l) = g t := fun t a l => State.foldl_frame g l (fun t (q : Fld × Nat) => hregs t _) t
  let t := s.memberRegs m
  have h1 : g t = g s := by
    simp only [t, State.memberRegs, hsets]
  have h2 : g (t.buildBank 0) = g t := (State.foldl_frame g _ (fun t d => hsets t _ _) _).trans (hregs t _)
  let u := ((t.buildBank 0).setBank 0 2).setFs aSecAuth [(F.secAuth_port, 0), (F.secAuth_valid, 0)]
  have h3 : g u = g t := (hsets _ _ _).trans ((hregs _ _).trans h2)
  have h4 : g (t.memberTables m) = g u := State.foldl_frame g _ (fun t p => hregs t _) u
  rw [State.becomeMember_eq]
  exact (State.memberJoined_frame g hregs hboc hrcv _).trans (h4.trans (h3.trans h1))

/-- A joiner that can be admitted is (R488). -/
theorem admitted_effects {s : State} {m : Manifest} (hman : s.manifest = some m) (hjoin : s.boc.joining = true) (hcan : s.canJoin = true) :
    CompletesWith (execAdmitted s) fun t =>
      t.admitted = true ∧ t.getF aBocState F.bocState_step = 11 ∧ t.boc.joining = false ∧ t.boc.admitAt = none ∧
        t.getF aFltState F.fltState_role = m.role.1 % 4 ∧ t.lead = m.leads.headD 0 % 2 ^ 14 ∧ t.getF aGmuEpoch F.gmuEpoch_inject = 0 ∧
        t.bankState 0 = 2 ∧ t.getF aBocSlipCfg F.bocSlipCfg_window = m.window % 2 ^ F.bocSlipCfg_window.width ∧
        s.sameIslands t ∧ s.sameMemory t := by
  let w := s.becomeMember m
  let u := (s.memberRegs m).memberTables m
  obtain ⟨hjoined, hno, hnone⟩ := u.memberJoined_shows
  have hw : w.regs = (u.setChannels 2).regs := (congrArg State.regs (s.becomeMember_eq m)).trans hjoined
  obtain ⟨hadm, hstep, hrole, hlead, hinject, hwindow⟩ := s.memberRegs_shows m
  obtain ⟨hup, hepoch, hbank⟩ := (s.memberRegs m).memberTables_shows m
  have hread : ∀ {b : Nat} {g : Fld}, prtBase 0 ≤ b → (∀ k < 8, b ≠ aFltHealth k) → g.lo < 64 →
      fkey b g ≠ fkey aBocState F.bocState_state → w.updateHealth.getF b g = u.getF b g := fun hp hb hg hk =>
    (w.getF_updateHealth hb hg hk).trans ((congrArg (fun x => Tbl.get 0 x _ ^^^ _) hw).trans (u.getF_setChannels 2 hp hg))
  have hboc : w.updateHealth.boc = w.boc := State.updateHealth_frame State.boc (fun _ _ => rfl) (fun _ _ => rfl) w
  have hkeep : ∀ {β : Type} (g : State → β), (∀ s x, g { s with regs := x } = g s) → (∀ s x, g { s with boc := x } = g s) →
      (∀ s x, g { s with rcv := x } = g s) → (∀ s x, g { s with i3c := x } = g s) → g w.updateHealth = g s :=
    fun g hregs hboc hrcv hmirror => (State.updateHealth_frame g hregs hmirror w).trans (s.becomeMember_frame g hregs hboc hrcv m)
  have hrun : execAdmitted s = .next w.updateHealth := by
    unfold execAdmitted
    simp only [hman, hjoin, hcan, Bool.and_self, if_true]
    rfl
  have hflag : w.updateHealth.getF aBocState F.bocState_admitted = 1 :=
    (hread (by decide) (by decide) (by decide) (by decide)).trans ((hup (by decide) (by decide) (by decide)).trans hadm)
  refine ⟨_, hrun, decide_eq_true (by rw [hflag]; decide), ?_, ?_, ?_, ?_, ?_, ?_, ?_, ?_, ?_, ?_⟩
  · exact (hread (by decide) (by decide) (by decide) (by decide)).trans ((hup (by decide) (by decide) (by decide)).trans hstep)
  · exact (congrArg BocSt.joining hboc).trans ((congrArg (fun x : State => x.boc.joining) (s.becomeMember_eq m)).trans hno)
  · exact (congrArg BocSt.admitAt hboc).trans ((congrArg (fun x : State => x.boc.admitAt) (s.becomeMember_eq m)).trans hnone)
  · exact (hread (by decide) (by decide) (by decide) (by decide)).trans ((hup (by decide) (by decide) (by decide)).trans hrole)
  · exact (hread (by decide) (by decide) (by decide) (by decide)).trans ((hup (by decide) (by decide) (by decide)).trans hlead)
  · exact (hread (by decide) (by decide) (by decide) (by decide)).trans (hepoch.trans hinject)
  · exact (hread (by decide) (by decide) (bankFld_lo 0).1 (by decide)).trans hbank
  · exact (hread (by decide) (by decide) (by decide) (by decide)).trans ((hup (by decide) (by decide) (by decide)).trans hwindow)
  · exact ⟨hkeep State.cores (fun _ _ => rfl) (fun _ _ => rfl) (fun _ _ => rfl) (fun _ _ => rfl),
      hkeep State.clusters (fun _ _ => rfl) (fun _ _ => rfl) (fun _ _ => rfl) (fun _ _ => rfl),
      hkeep State.islands (fun _ _ => rfl) (fun _ _ => rfl) (fun _ _ => rfl) (fun _ _ => rfl)⟩
  · exact ⟨hkeep State.mem (fun _ _ => rfl) (fun _ _ => rfl) (fun _ _ => rfl) (fun _ _ => rfl),
      hkeep State.tags (fun _ _ => rfl) (fun _ _ => rfl) (fun _ _ => rfl) (fun _ _ => rfl),
      hkeep State.bad (fun _ _ => rfl) (fun _ _ => rfl) (fun _ _ => rfl) (fun _ _ => rfl)⟩

/-! ### A joiner that gives up (R487) -/

theorem State.closeDrones_effects (s : State) (b : Beat) :
    (∀ i < 24, (s.closeDrones b).drone i = if s.drone i = 0 then 0 else 3) ∧
      ∀ {a : Nat} {g : Fld}, a ≠ aCrpDrone → a ≠ aBocAdmit → g.lo < 64 → (s.closeDrones b).getF a g = s.getF a g := by
  let f : Nat → Nat := fun v => if v = 0 then 0 else 3
  have hf : ∀ v, f v < 4 := fun v => by
    simp only [f]
    split <;> decide
  have hne : aCrpDrone ≠ aBocAdmit := by decide
  have hkeep : (s.closeDrones b).getF aCrpDrone F.crpDrone_state = (s.mapDrones f).getF aCrpDrone F.crpDrone_state :=
    (s.mapDrones f).getF_setF_apart F.bocAdmit_beat F.crpDrone_state b.toNat hne (by decide) (by decide)
  exact ⟨fun i hi => (State.drone_congr hkeep i).trans (s.drone_mapDrones hi (hf _)), fun hd ha hg =>
    ((s.mapDrones f).getF_setF_apart F.bocAdmit_beat _ b.toNat ha (by decide) hg).trans
      (s.getF_setF_apart F.crpDrone_state _ _ hd (by decide) hg)⟩

theorem State.bare_closeDrones (s : State) (b : Beat) : (s.closeDrones b).bare = s.bare := by
  simp only [State.closeDrones, State.mapDrones, State.bare_setF]

/-- The package no longer joins (R487). -/
def State.gaveUp (s : State) : State := { s with boc := { s.boc with joining := false, admitAt := none } }

/-- What giving up leaves: step 9, and the bypasses as they are. -/
theorem State.gaveUp_effects (s : State) : let t := s.gaveUp.setF aBocState F.bocState_step 9
    t.boc.joining = false ∧ t.boc.admitAt = none ∧ t.getF aBocState F.bocState_step = 9 ∧ (∀ i, t.drone i = s.drone i) ∧
      s.sameIslands t ∧ s.sameMemory t :=
  ⟨rfl, rfl, s.gaveUp.getF_setF_same .., State.drone_congr (s.gaveUp.getF_setF_apart F.bocState_step F.crpDrone_state 9 (by decide) (by decide) (by decide)),
    ⟨rfl, rfl, rfl⟩, rfl, rfl, rfl⟩

theorem admissionTimeout_effects {s : State} (hjoin : s.boc.joining = true) (hcan : s.canJoin = false) :
    CompletesWith (execAdmissionTimeout s) fun t =>
      t.boc.joining = false ∧ t.boc.admitAt = none ∧ t.getF aBocState F.bocState_step = 9 ∧
        (∀ i < 24, t.drone i = if s.drone i = 0 then 0 else 3) ∧ s.sameIslands t ∧ s.sameMemory t := by
  let s1 := s.event 4 0x35 0 0 0
  let s2 := s1.closeDrones s.beat
  have hframe : s.sameIslands s2 ∧ s.sameMemory s2 :=
    State.frame_of_bare ((s1.bare_closeDrones _).trans (s.bare_event _ _ _ _ _))
  have hdrone : ∀ i, s1.drone i = s.drone i := State.drone_congr (s.getF_event _ _ _ _ _ (by decide) (by decide))
  have hclosed : ∀ i < 24, s2.drone i = if s.drone i = 0 then 0 else 3 := fun i hi => hdrone i ▸ (s1.closeDrones_effects s.beat).1 i hi
  have hrun : execAdmissionTimeout s = .next (s2.gaveUp.setF aBocState F.bocState_step 9) :=
    if_neg (by simp [hjoin, hcan])
  obtain ⟨hno, hnone, hstep, hkeep, hgone⟩ := s2.gaveUp_effects
  exact ⟨_, hrun, hno, hnone, hstep, fun i hi => (hkeep i).trans (hclosed i hi), State.frame_trans hframe hgone⟩

/-! ### Readiness and the start of a job (R492, R493) -/

theorem imageReady_effects {s : State} {msg : Msg} (hlead : (s.takeMsg msg).isLead = true)
    (himage : (s.takeMsg msg).boc.envelope.isSome = true) (hword : msgBits msg 24 64 = (s.takeMsg msg).imageWord) :
    CompletesWith (execImageReady msg s) fun t =>
      msgBits msg 8 14 ∈ t.rcv.ready ∧ t.regs = s.regs ∧ s.sameIslands t ∧ s.sameMemory t := by
  let s0 := s.takeMsg msg
  let p := msgBits msg 8 14
  let t : State := { s0 with rcv := { s0.rcv with ready := if s0.rcv.ready.contains p then s0.rcv.ready else s0.rcv.ready ++ [p] } }
  have hmem : p ∈ (if s0.rcv.ready.contains p then s0.rcv.ready else s0.rcv.ready ++ [p]) := by
    split
    case isTrue h => exact List.contains_iff_mem.mp h
    case isFalse => exact List.mem_append_right _ List.mem_cons_self
  exact ⟨t, if_pos ⟨hlead, himage, hword⟩, hmem, s.regs_takeMsg msg, s.takeMsg_frame msg⟩

theorem State.mem_loop_sendTo_self {s : State} (m : Msg) {d : Nat} (h : d = s.self) : m ∈ (s.sendTo d m).ctl.loop := by
  subst h
  unfold State.sendTo State.unicast
  rw [if_pos rfl]
  exact List.mem_append_right _ List.mem_cons_self

theorem breath0LoadDone_lead {s : State} (himage : s.hasImage = true) (hidle : s.brt.job = false)
    (hready : s.getF aBocState F.bocState_ready = 0) (hloads : s.loadsFinished = true) (hset : s.acceptanceSettled = true)
    (hlead : s.lead = s.self) :
    CompletesWith (execBreath0LoadDone s) fun t =>
      t.getF aBocState F.bocState_ready = 1 ∧ s.msgOf 0x73 [(24, s.imageWord)] ∈ t.ctl.loop ∧
        s.regsBut t [(aBocState, F.bocState_ready)] ∧ s.sameIslands t ∧ s.sameMemory t := by
  let s1 := s.setF aBocState F.bocState_ready 1
  let m := s1.msgOf 0x73 [(24, s1.imageWord)]
  have hflag : s.flag aBocState F.bocState_ready = false := decide_eq_false (fun h => h hready)
  have hlead1 : s1.lead = s1.self := (s.getF_setF_apart F.bocState_ready F.fltState_lead 1 (by decide) (by decide) (by decide)).trans hlead
  have hread : ∀ b (g : Fld), (s1.sendTo s1.lead m).getF b g = s1.getF b g := s1.getF_sendTo s1.lead m
  have hregs : s.regsBut s1 [(aBocState, F.bocState_ready)] := (s.regsBut_refl _).setF List.mem_cons_self 1
  refine ⟨s1.sendTo s1.lead m, ?_, (hread _ _).trans (s.getF_setF_same ..), State.mem_loop_sendTo_self m hlead1,
    fun b g hb => (hread b g).trans (hregs b g hb), State.frame_of_bare ((s1.bare_sendTo _ _).trans (s.bare_setF _ _ _))⟩
  unfold execBreath0LoadDone
  rw [if_pos (by simp [himage, hidle, hflag, hloads, hset])]

/-- What a fresh job starts from: no slip counted, and nothing held of reports, replays and lost members' votes (R493). -/
theorem State.freshJob_effects (s : State) : s.freshJob.getF aBocSlip F.bocSlip_count = 0 ∧
    (∀ {b : Nat} {g : Fld}, b ≠ aBocSlip → g.lo < 64 → s.freshJob.getF b g = s.getF b g) ∧
    s.freshJob.brt = s.brt ∧ s.freshJob.ctl = s.ctl ∧ s.freshJob.sameIslands s ∧ s.freshJob.sameMemory s := by
  have hnd : ([F.bocSlip_total, F.bocSlip_count].map Fld.lo).Nodup := by simp [F.bocSlip_total, F.bocSlip_count]
  have hlo : ∀ f ∈ [F.bocSlip_total, F.bocSlip_count], f.lo < 64 := by simp [F.bocSlip_total, F.bocSlip_count]
  refine ⟨?_, fun hb hg => State.getF_clearFs_apart hb hlo hg s, rfl, rfl, ⟨rfl, rfl, rfl⟩, rfl, rfl, rfl⟩
  exact State.getF_clearFs_mem hnd (by simp) s

theorem State.orderPatch_frame {β : Type} (g : State → β) (hctl : ∀ s x, g { s with ctl := x } = g s) (s : State) (key : Nat) :
    g (s.orderPatch key) = g s := by
  unfold State.orderPatch
  split
  · exact State.sendAll_ctl g hctl s _
  · rfl

/-- A start order taken up (R493). -/
def State.jobStarts (s : State) (t0 : Nat) : State :=
  let s := s.freshJob
  let s := { s with brt := { BreathSt.reset with job := true, step := s.committed, loadsDone := if s.brt.next = 0 then s.brt.loadsDone else [] } }
  (s.setF aFltStep F.fltStep_entry 0).setF aBocTNext F.bocTNext_beat t0

/-- The registers and the breath of a job just ordered. -/
structure JobStarts (s t : State) (t0 : Nat) : Prop where
  job : t.brt.job = true ∧ t.brt.running = false ∧ t.brt.next = 0 ∧ t.brt.nextEntry = 0 ∧ t.brt.step = s.committed
  start : t.getF aBocTNext F.bocTNext_beat = t0
  slips : t.getF aBocSlip F.bocSlip_count = 0
  role : t.getF aFltState F.fltState_role = s.getF aFltState F.fltState_role
  frame : s.sameIslands t ∧ s.sameMemory t

theorem State.jobStarts_shows (s : State) {t0 : Nat} (ht : t0 < 2 ^ 64) : JobStarts s (s.jobStarts t0) t0 := by
  obtain ⟨hslip, hother, hbrt, hctl, hisl, hmem⟩ := s.freshJob_effects
  have hstep : s.freshJob.committed = s.committed := hother (by decide) (by decide)
  let s1 : State := { s.freshJob with brt := { BreathSt.reset with
    job := true, step := s.freshJob.committed, loadsDone := if s.freshJob.brt.next = 0 then s.freshJob.brt.loadsDone else [] } }
  let s2 := s1.setF aFltStep F.fltStep_entry 0
  have hread : ∀ {b : Nat} {g : Fld}, b ≠ aBocTNext → b ≠ aFltStep → g.lo < 64 → (s.jobStarts t0).getF b g = s.freshJob.getF b g :=
    fun ht hs hg => (s2.getF_setF_apart F.bocTNext_beat _ t0 ht (by decide) hg).trans (s1.getF_setF_apart F.fltStep_entry _ 0 hs (by decide) hg)
  exact ⟨⟨rfl, rfl, rfl, rfl, hstep⟩, (s2.getF_setF_same ..).trans (Nat.mod_eq_of_lt ht),
    (hread (by decide) (by decide) (by decide)).trans hslip,
    (hread (by decide) (by decide) (by decide)).trans (hother (by decide) (by decide)), ⟨rfl, rfl, rfl⟩, rfl, rfl, rfl⟩

theorem startOrder_effects {s : State} {msg : Msg} (himage : (s.takeMsg msg).hasImage = true) (hidle : (s.takeMsg msg).brt.job = false)
    (hrole : (s.takeMsg msg).standby = false) :
    let t0 := msgBits msg 40 48 * 65536
    CompletesWith (execStartOrder msg s) fun t =>
      t.brt.job = true ∧ t.brt.running = false ∧ t.brt.next = 0 ∧ t.brt.nextEntry = 0 ∧ t.brt.step = s.committed ∧
        t.getF aBocTNext F.bocTNext_beat = t0 ∧ t.getF aTimTrig F.timTrig_beat = t0 ∧ t.getF aTimTrigState F.timTrigState_armed = 1 ∧
        t.getF aBocSlip F.bocSlip_count = 0 ∧ s.sameIslands t ∧ s.sameMemory t := by
  intro t0
  have hlt : t0 < 2 ^ 64 := by
    have : msgBits msg 40 48 < 2 ^ 48 := Nat.mod_lt _ (by decide)
    omega
  let s0 := s.takeMsg msg
  let u := s0.jobStarts t0
  obtain ⟨⟨hjob, hrun, hnext, hentry, hstep⟩, hstart, hslips, hstand, hframe⟩ := s0.jobStarts_shows hlt
  have hcommitted : s0.committed = s.committed := s.getF_takeMsg msg aFltStep F.fltStep_committed
  let v := if u.isLead then u.rcv.downs.foldl (fun s key => s.orderPatch key) u else u
  have hv : ∀ {β : Type} (g : State → β), (∀ s x, g { s with ctl := x } = g s) → g v = g u := by
    intro β g hctl
    simp only [v]
    split
    · exact State.foldl_frame g _ (fun t key => State.orderPatch_frame g hctl t key) u
    · rfl
  obtain ⟨htrig, hother, hbrt, hframe2⟩ := v.armTrigger_effects t0
  obtain ⟨harmed, -, -⟩ := v.armTrigger_registers t0
  let w := v.armTrigger t0
  have hvstand : v.standby = false := by
    rw [← hrole]
    exact congrArg (fun n => decide (2 ≤ n)) ((hv (fun t => t.getF aFltState F.fltState_role) fun _ _ => rfl).trans hstand)
  have hexec : execStartOrder msg s = .next w.updateHealth := by
    have hword : (BitVec.ofNat 64 (msgBits msg 40 48 * 65536)).toNat = t0 := (BitVec.toNat_ofNat _ _).trans (Nat.mod_eq_of_lt hlt)
    unfold execStartOrder
    simp only [himage, hidle, Bool.not_true, Bool.or_self, Bool.false_eq_true, if_false, hword]
    exact congrArg (fun x : State => Host.Outcome.next x.updateHealth) (if_neg (show ¬v.standby = true by rw [hvstand]; decide))
  have hhealth : w.updateHealth.brt = u.brt :=
    (State.updateHealth_frame State.brt (fun _ _ => rfl) (fun _ _ => rfl) w).trans (hbrt.trans (hv State.brt fun _ _ => rfl))
  have hread : ∀ {b : Nat} {g : Fld}, (∀ k < 8, b ≠ aFltHealth k) → g.lo < 64 → fkey b g ≠ fkey aBocState F.bocState_state →
      w.updateHealth.getF b g = w.getF b g := fun hb hg hk => w.getF_updateHealth hb hg hk
  have hframe1 : u.sameIslands v ∧ u.sameMemory v :=
    ⟨⟨hv State.cores fun _ _ => rfl, hv State.clusters fun _ _ => rfl, hv State.islands fun _ _ => rfl⟩,
      hv State.mem fun _ _ => rfl, hv State.tags fun _ _ => rfl, hv State.bad fun _ _ => rfl⟩
  have hlast : w.sameIslands w.updateHealth ∧ w.sameMemory w.updateHealth :=
    have hkeep : ∀ {β : Type} (g : State → β), (∀ s x, g { s with regs := x } = g s) → (∀ s x, g { s with i3c := x } = g s) →
        g w.updateHealth = g w := fun g hregs hmirror => State.updateHealth_frame g hregs hmirror w
    ⟨⟨hkeep State.cores (fun _ _ => rfl) fun _ _ => rfl, hkeep State.clusters (fun _ _ => rfl) fun _ _ => rfl,
      hkeep State.islands (fun _ _ => rfl) fun _ _ => rfl⟩, hkeep State.mem (fun _ _ => rfl) fun _ _ => rfl,
      hkeep State.tags (fun _ _ => rfl) fun _ _ => rfl, hkeep State.bad (fun _ _ => rfl) fun _ _ => rfl⟩
  refine ⟨_, hexec, by rw [hhealth]; exact hjob, by rw [hhealth]; exact hrun, by rw [hhealth]; exact hnext, by rw [hhealth]; exact hentry,
    by rw [hhealth]; exact hstep.trans hcommitted, ?_, ?_, ?_, ?_,
    State.frame_trans (s.takeMsg_frame msg) (State.frame_trans hframe (State.frame_trans hframe1 (State.frame_trans hframe2 hlast)))⟩
  · exact (hread (by decide) (by decide) (by decide)).trans ((hother _ _ (by decide) (by decide) (by decide)).trans
      ((hv (fun t => t.getF aBocTNext F.bocTNext_beat) fun _ _ => rfl).trans hstart))
  · exact (hread (by decide) (by decide) (by decide)).trans (htrig.trans (Nat.mod_eq_of_lt hlt))
  · exact (hread (by decide) (by decide) (by decide)).trans harmed
  · exact (hread (by decide) (by decide) (by decide)).trans ((hother _ _ (by decide) (by decide) (by decide)).trans
      ((hv (fun t => t.getF aBocSlip F.bocSlip_count) fun _ _ => rfl).trans hslips))

/-! ### A withdrawal noticed (R495) -/

theorem withdrawNotice_boundary {s : State} {msg : Msg} (hlead : (s.takeMsg msg).isLead = true) (hidle : msg.getLsbD 88 = false) :
    CompletesWith (execWithdrawNotice msg s) fun t =>
      msgBits msg 24 14 ∈ t.rcv.lost ∧ msgBits msg 24 14 ∉ t.rcv.ready ∧ t.regs = s.regs ∧ s.sameIslands t ∧ s.sameMemory t := by
  let s0 := s.takeMsg msg
  let p := msgBits msg 24 14
  let t : State := { s0 with rcv := { s0.rcv with lost := if s0.rcv.lost.contains p then s0.rcv.lost else s0.rcv.lost ++ [p],
                                                  ready := s0.rcv.ready.filter fun q => q ≠ p } }
  have hmem : p ∈ (if s0.rcv.lost.contains p then s0.rcv.lost else s0.rcv.lost ++ [p]) := by
    split
    case isTrue h => exact List.contains_iff_mem.mp h
    case isFalse => exact List.mem_append_right _ List.mem_cons_self
  have hgone : p ∉ s0.rcv.ready.filter fun q => q ≠ p := fun h => by simpa using (List.mem_filter.mp h).2
  refine ⟨t, ?_, hmem, hgone, s.regs_takeMsg msg, s.takeMsg_frame msg⟩
  unfold execWithdrawNotice
  simp only [hlead, hidle, Bool.not_true, Bool.false_eq_true, if_false]
  rfl

end Sys2Proof.Machine
end

section
/-! A package that withdraws closes its paths, erases its keys and its die stack, and leaves the slice (R495, R496). -/

namespace Sys2Proof.Machine

/-! ### Registers that a withdrawal leaves to be read

The bypasses' register, and the Bocal's own below its capacity. -/

/-- The addresses of those registers. -/
def outer (b : Nat) : Prop := (fabBase + 8 ≤ b ∧ b < fabBase + 0x10) ∨ (bocBase ≤ b ∧ b < bocBase + 0x100)

theorem ne_of_outer {a b : Nat} (hb : outer b) (ha : ¬outer a) : b ≠ a := by
  rintro rfl
  exact ha hb

theorem outer_drone : outer aCrpDrone := .inl (by decide)
theorem outer_state : outer aBocState := .inr (by decide)

/-- The state `t` shows in those registers, but for the fields that `but` names, what `s` shows. -/
def State.showsOuter (s t : State) (but : List (Nat × Fld)) : Prop :=
  ∀ b (g : Fld), outer b → g.lo < 64 → fkey b g ∉ but.map (fun p => fkey p.1 p.2) → t.getF b g = s.getF b g

theorem State.showsOuter.trans {s t v : State} {l : List (Nat × Fld)} (h : s.showsOuter t l) (k : t.showsOuter v l) : s.showsOuter v l :=
  fun b g hb hg hn => (k b g hb hg hn).trans (h b g hb hg hn)

theorem State.showsOuter_refl (s : State) (l : List (Nat × Fld)) : s.showsOuter s l := fun _ _ _ _ _ => rfl

theorem State.showsOuter.of_regs {s t v : State} {l : List (Nat × Fld)} (h : s.showsOuter t l)
    (hregs : v.regs = t.regs) : s.showsOuter v l :=
  fun b g hb hg hn => (congrArg (fun x => Tbl.get 0 x (fkey b g) ^^^ g.reset) hregs).trans (h b g hb hg hn)

theorem State.showsOuter.foldl {α : Type} {step : State → α → State} {l : List (Nat × Fld)} (xs : List α)
    (h : ∀ (s : State), ∀ x ∈ xs, s.showsOuter (step s x) l) (s : State) : s.showsOuter (xs.foldl step s) l :=
  List.foldlRecOn (motive := fun t : State => s.showsOuter t l) xs step (s.showsOuter_refl l) fun t ht x hx => ht.trans (h t x hx)

theorem State.showsOuter_setF (s : State) {a : Nat} (f : Fld) (v : Nat) (l : List (Nat × Fld)) (ha : ¬outer a) (hf : f.lo < 64) :
    s.showsOuter (s.setF a f v) l := by
  intro b g hb hg _
  exact s.getF_setF_apart f g v (ne_of_outer hb ha) hf hg

theorem State.showsOuter_setFs (s : State) {a : Nat} (ws : List (Fld × Nat)) (l : List (Nat × Fld)) (ha : ¬outer a)
    (hw : ∀ p ∈ ws, p.1.lo < 64) : s.showsOuter (s.setFs a ws) l := by
  intro b g hb hg _
  exact State.getF_setFs_apart (ne_of_outer hb ha) hw hg s

theorem State.showsOuter_clearFs (s : State) {a : Nat} (fs : List Fld) (l : List (Nat × Fld)) (ha : ¬outer a)
    (hf : ∀ f ∈ fs, f.lo < 64) : s.showsOuter (s.clearFs a fs) l := by
  intro b g hb hg _
  exact State.getF_clearFs_apart (ne_of_outer hb ha) hf hg s

theorem State.showsOuter_clearSpan (s : State) {a n : Nat} (l : List (Nat × Fld)) (ha : ∀ b, outer b → b < a ∨ a + n ≤ b) :
    s.showsOuter (s.clearSpan a n) l := fun b _ hb hg _ => s.getF_clearSpan_apart (ha b hb) hg

/-- Entries of the register table that a filter drops. -/
theorem State.getF_filterRegs (s : State) (p : Nat → Bool) {b : Nat} {g : Fld} (h : p (fkey b g) = true) :
    State.getF { s with regs := s.regs.filter fun q => p q.1 } b g = s.getF b g := by
  have hget := Tbl.get_filter 0 s.regs p (fkey b g)
  rw [if_pos h] at hget
  exact congrArg (· ^^^ g.reset) hget

theorem State.showsOuter_filter (s : State) {p : Nat → Bool} (l : List (Nat × Fld))
    (hp : ∀ b (g : Fld), outer b → g.lo < 64 → p (fkey b g) = true) : s.showsOuter { s with regs := s.regs.filter fun q => p q.1 } l :=
  fun b g hb hg _ => s.getF_filterRegs p (hp b g hb hg)

theorem fkey_div {b : Nat} {g : Fld} (hg : g.lo < 64) : fkey b g / 64 = b := by
  simp only [fkey]
  omega

/-! ### Islands reset -/

/-- An island reset leaves the registers below the fault block, but for the islands' open trackers. -/
theorem State.getF_resetIsland_below (s : State) (n : Nat) {b : Nat} {g : Fld} (hb : b < fltBase) (hne : b ≠ aGmuTrack) (hg : g.lo < 64) :
    (s.resetIsland n).getF b g = s.getF b g := by
  have hlow : b < islBase 0 := Nat.lt_trans hb (by decide)
  obtain ⟨x, heq, v, hregs⟩ := s.getF_resetIsland n b g
  have hx : x.getF b g = s.getF b g := by
    rw [State.getF, hregs]
    exact State.getF_setF_apart s F.gmuTrack_open g v hne (by decide) hg
  have hput : putQuarterKey n (fkey b g) = false := by
    refine decide_eq_false fun h => ?_
    rw [fkey_div hg] at h
    unfold islBase at h hlow
    omega
  have hkept : x.resetCleared n (fkey b g) = false := by
    have hblock : ¬(islBase n ≤ b ∧ b < islBase n + 0x200000) := by
      unfold islBase at hlow ⊢
      omega
    have hcheck : ¬(aFltCoreChk n 0 ≤ b ∧ b < aFltCoreChk n 960) := by
      unfold aFltCoreChk
      omega
    simp only [State.resetCleared, fkey_div hg, decide_eq_false hblock, decide_eq_false hcheck, Bool.false_and, Bool.or_self]
  have hclear : (x.clearIslandRegs n).getF b g = s.getF b g := by
    rw [State.getF_clearIslandRegs, hput, hkept]
    exact hx
  have hbreath : b ≠ aIslBreath n := lt_islBase_ne hlow
  have hreset : b ≠ aIslReset n := lt_islBase_ne hlow
  exact heq.trans ((State.getF_setF_apart _ _ _ _ hreset (by decide) hg).trans ((State.getF_setF_apart _ _ _ _ hbreath (by decide) hg).trans hclear))

/-- An island reset reaches registers, the cores, switches and islands, and requests alone. -/
theorem State.resetIsland_frame {β : Type} (g : State → β) (hregs : ∀ s x, g { s with regs := x } = g s)
    (hunits : ∀ s x y z, g { s with cores := x, clusters := y, islands := z } = g s) (hgmu : ∀ s x, g { s with gmu := x } = g s)
    (s : State) (n : Nat) : g (s.resetIsland n) = g s := by
  have hset : ∀ (t : State) m x, g (t.setIsland m x) = g t := fun t m x => hunits t t.cores t.clusters _
  have hqueues : g (s.dropQueues n) = g s := by
    refine (State.foldl_frame g _ (fun t q => ?_) _).trans (hset s _ _)
    split
    · exact hset t _ _
    · rfl
  let t := (s.dropQueues n).setF aGmuTrack F.gmuTrack_open ((s.dropQueues n).getF aGmuTrack F.gmuTrack_open -
    (((s.dropQueues n).cores.filter fun p => decide (p.1 / 1024 = n)).map fun p => p.2.trk.length).sum)
  let u : State := { t with gmu := { t.gmu with reqs := t.gmu.reqs.filter fun p => !decide (p.1 / 16384 = n) } }
  let v : State := { u with cores := u.cores.filter fun p => !decide (p.1 / 1024 = n), clusters := u.clusters.filter fun p => !decide (p.1 / 16 = n),
                            islands := Tbl.set Island.reset u.islands n Island.reset }
  have hv : g v = g s := (hunits u _ _ _).trans ((hgmu t _).trans ((hregs _ _).trans hqueues))
  exact (hregs _ _).trans ((hregs _ _).trans ((hregs _ _).trans ((hregs v _).trans hv)))

/-- The die stack read after it is erased (R496). -/
theorem State.zeroDies_effects (s : State) : s.zeroDies.cores = [] ∧ (∀ i, s.zeroDies.readByte i = if i < lpEnd then s.readByte i else 0) ∧
    s.zeroDies.getF aCrpDrone F.crpDrone_state = s.getF aCrpDrone F.crpDrone_state ∧ s.zeroDies.tier.key = s.tier.key := by
  have hkept : (s.allIslands.foldl (fun s n => s.resetIsland n) s).kept = s.kept := State.foldl_frame State.kept _ (fun t n => t.kept_resetIsland n) s
  have hmem : (s.allIslands.foldl (fun s n => s.resetIsland n) s).mem = s.mem := congrArg Backing.mem hkept
  refine ⟨rfl, fun i => ?_, ?_, ?_⟩
  · have hget := Tbl.get_filter (0 : Byte) s.mem (fun k => decide (k < lpEnd)) i
    simp only [decide_eq_true_eq] at hget
    exact (congrArg (fun m => Tbl.get (0 : Byte) (m.filter fun p => decide (p.1 < lpEnd)) i) hmem).trans hget
  · exact State.foldl_frame (fun t => t.getF aCrpDrone F.crpDrone_state) s.allIslands
      (fun t n => t.getF_resetIsland_below n (by decide) (by decide) (by decide)) s
  · exact State.foldl_frame (fun t => t.tier.key) s.allIslands (fun t n => t.resetIsland_frame (fun t => t.tier.key) (fun _ _ => rfl)
      (fun _ _ _ _ => rfl) (fun _ _ => rfl) n) s

/-! ### Keys erased -/

theorem not_outer_between {a : Nat} (h : fabBase + 0x10 ≤ a) (k : a < bocBase) : ¬outer a := by
  rintro (hb | hb)
  · exact absurd hb.2 (Nat.not_lt.mpr h)
  · exact absurd hb.1 (Nat.not_le.mpr k)

theorem not_outer_above {a : Nat} (h : bocBase + 0x100 ≤ a) : ¬outer a := by
  unfold outer fabBase bocBase at *
  omega

theorem not_outer_below {a : Nat} (h : a < fabBase + 8) : ¬outer a := by
  unfold outer fabBase bocBase at *
  omega

theorem State.showsOuter_setMeas (s : State) {i : Nat} (hi : i < 16) (v : Nat) (l : List (Nat × Fld)) : s.showsOuter (s.setMeas i v) l := by
  refine State.showsOuter.foldl _ (fun t k hk => t.showsOuter_setF F.secMeas_value _ l (not_outer_between ?_ ?_) (by decide)) s
  · unfold fabBase aSecMeas secBase
    omega
  · have := List.mem_range.mp hk
    unfold aSecMeas secBase bocBase
    omega

theorem State.setMeas_frame {β : Type} (g : State → β) (hregs : ∀ s x, g { s with regs := x } = g s) (s : State) (i v : Nat) :
    g (s.setMeas i v) = g s := State.foldl_frame g _ (fun t k => hregs t _) s

theorem State.eraseKeys_regs (s : State) :
    s.eraseKeys.regs = ((((s.setMeas 7 0).setMeas 8 0).setMeas 9 0).setF aSecState F.secState_keys 0).regs := by
  simp only [State.eraseKeys]

theorem State.mem_of_kept {s t : State} (h : t.kept = s.kept) : t.mem = s.mem := congrArg Backing.mem h

/-- The keys erased (R496): the registers that show them, then what holds them. -/
theorem State.eraseKeys_effects (s : State) : s.eraseKeys.tier.key = 0 ∧ s.eraseKeys.kept = s.kept ∧ ∀ l, s.showsOuter s.eraseKeys l := by
  let s1 := s.setMeas 7 0
  let s2 := s1.setMeas 8 0
  let s3 := s2.setMeas 9 0
  refine ⟨rfl, s.kept_eraseKeys, fun l => ?_⟩
  have hmeas := ((s.showsOuter_setMeas (i := 7) (by decide) 0 l).trans (s1.showsOuter_setMeas (i := 8) (by decide) 0 l)).trans
    (s2.showsOuter_setMeas (i := 9) (by decide) 0 l)
  have hkeys := s3.showsOuter_setF F.secState_keys 0 l (not_outer_between (a := aSecState) (by decide) (by decide)) (by decide)
  exact (hmeas.trans hkeys).of_regs s.eraseKeys_regs

/-! ### The slice left -/

/-- The traffic of the fabric, the streams and the queues is cleared in registers of the fields, the ports and the fabric's tables. -/
theorem State.showsOuter_clearTraffic (s : State) (l : List (Nat × Fld)) : s.showsOuter s.clearTraffic l := by
  have hspan : ∀ (t : State) {a n : Nat}, (fabBase + 0x10 ≤ a ∧ a + n ≤ bocBase ∨ a + n ≤ fabBase + 8) → t.showsOuter (t.clearSpan a n) l := by
    intro t a n h
    refine t.showsOuter_clearSpan l fun b hb => ?_
    unfold outer fabBase bocBase at *
    omega
  unfold State.clearTraffic
  extract_lets s2 s3 s4 s5
  have h2 : s.showsOuter s2 l := (hspan s (.inl (by decide))).trans (hspan (s.clearSpan (aCrpSeq 0) (8 * 4096)) (.inl (by decide)))
  have h3 : s2.showsOuter s3 l := State.showsOuter.foldl _ (fun t f hf => hspan t (.inr (by
    have := List.mem_range.mp hf
    unfold aStmCtr fldBase fabBase
    omega))) s2
  have h4 : s3.showsOuter s4 l := State.showsOuter.foldl _ (fun t e he => t.showsOuter_clearFs _ l (not_outer_below (by
    have := List.mem_range.mp he
    unfold stmA aStmStatus fldBase fabBase
    omega)) (by simp [F.stmStatus_state, F.stmStatus_index, F.stmStatus_credits])) s3
  have hfield : ∀ (t : State) (p : Nat) (f : Fld), p < numPorts → t.showsOuter (t.clearField (aCrpLqState p 0) (8 * 64) f) l := by
    intro t p f hp
    unfold numPorts at hp
    refine t.showsOuter_filter (p := fun k => !(decide (64 * aCrpLqState p 0 ≤ k ∧ k < 64 * (aCrpLqState p 0 + 8 * 64)) &&
      decide ((k - 64 * aCrpLqState p 0) % 512 = f.lo))) l fun b g hb hg => ?_
    have hout : ¬(64 * aCrpLqState p 0 ≤ fkey b g ∧ fkey b g < 64 * (aCrpLqState p 0 + 8 * 64)) := by
      unfold outer fabBase bocBase at hb
      unfold fkey aCrpLqState prtBase
      omega
    rw [decide_eq_false hout]
    rfl
  have h5 : s4.showsOuter s5 l := State.showsOuter.foldl (step := fun s p => (s.clearField (aCrpLqState p 0) (8 * 64) F.crpLqState_occupancy).clearField
      (aCrpLqState p 0) (8 * 64) F.crpLqState_owed) (List.range numPorts)
    (fun t p hp => (hfield t p F.crpLqState_occupancy (List.mem_range.mp hp)).trans (hfield _ p F.crpLqState_owed
    (List.mem_range.mp hp))) s4
  have hall : s.showsOuter s5 l := ((h2.trans h3).trans h4).trans h5
  clear_value s5
  exact hall.of_regs rfl

/-- The Bocal's record of the slice, cleared first when a package leaves it. -/
def State.sliceCleared (s : State) : State :=
  s.clearFs aBocState [F.bocState_manifest, F.bocState_grant, F.bocState_image, F.bocState_ready, F.bocState_admitted, F.bocState_withdrawing]

/-- The registers of the slice that are cleared after it (R496). -/
def State.sliceRegs (s : State) : State :=
  let s := [aGmuSlice, aGmuEpoch, aFltState, aFltStep, aFltTag 1, aFltTag 2, aFltTag 3, aFltSusp, aFltSubstDir, aCrpPatchDir, aCrpFabric, aBocSlipCfg,
    aBocBtable].foldl (fun s a => s.clearSpan a 1) s
  let s := s.clearFs aGmuCfg [F.gmuCfg_timeout, F.gmuCfg_admitted]
  let s := s.clearFs aBocSetpoint [F.bocSetpoint_imageMin]
  let s := s.clearFs aTimStatus [F.timStatus_root, F.timStatus_locked, F.timStatus_holdover, F.timStatus_parent, F.timStatus_depth, F.timStatus_rootIndex]
  (s.clearSpan (aFltSubst 0) (8 * 16)).clearCaptures fun _ => true

/-- The rest of a package's state of the slice. -/
def State.sliceForgotten (s : State) : State :=
  { s with
    regs := s.regs.filter fun p => !inTables (p.1 / 64)
    manifest := none
    brt := BreathSt.reset
    fab := Fabric.reset
    gmu := Gmu.reset
    rcv := { Recov.reset with retired := s.rcv.retired }
    tier := { s.tier with descs := [], tagDir := [] }
    boc := { s.boc with force := none, closeAt := none, admitAt := none, joining := false, envelope := none, manBytes := [], parts := [], regions := (0, 0) } }

theorem State.sliceForgotten_shows (s : State) : s.sliceForgotten.manifest = none ∧ s.sliceForgotten.boc.closeAt = none ∧
    s.sliceForgotten.brt.job = false ∧ s.sliceForgotten.tier.key = s.tier.key ∧ s.sliceForgotten.cores = s.cores :=
  ⟨rfl, rfl, rfl, rfl, rfl⟩

theorem State.leaveSlice_eq (s : State) : s.leaveSlice = s.sliceCleared.sliceRegs.clearTraffic.sliceForgotten := (rfl)

theorem State.showsOuter_sliceRegs (s : State) (l : List (Nat × Fld)) : s.showsOuter s.sliceRegs l := by
  have hone : ∀ a ∈ [aGmuSlice, aGmuEpoch, aFltState, aFltStep, aFltTag 1, aFltTag 2, aFltTag 3, aFltSusp, aFltSubstDir, aCrpPatchDir,
      aCrpFabric, aBocSlipCfg, aBocBtable], a + 1 ≤ fabBase + 8 ∨ (fabBase + 0x10 ≤ a ∧ a + 1 ≤ bocBase) ∨ bocBase + 0x100 ≤ a := by decide
  unfold State.sliceRegs
  extract_lets s1 s2 s3 s4
  have h1 : s.showsOuter s1 l := State.showsOuter.foldl _ (fun t a ha => t.showsOuter_clearSpan l fun b hb => by
    have := hone a ha
    unfold outer fabBase bocBase at *
    omega) s
  have h2 : s1.showsOuter s2 l := s1.showsOuter_clearFs _ l (not_outer_between (by decide) (by decide)) (by simp [F.gmuCfg_timeout, F.gmuCfg_admitted])
  have h3 : s2.showsOuter s3 l := s2.showsOuter_clearFs _ l (not_outer_above (by decide)) (by simp [F.bocSetpoint_imageMin])
  have h4 : s3.showsOuter s4 l := s3.showsOuter_clearFs _ l (not_outer_between (by decide) (by decide))
    (by simp [F.timStatus_root, F.timStatus_locked, F.timStatus_holdover, F.timStatus_parent, F.timStatus_depth, F.timStatus_rootIndex])
  let s5 := s4.clearSpan (aFltSubst 0) (8 * 16)
  have h5 : s4.showsOuter s5 l := s4.showsOuter_clearSpan l fun b hb => by
    unfold outer fabBase bocBase at hb
    unfold aFltSubst fltBase
    omega
  have h6 : s5.showsOuter (s5.clearCaptures fun _ => true) l := s5.showsOuter_filter (p := fun k => !(inCapture (k / 64) && true)) l
    fun b g hb hg => by
      have hout : inCapture b = false := decide_eq_false fun h => by
        unfold outer fabBase bocBase at hb
        unfold fltBase at h
        omega
      rw [fkey_div hg, hout]
      rfl
  exact ((((h1.trans h2).trans h3).trans h4).trans h5).trans h6

theorem State.showsOuter_sliceForgotten (s : State) (l : List (Nat × Fld)) : s.showsOuter s.sliceForgotten l := by
  refine s.showsOuter_filter (p := fun k => !inTables (k / 64)) l fun b g hb hg => ?_
  have hout : inTables b = false := by
    unfold inTables
    unfold outer fabBase bocBase at hb
    unfold prtBase fabBase
    rw [if_neg (by omega)]
    exact decide_eq_false (by omega)
  rw [fkey_div hg, hout]
  rfl

theorem State.clearTraffic_frame {β : Type} (g : State → β) (hregs : ∀ s x, g { s with regs := x } = g s)
    (hports : ∀ s x, g { s with ports := x } = g s) (htier : ∀ s (x y), g { s with tier :=
    { s.tier with engines := x, owners := y } } = g s)
    (hfab : ∀ s x, g { s with fab := x } = g s) (s : State) : g s.clearTraffic = g s := by
  have hfs : ∀ (t : State) a l, g (t.clearFs a l) = g t := fun t a l => State.foldl_frame g l (fun t f => hregs t _) t
  unfold State.clearTraffic
  extract_lets s1 s2 s3 s4
  have h1 : g s1 = g s := (hregs _ _).trans (hregs s _)
  have h2 : g s2 = g s1 := State.foldl_frame g _ (fun t f => hregs t _) s1
  have h3 : g s3 = g s2 := State.foldl_frame g _ (fun t e => hfs t _ _) s2
  have h4 : g s4 = g s3 := State.foldl_frame g _ (fun t p => (hregs _ _).trans (hregs t _)) s3
  have hall : g s4 = g s := h4.trans (h3.trans (h2.trans h1))
  clear_value s4
  let t1 : State := { s4 with ports := Tbl.update Port.reset (fun _ x => x.drained) s4.ports }
  let t2 : State := { t1 with tier := { t1.tier with engines := [], owners := [] } }
  exact (hfab t2 _).trans ((htier t1 [] []).trans ((hports s4 _).trans hall))

/-- What leaving the slice leaves (R496). -/
theorem State.leaveSlice_effects
    (s : State) : s.leaveSlice.manifest = none ∧ s.leaveSlice.boc.closeAt = none ∧ s.leaveSlice.brt.job = false ∧
    s.leaveSlice.tier.key = s.tier.key ∧ s.leaveSlice.cores = s.cores ∧ s.leaveSlice.getF aBocState F.bocState_admitted = 0 ∧
    s.leaveSlice.getF aCrpDrone F.crpDrone_state = s.getF aCrpDrone F.crpDrone_state := by
  let u := s.sliceCleared.sliceRegs
  have hshow : ∀ l, s.sliceCleared.showsOuter u.clearTraffic.sliceForgotten l := fun l =>
    ((s.sliceCleared.showsOuter_sliceRegs l).trans (u.showsOuter_clearTraffic l)).trans (u.clearTraffic.showsOuter_sliceForgotten l)
  have hlo : ∀ f ∈ [F.bocState_manifest, F.bocState_grant, F.bocState_image, F.bocState_ready, F.bocState_admitted, F.bocState_withdrawing],
      f.lo < 64 := by decide
  have hnd : ([F.bocState_manifest, F.bocState_grant, F.bocState_image, F.bocState_ready, F.bocState_admitted,
      F.bocState_withdrawing].map Fld.lo).Nodup := by decide
  have hfs : ∀ {β : Type} (g : State → β), (∀ s x, g { s with regs := x } = g s) → ∀ (t : State) a l, g (t.clearFs a l) = g t :=
    fun g hregs t a l => State.foldl_frame g l (fun t f => hregs t _) t
  have hu : ∀ {β : Type} (g : State → β), (∀ s x, g { s with regs := x } = g s) → g u = g s := by
    intro β g hregs
    simp only [u, State.sliceRegs, State.sliceCleared]
    refine (hregs _ _).trans ((hregs _ _).trans ((hfs g hregs _ _ _).trans ((hfs g hregs _ _ _).trans ((hfs g hregs _ _ _).trans ?_))))
    exact (State.foldl_frame g _ (fun t a => hregs t _) _).trans (hfs g hregs _ _ _)
  obtain ⟨hman, hclose, hjob, hkey, hcores⟩ := u.clearTraffic.sliceForgotten_shows
  rw [State.leaveSlice_eq]
  refine ⟨hman, hclose, hjob, hkey.trans ?_, hcores.trans ?_, ?_, ?_⟩
  · exact (State.clearTraffic_frame (fun t => t.tier.key) (fun _ _ => rfl) (fun _ _ => rfl) (fun _ _ _ => rfl) (fun _ _ => rfl) u).trans
      (hu (fun t => t.tier.key) fun _ _ => rfl)
  · exact (State.clearTraffic_frame State.cores (fun _ _ => rfl) (fun _ _ => rfl) (fun _ _ _ => rfl) (fun _ _ => rfl) u).trans
      (hu State.cores fun _ _ => rfl)
  · exact (hshow [] _ _ outer_state (by decide) List.not_mem_nil).trans (State.getF_clearFs_mem hnd (f := F.bocState_admitted) (by simp) s)
  · exact (hshow [] _ _ outer_drone (by decide) List.not_mem_nil).trans (State.getF_clearFs_apart (by decide) hlo (by decide) s)

/-! ### The ports dark -/

section
variable {β : Type} (g : State → β) (hregs : ∀ s x, g { s with regs := x } = g s)
include hregs

theorem State.setFs_frame (s : State) (a : Nat) (l : List (Fld × Nat)) : g (s.setFs a l) = g s :=
  State.foldl_frame g l (fun t (q : Fld × Nat) => hregs t _) s

theorem State.clearFs_frame (s : State) (a : Nat) (l : List Fld) : g (s.clearFs a l) = g s := State.foldl_frame g l (fun t _ => hregs t _) s

theorem State.classify_frame (hflt : ∀ s x, g { s with flt := x } = g s) (s : State) (p : Nat) : g (s.classify p) = g s := by
  unfold State.classify
  extract_lets c x moved s1 s2 s3
  have h1 : g s1 = g s := by
    simp only [s1]
    split
    · exact hregs s _
    · rfl
  have h3 : g s3 = g s := (hregs s2 _).trans ((State.setFs_frame g hregs s1 _ _).trans h1)
  split
  · exact (State.event_frame g hregs hflt _ _ _ _ _ _).trans ((hregs _ _).trans h3)
  · exact h3

end

theorem logReg_of_outer {b : Nat} (h : outer b) : logReg b = false := by
  rcases h with h | ⟨hlow, hhigh⟩
  · exact logReg_of_lt (Nat.lt_trans h.2 (by decide))
  · have hring : aFltRing < bocBase := by decide
    have hledger : aFltLedger < bocBase := by decide
    have hsusp : aFltSusp < bocBase := by decide
    have hcapacity : bocBase + 0x100 = aBocCapacity := by decide
    have hevents : aFltEvent 4096 0 < bocBase := by decide
    have hend : ¬(aFltEvent 0 0 ≤ b ∧ b < aFltEvent 4096 0) := by omega
    simp only [logReg, List.contains_cons, List.contains_nil, decide_eq_false hend, Bool.or_false, Bool.or_eq_false_iff, beq_eq_false_iff_ne]
    exact ⟨by omega, by omega, by omega, by omega⟩

theorem State.showsOuter_classify (s : State) {p : Nat} (hp : p < numPorts) : s.showsOuter
    (s.classify p) [(aBocState, F.bocState_ready)] := by
  unfold numPorts at hp
  have hdisc : ¬outer (aBocDisc p) := not_outer_above (by unfold aBocDisc bocBase; omega)
  have hlnk : ¬outer (aLnkState p) := not_outer_below (by unfold aLnkState prtBase fabBase; omega)
  unfold State.classify
  extract_lets c x moved s1 s2 s3
  have h1 : s.showsOuter s1 [(aBocState, F.bocState_ready)] := by
    simp only [s1]
    split
    · exact fun b g hb hg hn => s.getF_setF_other _ _ _ fun h => hn (by simpa using h)
    · exact s.showsOuter_refl _
  have h2 : s1.showsOuter s2 [(aBocState, F.bocState_ready)] :=
    s1.showsOuter_setFs _ _ hdisc (by simp [F.bocDisc_class, F.bocDisc_partner, F.bocDisc_partnerPort])
  have h3 : s2.showsOuter s3 [(aBocState, F.bocState_ready)] := s2.showsOuter_setF _ _ _ (not_outer_between (by decide) (by decide)) (by decide)
  have h123 := (h1.trans h2).trans h3
  split
  · refine (h123.trans (s3.showsOuter_setF F.lnkState_state 6 _ hlnk (by decide))).trans fun b g hb hg _ => ?_
    exact State.getF_event _ _ _ _ _ _ (logReg_of_outer hb) hg
  · exact h123

/-- A port dark again (R496). -/
def State.darkPort (s : State) (p : Nat) : State :=
  (((s.clearSpan (aLnkInjCtl p) 40).clearFs (aBocDisc p) [F.bocDisc_used]).clearFs (aCrpConfig p) [F.crpConfig_arrival, F.crpConfig_sched,
    F.crpConfig_slotBank, F.crpConfig_lqBank]).classify p

theorem State.showsOuter_darkPorts (s : State) : s.showsOuter s.darkPorts [(aBocState, F.bocState_ready)] := by
  refine State.showsOuter.foldl (step := State.darkPort) (List.range numPorts) (fun t p hp => ?_) s
  have hp := List.mem_range.mp hp
  have hp' := hp
  unfold numPorts at hp'
  let t1 := t.clearSpan (aLnkInjCtl p) 40
  let t2 := t1.clearFs (aBocDisc p) [F.bocDisc_used]
  have h1 : t.showsOuter t1 [(aBocState, F.bocState_ready)] := t.showsOuter_clearSpan _ fun b hb => by
    unfold outer fabBase bocBase at hb
    unfold aLnkInjCtl prtBase
    omega
  have h2 : t1.showsOuter t2 [(aBocState, F.bocState_ready)] := t1.showsOuter_clearFs _ _ (not_outer_above (by unfold aBocDisc bocBase; omega))
    (by simp [F.bocDisc_used])
  exact ((h1.trans h2).trans (t2.showsOuter_clearFs _ _ (not_outer_below (by unfold aCrpConfig prtBase fabBase; omega))
    (by simp [F.crpConfig_arrival, F.crpConfig_sched, F.crpConfig_slotBank, F.crpConfig_lqBank]))).trans (State.showsOuter_classify _ hp)

theorem State.darkPorts_frame {β : Type} (g : State → β) (hregs : ∀ s x, g { s with regs := x } = g s)
    (hflt : ∀ s x, g { s with flt := x } = g s) (s : State) : g s.darkPorts = g s :=
  State.foldl_frame (f := State.darkPort) g _ (fun t p => (State.classify_frame g hregs hflt _ p).trans
    ((State.clearFs_frame g hregs _ _ _).trans ((State.clearFs_frame g hregs _ _ _).trans (hregs t _)))) s

/-! ### The capacity shown after -/

/-- Step 9 again, the memory's map and the package's shown capacity (R434, R496). -/
def State.closedDown (s : State) : State :=
  (((s.setF aBocState F.bocState_step 9).rebuildMap).setChannels 4).showUnits.updatePorts.updateHealth

theorem State.closedDown_frame {β : Type} (g : State → β) (hregs : ∀ s x, g { s with regs := x } = g s)
    (hmirror : ∀ s x, g { s with i3c := x } = g s) (s : State) : g s.closedDown = g s := by
  let s1 := s.setF aBocState F.bocState_step 9
  have hmap : g s1.rebuildMap = g s1 := State.foldl_frame g _ (fun t f => State.setFs_frame g hregs t _ _) s1
  have hunits : ∀ t : State, g t.showUnits = g t := fun t => by
    unfold State.showUnits
    split
    · exact State.setFs_frame g hregs t _ _
    · rfl
  exact (State.updateHealth_frame g hregs hmirror _).trans ((State.setFs_frame g hregs _ _ _).trans ((hunits _).trans
    ((State.setChannels_frame g hregs _ 4).trans (hmap.trans (hregs s _)))))

theorem State.closedDown_shows (s : State) : s.closedDown.getF aBocState F.bocState_step = 9 ∧
    ∀ b (g : Fld), outer b → g.lo < 64 → fkey b g ∉ [(aBocState, F.bocState_step), (aBocState, F.bocState_state)].map (fun p => fkey p.1 p.2) →
      s.closedDown.getF b g = s.getF b g := by
  let s1 := s.setF aBocState F.bocState_step 9
  have hcap : ¬outer aBocCapacity := not_outer_above (by decide)
  have hmap : ∀ l, s1.showsOuter s1.rebuildMap l := fun l => by
    refine State.showsOuter.foldl _ (fun t f hf => t.showsOuter_setFs _ l (not_outer_below ?_) ?_) s1
    · have := List.mem_range.mp hf
      unfold aFldChannels fldBase fabBase
      omega
    · simp [F.fldChannels_active, F.fldChannels_count, F.fldChannels_pending]
  let s3 := s1.rebuildMap.setChannels 4
  have hchan : ∀ l, s1.rebuildMap.showsOuter s3 l := fun l b g hb hg _ => s1.rebuildMap.getF_setChannels 4 (by
    unfold outer fabBase bocBase at hb
    unfold prtBase
    omega) hg
  have hunits : ∀ l, s3.showsOuter s3.showUnits l := fun l => by
    unfold State.showUnits
    split
    · exact s3.showsOuter_setFs _ l hcap (by simp [F.bocCapacity_class, F.bocCapacity_islandsPerField, F.bocCapacity_logicalIslands, F.bocCapacity_lpddrChannels])
    · exact s3.showsOuter_refl l
  let s5 := s3.showUnits.updatePorts
  have hports : ∀ l, s3.showUnits.showsOuter s5 l := fun l => s3.showUnits.showsOuter_setFs _ l hcap
    (by simp [F.bocCapacity_portsPx, F.bocCapacity_portsMx, F.bocCapacity_portsPy, F.bocCapacity_portsMy, F.bocCapacity_portsPz, F.bocCapacity_portsMz])
  have hhealth : s5.showsOuter s5.updateHealth [(aBocState, F.bocState_state)] := fun b g hb hg hn => s5.getF_updateHealth (fun k hk => by
    unfold outer fabBase bocBase at hb
    unfold aFltHealth fltBase
    omega) hg (by simpa using hn)
  have hall : s1.showsOuter s.closedDown [(aBocState, F.bocState_state)] :=
    ((((hmap _).trans (hchan _)).trans (hunits _)).trans (hports _)).trans hhealth
  refine ⟨(hall _ _ outer_state (by decide) (by decide)).trans (s.getF_setF_same ..), fun b g hb hg hn => ?_⟩
  rw [List.map_cons, List.mem_cons, not_or] at hn
  exact (hall b g hb hg hn.2).trans (s.getF_setF_other _ _ _ hn.1)

/-- The closing beat of a withdrawal (R496). -/
theorem withdrawClose_effects {s : State} {b : Beat} (hclose : s.boc.closeAt = some b) :
    CompletesWith (execWithdrawClose s) fun t =>
      (∀ i < 24, t.drone i = if s.drone i = 0 then 0 else 3) ∧ t.manifest = none ∧ t.boc.closeAt = none ∧ t.tier.key = 0 ∧ t.cores = [] ∧
        t.getF aBocState F.bocState_step = 9 ∧ t.admitted = false ∧ t.brt.job = false ∧
        ∀ i, t.readByte i = if i < lpEnd then s.readByte i else 0 := by
  let s1 := s.closeDrones b
  let s2 := s1.eraseKeys
  let s3 := s2.zeroDies
  let s4 := s3.leaveSlice
  let s5 := s4.darkPorts
  have hrun : execWithdrawClose s = .next s5.closedDown := by
    unfold execWithdrawClose
    simp only [hclose]
    rfl
  obtain ⟨hdrones, -⟩ := s.closeDrones_effects b
  have hmem1 : s1.mem = s.mem := State.of_bare State.mem (fun _ => rfl) (s.bare_closeDrones b)
  obtain ⟨hkey, hkept, herased⟩ := s1.eraseKeys_effects
  obtain ⟨hcores, hbytes, hzeroed, hkey3⟩ := s2.zeroDies_effects
  obtain ⟨hman, hclosed, hjob, hkeys, hcores4, hadm, hdrone4⟩ := s3.leaveSlice_effects
  have hkept4 : s4.kept = s3.kept := s3.kept_leaveSlice
  have hdark := s4.showsOuter_darkPorts
  obtain ⟨hstep, hdown⟩ := s5.closedDown_shows
  have hlast : ∀ {β : Type} (g : State → β), (∀ s x, g { s with regs := x } = g s) → (∀ s x, g { s with flt := x } = g s) →
      (∀ s x, g { s with i3c := x } = g s) → g s5.closedDown = g s4 := fun g hregs hflt hmirror =>
    (State.closedDown_frame g hregs hmirror s5).trans (State.darkPorts_frame g hregs hflt s4)
  have hdrone : s5.closedDown.getF aCrpDrone F.crpDrone_state = s1.getF aCrpDrone F.crpDrone_state :=
    (hdown _ _ outer_drone (by decide) (by decide)).trans ((hdark _ _ outer_drone (by decide) (by decide)).trans (hdrone4.trans
      (hzeroed.trans (herased [] _ _ outer_drone (by decide) List.not_mem_nil))))
  have hflag : s5.closedDown.getF aBocState F.bocState_admitted = 0 :=
    (hdown _ _ outer_state (by decide) (by decide)).trans ((hdark _ _ outer_state (by decide) (by decide)).trans hadm)
  refine ⟨_, hrun, fun i hi => (State.drone_congr hdrone i).trans (hdrones i hi), ?_, ?_, ?_, ?_, hstep, ?_, ?_, fun i => ?_⟩
  · exact (hlast State.manifest (fun _ _ => rfl) (fun _ _ => rfl) fun _ _ => rfl).trans hman
  · exact (hlast (fun t => t.boc.closeAt) (fun _ _ => rfl) (fun _ _ => rfl) fun _ _ => rfl).trans hclosed
  · exact (hlast (fun t => t.tier.key) (fun _ _ => rfl) (fun _ _ => rfl) fun _ _ => rfl).trans (hkeys.trans (hkey3.trans hkey))
  · exact (hlast State.cores (fun _ _ => rfl) (fun _ _ => rfl) fun _ _ => rfl).trans (hcores4.trans hcores)
  · exact decide_eq_false fun h => h hflag
  · exact (hlast (fun t => t.brt.job) (fun _ _ => rfl) (fun _ _ => rfl) fun _ _ => rfl).trans hjob
  · have hmem : s5.closedDown.mem = s3.mem :=
      (hlast State.mem (fun _ _ => rfl) (fun _ _ => rfl) fun _ _ => rfl).trans (State.mem_of_kept hkept4)
    have hmem2 : s2.mem = s.mem := (State.mem_of_kept hkept).trans hmem1
    calc s5.closedDown.readByte i = s3.readByte i := congrArg (fun m => Tbl.get (0 : Byte) m i) hmem
      _ = if i < lpEnd then s2.readByte i else 0 := hbytes i
      _ = if i < lpEnd then s.readByte i else 0 := by rw [State.readByte, State.readByte, hmem2]

end Sys2Proof.Machine

open Sys2Proof Sys2Proof.Machine

/-- Settles O46, step by step. -/
theorem admissionStartAndWithdrawal : Obligations.AdmissionStartAndWithdrawal := by
  unfold Obligations.AdmissionStartAndWithdrawal
  intro s msg
  exact ⟨admitNoticeMessage_effects s msg, fun _ => admitted_effects, fun hjoin hcan _ => admissionTimeout_effects hjoin hcan,
    imageReady_effects, breath0LoadDone_lead, startOrder_effects, withdrawNotice_boundary, fun _ hclose _ => withdrawClose_effects hclose⟩
end

section
/-! The ledger, events, the health digest, and a valve swap at a boundary (R26, R397, R398, R401, R402, R433, R435). -/

namespace Sys2Proof.Machine

/-! ### Records of the ledger -/

/-- A record is written when none of the last ten minutes is there (R398). -/
theorem State.ledgerRecord_fresh {s : State} (hold : ∀ r ∈ s.flt.ledger, r.minutes + 10 ≤ s.getF aFltLedger F.fltLedger_minutes)
    (kind cause : Nat) (unit : BitVec 32) (detail : Nat) :
    (∃ r : Ledger, (s.ledgerRecord kind cause unit detail).flt.ledger = s.flt.ledger ++ [r] ∧ r.kind = kind ∧
        r.minutes = s.getF aFltLedger F.fltLedger_minutes ∧ r.beat = s.beat ∧ r.detail = detail) ∧
      (s.ledgerRecord kind cause unit detail).regs =
        (s.setF aFltLedger F.fltLedger_used (s.getF aFltLedger F.fltLedger_used + 1)).regs := by
  let now := s.getF aFltLedger F.fltLedger_minutes
  have hsame : (s.flt.ledger.any fun r =>
      decide (r.kind = kind ∧ r.cause = cause ∧ r.unit = unit.toNat ∧ now < r.minutes + 10)) = false := by
    refine List.any_eq_false.mpr fun r hr => ?_
    have := hold r hr
    simp only [decide_eq_true_eq, not_and]
    intro _ _ _
    exact Nat.not_lt.mpr this
  have hnone : (s.flt.ledger.filter fun r => decide (r.minutes = now)) = [] := by
    refine List.filter_eq_nil_iff.mpr fun r hr => ?_
    have := hold r hr
    simp only [decide_eq_true_eq, now]
    omega
  have hwrite : ¬(kind ≠ 4 ∧ kind ≠ 5 ∧ ((s.flt.ledger.any fun r =>
      decide (r.kind = kind ∧ r.cause = cause ∧ r.unit = unit.toNat ∧ now < r.minutes + 10)) = true ∨
        decide ((s.flt.ledger.filter fun r => decide (r.minutes = now)).length ≥ 16) = true)) := by
    rw [hsame, hnone]
    simp
  simp only [State.ledgerRecord]
  rw [if_neg hwrite]
  exact ⟨⟨_, rfl, rfl, rfl, rfl, rfl⟩, rfl⟩

theorem hoursMark_effects {s : State} (hold : ∀ r ∈ s.flt.ledger, r.minutes + 10 ≤ s.getF aFltLedger F.fltLedger_minutes)
    (hlt : s.getF aFltLedger F.fltLedger_minutes + 60 < 2 ^ 32) :
    CompletesWith (execHoursMark s) fun t =>
      t.getF aFltLedger F.fltLedger_minutes = s.getF aFltLedger F.fltLedger_minutes + 60 ∧
      (∃ r : Ledger, t.flt.ledger = s.flt.ledger ++ [r] ∧ r.kind = 1 ∧ r.minutes = s.getF aFltLedger F.fltLedger_minutes + 60 ∧
        r.beat = s.beat) ∧
      s.regsBut t [(aFltLedger, F.fltLedger_minutes), (aFltLedger, F.fltLedger_used)] ∧ s.sameIslands t ∧ s.sameMemory t := by
  let now := s.getF aFltLedger F.fltLedger_minutes
  let s1 := s.setF aFltLedger F.fltLedger_minutes (now + 60)
  have hnow : s1.getF aFltLedger F.fltLedger_minutes = now + 60 := (s.getF_setF_same ..).trans (Nat.mod_eq_of_lt hlt)
  have hold1 : ∀ r ∈ s1.flt.ledger, r.minutes + 10 ≤ s1.getF aFltLedger F.fltLedger_minutes := fun r hr => by
    rw [hnow]
    exact Nat.le_trans (hold r hr) (Nat.le_add_right _ _)
  obtain ⟨⟨r, hledger, hkind, hmin, hbeat, -⟩, hregs⟩ := State.ledgerRecord_fresh hold1 1 0 0 0
  let u := s1.setF aFltLedger F.fltLedger_used (s1.getF aFltLedger F.fltLedger_used + 1)
  have hread : ∀ b (g : Fld), (s1.ledgerRecord 1 0 0 0).getF b g = u.getF b g := fun b g =>
    congrArg (fun x => Tbl.get 0 x (fkey b g) ^^^ g.reset) hregs
  have hbut : s.regsBut u [(aFltLedger, F.fltLedger_minutes), (aFltLedger, F.fltLedger_used)] :=
    ((s.regsBut_refl _).setF List.mem_cons_self _).setF (by simp) _
  exact ⟨_, rfl, (hread _ _).trans ((s1.getF_setF_beside _ _ _ _ (by decide)).trans hnow), ⟨r, hledger, hkind, hmin.trans hnow, hbeat⟩,
    fun b g hb => (hread b g).trans (hbut b g hb), State.frame_of_bare ((s1.bare_ledgerRecord _ _ _ _).trans (s.bare_setF _ _ _))⟩

theorem suppressedRecordFlush_effects {s : State} (hold : ∀ r ∈ s.flt.ledger, r.minutes + 10 ≤ s.getF aFltLedger F.fltLedger_minutes)
    (hpending : 0 < s.getF aFltLedger F.fltLedger_pending) :
    CompletesWith (execSuppressedRecordFlush s) fun t =>
      t.getF aFltLedger F.fltLedger_pending = 0 ∧
      (∃ r : Ledger, t.flt.ledger = s.flt.ledger ++ [r] ∧ r.kind = 7 ∧ r.detail = s.getF aFltLedger F.fltLedger_pending) ∧
      s.regsBut t [(aFltLedger, F.fltLedger_pending), (aFltLedger, F.fltLedger_used)] ∧ s.sameIslands t ∧ s.sameMemory t := by
  let k := s.getF aFltLedger F.fltLedger_pending
  let s1 := s.setF aFltLedger F.fltLedger_pending 0
  have hnow : s1.getF aFltLedger F.fltLedger_minutes = s.getF aFltLedger F.fltLedger_minutes := s.getF_setF_beside _ _ _ _ (by decide)
  obtain ⟨⟨r, hledger, hkind, -, -, hdetail⟩, hregs⟩ :=
    State.ledgerRecord_fresh (s := s1) (fun r hr => by rw [hnow]; exact hold r hr) 7 0 0 k
  let u := s1.setF aFltLedger F.fltLedger_used (s1.getF aFltLedger F.fltLedger_used + 1)
  have hread : ∀ b (g : Fld), (s1.ledgerRecord 7 0 0 k).getF b g = u.getF b g := fun b g =>
    congrArg (fun x => Tbl.get 0 x (fkey b g) ^^^ g.reset) hregs
  have hbut : s.regsBut u [(aFltLedger, F.fltLedger_pending), (aFltLedger, F.fltLedger_used)] :=
    ((s.regsBut_refl _).setF List.mem_cons_self _).setF (by simp) _
  have hgrown : ¬(s1.ledgerRecord 7 0 0 k).flt.ledger.length = s.flt.ledger.length := by
    rw [hledger, List.length_append]
    exact Nat.succ_ne_self _
  refine ⟨s1.ledgerRecord 7 0 0 k, ?_, (hread _ _).trans ((s1.getF_setF_beside _ _ _ _ (by decide)).trans (s.getF_setF_same ..)),
    ⟨r, hledger, hkind, hdetail⟩, fun b g hb => (hread b g).trans (hbut b g hb),
    State.frame_of_bare ((s1.bare_ledgerRecord _ _ _ _).trans (s.bare_setF _ _ _))⟩
  exact (if_neg (Nat.ne_of_gt hpending)).trans (congrArg Host.Outcome.next (if_neg hgrown))

/-! ### Compaction (R401) -/

/-- The records that compaction keeps. -/
def compactKeep (l : List Ledger) : List Ledger := l.filter fun r => decide (r.kind = 4 ∨ r.kind = 3 ∨ r.kind = 1)

/-- The corrections of the last thousand hours, which it sums up. -/
def compactFound (now : Nat) (l : List Ledger) : List Ledger := l.filter fun r => decide (r.kind = 2 ∧ now ≤ r.minutes + 60000)

/-- The sum of a unit's corrections. -/
def compactSum (now : Nat) (beat : Beat) (found : List Ledger) (p : Nat × Nat) : Ledger :=
  { kind := 6, cause := 0, unit := p.1, minutes := now, detail := (found.filter fun r => decide (r.unit = p.1)).length, beat := beat, seq := p.2 }

/-- The sums, one for each unit. -/
def compactSums (now : Nat) (beat : Beat) (l : List Ledger) : List Ledger :=
  ((((compactFound now l).map Ledger.unit).eraseDups).zipIdx (match l.getLast? with | some r => r.seq + 1 | none => 0)).map
    (compactSum now beat (compactFound now l))

/-- A ledger compacted, with the registers that show it. -/
def State.compacted (s : State) (new : List Ledger) : State :=
  ({ s with flt := { s.flt with ledger := new } } : State).setFs aFltLedger [(F.fltLedger_used, new.length), (F.fltLedger_mirrorOk, 1)]

theorem execLedgerCompact_due {s : State} (hidle : s.brt.job = false) (hfull : 524288 * 9 ≤ s.flt.ledger.length * 10) :
    execLedgerCompact s = .next (s.compacted (compactKeep s.flt.ledger ++
      compactSums (s.getF aFltLedger F.fltLedger_minutes) s.beat s.flt.ledger)) :=
  if_neg (by
    rw [hidle]
    simpa using hfull)

theorem State.compacted_effects (s : State) (new : List Ledger) : (s.compacted new).flt.ledger = new ∧
    s.regsBut (s.compacted new) [(aFltLedger, F.fltLedger_used), (aFltLedger, F.fltLedger_mirrorOk)] ∧
    s.sameIslands (s.compacted new) ∧ s.sameMemory (s.compacted new) := by
  let t : State := { s with flt := { s.flt with ledger := new } }
  have hbut : s.regsBut t [(aFltLedger, F.fltLedger_used), (aFltLedger, F.fltLedger_mirrorOk)] := fun _ _ _ => rfl
  exact ⟨rfl, hbut.setFs aFltLedger (by simp), ⟨rfl, rfl, rfl⟩, rfl, rfl, rfl⟩

theorem mem_compactSums {now : Nat} {beat : Beat} {l : List Ledger} {r : Ledger} (hr : r ∈ l) (hkind : r.kind = 2)
    (hnow : now ≤ r.minutes + 60000) : ∃ x ∈ compactSums now beat l, x.kind = 6 ∧ x.unit = r.unit := by
  have hfound : r ∈ compactFound now l := List.mem_filter.mpr ⟨hr, decide_eq_true ⟨hkind, hnow⟩⟩
  have hunit : r.unit ∈ ((compactFound now l).map Ledger.unit).eraseDups := List.mem_eraseDups.mpr (List.mem_map_of_mem hfound)
  obtain ⟨i, hi, heq⟩ := List.mem_iff_getElem.mp hunit
  let top := match l.getLast? with | some r => r.seq + 1 | none => 0
  have hzip : (r.unit, top + i) ∈ (((compactFound now l).map Ledger.unit).eraseDups).zipIdx top := by
    rw [List.mk_add_mem_zipIdx_iff_getElem?, List.getElem?_eq_getElem hi, heq]
  exact ⟨_, List.mem_map_of_mem hzip, rfl, rfl⟩

theorem ledgerCompact_effects {s : State} (hidle : s.brt.job = false) (hfull : 524288 * 9 ≤ s.flt.ledger.length * 10) :
    CompletesWith (execLedgerCompact s) fun t =>
      (∀ r ∈ s.flt.ledger, r.kind = 1 ∨ r.kind = 3 ∨ r.kind = 4 → r ∈ t.flt.ledger) ∧
      (∀ r ∈ t.flt.ledger, r ∈ s.flt.ledger ∨ r.kind = 6) ∧
      (∀ r ∈ s.flt.ledger, r.kind = 2 → s.getF aFltLedger F.fltLedger_minutes ≤ r.minutes + 60000 →
        ∃ x ∈ t.flt.ledger, x.kind = 6 ∧ x.unit = r.unit) ∧
      s.regsBut t [(aFltLedger, F.fltLedger_used), (aFltLedger, F.fltLedger_mirrorOk)] ∧ s.sameIslands t ∧ s.sameMemory t := by
  obtain ⟨hledger, hframe⟩ := s.compacted_effects (compactKeep s.flt.ledger ++
    compactSums (s.getF aFltLedger F.fltLedger_minutes) s.beat s.flt.ledger)
  refine ⟨_, execLedgerCompact_due hidle hfull, ?_, ?_, ?_, hframe⟩ <;> rw [hledger]
  · intro r hr hkind
    exact List.mem_append_left _ (List.mem_filter.mpr ⟨hr, decide_eq_true (by omega)⟩)
  · intro r hr
    rcases List.mem_append.mp hr with h | h
    · exact .inl (List.mem_filter.mp h).1
    · obtain ⟨p, -, rfl⟩ := List.mem_map.mp h
      exact .inr rfl
  · intro r hr hkind hnow
    obtain ⟨x, hx, hsum⟩ := mem_compactSums (beat := s.beat) hr hkind hnow
    exact ⟨x, List.mem_append_right _ hx, hsum⟩

/-! ### Events -/

/-- The counts of a second's events begin again. -/
def State.eventsCleared (s : State) : State := { s with flt := { s.flt with events := [] } }

theorem eventSuppressSummary_none {s : State} (h : ∀ e ∈ s.flt.events, e.count ≤ 16) :
    execEventSuppressSummary s = .next { s with flt := { s.flt with events := [] } } := by
  have hnone : (s.flt.events.filter fun e => decide (16 < e.count)) = [] :=
    List.filter_eq_nil_iff.mpr fun e he => by simpa using h e he
  simp only [execEventSuppressSummary, hnone]
  rfl

theorem State.head_writeEvent (s : State) (cls code flags : Nat) (unit : BitVec 32) (detail : Nat) :
    (s.writeEvent cls code flags unit detail).getF aFltRing F.fltRing_head = (s.getF aFltRing F.fltRing_head + 1) % 2 ^ 32 :=
  State.getF_setF_same _ _ _ _

theorem eventSuppressSummary_one {s : State} {e : EvCount} (h : s.flt.events = [e]) (hmany : 16 < e.count) :
    CompletesWith (execEventSuppressSummary s) fun t =>
      t.flt.events = [] ∧ t.getF aFltRing F.fltRing_head = (s.getF aFltRing F.fltRing_head + 1) % 2 ^ 32 ∧
        s.sameIslands t ∧ s.sameMemory t := by
  let s1 := s.eventsCleared
  let t := s1.writeEvent 8 0x7F 0 (BitVec.ofNat 32 e.unit) (e.code + (e.count - 16) * 2 ^ 8)
  have hone : (s.flt.events.filter fun e => decide (16 < e.count)) = [e] := by
    simp [h, hmany]
  have hrun : execEventSuppressSummary s = .next t := by
    simp only [execEventSuppressSummary, hone]
    rfl
  have hflt : t.flt = s1.flt := s1.writeEvent_frame State.flt (fun _ _ => rfl) _ _ _ _ _
  have hbare : t.bare = s1.bare := s1.bare_writeEvent _ _ _ _ _
  exact ⟨t, hrun, congrArg FltSt.events hflt, s1.head_writeEvent _ _ _ _ _, State.frame_of_bare (s := s1) hbare⟩

/-! ### The health digest (R434) -/

theorem State.health_le (s : State) : s.health < 2 ^ F.bocState_state.width := by
  unfold State.health
  extract_lets step
  split_ifs <;> decide

/-- The health depends on the Bocal's registers, the recovery and the job. -/
theorem State.health_congr {s t : State} (hboc : t.boc = s.boc) (hrcv : t.rcv = s.rcv) (hbrt : t.brt = s.brt)
    (hstate : ∀ g : Fld, g.lo < 64 → g.lo ≠ F.bocState_state.lo → t.getF aBocState g = s.getF aBocState g)
    (hflt : t.getF aFltState F.fltState_recovery = s.getF aFltState F.fltState_recovery) : t.health = s.health := by
  simp only [State.health, State.flag, hboc, hrcv, hbrt, hflt, hstate F.bocState_step (by decide) (by decide),
    hstate F.bocState_withdrawing (by decide) (by decide), hstate F.bocState_admitted (by decide) (by decide)]
  rfl

/-- The words of the health image. -/
def State.healthWords (s : State) (img : Nat) : State :=
  (List.range 8).foldl (fun s k => s.setF (aFltHealth k) F.fltHealth_word (img / 2 ^ (64 * k))) s

theorem State.getF_healthWords (s : State) (img : Nat) {k : Nat} (hk : k < 8) :
    (s.healthWords img).getF (aFltHealth k) F.fltHealth_word = img / 2 ^ (64 * k) % 2 ^ 64 := by
  refine foldl_establishes (P := fun t : State => t.getF (aFltHealth k) F.fltHealth_word = img / 2 ^ (64 * k) % 2 ^ 64) (x := k) (fun t => ?_)
    (fun t j ht => ?_) (List.mem_range.mpr hk) s
  · exact t.getF_setF_same ..
  · by_cases hj : j = k
    · subst hj
      exact t.getF_setF_same ..
    · refine (t.getF_setF_apart _ _ _ ?_ (by decide) (by decide)).trans ht
      unfold aFltHealth
      omega

/-- The fields of the image and of the state shown. -/
def healthFields : List (Nat × Fld) := (aBocState, F.bocState_state) :: (List.range 8).map fun k => (aFltHealth k, F.fltHealth_word)

theorem State.updateHealth_regs (s : State) :
    s.updateHealth.regs = ((s.healthWords s.healthImage).setF aBocState F.bocState_state (s.healthWords s.healthImage).health).regs := by
  unfold State.updateHealth
  extract_lets img s1 was s2
  split
  · rfl
  · exact s2.regs_refreshMirror

theorem healthDigestUpdate_effects (s : State) :
    CompletesWith (execHealthDigestUpdate s) fun t =>
      (∀ k < 8, t.getF (aFltHealth k) F.fltHealth_word = s.healthImage / 2 ^ (64 * k) % 2 ^ 64) ∧
      t.getF aBocState F.bocState_state = s.health ∧ s.regsBut t healthFields ∧ s.sameIslands t ∧ s.sameMemory t := by
  let s1 := s.healthWords s.healthImage
  have hread : ∀ b (g : Fld), s.updateHealth.getF b g = (s1.setF aBocState F.bocState_state s1.health).getF b g := fun b g =>
    congrArg (fun x => Tbl.get 0 x (fkey b g) ^^^ g.reset) s.updateHealth_regs
  have hwords : s.regsBut s1 healthFields := by
    refine State.regsBut.foldl (List.range 8) (fun t k hk ht => ht.setF ?_ _) s (s.regsBut_refl _)
    exact List.mem_cons_of_mem _ (List.mem_map.mpr ⟨k, hk, rfl⟩)
  have hkeep : ∀ {β : Type} (g : State → β), (∀ s x, g { s with regs := x } = g s) → g s1 = g s := fun g hregs =>
    State.foldl_frame g _ (fun t k => hregs t _) s
  have hout : ∀ b (g : Fld), (∀ k < 8, b ≠ aFltHealth k) → g.lo < 64 → s1.getF b g = s.getF b g := fun b g hb hg =>
    List.foldlRecOn (motive := fun t : State => t.getF b g = s.getF b g) _ _ rfl fun t ht k hk =>
      (t.getF_setF_apart _ _ _ (hb k (List.mem_range.mp hk)) (by decide) hg).trans ht
  have hhealth : s1.health = s.health := State.health_congr (hkeep State.boc fun _ _ => rfl) (hkeep State.rcv fun _ _ => rfl)
    (hkeep State.brt fun _ _ => rfl) (fun g hg _ => hout _ g (by decide) hg) (hout _ _ (by decide) (by decide))
  have hframe : ∀ {β : Type} (g : State → β), (∀ s x, g { s with regs := x } = g s) → (∀ s x, g { s with i3c := x } = g s) →
      g s.updateHealth = g s := fun g hregs hmirror => State.updateHealth_frame g hregs hmirror s
  refine ⟨s.updateHealth, rfl, fun k hk => ?_, ?_, ?_,
    ⟨hframe State.cores (fun _ _ => rfl) fun _ _ => rfl, hframe State.clusters (fun _ _ => rfl) fun _ _ => rfl,
      hframe State.islands (fun _ _ => rfl) fun _ _ => rfl⟩,
    hframe State.mem (fun _ _ => rfl) fun _ _ => rfl, hframe State.tags (fun _ _ => rfl) fun _ _ => rfl, hframe State.bad (fun _ _ => rfl) fun _ _ => rfl⟩
  · refine (hread _ _).trans ((s1.getF_setF_apart _ _ _ ?_ (by decide) (by decide)).trans (s.getF_healthWords _ hk))
    unfold aFltHealth aBocState fltBase bocBase
    omega
  · exact (hread _ _).trans ((s1.getF_setF_same ..).trans ((Nat.mod_eq_of_lt s1.health_le).trans hhealth))
  · exact fun b g hb => (hread b g).trans ((hwords.setF List.mem_cons_self _) b g hb)

/-! ### A valve swap (R26, R402) -/

theorem valveSwap_core {s : State} {u : BitVec 32} {n k p : Nat} (hlevel : bitsAt u.toNat 0 3 = 2) (hjob : s.brt.job = true)
    (hnew : u ∈ s.flt.newly) (hrest : s.brt.running = false) (hisl : s.logicalIsland (uField u) (uIsland u) = some n)
    (hslot : ((List.range 60).find? fun j => decide (s.physCore n (60 * uCluster u + j) = uCore u)) = some k)
    (hspare : s.spareCore n (uCluster u) = some p) :
    CompletesWith (execValveSwap u s) fun t =>
      Tbl.get none t.flt.coreOver (ckey n (60 * uCluster u + k)) = some p ∧ t.physCore n (60 * uCluster u + k) = p ∧ u ∉ t.flt.newly ∧
        t.getF aFltRecovery F.fltRecovery_swaps = raised F.fltRecovery_swaps (s.getF aFltRecovery F.fltRecovery_swaps) 1 ∧
        s.regsBut t [(aFltRecovery, F.fltRecovery_swaps)] ∧ s.sameIslands t ∧ s.sameMemory t := by
  let s1 : State := { s with flt := { s.flt with coreOver := Tbl.set none s.flt.coreOver (ckey n (60 * uCluster u + k)) (some p) } }
  have hset : Tbl.get none s1.flt.coreOver (ckey n (60 * uCluster u + k)) = some p :=
    Tbl.get_set_same none s.flt.coreOver (ckey n (60 * uCluster u + k)) (some p)
  have hrun : execValveSwap u s = .next (s1.swapped u) := by
    have hgo : (s.brt.job && s.flt.newly.contains u && (s.atBoundary || s.brt.aborted) && (!s.brt.running || beatReached s.tNext (s.beat + nsBeat 10000))) = true := by
      simp [hjob, hnew, hrest, State.atBoundary]
    have hswap : s.swapUnit u = s1.swapped u := by
      have hcase : unitLevel u = 2 := by
        rw [← hlevel, unitLevel, bitsAt, Nat.pow_zero, Nat.div_one, show 2 ^ 3 = 8 from rfl]
      simp only [State.swapUnit, hisl, hcase, hslot, hspare, s1]
    exact (if_pos hgo).trans (congrArg Host.Outcome.next hswap)
  refine ⟨s1.swapped u, hrun, hset, ?_, ?_, ?_, ?_, ⟨rfl, rfl, rfl⟩, rfl, rfl, rfl⟩
  · have hphys : Tbl.get none (s1.swapped u).flt.coreOver (ckey n (60 * uCluster u + k)) = some p := hset
    simp only [State.physCore, hphys]
  · exact fun h => by simpa using (List.mem_filter.mp h).2
  · exact s1.getF_bump_same ..
  · exact State.regsBut.bump (t := s1) (fun _ _ _ => rfl) List.mem_cons_self 1

end Sys2Proof.Machine

open Sys2Proof Sys2Proof.Machine

/-- Settles O41, command by command. -/
theorem ledgerEventsAndHealth : Obligations.LedgerEventsAndHealth := by
  unfold Obligations.LedgerEventsAndHealth
  intro s
  exact ⟨hoursMark_effects, suppressedRecordFlush_effects, ledgerCompact_effects, eventSuppressSummary_none,
    fun _ => eventSuppressSummary_one, healthDigestUpdate_effects s, fun _ _ _ _ => valveSwap_core⟩
end

section
/-! A request whose buffer lies beyond the addresses of tile memory: `BocSt.force` may name more islands per field than an address has places
for (R345, R357). -/

namespace Sys2Proof.Machine

/-- A manifest of a slice of eight packages with the package 0 as this one. -/
def eightPackages : Manifest :=
  { self := 0, flags := 0, job := 0, torusM1 := 1057, low := 0, extentM1 := 1057, workLow := 0, workExtM1 := 1057, partnerLow := 0, rotation := 0,
    leads := [0], timeRoot := 0, window := 0, quantum := 0, timeout := 0, cadence := 0, replayLimit := 0, toneHours := 0, key := 0,
    imageDigest := 0, members := [], exceptions := [], digest := 0 }

/-- A fetch-and-add to package 1, with its operand at the start of the tile's memory. -/
def addToNeighbour : Remote := { op := 4, gaddr := 2 ^ 42, buf := 0, parm := 0, ctr := 0, prov := 0 }

/-- A package forced to 1000 islands per field, with that request open on core 0 of island 900. -/
def tooManyIslands : State :=
  { State.reset with
    manifest := some eightPackages
    boc := { BocSt.reset with force := some 1000 }
    cores := [(ckey 900 0, { Core.reset with trk := [(0, some addToNeighbour)] })] }

/-- The record of the request, after a command that completes. -/
def requestAfter : Out → Option Req
  | .next t => t.req (reqKey 900 0 0)
  | _ => none

/-- The operand's address is that of no memory. -/
theorem tooManyIslands_absent : tooManyIslands.region (tooManyIslands.tileBase 900 0) = .absent := by decide

/-- The request resolves with a refusal of its own: its operand is nowhere to be read. -/
theorem tooManyIslands_admit : requestAfter (exec (.requestAdmit 900 0 ⟨0, []⟩) tooManyIslands) = none := by decide

theorem tooManyIslands_premises :
    tooManyIslands.hasCore 900 0 = true ∧ Tbl.get none (tooManyIslands.core 900 0).trk 0 = some addToNeighbour ∧
      tooManyIslands.req (reqKey 900 0 0) = none ∧ tooManyIslands.isMember (addToNeighbour.gaddr / 2 ^ 42) = true ∧
      tooManyIslands.destOf addToNeighbour ≠ tooManyIslands.self ∧ tooManyIslands.destOf addToNeighbour < 2 ^ 14 ∧
      tooManyIslands.anyBad (tooManyIslands.tileBase 900 0 + addToNeighbour.buf) addToNeighbour.sends = false ∧
      addToNeighbour.buf + addToNeighbour.sends ≤ tileSize ∧ tooManyIslands.throttled = false ∧ tooManyIslands.gmu.engaged = false := by
  decide

end Sys2Proof.Machine

open Sys2Proof Sys2Proof.Machine

/-- Refutes O37: forced to 1000 islands per field, the package has a core 0 of island 900, whose tile address is past tile memory; its request
resolves at once, and no packet of it waits. -/
theorem not_requestsAndDeadlines : ¬ Obligations.RequestsAndDeadlines := by
  unfold Obligations.RequestsAndDeadlines
  intro h
  obtain ⟨hcore, htracker, hnone, hmember, hdest, hlt, hgood, hfits, hcalm, hfree⟩ := tooManyIslands_premises
  obtain ⟨hadmit, -⟩ := h tooManyIslands 900 0 0 addToNeighbour hcore (by decide) htracker
  obtain ⟨t, hrun, hreq, -⟩ := hadmit hnone hmember hdest hlt (fun hop => absurd hop (by decide)) (fun _ => hgood) hfits hcalm hfree
  have hafter : requestAfter (exec (.requestAdmit 900 0 ⟨0, []⟩) tooManyIslands) = t.req (reqKey 900 0 0) := congrArg requestAfter hrun
  rw [tooManyIslands_admit, hreq] at hafter
  exact absurd hafter (by simp)
end

section
/-! A package routes, departs or drops packets (R349, R357, R363, R367, R368). -/

namespace Sys2Proof.Machine

/-! ### Headers for the next hop -/

/-- The header's bits below the dateline's: the channel is entered, the others stay. -/
def hopLow (h vc : Nat) : Nat := h % 2 ^ 68 + vc * 2 ^ 68 + bitsAt h 71 17 * 2 ^ 71

theorem hopLow_fields (h : Nat) {vc : Nat} (hvc : vc < 8) :
    hopLow h vc < 2 ^ 88 ∧ bitsAt (hopLow h vc) 68 3 = vc % 8 ∧ bitsAt (hopLow h vc) 72 14 = bitsAt h 72 14 := by
  have hmid : hopLow h vc / 2 ^ 71 = h / 2 ^ 71 % 2 ^ 17 := by
    unfold hopLow bitsAt
    omega
  have hcut : ∀ x, x / 2 ^ 72 = x / 2 ^ 71 / 2 := fun x => by rw [Nat.div_div_eq_div_mul, ← Nat.pow_succ]
  refine ⟨?_, ?_, ?_⟩
  · unfold hopLow bitsAt
    omega
  · unfold hopLow bitsAt
    omega
  · rw [bitsAt, bitsAt, hcut, hcut, hmid]
    omega

theorem hdr_hopHeader (f : Flit) (vc : Nat) (dl : Bool) (axis : Nat) :
    ∃ c, (hopHeader f vc dl axis).hdr.toNat = (hopLow f.hdr.toNat vc + c * 2 ^ 88) % 2 ^ 128 := by
  refine ⟨dl.toNat + 2 * axis, ?_⟩
  have hdir : (if dl then 2 ^ 88 else 0) + axis * 2 ^ 89 = (dl.toNat + 2 * axis) * 2 ^ 88 := by
    cases dl <;> simp <;> omega
  rw [← hdir, ← Nat.add_assoc]
  exact BitVec.toNat_ofNat _ _

theorem payload_hdr (f : Flit) (b : BitVec 128) : ({ f with hdr := b } : Flit).payload = f.payload := rfl

theorem payload_hopHeader (f : Flit) (vc : Nat) (dl : Bool) (axis : Nat) : (hopHeader f vc dl axis).payload = f.payload := by
  unfold hopHeader
  exact payload_hdr f _

/-- A flit's fields after its header for the next hop: the channel is entered, the destination stays (R349, R367). -/
theorem hopHeader_fields (f : Flit) {vc : Nat} (hvc : vc < 8) (dl : Bool) (axis : Nat) :
    (hopHeader f vc dl axis).field 68 3 = vc % 8 ∧ (hopHeader f vc dl axis).field 72 14 = f.field 72 14 ∧
      (hopHeader f vc dl axis).payload = f.payload := by
  obtain ⟨c, hc⟩ := hdr_hopHeader f vc dl axis
  obtain ⟨hlt, hchan, hdest⟩ := hopLow_fields f.hdr.toNat hvc
  have hbits : ∀ lo w, lo + w ≤ 88 → (hopHeader f vc dl axis).field lo w = bitsAt (hopLow f.hdr.toNat vc) lo w := by
    intro lo w h
    rw [Flit.field, hc, ← bitsAt_mod h ((hopLow f.hdr.toNat vc + c * 2 ^ 88) % 2 ^ 128)]
    congr 1
    omega
  exact ⟨(hbits 68 3 (by decide)).trans hchan, (hbits 72 14 (by decide)).trans hdest, payload_hopHeader f vc dl axis⟩

/-- A hop's channel is one of the six (R349, R367). -/
theorem State.vc_of_hop {s : State} {dest bank k axis o v : Nat} {resp dl : Bool}
    (h : s.hop dest bank k resp dl axis = .send o v) : v < 6 := by
  have hbase : (if resp then 3 else 0) ≤ 3 := by split <;> decide
  have hstep : ∀ c : Bool, (if c then 2 else 1) ≤ 2 := by decide
  unfold State.hop at h
  dsimp only at h
  split at h
  case h_1 => cases h
  case h_2 dir _ =>
    have hlate := hstep (s.nextDl axis dl dir)
    split at h
    case isTrue => cases h
    case isFalse =>
      split at h
      case h_1 =>
        cases h
        omega
      case h_2 =>
        split at h
        case h_1 =>
          cases h
          omega
        case h_2 => cases h

/-! ### The throttle -/

theorem State.noteThrottle_calm {s : State} (hcalm : s.throttled = false) (hfree : s.gmu.engaged = false) : s.noteThrottle = s :=
  if_pos (hcalm.trans hfree.symm)

/-- The throttle engages and lets go (R371): its state and its count alone. -/
theorem State.noteThrottle_frame {β : Type} (g : State → β)
    (hset : ∀ s x y z, g { s with gmu := { s.gmu with engaged := x, tokens := y, filled := z } } = g s)
    (hbump : ∀ s n, g (s.setF aGmuThrottle F.gmuThrottle_episodes n) = g s) (s : State) : g s.noteThrottle = g s := by
  unfold State.noteThrottle
  split
  · rfl
  · split
    · exact hset s false s.gmu.tokens s.gmu.filled
    · extract_lets b
      exact (hset (s.bump aGmuThrottle F.gmuThrottle_episodes 1) true b s.beat).trans (hbump s _)

/-! ### The head packet of an input channel -/

section
variable {s : State} {p vc : Nat} {f : Flit} {l : List Flit}

/-- One entry freed (R327). -/
theorem State.freeEntries_one (hq : Tbl.get [] (s.port p).vcs vc = f :: l) :
    Tbl.get [] ((s.freeEntries p vc 1).port p).vcs vc = l ∧
      Tbl.get 0 ((s.freeEntries p vc 1).port p).pend vc = Tbl.get 0 (s.port p).pend vc + 1 ∧
      (∀ q, ((s.freeEntries p vc 1).port q).out = (s.port q).out) ∧ (s.freeEntries p vc 1).regs = s.regs := by
  refine ⟨?_, ?_, fun q => ?_, rfl⟩
  · rw [State.freeEntries, State.port_setPort_same]
    exact (Tbl.get_set_same ..).trans (by rw [hq, List.drop_one, List.tail_cons])
  · rw [State.freeEntries, State.port_setPort_same]
    exact Tbl.get_set_same 0 (s.port p).pend vc (Tbl.get 0 (s.port p).pend vc + 1)
  · by_cases h : q = p
    · rw [State.freeEntries, h, State.port_setPort_same]
    · rw [State.freeEntries, State.port_setPort, if_neg h]

/-- A flit queued for its hop (R367). -/
theorem State.enqueue_one (s : State) (o v axis : Nat) (dl : Bool) (f : Flit) :
    Tbl.get [] ((s.enqueue o v axis dl [f]).port o).out v = Tbl.get [] (s.port o).out v ++ [hopHeader f v (s.nextDl axis dl (o / 8)) (o / 16)] ∧
      (∀ q, ((s.enqueue o v axis dl [f]).port q).vcs = (s.port q).vcs ∧ ((s.enqueue o v axis dl [f]).port q).pend = (s.port q).pend) := by
  refine ⟨?_, fun q => ?_⟩
  · rw [State.enqueue, State.port_setPort_same]
    exact Tbl.get_set_same ..
  · by_cases h : q = o
    · rw [State.enqueue, h, State.port_setPort_same]
      exact ⟨rfl, rfl⟩
    · rw [State.enqueue, State.port_setPort, if_neg h]
      exact ⟨rfl, rfl⟩

/-- What a routed packet leaves of its channel. -/
structure Freed (s : State) (p vc : Nat) (l : List Flit) (t : State) : Prop where
  queue : Tbl.get [] (t.port p).vcs vc = l
  pend : Tbl.get 0 (t.port p).pend vc = Tbl.get 0 (s.port p).pend vc + 1
  frame : s.sameIslands t ∧ s.sameMemory t

theorem Freed.noteThrottle {t : State} (h : Freed s p vc l t) : Freed s p vc l t.noteThrottle := by
  have hkeep : ∀ {β : Type} (g : State → β), (∀ s x y z, g { s with gmu := { s.gmu with engaged := x, tokens := y, filled := z } } = g s) →
      (∀ s n, g (s.setF aGmuThrottle F.gmuThrottle_episodes n) = g s) → g t.noteThrottle = g t :=
    fun g hset hbump => State.noteThrottle_frame g hset hbump t
  have hport := hkeep (fun t => t.port p) (fun _ _ _ _ => rfl) (fun _ _ => rfl)
  exact ⟨(congrArg (fun x : Port => Tbl.get [] x.vcs vc) hport).trans h.queue, (congrArg (fun x : Port => Tbl.get 0 x.pend vc) hport).trans h.pend,
    State.frame_trans h.frame
      ⟨⟨hkeep State.cores (fun _ _ _ _ => rfl) fun _ _ => rfl, hkeep State.clusters (fun _ _ _ _ => rfl) fun _ _ => rfl,
        hkeep State.islands (fun _ _ _ _ => rfl) fun _ _ => rfl⟩, hkeep State.mem (fun _ _ _ _ => rfl) fun _ _ => rfl,
        hkeep State.tags (fun _ _ _ _ => rfl) fun _ _ => rfl, hkeep State.bad (fun _ _ _ _ => rfl) fun _ _ => rfl⟩⟩

/-- A dropped packet is counted (R363, R368). -/
theorem freed_drop (hq : Tbl.get [] (s.port p).vcs vc = f :: l) (g : Fld) (hg : g.lo < 64) :
    let t := ((s.freeEntries p vc 1).bump aGmuDrop g 1).noteThrottle
    Freed s p vc l t ∧ t.getF aGmuDrop g = raised g (s.getF aGmuDrop g) 1 := by
  obtain ⟨hqueue, hpend, -, hregs⟩ := State.freeEntries_one hq
  let u := (s.freeEntries p vc 1).bump aGmuDrop g 1
  have hfreed : Freed s p vc l u := ⟨hqueue, hpend, ⟨rfl, rfl, rfl⟩, rfl, rfl, rfl⟩
  have hread : u.noteThrottle.getF aGmuDrop g = u.getF aGmuDrop g :=
    State.noteThrottle_frame (fun t => t.getF aGmuDrop g) (fun _ _ _ _ => rfl)
      (fun t n => t.getF_setF_apart F.gmuThrottle_episodes g n (by decide) (by decide) hg) u
  exact ⟨hfreed.noteThrottle, hread.trans ((s.freeEntries p vc 1).getF_bump_same ..)⟩

variable (hcalm : s.throttled = false) (hfree : s.gmu.engaged = false) (hp : p < numPorts) (hvc : vc < 6)
  (hq : Tbl.get [] (s.port p).vcs vc = f :: l) (hone : f.hdr.getLsbD 87 = false) (haway : f.field 72 14 ≠ s.self)
include hcalm hfree hp hvc hq hone haway

theorem execPacketRoute_input :
    execPacketRoute p vc s = .next
      (if s.tooOld (bitsAt f.q0.toNat 176 48) (bitsAt f.q0.toNat 224 32) then (s.freeEntries p vc 1).bump aGmuDrop F.gmuDrop_lifetime 1
      else if s.bankState (f.field 71 1) = 0 then (s.freeEntries p vc 1).bump aGmuDrop F.gmuDrop_epoch 1
      else
        match s.hop (f.field 72 14) (f.field 71 1) 1 (decide (3 ≤ vc)) (f.hdr.getLsbD 88) (f.field 89 2) with
        | .noroute => (s.freeEntries p vc 1).bump aGmuDrop F.gmuDrop_noroute 1
        | .send o v => (s.freeEntries p vc 1).enqueue o v (f.field 89 2) (f.hdr.getLsbD 88) [f]
        | .wait => s : State).noteThrottle := by
  have hflits : f.packetFlits = 1 := by rw [Flit.packetFlits, hone, if_neg (by decide)]
  have hroute : s.routeInput p vc = (if s.tooOld (bitsAt f.q0.toNat 176 48) (bitsAt f.q0.toNat 224 32)
        then (s.freeEntries p vc 1).bump aGmuDrop F.gmuDrop_lifetime 1
      else if s.bankState (f.field 71 1) = 0 then (s.freeEntries p vc 1).bump aGmuDrop F.gmuDrop_epoch 1
      else
        match s.hop (f.field 72 14) (f.field 71 1) 1 (decide (3 ≤ vc)) (f.hdr.getLsbD 88) (f.field 89 2) with
        | .noroute => (s.freeEntries p vc 1).bump aGmuDrop F.gmuDrop_noroute 1
        | .send o v => (s.freeEntries p vc 1).enqueue o v (f.field 89 2) (f.hdr.getLsbD 88) [f]
        | .wait => s) := by
    have hthere : ¬((f :: l).length < 1 ∨ f.field 72 14 = s.self) := by
      rw [List.length_cons]
      omega
    simp only [State.routeInput, hq, hflits, List.take_one, List.head?_cons, Option.toList_some]
    exact if_neg hthere
  unfold execPacketRoute
  rw [if_pos ⟨Nat.le_of_lt hp, hvc⟩]
  simp only [s.noteThrottle_calm hcalm hfree, if_neg (Nat.ne_of_lt hp), hroute]

theorem packetRoute_tooOld (hold : s.tooOld (bitsAt f.q0.toNat 176 48) (bitsAt f.q0.toNat 224 32) = true) :
    CompletesWith (execPacketRoute p vc s) fun t =>
      Freed s p vc l t ∧ t.getF aGmuDrop F.gmuDrop_lifetime = raised F.gmuDrop_lifetime (s.getF aGmuDrop F.gmuDrop_lifetime) 1 := by
  refine ⟨_, (execPacketRoute_input hcalm hfree hp hvc hq hone haway).trans ?_, freed_drop hq F.gmuDrop_lifetime (by decide)⟩
  rw [if_pos hold]

theorem packetRoute_noroute (hyoung : s.tooOld (bitsAt f.q0.toNat 176 48) (bitsAt f.q0.toNat 224 32) = false)
    (hbank : s.bankState (f.field 71 1) ≠ 0)
    (hhop : s.hop (f.field 72 14) (f.field 71 1) 1 (decide (3 ≤ vc)) (f.hdr.getLsbD 88) (f.field 89 2) = .noroute) :
    CompletesWith (execPacketRoute p vc s) fun t =>
      Freed s p vc l t ∧ t.getF aGmuDrop F.gmuDrop_noroute = raised F.gmuDrop_noroute (s.getF aGmuDrop F.gmuDrop_noroute) 1 := by
  refine ⟨_, (execPacketRoute_input hcalm hfree hp hvc hq hone haway).trans ?_, freed_drop hq F.gmuDrop_noroute (by decide)⟩
  rw [if_neg (by rw [hyoung]; decide), if_neg hbank, hhop]

theorem packetRoute_send (hyoung : s.tooOld (bitsAt f.q0.toNat 176 48) (bitsAt f.q0.toNat 224 32) = false)
    (hbank : s.bankState (f.field 71 1) ≠ 0) {o v : Nat}
    (hhop : s.hop (f.field 72 14) (f.field 71 1) 1 (decide (3 ≤ vc)) (f.hdr.getLsbD 88) (f.field 89 2) = .send o v) :
    CompletesWith (execPacketRoute p vc s) fun t =>
      Freed s p vc l t ∧ ∃ g : Flit, Tbl.get [] (t.port o).out v = Tbl.get [] (s.port o).out v ++ [g] ∧ g.payload = f.payload ∧
        g.field 72 14 = f.field 72 14 ∧ g.field 68 3 = v % 8 := by
  obtain ⟨hqueue, hpend, hout, -⟩ := State.freeEntries_one hq
  let w := s.freeEntries p vc 1
  let u := w.enqueue o v (f.field 89 2) (f.hdr.getLsbD 88) [f]
  let g := hopHeader f v (w.nextDl (f.field 89 2) (f.hdr.getLsbD 88) (o / 8)) (o / 16)
  obtain ⟨hadd, hside⟩ := w.enqueue_one o v (f.field 89 2) (f.hdr.getLsbD 88) f
  have hfreed : Freed s p vc l u :=
    ⟨(congrArg (Tbl.get [] · vc) (hside p).1).trans hqueue, (congrArg (Tbl.get 0 · vc) (hside p).2).trans hpend, ⟨rfl, rfl, rfl⟩, rfl, rfl, rfl⟩
  have hport : u.noteThrottle.port o = u.port o :=
    State.noteThrottle_frame (fun t => t.port o) (fun _ _ _ _ => rfl) (fun _ _ => rfl) u
  obtain ⟨hchan, hdest, hpay⟩ := hopHeader_fields f (Nat.lt_of_lt_of_le (State.vc_of_hop hhop) (by decide))
    (w.nextDl (f.field 89 2) (f.hdr.getLsbD 88) (o / 8)) (o / 16)
  refine ⟨u.noteThrottle, (execPacketRoute_input hcalm hfree hp hvc hq hone haway).trans ?_, hfreed.noteThrottle, g, ?_, hpay, hdest, hchan⟩
  · rw [if_neg (by rw [hyoung]; decide), if_neg hbank, hhop]
  · calc Tbl.get [] (u.noteThrottle.port o).out v = Tbl.get [] (u.port o).out v := by rw [hport]
      _ = Tbl.get [] (w.port o).out v ++ [g] := hadd
      _ = Tbl.get [] (s.port o).out v ++ [g] := by rw [hout o]

end

/-! ### The package's own packets -/

theorem Packet.length_flits (p : Packet) : p.flits.length = p.flitCount := by
  unfold Packet.flits
  extract_lets two h head
  unfold Packet.flitCount
  split <;> simp_all

theorem packetRoute_own {s : State} {p : Packet} {l : List Packet} (hcalm : s.throttled = false) (hfree : s.gmu.engaged = false)
    (hq : s.gmu.waiting = p :: l) (hkind : p.kind < 0x80) (hlive : nsReached s.nowNs (s.deadline p.birth) = false) {o v : Nat}
    (hhop : s.hop (s.departing p).dest (s.departing p).epoch (s.departing p).flitCount false false 3 = .send o v) :
    CompletesWith (execPacketRoute numPorts 0 s) fun t =>
      t.gmu.waiting = l ∧ (Tbl.get [] (t.port o).out v).length = (Tbl.get [] (s.port o).out v).length + (s.departing p).flitCount ∧
        s.sameIslands t ∧ s.sameMemory t := by
  let d := s.departing p
  let rest : State := { s with gmu := { s.gmu with waiting := s.gmu.waiting.erase p } }
  let u := rest.enqueue o v 3 false d.flits
  have hown : s.routeOwn false = u := by
    have hfind : (s.gmu.waiting.find? fun p => decide (0x80 ≤ p.kind) == false) = some p := by
      rw [hq, List.find?_cons_of_pos]
      simpa using hkind
    simp only [State.routeOwn, hfind, hlive, hhop, Bool.not_false, Bool.false_eq_true, and_false, if_false]
    rfl
  have hrun : execPacketRoute numPorts 0 s = .next u.noteThrottle := by
    unfold execPacketRoute
    rw [if_pos ⟨Nat.le_refl _, by decide⟩]
    simp only [s.noteThrottle_calm hcalm hfree, if_true]
    exact congrArg (fun t : State => Host.Outcome.next t.noteThrottle) hown
  have hkeep : ∀ {β : Type} (g : State → β), (∀ s x y z, g { s with gmu := { s.gmu with engaged := x, tokens := y, filled := z } } = g s) →
      (∀ s n, g (s.setF aGmuThrottle F.gmuThrottle_episodes n) = g s) → g u.noteThrottle = g u :=
    fun g hset hbump => State.noteThrottle_frame g hset hbump u
  refine ⟨u.noteThrottle, hrun, ?_, ?_,
    ⟨hkeep State.cores (fun _ _ _ _ => rfl) fun _ _ => rfl, hkeep State.clusters (fun _ _ _ _ => rfl) fun _ _ => rfl,
      hkeep State.islands (fun _ _ _ _ => rfl) fun _ _ => rfl⟩, hkeep State.mem (fun _ _ _ _ => rfl) fun _ _ => rfl,
      hkeep State.tags (fun _ _ _ _ => rfl) fun _ _ => rfl, hkeep State.bad (fun _ _ _ _ => rfl) fun _ _ => rfl⟩
  · refine (hkeep (fun t => t.gmu.waiting) (fun _ _ _ _ => rfl) fun _ _ => rfl).trans ?_
    exact (congrArg (·.erase p) hq).trans (List.erase_cons_head ..)
  · have hport : u.noteThrottle.port o = u.port o := hkeep (fun t => t.port o) (fun _ _ _ _ => rfl) fun _ _ => rfl
    have hout : Tbl.get [] (u.port o).out v =
        Tbl.get [] (s.port o).out v ++ d.flits.map fun f => hopHeader f v (rest.nextDl 3 false (o / 8)) (o / 16) := by
      simp only [u, State.enqueue, State.port_setPort_same]
      exact Tbl.get_set_same ..
    rw [hport, hout, List.length_append, List.length_map, Packet.length_flits]

end Sys2Proof.Machine

open Sys2Proof Sys2Proof.Machine

/-- Settles O38: the head of a channel through `State.routeInput`, the package's own packet through `State.routeOwn`. -/
theorem packetRouting : Obligations.PacketRouting := by
  unfold Obligations.PacketRouting
  intro s hcalm hfree
  refine ⟨?_, fun p l hq hkind hlive o v hhop => packetRoute_own hcalm hfree hq hkind hlive hhop⟩
  intro p vc f l hp hvc hq dest birth age hop hone haway freed
  refine ⟨fun hold => ?_, fun hyoung hbank => ⟨fun hhop => ?_, fun o v hhop => ?_⟩⟩
  · obtain ⟨t, hrun, hf, hcount⟩ := packetRoute_tooOld hcalm hfree hp hvc hq hone haway hold
    exact ⟨t, hrun, ⟨hf.queue, hf.pend, hf.frame⟩, hcount⟩
  · obtain ⟨t, hrun, hf, hcount⟩ := packetRoute_noroute hcalm hfree hp hvc hq hone haway hyoung hbank hhop
    exact ⟨t, hrun, ⟨hf.queue, hf.pend, hf.frame⟩, hcount⟩
  · obtain ⟨t, hrun, hf, hsent⟩ := packetRoute_send hcalm hfree hp hvc hq hone haway hyoung hbank hhop
    exact ⟨t, hrun, ⟨hf.queue, hf.pend, hf.frame⟩, hsent⟩
end

section
/-! The global memory unit's target and its answers (R353, R354, R356, R359, R360, R364). -/

namespace Sys2Proof.Machine

/-! ### A word of tile memory -/

/-- A store changes memory, tags and what is known bad alone. -/
theorem State.store_frame {β : Type} (g : State → β) (h : ∀ s x y z, g { s with mem := x, tags := y, bad := z } = g s) (s : State) (a : Nat)
    (bs : List Byte) (tag : BitVec 2) : g (s.store a bs tag) = g s := by
  have hbytes : ∀ (bs : List Byte) (s : State) a, g (s.writeBytes a bs) = g s := by
    intro bs
    induction bs with
    | nil => exact fun _ _ => rfl
    | cons b bs ih => exact fun s a => (ih _ _).trans (h s _ s.tags s.bad)
  have htags : ∀ (s : State) a n, g (s.setTags a n tag) = g s := by
    intro s a n
    unfold State.setTags
    split
    · rfl
    · exact h s s.mem _ s.bad
  have hrepair : ∀ (s : State) a n, g (s.repair a n) = g s := by
    intro s a n
    unfold State.repair
    split
    · rfl
    · exact h s s.mem s.tags _
  exact (hrepair _ _ _).trans ((htags _ _ _).trans (hbytes bs s a))

theorem pieces_word {a : Nat} (h : a % 8 = 0) : pieces a 8 = [(a, 8)] := by
  have hmin : min 8 (64 - a % 64) = 8 := by omega
  simp only [pieces, cutLines, hmin]
  rfl

section
variable {s : State} {a n u : Nat} (htile : s.region a = .tile n u false) (haligned : a % 8 = 0)
include htile haligned

theorem State.gmRead_word (hgood : s.anyBad a 8 = false) : s.gmRead a 8 [] = (s, 0, s.readBytes a 8) := by
  have hjudge : s.judgeAll none [(a, 8)] = 0 := by
    simp [State.judgeAll, State.judge, htile]
  have hread : s.gmPieces [] [(a, 8)] = (s, some (s.readBytes a 8)) := by
    simp [State.gmPieces, State.readPiece, htile, hgood]
  simp only [State.gmRead, pieces_word haligned, hjudge, hread, ne_eq, not_true_eq_false, if_false]

theorem State.gmWrite_word {bs : List Byte} (hlen : bs.length = 8) (tag : BitVec 2) : s.gmWrite a bs tag [] = (s.store a bs tag, 0) := by
  have hjudge : s.judgeAll (some bs) [(a, 8)] = 0 := by
    simp [State.judgeAll, State.judge, htile]
  have hmerge : s.gmMerge [] [(a, 8)] = (s, true) := by
    simp [State.gmMerge, htile]
  have htake : bs.take 8 = bs := List.take_of_length_le (Nat.le_of_eq hlen)
  have hstore : s.gmStore bs tag [(a, 8)] = some (s.store a bs tag) := by
    simp [State.gmStore, State.writePiece, htile, htake]
  simp only [State.gmWrite, hlen, pieces_word haligned, hjudge, hmerge, hstore, ne_eq, not_true_eq_false, if_false]

/-- A word read and written as one access (R355). -/
theorem State.gmUpdate_word (hgood : s.anyBad a 8 = false) {f : List Byte → Option (List Byte)} {new : List Byte}
    (hf : f (s.readBytes a 8) = some new) (hlen : new.length = 8) : s.gmUpdate a 8 [] f = (s.store a new 0, 0, s.readBytes a 8) := by
  simp only [State.gmUpdate, s.gmRead_word htile haligned hgood, hf, s.gmWrite_word htile haligned hlen]

end

/-! ### A packet checked -/

/-- A packet arrives whole, from the fabric, in time and by a bank in use (R353, R363, R369). -/
theorem State.arrived_good {s : State} {p : Packet} (hcrc : p.crcOk = true) (hown : p ∉ s.gmu.own) (hinput : s.inputOf p = none)
    (hyoung : s.tooOld p.birth p.age = false) (hbank : s.bankState p.epoch ≠ 0) : s.arrived p = (s, true) := by
  have hlocal : s.gmu.own.contains p = false := by simpa using hown
  have hconsume : s.consume p = s := by simp only [State.consume, hlocal, hinput, Bool.false_eq_true, if_false]
  simp only [State.arrived, hlocal, hconsume, hcrc, hyoung, hbank, Bool.not_true, Bool.false_eq_true, if_false]

/-- A packet whose CRC fails is discarded (R353). -/
theorem State.arrived_bad {s : State} {p : Packet} (hcrc : p.crcOk = false) (hown : p ∉ s.gmu.own) (hinput : s.inputOf p = none) :
    s.arrived p = (((s.bump aGmuDrop F.gmuDrop_crc 1).event 4 0x32 1 0 (p.source + p.kind * 2 ^ 16)).suspect 4, false) := by
  have hlocal : s.gmu.own.contains p = false := by simpa using hown
  have hconsume : s.consume p = s := by simp only [State.consume, hlocal, hinput, Bool.false_eq_true, if_false]
  simp only [State.arrived, hconsume, hcrc, Bool.not_false, if_true]

/-! ### The answer on its way -/

theorem packetSource_lt (p : Packet) : p.source < 2 ^ 14 := Nat.mod_lt _ (by decide)

theorem dest_answerTo (p : Packet) (status : Nat) (data : List Byte) : (answerTo p status data).dest = p.source := by
  have hlt := packetSource_lt p
  have hhdr : (answerTo p status data).fhdr.toNat = p.source * 2 ^ 72 + 2 ^ 86 + 3 * 2 ^ 89 := by
    unfold answerTo sealPacket
    rw [BitVec.toNat_ofNat]
    omega
  rw [Packet.dest, hhdr, bitsAt]
  omega

/-- An answer for another package waits for a port (R357). -/
theorem State.sendPacket_answer {t : State} {p : Packet} (haway : p.source ≠ t.self) (status : Nat) (data : List Byte) :
    t.sendPacket (answerTo p status data) = { t with gmu := { t.gmu with waiting := t.gmu.waiting ++ [answerTo p status data] } } :=
  if_neg (by rw [dest_answerTo]; exact haway)

/-! ### What is served -/

section
variable {s : State} {p : Packet}

theorem State.tagAllowed_untagged (htag : p.tag = 0) : s.tagAllowed p = true := by
  rw [State.tagAllowed, decide_eq_true htag, Bool.true_or]

theorem State.serve_read (hkind : p.kind = 1) (hhere : s.getF aBocState F.bocState_withdrawing = 0) (htag : p.tag = 0) (ecc : Eccs) :
    s.serve p ecc = s.gmRead p.addr p.len ecc := by
  have haway : s.flag aBocState F.bocState_withdrawing = false := decide_eq_false fun h => h hhere
  have h3 : ¬p.kind = 3 := by omega
  have hperform : s.perform p ecc = s.gmRead p.addr p.len ecc := by simp only [State.perform, hkind]
  simp only [State.serve, if_neg h3, if_pos hkind, haway, State.tagAllowed_untagged htag, Bool.not_true, Bool.false_eq_true, if_false,
    hperform]

/-- An entry of the done table made for a request performed (R364). -/
def State.noteDone (t : State) (p : Packet) (status : Nat) (word : List Byte) : State :=
  { t with gmu := { t.gmu with done := t.gmu.done ++ [{ key := pktKey p, status := status, word := word }] } }

theorem State.serve_fresh (h3 : p.kind ≠ 3) (h1 : p.kind ≠ 1) (hfresh : ∀ d ∈ s.gmu.done, d.key ≠ pktKey p)
    (hroom : s.gmu.done.length < 16384)
    (hhere : s.getF aBocState F.bocState_withdrawing = 0) (htag : p.tag = 0) (ecc : Eccs) :
    s.serve p ecc = ((s.perform p ecc).1.noteDone p (s.perform p ecc).2.1 (s.perform p ecc).2.2, (s.perform p ecc).2.1, (s.perform p ecc).2.2) := by
  have haway : s.flag aBocState F.bocState_withdrawing = false := decide_eq_false fun h => h hhere
  have hnone : (s.gmu.done.find? fun d => decide (d.key = pktKey p)) = none :=
    List.find?_eq_none.mpr fun d hd => by simpa using hfresh d hd
  have hfits : ¬doneEntries ≤ s.gmu.done.length := Nat.not_le.mpr hroom
  simp only [State.serve, if_neg h3, if_neg h1, hnone, haway, State.tagAllowed_untagged htag, Bool.not_true, Bool.false_eq_true, if_false,
    if_neg hfits]
  rfl

theorem State.serve_again {d : Done} (h3 : p.kind ≠ 3) (h1 : p.kind ≠ 1) (hd : d ∈ s.gmu.done)
    (honly : ∀ x ∈ s.gmu.done, x.key = pktKey p → x = d) (hkey : d.key = pktKey p) (ecc : Eccs) :
    s.serve p ecc = (s.bump aGmuDedup F.gmuDedup_dupHits 1, d.status, d.word) := by
  have hsome : (s.gmu.done.find? fun d => decide (d.key = pktKey p)) = some d := by
    obtain ⟨x, hx⟩ := Option.isSome_iff_exists.mp
      (List.find?_isSome.mpr ⟨d, hd, decide_eq_true hkey⟩ : (s.gmu.done.find? fun d => decide (d.key = pktKey p)).isSome = true)
    rw [hx, honly x (List.mem_of_find?_eq_some hx) (of_decide_eq_true (List.find?_some (p := fun d : Done => decide (d.key = pktKey p)) hx))]
  simp only [State.serve, if_neg h3, if_neg h1, hsome]

/-- A request packet that arrives is answered with what it is served (R354). -/
theorem execRequestPacketArrival_served {t : State} {status : Nat} {data : List Byte} (harrived : s.arrived p = (s, true)) (h0 : p.kind ≠ 0)
    (h7 : p.kind ≤ 7) (haway : p.source ≠ t.self) (hserve : s.serve p [] = (t, status, data)) :
    execRequestPacketArrival p [] s = .next { t with gmu := { t.gmu with waiting := t.gmu.waiting ++ [answerTo p status data] } } := by
  have hkind : ¬(p.kind = 0 ∨ 7 < p.kind) := by omega
  simp only [execRequestPacketArrival, harrived, if_neg hkind, hserve, State.sendPacket_answer haway]

end

/-! ### The target -/

/-- The bytes of a word after a write of it. -/
theorem State.noteDone_store (s : State) (p : Packet) (a : Nat) {bs : List Byte} (hlen : bs.length = 8) (tag : BitVec 2) (status : Nat)
    (word : List Byte)
    (answer : Packet) :
    let t := (s.store a bs tag).noteDone p status word
    let v : State := { t with gmu := { t.gmu with waiting := t.gmu.waiting ++ [answer] } }
    (v.gmu.waiting = s.gmu.waiting ++ [answer] ∧ v.regs = s.regs ∧ s.sameIslands v) ∧
      (∀ i, v.readByte i = if a ≤ i ∧ i < a + 8 then bs.getD (i - a) 0 else s.readByte i) ∧
      v.gmu.done = s.gmu.done ++ [{ key := pktKey p, status := status, word := word }] := by
  have hkeep : ∀ {β : Type} (g : State → β), (∀ s x y z, g { s with mem := x, tags := y, bad := z } = g s) → g (s.store a bs tag) = g s :=
    fun g h => State.store_frame g h s a bs tag
  have hgmu := hkeep State.gmu fun _ _ _ _ => rfl
  have hbytes : ∀ i, (s.store a bs tag).readByte i = if a ≤ i ∧ i < a + 8 then bs.getD (i - a) 0 else s.readByte i := fun i => by
    rw [State.readByte_store, hlen]
  exact ⟨⟨show (s.store a bs tag).gmu.waiting ++ [answer] = _ by rw [hgmu], hkeep State.regs fun _ _ _ _ => rfl, hkeep State.cores fun _ _ _ _ => rfl,
    hkeep State.clusters fun _ _ _ _ => rfl, hkeep State.islands fun _ _ _ _ => rfl⟩, hbytes,
    show (s.store a bs tag).gmu.done ++ _ = _ by rw [hgmu]⟩

section
variable {s : State} {p : Packet} {n u : Nat} (harrived : s.arrived p = (s, true)) (haway : p.source ≠ s.self) (htag : p.tag = 0)
include harrived haway htag

theorem requestPacketArrival_read (htile : s.region p.addr = .tile n u false) (haligned : p.addr % 8 = 0)
    (hgood : s.anyBad p.addr 8 = false)
    (hhere : s.getF aBocState F.bocState_withdrawing = 0) (hkind : p.kind = 1) (hlen : p.len = 8) :
    CompletesWith (execRequestPacketArrival p [] s) fun t =>
      (t.gmu.waiting = s.gmu.waiting ++ [answerTo p 0 (s.readBytes p.addr 8)] ∧ t.regs = s.regs ∧ s.sameIslands t) ∧
        s.sameMemory t ∧ t.gmu.done = s.gmu.done := by
  have hserve : s.serve p [] = (s, 0, s.readBytes p.addr 8) := by
    rw [s.serve_read hkind hhere htag, hlen, s.gmRead_word htile haligned hgood]
  exact ⟨_, execRequestPacketArrival_served harrived (by omega) (by omega) haway hserve, ⟨rfl, rfl, rfl, rfl, rfl⟩, ⟨rfl, rfl, rfl⟩, rfl⟩

theorem requestPacketArrival_stores {bs data : List Byte} (hfresh : ∀ d ∈ s.gmu.done, d.key ≠ pktKey p) (hroom : s.gmu.done.length < 16384)
    (hhere : s.getF aBocState F.bocState_withdrawing = 0) (h0 : p.kind ≠ 0) (h1 : p.kind ≠ 1) (h3 : p.kind ≠ 3) (h7 : p.kind ≤ 7)
    (hlen : bs.length = 8) (hperform : s.perform p [] = (s.store p.addr bs 0, 0, data)) :
    CompletesWith (execRequestPacketArrival p [] s) fun t =>
      (t.gmu.waiting = s.gmu.waiting ++ [answerTo p 0 data] ∧ t.regs = s.regs ∧ s.sameIslands t) ∧
        (∀ i, t.readByte i = if p.addr ≤ i ∧ i < p.addr + 8 then bs.getD (i - p.addr) 0 else s.readByte i) ∧
        t.gmu.done = s.gmu.done ++ [{ key := pktKey p, status := 0, word := data }] := by
  have hserve : s.serve p [] = ((s.store p.addr bs 0).noteDone p 0 data, 0, data) := by
    rw [s.serve_fresh h3 h1 hfresh hroom hhere htag, hperform]
  have hself : ((s.store p.addr bs 0).noteDone p 0 data).self = s.self := State.store_frame State.self (fun _ _ _ _ => rfl) s p.addr bs 0
  exact ⟨_, execRequestPacketArrival_served harrived h0 h7 (by rw [hself]; exact haway) hserve,
    State.noteDone_store s p p.addr hlen 0 0 data _⟩

end

theorem requestPacketArrival_again {s : State} {p : Packet} (harrived : s.arrived p = (s, true)) (haway : p.source ≠ s.self) {d : Done}
    (hd : d ∈ s.gmu.done) (honly : ∀ x ∈ s.gmu.done, x.key = pktKey p → x = d)
    (hkey : d.key = pktKey p) (hkind : p.kind = 2) :
    CompletesWith (execRequestPacketArrival p [] s) fun t =>
      t.gmu.waiting = s.gmu.waiting ++ [answerTo p d.status d.word] ∧ t.gmu.done = s.gmu.done ∧
        t.getF aGmuDedup F.gmuDedup_dupHits = raised F.gmuDedup_dupHits (s.getF aGmuDedup F.gmuDedup_dupHits) 1 ∧
        s.sameIslands t ∧ s.sameMemory t := by
  have hserve := s.serve_again (ecc := []) (by omega : p.kind ≠ 3) (by omega) hd honly hkey
  have haway' : p.source ≠ (s.bump aGmuDedup F.gmuDedup_dupHits 1).self := haway
  exact ⟨_, execRequestPacketArrival_served harrived (by omega) (by omega) haway' hserve, rfl, rfl, s.getF_bump_same .., ⟨rfl, rfl, rfl⟩,
    rfl, rfl, rfl⟩

theorem requestPacketArrival_discarded {s : State} {p : Packet} (hcrc : p.crcOk = false) (hown : p ∉ s.gmu.own)
    (hinput : s.inputOf p = none) :
    CompletesWith (execRequestPacketArrival p [] s) fun t =>
      t.getF aGmuDrop F.gmuDrop_crc = raised F.gmuDrop_crc (s.getF aGmuDrop F.gmuDrop_crc) 1 ∧ t.gmu.waiting = s.gmu.waiting ∧
        s.sameIslands t ∧ s.sameMemory t := by
  let s1 := s.bump aGmuDrop F.gmuDrop_crc 1
  let s2 := s1.event 4 0x32 1 0 (p.source + p.kind * 2 ^ 16)
  have hbare : (s2.suspect 4).bare = s.bare := (s2.bare_suspect 4).trans ((s1.bare_event _ _ _ _ _).trans (s.bare_bump _ _ _))
  have hread : (s2.suspect 4).getF aGmuDrop F.gmuDrop_crc = s1.getF aGmuDrop F.gmuDrop_crc :=
    State.getF_of_offLog ((s2.offLog_suspect 4).trans (s1.offLog_event _ _ _ _ _)) (by decide) (by decide)
  refine ⟨s2.suspect 4, ?_, hread.trans (s.getF_bump_same ..), congrArg Gmu.waiting (State.of_bare State.gmu (fun _ => rfl) hbare),
    State.frame_of_bare hbare⟩
  simp only [execRequestPacketArrival, State.arrived_bad hcrc hown hinput]
  rfl

/-! ### A response -/

/-- What the resolution of a request leaves of it (R360): its counter is told, its record and its waiting packets go, and its tracker counts. -/
def State.resolved (s : State) (n u k : Nat) (r : Remote) : State :=
  let s := s.addCounter n r.ctr 1 (some (u, k))
  let s := ((s.setReq (reqKey n u k) none).dropWaiting n u k).setCore n u
    { s.core n u with trk := Tbl.set none (s.core n u).trk k none, counting := k :: (s.core n u).counting }
  s.setF aGmuTrack F.gmuTrack_open (s.getF aGmuTrack F.gmuTrack_open - 1)

theorem State.resolved_effects (s : State) (n u k : Nat) (r : Remote) : let t := s.resolved n u k r
    (∀ i, t.readByte i = s.readByte i) ∧ Tbl.get none (t.core n u).trk k = none ∧ (t.core n u).counting = k :: (s.core n u).counting ∧
      t.req (reqKey n u k) = none ∧ (t.island n).side = (s.island n).side ++ [{ ctr := r.ctr, amt := 1, free := some (u, k) }] ∧
      t.getF aGmuTrack F.gmuTrack_open = (s.getF aGmuTrack F.gmuTrack_open - 1) % 2 ^ F.gmuTrack_open.width ∧
      s.regsBut t [(aGmuTrack, F.gmuTrack_open)] := by
  let s1 := s.addCounter n r.ctr 1 (some (u, k))
  let c := s1.core n u
  let s2 := (s1.setReq (reqKey n u k) none).dropWaiting n u k
  let s3 := s2.setCore n u { c with trk := Tbl.set none c.trk k none, counting := k :: c.counting }
  have hcore : (s.resolved n u k r).core n u = { c with trk := Tbl.set none c.trk k none, counting := k :: c.counting } := s2.core_setCore_same n u _
  refine ⟨fun _ => rfl, ?_, ?_, ?_, ?_, s3.getF_setF_same .., State.regsBut.setF (t := s3) (fun _ _ _ => rfl) List.mem_cons_self _⟩
  · rw [hcore]
    exact Tbl.get_set_same none c.trk k none
  · rw [hcore]
    rfl
  · exact Tbl.get_set_same none s1.gmu.reqs (reqKey n u k) none
  · exact congrArg Island.side (s.island_setIsland_same n _)

/-- A package that neither drains nor withdraws goes on. -/
theorem State.tryDrain_resolved {s : State} {n u k : Nat} {r : Remote} (hrecovery : s.getF aFltState F.fltState_recovery ≠ 1)
    (hhere : s.getF aBocState F.bocState_withdrawing = 0) : (s.resolved n u k r).tryDrain = s.resolved n u k r := by
  obtain ⟨-, -, -, -, -, -, hregs⟩ := s.resolved_effects n u k r
  have hrec : (s.resolved n u k r).getF aFltState F.fltState_recovery ≠ 1 := by
    rw [hregs aFltState F.fltState_recovery (by decide)]
    exact hrecovery
  have hflag : (s.resolved n u k r).flag aBocState F.bocState_withdrawing = false :=
    decide_eq_false fun h => h ((hregs aBocState F.bocState_withdrawing (by decide)).trans hhere)
  unfold State.tryDrain
  rw [if_neg fun h => hrec h.1, State.tryWithdraw, hflag]
  rfl

/-- A request resolved with success (R356, R360), while the package neither drains nor withdraws. -/
theorem State.resolve_ok {s : State} {n u k status : Nat} {r : Remote} (htracker : Tbl.get none (s.core n u).trk k = some r)
    (hok : status < 4)
    (hrecovery : s.getF aFltState F.fltState_recovery ≠ 1) (hhere : s.getF aBocState F.bocState_withdrawing = 0) (data : List Byte) :
    let t := s.resolve n u k status data
    (∀ i, t.readByte i = if s.tileBase n u + r.buf ≤ i ∧ i < s.tileBase n u + r.buf + data.length then data.getD (i -
    (s.tileBase n u + r.buf)) 0
        else s.readByte i) ∧
      Tbl.get none (t.core n u).trk k = none ∧ (t.core n u).counting = k :: (s.core n u).counting ∧ t.req (reqKey n u k) = none ∧
      (t.island n).side = (s.island n).side ++ [{ ctr := r.ctr, amt := 1, free := some (u, k) }] ∧
      t.getF aGmuTrack F.gmuTrack_open = (s.getF aGmuTrack F.gmuTrack_open - 1) % 2 ^ F.gmuTrack_open.width ∧
      s.regsBut t [(aGmuTrack, F.gmuTrack_open)] := by
  let a := s.tileBase n u + r.buf
  let v := if data.isEmpty then s else s.store a data r.prov
  have hv : ∀ {β : Type} (g : State → β), (∀ s x y z, g { s with mem := x, tags := y, bad := z } = g s) → g v = g s := by
    intro β g h
    simp only [v]
    split
    · rfl
    · exact State.store_frame g h s a data r.prov
  have hbytes : ∀ i, v.readByte i = if a ≤ i ∧ i < a + data.length then data.getD (i - a) 0 else s.readByte i := by
    intro i
    simp only [v]
    split
    case isTrue hempty =>
      rw [List.isEmpty_iff.mp hempty, List.length_nil, if_neg (by omega)]
    case isFalse => exact s.readByte_store a data r.prov i
  have hcore : v.core n u = s.core n u := hv (fun t => t.core n u) fun _ _ _ _ => rfl
  have hisland : v.island n = s.island n := hv (fun t => t.island n) fun _ _ _ _ => rfl
  have hregs : v.regs = s.regs := hv State.regs fun _ _ _ _ => rfl
  have hread : ∀ b (g : Fld), v.getF b g = s.getF b g := fun b g => congrArg (fun x => Tbl.get 0 x (fkey b g) ^^^ g.reset) hregs
  have heq : s.resolve n u k status data = v.resolved n u k r := by
    have hstore : (if decide (status < 4) = true ∧ (!data.isEmpty) = true then s.store a data r.prov else s) = v := by
      cases hempty : data.isEmpty <;> simp [v, hok, hempty]
    have hfail : ¬(status = 0x14 ∨ status = 0x15) := by omega
    have hlast := v.tryDrain_resolved (n := n) (u := u) (k := k) (r := r) ((hread _ _).symm ▸ hrecovery) ((hread _ _).trans hhere)
    unfold State.resolve
    rw [htracker]
    dsimp only
    rw [hstore, if_neg hfail, if_pos (decide_eq_true hok)]
    exact hlast
  obtain ⟨hkept, htrk, hcount, hreq, hside, hopen, hbut⟩ := v.resolved_effects n u k r
  rw [heq]
  refine ⟨fun i => (hkept i).trans (hbytes i), htrk, hcount.trans (by rw [hcore]), hreq, hside.trans (by rw [hisland]), hopen.trans (by rw [hread]),
    fun b g hb => (hbut b g hb).trans (hread b g)⟩

theorem responseArrival_resolves {s : State} {p : Packet} {n u k : Nat} {q : Req} {r : Remote} (hn : bitsAt p.reqr 14 9 = n)
    (hu : bitsAt p.reqr 4 10 = u) (hk : p.reqr % 16 = k) (harrived : s.arrived p = (s, true)) (hreq : s.req (reqKey n u k) = some q)
    (htracker : Tbl.get none (s.core n u).trk k = some r) (hbirth : q.birth = p.birth) (hanswers : q.answers = []) (hone : r.packets = 1)
    (hindex : p.index = 0) (hstatus : p.status < 4) : execResponseArrival p s = .next (s.resolve n u k p.status p.data) := by
  subst hn hu hk
  have hbusy : p.status ≠ 0x15 := by omega
  have hnone : Tbl.get (none : Option Answer) [] 0 = none := rfl
  have hstatus' : requestStatus [some { status := p.status, data := p.data }] = p.status := by
    simp [requestStatus, Nat.not_le.mpr hstatus]
  simp [execResponseArrival, harrived, hreq, htracker, hbirth, hanswers, hone, hindex, hnone, Req.inOrder, Answer.isFinal, hbusy, hstatus']

theorem responseArrival_late {s : State} {p : Packet} (harrived : s.arrived p = (s, true))
    (hnone : s.req (reqKey (bitsAt p.reqr 14 9) (bitsAt p.reqr 4 10)
    (p.reqr % 16)) = none) : execResponseArrival p s = .next s.lateResponse := by
  simp only [execResponseArrival, harrived, hnone]

end Sys2Proof.Machine

open Sys2Proof Sys2Proof.Machine

/-- Settles O39: the target through `State.serve`, a response through `State.resolve`. -/
theorem requestsAndResponses : Obligations.RequestsAndResponses := by
  unfold Obligations.RequestsAndResponses
  refine ⟨?_, ?_⟩
  · intro s p n u arrives word fresh old answers stores
    have harr : arrives → s.arrived p = (s, true) := fun ⟨hcrc, hown, hinput, hyoung, hbank, _, _⟩ =>
      State.arrived_good hcrc hown hinput hyoung hbank
    refine ⟨fun ha hw hkind hlen => ?_, fun ha hw hf hkind hlen => ?_, fun ha hw hf hkind hlen => ?_, fun ha d hd honly hkey hkind => ?_,
      requestPacketArrival_discarded, fun i => ⟨rfl, rfl⟩⟩
    · obtain ⟨-, -, -, -, -, haway, htag⟩ := id ha
      obtain ⟨htile, haligned, hgood, hhere⟩ := hw
      exact requestPacketArrival_read (harr ha) haway htag htile haligned hgood hhere hkind hlen
    · obtain ⟨-, -, -, -, -, haway, htag⟩ := id ha
      obtain ⟨htile, haligned, -, hhere⟩ := hw
      refine requestPacketArrival_stores (harr ha) haway htag hf.1 hf.2 hhere (by omega) (by omega) (by omega) (by omega) hlen ?_
      simp only [State.perform, hkind, s.gmWrite_word htile haligned hlen, htag]
    · obtain ⟨-, -, -, -, -, haway, htag⟩ := id ha
      obtain ⟨htile, haligned, hgood, hhere⟩ := hw
      obtain ⟨t, hrun, hans, hbytes, -⟩ := requestPacketArrival_stores (harr ha) haway htag hf.1 hf.2 hhere (by omega) (by omega) (by omega) (by omega)
        (length_bytesOfNat 8 ((natOfBytes old + natOfBytes p.data) % 2 ^ 64)) (data := old) (by
          simp only [State.perform, hkind]
          exact s.gmUpdate_word htile haligned hgood rfl (length_bytesOfNat _ _))
      exact ⟨t, hrun, hans, hbytes⟩
    · obtain ⟨-, -, -, -, -, haway, -⟩ := id ha
      exact requestPacketArrival_again (harr ha) haway hd honly hkey hkind
  · intro s p n u k hcrc hown hinput hyoung hbank
    have harrived := State.arrived_good hcrc hown hinput hyoung hbank
    refine ⟨fun q r hreq htracker hbirth hanswers hone hindex hstatus hrecovery _ hhere => ?_, fun hnone => ?_⟩
    · exact ⟨_, responseArrival_resolves rfl rfl rfl harrived hreq htracker hbirth hanswers hone hindex hstatus,
        State.resolve_ok htracker hstatus hrecovery hhere p.data⟩
    · exact ⟨s.lateResponse, responseArrival_late harrived hnone, s.getF_bump_same .., (s.regsBut_refl _).bump List.mem_cons_self 1, ⟨rfl, rfl, rfl⟩,
        rfl, rfl, rfl⟩
end

section
/-! A steering update of beat time (R388 to R391). -/

namespace Sys2Proof.Machine

/-! ### The increment -/

/-- The new increment lies in its range. -/
theorem steered_range (incr : Nat) (m : Int) : 27460302903 ≤ steered incr m ∧ steered incr m ≤ 27515278485 := by
  simp only [steered]
  omega

/-- A division toward zero by a positive number keeps the sign. -/
theorem tdiv_opposes (incr : Nat) (m : Int) :
    (0 ≤ m → -((incr : Int) * m).tdiv (4000000 * 65536) ≤ 0) ∧ (m ≤ 0 → 0 ≤ -((incr : Int) * m).tdiv (4000000 * 65536)) := by
  constructor
  · intro hm
    have := Int.tdiv_nonneg (Int.mul_nonneg (Int.natCast_nonneg incr) hm) (by decide : (0 : Int) ≤ 4000000 * 65536)
    omega
  · intro hm
    have := Int.tdiv_nonneg (Int.neg_nonneg_of_nonpos (Int.mul_nonpos_of_nonneg_of_nonpos (Int.natCast_nonneg incr) hm))
      (by decide : (0 : Int) ≤ 4000000 * 65536)
    rw [Int.neg_tdiv] at this
    omega

/-- What an update makes of the increment: at most 20 ppm, against the offset, and all that is wanted where it fits (R390). -/
theorem steered_spec {incr : Nat} (m : Int) (hlo : 27460302903 ≤ incr) (hhi : incr ≤ 27515278485) :
    ((steered incr m : Int) - incr).natAbs * 1000000 ≤ incr * 20 ∧ (0 ≤ m → steered incr m ≤ incr) ∧ (m ≤ 0 → incr ≤ steered incr m) ∧
    ((-((incr : Int) * m).tdiv (4000000 * 65536)).natAbs * 1000000 ≤ incr * 20 →
      27460302903 ≤ (incr : Int) + -((incr : Int) * m).tdiv (4000000 * 65536) →
      (incr : Int) + -((incr : Int) * m).tdiv (4000000 * 65536) ≤ 27515278485 →
      (steered incr m : Int) = incr + -((incr : Int) * m).tdiv (4000000 * 65536)) := by
  obtain ⟨hneg, hpos⟩ := tdiv_opposes incr m
  simp only [steered]
  generalize -((incr : Int) * m).tdiv (4000000 * 65536) = want at hneg hpos ⊢
  refine ⟨?_, fun h => ?_, fun h => ?_, fun _ _ _ => ?_⟩
  · omega
  · have := hneg h
    omega
  · have := hpos h
    omega
  · omega

/-! ### The ports' samples -/

/-- Samples used up. -/
def Port.unsampled (x : Port) : Port := { x with samples := [] }

theorem Tbl.get_unsampled (ports : Tbl Port) (q : Nat) :
    (Tbl.get Port.reset (Tbl.update Port.reset (fun _ x => x.unsampled) ports) q).samples = [] := by
  induction ports with
  | nil => rfl
  | cons e rest ih =>
    obtain ⟨j, x⟩ := e
    simp only [Tbl.update]
    split
    · exact ih
    · by_cases hq : j = q
      · simp [Tbl.get, hq, Port.unsampled]
      · simpa [Tbl.get, hq] using ih

/-- Every port's samples used up. -/
def State.unsampled (s : State) : State := { s with ports := Tbl.update Port.reset (fun _ x => x.unsampled) s.ports }

theorem State.samples_unsampled (s : State) (q : Nat) : (s.unsampled.port q).samples = [] := Tbl.get_unsampled s.ports q

theorem State.getF_unsampled (s : State) (a : Nat) (f : Fld) : s.unsampled.getF a f = s.getF a f := rfl

/-! ### The lock -/

section
variable {β : Type} (g : State → β) (hregs : ∀ s x, g { s with regs := x } = g s)
include hregs

/-- Judging the lock changes the counts of good and bad updates, the status and the records alone. -/
theorem State.updateLock_frame (hflt : ∀ s x, g { s with flt := x } = g s) 
    (hpins : ∀ s x, x.phase = s.pins.phase → g { s with pins := x } = g s)
    (s : State) (m : Int) (deep : Bool) : g (s.updateLock m deep) = g s := by
  unfold State.updateLock
  extract_lets near far good bad was now pins s1 s2
  have h1 : g s1 = g s := hpins s _ rfl
  have h2 : g s2 = g s := (hregs s1 _).trans h1
  split
  · exact (State.event_frame g hregs hflt _ _ _ _ _ _).trans h2
  · exact h2

end

/-- Judging the lock shows it in the status and in no other field. -/
theorem State.getF_updateLock (s : State) (m : Int) (deep : Bool) {a : Nat} {f : Fld} (ha : logReg a = false) (hf : f.lo < 64)
    (h : a ≠ aTimStatus ∨ f.lo ≠ F.timStatus_locked.lo) : (s.updateLock m deep).getF a f = s.getF a f := by
  have hset : ∀ (s : State) b, (s.setFlag aTimStatus F.timStatus_locked b).getF a f = s.getF a f := by
    intro s b
    obtain hreg | hfld := h
    · exact State.getF_setF_apart s _ _ _ hreg (by decide) hf
    · by_cases hreg : a = aTimStatus
      · subst hreg
        exact State.getF_setF_beside s _ _ _ _ hfld
      · exact State.getF_setF_apart s _ _ _ hreg (by decide) hf
  unfold State.updateLock
  extract_lets near far good bad was now pins s1 s2
  have h2 : s2.getF a f = s.getF a f := hset s1 now
  split
  · exact (State.getF_event _ _ _ _ _ _ ha hf).trans h2
  · exact h2

/-- The eighth good update in a row locks (R391). -/
theorem State.updateLock_locks (s : State) {m : Int} (hwas : s.getF aTimStatus F.timStatus_locked = 0) (hgood : s.pins.good = 7)
    (hnear : m.natAbs * 20 ≤ 65536) : (s.updateLock m false).getF aTimStatus F.timStatus_locked = 1 := by
  have hflag : s.flag aTimStatus F.timStatus_locked = false := by simp [State.flag, hwas]
  unfold State.updateLock
  extract_lets near far good bad was now pins s1 s2
  have hwas' : was = false := hflag
  have hnow : now = true := by simp [now, hwas', good, near, hnear, hgood]
  rw [if_neg (by simp [hwas'])]
  exact (State.getF_setFlag_same s1 aTimStatus F.timStatus_locked now rfl).trans (by rw [hnow]; rfl)

/-! ### The update -/

/-- What the update of a member writes before it judges the lock. -/
def State.steeredTo (s : State) (p depth : Nat) (m delay : Int) : State :=
  let s1 := (s.setF aTimStatus F.timStatus_parent p).setF aTimStatus F.timStatus_depth depth
  let s2 := s1.setFs aTimOffset [(F.timOffset_offset, (m % 2 ^ 32).toNat), (F.timOffset_delay, (delay % 2 ^ 32).toNat)]
  let s3 := s2.setF aTimIncr F.timIncr_incr (steered (s2.getF aTimIncr F.timIncr_incr) m)
  let s4 := s3.setF aTimStatus F.timStatus_holdover 0
  if !s4.admitted ∧ 65536000 < m.natAbs then { s4 with pins := { s4.pins with phase := some (BitVec.ofInt 64 (-m)) } } else s4

section
variable (s : State) (p depth : Nat) (m delay : Int)

theorem State.steeredTo_frame {β : Type} (g : State → β) (hregs : ∀ s x, g { s with regs := x } = g s)
    (hpins : ∀ s x, g { s with pins := { s.pins with phase := x } } = g s) : g (s.steeredTo p depth m delay) = g s := by
  simp only [State.steeredTo]
  have hset : ∀ (s : State) a f v, g (s.setF a f v) = g s := fun s a f v => hregs s _
  split
  · refine (hpins _ _).trans ?_
    simp [State.setFs, hset]
  · simp [State.setFs, hset]

/-- The registers of the update are those of its writes. -/
theorem State.getF_steeredTo (a : Nat) (f : Fld) : (s.steeredTo p depth m delay).getF a f =
    ((((((s.setF aTimStatus F.timStatus_parent p).setF aTimStatus F.timStatus_depth depth).setF aTimOffset F.timOffset_offset
      (m % 2 ^ 32).toNat).setF aTimOffset F.timOffset_delay (delay % 2 ^ 32).toNat).setF aTimIncr F.timIncr_incr
        (steered (s.getF aTimIncr F.timIncr_incr) m)).setF aTimStatus F.timStatus_holdover 0).getF a f := by
  have hincr : (((((s.setF aTimStatus F.timStatus_parent p).setF aTimStatus F.timStatus_depth depth).setF aTimOffset F.timOffset_offset
      (m % 2 ^ 32).toNat).setF aTimOffset F.timOffset_delay (delay % 2 ^ 32).toNat)).getF aTimIncr F.timIncr_incr =
        s.getF aTimIncr F.timIncr_incr := by
    rw [State.getF_setF_apart _ _ _ _ (by decide) (by decide) (by decide), State.getF_setF_apart _ _ _ _ (by decide) (by decide) (by decide),
      State.getF_setF_apart _ _ _ _ (by decide) (by decide) (by decide), State.getF_setF_apart _ _ _ _ (by decide) (by decide) (by decide)]
  rw [← hincr]
  simp only [State.steeredTo]
  split <;> rfl

/-- A field that the update does not write. -/
theorem State.getF_steeredTo_other {a : Nat} {f : Fld} (hf : f.lo < 64) (h1 : a ≠ aTimOffset) (h2 : a ≠ aTimIncr)
    (h3 : a ≠ aTimStatus ∨ f = F.timStatus_locked) : (s.steeredTo p depth m delay).getF a f = s.getF a f := by
  rw [State.getF_steeredTo]
  obtain h | rfl := h3
  · rw [State.getF_setF_apart _ _ _ _ h (by decide) hf, State.getF_setF_apart _ _ _ _ h2 (by decide) hf,
      State.getF_setF_apart _ _ _ _ h1 (by decide) hf, State.getF_setF_apart _ _ _ _ h1 (by decide) hf,
      State.getF_setF_apart _ _ _ _ h (by decide) hf, State.getF_setF_apart _ _ _ _ h (by decide) hf]
  · by_cases h : a = aTimStatus
    · subst h
      rw [State.getF_setF_beside _ _ _ _ _ (by decide), State.getF_setF_apart _ _ _ _ h2 (by decide) hf,
        State.getF_setF_apart _ _ _ _ h1 (by decide) hf, State.getF_setF_apart _ _ _ _ h1 (by decide) hf,
        State.getF_setF_beside _ _ _ _ _ (by decide), State.getF_setF_beside _ _ _ _ _ (by decide)]
    · rw [State.getF_setF_apart _ _ _ _ h (by decide) hf, State.getF_setF_apart _ _ _ _ h2 (by decide) hf,
        State.getF_setF_apart _ _ _ _ h1 (by decide) hf, State.getF_setF_apart _ _ _ _ h1 (by decide) hf,
        State.getF_setF_apart _ _ _ _ h (by decide) hf, State.getF_setF_apart _ _ _ _ h (by decide) hf]

theorem State.steeredTo_parent (hp : p < 64) : (s.steeredTo p depth m delay).getF aTimStatus F.timStatus_parent = p := by
  rw [State.getF_steeredTo, State.getF_setF_beside _ _ _ _ _ (by decide), State.getF_setF_apart _ _ _ _ (by decide) (by decide) (by decide),
    State.getF_setF_apart _ _ _ _ (by decide) (by decide) (by decide), State.getF_setF_apart _ _ _ _ (by decide) (by decide) (by decide),
    State.getF_setF_beside _ _ _ _ _ (by decide), State.getF_setF_same]
  exact Nat.mod_eq_of_lt hp

theorem State.steeredTo_depth (hd : depth < 64) : (s.steeredTo p depth m delay).getF aTimStatus F.timStatus_depth = depth := by
  rw [State.getF_steeredTo, State.getF_setF_beside _ _ _ _ _ (by decide), State.getF_setF_apart _ _ _ _ (by decide) (by decide) (by decide),
    State.getF_setF_apart _ _ _ _ (by decide) (by decide) (by decide), State.getF_setF_apart _ _ _ _ (by decide) (by decide) (by decide),
    State.getF_setF_same]
  exact Nat.mod_eq_of_lt hd

theorem State.steeredTo_holdover : (s.steeredTo p depth m delay).getF aTimStatus F.timStatus_holdover = 0 := by
  rw [State.getF_steeredTo, State.getF_setF_same]
  rfl

theorem State.steeredTo_incr : (s.steeredTo p depth m delay).getF aTimIncr F.timIncr_incr = steered (s.getF aTimIncr F.timIncr_incr) m := by
  rw [State.getF_steeredTo, State.getF_setF_apart _ _ _ _ (by decide) (by decide) (by decide), State.getF_setF_same]
  have := steered_range (s.getF aTimIncr F.timIncr_incr) m
  have hwidth : 2 ^ F.timIncr_incr.width = 1099511627776 := by decide
  exact Nat.mod_eq_of_lt (by omega)

/-- A large offset before admission is corrected by a phase step (R389). -/
theorem State.steeredTo_phase (hadm : s.admitted = false) (hfar : 65536000 < m.natAbs) :
    (s.steeredTo p depth m delay).pins.phase = some (BitVec.ofInt 64 (-m)) := by
  have hadm' : s.getF aBocState F.bocState_admitted = 0 := by simpa [State.admitted, State.flag] using hadm
  have h0 := (State.getF_steeredTo_other s p depth m delay (f := F.bocState_admitted) (by decide) (by decide) (by decide)
    (.inl (by decide : aBocState ≠ aTimStatus))).trans hadm'
  unfold State.steeredTo
  extract_lets written offsets steers s4
  have hpins : s4.getF aBocState F.bocState_admitted = (s.steeredTo p depth m delay).getF aBocState F.bocState_admitted := by
    simp only [State.steeredTo]
    split <;> rfl
  have h4 := hpins.trans h0
  rw [if_pos ⟨by simp [State.admitted, State.flag, h4], hfar⟩]

end

/-- A member with samples from its parent steers (R388 to R391). -/
theorem exec_steers {s : State} {p d : Nat} (hmember : s.manifest.isSome = true) (hroot : s.getF aTimStatus F.timStatus_root = 0)
    (hparent : s.parentPort (s.getF aTimStatus F.timStatus_rootIndex) = some p) (hd : (s.peerRoot p).2 = d) (hdeep : d < 40)
    (hsamples : (s.port p).samples ≠ []) : ∃ delay, exec .timeSteerUpdate s =
      .next ((s.steeredTo p (d + 1) (median ((s.port p).samples.map fun t => t.offset.toInt)) delay).updateLock
        (median ((s.port p).samples.map fun t => t.offset.toInt)) false).unsampled := by
  obtain ⟨manifest, hmanifest⟩ := Option.isSome_iff_exists.mp hmember
  have hdepth : depthFrom d = some (d + 1) := if_pos hdeep
  have hflag : s.flag aTimStatus F.timStatus_root = false := by simp [State.flag, hroot]
  have hempty : (s.port p).samples.isEmpty = false := by simpa using hsamples
  refine ⟨median ((s.port p).samples.map fun t => t.delay.toInt), ?_⟩
  show execTimeSteerUpdate s = _
  have hpeer : (s.setF aTimStatus F.timStatus_parent p).peerRoot p = s.peerRoot p := rfl
  simp only [execTimeSteerUpdate, hmanifest, hflag, hparent, hpeer, hd, hdepth, hempty, Bool.false_eq_true, if_false, Option.isNone_some]
  rfl

/-- Settles O27: the update's registers are read through its writes, and the arithmetic of the increment is `steered_spec`. -/
theorem timeSteering : Obligations.TimeSteering := by
  intro s p d x m old want hmember hroot hparent hd hdeep hp hsamples hlo hhi
  obtain ⟨delay, hrun⟩ := exec_steers hmember hroot hparent hd hdeep hsamples
  have hports : numPorts = 48 := rfl
  refine ⟨_, hrun, ?_⟩
  beta_reduce
  intro new
  have hread : ∀ (f : Fld), f.lo < 64 → f.lo ≠ F.timStatus_locked.lo →
      ((s.steeredTo p (d + 1) m delay).updateLock m false).unsampled.getF aTimStatus f = (s.steeredTo p
    (d + 1) m delay).getF aTimStatus f :=
    fun f hf hne => State.getF_updateLock _ m false (by decide) hf (.inr hne)
  have hnew : new = steered old m :=
    (State.getF_updateLock (s.steeredTo p (d + 1) m delay) m false (by decide) (by decide) (.inl (by decide))).trans (s.steeredTo_incr p
    (d + 1) m delay)
  obtain ⟨hcap, hdown, hup, hfits⟩ := steered_spec m hlo hhi
  have hframe : ∀ {β : Type} (g : State → β), (∀ s x, g { s with regs := x } = g s) → (∀ s x, g { s with flt := x } = g s) →
      (∀ s x, g { s with pins := x } = g s) → (∀ s x, g { s with ports := x } = g s) →
      g ((s.steeredTo p (d + 1) m delay).updateLock m false).unsampled = g s := fun g hregs hflt hpins hports =>
    (hports _ _).trans ((State.updateLock_frame g hregs hflt (fun s x _ => hpins s x) _ m false).trans
      (s.steeredTo_frame p (d + 1) m delay g hregs (fun s x => hpins s _)))
  refine ⟨(hread _ (by decide) (by decide)).trans (s.steeredTo_parent p (d + 1) m delay (by omega)),
    (hread _ (by decide) (by decide)).trans (s.steeredTo_depth p (d + 1) m delay (by omega)),
    (hread _ (by decide) (by decide)).trans (s.steeredTo_holdover p
    (d + 1) m delay), ?_, ?_, ?_, ?_, ?_, ?_, ?_, ?_, State.samples_unsampled _, ?_, ?_⟩
  · exact hnew ▸ (steered_range old m).1
  · exact hnew ▸ (steered_range old m).2
  · exact hnew ▸ hcap
  · exact hnew ▸ hdown
  · exact hnew ▸ hup
  · exact hnew ▸ hfits
  · intro hadm hfar
    exact (State.updateLock_frame (fun s => s.pins.phase) (fun _ _ => rfl) (fun _ _ => rfl) (fun _ _ h => h) _ m false).trans
      (s.steeredTo_phase p (d + 1) m delay hadm hfar)
  · intro hunlocked hgood hnear
    refine State.updateLock_locks _ ?_ ?_ hnear
    · exact (s.getF_steeredTo_other p (d + 1) m delay (by decide) (by decide) (by decide) (.inr rfl)).trans hunlocked
    · exact (s.steeredTo_frame p (d + 1) m delay (fun s => s.pins.good) (fun _ _ => rfl) (fun _ _ => rfl)).trans hgood
  · exact ⟨hframe State.cores (fun _ _ => rfl) (fun _ _ => rfl) (fun _ _ => rfl) (fun _ _ => rfl),
      hframe State.clusters (fun _ _ => rfl) (fun _ _ => rfl) (fun _ _ => rfl) (fun _ _ => rfl),
      hframe State.islands (fun _ _ => rfl) (fun _ _ => rfl) (fun _ _ => rfl) (fun _ _ => rfl)⟩
  · exact ⟨hframe State.mem (fun _ _ => rfl) (fun _ _ => rfl) (fun _ _ => rfl) (fun _ _ => rfl),
      hframe State.tags (fun _ _ => rfl) (fun _ _ => rfl) (fun _ _ => rfl) (fun _ _ => rfl),
      hframe State.bad (fun _ _ => rfl) (fun _ _ => rfl) (fun _ _ => rfl) (fun _ _ => rfl)⟩

end Sys2Proof.Machine
end

section
/-! Cold training and training records (R305 to R308, R316, R329). -/

namespace Sys2Proof.Machine

/-! ### Lane maps -/

theorem mem_usable_lt {o : Optics} {w : Nat} (h : w ∈ o.usable) : w < 9 :=
  List.mem_range.mp (List.mem_of_mem_filter (List.mem_of_mem_filter h))

theorem mem_order_lt (o : Optics) : ∀ w ∈ o.order, w < 9 := by
  have hfold : ∀ (ws l : List Nat), (∀ w ∈ ws, w < 9) → (∀ v ∈ l, v < 9) → ∀ v ∈ ws.foldl (fun l w =>
      (l.filter fun v => decide (o.ratio.getD v 0 ≤ o.ratio.getD w 0)) ++ [w] ++
        l.filter fun v => !decide (o.ratio.getD v 0 ≤ o.ratio.getD w 0)) l, v < 9 := by
    intro ws
    induction ws with
    | nil => exact fun l _ hl => hl
    | cons w ws ih =>
      intro l hws hl
      refine ih _ (fun v hv => hws v (List.mem_cons_of_mem w hv)) fun v hv => ?_
      simp only [List.mem_append, List.mem_singleton] at hv
      rcases hv with (hv | rfl) | hv
      · exact hl v (List.mem_of_mem_filter hv)
      · exact hws v List.mem_cons_self
      · exact hl v (List.mem_of_mem_filter hv)
  exact hfold o.usable [] (fun w hw => mem_usable_lt hw) (fun v hv => absurd hv List.not_mem_nil)

theorem mapOf_cons (w : Nat) (l : List Nat) : mapOf (w :: l) = w + 16 * mapOf l := by
  have hshift : ∀ (l : List Nat) (n : Nat), ((l.zipIdx (n + 1)).map fun v => v.1 * 2 ^ (4 * v.2)).sum =
      16 * ((l.zipIdx n).map fun v => v.1 * 2 ^ (4 * v.2)).sum := by
    intro l
    induction l with
    | nil => exact fun _ => rfl
    | cons v l ih =>
      intro n
      simp only [List.zipIdx_cons, List.map_cons, List.sum_cons, ih]
      ring
  simp only [mapOf, List.zipIdx_cons, List.map_cons, List.sum_cons, Nat.mul_zero, Nat.pow_zero, Nat.mul_one]
  rw [hshift l 0]

theorem mapOf_lt {l : List Nat} (h : ∀ w ∈ l, w < 16) : mapOf l < 16 ^ l.length := by
  induction l with
  | nil => decide
  | cons w l ih =>
    have hw := h w List.mem_cons_self
    have hl := ih fun v hv => h v (List.mem_cons_of_mem w hv)
    rw [mapOf_cons, List.length_cons, Nat.pow_succ]
    omega

/-- Lane `i` of a map stands on the `i`-th wavelength. -/
theorem bitsAt_mapOf {l : List Nat} (h : ∀ w ∈ l, w < 16) {i : Nat} (hi : i < l.length) : bitsAt (mapOf l) (4 * i) 4 = l.getD i 0 := by
  induction l generalizing i with
  | nil => exact absurd hi (Nat.not_lt_zero i)
  | cons w l ih =>
    have hw := h w List.mem_cons_self
    rw [mapOf_cons]
    cases i with
    | zero =>
      simp only [bitsAt, Nat.mul_zero, Nat.pow_zero, Nat.div_one, List.getD_cons_zero]
      omega
    | succ i =>
      rw [List.getD_cons_succ, ← ih (fun v hv => h v (List.mem_cons_of_mem w hv)) (Nat.lt_of_succ_lt_succ hi), bitsAt, bitsAt,
        show 2 ^ (4 * (i + 1)) = 16 * 2 ^ (4 * i) by rw [Nat.mul_succ, Nat.add_comm, Nat.pow_add], ← Nat.div_div_eq_div_mul,
        show (w + 16 * mapOf l) / 16 = mapOf l by omega]

theorem optics_failed_lt (o : Optics) : o.failed < 2 ^ F.lnkLanes_failed.width := Nat.lt_of_le_of_lt (Nat.sub_le _ _) (by decide)

/-! ### A link that trained comes up -/

theorem State.bare_checkDelay (s : State) (p : Nat) : (s.checkDelay p).bare = s.bare := by
  unfold State.checkDelay
  extract_lets a st t
  split
  · rfl
  · split
    · exact s.bare_setF ..
    · split
      · exact s.bare_setF ..
      · exact (State.bare_sendTo ..).trans (s.bare_setF ..)

theorem State.getF_checkDelay (s : State) {p b : Nat} {g : Fld} (hb : b ≠ aCrpConfig p) (hg : g.lo < 64) :
    (s.checkDelay p).getF b g = s.getF b g := by
  have hset : ∀ v, (s.setF (aCrpConfig p) F.crpConfig_sched v).getF b g = s.getF b g := fun v =>
    s.getF_setF_apart _ _ v hb (by decide) hg
  unfold State.checkDelay
  extract_lets a st t
  split
  · rfl
  · split
    · exact hset _
    · split
      · exact hset _
      · exact (State.getF_faultReport ..).trans (hset _)

/-- The registers of a link's block other than those of the planned lanes' delays. -/
theorem linkReg_offDelay {p k : Nat} (hp : p < numPorts) (hk : k < 0x200) :
    prtBase p + 0x8000 + k ≠ aCrpDelay p ∧ prtBase p + 0x8000 + k ≠ aTimCorr p := by
  have hbound : p < 48 := hp
  constructor
  · unfold aCrpDelay
    omega
  · unfold aTimCorr prtBase timBase
    omega

/-- Fields written in another register, their places checked by evaluation. -/
theorem State.getF_setFs_elsewhere (s : State) {a b : Nat} (hb : b ≠ a) {l : List (Fld × Nat)}
    (hl : (l.all fun q => decide (q.1.lo < 64)) = true) {g : Fld} (hg : g.lo < 64) : (s.setFs a l).getF b g = s.getF b g :=
  State.getF_setFs_apart hb (fun q hq => of_decide_eq_true (List.all_eq_true.mp hl q hq)) hg s

/-- What a state of a link that has come up shows: the port fresh, the width, the map, the failed wavelengths and the peer's serial. -/
structure State.CameUp (s t : State) (p lanes map failed : Nat) : Prop where
  rest   : t.shell = s.shell
  port   : ∃ e, t.port p = { (s.port p).initLink with encTx := e, encRx := e }
  state  : t.lnk p = 6 ∨ t.lnk p = if lanes = 8 then 2 else 3
  lanes  : t.getF (aLnkState p) F.lnkState_lanes = lanes % 2 ^ F.lnkState_lanes.width
  map    : t.getF (aLnkLanes p) F.lnkLanes_map = map % 2 ^ F.lnkLanes_map.width
  failed : t.getF (aLnkLanes p) F.lnkLanes_failed = failed % 2 ^ F.lnkLanes_failed.width
  serial : t.getF (aLnkPartner p) F.lnkPartner_serial = s.getF (aLnkPartner p) F.lnkPartner_serial

theorem State.bringUp_cameUp (s : State) {p : Nat} (hp : p < numPorts) (map lanes spare failed delay16 rtt skew deskew : Nat) :
    s.CameUp (s.bringUp p map lanes spare failed delay16 rtt skew deskew) p lanes map failed := by
  unfold State.bringUp
  extract_lets again s1 s2 ser s3 s4 s5 s6 s7 s8 e
  have hk : ∀ {k : Nat}, k < 0x200 → _ := fun {k} h => linkReg_apart (p := p) (k := k) hp h
  have h2 : s2.bare = s1.bare ∧ ∀ k < 0x200, ∀ g : Fld, g.lo < 64 → s2.getF (prtBase p + 0x8000 + k) g = s.getF (prtBase p + 0x8000 + k) g := by
    simp only [s2]
    split
    · exact ⟨rfl, fun k h g hg => State.getF_setF_apart _ _ _ _ (hk h).2.2.2.2.2.1 (by decide) hg⟩
    · exact ⟨rfl, fun k h g hg => rfl⟩
  have h8 : s8.bare = s7.bare := (State.bare_classify _ p).trans (s7.bare_checkDelay p)
  have hbare : s8.bare = s1.bare := by
    rw [h8, ← h2.1]
    simp only [s7, s6, s5, s4, s3, State.bare_setF, State.bare_setFs]
  have hports : s8.port p = (s.port p).initLink := by
    rw [State.port, State.of_bare State.ports (fun _ => rfl) hbare]
    exact s.port_setPort_same p _
  -- the fields of the link's block after the writes of its own registers
  have hread7 : ∀ k < 0x200, ∀ g : Fld, g.lo < 64 → s7.getF (prtBase p + 0x8000 + k) g = s6.getF (prtBase p + 0x8000 + k) g :=
    fun k h g hg => (State.getF_setF_apart _ _ _ _ (linkReg_offDelay hp h).2 (by decide) hg).trans
      (State.getF_setF_apart _ _ _ _ (linkReg_offDelay hp h).1 (by decide) hg)
  have hread8 : ∀ k < 0x200, ∀ g : Fld, g.lo < 64 → (k ≠ 0 ∨ g.lo ≠ 0) →
      s8.getF (prtBase p + 0x8000 + k) g = s6.getF (prtBase p + 0x8000 + k) g := fun k h g hg hne =>
    ((State.classify_link _ hp).1 k h g hg hne).trans ((s7.getF_checkDelay (hk h).2.2.2.2.2.1 hg).trans (hread7 k h g hg))
  have hread5 : ∀ k < 0x200, k ≠ 0x10 → k ≠ 0x28 → ∀ g : Fld, g.lo < 64 →
      s6.getF (prtBase p + 0x8000 + k) g = s4.getF (prtBase p + 0x8000 + k) g := fun k h hrtt hcredit g hg =>
    (s5.getF_setFs_elsewhere (by simp only [aLnkCredit]; omega) rfl hg).trans (s4.getF_setFs_elsewhere
    (by simp only [aLnkRtt]; omega) rfl hg)
  have hlanes : ∀ g : Fld, g.lo < 64 → s4.getF (aLnkState p) g = s3.getF (aLnkState p) g := fun g hg =>
    s3.getF_setFs_elsewhere (by simp only [aLnkState, aLnkLanes]; omega) rfl hg
  obtain ⟨-, hlnk⟩ := (s7.checkDelay p).classify_link hp
  have hstate : (s7.checkDelay p).lnk p = s3.lnk p :=
    (s7.getF_checkDelay (hk (k := 0) (by decide)).2.2.2.2.2.1 (by decide)).trans ((hread7 0 (by decide) _ (by decide)).trans
      ((hread5 0 (by decide) (by decide) (by decide) _ (by decide)).trans (hlanes _ (by decide))))
  have hnodup : [0, 4, 8, 9, 13, 14, 15, 16].Nodup := by decide
  have hpair : [0, 32].Nodup := by decide
  have hwrote : s3.lnk p = if lanes = 8 then 2 else 3 := (State.getF_setFs_mem (by exact hnodup) List.mem_cons_self s2).trans (by split <;> rfl)
  refine ⟨(State.shell_setPort ..).trans ((State.shell_of_bare hbare).trans (s.shell_setPort p _)), ⟨e, ?_⟩, ?_, ?_, ?_, ?_, ?_⟩
  · exact (State.port_setPort_same s8 p _).trans (congrArg (fun x : Port => { x with encTx := e, encRx := e }) hports)
  · rw [hstate, hwrote] at hlnk
    exact hlnk
  · exact (hread8 0 (by decide) F.lnkState_lanes (by decide) (.inr (by decide))).trans
      ((hread5 0 (by decide) (by decide) (by decide) _ (by decide)).trans ((hlanes _ (by decide)).trans
        (State.getF_setFs_mem (by exact hnodup) (List.mem_cons_of_mem _ List.mem_cons_self) s2)))
  · exact (hread8 8 (by decide) F.lnkLanes_map (by decide) (.inl (by decide))).trans
      ((hread5 8 (by decide) (by decide) (by decide) _ (by decide)).trans
        (State.getF_setFs_mem (by exact hpair) List.mem_cons_self s3))
  · exact (hread8 8 (by decide) F.lnkLanes_failed (by decide) (.inl (by decide))).trans
      ((hread5 8 (by decide) (by decide) (by decide) _ (by decide)).trans
        (State.getF_setFs_mem (by exact hpair) (List.mem_cons_of_mem _ List.mem_cons_self) s3))
  · have h34 : s4.getF (aLnkPartner p) F.lnkPartner_serial = s2.getF (aLnkPartner p) F.lnkPartner_serial :=
      (s3.getF_setFs_elsewhere (by simp only [aLnkPartner, aLnkLanes]; omega) rfl (by decide)).trans
        (s2.getF_setFs_elsewhere (by simp only [aLnkPartner, aLnkState]; omega) rfl (by decide))
    exact (hread8 0x30 (by decide) F.lnkPartner_serial (by decide) (.inl (by decide))).trans
      ((hread5 0x30 (by decide) (by decide) (by decide) _ (by decide)).trans (h34.trans (h2.2 0x30 (by decide) _ (by decide))))

/-- The port of a link that came up is fresh (R316, R326, R329). -/
theorem State.CameUp.fresh {s t : State} {p lanes map failed : Nat} (h : s.CameUp t p lanes map failed) :
    (t.port p).next = 0 ∧ (t.port p).exp = 0 ∧ (t.port p).buf = [] ∧ (t.port p).proc = .none ∧
      (∀ v < 6, Tbl.get 0 (t.port p).credit v = nominal v) ∧ (t.port p).trainStep = (s.port p).trainStep := by
  obtain ⟨e, hport⟩ := h.port
  have hcredit : ∀ v < 6, Tbl.get 0 nominalTbl v = nominal v := by decide
  rw [hport]
  exact ⟨rfl, rfl, rfl, rfl, hcredit, rfl⟩

/-- Lane `i` of a link that came up on the wavelengths of a list. -/
theorem State.CameUp.laneWl {s t : State} {p lanes failed : Nat} {l : List Nat} (h : s.CameUp t p lanes (mapOf l) failed)
    (hl : ∀ w ∈ l, w < 16) (hlen : l.length ≤ 8) {i : Nat} (hi : i < l.length) : t.laneWl p i = l.getD i 0 := by
  have hmap : mapOf l < 2 ^ F.lnkLanes_map.width :=
    Nat.lt_of_lt_of_le (mapOf_lt hl) (Nat.pow_le_pow_right (by decide) hlen)
  rw [State.laneWl, h.map, Nat.mod_eq_of_lt hmap]
  exact bitsAt_mapOf hl hi

/-- Training that fails says why (R306, R307). -/
theorem State.trainFail_effects (s : State) (p : Nat) (o : Optics) :
    (s.trainFail p o.failed).lnk p = 0 ∧ (s.trainFail p o.failed).getF (aLnkState p) F.lnkState_downCause = 3 ∧
      (s.trainFail p o.failed).getF (aLnkLanes p) F.lnkLanes_failed = o.failed ∧ (s.trainFail p o.failed).bare = s.bare := by
  have hread : ∀ g : Fld, g.lo < 64 → (s.trainFail p o.failed).getF (aLnkState p) g =
      (s.setFs (aLnkState p) [(F.lnkState_state, 0), (F.lnkState_lanes, 0), (F.lnkState_downCause, 3)]).getF (aLnkState p) g := fun g hg =>
    State.getF_setF_apart _ _ _ _ (by simp only [aLnkState, aLnkLanes]; omega) (by decide) hg
  refine ⟨(hread _ (by decide)).trans ?_, (hread _ (by decide)).trans ?_, ?_, (State.bare_setF ..).trans (State.bare_setFs ..)⟩
  · exact State.getF_setFs_mem (by decide) List.mem_cons_self s
  · exact State.getF_setFs_mem (by decide) (List.mem_cons_of_mem _ (List.mem_cons_of_mem _ List.mem_cons_self)) s
  · exact (State.getF_setF_same ..).trans (Nat.mod_eq_of_lt (optics_failed_lt o))

/-! ### Records of the steps 5 to 7 -/

/-- What a record of the step that a port is in changes: the port, and at step 6 the peer's serial (R308). -/
theorem State.takeRecord_effects (s : State) (p b : Nat) :
    ((s.takeRecord p b).port p).trainStep = (s.port p).trainStep ∧ ((s.takeRecord p b).port p).trainGot = true ∧
      (s.takeRecord p b).lnk p = s.lnk p ∧ (s.takeRecord p b).shell = s.shell ∧
      ((s.port p).trainStep = 5 → ((s.takeRecord p b).port p).txMap = bitsAt b 160 32) ∧
      ((s.port p).trainStep = 6 → (s.takeRecord p b).getF (aLnkPartner p) F.lnkPartner_serial = bitsAt b 192 64 ∧
        ((s.takeRecord p b).port p).peerRand = BitVec.ofNat 128 (b / 2 ^ 288) ∧
        ((s.takeRecord p b).port p).peerCert = BitVec.ofNat 256 (b / 2 ^ 416)) := by
  have hport : ∀ x, (s.setPort p x).port p = x := s.port_setPort_same p
  unfold State.takeRecord
  extract_lets x
  split
  next hstep =>
    rw [hport]
    exact ⟨rfl, rfl, rfl, rfl, fun _ => rfl, fun h => absurd (hstep.symm.trans h) (by decide)⟩
  next hstep =>
    have hserial : bitsAt b 192 64 < 2 ^ F.lnkPartner_serial.width := Nat.mod_lt _ (by decide)
    rw [State.port_setF, hport]
    refine ⟨rfl, rfl, ?_, rfl, fun h => absurd (hstep.symm.trans h) (by decide), fun _ => ⟨?_, rfl, rfl⟩⟩
    · exact State.getF_setF_apart _ _ _ _ (by simp only [aLnkState, aLnkPartner]; omega) (by decide) (by decide)
    · rw [State.getF_setF_same, Nat.mod_eq_of_lt hserial]
  next h5 h6 =>
    rw [hport]
    exact ⟨rfl, rfl, rfl, rfl, fun h => absurd h h5, fun h => absurd h h6⟩

/-! ### The three commands -/

/-- What a port that trains again shows after its optics' steps (R307). -/
def State.trainsAgain (s : State) (p lanes spare map failed skew : Nat) : State :=
  ((s.setFs (aLnkState p) [(F.lnkState_state, 1), (F.lnkState_lanes, lanes), (F.lnkState_spareWl, spare)]).setFs (aLnkLanes p)
    [(F.lnkLanes_map, map), (F.lnkLanes_failed, failed)]).setF (aLnkRtt p) F.lnkRtt_skew skew

theorem State.trainsAgain_effects (s : State) (p lanes spare map failed skew : Nat) :
    (s.trainsAgain p lanes spare map failed skew).lnk p = 1 ∧
      (s.trainsAgain p lanes spare map failed skew).getF (aLnkState p) F.lnkState_lanes = lanes % 2 ^ F.lnkState_lanes.width ∧
      (s.trainsAgain p lanes spare map failed skew).getF (aLnkLanes p) F.lnkLanes_failed = failed % 2 ^ F.lnkLanes_failed.width ∧
      (s.trainsAgain p lanes spare map failed skew).bare = s.bare := by
  unfold State.trainsAgain
  have htriple : [0, 4, 9].Nodup := by decide
  have hpair : [0, 32].Nodup := by decide
  have hread : ∀ (g : Fld), g.lo < 64 → (((s.setFs (aLnkState p) [(F.lnkState_state, 1), (F.lnkState_lanes, lanes), (F.lnkState_spareWl, spare)]).setFs
      (aLnkLanes p) [(F.lnkLanes_map, map), (F.lnkLanes_failed, failed)]).setF (aLnkRtt p) F.lnkRtt_skew skew).getF (aLnkState p) g =
        (s.setFs (aLnkState p) [(F.lnkState_state, 1), (F.lnkState_lanes, lanes), (F.lnkState_spareWl, spare)]).getF (aLnkState p) g :=
    fun g hg => (State.getF_setF_apart _ _ _ _ (by simp only [aLnkState, aLnkRtt]; omega) (by decide) hg).trans
      (State.getF_setFs_elsewhere _ (by simp only [aLnkState, aLnkLanes]; omega) rfl hg)
  refine ⟨(hread _ (by decide)).trans ?_, (hread _ (by decide)).trans ?_, ?_, ?_⟩
  · exact State.getF_setFs_mem (by exact htriple) List.mem_cons_self s
  · exact State.getF_setFs_mem (by exact htriple) (List.mem_cons_of_mem _ List.mem_cons_self) s
  · exact (State.getF_setF_apart _ _ _ _ (by simp only [aLnkLanes, aLnkRtt]; omega) (by decide) (by decide)).trans
      (State.getF_setFs_mem (by exact hpair) (List.mem_cons_of_mem _ List.mem_cons_self) _)
  · exact (State.bare_setF ..).trans ((State.bare_setFs ..).trans (State.bare_setFs ..))

section
variable {s : State} {p : Nat} (hp : p < numPorts)
include hp

/-- A training that finds four wavelengths brings the link up with the peer's serial (R307). -/
theorem exec_trains {env : TrainEnv} (hdown : s.lnk p < 2 ∨ 5 < s.lnk p) (hmany : 4 ≤ env.optics.order.length) :
    ∃ (s1 : State) (spare delay rtt skew deskew : Nat), exec (.coldTraining p env) s = .next (s1.bringUp p
      (mapOf (env.optics.order.take (if env.peerHalf = false ∧ 8 ≤ env.optics.order.length then 8 else 4)))
      (if env.peerHalf = false ∧ 8 ≤ env.optics.order.length then 8 else 4) spare env.optics.failed delay rtt skew deskew) ∧
      s.sameIslands s1 ∧ s.sameMemory s1 ∧ s1.getF (aLnkPartner p) F.lnkPartner_serial = env.serial.toNat := by
  have hhas : hasPort p = true := decide_eq_true hp
  have hlanes : (if env.peerHalf then 4 else lanesFor env.optics.order.length) =
      if env.peerHalf = false ∧ 8 ≤ env.optics.order.length then 8 else 4 := by
    cases env.peerHalf <;> simp [lanesFor, hmany]
  rw [← hlanes]
  refine ⟨_, _, _, _, _, _, (if_pos hhas).trans ((if_neg (by omega)).trans (if_neg (by omega))), ⟨rfl, rfl, rfl⟩, ⟨rfl, rfl, rfl⟩, ?_⟩
  exact (State.getF_setF_same s ..).trans (Nat.mod_eq_of_lt env.serial.isLt)

/-- A port that trains again is at step 5 with what its optics found (R307). -/
theorem exec_retries {o : Optics} (hdown : s.lnk p = 0) (hmany : 4 ≤ o.order.length) :
    CompletesWith (exec (.coldTrainingRetry ⟨p, o⟩) s) fun t =>
      t.lnk p = 1 ∧ (t.port p).trainStep = 5 ∧ t.getF (aLnkState p) F.lnkState_lanes = (if 8 ≤ o.order.length then 8 else 4) ∧
      t.getF (aLnkLanes p) F.lnkLanes_failed = o.failed ∧ s.sameIslands t ∧ s.sameMemory t := by
  have hhas : hasPort p = true := decide_eq_true hp
  have hlanes : lanesFor o.order.length % 2 ^ F.lnkState_lanes.width = if 8 ≤ o.order.length then 8 else 4 := by
    simp only [lanesFor, hmany, if_true]
    split <;> rfl
  obtain ⟨u, spare, skew, hrun, hstep, hisl, hmem⟩ : ∃ (u : State) (spare skew : Nat), exec (.coldTrainingRetry ⟨p, o⟩) s =
      .next (u.trainsAgain p (lanesFor o.order.length) spare (mapOf (o.order.take (lanesFor o.order.length))) o.failed skew) ∧
      (u.port p).trainStep = 5 ∧ s.sameIslands u ∧ s.sameMemory u :=
    ⟨_, _, _, (if_pos hhas).trans ((if_pos hdown).trans (if_neg (by omega))), congrArg Port.trainStep (s.port_setPort_same p _),
      ⟨rfl, rfl, rfl⟩, ⟨rfl, rfl, rfl⟩⟩
  obtain ⟨hstate, hwidth, hfailed, hbare⟩ :=
    u.trainsAgain_effects p (lanesFor o.order.length) spare (mapOf (o.order.take (lanesFor o.order.length))) o.failed skew
  have hports := State.of_bare State.ports (fun _ => rfl) hbare
  exact ⟨_, hrun, hstate, (by rw [State.port, hports]; exact hstep), hwidth.trans hlanes,
    hfailed.trans (Nat.mod_eq_of_lt (optics_failed_lt o)), hisl.trans (State.sameIslands_of_bare hbare), hmem.trans (State.sameMemory_of_bare hbare)⟩

/-- A record of the port's step is taken, and the next step begins or the link comes up when it says that the peer has all (R308). -/
theorem exec_records {raw : BitVec 2304} {b : Nat} (hrecord : recordOf false raw = some b) (htrain : s.lnk p = 1)
    (hstep : bitsAt b 144 8 = (s.port p).trainStep) :
    (b.testBit 152 = false → exec (.trainingRecord p raw) s = .next (s.takeRecord p b)) ∧
    (b.testBit 152 = true → (s.port p).trainStep = 7 → ∃ map lanes spare failed delay rtt skew deskew, exec (.trainingRecord p raw) s =
      .next (((s.takeRecord p b).setPort p { (s.takeRecord p b).port p with trainStep := 8 }).bringUp p map lanes spare failed delay rtt
        skew deskew)) ∧
    (b.testBit 152 = true → (s.port p).trainStep ≠ 7 → exec (.trainingRecord p raw) s =
      .next ((s.takeRecord p b).setPort p { (s.takeRecord p b).port p with trainStep := (s.port p).trainStep + 1, trainGot := false })) := by
  have hhas : hasPort p = true := decide_eq_true hp
  have htaken : ¬(s.lnk p ≠ 1 ∨ bitsAt b 144 8 ≠ (s.port p).trainStep) := by simp [htrain, hstep]
  rw [exec_trainingRecord]
  refine ⟨fun hnot => ?_, fun hall hlast => ?_, fun hall hearlier => ?_⟩
  · simp only [execTrainingRecord, hhas, if_true, hrecord, htaken, if_false, hnot, Bool.not_false]
  · simp only [execTrainingRecord, hhas, if_true, hrecord, htaken, if_false, hall, Bool.not_true, Bool.false_eq_true]
    exact ⟨_, _, _, _, _, _, _, _, if_pos hlast⟩
  · simp only [execTrainingRecord, hhas, if_true, hrecord, htaken, if_false, hall, Bool.not_true, Bool.false_eq_true, hearlier]

end

/-- Settles O33: a link comes up as `State.bringUp_cameUp` says, and a record is taken as `State.takeRecord_effects` says. -/
theorem linkTraining : Obligations.LinkTraining := by
  intro s p hp fresh fails
  have hhas : hasPort p = true := decide_eq_true hp
  have hfails : ∀ o : Optics, fails (s.trainFail p o.failed) o := fun o => by
    obtain ⟨hstate, hcause, hfailed, hbare⟩ := s.trainFail_effects p o
    exact ⟨hstate, hcause, hfailed, State.of_bare State.ports (fun _ => rfl) hbare, State.frame_of_bare hbare⟩
  have hup : ∀ {u t : State} {lanes map failed : Nat}, u.CameUp t p lanes map failed → s.sameIslands u →
      s.sameMemory u → fresh t := fun h hisl hmem => by
    obtain ⟨hnext, hexp, hbuf, hproc, hcredit, -⟩ := h.fresh
    exact ⟨hnext, hexp, hbuf, hproc, hcredit, hisl.trans (State.sameIslands_of_shell h.rest), hmem.trans (State.sameMemory_of_shell h.rest)⟩
  refine ⟨?_, ?_, ?_⟩
  · intro env hdown good lanes
    refine ⟨fun hmany => ?_, fun hfew => ?_⟩
    · obtain ⟨s1, spare, delay, rtt, skew, deskew, hrun, hisl, hmem, hserial⟩ := exec_trains hp hdown hmany
      have h := s1.bringUp_cameUp hp (mapOf (good.take lanes)) lanes spare env.optics.failed delay rtt skew deskew
      have hlanes : (lanes = 8 ∨ lanes = 4) ∧ lanes ≤ good.length := by
        simp only [lanes]
        split <;> omega
      have htake : (good.take lanes).length = lanes := List.length_take_of_le hlanes.2
      refine ⟨_, hrun, hup h hisl hmem, h.lanes.trans (Nat.mod_eq_of_lt ?_), h.state, fun i hi => ?_, h.serial.trans hserial,
        h.failed.trans (Nat.mod_eq_of_lt (optics_failed_lt _))⟩
      · exact Nat.lt_of_le_of_lt (by omega) (by decide : 8 < 2 ^ F.lnkState_lanes.width)
      · rw [h.laneWl (fun w hw => Nat.lt_trans (mem_order_lt _ w (List.mem_of_mem_take hw)) (by decide)) (by omega) (by omega),
          List.getD_eq_getElem?_getD, List.getElem?_take_of_lt hi, List.getD_eq_getElem?_getD]
    · exact ⟨_, (if_pos hhas).trans ((if_neg (by omega)).trans (if_pos hfew)), hfails env.optics⟩
  · intro o hdown
    refine ⟨fun hmany => ?_, fun hfew => ?_⟩
    · exact exec_retries hp hdown hmany
    · exact ⟨_, (if_pos hhas).trans ((if_pos hdown).trans (if_pos hfew)), hfails o⟩
  · intro raw b hrecord htrain hstep
    obtain ⟨hwaits, hcomes, hsteps⟩ := exec_records hp hrecord htrain hstep
    obtain ⟨hsame, hgot, hlnk, hshell, hmap, hpeer⟩ := s.takeRecord_effects p b
    have hisl := State.sameIslands_of_shell hshell
    have hmem := State.sameMemory_of_shell hshell
    refine ⟨fun hnot => ⟨_, hwaits hnot, hsame, hgot, hlnk.trans htrain, hisl, hmem⟩, fun hall hlast => ?_, fun hall hearlier => ?_⟩
    · obtain ⟨map, lanes, spare, failed, delay, rtt, skew, deskew, hrun⟩ := hcomes hall hlast
      have h := State.bringUp_cameUp ((s.takeRecord p b).setPort p { (s.takeRecord p b).port p with trainStep := 8 }) hp map lanes spare failed
        delay rtt skew deskew
      refine ⟨_, hrun, hup h hisl hmem, ?_, ?_⟩
      · exact h.fresh.2.2.2.2.2.trans (congrArg Port.trainStep (State.port_setPort_same _ p _))
      · rcases h.state with hquarantined | hwidth
        · exact .inr (.inr hquarantined)
        · by_cases hfull : lanes = 8
          · exact .inl (hwidth.trans (if_pos hfull))
          · exact .inr (.inl (hwidth.trans (if_neg hfull)))
    · refine ⟨_, hsteps hall (by omega), ?_⟩
      simp only [State.port_setPort_same]
      exact ⟨trivial, hlnk.trans htrain, hmap, hpeer, hisl, hmem⟩

end Sys2Proof.Machine
end

section
/-! Reception of flits and the replay timer (R309 to R311, R318, R319, R326). -/

namespace Sys2Proof.Machine

/-! ### What the link fields of a flit change -/

/-- A port without what the link fields of a flit change: the send side's acks, replays, credits and the count of the injection. -/
def Port.incoming (x : Port) : Port :=
  { x with sentAt := [], buf := [], timer := none, replay := [], full := false, lastNak := [], credit := [], receipt := [], injRx := 0 }

theorem Port.of_incoming {β : Type} (g : Port → β) (hg : ∀ x, g x.incoming = g x) {x y : Port}
    (h : y.incoming = x.incoming) : g y = g x := by
  rw [← hg y, h, hg]

/-- The registers that the link fields of a flit leave alone. -/
def offAck (p b : Nat) (g : Fld) : Prop :=
  g.lo < 64 ∧ b ≠ aLnkRtt p ∧ b ≠ aLnkState p ∧ (b ≠ aLnkReplay p ∨ g.lo ≠ F.lnkReplay_nakReplays.lo)

/-- Between two states only the send side of the port and the registers of its acks differ. -/
structure State.Acked (s t : State) (p : Nat) : Prop where
  rest : t.shell = s.shell
  port : (t.port p).incoming = (s.port p).incoming
  regs : ∀ b g, offAck p b g → t.getF b g = s.getF b g

namespace State.Acked

variable {s t v : State} {p : Nat}

theorem refl (s : State) (p : Nat) : s.Acked s p := ⟨rfl, rfl, fun _ _ _ => rfl⟩

theorem trans (h : s.Acked t p) (k : t.Acked v p) : s.Acked v p :=
  ⟨k.rest.trans h.rest, k.port.trans h.port, fun b g hb => (k.regs b g hb).trans (h.regs b g hb)⟩

theorem foldl {α : Type} {step : State → α → State} (l : List α) (hstep : ∀ (s : State) (x : α), s.Acked (step s x) p) (s : State) :
    s.Acked (l.foldl step s) p := by
  induction l generalizing s with
  | nil => exact refl s p
  | cons x l ih => exact (hstep s x).trans (ih _)

theorem setPort {x : Port} (h : x.incoming = (s.port p).incoming) : s.Acked (s.setPort p x) p :=
  ⟨rfl, (congrArg Port.incoming (s.port_setPort_same p x)).trans h, fun _ _ _ => rfl⟩

theorem setF {a : Nat} {f : Fld} (v : Nat) (hf : f.lo < 64)
    (ha : a = aLnkRtt p ∨ a = aLnkState p ∨ (a = aLnkReplay p ∧ f.lo = F.lnkReplay_nakReplays.lo)) : s.Acked (s.setF a f v) p := by
  refine ⟨rfl, rfl, fun b g hb => ?_⟩
  obtain ⟨hg, hrtt, hstate, hreplay⟩ := hb
  rcases ha with rfl | rfl | ⟨rfl, hlo⟩
  · exact s.getF_setF_apart _ _ v hrtt hf hg
  · exact s.getF_setF_apart _ _ v hstate hf hg
  · by_cases hb : b = aLnkReplay p
    · subst hb
      have hne := hreplay.resolve_left fun h => h rfl
      exact s.getF_setF_beside _ f g v fun h => hne (h.trans hlo)
    · exact s.getF_setF_apart _ _ v hb hf hg

end State.Acked

theorem State.measureTrip_acked (s : State) (p : Nat) (covered : List Nat) : s.Acked (s.measureTrip p covered) p := by
  unfold State.measureTrip
  extract_lets x
  split
  extract_lets longest s1
  have h1 : s.Acked s1 p := State.Acked.setPort rfl
  split
  · exact (h1.trans (State.Acked.setF _ (by decide) (.inl rfl))).trans (State.Acked.setF _ (by decide) (.inr (.inl rfl)))
  · exact h1

theorem State.takeAck_acked (s : State) (p ack : Nat) : s.Acked (s.takeAck p ack) p := by
  unfold State.takeAck
  extract_lets n s1 x buf
  split
  · exact (s.measureTrip_acked p _).trans (State.Acked.setPort rfl)
  · exact State.Acked.refl s p

theorem State.takeNak_acked (s : State) (p sq : Nat) : s.Acked (s.takeNak p sq) p := by
  unfold State.takeNak
  extract_lets x now again
  split
  · refine State.Acked.trans ?_ (State.Acked.setF _ (by decide) (.inr (.inr ⟨rfl, rfl⟩)))
    exact State.Acked.setPort rfl
  · exact State.Acked.refl s p

/-- The link fields of a flit change nothing of what the port receives (R318, R326, R329). -/
theorem State.takeLink_acked (s : State) (p : Nat) (f : Flit) : s.Acked (s.takeLink p f) p := by
  unfold State.takeLink
  extract_lets s1 s2
  have h2 : s.Acked s2 p := (s.takeAck_acked p _).trans (State.Acked.foldl _ (fun s i => s.takeNak_acked p _) s1)
  refine h2.trans (State.Acked.foldl _ (fun s v => ?_) s2)
  exact State.Acked.setPort rfl

/-! ### What FEC reports -/

/-- The counts of FEC's reports touch the registers of the wavelengths alone (R304). -/
theorem State.countFec_effects (s : State) {p : Nat} (l : List FecCount) : (s.countFec p l).bare = s.bare ∧
    ∀ (b : Nat) (g : Fld), g.lo < 64 → (∀ w < 9, b ≠ aLnkWlErr p w) → (s.countFec p l).getF b g = s.getF b g := by
  unfold State.countFec
  refine ⟨State.bare_foldl _ (fun s c => ?_) s, fun b g hg hb => ?_⟩
  · exact (State.bare_bump ..).trans (State.bare_bump ..)
  refine List.foldlRecOn (motive := fun t : State => t.getF b g = s.getF b g) _ _ rfl fun t ht c hc => ?_
  have hc' : b ≠ aLnkWlErr p c.wl := hb c.wl (of_decide_eq_true (List.mem_filter.mp hc).2)
  exact ((State.getF_setF_apart _ _ _ _ hc' (by decide) hg).trans (State.getF_setF_apart _ _ _ _ hc' (by decide) hg)).trans ht

/-- A register of the link's block below those of the wavelengths, or one of another block. -/
theorem wlErr_apart {p b w : Nat} (hw : w < 16) (hb : b < prtBase p + 0x8100 ∨ prtBase p + 0x8200 ≤ b) : b ≠ aLnkWlErr p w := by
  unfold aLnkWlErr
  omega

/-! ### Release in order -/

theorem State.releaseHeld_empty (s : State) {p : Nat} (h : (s.port p).held = []) (n : Nat) : State.releaseHeld p n s = s := by
  cases n with
  | zero => rfl
  | succ n => simp only [State.releaseHeld, h, List.find?_nil]

/-- A held flit ahead of a gap stays held. -/
theorem State.releaseHeld_gap (s : State) {p : Nat} {f : Flit} (h : (s.port p).held = [f]) (hne : f.seq ≠ (s.port p).exp) (n : Nat) :
    State.releaseHeld p n s = s := by
  cases n with
  | zero => rfl
  | succ n => simp only [State.releaseHeld, h, List.find?_cons, decide_eq_false hne, List.find?_nil]

/-- The port once the expected flit is taken from those held. -/
def Port.passed (x : Port) : Port := { x with held := [], exp := (x.exp + 1) % 4096, lost := x.lost.filter fun q => q ≠ x.exp }

/-- The one held flit is the expected one: it is released. -/
theorem State.releaseHeld_next (s : State) {p : Nat} {f : Flit} (h : (s.port p).held = [f]) (heq : f.seq = (s.port p).exp) (n : Nat) :
    State.releaseHeld p (n + 1) s = State.releaseHeld p n ((s.setPort p (s.port p).passed).release p f) := by
  simp only [State.releaseHeld, h, List.find?_cons, decide_eq_true heq, Port.passed, List.erase_cons_head]

/-- The port without tags that wait. -/
def Port.judged (x : Port) : Port := { x with tagWait := [] }

theorem State.judgeTags_none (s : State) {p : Nat} (h : (s.port p).tagWait = []) : s.judgeTags p = s.setPort p (s.port p).judged := by
  simp only [State.judgeTags, h, List.filter_nil, List.foldl_nil, Port.judged]

/-- The port with a flit more to present. -/
def Port.presents (x : Port) (f : Flit) (slot : Nat) : Port := { x with arrived := x.arrived ++ [{ flit := f, slot := slot }] }

/-- The port with one flit held. -/
def Port.holding (x : Port) (f : Flit) : Port := { x with held := [f] }

/-- A scheduled flit on an open port that needs no tags is presented (R319). -/
theorem State.release_scheduled (s : State) {p : Nat} {f : Flit} (hkind : f.kind = 1) (henc : (s.port p).encRx = false)
    (hopen : s.fenced p = false) :
    s.release p f = s.setPort p ((s.port p).presents f s.breathSlot) := by
  simp only [State.release, henc, Bool.false_eq_true, if_false, hopen, false_and, hkind, Port.presents]

section
variable {w : State} {p : Nat} {f : Flit}

/-- The expected scheduled flit of an open port passes to presentation (R319). -/
theorem State.passes (hheld : (w.port p).held = [f]) (hseq : f.seq = (w.port p).exp) (hkind : f.kind = 1) (hopen : w.fenced p = false)
    (henc : (w.port p).encRx = false) (hwait : (w.port p).tagWait = []) (n : Nat) :
    ∃ slot, (State.releaseHeld p (n + 1) w).judgeTags p =
      ((w.setPort p (w.port p).passed).setPort p ((w.port p).passed.presents f slot)).setPort p
    ((w.port p).passed.presents f slot).judged := by
  refine ⟨(w.setPort p (w.port p).passed).breathSlot, ?_⟩
  have hport : (w.setPort p (w.port p).passed).port p = (w.port p).passed := w.port_setPort_same p _
  have hrelease := State.release_scheduled (w.setPort p (w.port p).passed) hkind (by rw [hport]; exact henc) hopen
  rw [hport] at hrelease
  rw [State.releaseHeld_next w hheld hseq, hrelease, State.releaseHeld_empty _ (by rw [State.port_setPort_same]; rfl),
    State.judgeTags_none _ (by rw [State.port_setPort_same]; exact hwait), State.port_setPort_same]

/-- A flit ahead of a gap is held (R319). -/
theorem State.holds_gap (hheld : (w.port p).held = [f]) (hseq : f.seq ≠ (w.port p).exp) (hwait : (w.port p).tagWait = []) (n : Nat) :
    (State.releaseHeld p n w).judgeTags p = w.setPort p (w.port p).judged := by
  rw [State.releaseHeld_gap w hheld hseq, State.judgeTags_none w hwait]

end

/-! ### A valid flit -/

section
variable {s : State} {p : Nat} {f : Flit}

/-- A flit seen before is counted (R319). -/
theorem State.onFlit_duplicate (hkind : f.kind ≠ 0) (h : 2048 ≤ seqDist ((s.takeLink p f).port p).exp f.seq) :
    s.onFlit p f = (s.takeLink p f).bump (aLnkReplay p) F.lnkReplay_duplicates 1 := by
  simp only [State.onFlit, if_neg hkind, if_pos (Or.inl h : 2048 ≤ seqDist ((s.takeLink p f).port p).exp f.seq ∨ _)]

/-- A scheduled flit that is not far ahead and finds room is held, and what can go is released (R319, R289). -/
theorem State.onFlit_held (hkind : f.kind = 1) (hnear : seqDist ((s.takeLink p f).port p).exp f.seq < 64)
    (hheld : ((s.takeLink p f).port p).held = []) (hstage : ((s.takeLink p f).port p).stage.length < 64)
    (hblocked : ((s.takeLink p f).port p).blocked = []) :
    s.onFlit p f = (State.releaseHeld p 65 ((s.takeLink p f).setPort p (((s.takeLink p f).port p).holding f))).judgeTags p := by
  have hnew : ¬(2048 ≤ seqDist ((s.takeLink p f).port p).exp f.seq ∨ ((s.takeLink p f).port p).holds f.seq = true) := by
    simp only [Port.holds, hheld, List.any_nil, Bool.false_eq_true, or_false]
    omega
  have hroom : ((s.takeLink p f).port p).room f = true := by simp [Port.room, hkind, hstage, hblocked]
  simp only [State.onFlit, hkind, Nat.one_ne_zero, if_false, hnew, if_neg (Nat.not_le.mpr hnear), hroom, Bool.not_true, Bool.false_eq_true,
    hheld, List.nil_append, Port.holding]

end

/-- A sequenced flit is counted for the injection (R343). -/
def State.tallied (s : State) (p : Nat) (f : Flit) : State :=
  if f.kind = 0 then s else s.setPort p { s.port p with injRx := (s.port p).injRx + 1 }

theorem State.tallied_acked (s : State) (p : Nat) (f : Flit) : s.Acked (s.tallied p f) p := by
  unfold State.tallied
  split
  · exact State.Acked.refl s p
  · exact State.Acked.setPort rfl

/-- What the FEC counts of a flit leave is what its parity and the injection are judged by. -/
theorem State.countFec_judges (s : State) {p : Nat} (fec : List FecCount) : (s.countFec p fec).port p = s.port p ∧
    (s.countFec p fec).halfWidth p = s.halfWidth p ∧
    (s.countFec p fec).getF (aLnkInjCtl p) F.lnkInjCtl_enable = s.getF (aLnkInjCtl p) F.lnkInjCtl_enable := by
  obtain ⟨hbare, hregs⟩ := s.countFec_effects (p := p) fec
  refine ⟨congrArg (Tbl.get Port.reset · p) (State.of_bare State.ports (fun _ => rfl) hbare), ?_, ?_⟩
  · rw [State.halfWidth, hregs _ _ (by decide) fun w hw => wlErr_apart (by omega) (.inl (by unfold aLnkState; omega)), State.halfWidth]
  · exact hregs _ _ (by decide) fun w hw => wlErr_apart (by omega) (.inr (by unfold aLnkInjCtl; omega))

/-- What a flit's counts and link fields leave of the state. -/
structure State.Heard (s t : State) (p : Nat) : Prop where
  rest : t.shell = s.shell
  port : (t.port p).incoming = (s.port p).incoming
  regs : ∀ (b : Nat) (g : Fld), offAck p b g → (∀ w < 9, b ≠ aLnkWlErr p w) → t.getF b g = s.getF b g

/-- A flit that is not dropped is taken (R311, R319, R343). -/
theorem exec_takesFlit {s : State} {p : Nat} {raw : BitVec 2304} {fec : List FecCount} (hp : p < numPorts) (hup : s.linkUp p = true)
    (hgood : badLanes (s.halfWidth p) raw = 0) (hinj : s.getF (aLnkInjCtl p) F.lnkInjCtl_enable = 0) :
    ∃ u : State, exec (.flitReceive p raw fec) s = .next (u.onFlit p (rawFlit raw)) ∧ s.Heard (u.takeLink p (rawFlit raw)) p := by
  have hhas : hasPort p = true := decide_eq_true hp
  obtain ⟨hbare, hregs⟩ := s.countFec_effects (p := p) fec
  obtain ⟨hport, hhalf, henable⟩ := s.countFec_judges (p := p) fec
  have hdrop : ¬(s.countFec p fec).injectDrop p (rawFlit raw) = true := by simp [State.injectDrop, State.flag, henable, hinj]
  have hlive : ¬(!(s.linkUp p || decide (s.lnk p = 6))) = true := by simp [hup]
  have hparity : ¬badLanes ((s.countFec p fec).halfWidth p) raw ≠ 0 := by simp [hhalf, hgood]
  refine ⟨(s.countFec p fec).tallied p (rawFlit raw), (if_pos hhas).trans ((if_neg hlive).trans ((if_neg hparity).trans (if_neg hdrop))), ?_⟩
  have h := ((s.countFec p fec).tallied_acked p (rawFlit raw)).trans (State.takeLink_acked _ p (rawFlit raw))
  exact ⟨h.rest.trans (State.shell_of_bare hbare), h.port.trans (congrArg Port.incoming hport),
    fun b g hb hw => (h.regs b g hb).trans (hregs b g hb.1 hw)⟩

/-! ### A flit that fails parity -/

/-- The port with the failures of its last millisecond. -/
def Port.failing (x : Port) (fails : List ParFail) : Port := { x with fails := fails }

/-- The first failure of a millisecond is counted, and a port with a spare asks for nothing yet (R311, R333, R336). -/
theorem State.parityFail_first (s : State) {p : Nat} (bad : BitVec 8) (hfails : (s.port p).fails = [])
    (hspare : s.getF (aLnkState p) F.lnkState_spare = 1) :
    (s.parityFail p bad true).shell = s.shell ∧ (∃ fails, (s.parityFail p bad true).port p = (s.port p).failing fails) ∧
      (s.parityFail p bad true).getF (aLnkParity p) F.lnkParity_failed = raised F.lnkParity_failed (s.getF
    (aLnkParity p) F.lnkParity_failed) 1 := by
  unfold State.parityFail
  extract_lets s1 s2 x fails s3 s4 above
  have hwl : ∀ (s : State) (i : Nat), s.laneWl p i < 16 := fun s i => Nat.mod_lt _ (by decide)
  have h2 : s2.bare = s.bare ∧ ∀ (b : Nat) (g : Fld), g.lo < 64 → (b < prtBase p + 0x8100 ∨ prtBase p + 0x8200 ≤ b) → s2.getF b g = s1.getF b g := by
    refine ⟨(State.bare_foldl _ (fun s i => State.bare_bump s (aLnkWlErr p (s.laneWl p i)) F.lnkWlErr_parity 1) s1).trans (s.bare_bump ..), fun b g hg hb => ?_⟩
    refine List.foldlRecOn (motive := fun t : State => t.getF b g = s1.getF b g) _ _ rfl fun t ht i _ => ?_
    exact (State.getF_setF_apart _ _ _ _ (wlErr_apart (hwl t i) hb) (by decide) hg).trans ht
  have hport : x = s.port p := congrArg (Tbl.get Port.reset · p) (State.of_bare State.ports (fun _ => rfl) h2.1)
  have hone : fails.length = 1 := by simp [fails, hport, Port.recent, hfails]
  have habove : above = none := by
    refine List.find?_eq_none.mpr fun i _ => ?_
    have := List.length_filter_le (fun f : ParFail => f.lanes.getLsbD i) fails
    simp only [decide_eq_true_eq]
    omega
  have h4 : s4.bare = s3.bare ∧ ∀ (b : Nat) (g : Fld), g.lo < 64 → (b ≠ aLnkParity p ∨ g.lo ≠ F.lnkParity_windowMax.lo) → s4.getF b g = s2.getF b g := by
    simp only [s4]
    split
    · refine ⟨State.bare_setF .., fun b g hg hb => ?_⟩
      by_cases hreg : b = aLnkParity p
      · subst hreg
        exact State.getF_setF_beside _ _ _ _ _ (hb.resolve_left fun h => h rfl)
      · exact State.getF_setF_apart _ _ _ _ hreg (by decide) hg
    · exact ⟨rfl, fun _ _ _ _ => rfl⟩
  have hstate : s4.getF (aLnkState p) F.lnkState_spare = 1 := by
    rw [h4.2 _ _ (by decide) (.inl (by unfold aLnkState aLnkParity; omega)), h2.2 _ _ (by decide) (.inl (by unfold aLnkState; omega))]
    exact (State.getF_setF_apart _ _ _ _ (by unfold aLnkState aLnkParity; omega) (by decide) (by decide)).trans hspare
  have hflag : s4.flag (aLnkState p) F.lnkState_spare = true := by simp [State.flag, hstate]
  rw [if_neg (by decide), if_pos hflag, habove]
  rw [if_neg (by omega)]
  refine ⟨(State.shell_of_bare h4.1).trans ((s2.shell_setPort p _).trans (State.shell_of_bare h2.1)), ⟨fails, ?_⟩, ?_⟩
  · rw [State.port, State.of_bare State.ports (fun _ => rfl) h4.1]
    exact (s2.port_setPort_same p _).trans (congrArg (Port.failing · fails) hport)
  · rw [h4.2 _ _ (by decide) (.inr (by decide)), h2.2 _ _ (by decide) (.inl (by unfold aLnkParity; omega))]
    exact s.getF_bump_same _ _ 1

/-! ### The replay timer -/

/-- The port with every unacked flit queued for replay. -/
def Port.goneBack (x : Port) (t : Nat) : Port := { x with replay := x.buf.map Flit.seq, timer := some t }

/-! ### The obligation -/

section
variable {s v : State} {p : Nat} {f : Flit}

theorem State.holding_port (v : State) (p : Nat) (f : Flit) : (v.setPort p ((v.port p).holding f)).port p = (v.port p).holding f :=
  v.port_setPort_same p _

/-- What the port holds once a flit was held, passed and presented. -/
theorem Port.passed_holding (x : Port) (f : Flit) (slot : Nat) :
    ((x.holding f).passed.presents f slot).judged.arrived = x.arrived ++ [{ flit := f, slot := slot }] ∧
      ((x.holding f).passed.presents f slot).judged.exp = (x.exp + 1) % 4096 ∧ ((x.holding f).passed.presents f slot).judged.held = [] :=
  ⟨rfl, rfl, rfl⟩

/-- What a port passes on when its expected scheduled flit was heard. -/
theorem State.Heard.passes (h : s.Heard v p) (hopen : v.fenced p = false) (henc : (s.port p).encRx = false) (hwait :
    (s.port p).tagWait = [])
    (hkind : f.kind = 1) (hseq : f.seq = (s.port p).exp) :
    let t := (State.releaseHeld p 65 (v.setPort p ((v.port p).holding f))).judgeTags p
    (∃ slot, (t.port p).arrived = (s.port p).arrived ++ [{ flit := f, slot := slot }]) ∧ (t.port p).exp = ((s.port p).exp + 1) % 4096 ∧
      (t.port p).held = [] ∧ t.shell = s.shell := by
  have hexp : (v.port p).exp = (s.port p).exp := Port.of_incoming Port.exp (fun _ => rfl) h.port
  have harrived : (v.port p).arrived = (s.port p).arrived := Port.of_incoming Port.arrived (fun _ => rfl) h.port
  have henc' : (v.port p).encRx = false := (Port.of_incoming Port.encRx (fun _ => rfl) h.port).trans henc
  have hwait' : (v.port p).tagWait = [] := (Port.of_incoming Port.tagWait (fun _ => rfl) h.port).trans hwait
  have hport := v.holding_port p f
  intro t
  obtain ⟨slot, ht⟩ := State.passes (w := v.setPort p ((v.port p).holding f)) (f := f) (by rw [hport]; rfl) (by rw [hport]; exact hseq.trans hexp.symm)
    hkind hopen (by rw [hport]; exact henc') (by rw [hport]; exact hwait') 64
  rw [hport] at ht
  have htp : t.port p = _ := (congrArg (State.port · p) ht).trans (State.port_setPort_same _ p _)
  obtain ⟨hmore, hnext, hempty⟩ := Port.passed_holding (v.port p) f slot
  refine ⟨⟨slot, ?_⟩, ?_, ?_, ?_⟩
  · rw [htp, hmore, harrived]
  · rw [htp, hnext, hexp]
  · rw [htp, hempty]
  · rw [show t = _ from ht, State.shell_setPort, State.shell_setPort, State.shell_setPort, State.shell_setPort]
    exact h.rest

/-- A flit heard ahead of a gap is held. -/
theorem State.Heard.holds (h : s.Heard v p) (hwait : (s.port p).tagWait = []) (hseq : f.seq ≠ (s.port p).exp) :
    let t := (State.releaseHeld p 65 (v.setPort p ((v.port p).holding f))).judgeTags p
    (t.port p).held = [f] ∧ (t.port p).exp = (s.port p).exp ∧ (t.port p).arrived = (s.port p).arrived ∧ t.shell = s.shell := by
  have hexp : (v.port p).exp = (s.port p).exp := Port.of_incoming Port.exp (fun _ => rfl) h.port
  have harrived : (v.port p).arrived = (s.port p).arrived := Port.of_incoming Port.arrived (fun _ => rfl) h.port
  have hwait' : (v.port p).tagWait = [] := (Port.of_incoming Port.tagWait (fun _ => rfl) h.port).trans hwait
  have hport := v.holding_port p f
  intro t
  have ht := State.holds_gap (w := v.setPort p ((v.port p).holding f)) (f := f) (by rw [hport]; rfl)
    (by rw [hport]; exact fun h => hseq (h.trans hexp)) (by rw [hport]; exact hwait') 65
  rw [hport] at ht
  have htp : t.port p = _ := (congrArg (State.port · p) ht).trans (State.port_setPort_same _ p _)
  refine ⟨congrArg Port.held htp, (congrArg Port.exp htp).trans hexp, (congrArg Port.arrived htp).trans harrived, ?_⟩
  rw [show t = _ from ht, State.shell_setPort, State.shell_setPort]
  exact h.rest

end

/-- The register of the fence lies apart from a link's block. -/
theorem offAck_fence {p : Nat} (hp : p < numPorts) : offAck p aGmuFence F.gmuFence_fenced := by
  obtain ⟨-, -, -, hstate, -⟩ := linkReg_apart (k := 0) hp (by decide)
  obtain ⟨-, -, -, hrtt, -⟩ := linkReg_apart (k := 0x10) hp (by decide)
  obtain ⟨-, -, -, hreplay, -⟩ := linkReg_apart (k := 0x18) hp (by decide)
  exact ⟨by decide, hrtt.symm, hstate.symm, .inl hreplay.symm⟩

theorem fence_apart {p w : Nat} (hp : p < numPorts) (hw : w < 9) : aGmuFence ≠ aLnkWlErr p w := by
  obtain ⟨-, -, -, h, -⟩ := linkReg_apart (k := 0x100 + 8 * w) hp (by omega)
  exact fun heq => h (by rw [heq]; unfold aLnkWlErr; omega)

theorem seqDist_self {a : Nat} (h : a < 4096) : seqDist a a = 0 := by
  rw [seqDist, Nat.mod_eq_of_lt h, Nat.add_sub_cancel_left]

/-- Settles O34: a flit that passes is heard (`exec_takesFlit`) and then taken by its distance from the expected one. -/
theorem flitReception : Obligations.FlitReception := by
  intro s p hp hup x raw fec f bad
  have hhas : hasPort p = true := decide_eq_true hp
  refine ⟨fun hgood hinj hexp => ?_, fun hbad hspare hfails => ?_, fun k htimer hlate => ?_⟩
  · obtain ⟨u, hrun, hheard⟩ := exec_takesFlit (fec := fec) hp hup hgood hinj
    have hfacts : ∀ {β : Type} (g : Port → β), (∀ x, g x.incoming = g x) → g ((u.takeLink p f).port p) = g x := fun g hg =>
      Port.of_incoming g hg hheard.port
    have hexp' : ((u.takeLink p f).port p).exp = x.exp := hfacts Port.exp fun _ => rfl
    refine ⟨fun hopen henc hheld hwait hkind hseq hstage hblocked => ?_, fun hheld hwait hkind hmin hnear hstage hblocked => ?_,
      fun hkind hfar => ?_⟩
    · have hfence : (u.takeLink p f).fenced p = s.fenced p := congrArg (Nat.testBit · p) (hheard.regs _ _ (offAck_fence hp) fun w hw => fence_apart hp hw)
      have htaken := State.onFlit_held (s := u) (p := p) (f := f) hkind (by rw [hexp', hseq, seqDist_self hexp]; decide)
        ((hfacts Port.held fun _ => rfl).trans hheld) (by rw [hfacts Port.stage fun _ => rfl]; exact hstage)
        ((hfacts Port.blocked fun _ => rfl).trans hblocked)
      obtain ⟨harrived, hnext, hempty, hshell⟩ := hheard.passes (f := f) (hfence.trans hopen) henc hwait hkind hseq
      exact ⟨_, hrun.trans (congrArg _ htaken), harrived, hnext, hempty, State.sameIslands_of_shell hshell, State.sameMemory_of_shell hshell⟩
    · have htaken := State.onFlit_held (s := u) (p := p) (f := f) hkind (by rw [hexp']; exact hnear)
        ((hfacts Port.held fun _ => rfl).trans hheld) (by rw [hfacts Port.stage fun _ => rfl]; exact hstage)
        ((hfacts Port.blocked fun _ => rfl).trans hblocked)
      have hne : f.seq ≠ x.exp := fun heq => by
        rw [heq, seqDist_self hexp] at hmin
        exact absurd hmin (by decide)
      obtain ⟨hheld', hexp'', harrived, hshell⟩ := hheard.holds hwait hne
      exact ⟨_, hrun.trans (congrArg _ htaken), hheld', hexp'', harrived, State.sameIslands_of_shell hshell, State.sameMemory_of_shell hshell⟩
    · have htaken := State.onFlit_duplicate (s := u) (p := p) (f := f) hkind (by rw [hexp']; exact hfar)
      have hport : ((u.takeLink p f).bump (aLnkReplay p) F.lnkReplay_duplicates 1).port p = (u.takeLink p f).port p := State.port_setF ..
      refine ⟨_, hrun.trans (congrArg _ htaken), ?_, (congrArg Port.arrived hport).trans (hfacts Port.arrived fun _ => rfl),
        (congrArg Port.exp hport).trans hexp', ?_, ?_⟩
      · rw [State.getF_bump_same, hheard.regs _ _ ⟨by decide, by unfold aLnkReplay aLnkRtt; omega, by unfold aLnkReplay aLnkState; omega, .inr (by decide)⟩
          fun w hw => wlErr_apart (by omega) (.inl (by unfold aLnkReplay; omega))]
      · exact State.sameIslands_of_shell ((State.shell_of_bare (State.bare_bump ..)).trans hheard.rest)
      · exact State.sameMemory_of_shell ((State.shell_of_bare (State.bare_bump ..)).trans hheard.rest)
  · obtain ⟨hbare, hregs⟩ := s.countFec_effects (p := p) fec
    obtain ⟨hport, hhalf, -⟩ := s.countFec_judges (p := p) fec
    have hkept : ∀ (k : Nat) (g : Fld), k < 0x100 → g.lo < 64 → (s.countFec p fec).getF (prtBase p + 0x8000 + k) g = s.getF (prtBase p + 0x8000 + k) g :=
      fun k g hk hg => hregs _ _ hg fun w hw => wlErr_apart (by omega) (.inl (by omega))
    obtain ⟨hshell, ⟨fails, hfailed⟩, hcount⟩ := (s.countFec p fec).parityFail_first (p := p) bad ((congrArg Port.fails hport).trans hfails)
      ((hkept 0 _ (by decide) (by decide)).trans hspare)
    have hlive : ¬(!(s.linkUp p || decide (s.lnk p = 6))) = true := by simp [hup]
    have hparity : badLanes ((s.countFec p fec).halfWidth p) raw ≠ 0 := by rw [hhalf]; exact hbad
    have hrun : exec (.flitReceive p raw fec) s = .next ((s.countFec p fec).parityFail p (badLanes ((s.countFec p fec).halfWidth p) raw) true) :=
      (if_pos hhas).trans ((if_neg hlive).trans (if_pos hparity))
    rw [hhalf] at hrun
    rw [hport] at hfailed
    have hrest := hshell.trans (State.shell_of_bare hbare)
    refine ⟨_, hrun, hcount.trans (congrArg (raised _ · 1) (hkept 0x20 _ (by decide) (by decide))), ?_, ?_, ?_, ?_,
      State.sameIslands_of_shell hrest, State.sameMemory_of_shell hrest⟩
    · exact (congrArg Port.arrived hfailed).trans rfl
    · exact (congrArg Port.exp hfailed).trans rfl
    · exact (congrArg Port.buf hfailed).trans rfl
    · exact (congrArg Port.credit hfailed).trans rfl
  · have hrun : exec (.replayTimer p) s = .next ((s.setPort p (x.goneBack (k + 2 * s.rtt p))).bump
        (aLnkReplay p) F.lnkReplay_goBacks 1) := by
      simp only [exec_replayTimer, execReplayTimer, hhas, if_true]
      rw [show (s.port p).timer = some k from htimer]
      exact if_pos hlate
    have hport : ((s.setPort p (x.goneBack (k + 2 * s.rtt p))).bump (aLnkReplay p) F.lnkReplay_goBacks 1).port p = x.goneBack (k + 2 * s.rtt p) :=
      (State.port_setF ..).trans (s.port_setPort_same p _)
    refine ⟨_, hrun, ?_, ?_, ?_, ?_, ?_, ⟨rfl, rfl, rfl⟩, ⟨rfl, rfl, rfl⟩⟩
    · exact (congrArg Port.replay hport).trans rfl
    · exact (congrArg Port.buf hport).trans rfl
    · exact (congrArg Port.timer hport).trans rfl
    · exact State.getF_bump_same _ _ _ 1
    · exact State.regsBut.bump (t := s.setPort p _) (fun _ _ _ => rfl) List.mem_cons_self 1

end Sys2Proof.Machine
end

section
/-! Spare swaps and fast retrains on both ends of a link (R333 to R337). -/

namespace Sys2Proof.Machine

/-! ### A procedure replaced -/

/-- The port with another procedure. -/
def Port.doing (x : Port) (q : LinkProc) : Port := { x with proc := q }

/-- The link state that a procedure shows (R341). -/
def State.shows (s : State) (p : Nat) : LinkProc → Nat
  | .spareLocking _ _ => 4
  | .spareServed _ _ => 4
  | .quiet => 5
  | .relocked => 5
  | _ => s.upState p

theorem State.setProc_eq (s : State) (p : Nat) (q : LinkProc) :
    s.setProc p q = (s.setPort p ((s.port p).doing q)).setF (aLnkState p) F.lnkState_state (s.shows p q) := by
  cases q <;> rfl

theorem State.upState_le (s : State) (p : Nat) : 2 ≤ s.upState p ∧ s.upState p ≤ 3 := by
  unfold State.upState
  split <;> decide

theorem State.shows_lt (s : State) (p : Nat) (q : LinkProc) : s.shows p q < 2 ^ F.lnkState_state.width := by
  have := s.upState_le p
  have hwidth : 2 ^ F.lnkState_state.width = 16 := rfl
  unfold State.shows
  split <;> omega

section
variable (s : State) (p : Nat) (q : LinkProc)

@[simp] theorem State.setProc_port : (s.setProc p q).port p = (s.port p).doing q := by
  rw [State.setProc_eq, State.port_setF, State.port_setPort_same]

@[simp] theorem State.setProc_lnk : (s.setProc p q).lnk p = s.shows p q := by
  rw [State.setProc_eq, State.lnk, State.getF_setF_same, Nat.mod_eq_of_lt (s.shows_lt p q)]

@[simp] theorem State.setProc_shell : (s.setProc p q).shell = s.shell := by
  rw [State.setProc_eq]
  rfl

theorem State.setProc_frame {β : Type} (g : State → β) (hregs : ∀ s x, g { s with regs := x } = g s) (hports : ∀ s x, g
    { s with ports := x } = g s) :
    g (s.setProc p q) = g s := by
  rw [State.setProc_eq]
  exact (hregs _ _).trans (hports _ _)

theorem State.regsBut_setProc : s.regsBut (s.setProc p q) [(aLnkState p, F.lnkState_state)] := by
  rw [State.setProc_eq]
  exact State.regsBut.setF (fun _ _ _ => rfl) List.mem_cons_self _

theorem State.getF_setProc {b : Nat} {g : Fld} (hg : g.lo < 64) (h : b ≠ aLnkState p ∨ g.lo ≠ F.lnkState_state.lo) :
    (s.setProc p q).getF b g = s.getF b g := by
  rw [State.setProc_eq]
  by_cases hb : b = aLnkState p
  · subst hb
    exact State.getF_setF_beside _ _ _ _ _ (h.resolve_left fun h => h rfl)
  · exact State.getF_setF_apart _ _ _ _ hb (by decide) hg

end

/-! ### Link messages sent and taken -/

section
variable (s : State) (p : Nat) (m : Msg)

@[simp] theorem State.port_sendLink (q : Nat) : (s.sendLink p m).port q = s.port q := rfl
@[simp] theorem State.lnk_sendLink (q : Nat) : (s.sendLink p m).lnk q = s.lnk q := rfl
@[simp] theorem State.shell_sendLink : (s.sendLink p m).shell = s.shell := rfl
@[simp] theorem State.getF_sendLink (b : Nat) (g : Fld) : (s.sendLink p m).getF b g = s.getF b g := rfl

theorem State.mem_sendLink : ∃ c ∈ Tbl.get [] (s.sendLink p m).ctl.queue p, c.msg = m := by
  refine ⟨{ dest := 0, bcast := false, local_ := true, source := s.self, msg := m }, ?_, rfl⟩
  rw [State.sendLink, State.queueCtl, Tbl.get_set_same]
  exact List.mem_append_right _ List.mem_cons_self

/-- The port with a message taken out of its control buffer. -/
def Port.without (x : Port) (m : Msg) : Port :=
  { x with ctlIn := (x.ctlIn.map fun g => g.filter fun c => c.msg ≠ m).filter fun g => !g.isEmpty }

@[simp] theorem State.takeCtl_port : (s.takeCtl p m).port p = (s.port p).without m := s.port_setPort_same p _
@[simp] theorem State.takeCtl_shell : (s.takeCtl p m).shell = s.shell := rfl
@[simp] theorem State.takeCtl_sending : (s.takeCtl p m).sending p = s.sending p := rfl
@[simp] theorem State.takeCtl_proc : ((s.takeCtl p m).port p).proc = (s.port p).proc := (congrArg Port.proc (s.takeCtl_port p m)).trans rfl
@[simp] theorem State.takeCtl_later : ((s.takeCtl p m).port p).later = (s.port p).later := (congrArg Port.later
    (s.takeCtl_port p m)).trans rfl

end

theorem State.frame_of_shell {s t : State} (h : t.shell = s.shell) : s.sameIslands t ∧ s.sameMemory t :=
  ⟨State.sameIslands_of_shell h, State.sameMemory_of_shell h⟩

/-! ### The end of a procedure -/

/-- The port with no procedure and no request waiting. -/
def Port.idle (x : Port) : Port := { x with proc := .none, later := [] }

/-- The state once a port's procedure has ended and before what waited is asked (R337). -/
def State.ended (s : State) (p : Nat) : State := (s.setProc p .none).setPort p (s.port p).idle

section
variable (s : State) (p : Nat)

@[simp] theorem State.ended_port : (s.ended p).port p = (s.port p).idle := State.port_setPort_same _ p _
@[simp] theorem State.ended_lnk : (s.ended p).lnk p = s.upState p := s.setProc_lnk p .none
@[simp] theorem State.ended_shell : (s.ended p).shell = s.shell := s.setProc_shell p .none

theorem State.getF_ended {b : Nat} {g : Fld} (hg : g.lo < 64) (h : b ≠ aLnkState p ∨ g.lo ≠ F.lnkState_state.lo) :
    (s.ended p).getF b g = s.getF b g := s.getF_setProc p .none hg h

theorem State.ended_sending : (s.ended p).sending p = true := by
  have := s.upState_le p
  simp only [State.sending, State.ended_lnk, decide_eq_true_eq]
  omega

end

section
variable {s : State} {p : Nat}

/-- A retrain asked by a port that sends and has no procedure (R336). -/
theorem State.askRetrain_free (hsend : s.sending p = true) (hproc : (s.port p).proc = .none) (cause : Nat) :
    s.askRetrain p cause = (s.setProc p (.retrainAsked cause)).sendLink p (linkMsg 0x13 [(72, cause)]) := by
  simp only [State.askRetrain, hsend, Bool.not_true, Bool.false_eq_true, if_false, hproc, if_true]

theorem State.procEnd_eq (retrain : Bool) :
    s.procEnd p retrain = (s.ended p).askAgain p ((s.port p).later.filter fun q => (s.ended p).stillHolds p retrain q) := by
  have hended : (s.setProc p .none).setPort p { (s.setProc p .none).port p with later := [] } = s.ended p := by
    rw [State.setProc_port]
    rfl
  rw [State.procEnd, ← hended]

/-- With nothing waiting the link is plainly up again (R337, R341). -/
theorem State.procEnd_plain (h : (s.port p).later = []) (retrain : Bool) : s.procEnd p retrain = s.ended p := by
  rw [State.procEnd_eq, h]
  rfl

/-- A retrain that a register write asked for is asked once the swap has ended (R336, R337). -/
theorem State.procEnd_asks (h : (s.port p).later = [.retrainAsked 2]) :
    s.procEnd p false = ((s.ended p).setProc p (.retrainAsked 2)).sendLink p (linkMsg 0x13 [(72, 2)]) := by
  rw [State.procEnd_eq, h, ← State.askRetrain_free (s.ended_sending p) (by rw [State.ended_port]; rfl)]
  rfl

end

/-! ### A lane moved in a map -/

section
variable (map lane w : Nat)

/-- A nibble replaced: what stands below stays, and the rest is the quotient with its last digit replaced. -/
theorem setNibble_parts : setNibble map lane w % 2 ^ (4 * lane) = map % 2 ^ (4 * lane) ∧
    setNibble map lane w / 2 ^ (4 * lane) = map / 2 ^ (4 * lane) - map / 2 ^ (4 * lane) % 16 + w % 16 := by
  have hpos : 0 < 2 ^ (4 * lane) := Nat.two_pow_pos _
  have hle : map / 2 ^ (4 * lane) % 16 ≤ map / 2 ^ (4 * lane) := Nat.mod_le _ _
  have hmap := Nat.div_add_mod map (2 ^ (4 * lane))
  have heq : setNibble map lane w = map % 2 ^ (4 * lane) + 2 ^ (4 * lane) * (map / 2 ^ (4 * lane) - map / 2 ^ (4 * lane) % 16 + w % 16) := by
    have hcut : 2 ^ (4 * lane) * (map / 2 ^ (4 * lane) % 16) ≤ 2 ^ (4 * lane) * (map / 2 ^ (4 * lane)) := Nat.mul_le_mul_left _ hle
    rw [setNibble, bitsAt, Nat.mul_add, Nat.mul_sub, Nat.mul_comm _ (2 ^ (4 * lane)), Nat.mul_comm (w % 16), show (2 : Nat) ^ 4 = 16 from rfl]
    omega
  have hlow := Nat.mod_lt map hpos
  rw [heq, Nat.add_mul_mod_self_left, Nat.add_mul_div_left _ _ hpos, Nat.div_eq_of_lt hlow, Nat.zero_add]
  exact ⟨Nat.mod_eq_of_lt hlow, rfl⟩

/-- The lane's nibble. -/
theorem bitsAt_setNibble_same : bitsAt (setNibble map lane w) (4 * lane) 4 = w % 16 := by
  obtain ⟨-, hhigh⟩ := setNibble_parts map lane w
  rw [bitsAt, hhigh]
  omega

/-- The other lanes' nibbles. -/
theorem bitsAt_setNibble_other {i : Nat} (h : i ≠ lane) : bitsAt (setNibble map lane w) (4 * i) 4 = bitsAt map (4 * i) 4 := by
  obtain ⟨hlow, hhigh⟩ := setNibble_parts map lane w
  rcases Nat.lt_or_gt_of_ne h with hlt | hgt
  · rw [← bitsAt_mod (show 4 * i + 4 ≤ 4 * lane by omega) (setNibble map lane w), hlow, bitsAt_mod (by omega)]
  · have hpow : 2 ^ (4 * i) = 2 ^ (4 * lane) * (16 * 2 ^ (4 * i - 4 * lane - 4)) := by
      rw [show 4 * i = 4 * lane + (4 + (4 * i - 4 * lane - 4)) by omega, Nat.pow_add, Nat.pow_add]
      simp
    have hdigit : ∀ q : Nat, (q - q % 16 + w % 16) / 16 = q / 16 := fun q => by omega
    rw [bitsAt, bitsAt, hpow, ← Nat.div_div_eq_div_mul, ← Nat.div_div_eq_div_mul, ← Nat.div_div_eq_div_mul, ← Nat.div_div_eq_div_mul, hhigh,
      hdigit]

theorem setNibble_lt {map lane : Nat} (w : Nat) (hmap : map < 2 ^ 32) (hlane : lane < 8) : setNibble map lane w < 2 ^ 32 := by
  obtain ⟨-, hhigh⟩ := setNibble_parts map lane w
  have hpow : 2 ^ 32 = 2 ^ (4 * lane) * (16 * 2 ^ (28 - 4 * lane)) := by
    rw [show (16 : Nat) = 2 ^ 4 from rfl, ← Nat.pow_add, ← Nat.pow_add]
    congr 1
    omega
  have hquot : map / 2 ^ (4 * lane) < 16 * 2 ^ (28 - 4 * lane) := Nat.div_lt_of_lt_mul (hpow ▸ hmap)
  rw [hpow, Nat.mul_comm]
  refine Nat.lt_mul_of_div_lt ?_ (Nat.two_pow_pos _)
  rw [hhigh]
  generalize map / 2 ^ (4 * lane) = q at hquot ⊢
  omega

end

/-! ### The receiving and the transmitting end of a spare swap -/

section
variable {s : State} {p : Nat} (hp : p < numPorts)
include hp

theorem exec_spareRequest_serves {msg : Msg} (hsend : s.sending p = true) (hproc : (s.port p).proc = .none) :
    exec (.spareRequest p msg) s = .next (((s.takeCtl p msg).setProc p (.spareServed (msgBits msg 72 3) (s.port p).txSpare)).sendLink p
      (linkMsg 0x11 [(72, msgBits msg 72 3), (76, (s.port p).txSpare)])) := by
  have hhas : hasPort p = true := decide_eq_true hp
  have hyield : (s.takeCtl p msg).yieldTo p = some (s.takeCtl p msg) := by
    simp only [State.yieldTo, State.takeCtl_proc, hproc]
  have hspare : ((s.takeCtl p msg).port p).txSpare = (s.port p).txSpare := (congrArg Port.txSpare (s.takeCtl_port p msg)).trans rfl
  simp only [exec_spareRequest, execSpareRequest, hhas, if_true, State.takeCtl_sending, hsend, Bool.not_true, Bool.false_eq_true, if_false,
    hyield, hspare]

theorem exec_spareGrant_locks {msg : Msg} {lane : Nat} (hproc : (s.port p).proc = .spareAsked lane) (hlane : msgBits msg 72 3 = lane) :
    exec (.spareGrant p msg) s = .next ((s.takeCtl p msg).setProc p (.spareLocking lane (msgBits msg 76 4))) := by
  have hhas : hasPort p = true := decide_eq_true hp
  simp only [exec_spareGrant, execSpareGrant, hhas, if_true, State.takeCtl_proc, hproc, hlane]

end

/-- The registers of the receiving end once it has moved a lane to the spare (R333). -/
def State.lanesMoved (s : State) (p lane wl : Nat) : State :=
  ((s.setFs (aLnkLanes p) [(F.lnkLanes_map, setNibble (s.getF (aLnkLanes p) F.lnkLanes_map) lane wl),
    (F.lnkLanes_failed, s.getF (aLnkLanes p) F.lnkLanes_failed ||| 2 ^ s.laneWl p lane)]).setFs (aLnkState p)
      [(F.lnkState_spare, 0), (F.lnkState_spareWl, 15)]).bump (aLnkEvents p) F.lnkEvents_swaps 1

/-- What the receiving end's registers show then. -/
theorem State.lanesMoved_shows (s : State) (p lane wl : Nat) :
    (s.lanesMoved p lane wl).getF (aLnkLanes p) F.lnkLanes_map =
        setNibble (s.getF (aLnkLanes p) F.lnkLanes_map) lane wl % 2 ^ F.lnkLanes_map.width ∧
      (s.lanesMoved p lane wl).getF (aLnkLanes p) F.lnkLanes_failed =
        (s.getF (aLnkLanes p) F.lnkLanes_failed ||| 2 ^ s.laneWl p lane) % 2 ^ F.lnkLanes_failed.width ∧
      (s.lanesMoved p lane wl).getF (aLnkState p) F.lnkState_spare = 0 ∧ (s.lanesMoved p lane wl).getF
    (aLnkState p) F.lnkState_spareWl = 15 ∧
      (s.lanesMoved p lane wl).getF (aLnkEvents p) F.lnkEvents_swaps =
        raised F.lnkEvents_swaps (s.getF (aLnkEvents p) F.lnkEvents_swaps) 1 ∧
      (s.lanesMoved p lane wl).getF (aLnkState p) F.lnkState_lanes = s.getF (aLnkState p) F.lnkState_lanes := by
  have hlanes : ∀ g : Fld, g.lo < 64 → (s.lanesMoved p lane wl).getF (aLnkLanes p) g =
      (s.setFs (aLnkLanes p) [(F.lnkLanes_map, setNibble (s.getF (aLnkLanes p) F.lnkLanes_map) lane wl),
        (F.lnkLanes_failed, s.getF (aLnkLanes p) F.lnkLanes_failed ||| 2 ^ s.laneWl p lane)]).getF (aLnkLanes p) g := fun g hg =>
    (State.getF_setF_apart _ _ _ _ (by unfold aLnkLanes aLnkEvents; omega) (by decide) hg).trans
      (State.getF_setFs_elsewhere _ (by unfold aLnkLanes aLnkState; omega) rfl hg)
  have hstate : ∀ g : Fld, g.lo < 64 → (s.lanesMoved p lane wl).getF (aLnkState p) g =
      ((s.setFs (aLnkLanes p) [(F.lnkLanes_map, setNibble (s.getF (aLnkLanes p) F.lnkLanes_map) lane wl),
        (F.lnkLanes_failed, s.getF (aLnkLanes p) F.lnkLanes_failed ||| 2 ^ s.laneWl p lane)]).setFs (aLnkState p)
          [(F.lnkState_spare, 0), (F.lnkState_spareWl, 15)]).getF (aLnkState p) g := fun g hg =>
    State.getF_setF_apart _ _ _ _ (by unfold aLnkState aLnkEvents; omega) (by decide) hg
  have hpair : [0, 32].Nodup := by decide
  have hspares : [8, 9].Nodup := by decide
  refine ⟨(hlanes _ (by decide)).trans ?_, (hlanes _ (by decide)).trans ?_, (hstate _ (by decide)).trans ?_, (hstate _ (by decide)).trans ?_, ?_,
    (hstate _ (by decide)).trans ?_⟩
  · exact State.getF_setFs_mem (by exact hpair) List.mem_cons_self s
  · exact State.getF_setFs_mem (by exact hpair) (List.mem_cons_of_mem _ List.mem_cons_self) s
  · exact State.getF_setFs_mem (by exact hspares) List.mem_cons_self _
  · exact State.getF_setFs_mem (by exact hspares) (List.mem_cons_of_mem _ List.mem_cons_self) _
  · refine (State.getF_bump_same ..).trans (congrArg (raised _ · 1) ?_)
    exact (State.getF_setFs_elsewhere _ (by unfold aLnkEvents aLnkState; omega) rfl (by decide)).trans
      (State.getF_setFs_elsewhere _ (by unfold aLnkEvents aLnkLanes; omega) rfl (by decide))
  · refine (State.getF_setFs_other _ _ _ ?_ _).trans (State.getF_setFs_elsewhere _ (by unfold aLnkState aLnkLanes; omega) rfl (by decide))
    simp only [List.forall_mem_cons]
    exact ⟨by decide, by decide, fun _ h => absurd h List.not_mem_nil⟩

theorem State.lanesMoved_bare (s : State) (p lane wl : Nat) : (s.lanesMoved p lane wl).bare = s.bare := by
  simp only [State.lanesMoved, State.bare_bump, State.bare_setFs]

section
variable {s : State} {p lane wl : Nat} (hp : p < numPorts)
include hp

theorem exec_spareLockComplete_moves (hproc : (s.port p).proc = .spareLocking lane wl) (hlater : (s.port p).later = []) :
    exec (.spareLockComplete p) s =
      .next (((s.lanesMoved p lane wl).sendLink p (linkMsg 0x12 [(72, lane), (76, wl), (80, s.laneWl p lane)])).ended p) := by
  have hhas : hasPort p = true := decide_eq_true hp
  have hports : ((s.lanesMoved p lane wl).sendLink p (linkMsg 0x12 [(72, lane), (76, wl), (80, s.laneWl p lane)])).port p = s.port p := by
    rw [State.port_sendLink, State.port, State.of_bare State.ports (fun _ => rfl) (s.lanesMoved_bare p lane wl)]
    rfl
  rw [← State.procEnd_plain (by rw [hports]; exact hlater) false]
  simp only [exec_spareLockComplete, execSpareLockComplete, hhas, if_true, hproc, State.lanesMoved]

end

theorem State.upState_congr {s t : State} {p : Nat} (h : t.getF (aLnkState p) F.lnkState_lanes = s.getF (aLnkState p) F.lnkState_lanes) :
    t.upState p = s.upState p := by
  rw [State.upState, State.halfWidth, h, State.upState, State.halfWidth]

/-- The port whose transmitter sends a lane on its former spare. -/
def Port.swapped (x : Port) (lane wl : Nat) : Port := { x with txMap := setNibble x.txMap lane wl, txSpare := 15 }

/-- The transmitting end once the other end has moved the lane (R333). -/
def State.laneServed (s : State) (p lane wl old : Nat) : State :=
  ((s.setPort p ((s.port p).swapped lane wl)).setF (aLnkLanes p) F.lnkLanes_failed (s.getF
    (aLnkLanes p) F.lnkLanes_failed ||| 2 ^ old)).bump
    (aLnkEvents p) F.lnkEvents_swaps 1

section
variable (s : State) (p lane wl old : Nat)

theorem State.laneServed_port : (s.laneServed p lane wl old).port p = (s.port p).swapped lane wl := by
  rw [State.laneServed, State.bump, State.port_setF, State.port_setF, State.port_setPort_same]

theorem State.laneServed_shell : (s.laneServed p lane wl old).shell = s.shell :=
  (State.shell_of_bare ((State.bare_bump ..).trans (State.bare_setF ..))).trans (s.shell_setPort p _)

theorem State.laneServed_shows :
    (s.laneServed p lane wl old).getF (aLnkLanes p) F.lnkLanes_failed =
        (s.getF (aLnkLanes p) F.lnkLanes_failed ||| 2 ^ old) % 2 ^ F.lnkLanes_failed.width ∧
      (s.laneServed p lane wl old).getF (aLnkEvents p) F.lnkEvents_swaps =
        raised F.lnkEvents_swaps (s.getF (aLnkEvents p) F.lnkEvents_swaps) 1 ∧
      (s.laneServed p lane wl old).getF (aLnkState p) F.lnkState_lanes = s.getF (aLnkState p) F.lnkState_lanes := by
  refine ⟨?_, ?_, ?_⟩
  · exact (State.getF_setF_apart _ _ _ _ (by unfold aLnkLanes aLnkEvents; omega) (by decide) (by decide)).trans (State.getF_setF_same ..)
  · refine (State.getF_bump_same ..).trans (congrArg (raised _ · 1) ?_)
    exact State.getF_setF_apart _ _ _ _ (by unfold aLnkLanes aLnkEvents; omega) (by decide) (by decide)
  · exact (State.getF_setF_apart _ _ _ _ (by unfold aLnkState aLnkEvents; omega) (by decide) (by decide)).trans
      (State.getF_setF_apart _ _ _ _ (by unfold aLnkState aLnkLanes; omega) (by decide) (by decide))

end

theorem exec_spareDone_serves {s : State} {p lane wl : Nat} (hp : p < numPorts) {msg : Msg} (hproc :
    (s.port p).proc = .spareServed lane wl) :
    exec (.spareDone p msg) s = .next (((s.takeCtl p msg).laneServed p lane wl (msgBits msg 80 4)).procEnd p false) := by
  have hhas : hasPort p = true := decide_eq_true hp
  simp only [exec_spareDone, execSpareDone, hhas, if_true, State.takeCtl_proc, hproc, State.laneServed, Port.swapped]
  rfl

/-- A wavelength marked as failed. -/
theorem testBit_failed (failed : Nat) {w : Nat} (hw : w < 9) : ((failed ||| 2 ^ w) % 2 ^ F.lnkLanes_failed.width).testBit w = true := by
  rw [Nat.testBit_mod_two_pow, Nat.testBit_or, Nat.testBit_two_pow_self, Bool.or_true, Bool.and_true]
  exact decide_eq_true hw

/-- What the receiving end shows once it has moved the lane (R333). -/
theorem spareLockComplete_ends {s : State} {p lane wl : Nat} (hp : p < numPorts) (hproc : (s.port p).proc = .spareLocking lane wl)
    (hlater : (s.port p).later = []) :
    ∃ t, exec (.spareLockComplete p) s = .next t ∧ t.port p = (s.port p).idle ∧ t.lnk p = s.upState p ∧ t.shell = s.shell ∧
      ∀ (b : Nat) (g : Fld), g.lo < 64 → (b ≠ aLnkState p ∨ g.lo ≠ F.lnkState_state.lo) → t.getF b g = (s.lanesMoved p lane wl).getF b g := by
  have hports : (s.lanesMoved p lane wl).port p = s.port p := by
    rw [State.port, State.of_bare State.ports (fun _ => rfl) (s.lanesMoved_bare p lane wl)]
    rfl
  obtain ⟨-, -, -, -, -, hlanes⟩ := s.lanesMoved_shows p lane wl
  refine ⟨_, exec_spareLockComplete_moves hp hproc hlater, ?_, ?_, ?_, fun b g hg h => ?_⟩
  · rw [State.ended_port, State.port_sendLink, hports]
  · rw [State.ended_lnk]
    exact State.upState_congr ((State.getF_sendLink ..).trans hlanes)
  · rw [State.ended_shell, State.shell_sendLink]
    exact State.shell_of_bare (s.lanesMoved_bare p lane wl)
  · rw [State.getF_ended _ p hg h, State.getF_sendLink]

/-- What the transmitting end shows once the swap has ended with nothing waiting (R333). -/
theorem spareDone_ends {s : State} {p lane wl : Nat} (hp : p < numPorts) {msg : Msg} (hproc : (s.port p).proc = .spareServed lane wl)
    (hlater : (s.port p).later = []) :
    ∃ t, exec (.spareDone p msg) s = .next t ∧ t.port p = (((s.port p).without msg).swapped lane wl).idle ∧
      t.lnk p = (s.takeCtl p msg).upState p ∧ t.shell = s.shell ∧
      ∀ (b : Nat) (g : Fld), g.lo < 64 → (b ≠ aLnkState p ∨ g.lo ≠ F.lnkState_state.lo) →
        t.getF b g = ((s.takeCtl p msg).laneServed p lane wl (msgBits msg 80 4)).getF b g := by
  have hport := (s.takeCtl p msg).laneServed_port p lane wl (msgBits msg 80 4)
  obtain ⟨-, -, hlanes⟩ := (s.takeCtl p msg).laneServed_shows p lane wl (msgBits msg 80 4)
  have hend := State.procEnd_plain (s := (s.takeCtl p msg).laneServed p lane wl (msgBits msg 80 4)) (p := p)
    (by rw [hport]; exact (s.takeCtl_later p msg).trans hlater) false
  refine ⟨_, (exec_spareDone_serves hp hproc).trans (congrArg _ hend), ?_, ?_, ?_, fun b g hg h => State.getF_ended _ p hg h⟩
  · rw [State.ended_port, hport, State.takeCtl_port]
  · rw [State.ended_lnk]
    exact State.upState_congr hlanes
  · rw [State.ended_shell, State.laneServed_shell, State.takeCtl_shell]

/-- A retrain asked by a register write during a swap waits for its end (R336, R337). -/
theorem retrainWrite_waits {s : State} {p lane wl : Nat} (hp : p < numPorts) (hsend : s.sending p = true)
    (hproc : (s.port p).proc = .spareServed lane wl) {v : Word} (hv : v.getLsbD 0 = true) :
    ∃ t, exec (.linkRetrainWrite p v) s = .next t ∧ t.port p = (s.port p).keep (.retrainAsked 2) ∧ s.sameIslands t ∧ s.sameMemory t := by
  have hhas : hasPort p = true := decide_eq_true hp
  have hwaits : (State.askRetrain { s with bus := ⟨false, 0⟩ } p 2) =
      State.setPort { s with bus := ⟨false, 0⟩ } p ((s.port p).keep (.retrainAsked 2)) := by
    have hne : (s.port p).proc ≠ .none := by simp [hproc]
    have hswap : (s.port p).proc.isSwap = true := by rw [hproc]; rfl
    exact (if_neg (by rw [show State.sending { s with bus := ⟨false, 0⟩ } p = true from hsend]; decide)).trans ((if_neg hne).trans (if_pos hswap))
  refine ⟨_, (if_pos hhas).trans ((if_pos hv).trans (congrArg _ hwaits)), State.port_setPort_same _ p _, ⟨rfl, rfl, rfl⟩, ⟨rfl, rfl, rfl⟩⟩

/-- A retrain that waited is asked when the swap has ended (R337). -/
theorem spareDone_asks {s : State} {p lane wl : Nat} (hp : p < numPorts) {msg : Msg} (hproc : (s.port p).proc = .spareServed lane wl)
    (hlater : (s.port p).later = [.retrainAsked 2]) :
    ∃ t, exec (.spareDone p msg) s = .next t ∧ (t.port p).later = [] ∧ (t.port p).proc = .retrainAsked 2 ∧
      (∃ c ∈ Tbl.get [] t.ctl.queue p, c.msg = linkMsg 0x13 [(72, 2)]) ∧ t.shell = s.shell := by
  have hport := (s.takeCtl p msg).laneServed_port p lane wl (msgBits msg 80 4)
  have hend := State.procEnd_asks (s := (s.takeCtl p msg).laneServed p lane wl (msgBits msg 80 4)) (p := p)
    (by rw [hport]; exact (s.takeCtl_later p msg).trans hlater)
  refine ⟨_, (exec_spareDone_serves hp hproc).trans (congrArg _ hend), ?_, ?_, State.mem_sendLink _ p _, ?_⟩
  · rw [State.port_sendLink, State.setProc_port, State.ended_port]
    rfl
  · rw [State.port_sendLink, State.setProc_port]
    rfl
  · rw [State.shell_sendLink, State.setProc_shell, State.ended_shell, State.laneServed_shell, State.takeCtl_shell]

/-! ### Fast retrains -/

/-- An end that waits for its quiet start says so (R335). -/
theorem State.waitQuiet_effects (s : State) (p : Nat) (breath : Option Nat) (tq : Beat) :
    ((s.waitQuiet p breath tq).port p).proc = .retrainWait breath tq ∧
      (s.waitQuiet p breath tq).getF (aLnkState p) F.lnkState_retrainPending = 1 ∧ (s.waitQuiet p breath tq).shell = s.shell := by
  refine ⟨?_, State.getF_setF_same .., ?_⟩
  · rw [State.waitQuiet, State.port_setF, State.setProc_port]
    rfl
  · exact (State.shell_of_bare (State.bare_setF ..)).trans (s.setProc_shell p _)

section
variable {s : State} {p : Nat} {msg : Msg} (hp : p < numPorts)
include hp

/-- A retrain asked by a register write of a port that is free (R336). -/
theorem retrainWrite_asks (hsend : s.sending p = true) (hproc : (s.port p).proc = .none) {v : Word} (hv : v.getLsbD 0 = true) :
    ∃ t, exec (.linkRetrainWrite p v) s = .next t ∧ (t.port p).proc = .retrainAsked 2 ∧
      (∃ c ∈ Tbl.get [] t.ctl.queue p, c.msg = linkMsg 0x13 [(72, 2)]) ∧ t.bus.err = false ∧ t.shell = s.shell := by
  have hhas : hasPort p = true := decide_eq_true hp
  have hask := State.askRetrain_free (s := { s with bus := ⟨false, 0⟩ }) (p := p) hsend hproc 2
  refine ⟨_, (if_pos hhas).trans ((if_pos hv).trans (congrArg _ hask)), ?_, State.mem_sendLink _ p _, ?_, ?_⟩
  · rw [State.port_sendLink, State.setProc_port]
    rfl
  · exact State.setProc_frame { s with bus := ⟨false, 0⟩ } p (.retrainAsked 2) (fun s => s.bus.err) (fun _ _ => rfl) fun _ _ => rfl
  · rw [State.shell_sendLink, State.setProc_shell]
    rfl

/-- A retrain asked of a free end is granted, in breath mode for a port in plan while a job runs, else in link mode (R335). -/
theorem exec_retrainRequest_grants (hsend : s.sending p = true) (hproc : (s.port p).proc = .none) :
    exec (.retrainRequest p msg) s = .next
      (if s.getF (aBocDisc p) F.bocDisc_class = 1 ∧ s.brt.job then
        ((s.takeCtl p msg).waitQuiet p (some ((if beatReached s.tNext (s.beat + nsBeat 5000) then s.brt.next else s.brt.next + 1) % 2 ^ 32))
          (s.startOf (if beatReached s.tNext (s.beat + nsBeat 5000) then s.brt.next else s.brt.next + 1))).sendLink p
            (linkMsg 0x14 [(72, (if beatReached s.tNext (s.beat + nsBeat 5000) then s.brt.next else s.brt.next + 1) % 2 ^ 32)])
      else ((s.takeCtl p msg).waitQuiet p none (s.slotAfter 10000)).sendLink p (linkMsg 0x14 [(104, 1)])) := by
  have hhas : hasPort p = true := decide_eq_true hp
  have hyield : (s.takeCtl p msg).yieldTo p = some (s.takeCtl p msg) := by
    simp only [State.yieldTo, State.takeCtl_proc, hproc]
  have hreads : (s.takeCtl p msg).getF (aBocDisc p) F.bocDisc_class = s.getF (aBocDisc p) F.bocDisc_class ∧ (s.takeCtl p msg).brt = s.brt ∧
      (s.takeCtl p msg).tNext = s.tNext ∧ (s.takeCtl p msg).beat = s.beat ∧ (∀ ns, (s.takeCtl p msg).slotAfter ns = s.slotAfter ns) ∧
      (∀ j, (s.takeCtl p msg).startOf j = s.startOf j) := ⟨rfl, rfl, rfl, rfl, fun _ => rfl, fun _ => rfl⟩
  obtain ⟨hclass, hbrt, hnext, hbeat, hafter, hstart⟩ := hreads
  simp only [exec_retrainRequest, execRetrainRequest, hhas, if_true, State.takeCtl_sending, hsend, Bool.not_true, Bool.false_eq_true, if_false,
    hyield, hclass, hbrt, hnext, hbeat, hafter, hstart]
  split <;> rfl

/-- A grant fixes the quiet start (R335). -/
theorem exec_retrainGrant_waits {cause : Nat} (hproc : (s.port p).proc = .retrainAsked cause) :
    exec (.retrainGrant p msg) s = .next (if msg.getLsbD 104 then (s.takeCtl p msg).waitQuiet p none (s.slotAfter 10000)
      else (s.takeCtl p msg).waitQuiet p (some (msgBits msg 72 32)) (s.startOf (msgBits msg 72 32))) := by
  have hhas : hasPort p = true := decide_eq_true hp
  simp only [exec_retrainGrant, execRetrainGrant, hhas, if_true, State.takeCtl_proc, hproc]
  rfl

end

/-- The port with nothing on its wire. -/
def Port.silent (x : Port) : Port := { x with wire := none }

section
variable {s : State} {p : Nat} (hp : p < numPorts) {breath : Option Nat} {tq : Beat} (hproc : (s.port p).proc = .retrainWait breath tq)
include hp hproc

theorem exec_quietStart_early (hdue : s.quietDue breath tq = false) : exec (.quietStart p) s = .next s := by
  have hhas : hasPort p = true := decide_eq_true hp
  simp only [exec_quietStart, execQuietStart, hhas, if_true, hproc, hdue, Bool.false_eq_true, if_false]

/-- At its quiet start an end stops sending (R335). -/
theorem quietStart_silent (hdue : s.quietDue breath tq = true) :
    ∃ t, exec (.quietStart p) s = .next t ∧ t.port p = (s.port p).silent.doing .quiet ∧ t.lnk p = 5 ∧
      t.getF (aLnkState p) F.lnkState_retrainPending = 0 ∧
      s.regsBut t [(aLnkState p, F.lnkState_state), (aLnkState p, F.lnkState_retrainPending)] ∧ t.shell = s.shell := by
  have hhas : hasPort p = true := decide_eq_true hp
  have hrun : exec (.quietStart p) s =
      .next (((s.setPort p (s.port p).silent).setProc p .quiet).setF (aLnkState p) F.lnkState_retrainPending 0) := by
    simp only [exec_quietStart, execQuietStart, hhas, if_true, hproc, hdue, Port.silent]
  refine ⟨_, hrun, ?_, ?_, State.getF_setF_same .., ?_, ?_⟩
  · rw [State.port_setF, State.setProc_port, State.port_setPort_same]
  · refine (State.getF_setF_beside _ _ _ _ _ (by decide)).trans ?_
    exact (State.setProc_lnk (s.setPort p (s.port p).silent) p .quiet).trans rfl
  · refine State.regsBut.setF (fun b g hb => ?_) (List.mem_cons_of_mem _ List.mem_cons_self) _
    exact State.regsBut_setProc (s.setPort p (s.port p).silent) p .quiet b g fun hmem =>
      hb (List.map_subset _ (List.cons_subset_cons _ (List.nil_subset _)) hmem)
  · exact (State.shell_of_bare (State.bare_setF ..)).trans ((State.setProc_shell ..).trans (s.shell_setPort p _))

end

/-! ### Relocking -/

/-- What a port's procedure and receiver work on. -/
structure Duty where
  proc  : LinkProc
  later : List LinkProc
  held  : List Flit
  exp   : Nat

def Port.duty (x : Port) : Duty := ⟨x.proc, x.later, x.held, x.exp⟩

theorem Port.duty_linkFields (x : Port) (ack : Nat) : (x.linkFields ack).2.duty = x.duty := by
  have hfold : ∀ (k : Nat → Nat) (l : List Nat) (y : Port), (l.foldl (fun x v =>
      { x with pend := Tbl.set 0 x.pend v (Tbl.get 0 x.pend v - k v),
               grant := Tbl.set 0 x.grant v ((Tbl.get 0 x.grant v + k v) % 65536) }) y).duty = y.duty := by
    intro k l
    induction l with
    | nil => exact fun _ => rfl
    | cons v l ih => exact fun y => (ih _).trans rfl
  exact hfold (fun v => min (Tbl.get 0 x.pend v) 63) (List.range 6) x

/-- A transmission leaves the port's procedure and receiver as they are. -/
theorem State.duty_transmit (s : State) (p : Nat) (f : Flit) : ((s.transmit p f).port p).duty = (s.port p).duty := by
  obtain ⟨x, c, n, hx, heq⟩ : ∃ (x : Port) (c : Bool) (n : Nat), x.duty = (s.port p).duty ∧
      s.transmit p f = if c then (s.setPort p x).bump (aLnkInjCtl p) F.lnkInjCtl_injected n else s.setPort p x := by
    refine ⟨_, _, _, ?_, rfl⟩
    exact (Port.duty_linkFields (s.port p) (s.injectAck p (s.port p)).1).trans rfl
  rw [heq]
  cases c with
  | false => exact (congrArg Port.duty (s.port_setPort_same p x)).trans hx
  | true => exact (congrArg Port.duty (s.port_setPort_same p x)).trans hx

theorem State.duty_sendNew (s : State) (p : Nat) (f : Flit) : ((s.sendNew p f).port p).duty = (s.port p).duty := by
  obtain ⟨x, c, g, hx, heq⟩ : ∃ (x : Port) (c : Bool) (g : Flit), x.duty = (s.port p).duty ∧
      s.sendNew p f = if c then ((s.setPort p x).transmit p g).bump (aLnkReplay p) F.lnkReplay_full 1 else (s.setPort p x).transmit p g := by
    refine ⟨_, _, _, ?_, rfl⟩
    rfl
  have hsent : (((s.setPort p x).transmit p g).port p).duty = (s.port p).duty :=
    (State.duty_transmit _ p g).trans ((congrArg Port.duty (s.port_setPort_same p x)).trans hx)
  rw [heq]
  cases c with
  | false => exact hsent
  | true => exact hsent

/-- The port as it relocks: what it held ahead of a gap is gone, and the trip is measured afresh. -/
def Port.relocking (x : Port) : Port := { x with held := [], lost := [], pend := [], sentAt := [], rttLeft := 64 }

/-- The state of a port that has relocked, before its resync is sent (R335). -/
def State.relocked (s : State) (p d16 rtt : Nat) : State :=
  let s1 := ((s.setF (aCrpDelay p) F.crpDelay_physical d16).setF (aLnkRtt p) F.lnkRtt_rtt (min rtt 4095)).setF (aLnkState p) F.lnkState_longRtt
    (if 1024 < rtt then 1 else 0)
  ((s1.checkDelay p).setPort p ((s1.checkDelay p).port p).relocking).setProc p .relocked

theorem State.relocked_effects (s : State) {p : Nat} (hp : p < numPorts) (d16 rtt : Nat) :
    ((s.relocked p d16 rtt).port p).duty = ⟨.relocked, (s.port p).later, [], (s.port p).exp⟩ ∧
      (s.relocked p d16 rtt).getF (aLnkRtt p) F.lnkRtt_rtt = min rtt 4095 ∧
      (s.relocked p d16 rtt).getF (aCrpDelay p) F.crpDelay_physical = d16 % 2 ^ 16 ∧ (s.relocked p d16 rtt).shell = s.shell := by
  unfold State.relocked
  extract_lets s1
  have hbare : (s1.checkDelay p).bare = s.bare := (s1.bare_checkDelay p).trans (by simp only [s1, State.bare_setF])
  have hport : (s1.checkDelay p).port p = s.port p := congrArg (Tbl.get Port.reset · p) (State.of_bare State.ports (fun _ => rfl) hbare)
  obtain ⟨-, -, -, -, -, hconfig, -⟩ := linkReg_apart (k := 0x10) hp (by decide)
  refine ⟨?_, ?_, ?_, ?_⟩
  · rw [State.setProc_port, State.port_setPort_same, hport]
    rfl
  · refine (State.getF_setProc _ p _ (by decide) (.inl (by unfold aLnkRtt aLnkState; omega))).trans ?_
    refine (s1.getF_checkDelay hconfig (by decide)).trans ?_
    refine (State.getF_setF_apart _ _ _ _ (show aLnkRtt p ≠ aLnkState p by unfold aLnkRtt aLnkState; omega) (by decide) (by decide)).trans
      ((State.getF_setF_same ..).trans ?_)
    exact Nat.mod_eq_of_lt (Nat.lt_of_le_of_lt (Nat.min_le_right _ _) (by decide))
  · refine (State.getF_setProc _ p _ (by decide) (.inl (by unfold aCrpDelay aLnkState; omega))).trans ?_
    refine (s1.getF_checkDelay (by unfold aCrpDelay aCrpConfig; omega) (by decide)).trans ?_
    refine (State.getF_setF_apart _ _ _ _ (by unfold aCrpDelay aLnkState; omega) (by decide) (by decide)).trans ?_
    exact (State.getF_setF_apart _ _ _ _ (by unfold aCrpDelay aLnkRtt; omega) (by decide) (by decide)).trans (State.getF_setF_same ..)
  · exact (State.setProc_shell ..).trans ((State.shell_setPort ..).trans (State.shell_of_bare hbare))

/-- A relocked end sends its resync (R335). -/
theorem relock_effects {s : State} {p : Nat} (hp : p < numPorts) (hproc : (s.port p).proc = .quiet) (d16 rtt : Nat) :
    ∃ t, exec (.relockComplete p d16 rtt) s = .next t ∧ (t.port p).duty = ⟨.relocked, (s.port p).later, [], (s.port p).exp⟩ ∧
      t.getF (aLnkRtt p) F.lnkRtt_rtt = min rtt 4095 ∧ t.getF (aCrpDelay p) F.crpDelay_physical = d16 % 2 ^ 16 ∧ t.shell = s.shell := by
  have hhas : hasPort p = true := decide_eq_true hp
  obtain ⟨hduty, hrtt, hdelay, hshell⟩ := s.relocked_effects hp d16 rtt
  obtain ⟨c, f, m, hrun⟩ : ∃ (c : Bool) (f : Flit) (m : Msg), exec (.relockComplete p d16 rtt) s =
      .next (if c then (s.relocked p d16 rtt).sendNew p f else (s.relocked p d16 rtt).sendLink p m) := by
    simp only [exec_relockComplete, execRelockComplete, hhas, if_true, hproc]
    exact ⟨_, _, _, rfl⟩
  cases c with
  | false => exact ⟨_, hrun, hduty, hrtt, hdelay, hshell⟩
  | true =>
    refine ⟨_, hrun, (State.duty_sendNew _ p f).trans hduty, ?_, ?_, ?_⟩
    · exact (State.getF_sendNew _ p f (by unfold aLnkRtt aLnkInjCtl; omega) (by unfold aLnkRtt aLnkReplay; omega) (by decide)).trans hrtt
    · exact (State.getF_sendNew _ p f (by unfold aCrpDelay aLnkInjCtl; omega) (by unfold aCrpDelay aLnkReplay; omega) (by decide)).trans hdelay
    · exact (State.shell_of_offPorts (State.offPorts_sendNew _ p f)).trans hshell

/-! ### Sending again -/

/-- A table written at the keys below `n`. -/
theorem Tbl.get_foldl_fill {α : Type} [DecidableEq α] (d : α) (k : Nat → α) (n : Nat) (t : Tbl α) {v : Nat} (h : v < n) :
    Tbl.get d ((List.range n).foldl (fun t v => Tbl.set d t v (k v)) t) v = k v := by
  induction n with
  | zero => exact absurd h (Nat.not_lt_zero v)
  | succ n ih =>
    rw [List.range_succ, List.foldl_append, List.foldl_cons, List.foldl_nil, Tbl.get_set]
    split
    case isTrue heq => rw [heq]
    case isFalse hne => exact ih (by omega)

/-- The credits that the peer's resync leaves: nominal less what it holds and what is not acked (R335). -/
def Port.creditsAfter (x : Port) (msg : Msg) : Tbl Nat :=
  (List.range 6).foldl (fun t v => Tbl.set 0 t v (nominal v - msgBits msg (72 + 8 * v) 8 -
    (x.buf.filter fun f => decide (f.kind = 2) && decide (f.field 68 3 = v)).length)) x.credit

/-- The port as it sends again (R335, R460). -/
def Port.resynced (x : Port) (msg : Msg) (e : Bool) : Port :=
  { x with credit := x.creditsAfter msg, grant := nominalTbl, receipt := nominalTbl, leaked := [], replay := x.buf.map Flit.seq,
           encTx := x.encTx || e, encRx := x.encRx || e, tagged := if x.encTx then x.tagged else x.eTx,
           eRx := if x.encRx then x.eRx else x.exp, covered := if x.encRx then x.covered else x.exp }

theorem Port.later_resynced (x : Port) (msg : Msg) (e : Bool) : (x.resynced msg e).later = x.later := rfl

/-- The port's side of it, with no procedure left. -/
theorem Port.resynced_idle (x : Port) (msg : Msg) (e : Bool) :
    (x.resynced msg e).idle.proc = .none ∧ (x.resynced msg e).idle.replay = (x.resynced msg e).idle.buf.map Flit.seq ∧
      ∀ v < 6, Tbl.get 0 (x.resynced msg e).idle.grant v = nominal v ∧ Tbl.get 0 (x.resynced msg e).idle.receipt v = nominal v ∧
        Tbl.get 0 (x.resynced msg e).idle.credit v = nominal v - msgBits msg (72 + 8 * v) 8 -
          ((x.resynced msg e).idle.buf.filter fun f => decide (f.kind = 2) && decide (f.field 68 3 = v)).length := by
  have hnominal : ∀ v < 6, Tbl.get 0 nominalTbl v = nominal v := by decide
  have hcredit : ∀ v < 6, Tbl.get 0 (x.creditsAfter msg) v = nominal v - msgBits msg (72 + 8 * v) 8 -
      (x.buf.filter fun f => decide (f.kind = 2) && decide (f.field 68 3 = v)).length := fun v hv => by
    unfold Port.creditsAfter
    rw [Tbl.get_foldl_fill 0 _ 6 _ hv]
  exact ⟨rfl, rfl, fun v hv => ⟨hnominal v hv, hnominal v hv, hcredit v hv⟩⟩

/-- The state as a port sends again, before its procedure ends. -/
def State.resynced (s : State) (p : Nat) (msg : Msg) : State :=
  ((s.setPort p ((s.port p).resynced msg (s.encrypts p))).setFs (aLnkCredit p) [(F.lnkCredit_window, windowWord []),
    (F.lnkCredit_low, 0)]).bump
    (aLnkEvents p) F.lnkEvents_retrains 1

theorem State.resynced_effects (s : State) (p : Nat) (msg : Msg) :
    (s.resynced p msg).port p = (s.port p).resynced msg (s.encrypts p) ∧ (s.resynced p msg).shell = s.shell ∧
      (s.resynced p msg).getF (aLnkEvents p) F.lnkEvents_retrains =
        raised F.lnkEvents_retrains (s.getF (aLnkEvents p) F.lnkEvents_retrains) 1 := by
  have hbare : (s.resynced p msg).bare = (s.setPort p ((s.port p).resynced msg (s.encrypts p))).bare := by
    simp only [State.resynced, State.bare_bump, State.bare_setFs]
  refine ⟨?_, (State.shell_of_bare hbare).trans (s.shell_setPort p _), ?_⟩
  · rw [State.port, State.of_bare State.ports (fun _ => rfl) hbare]
    exact s.port_setPort_same p _
  · refine (State.getF_bump_same ..).trans (congrArg (raised _ · 1) ?_)
    exact (State.getF_setFs_elsewhere _ (by unfold aLnkEvents aLnkCredit; omega) rfl (by decide)).trans rfl

/-- After the peer's resync the port sends again, replays first (R335). -/
theorem resync_effects {s : State} {p : Nat} {msg : Msg} (hp : p < numPorts) (hproc : (s.port p).proc = .relocked)
    (hlater : (s.port p).later = []) (ack : BitVec 12) :
    ∃ t, exec (.resync p msg ack) s = .next t ∧ (t.port p).proc = .none ∧ (t.port p).replay = (t.port p).buf.map Flit.seq ∧
      (∀ v < 6, Tbl.get 0 (t.port p).grant v = nominal v ∧ Tbl.get 0 (t.port p).receipt v = nominal v ∧
        Tbl.get 0 (t.port p).credit v = nominal v - msgBits msg (72 + 8 * v) 8 -
          ((t.port p).buf.filter fun f => decide (f.kind = 2) && decide (f.field 68 3 = v)).length) ∧
      t.getF (aLnkEvents p) F.lnkEvents_retrains = raised F.lnkEvents_retrains (s.getF (aLnkEvents p) F.lnkEvents_retrains) 1 ∧
      t.shell = s.shell := by
  have hhas : hasPort p = true := decide_eq_true hp
  have hack := (s.takeCtl p msg).takeAck_acked p ack.toNat
  obtain ⟨hport, hshell, hretrains⟩ := ((s.takeCtl p msg).takeAck p ack.toNat).resynced_effects p msg
  have hlater' : ((((s.takeCtl p msg).takeAck p ack.toNat).resynced p msg).port p).later = [] := by
    have hkept : (((s.takeCtl p msg).takeAck p ack.toNat).port p).later = ((s.takeCtl p msg).port p).later :=
      Port.of_incoming Port.later (fun _ => rfl) hack.port
    rw [hport, Port.later_resynced, hkept, State.takeCtl_later, hlater]
  have hrun : exec (.resync p msg ack) s = .next ((((s.takeCtl p msg).takeAck p ack.toNat).resynced p msg).ended p) := by
    rw [← State.procEnd_plain hlater' true]
    simp only [exec_resync, execResync, hhas, if_true, State.takeCtl_proc, hproc, State.resynced, Port.resynced, Port.creditsAfter]
  have htp := (((s.takeCtl p msg).takeAck p ack.toNat).resynced p msg).ended_port p
  rw [hport] at htp
  obtain ⟨hnone, hreplay, hgrants⟩ := Port.resynced_idle (((s.takeCtl p msg).takeAck p ack.toNat).port p) msg
    (((s.takeCtl p msg).takeAck p ack.toNat).encrypts p)
  rw [← htp] at hnone hreplay hgrants
  refine ⟨_, hrun, hnone, hreplay, hgrants, ?_, ?_⟩
  · rw [State.getF_ended _ p (by decide) (.inl (by unfold aLnkEvents aLnkState; omega)), hretrains]
    refine congrArg (raised _ · 1) (hack.regs _ _ ⟨by decide, ?_, ?_, .inl ?_⟩)
    · unfold aLnkEvents aLnkRtt
      omega
    · unfold aLnkEvents aLnkState
      omega
    · unfold aLnkEvents aLnkReplay
      omega
  · rw [State.ended_shell, hshell, hack.rest, State.takeCtl_shell]

/-- Settles O35: each command is one of the transitions above, read through its port, its link registers and its message. -/
theorem sparesAndRetrains : Obligations.SparesAndRetrains := by
  refine ⟨?_, ?_⟩
  · intro s p msg hp hsend s0 ends
    refine ⟨fun hproc => ?_, fun lane hproc hlane => ?_, fun lane wl hproc hlater hlane hwl hmap hold => ?_,
      fun lane wl hproc hlater hold => ?_, fun lane wl hproc => ⟨fun v hv hlater => ?_, fun hlater => ?_⟩⟩
    · have hshell : (s0.setProc p (.spareServed (msgBits msg 72 3) (s.port p).txSpare)).shell = s.shell := s0.setProc_shell p _
      refine ⟨_, exec_spareRequest_serves hp hsend hproc, ?_, ?_, State.mem_sendLink _ p _, State.frame_of_shell hshell⟩
      · rw [State.port_sendLink, State.setProc_port]
        rfl
      · rw [State.lnk_sendLink, State.setProc_lnk]
        rfl
    · have hshell : (s0.setProc p (.spareLocking lane (msgBits msg 76 4))).shell = s.shell := s0.setProc_shell p _
      refine ⟨_, exec_spareGrant_locks hp hproc hlane, ?_, ?_, State.frame_of_shell hshell⟩
      · rw [State.setProc_port]
        rfl
      · rw [State.setProc_lnk]
        rfl
    · obtain ⟨t, hrun, hport, hlnk, hshell, hread⟩ := spareLockComplete_ends hp hproc hlater
      obtain ⟨hmoved, hfailed, hspare, hspareWl, hswaps, -⟩ := s.lanesMoved_shows p lane wl
      have hmap' : t.getF (aLnkLanes p) F.lnkLanes_map = setNibble (s.getF (aLnkLanes p) F.lnkLanes_map) lane wl :=
        ((hread _ _ (by decide) (.inl (by unfold aLnkLanes aLnkState; omega))).trans hmoved).trans (Nat.mod_eq_of_lt
    (setNibble_lt wl hmap hlane))
      refine ⟨t, hrun, ⟨?_, ?_, hlnk, ?_, State.frame_of_shell hshell⟩, ?_, fun i _ hi => ?_, ?_, ?_, ?_⟩
      · rw [hport]
        rfl
      · rw [hport]
        rfl
      · exact (hread _ _ (by decide) (.inl (by unfold aLnkEvents aLnkState; omega))).trans hswaps
      · rw [State.laneWl, hmap', bitsAt_setNibble_same, Nat.mod_eq_of_lt hwl]
      · rw [State.laneWl, hmap', bitsAt_setNibble_other _ _ _ hi, State.laneWl]
      · rw [hread _ _ (by decide) (.inl (by unfold aLnkLanes aLnkState; omega)), hfailed]
        exact testBit_failed _ hold
      · exact (hread _ _ (by decide) (.inr (by decide))).trans hspare
      · exact (hread _ _ (by decide) (.inr (by decide))).trans hspareWl
    · obtain ⟨t, hrun, hport, hlnk, hshell, hread⟩ := spareDone_ends (msg := msg) hp hproc hlater
      obtain ⟨hfailed, hswaps, -⟩ := s0.laneServed_shows p lane wl (msgBits msg 80 4)
      refine ⟨t, hrun, ⟨?_, ?_, hlnk, ?_, State.frame_of_shell (s := s0) hshell⟩, ?_, ?_⟩
      · rw [hport]
        rfl
      · rw [hport]
        rfl
      · exact (hread _ _ (by decide) (.inl (by unfold aLnkEvents aLnkState; omega))).trans hswaps
      · rw [hport]
        rfl
      · rw [hread _ _ (by decide) (.inl (by unfold aLnkLanes aLnkState; omega)), hfailed]
        exact testBit_failed _ hold
    · obtain ⟨t, hrun, hport, hframe⟩ := retrainWrite_waits hp hsend hproc hv
      refine ⟨t, hrun, ?_, ?_, hframe⟩
      · rw [hport, Port.keep, hlater]
        rfl
      · rw [hport, Port.keep]
        split <;> rfl
    · obtain ⟨t, hrun, hnone, hasked, hmsg, hshell⟩ := spareDone_asks (msg := msg) hp hproc hlater
      exact ⟨t, hrun, hnone, hasked, hmsg, State.frame_of_shell hshell⟩
  · intro s p msg hp s0 sends rest
    refine ⟨fun v hv hsend hproc => ?_, fun hsend hproc => ?_, fun cause hproc => ?_, fun breath tq hproc hdue => ?_,
      fun breath tq hproc hdue => ?_, fun d16 rtt hproc => ?_, fun ack hproc hlater => ?_, ?_⟩
    · obtain ⟨t, hrun, hasked, hmsg, hbus, hshell⟩ := retrainWrite_asks hp hsend hproc hv
      exact ⟨t, hrun, hasked, hmsg, hbus, State.frame_of_shell hshell⟩
    · intro waits j
      have hrun := exec_retrainRequest_grants (msg := msg) hp hsend hproc
      refine ⟨fun hlink => ?_, fun hclass hjob => ?_⟩
      · obtain ⟨hwait, hpending, hshell⟩ := s0.waitQuiet_effects p none (s.slotAfter 10000)
        rw [if_neg (by rcases hlink with h | h <;> simp [h])] at hrun
        exact ⟨_, hrun, ⟨hwait, hpending⟩, State.mem_sendLink _ p _, State.frame_of_shell hshell⟩
      · obtain ⟨hwait, hpending, hshell⟩ := s0.waitQuiet_effects p (some (j % 2 ^ 32)) (s.startOf j)
        rw [if_pos ⟨hclass, hjob⟩] at hrun
        exact ⟨_, hrun, ⟨hwait, hpending⟩, State.mem_sendLink _ p _, State.frame_of_shell hshell⟩
    · have hrun := exec_retrainGrant_waits (msg := msg) hp hproc
      by_cases hlink : msg.getLsbD 104 = true
      · obtain ⟨hwait, hpending, hshell⟩ := s0.waitQuiet_effects p none (s.slotAfter 10000)
        rw [if_pos hlink] at hrun
        exact ⟨_, hrun, hwait.trans (if_pos hlink).symm, hpending, State.frame_of_shell hshell⟩
      · obtain ⟨hwait, hpending, hshell⟩ := s0.waitQuiet_effects p (some (msgBits msg 72 32)) (s.startOf (msgBits msg 72 32))
        rw [if_neg hlink] at hrun
        exact ⟨_, hrun, hwait.trans (if_neg hlink).symm, hpending, State.frame_of_shell hshell⟩
    · exact exec_quietStart_early hp hproc hdue
    · obtain ⟨t, hrun, hport, hlnk, hpending, hregs, hshell⟩ := quietStart_silent hp hproc hdue
      exact ⟨t, hrun, by rw [hport]; rfl, hlnk, by rw [hport]; rfl, hpending, hregs, State.frame_of_shell hshell⟩
    · obtain ⟨t, hrun, hduty, hrtt, hdelay, hshell⟩ := relock_effects hp hproc d16 rtt
      exact ⟨t, hrun, congrArg Duty.proc hduty, congrArg Duty.held hduty, hrtt, hdelay, congrArg Duty.exp hduty, State.frame_of_shell hshell⟩
    · obtain ⟨t, hrun, hproc', hgoes, hgrant, hretrains, hshell⟩ := resync_effects (msg := msg) hp hproc hlater ack
      exact ⟨t, hrun, hproc', hgoes, hgrant, hretrains, State.frame_of_shell hshell⟩
    · exact if_pos (decide_eq_true hp)

end Sys2Proof.Machine
end

section
/-! Presentation and landing of scheduled flits (R280 to R292). -/

namespace Sys2Proof.Machine

/-! ### Presentation -/

/-- The port with the flits after its oldest released one. -/
def Port.took (x : Port) (l : List Arrived) : Port := { x with arrived := l }

/-- The port with a flit more in its landing stage. -/
def Port.staged (x : Port) (g : Stage64) : Port := { x with stage := x.stage ++ [g] }

/-- The port with a relay more. -/
def Port.relaying (x : Port) (r : Relay) : Port := { x with relays := x.relays ++ [r] }

/-- A flit in the slot that its tag and the arrival delay name is on time (R280). -/
theorem State.sinceDue_onTime (s : State) {p slot : Nat} {f : Flit} (htag : (slot - s.getF
    (aCrpConfig p) F.crpConfig_arrival) % 4096 = f.field 80 12)
    (hlate : s.getF (aCrpConfig p) F.crpConfig_arrival ≤ slot) : s.sinceDue p slot f = 0 := by
  unfold State.sinceDue
  generalize s.getF (aCrpConfig p) F.crpConfig_arrival = arrival at htag hlate ⊢
  omega

/-- What counting a presentation changes: one field of the port's delays or of its arrivals (R283). -/
theorem State.countPresent_effects (s : State) (p slot : Nat) (a : Arrived) (late : Bool) :
    (s.countPresent p slot a late).bare = s.bare ∧
      (∀ (b : Nat) (g : Fld), g.lo < 64 → (b ≠ aCrpArrive p ∨ g.lo ≠ F.crpArrive_late.lo) → b ≠ aCrpDelay p →
        (s.countPresent p slot a late).getF b g = s.getF b g) ∧
      (late = false → s.regsBut (s.countPresent p slot a late) [(aCrpDelay p, F.crpDelay_minMargin)]) := by
  unfold State.countPresent
  cases late with
  | true =>
    refine ⟨rfl, fun b g hg harrive hdelay => ?_, fun h => absurd h (by decide)⟩
    by_cases hb : b = aCrpArrive p
    · subst hb
      exact State.getF_setF_beside _ _ _ _ _ (harrive.resolve_left fun h => h rfl)
    · exact State.getF_setF_apart _ _ _ _ hb (by decide) hg
  | false =>
    simp only [Bool.false_eq_true, if_false]
    split
    · exact ⟨rfl, fun b g hg _ hdelay => State.getF_setF_apart _ _ _ _ hdelay (by decide) hg,
        fun _ => State.regsBut.setF (State.regsBut_refl s _) List.mem_cons_self _⟩
    · exact ⟨rfl, fun _ _ _ _ _ => rfl, fun _ => State.regsBut_refl s _⟩

theorem arrive_lt {p : Nat} (hp : p < numPorts) : aCrpArrive p < fltBase := by
  have hbound : p < 48 := hp
  unfold aCrpArrive prtBase fltBase
  omega

/-- The tables of the fabric lie apart from the blocks of the ports. -/
theorem fabric_apart {p : Nat} (hp : p < numPorts) {b : Nat} (hb : fabBase ≤ b) : b ≠ aCrpArrive p ∧ b ≠ aCrpDelay p := by
  have hbound : p < 48 := hp
  unfold fabBase at hb
  constructor
  · unfold aCrpArrive prtBase
    omega
  · unfold aCrpDelay prtBase
    omega

/-- The state in which a released flit's descriptor is looked up. -/
def State.presenting (s : State) (p slot : Nat) (a : Arrived) (l : List Arrived) : State :=
  (s.setPort p ((s.port p).took l)).countPresent p slot a (s.lateAt p slot a.flit)

section
variable (s : State) {p : Nat} (slot : Nat) (a : Arrived) (l : List Arrived)

theorem State.presenting_ports : (s.presenting p slot a l).ports = (s.setPort p ((s.port p).took l)).ports :=
  State.of_bare State.ports (fun _ => rfl) (State.countPresent_effects _ p slot a _).1

theorem State.presenting_port (q : Nat) : (s.presenting p slot a l).port q = if q = p then (s.port p).took l else s.port q := by
  rw [State.port, State.presenting_ports, ← State.port, State.port_setPort]

theorem State.presenting_shell : (s.presenting p slot a l).shell = s.shell :=
  (State.shell_of_bare (State.countPresent_effects _ p slot a _).1).trans (s.shell_setPort p _)

theorem State.presenting_desc (hp : p < numPorts) (stream : Nat) : (s.presenting p slot a l).streamDesc stream = s.streamDesc stream := by
  obtain ⟨-, hread, -⟩ := (s.setPort p ((s.port p).took l)).countPresent_effects p slot a (s.lateAt p slot a.flit)
  have hfab : ∀ (b : Nat) (g : Fld), g.lo < 64 → fabBase ≤ b → (s.presenting p slot a l).getF b g = s.getF b g := fun b g hg hb =>
    hread b g hg (.inl (fabric_apart hp hb).1) (fabric_apart hp hb).2
  have htable : ∀ bank i k, fabBase ≤ aStreamTable bank i k := fun bank i k => by
    unfold aStreamTable
    omega
  simp only [State.streamDesc]
  rw [hfab aCrpFabric _ (by decide) (by decide), hfab _ _ (by decide) (htable _ _ _), hfab _ _ (by decide) (htable _ _ _)]

end

section
variable {s : State} {p slot : Nat} {a : Arrived} {l : List Arrived} (hp : p < numPorts) (harrived : (s.port p).arrived = a :: l)
include hp harrived

theorem exec_flitPresent_waits (hwaits : s.waitsSlot p slot a.flit = true) : exec (.flitPresent p slot) s = .next s := by
  have hhas : hasPort p = true := decide_eq_true hp
  simp only [exec_flitPresent, execFlitPresent, hhas, if_true, harrived, hwaits]

variable (hdue : s.waitsSlot p slot a.flit = false)
include hdue

variable {d : BitVec 128} (hd : s.streamDesc (a.flit.field 68 12) = d)
include hd

/-- A flit that no descriptor of the port claims (R289). -/
theorem exec_flitPresent_misrouted (hkind : sd d 0 3 = 0 ∨ 4 ≤ sd d 0 3 ∨ sd d 3 6 ≠ p) :
    exec (.flitPresent p slot) s = .next (((s.presenting p slot a l).bump (aCrpArrive p) F.crpArrive_misrouted 1).event 4 0x31 0 0
      (p + a.flit.field 68 12 * 2 ^ 8)) := by
  have hhas : hasPort p = true := decide_eq_true hp
  have hdesc := (s.presenting_desc slot a l hp (a.flit.field 68 12)).trans hd
  rw [State.presenting, Port.took] at hdesc ⊢
  simp only [exec_flitPresent, execFlitPresent, hhas, if_true, harrived, hdue, Bool.false_eq_true, if_false, hdesc, hkind]

/-- A flit that lands here enters the landing stage (R284, R289). -/
theorem exec_flitPresent_lands (hkind : sd d 0 3 = 1) (hport : sd d 3 6 = p) (hroom : (s.port p).stage.length < 64)
    (hblocked : (s.port p).blocked = []) :
    exec (.flitPresent p slot) s =
      .next ((s.presenting p slot a l).setPort p (((s.port p).took l).staged { flit := a.flit, desc := d })) := by
  have hhas : hasPort p = true := decide_eq_true hp
  have hdesc := (s.presenting_desc slot a l hp (a.flit.field 68 12)).trans hd
  have hown := s.presenting_port (p := p) slot a l p
  rw [if_pos rfl] at hown
  have hstage : ((s.port p).took l).toStage { flit := a.flit, desc := d } = ((s.port p).took l).staged { flit := a.flit, desc := d } :=
    if_pos ⟨hroom, by rw [show ((s.port p).took l).blocked = [] from hblocked]; rfl⟩
  have hlands : ¬(1 = 0 ∨ 4 ≤ 1 ∨ p ≠ p) := by simp
  rw [← hstage]
  rw [State.presenting, Port.took] at hdesc hown ⊢
  simp only [exec_flitPresent, execFlitPresent, hhas, if_true, harrived, hdue, Bool.false_eq_true, if_false, hdesc, hkind, hport, hown, hlands,
    show 1 % 2 = 1 from rfl]

/-- A flit that goes on enters the relay buffer of its next port with its slot (R287). -/
theorem exec_flitPresent_relays (hkind : sd d 0 3 = 2) (hport : sd d 3 6 = p) (hroom : (s.port (sd d 9 6)).relays.length < 64) :
    exec (.flitPresent p slot) s = .next ((s.presenting p slot a l).setPort (sd d 9 6)
      (((s.presenting p slot a l).port (sd d 9 6)).relaying
    { flit := a.flit, due := slot + sd d 15 6, late := s.lateAt p slot a.flit })) := by
  have hhas : hasPort p = true := decide_eq_true hp
  have hdesc := (s.presenting_desc slot a l hp (a.flit.field 68 12)).trans hd
  have hroom' : ¬64 ≤ ((s.presenting p slot a l).port (sd d 9 6)).relays.length := by
    rw [State.presenting_port]
    split
    case isTrue h =>
      rw [h] at hroom
      exact Nat.not_le.mpr hroom
    case isFalse => exact Nat.not_le.mpr hroom
  have hgoes : ¬(2 = 0 ∨ 4 ≤ 2 ∨ p ≠ p) := by simp
  rw [State.presenting, Port.took] at hdesc hroom' ⊢
  simp only [exec_flitPresent, execFlitPresent, hhas, if_true, harrived, hdue, Bool.false_eq_true, if_false, hdesc, hkind, hport, hgoes, hroom',
    show ¬(2 % 2 = 1) by decide, show ¬(2 = 1) by decide, Port.relaying]

end

/-! ### Landing -/

section
variable {β : Type} (g : State → β) (hregs : ∀ s x, g { s with regs := x } = g s)
include hregs

theorem State.groupCheck_frame (hfab : ∀ s x, g { s with fab := x } = g s) (s : State) (stream : Nat) (f : Flit) :
    g (s.groupCheck stream f) = g s := by
  unfold State.groupCheck
  extract_lets c fab s1 s2
  have h1 : g s1 = g s := hfab s _
  have h2 : g s2 = g s := (hregs _ _).trans ((hregs _ _).trans h1)
  split
  · split
    · exact h1
    · split
      · exact h2
      · exact (State.setFs_frame g hregs s2 _ _).trans h2
  · exact hfab s _

end

/-- A group check leaves the fields of other registers than those of its errors and of the step's suspicion. -/
theorem State.getF_groupCheck (s : State) (stream : Nat) (f : Flit) {b : Nat} {g : Fld} (hg : g.lo < 64) (herr : b ≠ aCrpStreamErr)
    (hsusp : b ≠ aFltSusp) : (s.groupCheck stream f).getF b g = s.getF b g := by
  have hfab : ∀ (s : State) x, State.getF { s with fab := x } b g = s.getF b g := fun _ _ => rfl
  unfold State.groupCheck
  extract_lets c fab s1 s2
  have h1 : s1.getF b g = s.getF b g := hfab s _
  have h2 : s2.getF b g = s.getF b g :=
    (State.getF_setF_apart _ _ _ _ hsusp (by decide) hg).trans ((State.getF_setF_apart s1 _ _ _ herr (by decide) hg).trans h1)
  clear_value s2 s1
  split
  · split
    · exact h1
    · split
      · exact h2
      · exact (State.getF_setFs_elsewhere s2 herr rfl hg).trans h2
  · exact hfab s _

/-- The state once the oldest flit of a landing stage has left it and is counted in its stream (R285, R292). -/
def State.landing (s : State) (p : Nat) (f : Flit) : State :=
  ((s.setPort p (s.port p).unstage).wrapAdd (aCrpSeq (f.field 68 12)) F.crpSeq_value 1).groupCheck (f.field 68 12) f

section
variable (s : State) {p : Nat} (f : Flit)

theorem State.landing_frame {β : Type} (g : State → β) (hregs : ∀ s x, g { s with regs := x } = g s) (hports : ∀ s x, g
    { s with ports := x } = g s)
    (hfab : ∀ s x, g { s with fab := x } = g s) : g (s.landing p f) = g s :=
  (State.groupCheck_frame g hregs hfab _ _ _).trans ((hregs _ _).trans (hports _ _))

theorem State.landing_port : (s.landing p f).port p = (s.port p).unstage :=
  (State.groupCheck_frame (State.port · p) (fun _ _ => rfl) (fun _ _ => rfl) _ _ _).trans
    ((State.port_setF ..).trans (s.port_setPort_same p _))

/-- The fabric's registers of a stream lie apart from each other and from those of the group check. -/
theorem crpStream_apart {stream : Nat}
    (h : stream < 4096) : aCrpSeq stream ≠ aCrpStreamErr ∧ aCrpSeq stream ≠ aFltSusp ∧ aCrpCc stream ≠ aCrpStreamErr ∧
    aCrpCc stream ≠ aFltSusp ∧ aCrpCc stream ≠ aCrpSeq stream := by
  unfold aCrpSeq aCrpCc aCrpStreamErr aFltSusp fabBase fltBase
  refine ⟨?_, ?_, ?_, ?_, ?_⟩ <;> omega

theorem Flit.stream_lt : f.field 68 12 < 4096 := Nat.mod_lt _ (by decide)

theorem State.landing_seq : (s.landing p f).getF (aCrpSeq (f.field 68 12)) F.crpSeq_value =
    (s.getF (aCrpSeq (f.field 68 12)) F.crpSeq_value + 1) % 2 ^ 32 := by
  obtain ⟨herr, hsusp, -, -, -⟩ := crpStream_apart (Flit.stream_lt f)
  exact (State.getF_groupCheck _ _ _ (by decide) herr hsusp).trans (State.getF_setF_same ..)

theorem State.landing_cc : (s.landing p f).getF (aCrpCc (f.field 68 12)) F.crpCc_value = s.getF (aCrpCc (f.field 68 12)) F.crpCc_value := by
  obtain ⟨-, -, herr, hsusp, hseq⟩ := crpStream_apart (Flit.stream_lt f)
  exact (State.getF_groupCheck _ _ _ (by decide) herr hsusp).trans (State.getF_setF_apart _ _ _ _ hseq (by decide) (by decide))

/-- A landing without a signal counts in its stream's completion counter (R285). -/
theorem State.landEnd_silent (s : State) (stream : Nat) :
    s.landEnd { stream := stream, sig := none } = s.wrapAdd (aCrpCc stream) F.crpCc_value 1 := rfl

end

theorem landEndOf_silent {d : BitVec 128} (h : sd d 84 2 = 0) (stream q : Nat) : landEndOf stream q d =
    { stream := stream, sig := none } := by
  simp only [landEndOf, h, true_or, if_true]

section
variable {s : State} {p : Nat} {g : Stage64} {l : List Stage64} (hp : p < numPorts) (hstage : (s.port p).stage = g :: l)
  (hsilent : sd g.desc 84 2 = 0)
include hp hstage hsilent

/-- The count that a stream's flit lands with. -/
def State.landingCount (s : State) (g : Stage64) : Nat := s.getF (aCrpSeq (g.flit.field 68 12)) F.crpSeq_value

/-- The four entries that a flit's quarters are written to through the landing input (R285). -/
def Stage64.writes (g : Stage64) (q : Nat) : List LandWrite :=
  let e := sd g.desc 43 6 + 4 * (q % (sd g.desc 49 4 + 1))
  let w := fun (k : Nat) (data : Line) (z : Option LandEnd) =>
    ({ unit := 60 * sd g.desc 33 4 + sd g.desc 37 6, entry := (e + k) % 64, data := data, prov := BitVec.ofNat 2 (g.flit.field 93 2),
       fin := z } : LandWrite)
  [w 0 g.flit.q0 none, w 1 g.flit.q1 none, w 2 g.flit.q2 none, w 3 g.flit.q3 (some { stream := g.flit.field 68 12, sig := none })]

theorem exec_flitLanding_mailbox (hkind : sd g.desc 21 2 = 0) (hroom : (s.island (sd g.desc 24 9)).landings.length ≤ 12) :
    exec (.flitLanding p) s = .next ((s.landing p g.flit).setIsland (sd g.desc 24 9) { (s.landing p g.flit).island (sd g.desc 24 9) with
      landings := ((s.landing p g.flit).island (sd g.desc 24 9)).landings ++ g.writes (s.landingCount g) }) := by
  have hhas : hasPort p = true := decide_eq_true hp
  have hfree : ¬16 < (s.island (sd g.desc 24 9)).landings.length + 4 := by omega
  simp only [exec_flitLanding, execFlitLanding, hhas, if_true, hstage, hkind, hfree, if_false, landEndOf_silent hsilent, State.landing,
    Stage64.writes, State.landingCount]

theorem exec_flitLanding_tile (hkind : sd g.desc 21 2 = 1) :
    exec (.flitLanding p) s = .next (((s.landing p g.flit).store
      (s.tileBase (sd g.desc 24 9) (60 * sd g.desc 33 4 + sd g.desc 37 6) + sd g.desc 43 18 +
        256 * (s.landingCount g % (sd g.desc 64 20 + 1))) g.flit.bytes (BitVec.ofNat 2 (g.flit.field 93 2))).wrapAdd
          (aCrpCc (g.flit.field 68 12)) F.crpCc_value 1) := by
  have hhas : hasPort p = true := decide_eq_true hp
  simp only [exec_flitLanding, execFlitLanding, hhas, if_true, hstage, hkind, landEndOf_silent hsilent, State.landing, State.landingCount,
    State.landEnd_silent]

theorem exec_flitLanding_staging (hkind : 2 ≤ sd g.desc 21 2) :
    exec (.flitLanding p) s = .next ((((s.landing p g.flit).writeBytes
      (stgBase + stgSize * sd g.desc 24 3 + (sd g.desc 27 26 + 256 * (s.landingCount g % (sd g.desc 64 20 + 1))) % stgSize)
        g.flit.bytes).repair
      (stgBase + stgSize * sd g.desc 24 3 + (sd g.desc 27 26 + 256 * (s.landingCount g % (sd g.desc 64 20 + 1))) % stgSize) 256).wrapAdd
          (aCrpCc (g.flit.field 68 12)) F.crpCc_value 1) := by
  have hhas : hasPort p = true := decide_eq_true hp
  have h0 : sd g.desc 21 2 = 0 → False := fun h => by omega
  have h1 : sd g.desc 21 2 = 1 → False := fun h => by omega
  simp only [exec_flitLanding, execFlitLanding, hhas, if_true, hstage, landEndOf_silent hsilent, State.landEnd_silent, State.landing,
    State.landingCount]

end

/-- Bytes written to staging and the words they repair change memory alone. -/
theorem State.stagingWrite_frame {β : Type} (g : State → β) (hmem : ∀ s x, g { s with mem := x } = g s) (hbad : ∀ s x, g
    { s with bad := x } = g s)
    (s : State) (a n : Nat) (bs : List Byte) : g ((s.writeBytes a bs).repair a n) = g s := by
  have hbytes : ∀ (bs : List Byte) (s : State) a, g (s.writeBytes a bs) = g s := by
    intro bs
    induction bs with
    | nil => exact fun _ _ => rfl
    | cons b bs ih => exact fun s a => (ih _ _).trans (hmem s _)
  unfold State.repair
  split
  · exact hbytes bs s a
  · exact (hbad _ _).trans (hbytes bs s a)

theorem State.readByte_stagingWrite (s : State) (a n : Nat) (bs : List Byte) (i : Nat) :
    ((s.writeBytes a bs).repair a n).readByte i = if a ≤ i ∧ i < a + bs.length then bs.getD (i - a) 0 else s.readByte i := by
  rw [← State.readByte_writeBytes]
  unfold State.repair
  split <;> rfl

/-- Settles O31: each case is the command's own equation above, read through `State.presenting` and `State.landing`. -/
theorem presentationAndLanding : Obligations.PresentationAndLanding := by
  refine ⟨?_, ?_⟩
  · intro s p slot a l f stream d kind arrival hp harrived
    refine ⟨fun hwaits => exec_flitPresent_waits hp harrived hwaits, fun hflag hafter htag => ?_⟩
    have hdue : s.sinceDue p slot f = 0 := s.sinceDue_onTime htag hafter
    have hwaits : s.waitsSlot p slot f = false := by simp [State.waitsSlot, hdue]
    have hlate : s.lateAt p slot f = false := by rw [State.lateAt, hflag, hdue]; rfl
    have hshell := s.presenting_shell (p := p) slot a l
    have hown := s.presenting_port (p := p) slot a l p
    rw [if_pos rfl] at hown
    have hregs : s.regsBut (s.presenting p slot a l) [(aCrpDelay p, F.crpDelay_minMargin)] :=
      ((s.setPort p ((s.port p).took l)).countPresent_effects p slot a (s.lateAt p slot f)).2.2 hlate
    refine ⟨fun hkind hport hroom hblocked => ?_, fun hkind hport hroom => ?_, fun hkind => ?_⟩
    · refine ⟨_, exec_flitPresent_lands hp harrived hwaits rfl hkind hport hroom hblocked, ?_, ?_, fun q hq => ?_, hregs,
        State.frame_of_shell ((State.shell_setPort ..).trans hshell)⟩
      · exact congrArg Port.arrived (State.port_setPort_same _ p _)
      · exact congrArg Port.stage (State.port_setPort_same _ p _)
      · rw [State.port_setPort, if_neg hq, State.presenting_port, if_neg hq]
    · have hrelays : ((s.presenting p slot a l).port (sd d 9 6)).relays = (s.port (sd d 9 6)).relays := by
        rw [State.presenting_port]
        split
        case isTrue h => rw [h]; rfl
        case isFalse => rfl
      refine ⟨_, exec_flitPresent_relays hp harrived hwaits rfl hkind hport hroom, ?_, ?_, hregs,
        State.frame_of_shell ((State.shell_setPort ..).trans hshell)⟩
      · rw [State.port_setPort]
        split
        case isTrue h => rw [← h, hown]; rfl
        case isFalse => rw [hown]; rfl
      · rw [State.port_setPort_same, ← hlate, ← hrelays]
        rfl
    · have hbare := State.bare_event ((s.presenting p slot a l).bump (aCrpArrive p) F.crpArrive_misrouted 1) 4 0x31 0 0
        (p + a.flit.field 68 12 * 2 ^ 8)
      have hport := (congrArg (Tbl.get Port.reset · p) (State.of_bare State.ports (fun _ => rfl) hbare)).trans hown
      refine ⟨_, exec_flitPresent_misrouted hp harrived hwaits rfl hkind, congrArg Port.arrived hport, (congrArg Port.stage hport).trans rfl, ?_,
        State.frame_of_shell ((State.shell_of_bare hbare).trans hshell)⟩
      refine (State.getF_event _ _ _ _ _ _ (logReg_of_lt (arrive_lt hp)) (by decide)).trans ((State.getF_bump_same ..).trans ?_)
      exact congrArg (raised _ · 1) (((s.setPort p ((s.port p).took l)).countPresent_effects p slot a _).2.1 _ _ (by decide) (.inr (by decide))
        (by unfold aCrpArrive aCrpDelay; omega))
  · intro s p g l f d stream q hp hstage hsilent ends counts puts
    have hports : (s.landing p f).port p = (s.port p).unstage := s.landing_port f
    have hends : ∀ t : State, t.port p = (s.landing p f).port p →
        t.getF (aCrpSeq stream) F.crpSeq_value = (s.landing p f).getF (aCrpSeq stream) F.crpSeq_value → ends t := fun t hport hseq => by
      refine ⟨?_, hseq.trans (s.landing_seq f)⟩
      rw [hport, hports, Port.unstage, hstage]
      rfl
    have hcc : ∀ t : State, t.getF (aCrpCc stream) F.crpCc_value = (s.landing p f).getF (aCrpCc stream) F.crpCc_value →
        counts (t.wrapAdd (aCrpCc stream) F.crpCc_value 1) := fun t ht =>
      (State.getF_setF_same ..).trans (congrArg (fun v => (v + 1) % 2 ^ F.crpCc_value.width) (ht.trans (s.landing_cc f)))
    have hseq : ∀ t : State, (t.wrapAdd (aCrpCc stream) F.crpCc_value 1).getF (aCrpSeq stream) F.crpSeq_value =
        t.getF (aCrpSeq stream) F.crpSeq_value := fun t =>
      State.getF_setF_apart _ _ _ _ (crpStream_apart (Flit.stream_lt f)).2.2.2.2.symm (by decide) (by decide)
    have hisl : s.sameIslands (s.landing p f) :=
      ⟨s.landing_frame f State.cores (fun _ _ => rfl) (fun _ _ => rfl) fun _ _ => rfl,
        s.landing_frame f State.clusters (fun _ _ => rfl) (fun _ _ => rfl) fun _ _ => rfl,
        s.landing_frame f State.islands (fun _ _ => rfl) (fun _ _ => rfl) fun _ _ => rfl⟩
    have hbytes : ∀ i, (s.landing p f).readByte i = s.readByte i := fun i =>
      s.landing_frame f (State.readByte · i) (fun _ _ => rfl) (fun _ _ => rfl) fun _ _ => rfl
    have hlength : f.bytes.length = 256 := length_bytesOfNat 256 _
    refine ⟨fun hkind hroom => ?_, fun hkind => ?_, fun hkind => ?_⟩
    · refine ⟨_, exec_flitLanding_mailbox hp hstage hsilent hkind hroom, hends _ rfl rfl, ?_, hisl.1, ?_⟩
      · exact ⟨s.landing_frame f State.mem (fun _ _ => rfl) (fun _ _ => rfl) fun _ _ => rfl,
          s.landing_frame f State.tags (fun _ _ => rfl) (fun _ _ => rfl) fun _ _ => rfl,
          s.landing_frame f State.bad (fun _ _ => rfl) (fun _ _ => rfl) fun _ _ => rfl⟩
      · intro e w
        have hbefore : (s.landing p f).island (sd d 24 9) = s.island (sd d 24 9) := congrArg (Tbl.get Island.reset · (sd d 24 9)) hisl.2.2
        rw [State.island_setIsland_same, hbefore]
        rfl
    · have hout := (s.landing p f).outside_store (s.tileBase (sd d 24 9) (60 * sd d 33 4 + sd d 37 6) + sd d 43 18 + 256 * (q % (sd d 64 20 + 1)))
        f.bytes (BitVec.ofNat 2 (f.field 93 2))
      have hreg : ∀ b g, State.getF _ b g = (s.landing p f).getF b g := fun b g =>
        congrArg (fun o : Outside => Tbl.get 0 o.regs (fkey b g) ^^^ g.reset) hout
      have hunits := congrArg Outside.units hout
      refine ⟨_, exec_flitLanding_tile hp hstage hsilent hkind, hends _ ?_ ((hseq _).trans (hreg _ _)), hcc _ (hreg _ _), ?_, fun i => ?_⟩
      · exact State.store_frame (State.port · p) (fun _ _ _ _ => rfl) _ _ _ _
      · exact hisl.trans (State.sameIslands_of_units hunits)
      · refine (State.readByte_store _ _ _ _ i).trans ?_
        rw [hlength, hbytes]
        rfl
    · have hframe : ∀ {β : Type} (g : State → β), (∀ s x, g { s with mem := x } = g s) → (∀ s x, g { s with bad := x } = g s) →
          g (((s.landing p f).writeBytes (stgBase + stgSize * sd d 24 3 + (sd d 27 26 + 256 * (q % (sd d 64 20 + 1))) % stgSize) f.bytes).repair
            (stgBase + stgSize * sd d 24 3 + (sd d 27 26 + 256 * (q % (sd d 64 20 + 1))) % stgSize) 256) = g (s.landing p f) :=
        fun g hmem hbad => State.stagingWrite_frame g hmem hbad _ _ _ _
      refine ⟨_, exec_flitLanding_staging hp hstage hsilent hkind, hends _ ?_ ((hseq _).trans ?_), hcc _ ?_, ?_, ?_, fun i => ?_⟩
      · exact hframe (State.port · p) (fun _ _ => rfl) fun _ _ => rfl
      · exact hframe (State.getF · _ _) (fun _ _ => rfl) fun _ _ => rfl
      · exact hframe (State.getF · _ _) (fun _ _ => rfl) fun _ _ => rfl
      · exact ⟨(hframe State.cores (fun _ _ => rfl) fun _ _ => rfl).trans hisl.1, (hframe State.clusters (fun _ _ => rfl) fun _ _ => rfl).trans hisl.2.1,
          (hframe State.islands (fun _ _ => rfl) fun _ _ => rfl).trans hisl.2.2⟩
      · exact (hframe State.tags (fun _ _ => rfl) fun _ _ => rfl).trans
          (s.landing_frame f State.tags (fun _ _ => rfl) (fun _ _ => rfl) fun _ _ => rfl)
      · refine (State.readByte_stagingWrite _ _ _ _ i).trans ?_
        rw [hlength, hbytes]
        rfl

end Sys2Proof.Machine
end

section
/-! Resets and the release of reset (R445, R471, R472, R477 to R479, R517). -/

namespace Sys2Proof.Machine

/-! ### Resets -/

/-- What is fused stays in its register (R472). -/
theorem State.getF_cleared_fused (s : State) {b : Nat} {g : Fld} (h : isFused (fkey b g) = true) : s.cleared.getF b g = s.getF b g :=
  s.getF_filterRegs (fun k => isFused k || inSwitchStore k) (by rw [h, Bool.true_or])

/-- A register that is not fused and no word of a switch's store has its reset value. -/
theorem State.getF_cleared_reset (s : State) {b : Nat} {g : Fld} (h : (isFused (fkey b g) || inSwitchStore (fkey b g)) = false) :
    s.cleared.getF b g = g.reset := by
  have hget := Tbl.get_filter 0 s.regs (fun k => isFused k || inSwitchStore k) (fkey b g)
  rw [if_neg (by rw [h]; decide)] at hget
  exact (congrArg (· ^^^ g.reset) hget).trans (Nat.zero_xor _)

/-- What every reset leaves (R471, R472). -/
structure State.Wiped (s t : State) : Prop where
  cores    : t.cores = []
  clusters : t.clusters = []
  islands  : t.islands = []
  ports    : t.ports = []
  beat     : t.beatAcc = 0
  manifest : t.manifest = none
  sessions : t.boc.sessions = []
  nv       : t.nv = s.nv
  ledger   : t.flt.ledger = s.flt.ledger
  pending  : t.pending = s.pending
  step     : t.getF aBocState F.bocState_step = 0
  errata   : t.getF aBocReproKey F.bocReproKey_errataRev = s.getF aBocReproKey F.bocReproKey_errataRev

theorem State.cleared_wiped (s : State) : s.Wiped s.cleared where
  cores := rfl
  clusters := rfl
  islands := rfl
  ports := rfl
  beat := rfl
  manifest := rfl
  sessions := rfl
  nv := rfl
  ledger := rfl
  pending := rfl
  step := s.getF_cleared_reset (by decide)
  errata := s.getF_cleared_fused (by decide)

/-- What a reset other than power-on keeps of the LPDDR5X lines, before its cause is set (R471). -/
def State.clearedKeepingLines (s : State) : State :=
  { s.cleared with
    mem := s.mem.filter fun p => decide (p.1 < lpEnd)
    tags := s.tags.filter fun p => decide (64 * p.1 < lpEnd)
    bad := s.bad.filter fun p => decide (8 * p.1 < lpEnd)
    tier := { s.cleared.tier with lineKey := s.tier.lineKey } }

theorem State.resetBy_eq (s : State) (cause : Nat) : s.resetBy cause = s.clearedKeepingLines.setFs aBocResetCause
    [(F.bocResetCause_cause, cause), (F.bocResetCause_count, min (s.getF aBocResetCause F.bocResetCause_count + 1) 65535)] := rfl

theorem State.resetBy_wiped (s : State) (cause : Nat) : s.Wiped (s.resetBy cause) := by
  have hframe : ∀ {β : Type} (g : State → β), (∀ s x, g { s with regs := x } = g s) → g (s.resetBy cause) = g s.clearedKeepingLines := fun g hregs => by
    rw [State.resetBy_eq]
    exact State.setFs_frame g hregs _ _ _
  have hread : ∀ (b : Nat) (g : Fld), g.lo < 64 → b ≠ aBocResetCause → (s.resetBy cause).getF b g = s.cleared.getF b g := fun b g hg hb => by
    rw [State.resetBy_eq]
    exact State.getF_setFs_elsewhere _ hb rfl hg
  have h := s.cleared_wiped
  exact {
    cores := hframe State.cores fun _ _ => rfl
    clusters := hframe State.clusters fun _ _ => rfl
    islands := hframe State.islands fun _ _ => rfl
    ports := hframe State.ports fun _ _ => rfl
    beat := hframe State.beatAcc fun _ _ => rfl
    manifest := hframe State.manifest fun _ _ => rfl
    sessions := hframe (fun s => s.boc.sessions) fun _ _ => rfl
    nv := hframe State.nv fun _ _ => rfl
    ledger := hframe (fun s => s.flt.ledger) fun _ _ => rfl
    pending := hframe State.pending fun _ _ => rfl
    step := (hread _ _ (by decide) (by decide)).trans h.step
    errata := (hread _ _ (by decide) (by decide)).trans h.errata }

/-- Its cause and count, and what the LPDDR5X lines hold. -/
theorem State.resetBy_counts (s : State) {cause : Nat} (h : cause < 8) :
    (s.resetBy cause).getF aBocResetCause F.bocResetCause_cause = cause ∧
      (s.resetBy cause).getF aBocResetCause F.bocResetCause_count = min (s.getF aBocResetCause F.bocResetCause_count + 1) 65535 ∧
      (∀ i, (s.resetBy cause).readByte i = if i < lpEnd then s.readByte i else 0) ∧ (s.resetBy cause).pins.power = .held := by
  refine ⟨s.resetBy_cause h, ?_, fun i => ?_, ?_⟩
  · rw [State.resetBy_eq]
    refine (State.getF_setFs_mem (by exact (show [0, 4].Nodup by decide)) (List.mem_cons_of_mem _ List.mem_cons_self) _).trans ?_
    exact Nat.mod_eq_of_lt (Nat.lt_of_le_of_lt (Nat.min_le_right _ _) (by decide))
  · have hget := Tbl.get_filter (0 : Byte) s.mem (fun k => decide (k < lpEnd)) i
    simp only [decide_eq_true_eq] at hget
    rw [State.resetBy_eq]
    exact (State.setFs_frame (State.readByte · i) (fun _ _ => rfl) _ _ _).trans hget
  · rw [State.resetBy_eq]
    exact State.setFs_frame (fun s => s.pins.power) (fun _ _ => rfl) _ _ _

/-- The pins' state changed after a reset. -/
theorem State.Wiped.pins {s t : State} (h : s.Wiped t) (x : Pins) : s.Wiped { t with pins := x } :=
  ⟨h.cores, h.clusters, h.islands, h.ports, h.beat, h.manifest, h.sessions, h.nv, h.ledger, h.pending, h.step, h.errata⟩

/-! ### Measurements and the boot -/

/-- A measurement lies apart from the registers before and after its block. -/
theorem State.getF_extend (s : State) {i : Nat} (hi : i < 16) (d : BitVec 512) {b : Nat} {g : Fld} (hg : g.lo < 64)
    (hb : b < secBase + 0x1000 ∨ secBase + 0x2000 ≤ b) : (s.extend i d).getF b g = s.getF b g := by
  have hset : ∀ (s : State) v, (s.setMeas i v).getF b g = s.getF b g := fun s v => by
    refine List.foldlRecOn (motive := fun t : State => t.getF b g = s.getF b g) _ _ rfl fun t ht k hk => ?_
    have hk' := List.mem_range.mp hk
    exact (State.getF_setF_apart _ _ _ _ (by unfold aSecMeas; omega) (by decide) hg).trans ht
  exact hset s _

theorem State.extend_frame {β : Type} (g : State → β) (hregs : ∀ s x, g { s with regs := x } = g s) (s : State) (i : Nat) (d : BitVec 512) :
    g (s.extend i d) = g s := State.setMeas_frame g hregs s i _

theorem State.showOwner_effects (s : State) : (∀ (b : Nat) (g : Fld), g.lo < 64 → b ≠ aSecState → s.showOwner.getF b g = s.getF b g) ∧
    ∀ {β : Type} (g : State → β), (∀ s x, g { s with regs := x } = g s) → g s.showOwner = g s := by
  unfold State.showOwner
  split
  · exact ⟨fun b g hg hb => State.getF_setFs_elsewhere s hb rfl hg, fun g hregs => State.setFs_frame g hregs s _ _⟩
  · exact ⟨fun b g hg hb => State.getF_setFs_elsewhere s hb rfl hg, fun g hregs => State.setFs_frame g hregs s _ _⟩

/-- The owner's key measured (R447, R448). -/
def State.measureOwner (s : State) : State :=
  match s.owner with
  | some o => s.extend 3 o.key
  | none => s

/-- What the ROM shows of itself before it looks at the owner (R447, R478). -/
def State.romShown (s : State) (env : BootEnv) : State :=
  { s.extend 0 env.romDigest with boc := { (s.extend 0 env.romDigest).boc with
    kems := (s.extend 0 env.romDigest).boc.kems + 1, challenge := env.challenge } }

/-- The state in which boot chooses a firmware slot (R447, R448, R478). -/
def State.beforeSlot (s : State) (env : BootEnv) : State := (s.romShown env).showOwner.measureOwner

theorem State.measureOwner_frame {β : Type} (g : State → β) (hregs : ∀ s x, g { s with regs := x } = g s) (s : State) :
    g s.measureOwner = g s := by
  unfold State.measureOwner
  split
  · exact State.extend_frame g hregs s _ _
  · rfl

theorem State.getF_measureOwner (s : State) {b : Nat} {g : Fld} (hg : g.lo < 64) (hb : b < secBase + 0x1000 ∨ secBase + 0x2000 ≤ b) :
    s.measureOwner.getF b g = s.getF b g := by
  unfold State.measureOwner
  split
  · exact State.getF_extend s (by decide) _ hg hb
  · rfl

theorem State.romShown_frame {β : Type} (g : State → β) (hregs : ∀ s x, g { s with regs := x } = g s)
    (hboc : ∀ s x y, g { s with boc := { s.boc with kems := x, challenge := y } } = g s) (s : State) (env : BootEnv) : g
    (s.romShown env) = g s := by
  unfold State.romShown
  exact (hboc _ _ _).trans (State.extend_frame g hregs s _ _)

theorem State.getF_romShown (s : State) (env : BootEnv) {b : Nat} {g : Fld} (hg : g.lo < 64)
    (hb : b < secBase + 0x1000 ∨ secBase + 0x2000 ≤ b) :
    (s.romShown env).getF b g = s.getF b g := by
  have hboc : ∀ (s : State) x, State.getF { s with boc := x } b g = s.getF b g := fun _ _ => rfl
  unfold State.romShown
  exact (hboc _ _).trans (State.getF_extend s (by decide) _ hg hb)

theorem State.beforeSlot_frame {β : Type} (g : State → β) (hregs : ∀ s x, g { s with regs := x } = g s)
    (hboc : ∀ s x y, g { s with boc := { s.boc with kems := x, challenge := y } } = g s) (s : State) (env : BootEnv) :
    g (s.beforeSlot env) = g s :=
  (State.measureOwner_frame g hregs _).trans (((State.showOwner_effects _).2 g hregs).trans (State.romShown_frame g hregs hboc s env))

theorem State.getF_beforeSlot (s : State) (env : BootEnv) {b : Nat} {g : Fld} (hg : g.lo < 64) (hstate : b ≠ aSecState)
    (hb : b < secBase + 0x1000 ∨ secBase + 0x2000 ≤ b) : (s.beforeSlot env).getF b g = s.getF b g :=
  (State.getF_measureOwner _ hg hb).trans (((State.showOwner_effects _).1 b g hg hstate).trans (s.getF_romShown env hg hb))

/-- The slots are judged by the boot control record, the revoked keys and the first counter alone (R445). -/
theorem State.bootSlot_congr {s t : State} (hnv : t.nv = s.nv)
    (hkeys : t.getF aSecFwkeys F.secFwkeys_revoked = s.getF aSecFwkeys F.secFwkeys_revoked)
    (hctr : t.getF aSecCounters F.secCounters_ctr0 = s.getF aSecCounters F.secCounters_ctr0)
    (env : BootEnv) : t.bootSlot env = s.bootSlot env := by
  have hok : ∀ x, t.slotOk x = s.slotOk x := fun x => by rw [State.slotOk, hkeys, hctr, State.slotOk]
  simp only [State.bootSlot, hnv, hok]

theorem State.bootSlot_beforeSlot (s : State) (env : BootEnv) : (s.beforeSlot env).bootSlot env = s.bootSlot env :=
  State.bootSlot_congr (State.beforeSlot_frame State.nv (fun _ _ => rfl) (fun _ _ _ => rfl) s env)
    (s.getF_beforeSlot env (by decide) (by decide) (.inl (by decide))) (s.getF_beforeSlot env (by decide) (by decide) (.inl
    (by decide))) env

/-- A firmware slot measured and entered (R445, R447). -/
def State.entered (s : State) (env : BootEnv) (slot : Nat) (fb : Bool) (trial : Nat) : State :=
  let x := if slot = 0 then env.slotA else env.slotB
  let s1 := { s with boc := { s.boc with secVer := x.secVer } }.extend 1 x.digest
  let s2 := s1.extend 2 (BitVec.ofNat 512 (slot + if fb then 256 else 0))
  (s2.setFs aSecState [(F.secState_slot, slot), (F.secState_fallback, if fb then 1 else 0), (F.secState_trial, trial)]).setF aSecFwkeys
    F.secFwkeys_signer x.signer

/-- The boot control record after the choice (R445, R478). -/
def State.bcrKept (s : State) (env : BootEnv) : State := { s with nv := { s.nv with bcr := (bootChoice s.nv.bcr env.bcrOk).2 } }

/-- What follows the choice of a slot (R445, R478, R479). -/
def State.chosen (s : State) (env : BootEnv) : Option (Nat × Bool) → State
  | none => { s.bcrKept env with boc := { (s.bcrKept env).boc with recovery := true } }.setF aBocState F.bocState_step 2
  | some (slot, fb) => (s.bcrKept env).entered env slot fb
      (if env.bcrOk && (s.bcrKept env).nv.bcr.trial && decide (slot = (s.bcrKept env).nv.bcr.preferred) then 1 else 0)

theorem State.boot_eq (s : State) (env : BootEnv) : s.boot env = (s.beforeSlot env).chosen env ((s.beforeSlot env).bootSlot env) := by
  unfold State.boot State.beforeSlot State.measureOwner State.romShown State.chosen State.bcrKept State.entered
  rfl

/-- A slot entered shows in SEC_STATE (R445, R470). -/
theorem State.entered_effects (s : State) (env : BootEnv) {slot : Nat} (hslot : slot < 2) (fb : Bool) (trial : Nat) :
    (s.entered env slot fb trial).getF aSecState F.secState_slot = slot ∧
    (s.entered env slot fb trial).getF aSecState F.secState_fallback = fb.toNat ∧
      (∀ (b : Nat) (g : Fld), g.lo < 64 → b ≠ aSecState → b ≠ aSecFwkeys → (b < secBase + 0x1000 ∨ secBase + 0x2000 ≤ b) →
        (s.entered env slot fb trial).getF b g = s.getF b g) ∧
      ∀ {β : Type} (g : State → β), (∀ s x, g { s with regs := x } = g s) → (∀ s x, g { s with boc := { s.boc with secVer := x } } = g s) →
        g (s.entered env slot fb trial) = g s := by
  have hboc : ∀ (s : State) (b : Nat) (g : Fld) x, State.getF { s with boc := x } b g = s.getF b g := fun _ _ _ _ => rfl
  have hlos : [11, 12, 13].Nodup := by decide
  unfold State.entered
  extract_lets x boc s1 s2
  have h2 : ∀ (b : Nat) (g : Fld), g.lo < 64 → (b < secBase + 0x1000 ∨ secBase + 0x2000 ≤ b) → s2.getF b g = s.getF b g := fun b g hg hb =>
    (State.getF_extend s1 (by decide) _ hg hb).trans ((State.getF_extend _ (by decide) _ hg hb).trans (hboc s b g _))
  have hframe : ∀ {β : Type} (g : State → β), (∀ s x, g { s with regs := x } = g s) → (∀ s x, g { s with boc := { s.boc with secVer := x } } = g s) →
      g s2 = g s := fun g hregs hboc =>
    (State.extend_frame g hregs s1 _ _).trans ((State.extend_frame g hregs _ _ _).trans (hboc s _))
  clear_value s2
  have hkey : aSecState ≠ aSecFwkeys := by decide
  refine ⟨?_, ?_, fun b g hg hstate hkeys hb => ?_, fun g hregs hboc => ?_⟩
  · refine (State.getF_setF_apart _ _ _ _ hkey (by decide) (by decide)).trans ?_
    exact (State.getF_setFs_mem (by exact hlos) List.mem_cons_self s2).trans (Nat.mod_eq_of_lt hslot)
  · refine (State.getF_setF_apart _ _ _ _ hkey (by decide) (by decide)).trans ?_
    refine (State.getF_setFs_mem (by exact hlos) (List.mem_cons_of_mem _ List.mem_cons_self) s2).trans ?_
    cases fb <;> rfl
  · exact (State.getF_setF_apart _ _ _ _ hkeys (by decide) hg).trans ((State.getF_setFs_elsewhere s2 hstate rfl hg).trans (h2 b g hg hb))
  · exact (hregs _ _).trans ((State.setFs_frame g hregs s2 _ _).trans (hframe g hregs hboc))

/-! ### Self-test -/

section
variable {β : Type} (g : State → β) (hregs : ∀ s x, g { s with regs := x } = g s) (hflt : ∀ s x, g { s with flt := x } = g s)
  (hrcv : ∀ s x, g { s with rcv := x } = g s)
include hregs

theorem State.mapChannels_frame (s : State) (f : Nat) : g (s.mapChannels f) = g s := by
  unfold State.mapChannels
  exact (State.foldl_frame g _ (fun t c => hregs t _) _).trans (State.setFs_frame g hregs s _ _)

theorem State.showUnits_frame (s : State) : g s.showUnits = g s := by
  unfold State.showUnits
  split
  · exact State.setFs_frame g hregs s _ _
  · rfl

include hflt hrcv

omit hregs in
theorem State.lostAtBoot_frame (s : State) (u : List (BitVec 32)) (n : Nat) :
    g { s with flt := { s.flt with retired := u }, rcv := { s.rcv with retired := n } } = g s :=
  (hrcv { s with flt := { s.flt with retired := u } } _).trans (hflt s _)

theorem State.failAtBoot_frame (s : State) (cause : Nat) (u : BitVec 32) : g (s.failAtBoot cause u) = g s := by
  simp only [State.failAtBoot]
  split
  · rfl
  · exact (State.lostAtBoot_frame g hflt hrcv _ _ _).trans ((State.event_frame g hregs hflt _ _ _ _ _ _).trans
      ((State.ledgerRecord_frame g hregs hflt _ _ _ _ _).trans (State.ledgerRecord_frame g hregs hflt _ _ _ _ _)))

theorem State.macroFails_frame (s : State) (owner : Nat) (m : BitVec 32) : g (s.macroFails owner m) = g s := by
  simp only [State.macroFails]
  split
  · exact State.ledgerRecord_frame g hregs hflt _ _ _ _ _
  · exact (State.lostAtBoot_frame g hflt hrcv _ _ _).trans ((State.event_frame g hregs hflt _ _ _ _ _ _).trans
      ((State.ledgerRecord_frame g hregs hflt _ _ _ _ _).trans (State.ledgerRecord_frame g hregs hflt _ _ _ _ _)))

theorem State.selfTest_frame (s : State) (env : BootEnv) : g (s.selfTest env) = g s := by
  unfold State.selfTest
  extract_lets known flt s1 s2 s3 s4 flt' s5
  have h1 : g s1 = g s := hflt s _
  have h2 : g s2 = g s := (State.foldl_frame g _ (fun t c => State.failAtBoot_frame g hregs hflt hrcv t 8 _) s1).trans h1
  have h3 : g s3 = g s := (State.foldl_frame g _ (fun t u => State.failAtBoot_frame g hregs hflt hrcv t 5 u) s2).trans h2
  have h4 : g s4 = g s := (State.foldl_frame g _ (fun t (m : Nat × BitVec 32) => State.macroFails_frame g hregs hflt hrcv t m.1 m.2) s3).trans h3
  have h5 : g s5 = g s := (hflt s4 _).trans h4
  exact (State.foldl_frame g _ (fun t f => State.mapChannels_frame g hregs t f) s5).trans h5

theorem State.crossingFails_frame (s : State) (n q : Nat) : g (s.crossingFails n q) = g s := by
  unfold State.crossingFails
  split
  · exact (State.showUnits_frame g hregs _).trans (State.failAtBoot_frame g hregs hflt hrcv s 5 _)
  · rfl

end

/-! ### Registers that self-test leaves alone -/

/-- A register that neither an event nor a record of the ledger writes. -/
def calm (b : Nat) : Bool := decide (b ≠ aFltRing ∧ b ≠ aFltLedger ∧ ¬(aFltEvent 0 0 ≤ b ∧ b < aFltEvent 4096 0))

theorem calm_iff {b : Nat} : calm b = true ↔ b ≠ aFltRing ∧ b ≠ aFltLedger ∧ ¬(aFltEvent 0 0 ≤ b ∧ b < aFltEvent 4096 0) := decide_eq_true_iff

theorem State.getF_writeEvent_calm (s : State) (cls code flags : Nat) (unit : BitVec 32) (detail : Nat) {b : Nat} {g : Fld} (hb : calm b)
    (hg : g.lo < 64) : (s.writeEvent cls code flags unit detail).getF b g = s.getF b g := by
  obtain ⟨hring, -, hevents⟩ := calm_iff.mp hb
  have hset : ∀ (t : State) f v, f.lo < 64 → (t.setF aFltRing f v).getF b g = t.getF b g := fun t f v hf =>
    State.getF_setF_apart t f g v hring hf hg
  have hword : ∀ (t : State) i k v, i < 4096 → k < 8 → (t.setF (aFltEvent i k) F.fltEvent_word v).getF b g = t.getF b g := fun t i k v hi hk =>
    State.getF_setF_apart t F.fltEvent_word g v (by simp only [aFltEvent] at hevents ⊢; omega) (by decide) hg
  simp only [State.writeEvent]
  refine (hset _ _ _ (by decide)).trans ?_
  have hwords : ∀ img, ((List.range 8).foldl (fun t k => t.setF (aFltEvent (s.getF aFltRing F.fltRing_head % 4096) k) F.fltEvent_word
      (img / 2 ^ (64 * k))) s).getF b g = s.getF b g := fun img =>
    List.foldlRecOn (motive := fun t : State => t.getF b g = s.getF b g) _ _ rfl fun t ht k hk =>
      (hword t _ k _ (Nat.mod_lt _ (by decide)) (List.mem_range.mp hk)).trans ht
  split
  · exact (hset _ _ _ (by decide)).trans ((hset _ _ _ (by decide)).trans (hwords _))
  · exact hwords _

theorem State.getF_event_calm (s : State) (cls code flags : Nat) (unit : BitVec 32) (detail : Nat) {b : Nat} {g : Fld} (hb : calm b)
    (hg : g.lo < 64) : (s.event cls code flags unit detail).getF b g = s.getF b g := by
  unfold State.event
  extract_lets n rest src s1
  have h1 : s1.getF b g = s.getF b g := rfl
  split
  · exact (s1.getF_writeEvent_calm cls code flags unit detail hb hg).trans h1
  · exact h1

theorem State.getF_ledgerRecord_calm (s : State) (kind cause : Nat) (unit : BitVec 32) (detail : Nat) {b : Nat} {g : Fld} (hb : calm b)
    (hg : g.lo < 64) : (s.ledgerRecord kind cause unit detail).getF b g = s.getF b g := by
  obtain ⟨-, hledger, -⟩ := calm_iff.mp hb
  have hflt : ∀ (t : State) x, State.getF { t with flt := x } b g = t.getF b g := fun _ _ => rfl
  simp only [State.ledgerRecord]
  split
  · exact State.getF_setF_apart s _ _ _ hledger (by decide) hg
  · exact (hflt _ _).trans (State.getF_setF_apart s _ _ _ hledger (by decide) hg)

theorem State.getF_failAtBoot (s : State) (cause : Nat) (u : BitVec 32) {b : Nat} {g : Fld} (hb : calm b) (hg : g.lo < 64) :
    (s.failAtBoot cause u).getF b g = s.getF b g := by
  have hlost : ∀ (t : State) x y, State.getF { t with flt := x, rcv := y } b g = t.getF b g := fun _ _ _ => rfl
  simp only [State.failAtBoot]
  split
  · rfl
  · exact (hlost _ _ _).trans ((State.getF_event_calm _ _ _ _ _ _ hb hg).trans
      ((State.getF_ledgerRecord_calm _ _ _ _ _ hb hg).trans (State.getF_ledgerRecord_calm _ _ _ _ _ hb hg)))

theorem State.getF_macroFails (s : State) (owner : Nat) (m : BitVec 32) {b : Nat} {g : Fld} (hb : calm b) (hg : g.lo < 64) :
    (s.macroFails owner m).getF b g = s.getF b g := by
  have hlost : ∀ (t : State) x y, State.getF { t with flt := x, rcv := y } b g = t.getF b g := fun _ _ _ => rfl
  simp only [State.macroFails]
  split
  · exact State.getF_ledgerRecord_calm _ _ _ _ _ hb hg
  · exact (hlost _ _ _).trans ((State.getF_event_calm _ _ _ _ _ _ hb hg).trans
      ((State.getF_ledgerRecord_calm _ _ _ _ _ hb hg).trans (State.getF_ledgerRecord_calm _ _ _ _ _ hb hg)))

theorem State.getF_mapChannels (s : State) {f : Nat} (hf : f < 8) {b : Nat} {g : Fld} (hb : prtBase 0 ≤ b) (hg : g.lo < 64) :
    (s.mapChannels f).getF b g = s.getF b g := by
  have hlow : fldBase 8 < prtBase 0 := by decide
  have hchannels : b ≠ aFldChannels f := by
    simp only [aFldChannels, fldBase] at hlow ⊢
    omega
  unfold State.mapChannels
  extract_lets good s1
  have h1 : s1.getF b g = s.getF b g := State.getF_setFs_elsewhere s hchannels rfl hg
  refine List.foldlRecOn (motive := fun t : State => t.getF b g = s.getF b g) _ _ h1 fun t ht c hc => ?_
  have hc' := List.mem_range.mp hc
  refine (State.getF_setF_apart t _ _ _ ?_ (by decide) hg).trans ht
  simp only [aFldChState, fldBase] at hlow ⊢
  omega

theorem State.getF_selfTest (s : State) (env : BootEnv) {b : Nat} {g : Fld} (hb : calm b) (hport : prtBase 0 ≤ b) (hg : g.lo < 64) :
    (s.selfTest env).getF b g = s.getF b g := by
  have hflt : ∀ (t : State) x, State.getF { t with flt := x } b g = t.getF b g := fun _ _ => rfl
  unfold State.selfTest
  extract_lets known flt s1 s2 s3 s4 flt' s5
  have h1 : s1.getF b g = s.getF b g := hflt s _
  have h2 : s2.getF b g = s.getF b g := (State.foldl_frame (fun t => t.getF b g) _ (fun t c => t.getF_failAtBoot 8 _ hb hg) s1).trans h1
  have h3 : s3.getF b g = s.getF b g := (State.foldl_frame (fun t => t.getF b g) _ (fun t u => t.getF_failAtBoot 5 u hb hg) s2).trans h2
  have h4 : s4.getF b g = s.getF b g :=
    (State.foldl_frame (fun t => t.getF b g) _ (fun t (m : Nat × BitVec 32) => t.getF_macroFails m.1 m.2 hb hg) s3).trans h3
  have h5 : s5.getF b g = s.getF b g := (hflt s4 _).trans h4
  exact List.foldlRecOn (motive := fun t : State => t.getF b g = s.getF b g) _ _ h5 fun t ht f hf =>
    (t.getF_mapChannels (List.mem_range.mp hf) hport hg).trans ht

/-! ### The capacity shown -/

/-- Fields of the same register beside those written (R8). -/
theorem State.getF_setFs_beside (s : State) (a : Nat) {l : List (Fld × Nat)} {g : Fld}
    (hl : (l.all fun q => decide (g.lo ≠ q.1.lo)) = true) : (s.setFs a l).getF a g = s.getF a g :=
  List.foldlRecOn (motive := fun t : State => t.getF a g = s.getF a g) _ _ rfl fun t ht q hq =>
    (t.getF_setF_beside a q.1 g q.2 (of_decide_eq_true (List.all_eq_true.mp hl q hq))).trans ht

/-- The package's class stands in BOC_CAPACITY (R26, R28). -/
structure State.ShowsClass (s : State) : Prop where
  valid : s.getF aBocCapacity F.bocCapacity_valid = 1
  cls : s.getF aBocCapacity F.bocCapacity_class = s.ownClass

theorem State.ownClass_lt (s : State) : s.ownClass < 4 := by
  unfold State.ownClass
  extract_lets weakest
  split_ifs <;> decide

/-- The class depends on what is retired alone (R26). -/
theorem State.ownClass_congr {s t : State} (h : t.flt = s.flt) : t.ownClass = s.ownClass := by
  have hweakest : t.weakestField = s.weakestField := by
    rw [State.weakestField, State.retiredSet, h]
    rfl
  rw [State.ownClass, hweakest]
  rfl

theorem State.ShowsClass.keeps {s t : State} (hs : s.ShowsClass) (hflt : t.flt = s.flt)
    (hreg : ∀ g ∈ [F.bocCapacity_valid, F.bocCapacity_class], t.getF aBocCapacity g = s.getF aBocCapacity g) : t.ShowsClass :=
  ⟨(hreg _ List.mem_cons_self).trans hs.valid,
    (hreg _ (List.mem_cons_of_mem _ List.mem_cons_self)).trans (hs.cls.trans (State.ownClass_congr hflt).symm)⟩

theorem State.showsClass_showUnits {s : State} (h : s.getF aBocCapacity F.bocCapacity_valid = 1) : s.showUnits.ShowsClass := by
  have hlos : [1, 3, 9, 18].Nodup := by decide
  have hflag : s.flag aBocCapacity F.bocCapacity_valid = true := by rw [State.flag, h]; rfl
  have hflt : s.showUnits.flt = s.flt := State.showUnits_frame State.flt (fun _ _ => rfl) s
  have hshow : s.showUnits = s.setFs aBocCapacity [(F.bocCapacity_class, s.ownClass), (F.bocCapacity_islandsPerField, classIslands s.ownClass),
      (F.bocCapacity_logicalIslands, 8 * classIslands s.ownClass), (F.bocCapacity_lpddrChannels,
    ((List.range 8).map s.channelsLeft).sum)] := by
    rw [State.showUnits, hflag]
    rfl
  refine ⟨?_, ?_⟩
  · rw [hshow]
    exact (s.getF_setFs_beside aBocCapacity rfl).trans h
  · rw [State.ownClass_congr hflt, hshow]
    exact (State.getF_setFs_mem (by exact hlos) List.mem_cons_self s).trans (Nat.mod_eq_of_lt s.ownClass_lt)

theorem State.getF_showUnits (s : State) {b : Nat} {g : Fld} (hb : b ≠ aBocCapacity)
    (hg : g.lo < 64) : s.showUnits.getF b g = s.getF b g := by
  simp only [State.showUnits]
  split
  · exact State.getF_setFs_elsewhere s hb rfl hg
  · rfl

theorem State.ShowsClass.updatePorts {s : State} (h : s.ShowsClass) : s.updatePorts.ShowsClass := by
  refine h.keeps (State.setFs_frame State.flt (fun _ _ => rfl) s _ _) fun g hg => ?_
  simp only [List.mem_cons, List.not_mem_nil, or_false] at hg
  rcases hg with rfl | rfl <;> exact s.getF_setFs_beside aBocCapacity rfl

theorem State.showsClass_showCapacity (s : State) : s.showCapacity.ShowsClass :=
  (State.showsClass_showUnits (State.getF_setF_same s aBocCapacity F.bocCapacity_valid 1)).updatePorts

theorem State.getF_showCapacity (s : State) {b : Nat} {g : Fld} (hb : b ≠ aBocCapacity) (hg : g.lo < 64) :
    s.showCapacity.getF b g = s.getF b g :=
  (State.getF_setFs_elsewhere _ hb rfl hg).trans
    ((State.getF_showUnits _ hb hg).trans (State.getF_setF_apart s _ _ _ hb (by decide) hg))

theorem calm_capacity : calm aBocCapacity := by decide

theorem State.ShowsClass.crossingFails {s : State} (h : s.ShowsClass) (n q : Nat) : (s.crossingFails n q).ShowsClass := by
  unfold State.crossingFails
  split
  · exact State.showsClass_showUnits ((s.getF_failAtBoot 5 _ calm_capacity (by decide)).trans h.valid)
  · exact h

theorem State.getF_crossingFails (s : State) (n q : Nat) {b : Nat} {g : Fld} (hb : calm b) (hcap : b ≠ aBocCapacity) (hg : g.lo < 64) :
    (s.crossingFails n q).getF b g = s.getF b g := by
  unfold State.crossingFails
  split
  · exact (State.getF_showUnits _ hcap hg).trans (s.getF_failAtBoot 5 _ hb hg)
  · rfl

/-! ### Calibration -/

/-- Island clocks lie past every other block (R239). -/
theorem ne_islClock {b : Nat} (hb : b < islBase 0) (n : Nat) : b ≠ aIslClock n := by
  simp only [aIslClock, islBase] at hb ⊢
  omega

theorem ne_lnkLanes {b : Nat} (hb : prtBase 48 ≤ b) {p : Nat} (hp : p < numPorts) : b ≠ aLnkLanes p := by
  have hcount : numPorts = 48 := rfl
  simp only [aLnkLanes, prtBase] at hb ⊢
  omega

theorem State.calibrate_shows (s : State) (env : BootEnv) : (s.calibrate env).ShowsClass := by
  unfold State.calibrate
  extract_lets top s1 pins s2 wl s3 s4 s5
  have h5 : s5.ShowsClass :=
    List.foldlRecOn (motive := State.ShowsClass) _ _ s3.showsClass_showCapacity fun t ht c _ => ht.crossingFails c.1 c.2
  clear_value s5
  refine List.foldlRecOn (motive := State.ShowsClass) _ _ h5 fun t ht n _ => ht.keeps (State.setFs_frame State.flt (fun _ _ => rfl) t _ _)
    fun g hg => State.getF_setFs_elsewhere t (ne_islClock (by decide) n) rfl ?_
  simp only [List.mem_cons, List.not_mem_nil, or_false] at hg
  rcases hg with rfl | rfl <;> decide

theorem State.getF_calibrate (s : State) (env : BootEnv) {b : Nat} {g : Fld} (hb : calm b) (hport : prtBase 48 ≤ b) (hisl : b < islBase 0)
    (hcap : b ≠ aBocCapacity) (hset : b ≠ aBocSetpoint) (hg : g.lo < 64) : (s.calibrate env).getF b g = s.getF b g := by
  have hpins : ∀ (t : State) x, State.getF { t with pins := x } b g = t.getF b g := fun _ _ => rfl
  unfold State.calibrate
  extract_lets top s1 pins s2 wl s3 s4 s5
  have h2 : s2.getF b g = s.getF b g := (hpins s1 _).trans (State.getF_setF_apart s _ _ _ hset (by decide) hg)
  have h3 : s3.getF b g = s.getF b g := by
    refine (State.foldl_frame (fun t => t.getF b g) _ (fun t u => ?_) s2).trans h2
    extract_lets p w
    split
    · exact State.getF_setF_apart t _ _ _ (ne_lnkLanes hport (by omega)) (by decide) hg
    · rfl
  have h5 : s5.getF b g = s.getF b g :=
    (State.foldl_frame (fun t => t.getF b g) _ (fun t (c : Nat × Nat) => t.getF_crossingFails c.1 c.2 hb hcap hg) s4).trans
      ((s3.getF_showCapacity hcap hg).trans h3)
  exact (State.foldl_frame (fun t => t.getF b g) _ (fun t n => State.getF_setFs_elsewhere t (ne_islClock hisl n) rfl hg) s5).trans h5

theorem State.calibrate_frame {β : Type} (g : State → β) (hregs : ∀ s x, g { s with regs := x } = g s) (hflt : ∀ s x, g
    { s with flt := x } = g s)
    (hrcv : ∀ s x, g { s with rcv := x } = g s) (hpins : ∀ s x y, g { s with pins := { s.pins with ceiling := x, supply := y } } = g s)
    (s : State) (env : BootEnv) : g (s.calibrate env) = g s := by
  unfold State.calibrate
  extract_lets top s1 pins s2 wl s3 s4 s5
  have h2 : g s2 = g s := (hpins s1 _ _).trans (hregs s _)
  have h3 : g s3 = g s := by
    refine (State.foldl_frame g _ (fun t u => ?_) s2).trans h2
    extract_lets p w
    split
    · exact hregs t _
    · rfl
  have h4 : g s4 = g s :=
    (State.setFs_frame g hregs _ _ _).trans ((State.showUnits_frame g hregs _).trans ((hregs s3 _).trans h3))
  have h5 : g s5 = g s := (State.foldl_frame g _ (fun t (c : Nat × Nat) => State.crossingFails_frame g hregs hflt hrcv t c.1 c.2) s4).trans h4
  exact (State.foldl_frame g _ (fun t n => State.setFs_frame g hregs t _ _) s5).trans h5

/-! ### The release of reset -/

/-- The package powered up on the reference clock it found (R377, R447). -/
def State.clocked (s : State) (env : BootEnv) : State :=
  let s1 := s.setFs aBocState [(F.bocState_step, 1), (F.bocState_slotId, env.straps.toNat)]
  let s2 := { s1 with beatAcc := 0, pins := { s1.pins with power := .on } }
  (s2.setFs aTimStatus [(F.timStatus_refclk, if env.clock0 then 0 else 1),
    (F.timStatus_refclkFail, (if env.clock0 then 0 else 1) + (if env.clock1 then 0 else 2))]).readLedger

/-- A booted package tested, calibrated and shown (R28, R30, R479). -/
def State.broughtUp (s : State) (env : BootEnv) : State :=
  (((s.selfTest env).calibrate env).setF aBocState F.bocState_step 9).setChannels 4

theorem exec_resetRelease_clocked {s : State} {env : BootEnv} (hheld : s.pins.power = .held)
    (hclock : env.clock0 = true ∨ env.clock1 = true) :
    exec (.resetRelease env) s = .next (if ((s.clocked env).boot env).boc.recovery then ((s.clocked env).boot env).updateHealth
      else (((s.clocked env).boot env).broughtUp env).updateHealth) := by
  have hsome : (!env.clock0 && !env.clock1) = false := by
    rcases hclock with h | h <;> simp [h]
  have hexec : exec (.resetRelease env) s = execResetRelease env s := rfl
  rw [hexec, execResetRelease, if_neg (not_not.mpr hheld), hsome]
  exact (apply_ite Host.Outcome.next _ _ _).symm

/-- The clock found shows in TIM_STATUS; the slots are judged as before (R377). -/
theorem State.clocked_effects (s : State) (env : BootEnv) : (s.clocked env).pins.power = .on ∧ (s.clocked env).beatAcc = 0 ∧
    (s.clocked env).boc = s.boc ∧ (s.clocked env).nv = s.nv ∧
    (s.clocked env).getF aTimStatus F.timStatus_refclk = (if env.clock0 then 0 else 1) ∧
    (s.clocked env).bootSlot env = s.bootSlot env := by
  have hlos : [15, 16].Nodup := by decide
  have hboot : ∀ (t : State) x y b g, State.getF { t with beatAcc := x, pins := y } b g = t.getF b g := fun _ _ _ _ _ => rfl
  unfold State.clocked
  extract_lets s1 pins s2
  have hs1 : s1.boc = s.boc ∧ s1.nv = s.nv :=
    ⟨State.setFs_frame State.boc (fun _ _ => rfl) s _ _, State.setFs_frame State.nv (fun _ _ => rfl) s _ _⟩
  have h2 : s2.pins.power = .on ∧ s2.beatAcc = 0 ∧ s2.boc = s.boc ∧ s2.nv = s.nv := ⟨rfl, rfl, hs1.1, hs1.2⟩
  have h2reg : ∀ b g, b ≠ aBocState → g.lo < 64 → s2.getF b g = s.getF b g := fun b g hb hg =>
    (hboot s1 _ _ b g).trans (State.getF_setFs_elsewhere s hb rfl hg)
  clear_value s2
  have hframe : ∀ {β : Type} (g : State → β), (∀ s x, g { s with regs := x } = g s) → ∀ l, g (s2.setFs aTimStatus l).readLedger = g s2 :=
    fun g hregs l => (State.setFs_frame g hregs _ _ _).trans (State.setFs_frame g hregs s2 _ _)
  have hreg : ∀ b g, b ≠ aFltLedger → b ≠ aTimStatus → g.lo < 64 → ∀ x y,
      (s2.setFs aTimStatus [(F.timStatus_refclk, x),
    (F.timStatus_refclkFail, y)]).readLedger.getF b g = s2.getF b g := fun b g hb hb' hg x y =>
    (State.getF_setFs_elsewhere _ hb rfl hg).trans (State.getF_setFs_elsewhere s2 hb' rfl hg)
  refine ⟨(hframe (·.pins.power) (fun _ _ => rfl) _).trans h2.1, (hframe State.beatAcc (fun _ _ => rfl) _).trans h2.2.1,
    (hframe State.boc (fun _ _ => rfl) _).trans h2.2.2.1, (hframe State.nv (fun _ _ => rfl) _).trans h2.2.2.2, ?_,
    State.bootSlot_congr ((hframe State.nv (fun _ _ => rfl) _).trans h2.2.2.2)
      ((hreg _ _ (by decide) (by decide) (by decide) _ _).trans (h2reg _ _ (by decide) (by decide)))
      ((hreg _ _ (by decide) (by decide) (by decide) _ _).trans (h2reg _ _ (by decide) (by decide))) env⟩
  refine (State.getF_setFs_elsewhere (b := aTimStatus) _ (by decide) rfl (by decide)).trans ?_
  refine (State.getF_setFs_mem (by exact hlos) List.mem_cons_self s2).trans ?_
  cases env.clock0 <;> rfl

/-- The slot tried is one of the two (R445, R478). -/
theorem State.bootSlot_lt {s : State} {env : BootEnv} (hpreferred : s.nv.bcr.preferred < 2) {slot : Nat} {fb : Bool}
    (h : s.bootSlot env = some (slot, fb)) : slot < 2 := by
  have hfirst : (bootChoice s.nv.bcr env.bcrOk).1 < 2 := by
    unfold bootChoice
    split_ifs
    · exact Nat.zero_lt_two
    · exact Nat.lt_succ_of_le (Nat.sub_le 1 _)
    · exact hpreferred
    · exact hpreferred
  unfold State.bootSlot at h
  extract_lets first tried at h
  split_ifs at h
  · exact (Prod.mk.inj (Option.some.inj h)).1 ▸ hfirst
  · exact (Prod.mk.inj (Option.some.inj h)).1 ▸ Nat.lt_succ_of_le (Nat.sub_le 1 first)

/-- What bringing the package up leaves of the boot: power, the beat counter and the other blocks' registers (R28, R479). -/
theorem State.broughtUp_effects (s : State) (env : BootEnv) : (s.broughtUp env).ShowsClass ∧
    (s.broughtUp env).getF aBocState F.bocState_step = 9 ∧
    (∀ (b : Nat) (g : Fld), calm b → prtBase 48 ≤ b → b < aBocState → g.lo < 64 → (s.broughtUp env).getF b g = s.getF b g) ∧
    ∀ {β : Type} (g : State → β), (∀ s x, g { s with regs := x } = g s) → (∀ s x, g { s with flt := x } = g s) →
      (∀ s x, g { s with rcv := x } = g s) → (∀ s x y, g { s with pins := { s.pins with ceiling := x, supply := y } } = g s) →
      g (s.broughtUp env) = g s := by
  have hports : prtBase 0 ≤ prtBase 48 := by decide
  have hstate : prtBase 0 ≤ aBocState := by decide
  have hcapacity : aBocState < aBocCapacity := by decide
  have hsetpoint : aBocState < aBocSetpoint := by decide
  have hislands : aBocState < islBase 0 := by decide
  unfold State.broughtUp
  refine ⟨?_, ?_, fun b g hb hport hlow hg => ?_, fun g hregs hflt hrcv hpins => ?_⟩
  · have hset : (((s.selfTest env).calibrate env).setF aBocState F.bocState_step 9).ShowsClass :=
      ((s.selfTest env).calibrate_shows env).keeps rfl fun g hg => by
        refine State.getF_setF_apart _ _ _ _ (by decide) (by decide) ?_
        simp only [List.mem_cons, List.not_mem_nil, or_false] at hg
        rcases hg with rfl | rfl <;> decide
    refine hset.keeps (State.setChannels_frame State.flt (fun _ _ => rfl) _ 4) fun g hg => State.getF_setChannels _ 4 (by decide) ?_
    simp only [List.mem_cons, List.not_mem_nil, or_false] at hg
    rcases hg with rfl | rfl <;> decide
  · exact (State.getF_setChannels _ 4 hstate (by decide)).trans (State.getF_setF_same _ _ _ _)
  · refine (State.getF_setChannels _ 4 (by omega) hg).trans ?_
    refine (State.getF_setF_apart _ _ _ _ (by omega) (by decide) hg).trans ?_
    exact (State.getF_calibrate _ env hb hport (by omega) (by omega) (by omega) hg).trans (s.getF_selfTest env hb (by omega) hg)
  · exact (State.setChannels_frame g hregs _ 4).trans ((hregs _ _).trans
      ((State.calibrate_frame g hregs hflt hrcv hpins _ env).trans (State.selfTest_frame g hregs hflt hrcv s env)))

theorem State.ShowsClass.updateHealth {s : State} (h : s.ShowsClass) : s.updateHealth.ShowsClass := by
  refine h.keeps (State.updateHealth_frame State.flt (fun _ _ => rfl) (fun _ _ => rfl) s) fun g hg => ?_
  have hlast : aFltHealth 7 < aBocCapacity := by decide
  have hapart : ∀ k < 8, aBocCapacity ≠ aFltHealth k := fun k hk => by
    simp only [aFltHealth] at hlast ⊢
    omega
  simp only [List.mem_cons, List.not_mem_nil, or_false] at hg
  rcases hg with rfl | rfl
  · exact s.getF_updateHealth hapart (by decide) (by decide)
  · exact s.getF_updateHealth hapart (by decide) (by decide)

/-- Settles O29. -/
theorem resetsAndRelease : Obligations.ResetsAndRelease := by
  refine ⟨?_, ?_⟩
  · intro s clears counts
    have hclears : ∀ t, s.Wiped t → clears t := fun t h =>
      ⟨h.cores, h.clusters, h.islands, h.ports, h.beat, h.manifest, h.sessions, h.nv, h.ledger, h.pending, h.step, h.errata⟩
    obtain ⟨hcause2, hcount2, hbytes2, hheld2⟩ := s.resetBy_counts (cause := 2) (by decide)
    obtain ⟨hcause5, hcount5, hbytes5, hheld5⟩ := s.resetBy_counts (cause := 5) (by decide)
    refine ⟨⟨_, rfl, hclears _ s.cleared_wiped, rfl, rfl⟩, fun hon => ?_, fun hthermal => ?_, fun hon => ?_,
      ⟨_, rfl, hclears _ (s.cleared_wiped.pins _), rfl, rfl⟩, ⟨_, rfl, hclears _ (s.cleared_wiped.pins _), rfl, rfl⟩⟩
    · have hrun : exec .pinReset s = .next (s.resetBy 2) := by simp only [exec_pinReset, execPinReset, hon]
      exact ⟨_, hrun, hclears _ (s.resetBy_wiped 2), hheld2, hcause2, hcount2, hbytes2⟩
    · have hrun : exec .pinReset s = .next (s.resetBy 5) := by simp only [exec_pinReset, execPinReset, hthermal]
      exact ⟨_, hrun, hclears _ (s.resetBy_wiped 5), hheld5, hcause5, hcount5, hbytes5⟩
    · have hrun : exec .thermalReset s = .next { s.resetBy 5 with pins := { (s.resetBy 5).pins with power := .thermal, trip := true } } := by
        simp only [exec_thermalReset, execThermalReset, State.thermalReset, hon]
      exact ⟨_, hrun, hclears _ ((s.resetBy_wiped 5).pins _), rfl, rfl, hcause5, hcount5, hbytes5⟩
  · intro s env hheld hpreferred
    obtain ⟨hon, hbeat, hboc, hnv, hrefclk, hslots⟩ := s.clocked_effects env
    have hhealth : ∀ b, b ∈ [aBocState, aSecState, aTimStatus] → ∀ k < 8, b ≠ aFltHealth k := fun b hb k hk => by
      have hfirst : aTimStatus < aFltHealth 0 := by decide
      have hlast : aFltHealth 7 < aSecState ∧ aFltHealth 7 < aBocState := by decide
      simp only [List.mem_cons, List.not_mem_nil, or_false] at hb
      simp only [aFltHealth] at hfirst hlast ⊢
      omega
    refine ⟨fun hno0 hno1 => ?_, fun hclock hrecovery => ?_⟩
    · have hrun : exec (.resetRelease env) s = .next (s.setFs aBocState [(F.bocState_step, 1), (F.bocState_slotId, env.straps.toNat)]) := by
        have hexec : exec (.resetRelease env) s = execResetRelease env s := rfl
        rw [hexec, execResetRelease, if_neg (not_not.mpr hheld), hno0, hno1]
        rfl
      have hlos : [3, 14].Nodup := by decide
      have hframe := State.frame_of_bare (State.bare_setFs s aBocState [(F.bocState_step, 1), (F.bocState_slotId, env.straps.toNat)])
      refine ⟨_, hrun, (State.setFs_frame (·.pins.power) (fun _ _ => rfl) s _ _).trans hheld,
        State.getF_setFs_mem (by exact hlos) List.mem_cons_self s, ?_, hframe.1, hframe.2⟩
      exact (State.getF_setFs_mem (by exact hlos) (List.mem_cons_of_mem _ List.mem_cons_self) s).trans (Nat.mod_eq_of_lt env.straps.isLt)
    · have hrun := exec_resetRelease_clocked hheld hclock
      rw [State.boot_eq, State.bootSlot_beforeSlot, hslots] at hrun
      have hbefore : ∀ {β : Type} (g : State → β), (∀ s x, g { s with regs := x } = g s) →
          (∀ s x y, g { s with boc := { s.boc with kems := x, challenge := y } } = g s) →
          g ((s.clocked env).beforeSlot env) = g (s.clocked env) := fun g hregs hboc => State.beforeSlot_frame g hregs hboc _ env
      have hbon := (hbefore (·.pins.power) (fun _ _ => rfl) fun _ _ _ => rfl).trans hon
      have hbbeat := (hbefore State.beatAcc (fun _ _ => rfl) fun _ _ _ => rfl).trans hbeat
      have hbrec := (hbefore (·.boc.recovery) (fun _ _ => rfl) fun _ _ _ => rfl).trans ((congrArg BocSt.recovery hboc).trans hrecovery)
      have hbclk := ((s.clocked env).getF_beforeSlot env (b := aTimStatus) (g := F.timStatus_refclk) (by decide) (by decide)
        (.inl (by decide))).trans hrefclk
      generalize (s.clocked env).beforeSlot env = u at hrun hbon hbbeat hbrec hbclk
      clear hbefore
      refine ⟨fun hnone => ?_, fun slot fb hsome => ?_⟩
      · rw [hnone] at hrun
        have hstep : (u.chosen env none).getF aBocState F.bocState_step = 2 := State.getF_setF_same _ _ _ _
        have hrecovers : (u.chosen env none).boc.recovery = true := rfl
        rw [if_pos hrecovers] at hrun
        exact ⟨_, hrun, (State.updateHealth_frame (·.pins.power) (fun _ _ => rfl) (fun _ _ => rfl) _).trans hbon,
          (State.updateHealth_frame State.beatAcc (fun _ _ => rfl) (fun _ _ => rfl) _).trans hbbeat,
          (State.updateHealth_frame (·.boc.recovery) (fun _ _ => rfl) (fun _ _ => rfl) _).trans rfl,
          (State.getF_updateHealth _ (hhealth _ List.mem_cons_self) (by decide) (by decide)).trans hstep⟩
      · rw [hsome] at hrun
        have hlt : slot < 2 := State.bootSlot_lt hpreferred hsome
        have hchosen : ∃ trial, u.chosen env (some (slot, fb)) = (u.bcrKept env).entered env slot fb trial := ⟨_, rfl⟩
        obtain ⟨trial, hchosen⟩ := hchosen
        obtain ⟨hslot, hfallback, hothers, hkept⟩ := (u.bcrKept env).entered_effects env hlt fb trial
        rw [hchosen] at hrun
        have hwon := (hkept (·.pins.power) (fun _ _ => rfl) fun _ _ => rfl).trans hbon
        have hwbeat := (hkept State.beatAcc (fun _ _ => rfl) fun _ _ => rfl).trans hbbeat
        have hwrec := (hkept (·.boc.recovery) (fun _ _ => rfl) fun _ _ => rfl).trans hbrec
        have hwclk := (hothers aTimStatus F.timStatus_refclk (by decide) (by decide) (by decide) (.inl (by decide))).trans hbclk
        generalize (u.bcrKept env).entered env slot fb trial = w at hrun hslot hfallback hwon hwbeat hwrec hwclk
        obtain ⟨hshows, hstep, hregs, hframe⟩ := w.broughtUp_effects env
        have hhframe : ∀ {β : Type} (g : State → β), (∀ s x, g { s with regs := x } = g s) → (∀ s x, g { s with i3c := x } = g s) →
            g (w.broughtUp env).updateHealth = g (w.broughtUp env) := fun g hregs hmirror => State.updateHealth_frame g hregs hmirror _
        have hhregs : ∀ b g, b ∈ [aBocState, aSecState, aTimStatus] → g.lo < 64 → fkey b g ≠ fkey aBocState F.bocState_state →
            (w.broughtUp env).updateHealth.getF b g = (w.broughtUp env).getF b g := fun b g hb hg hkey =>
          State.getF_updateHealth _ (hhealth b hb) hg hkey
        have hserves : ¬w.boc.recovery = true := ne_true_of_eq_false hwrec
        rw [if_neg hserves] at hrun
        refine ⟨_, hrun, (hhframe (·.pins.power) (fun _ _ => rfl) fun _ _ => rfl).trans
            ((hframe (·.pins.power) (fun _ _ => rfl) (fun _ _ => rfl) (fun _ _ => rfl) fun _ _ _ => rfl).trans hwon),
          (hhframe State.beatAcc (fun _ _ => rfl) fun _ _ => rfl).trans
            ((hframe State.beatAcc (fun _ _ => rfl) (fun _ _ => rfl) (fun _ _ => rfl) fun _ _ _ => rfl).trans hwbeat),
          (hhframe (·.boc.recovery) (fun _ _ => rfl) fun _ _ => rfl).trans
            ((hframe (·.boc.recovery) (fun _ _ => rfl) (fun _ _ => rfl) (fun _ _ => rfl) fun _ _ _ => rfl).trans hwrec),
          (hhregs aBocState _ List.mem_cons_self (by decide)
    (by decide)).trans hstep, ?_, ?_, ?_, hshows.updateHealth.cls, hshows.updateHealth.valid⟩
        · refine (hhregs aSecState _ (by decide) (by decide) (by decide)).trans ?_
          exact (hregs _ _ (by decide) (by decide) (by decide) (by decide)).trans hslot
        · refine (hhregs aSecState _ (by decide) (by decide) (by decide)).trans ?_
          exact (hregs _ _ (by decide) (by decide) (by decide) (by decide)).trans hfallback
        · refine (hhregs aTimStatus _ (by decide) (by decide) (by decide)).trans ?_
          exact (hregs _ _ (by decide) (by decide) (by decide) (by decide)).trans hwclk

end Sys2Proof.Machine
end

section
/-! The lead and its members (R402 to R430): heartbeats, the loss of the lead or of a member, reports of faults, restart and promotion. -/

namespace Sys2Proof.Machine

/-! ### What the lead does about a member that is lost -/

section
variable {β : Type} (g : State → β) (hctl : ∀ s x, g { s with ctl := x } = g s) (hgmu : ∀ s x, g { s with gmu := x } = g s)
  (hnotes : ∀ (s : State) (x : Recov), g { s with rcv := { x with lost := s.rcv.lost } } = g s)
  (hevent : ∀ s cls code flags unit detail, g (State.event s cls code flags unit detail) = g s)
include hctl

section
include hgmu

theorem State.sendInstalls_frame (s : State) (l : List (Nat × Bool)) : g (s.sendInstalls l) = g s :=
  (State.foldl_frame g l (fun t _ => State.sendAll_ctl g hctl t _) _).trans (hgmu s _)

/-- A change of routing asks every package, or waits for the one before it (R367). -/
theorem State.routeChange_frame (s : State) (key : Nat) (down : Bool) : g (s.routeChange key down) = g s := by
  unfold State.routeChange
  split
  · exact State.sendInstalls_frame g hctl hgmu s _
  · exact hgmu s _

end

section
include hnotes

theorem State.leadAbort_frame (s : State) (cause : Nat) : g (s.leadAbort cause) = g s := by
  unfold State.leadAbort
  split
  · rfl
  · exact (State.sendAll_ctl g hctl _ _).trans (hnotes s { s.rcv with restart := true })

include hevent in
theorem State.stopSlice_frame (s : State) (reason : Nat) : g (s.stopSlice reason) = g s := by
  unfold State.stopSlice
  extract_lets s1
  have h1 : g s1 = g s := (hevent _ _ _ _ _ _).trans (State.leadAbort_frame g hctl hnotes s 3)
  exact (hnotes s1 { s1.rcv with stopped := true, restart := false }).trans h1

include hgmu in
theorem State.dropLinks_frame (s : State) (keys : List Nat) : g (s.dropLinks keys) = g s :=
  State.foldl_frame g _ (fun t k => (State.routeChange_frame g hctl hgmu _ k true).trans
    (hnotes t { t.rcv with downs := t.rcv.downs ++ [k] })) s

end

/-- A package put on the list of lost ones (R411). -/
def State.noteLost (s : State) (p : Nat) : State := { s with rcv := { s.rcv with lost := s.rcv.lost ++ [p], replay := none } }

include hgmu hnotes hevent

/-- The loss of a member is noted; what follows leaves the list of lost ones (R411, R414, R419). -/
theorem State.lose_notes {s : State} {p : Nat} {r : Member} (hlead : s.isLead = true) (hself : p ≠ s.self) (hnew : p ∉ s.rcv.lost)
    (hmember : s.memberRec p = some r) : g (s.lose p) = g (s.noteLost p) := by
  have hgo : (!s.isLead || decide (p = s.self) || s.rcv.lost.contains p) = false := by simp [hlead, hself, hnew]
  have hnothing : ∀ t q, g (State.nothingToSweep t q) = g t := fun t q =>
    hnotes t { t.rcv with swept := t.rcv.swept ++ (List.range 3).map fun k => (q, t.rcv.decided - k) }
  have hcall : ∀ (t : State) sp rg m, g (State.sendAll { t with rcv := { t.rcv with spares := t.rcv.spares ++ [sp], regen := rg } } m) = g t :=
    fun t sp rg m => (State.sendAll_ctl g hctl _ m).trans (hnotes t { t.rcv with spares := t.rcv.spares ++ [sp], regen := rg })
  have habort := fun t => State.leadAbort_frame g hctl hnotes t 3
  have hstop := State.stopSlice_frame g hctl hnotes hevent
  simp only [State.lose]
  rw [if_neg (by rw [hgo]; decide), hmember]
  have hdrop := (s.noteLost p).dropLinks_frame g hctl hgmu hnotes (s.linksOf p)
  unfold State.noteLost at hdrop
  dsimp only
  generalize State.dropLinks _ _ = u at hdrop ⊢
  split
  · exact hdrop
  · split
    · split
      · exact (hstop _ _).trans hdrop
      · split
        · exact (hstop _ _).trans hdrop
        · exact (hcall _ _ _ _).trans ((hnothing _ _).trans ((habort _).trans hdrop))
    · split
      · exact (hstop _ _).trans hdrop
      · split
        · exact (hstop _ _).trans hdrop
        · exact (hcall _ _ _ _).trans ((hnothing _ _).trans ((habort _).trans hdrop))

/-- The loss of a package leaves what its note leaves (R411, R414). -/
theorem State.lose_keeps {s : State} {p : Nat} (hnote : g (s.noteLost p) = g s) : g (s.lose p) = g s := by
  by_cases hgo : (!s.isLead || decide (p = s.self) || s.rcv.lost.contains p) = true
  · rw [State.lose, if_pos hgo]
  · simp only [Bool.or_eq_true, Bool.not_eq_true', decide_eq_true_eq, List.contains_iff_mem, not_or, Bool.not_eq_false] at hgo
    obtain ⟨⟨hlead, hself⟩, hnew⟩ := hgo
    cases hmember : s.memberRec p with
    | none =>
      have hgo : (!s.isLead || decide (p = s.self) || s.rcv.lost.contains p) = false := by simp [hlead, hself, hnew]
      rw [State.lose, if_neg (by rw [hgo]; decide), hmember]
    | some r => exact (State.lose_notes g hctl hgmu hnotes hevent hlead hself hnew hmember).trans hnote

end

/-- What the statements about the lead leave alone: cores, clusters, islands and memory. -/
def State.places (s : State) : (Tbl Core × Tbl Cluster × Tbl Island) × (Tbl Byte × Tbl (BitVec 2) × Tbl Bool) :=
  ((s.cores, s.clusters, s.islands), (s.mem, s.tags, s.bad))

theorem State.frame_of_places {s t : State} (h : t.places = s.places) : s.sameIslands t ∧ s.sameMemory t := by
  simp only [State.places, Prod.mk.injEq] at h
  exact h

theorem State.places_of_frame {s t : State} (h : s.sameIslands t ∧ s.sameMemory t) : t.places = s.places := by
  simp only [State.places, Prod.mk.injEq]
  exact h

theorem State.places_event (s : State) (cls code flags : Nat) (unit : BitVec 32) (detail : Nat) :
    (s.event cls code flags unit detail).places = s.places := State.event_frame State.places (fun _ _ => rfl) (fun _ _ => rfl) s _ _ _ _ _

theorem State.places_lose (s : State) (p : Nat) : (s.lose p).places = s.places :=
  State.lose_keeps State.places (fun _ _ => rfl) (fun _ _ => rfl) (fun _ _ => rfl) State.places_event rfl

theorem State.getF_lose (s : State) (p : Nat) {b : Nat} {g : Fld} (hb : calm b) (hg : g.lo < 64) : (s.lose p).getF b g = s.getF b g :=
  State.lose_keeps (fun t => t.getF b g) (fun _ _ => rfl) (fun _ _ => rfl) (fun _ _ => rfl) (fun t _ _ _ _ _ => t.getF_event_calm _ _ _ _ _ hb hg) rfl

theorem State.lost_lose {s : State} {p : Nat} (hlead : s.isLead = true) (hself : p ≠ s.self) (hnew : p ∉ s.rcv.lost)
    (hmember : (s.memberRec p).isSome = true) : (s.lose p).rcv.lost = s.rcv.lost ++ [p] := by
  obtain ⟨r, hr⟩ := Option.isSome_iff_exists.mp hmember
  exact (State.lose_notes (·.rcv.lost) (fun _ _ => rfl) (fun _ _ => rfl) (fun _ _ => rfl)
    (State.event_frame (·.rcv.lost) (fun _ _ => rfl) fun _ _ => rfl) hlead hself hnew hr).trans rfl

/-! ### Heartbeats, a silent lead and a report of a fault -/

theorem heartbeat_noted {s : State} {msg : Msg} (hnew : msgBits msg 8 14 ∉ (s.takeMsg msg).rcv.joiners) :
    CompletesWith (exec (.heartbeat msg) s) fun t => Tbl.get 0 t.rcv.heard (msgBits msg 8 14) = s.beat.toNat + 1 ∧ t.regs = s.regs ∧
      s.sameIslands t ∧ s.sameMemory t := by
  have hbeat : (s.takeMsg msg).beat = s.beat := State.takeMsg_ctl State.beat (fun _ _ => rfl) (fun _ _ => rfl) s msg
  have hexec : exec (.heartbeat msg) s = execHeartbeat msg s := rfl
  rw [hexec, execHeartbeat]
  have hplain : ((s.takeMsg msg).rcv.joiners.contains (msgBits msg 8 14)) = false := by simpa using hnew
  refine ⟨_, rfl, ?_⟩
  simp only [hplain, Bool.and_false, Bool.false_eq_true, if_false]
  exact ⟨(Tbl.get_set_same _ _ _ _).trans (congrArg (fun x => BitVec.toNat x + 1) hbeat), State.regs_takeMsg s msg, s.takeMsg_frame msg⟩

/-- The first successor takes over from a silent lead (R409, R413). -/
theorem leadLossTimeout_takesOver {s : State} {m : Manifest} (hm : s.manifest = some m) (hadmitted : s.admitted = true)
    (hlead : s.isLead = false) (hsilent : s.silent s.lead = true)
    (hfirst : (m.leads.find? fun p => decide (p < 2 ^ 14) && decide (p ≠ s.lead) && !s.rcv.lost.contains p) = some s.self) :
    CompletesWith (exec .leadLossTimeout s) fun t => t.isLead = true ∧ t.lead = s.self ∧ t.getF aTimStatus F.timStatus_root = 1 ∧
      t.getF aTimStatus F.timStatus_rootIndex = s.self ∧ s.sameIslands t ∧ s.sameMemory t := by
  have hsmall : s.self < 2 ^ 14 := by
    have := List.find?_some hfirst
    simp only [Bool.and_eq_true, decide_eq_true_eq] at this
    exact this.1.1
  let u := (s.setF aFltState F.fltState_lead s.self).setFs aFltState [(F.fltState_role, 1), (F.fltState_successor, 0)]
  let v : State := { u with rcv := { u.rcv with decided := max u.committed u.rcv.decided, sweepFrom := max u.committed u.rcv.decided } }
  have hrun : exec .leadLossTimeout s = .next (v.becomeRoot.lose s.lead) := by
    have hexec : exec .leadLossTimeout s = execLeadLossTimeout s := rfl
    rw [hexec, execLeadLossTimeout, hm]
    dsimp only
    rw [if_neg (by simp [hadmitted, hlead, hsilent]), hfirst]
    exact if_pos rfl
  have hlos : [0, 2].Nodup := by decide
  have hlos' : [0, 18, 9, 3].Nodup := by decide
  have hv : ∀ b g, v.getF b g = u.getF b g := fun _ _ => rfl
  have hvframe : v.places = s.places :=
    (State.setFs_frame State.places (fun _ _ => rfl) (s.setF aFltState F.fltState_lead s.self) aFltState _).trans rfl
  have hself : v.self = s.self := rfl
  have hrole : u.getF aFltState F.fltState_role = 1 := State.getF_setFs_mem (by exact hlos) List.mem_cons_self _
  have hshown : u.getF aFltState F.fltState_lead = s.self :=
    (State.getF_setFs_beside _ _ rfl).trans ((State.getF_setF_same _ _ _ _).trans (Nat.mod_eq_of_lt hsmall))
  clear_value v
  have hstate : ∀ g, g.lo < 64 → (v.becomeRoot.lose s.lead).getF aFltState g = u.getF aFltState g := fun g hg =>
    (State.getF_lose _ _ (by decide) hg).trans ((State.getF_setFs_elsewhere v (by decide) rfl hg).trans (hv _ _))
  refine ⟨_, hrun, decide_eq_true ((hstate _ (by decide)).trans hrole), (hstate _ (by decide)).trans hshown, ?_, ?_, ?_⟩
  · exact (State.getF_lose _ _ (by decide) (by decide)).trans (State.getF_setFs_mem (by exact hlos') List.mem_cons_self v)
  · refine (State.getF_lose _ _ (by decide) (by decide)).trans ?_
    refine (State.getF_setFs_mem (by exact hlos') (List.mem_cons_of_mem _ List.mem_cons_self) v).trans ?_
    rw [hself]
    exact Nat.mod_eq_of_lt hsmall
  · exact State.frame_of_places ((State.places_lose _ _).trans ((State.setFs_frame State.places (fun _ _ => rfl) v _ _).trans hvframe))

/-- A member that is reported lost or falls silent is put on the list (R411, R430). -/
theorem member_lost {s : State} {p : Nat} (hlead : s.isLead = true) (hself : p ≠ s.self) (hnew : p ∉ s.rcv.lost)
    (hmember : (s.memberRec p).isSome = true) :
    CompletesWith (exec (.packageLost p) s) (fun t => p ∈ t.rcv.lost ∧ s.sameIslands t ∧ s.sameMemory t) ∧
      (s.admitted = true → s.silent p = true →
        CompletesWith (exec (.heartbeatLossTimeout p) s) fun t => p ∈ t.rcv.lost ∧ s.sameIslands t ∧ s.sameMemory t) := by
  have hlost : p ∈ (s.lose p).rcv.lost ∧ s.sameIslands (s.lose p) ∧ s.sameMemory (s.lose p) := by
    refine ⟨?_, State.frame_of_places (s.places_lose p)⟩
    rw [State.lost_lose hlead hself hnew hmember]
    exact List.mem_append_right _ List.mem_cons_self
  refine ⟨⟨_, ?_, hlost⟩, fun hadmitted hsilent => ⟨_, ?_, hlost⟩⟩
  · have hexec : exec (.packageLost p) s = execPackageLost p s := rfl
    rw [hexec, execPackageLost, if_neg fun h => hself h.2.1]
  · have hexec : exec (.heartbeatLossTimeout p) s = execHeartbeatLossTimeout p s := rfl
    rw [hexec, execHeartbeatLossTimeout, if_pos ⟨hadmitted, hsilent⟩]

/-- The report of a core's fault aborts the slice's step (R411, R412). -/
theorem faultReport_aborts {s : State} {msg : Msg} (hlead : (s.takeMsg msg).isLead = true) (hjob : (s.takeMsg msg).brt.job = true)
    (hcause : msgBits msg 24 8 = 1) (hfirst : (s.takeMsg msg).rcv.restart = false) :
    CompletesWith (exec (.faultReport msg) s) fun t =>
      (s.takeMsg msg).msgOf 0x29 [(32, (s.takeMsg msg).getF aBocBreath F.bocBreath_index), (96, 1)] ∈ t.ctl.loop ∧ t.rcv.restart = true ∧
        t.regs = s.regs ∧ s.sameIslands t ∧ s.sameMemory t := by
  have hframe := State.places_of_frame (s.takeMsg_frame msg)
  have hregs := State.regs_takeMsg s msg
  have hexec : exec (.faultReport msg) s = execFaultReport msg s := rfl
  have hrun : exec (.faultReport msg) s = .next ((s.takeMsg msg).leadAbort 1) := by
    rw [hexec, execFaultReport, hcause]
    simp only [hlead, hjob, Bool.not_true, Bool.false_eq_true, if_false, Nat.reduceEqDiff, Nat.reduceLT, or_self]
  generalize s.takeMsg msg = s0 at *
  refine ⟨_, hrun, ?_⟩
  rw [State.leadAbort, if_neg (by simp [hfirst])]
  refine ⟨State.mem_loop_sendAll _ _, State.sendAll_ctl (·.rcv.restart) (fun _ _ => rfl) _ _, (State.regs_sendAll _ _).trans hregs,
    State.frame_of_places ((State.sendAll_ctl State.places (fun _ _ => rfl) _ _).trans hframe)⟩

/-! ### Restart -/

theorem State.freeTags_frame {β : Type} (g : State → β) (hregs : ∀ s x, g { s with regs := x } = g s) (s : State) : g s.freeTags = g s := by
  have htag : ∀ (t : State) k, g (t.freeTag k) = g t := fun t k => by
    unfold State.freeTag
    split
    · exact hregs t _
    · rfl
  exact (htag _ 3).trans ((htag _ 2).trans (htag s 1))

theorem State.getF_freeTags (s : State) {b : Nat} {g : Fld} (hb : b < aFltTag 1 ∨ aFltTag 3 < b) (hg : g.lo < 64) :
    s.freeTags.getF b g = s.getF b g := by
  have htag : ∀ (t : State) k, 1 ≤ k → k ≤ 3 → (t.freeTag k).getF b g = t.getF b g := fun t k hlow hhigh => by
    unfold State.freeTag
    split
    · refine State.getF_setF_apart t _ _ _ ?_ (by decide) hg
      simp only [aFltTag] at hb ⊢
      omega
    · rfl
  exact (htag _ 3 (by decide) (by decide)).trans ((htag _ 2 (by decide) (by decide)).trans (htag s 1 (by decide) (by decide)))

/-- The package's records of the last step put away (R403, R408). -/
def State.forgotten (s : State) : State :=
  ((s.freeTags.setFs aFltSusp [(F.fltSusp_older, 0), (F.fltSusp_newer, 0)]).bump aFltRecovery F.fltRecovery_restarts 1)

/-- The package set to begin the step named at the beat named (R423). -/
def State.setToRestart (s : State) (phase entry step : Nat) (start : Beat) : State :=
  let s := s.forgotten.setF aFltState F.fltState_recovery phase
  let s := s.event 7 0x60 0 0 s.rcv.cause
  let s := { s with
    brt := { s.brt with aborted := false, job := true, running := false, taken := false, nextEntry := entry, stepFirst := true,
                        step := step - 1, loadsDone := [], examined := false, checked := false, missed := false, asked := none },
    rcv := { s.rcv with restarts := s.rcv.restarts + 1, report := none, replay := none, waits := none,
                        reports := s.rcv.reports.filter fun r => decide (r.step < step),
                        digests := s.rcv.digests.filter fun d => decide (d.step < step) },
    fab := { s.fab with written := [] } }
  s.setF aBocTNext F.bocTNext_beat start.toNat

theorem State.forgotten_effects
    (s : State) : s.forgotten.getF aFltSusp F.fltSusp_older = 0 ∧ s.forgotten.getF aFltSusp F.fltSusp_newer = 0 ∧
    s.forgotten.getF aFltRecovery F.fltRecovery_restarts = raised F.fltRecovery_restarts (s.getF aFltRecovery F.fltRecovery_restarts) 1 ∧
    s.forgotten.getF aFltState F.fltState_role = s.getF aFltState F.fltState_role ∧ s.forgotten.places = s.places := by
  have hlos : [F.fltSusp_older.lo, F.fltSusp_newer.lo].Nodup := by decide
  have htags : ∀ g, g.lo < 64 → s.freeTags.getF aFltRecovery g = s.getF aFltRecovery g := fun g hg => s.getF_freeTags (.inr (by decide)) hg
  have hstate : ∀ g, g.lo < 64 → s.freeTags.getF aFltState g = s.getF aFltState g := fun g hg => s.getF_freeTags (.inl (by decide)) hg
  have hframe : s.freeTags.places = s.places := s.freeTags_frame State.places fun _ _ => rfl
  unfold State.forgotten
  generalize s.freeTags = u at *
  refine ⟨?_, ?_, ?_, ?_, ?_⟩
  · refine (State.getF_setF_apart _ _ _ _ (by decide) (by decide) (by decide)).trans ?_
    exact (State.getF_setFs_mem (by exact hlos) List.mem_cons_self u)
  · refine (State.getF_setF_apart _ _ _ _ (by decide) (by decide) (by decide)).trans ?_
    exact (State.getF_setFs_mem (by exact hlos) (List.mem_cons_of_mem _ List.mem_cons_self) u)
  · refine (State.getF_bump_same _ _ _ _).trans ?_
    rw [State.getF_setFs_elsewhere (a := aFltSusp) u (by decide) rfl (by decide), htags _ (by decide)]
  · refine (State.getF_setF_apart _ _ _ _ (by decide) (by decide) (by decide)).trans ?_
    exact (State.getF_setFs_elsewhere u (by decide) rfl (by decide)).trans (hstate _ (by decide))
  · exact (State.setFs_frame State.places (fun _ _ => rfl) u aFltSusp _).trans hframe

theorem State.setToRestart_effects (s : State) (phase entry step : Nat) (start : Beat) : let t := s.setToRestart phase entry step start
    t.getF aFltState F.fltState_recovery = phase % 8 ∧ t.brt.job = true ∧ t.brt.aborted = false ∧ t.brt.running = false ∧
      t.brt.missed = false ∧ t.brt.nextEntry = entry ∧ t.brt.step = step - 1 ∧ t.brt.stepFirst = true ∧
      t.getF aBocTNext F.bocTNext_beat = start.toNat ∧ t.getF aFltSusp F.fltSusp_older = 0 ∧ t.getF aFltSusp F.fltSusp_newer = 0 ∧
      t.getF aFltRecovery F.fltRecovery_restarts = raised F.fltRecovery_restarts (s.getF aFltRecovery F.fltRecovery_restarts) 1 ∧
      t.standby = s.standby ∧ t.places = s.places := by
  obtain ⟨holder, hnewer, hrestarts, hrole, hframe⟩ := s.forgotten_effects
  have hkept : ∀ (t : State) x y z b g, State.getF { t with brt := x, rcv := y, fab := z } b g = t.getF b g := fun _ _ _ _ _ _ => rfl
  intro t
  have ht : t = s.setToRestart phase entry step start := rfl
  clear_value t
  have hregs : ∀ b g, b ≠ aBocTNext → calm b → g.lo < 64 → t.getF b g = (s.forgotten.setF aFltState F.fltState_recovery phase).getF b g :=
    fun b g hb hcalm hg => by
      rw [ht]
      exact (State.getF_setF_apart _ _ _ _ hb (by decide) hg).trans ((hkept _ _ _ _ _ _).trans (State.getF_event_calm _ _ _ _ _ _ hcalm hg))
  have hrest : ∀ b g, b ≠ aBocTNext → b ≠ aFltState → calm b → g.lo < 64 → t.getF b g = s.forgotten.getF b g := fun b g hb hstate hcalm hg =>
    (hregs b g hb hcalm hg).trans (State.getF_setF_apart _ _ _ _ hstate (by decide) hg)
  have hrole' : t.getF aFltState F.fltState_role = s.getF aFltState F.fltState_role :=
    (hregs _ _ (by decide) (by decide) (by decide)).trans ((State.getF_setF_beside _ _ _ _ _ (by decide)).trans hrole)
  refine ⟨?_, ?_, ?_, ?_, ?_, ?_, ?_, ?_, ?_, ?_, ?_, ?_, ?_, ?_⟩
  · exact (hregs _ _ (by decide) (by decide) (by decide)).trans (State.getF_setF_same _ _ _ _)
  · rw [ht]; rfl
  · rw [ht]; rfl
  · rw [ht]; rfl
  · rw [ht]; rfl
  · rw [ht]; rfl
  · rw [ht]; rfl
  · rw [ht]; rfl
  · rw [ht]
    exact (State.getF_setF_same _ _ _ _).trans (Nat.mod_eq_of_lt start.isLt)
  · exact (hrest _ _ (by decide) (by decide) (by decide) (by decide)).trans holder
  · exact (hrest _ _ (by decide) (by decide) (by decide) (by decide)).trans hnewer
  · exact (hrest _ _ (by decide) (by decide) (by decide) (by decide)).trans hrestarts
  · rw [State.standby, hrole', State.standby]
  · rw [ht]
    exact (State.places_event _ _ _ _ _ _).trans hframe

theorem State.committed_forgotten (s : State) : s.forgotten.committed = s.committed := by
  refine (State.getF_setF_apart _ _ _ _ (by decide) (by decide) (by decide)).trans ?_
  exact (State.getF_setFs_elsewhere _ (by decide) rfl (by decide)).trans (s.getF_freeTags (.inl (by decide)) (by decide))

/-- The restart of a package that is drained: it arms its trigger, unless it is a spare in standby (R423). -/
def State.restarted (s : State) (entry step : Nat) (start : Beat) : State :=
  let v := s.setToRestart (if step ≤ s.forgotten.committed then 6 else 5) entry step start
  if v.standby then v.updateHealth else (v.armTrigger start.toNat).updateHealth

theorem execRestart_eq (msg : Msg) (s : State) : execRestart msg s =
    if !(s.takeMsg msg).hasImage then .next (s.takeMsg msg)
    else
      let u := if (s.takeMsg msg).getF aFltState F.fltState_recovery = 0 then ((s.takeMsg msg).freeze 0).tryDrain else s.takeMsg msg
      if u.getF aFltState F.fltState_recovery = 1 then .next (u.missStart u.brt.next)
      else .next (u.restarted (msgBits msg 24 16) (u.committed / 2 ^ 40 * 2 ^ 40 + msgBits msg 88 40) (nsBeat (msgBits msg 40 48))) := by
  rfl

/-- A drained member takes up the restart (R423). -/
theorem restart_taken {s : State} {msg : Msg} (himage : (s.takeMsg msg).hasImage = true)
    (hdrained : (s.takeMsg msg).getF aFltState F.fltState_recovery = 2) (hstandby : (s.takeMsg msg).standby = false)
    (hsmall : (s.takeMsg msg).committed < 2 ^ 40) (hstep : (s.takeMsg msg).committed < msgBits msg 88 40) :
    exec (.restart msg) s = .next ((((s.takeMsg msg).setToRestart 5 (msgBits msg 24 16) (msgBits msg 88 40) (nsBeat (msgBits msg 40 48))).armTrigger
      (nsBeat (msgBits msg 40 48)).toNat).updateHealth) := by
  have hexec : exec (.restart msg) s = execRestart msg s := rfl
  rw [hexec, execRestart_eq]
  generalize s.takeMsg msg = s0 at *
  have hepoch : s0.committed / 2 ^ 40 * 2 ^ 40 + msgBits msg 88 40 = msgBits msg 88 40 := by
    rw [Nat.div_eq_of_lt hsmall]
    omega
  have hready : (s0.setToRestart 5 (msgBits msg 24 16) (msgBits msg 88 40) (nsBeat (msgBits msg 40 48))).standby = false := by
    obtain ⟨-, -, -, -, -, -, -, -, -, -, -, -, hrole, -⟩ :=
      s0.setToRestart_effects 5 (msgBits msg 24 16) (msgBits msg 88 40) (nsBeat (msgBits msg 40 48))
    exact hrole.trans hstandby
  have hphase : ¬msgBits msg 88 40 ≤ s0.forgotten.committed := by
    rw [s0.committed_forgotten]
    omega
  have hno : (!s0.hasImage) = false := by rw [himage]; rfl
  have h0 : ¬s0.getF aFltState F.fltState_recovery = 0 := by omega
  have h1 : ¬s0.getF aFltState F.fltState_recovery = 1 := by omega
  dsimp only
  rw [hno, if_neg Bool.false_ne_true, if_neg h0, if_neg h1, hepoch, State.restarted]
  rw [if_neg hphase, hready, if_neg Bool.false_ne_true]

theorem restart_effects {s : State} {msg : Msg} (himage : (s.takeMsg msg).hasImage = true)
    (hdrained : (s.takeMsg msg).getF aFltState F.fltState_recovery = 2) (hstandby : (s.takeMsg msg).standby = false)
    (hsmall : (s.takeMsg msg).committed < 2 ^ 40) (hstep : (s.takeMsg msg).committed < msgBits msg 88 40) :
    let start := nsBeat (msgBits msg 40 48)
    CompletesWith (exec (.restart msg) s) fun t =>
      t.getF aFltState F.fltState_recovery = 5 ∧ t.brt.job = true ∧ t.brt.aborted = false ∧ t.brt.running = false ∧ t.brt.missed = false ∧
        t.brt.nextEntry = msgBits msg 24 16 ∧ t.brt.step = msgBits msg 88 40 - 1 ∧ t.brt.stepFirst = true ∧
        t.getF aBocTNext F.bocTNext_beat = start.toNat ∧ t.getF aTimTrig F.timTrig_beat = start.toNat ∧
        t.getF aTimTrigState F.timTrigState_armed = 1 ∧ t.getF aFltSusp F.fltSusp_older = 0 ∧ t.getF aFltSusp F.fltSusp_newer = 0 ∧
        t.getF aFltRecovery F.fltRecovery_restarts = raised F.fltRecovery_restarts (s.getF aFltRecovery F.fltRecovery_restarts) 1 ∧
        s.sameIslands t ∧ s.sameMemory t := by
  intro start
  have hrun := restart_taken himage hdrained hstandby hsmall hstep
  have hcount := State.getF_takeMsg s msg aFltRecovery F.fltRecovery_restarts
  have hplaces := State.places_of_frame (s.takeMsg_frame msg)
  obtain ⟨hphase, hjob, haborted, hrunning, hmissed, hentry, hat, hfirst, hnext, holder, hnewer, hrestarts, -, hframe⟩ :=
    (s.takeMsg msg).setToRestart_effects 5 (msgBits msg 24 16) (msgBits msg 88 40) start
  have hstart : (nsBeat (msgBits msg 40 48)).toNat = start.toNat := rfl
  change exec (.restart msg) s = .next (((((s.takeMsg msg).setToRestart 5 (msgBits msg 24 16) (msgBits msg 88 40) start).armTrigger
    start.toNat).updateHealth)) at hrun
  generalize (s.takeMsg msg).setToRestart 5 (msgBits msg 24 16) (msgBits msg 88 40) start = u at *
  obtain ⟨hbeat, hothers, hbrt, hisl, hmem⟩ := u.armTrigger_effects start.toNat
  obtain ⟨harmed, -, -⟩ := u.armTrigger_registers start.toNat
  generalize u.armTrigger start.toNat = w at *
  have hwbrt : w.updateHealth.brt = u.brt := (State.updateHealth_frame State.brt (fun _ _ => rfl) (fun _ _ => rfl) w).trans hbrt
  have hhealth : ∀ b g, (∀ k < 8, b ≠ aFltHealth k) → g.lo < 64 → fkey b g ≠ fkey aBocState F.bocState_state →
      w.updateHealth.getF b g = w.getF b g := fun b g hb hg hkey => w.getF_updateHealth hb hg hkey
  have hkept : ∀ b g, (∀ k < 8, b ≠ aFltHealth k) → b ≠ aTimTrig → b ≠ aTimTrigState → g.lo < 64 →
      fkey b g ≠ fkey aBocState F.bocState_state → w.updateHealth.getF b g = u.getF b g := fun b g hb hb1 hb2 hg hkey =>
    (hhealth b g hb hg hkey).trans (hothers b g hb1 hb2 hg)
  refine ⟨_, hrun, ?_⟩
  beta_reduce
  rw [hwbrt]
  refine ⟨(hkept _ _ (by decide) (by decide) (by decide) (by decide) (by decide)).trans hphase, hjob, haborted, hrunning, hmissed, hentry, hat, hfirst,
    (hkept _ _ (by decide) (by decide) (by decide) (by decide) (by decide)).trans hnext,
    (hhealth _ _ (by decide) (by decide) (by decide)).trans (hbeat.trans (Nat.mod_eq_of_lt start.isLt)),
    (hhealth _ _ (by decide) (by decide) (by decide)).trans harmed,
    (hkept _ _ (by decide) (by decide) (by decide) (by decide) (by decide)).trans holder,
    (hkept _ _ (by decide) (by decide) (by decide) (by decide) (by decide)).trans hnewer,
    (hkept _ _ (by decide) (by decide) (by decide) (by decide) (by decide)).trans (hrestarts.trans (by rw [hcount])), ?_⟩
  exact State.frame_of_places ((State.updateHealth_frame State.places (fun _ _ => rfl) (fun _ _ => rfl) w).trans
    ((State.places_of_frame ⟨hisl, hmem⟩).trans (hframe.trans hplaces)))

theorem heartbeat_sent {s : State} (hadmitted : s.admitted = true) (hstays : s.rcv.gone = false) (hlead : s.isLead = true) :
    CompletesWith (exec .heartbeatSend s) fun t =>
      s.msgOf 0x27 [(24, s.health), (32, s.committed % 2 ^ 40)] ∈ t.ctl.loop ∧ t.regs = s.regs ∧ s.sameIslands t ∧ s.sameMemory t := by
  have hexec : exec .heartbeatSend s = execHeartbeatSend s := rfl
  refine ⟨s.sendAll (s.msgOf 0x27 [(24, s.health), (32, s.committed % 2 ^ 40)]), ?_, State.mem_loop_sendAll _ _, State.regs_sendAll _ _,
    State.frame_sendAll s _⟩
  rw [hexec, execHeartbeatSend, if_neg (by simp [hadmitted, hstays])]
  exact congrArg Host.Outcome.next (if_pos hlead)

/-! ### Promotion -/

section
variable {β : Type} (g : State → β) (hregs : ∀ s x, g { s with regs := x } = g s)
include hregs

theorem State.quarantine_keeps (hflt : ∀ s x, g { s with flt := x } = g s) (s : State) (p : Nat) : g (s.quarantine p) = g s := by
  unfold State.quarantine
  exact (State.event_frame g hregs hflt _ _ _ _ _ _).trans ((hregs _ _).trans ((hregs _ _).trans (hregs s _)))

theorem State.checkDelay_keeps (hctl : ∀ s x, g { s with ctl := x } = g s) (s : State) (p : Nat) : g (s.checkDelay p) = g s := by
  unfold State.checkDelay
  extract_lets a st t
  split
  · rfl
  · split
    · exact hregs s _
    · split
      · exact hregs s _
      · exact (State.unicast_ctl g hctl _ _).trans (hregs s _)

/-- A promoted spare takes up the part of the manifest it stands in for (R420). -/
theorem State.applyPart_keeps (hctl : ∀ s x, g { s with ctl := x } = g s) (hboc : ∀ s x, g { s with boc := x } = g s) (s : State)
    (q : Part) :
    g (s.applyPart q) = g s := by
  unfold State.applyPart
  extract_lets s1 s2 s3 boc s4
  have h4 : g s4 = g s := (hboc s3 _).trans ((State.setFs_frame g hregs _ _ _).trans
    ((State.setFs_frame g hregs _ _ _).trans (State.setFs_frame g hregs s _ _)))
  refine (State.foldl_frame g _ (fun t i => ?_) s4).trans h4
  extract_lets used t1 t2
  have h2 : g t2 = g t := (State.setFs_frame g hregs t1 _ _).trans (hregs t _)
  split
  · exact (State.checkDelay_keeps g hregs hctl t2 i).trans h2
  · exact h2

end

/-- A register of the fault block beside its records, the health image and the directory of substitutions. -/
def settled (b : Nat) : Prop := fltBase ≤ b ∧ b < secBase ∧ calm b = true ∧ b ≠ aFltSubstDir ∧ ∀ k < 8, b ≠ aFltHealth k

theorem settled_state : settled aFltState := ⟨by decide, by decide, by decide, by decide, by decide⟩
theorem settled_recovery : settled aFltRecovery := ⟨by decide, by decide, by decide, by decide, by decide⟩
theorem settled_subst {i : Nat} (hi : i < 16) : settled (aFltSubst i) := by
  refine ⟨?_, ?_, calm_iff.mpr ⟨?_, ?_, ?_⟩, ?_, fun k hk => ?_⟩ <;>
    simp only [aFltSubst, fltBase, secBase, aFltRing, aFltLedger, aFltEvent, aFltSubstDir, aFltHealth] <;> omega

theorem settled.port {b p off : Nat} (h : settled b) (hp : p < numPorts) (hoff : off < 0x10000) : b ≠ prtBase p + off := by
  obtain ⟨hlow, -⟩ := h
  have hports : numPorts = 48 := rfl
  simp only [fltBase, prtBase] at hlow ⊢
  omega

theorem settled.boc {b off : Nat} (h : settled b) : b ≠ bocBase + off := by
  obtain ⟨-, hhigh, -⟩ := h
  simp only [secBase, bocBase] at hhigh ⊢
  omega

theorem settled.early {b c : Nat} (h : settled b) (hc : c < fltBase) : b ≠ c := by
  obtain ⟨hlow, -⟩ := h
  omega

theorem State.getF_updateHealth_settled (s : State) {b : Nat} {g : Fld} (hb : settled b) (hg : g.lo < 64) :
    s.updateHealth.getF b g = s.getF b g := by
  refine s.getF_updateHealth hb.2.2.2.2 hg fun h => ?_
  have hne : b ≠ aBocState := hb.boc
  have hdiv := congrArg (· / 64) h
  exact hne ((fkey_div hg).symm.trans (hdiv.trans (fkey_div (by decide))))

theorem State.getF_quarantine (s : State) {p b : Nat} {g : Fld} (hp : p < numPorts) (hb : settled b) (hg : g.lo < 64) :
    (s.quarantine p).getF b g = s.getF b g := by
  unfold State.quarantine
  have hcalm := hb.2.2.1
  refine (State.getF_event_calm _ _ _ _ _ _ hcalm hg).trans ((State.getF_setF_apart _ _ _ _ (hb.port hp (by decide)) (by decide) hg).trans ?_)
  exact (State.getF_setF_apart _ _ _ _ (hb.early (by decide)) (by decide) hg).trans (State.getF_setF_apart s _ _ _ (by
    rw [aBocDisc, Nat.add_assoc]; exact hb.boc) (by decide) hg)

theorem State.getF_applyPart (s : State) (q : Part) {b : Nat} {g : Fld} (hb : settled b) (hg : g.lo < 64) :
    (s.applyPart q).getF b g = s.getF b g := by
  have hboc : ∀ (t : State) x, State.getF { t with boc := x } b g = t.getF b g := fun _ _ => rfl
  unfold State.applyPart
  extract_lets s1 s2 s3 boc s4
  have h4 : s4.getF b g = s.getF b g := (hboc s3 _).trans ((State.getF_setFs_elsewhere s2 hb.2.2.2.1 rfl hg).trans
    ((State.getF_setFs_elsewhere s1 (hb.early (by decide)) rfl hg).trans (State.getF_setFs_elsewhere s hb.boc rfl hg)))
  refine List.foldlRecOn (motive := fun t : State => t.getF b g = s.getF b g) _ _ h4 fun t ht i hi => Eq.trans ?_ ht
  have hport : b ≠ aCrpConfig i := hb.port (List.mem_range.mp hi) (by decide)
  extract_lets used t1 t2
  have h2 : t2.getF b g = t.getF b g := (State.getF_setFs_elsewhere t1 hport rfl hg).trans (State.getF_setF_apart t _ _ _ (by
    rw [aBocDisc, Nat.add_assoc]; exact hb.boc) (by decide) hg)
  split
  · exact (t2.getF_checkDelay hport hg).trans h2
  · exact h2

/-- The place of a substitution in the table: its own, or the first that is free (R420). -/
def State.substSlot (s : State) (lost : Nat) : Nat :=
  match (List.range 16).find? fun i => s.flag (aFltSubst i) F.fltSubst_valid && decide (s.getF (aFltSubst i) F.fltSubst_lost = lost) with
  | some i => i
  | none => ((List.range 16).find? fun i => !s.flag (aFltSubst i) F.fltSubst_valid).getD 15

theorem State.substSlot_lt (s : State) (lost : Nat) : s.substSlot lost < 16 := by
  unfold State.substSlot
  split
  case h_1 i hi => exact List.mem_range.mp (List.mem_of_find?_eq_some hi)
  case h_2 =>
    cases hfree : (List.range 16).find? fun i => !s.flag (aFltSubst i) F.fltSubst_valid with
    | none => exact (by decide : 15 < 16)
    | some i => exact List.mem_range.mp (List.mem_of_find?_eq_some hfree)

/-- A substitution entered, counted, made a patch, and put on the lists (R420, R421). -/
def State.substitute (s : State) (lost sp : Nat) : State :=
  let u := s.setFs (aFltSubst (s.substSlot lost)) [(F.fltSubst_lost, lost), (F.fltSubst_spare, sp), (F.fltSubst_valid, 1)]
  let u := (u.bump aFltRecovery F.fltRecovery_promotions 1).event 7 0x61 0 0 (lost + sp * 2 ^ 16)
  let u := u.activate (2 ^ 28 + lost + sp * 2 ^ 14) u.brt.next
  { u with rcv := { u.rcv with lost := if u.rcv.lost.contains (s.substituted lost) then u.rcv.lost else u.rcv.lost ++ [s.substituted lost],
                               spares := if u.rcv.spares.contains sp then u.rcv.spares else u.rcv.spares ++ [sp] } }

/-- The recovery goes on to the substitution, and the links to the lost package are closed (R420). -/
def State.partedFrom (s : State) (old : Nat) : State :=
  let s := if s.getF aFltState F.fltState_recovery ≤ 1 then s
    else s.setF aFltState F.fltState_recovery (max 4 (s.getF aFltState F.fltState_recovery))
  ((List.range numPorts).filter fun p => s.linkUp p && decide ((s.port p).partner = some old)).foldl (fun s p => s.quarantine p) s

/-- The spare itself takes the role and the part of the package it replaces (R420). -/
def State.standsIn (s : State) (lost sp : Nat) : State :=
  if sp = s.self then
    let s := s.setF aFltState F.fltState_role 0
    match s.boc.parts.find? fun p => decide (p.index = lost) with
    | some p => s.applyPart p
    | none => s
  else s

/-- The root of the beat's tree, after the loss of the one before (R413). -/
def State.rootAfter (s : State) (old : Nat) : State :=
  if old = s.getF aTimStatus F.timStatus_rootIndex then (if s.isLead then s.becomeRoot else s.setF aTimStatus F.timStatus_rootIndex s.lead) else s

theorem execPromote_eq (msg : Msg) (s : State) : execPromote msg s =
    .next (((((s.takeMsg msg).substitute (msgBits msg 24 14) (msgBits msg 38 14)).partedFrom
      ((s.takeMsg msg).substituted (msgBits msg 24 14))).standsIn (msgBits msg 24 14) (msgBits msg 38 14)).rootAfter
      ((s.takeMsg msg).substituted (msgBits msg 24 14))).updateHealth := rfl

theorem mem_listed {α : Type} [BEq α] [LawfulBEq α] (l : List α) (x : α) : x ∈ if l.contains x then l else l ++ [x] := by
  split
  case isTrue h => exact List.contains_iff_mem.mp h
  case isFalse => exact List.mem_append_right _ List.mem_cons_self

theorem State.getF_activate (s : State) (key breath : Nat) {b : Nat} {g : Fld} (hb : settled b) (hg : g.lo < 64) :
    (s.activate key breath).getF b g = s.getF b g := by
  have hfab : ∀ (t : State) x, State.getF { t with fab := x } b g = t.getF b g := fun _ _ => rfl
  unfold State.activate
  exact (State.getF_setF_apart _ _ _ _ (hb.early (by decide)) (by decide) hg).trans
    ((State.getF_setF_apart _ _ _ _ (hb.early (by decide)) (by decide) hg).trans (hfab s _))

theorem msgBits_lt (msg : Msg) (lo w : Nat) : msgBits msg lo w < 2 ^ w := Nat.mod_lt _ (Nat.two_pow_pos w)

/-- What entering a substitution shows (R420). -/
theorem State.substitute_effects (s : State) {lost sp : Nat} (hlost : lost < 2 ^ 14) (hsp : sp < 2 ^ 14) :
    let t := s.substitute lost sp
    t.getF (aFltSubst (s.substSlot lost)) F.fltSubst_lost = lost ∧ t.getF (aFltSubst (s.substSlot lost)) F.fltSubst_spare = sp ∧
      t.getF (aFltSubst (s.substSlot lost)) F.fltSubst_valid = 1 ∧ sp ∈ t.rcv.spares ∧ s.substituted lost ∈ t.rcv.lost ∧
      t.getF aFltRecovery F.fltRecovery_promotions = raised F.fltRecovery_promotions (s.getF aFltRecovery F.fltRecovery_promotions) 1 ∧
      t.self = s.self ∧ t.places = s.places := by
  have hlos : [F.fltSubst_lost.lo, F.fltSubst_spare.lo, F.fltSubst_valid.lo].Nodup := by decide
  have hslot := settled_subst (s.substSlot_lt lost)
  have hother : aFltRecovery ≠ aFltSubst (s.substSlot lost) := by
    simp only [aFltRecovery, aFltSubst]
    omega
  have hrcv : ∀ (t : State) x b g, State.getF { t with rcv := x } b g = t.getF b g := fun _ _ _ _ => rfl
  let u := s.setFs (aFltSubst (s.substSlot lost)) [(F.fltSubst_lost, lost), (F.fltSubst_spare, sp), (F.fltSubst_valid, 1)]
  let v := u.bump aFltRecovery F.fltRecovery_promotions 1
  have hu : u.getF (aFltSubst (s.substSlot lost)) F.fltSubst_lost = lost ∧ u.getF (aFltSubst (s.substSlot lost)) F.fltSubst_spare = sp ∧
      u.getF (aFltSubst (s.substSlot lost)) F.fltSubst_valid = 1 ∧
      u.getF aFltRecovery F.fltRecovery_promotions = s.getF aFltRecovery F.fltRecovery_promotions ∧ u.places = s.places ∧ u.self = s.self :=
    ⟨(State.getF_setFs_mem (by exact hlos) List.mem_cons_self s).trans (Nat.mod_eq_of_lt hlost),
      (State.getF_setFs_mem (by exact hlos) (List.mem_cons_of_mem _ List.mem_cons_self) s).trans (Nat.mod_eq_of_lt hsp),
      State.getF_setFs_mem (by exact hlos) (List.mem_cons_of_mem _ (List.mem_cons_of_mem _ List.mem_cons_self)) s,
      State.getF_setFs_elsewhere s hother rfl (by decide), State.setFs_frame State.places (fun _ _ => rfl) s _ _,
      State.setFs_frame State.self (fun _ _ => rfl) s _ _⟩
  obtain ⟨hul, hus, huv, huc, hup, huself⟩ := hu
  intro t
  have ht : ∀ b g, settled b → g.lo < 64 → t.getF b g = v.getF b g := fun b g hb hg =>
    (hrcv _ _ b g).trans ((State.getF_activate _ _ _ hb hg).trans (State.getF_event_calm _ _ _ _ _ _ hb.2.2.1 hg))
  have hv : ∀ g, g.lo < 64 → v.getF (aFltSubst (s.substSlot lost)) g = u.getF (aFltSubst (s.substSlot lost)) g := fun g hg =>
    State.getF_setF_apart u _ _ _ hother.symm (by decide) hg
  have hplaces : t.places = s.places := (State.places_event v _ _ _ _ _).trans hup
  have hself : t.self = s.self := (State.event_frame State.self (fun _ _ => rfl) (fun _ _ => rfl) v _ _ _ _ _).trans huself
  exact ⟨(ht _ _ hslot (by decide)).trans ((hv _ (by decide)).trans hul), (ht _ _ hslot (by decide)).trans ((hv _ (by decide)).trans hus),
    (ht _ _ hslot (by decide)).trans ((hv _ (by decide)).trans huv), mem_listed _ _, mem_listed _ _,
    (ht _ _ settled_recovery (by decide)).trans ((State.getF_bump_same u _ _ _).trans (by rw [huc])), hself, hplaces⟩

section
variable {β : Type} (g : State → β) (hregs : ∀ s x, g { s with regs := x } = g s)
include hregs

theorem State.partedFrom_frame (hflt : ∀ s x, g { s with flt := x } = g s) (s : State) (old : Nat) : g (s.partedFrom old) = g s := by
  unfold State.partedFrom
  refine (State.foldl_frame g _ (fun t p => State.quarantine_keeps g hregs hflt t p) _).trans ?_
  split
  · rfl
  · exact hregs s _

theorem State.standsIn_frame (hctl : ∀ s x, g { s with ctl := x } = g s) (hboc : ∀ s x, g { s with boc := x } = g s) (s : State)
    (lost sp : Nat) :
    g (s.standsIn lost sp) = g s := by
  unfold State.standsIn
  extract_lets u
  have hu : g u = g s := hregs s _
  split
  · split
    · exact (State.applyPart_keeps g hregs hctl hboc u _).trans hu
    · exact hu
  · rfl

theorem State.rootAfter_frame (s : State) (old : Nat) : g (s.rootAfter old) = g s := by
  unfold State.rootAfter
  split
  · split
    · exact State.setFs_frame g hregs s _ _
    · exact hregs s _
  · rfl

end

theorem State.getF_partedFrom (s : State) (old : Nat) {b : Nat} {g : Fld} (hb : settled b) (hstate : b ≠ aFltState) (hg : g.lo < 64) :
    (s.partedFrom old).getF b g = s.getF b g := by
  unfold State.partedFrom
  extract_lets u
  have hu : u.getF b g = s.getF b g := by
    unfold u
    split
    · rfl
    · exact State.getF_setF_apart s _ _ _ hstate (by decide) hg
  refine List.foldlRecOn (motive := fun t : State => t.getF b g = s.getF b g) _ _ hu fun t ht p hp => ?_
  exact (t.getF_quarantine (List.mem_range.mp (List.mem_of_mem_filter hp)) hb hg).trans ht

theorem State.getF_standsIn (s : State) (lost sp : Nat) {b : Nat} {g : Fld} (hb : settled b) (hstate : b ≠ aFltState) (hg : g.lo < 64) :
    (s.standsIn lost sp).getF b g = s.getF b g := by
  unfold State.standsIn
  extract_lets u
  have hu : u.getF b g = s.getF b g := State.getF_setF_apart s _ _ _ hstate (by decide) hg
  split
  · split
    · exact (u.getF_applyPart _ hb hg).trans hu
    · exact hu
  · rfl

theorem State.role_standsIn (s : State) (lost : Nat) : (s.standsIn lost s.self).getF aFltState F.fltState_role = 0 := by
  unfold State.standsIn
  extract_lets u
  have hu : u.getF aFltState F.fltState_role = 0 := State.getF_setF_same s _ _ _
  rw [if_pos rfl]
  split
  · exact (u.getF_applyPart _ settled_state (by decide)).trans hu
  · exact hu

theorem State.getF_rootAfter (s : State) (old : Nat) {b : Nat} {g : Fld} (hb : b ≠ aTimStatus) (hg : g.lo < 64) :
    (s.rootAfter old).getF b g = s.getF b g := by
  unfold State.rootAfter
  split
  · split
    · exact State.getF_setFs_elsewhere s hb rfl hg
    · exact State.getF_setF_apart s _ _ _ hb (by decide) hg
  · rfl

theorem promote_effects (s : State) (msg : Msg) : CompletesWith (exec (.promote msg) s) fun t =>
    (∃ i < 16, t.getF (aFltSubst i) F.fltSubst_lost = msgBits msg 24 14 ∧ t.getF (aFltSubst i) F.fltSubst_spare = msgBits msg 38 14 ∧
      t.getF (aFltSubst i) F.fltSubst_valid = 1) ∧
    msgBits msg 38 14 ∈ t.rcv.spares ∧ (s.takeMsg msg).substituted (msgBits msg 24 14) ∈ t.rcv.lost ∧
    t.getF aFltRecovery F.fltRecovery_promotions = raised F.fltRecovery_promotions (s.getF aFltRecovery F.fltRecovery_promotions) 1 ∧
    (msgBits msg 38 14 = (s.takeMsg msg).self → t.getF aFltState F.fltState_role = 0) ∧ s.sameIslands t ∧ s.sameMemory t := by
  have hexec : exec (.promote msg) s = execPromote msg s := rfl
  rw [hexec, execPromote_eq]
  have hcount := State.getF_takeMsg s msg aFltRecovery F.fltRecovery_promotions
  have hplaces := State.places_of_frame (s.takeMsg_frame msg)
  obtain ⟨hl, hs, hv, hspares, hlost, hpromotions, hself, hframe⟩ :=
    (s.takeMsg msg).substitute_effects (msgBits_lt msg 24 14) (msgBits_lt msg 38 14)
  have hi := (s.takeMsg msg).substSlot_lt (msgBits msg 24 14)
  generalize (s.takeMsg msg).substSlot (msgBits msg 24 14) = i at *
  generalize (s.takeMsg msg).substituted (msgBits msg 24 14) = old at *
  generalize (s.takeMsg msg).substitute (msgBits msg 24 14) (msgBits msg 38 14) = u at *
  let w := ((u.partedFrom old).standsIn (msgBits msg 24 14) (msgBits msg 38 14)).rootAfter old
  have hw : ∀ {β : Type} (g : State → β), (∀ s x, g { s with regs := x } = g s) → (∀ s x, g { s with flt := x } = g s) →
      (∀ s x, g { s with ctl := x } = g s) → (∀ s x, g { s with boc := x } = g s) → (∀ s x, g { s with i3c := x } = g s) →
      g w.updateHealth = g u := fun g hregs hflt hctl hboc hi3c =>
    (State.updateHealth_frame g hregs hi3c w).trans ((State.rootAfter_frame g hregs _ old).trans
      ((State.standsIn_frame g hregs hctl hboc _ _ _).trans (State.partedFrom_frame g hregs hflt u old)))
  have hwregs : ∀ b g, settled b → g.lo < 64 → w.updateHealth.getF b g =
      ((u.partedFrom old).standsIn (msgBits msg 24 14) (msgBits msg 38 14)).getF b g := fun b g hb hg =>
    (w.getF_updateHealth_settled hb hg).trans (State.getF_rootAfter _ old (hb.early (by decide)) hg)
  have hwu : ∀ b g, settled b → b ≠ aFltState → g.lo < 64 → w.updateHealth.getF b g = u.getF b g := fun b g hb hstate hg =>
    (hwregs b g hb hg).trans ((State.getF_standsIn _ _ _ hb hstate hg).trans (u.getF_partedFrom old hb hstate hg))
  have hslot := settled_subst hi
  have hnot : aFltSubst i ≠ aFltState := by
    simp only [aFltSubst, aFltState]
    omega
  have hrcv : w.updateHealth.rcv = u.rcv := hw State.rcv (fun _ _ => rfl) (fun _ _ => rfl) (fun _ _ => rfl) (fun _ _ => rfl) fun _ _ => rfl
  refine ⟨w.updateHealth, rfl, ⟨i, hi, (hwu _ _ hslot hnot (by decide)).trans hl, (hwu _ _ hslot hnot (by decide)).trans hs,
    (hwu _ _ hslot hnot (by decide)).trans hv⟩, hrcv ▸ hspares, hrcv ▸ hlost,
    (hwu _ _ settled_recovery (by decide) (by decide)).trans (hpromotions.trans (by rw [hcount])), fun hme => ?_, ?_⟩
  · refine (hwregs _ _ settled_state (by decide)).trans ?_
    have hparted : (u.partedFrom old).self = u.self := State.partedFrom_frame State.self (fun _ _ => rfl) (fun _ _ => rfl) u old
    rw [hme, ← hself, ← hparted]
    exact State.role_standsIn _ _
  · exact State.frame_of_places ((hw State.places (fun _ _ => rfl) (fun _ _ => rfl) (fun _ _ => rfl) (fun _ _ => rfl) fun _ _ => rfl).trans
      (hframe.trans hplaces))

/-- Settles O43. -/
theorem leadLossAndRestart : Obligations.LeadLossAndRestart := by
  intro s msg
  exact ⟨heartbeat_noted, heartbeat_sent, fun m hm hadmitted hlead hsilent hfirst => leadLossTimeout_takesOver hm hadmitted hlead hsilent hfirst,
    fun p hlead hself hnew hmember => member_lost hlead hself hnew hmember,
    fun hlead hjob hcause hfirst _ => faultReport_aborts hlead hjob hcause hfirst, restart_effects, promote_effects s msg⟩

end Sys2Proof.Machine
end

section
/-! Objects over the Bocal's request protocol (R455, R464 to R466, R503): read, written, given up, committed, and the checkpoint's blocks. -/

namespace Sys2Proof.Machine

/-! ### Answers outside a session -/

theorem State.countAnswer_frame {β : Type} (g : State → β) (hregs : ∀ s x, g { s with regs := x } = g s) (s : State) (status : Nat) :
    g (s.countAnswer status) = g s := by
  unfold State.countAnswer
  extract_lets u
  have hu : g u = g s := hregs s _
  split
  · exact (hregs u _).trans hu
  · exact hu

theorem State.respondClear_frame {β : Type} (g : State → β) (hregs : ∀ s x, g { s with regs := x } = g s)
    (hresp : ∀ s x, g { s with boc := { s.boc with resp := x } } = g s) (s : State) (r : Brq) (code status : Nat) (data : List Byte) :
    g (s.respondClear r code status data) = g s :=
  (hresp _ _).trans (State.countAnswer_frame g hregs s status)

theorem State.frame_respondClear (s : State) (r : Brq) (code status : Nat) (data : List Byte) :
    s.sameIslands (s.respondClear r code status data) ∧ s.sameMemory (s.respondClear r code status data) :=
  State.frame_of_places (State.respondClear_frame State.places (fun _ _ => rfl) (fun _ _ => rfl) s r code status data)

/-- The health image is read by anyone (R434, R503). -/
theorem objRead_health {s : State} {r : Brq} (hlive : s.brqLive = true) (hcls : r.cls = 0) {offset length : Nat} (hpos : 0 < length)
    (hfits : offset + length ≤ 64) : CompletesWith (exec (.objRead r 0x03 0 offset length) s) fun t =>
      t.boc.resp = some (Resp.mk 0 0 0x8001 r.rid 0 ((List.range length).map fun i =>
        BitVec.ofNat 8 (s.getF (aFltHealth ((offset + i) / 8)) F.fltHealth_word / 2 ^ (8 * ((offset + i) % 8))))) ∧
        s.sameIslands t ∧ s.sameMemory t := by
  have hbytes : s.objBytes 0x03 offset length = (0, (List.range length).map fun i =>
      BitVec.ofNat 8 (s.getF (aFltHealth ((offset + i) / 8)) F.fltHealth_word / 2 ^ (8 * ((offset + i) % 8)))) :=
    if_neg (by omega)
  have hexec : exec (.objRead r 0x03 0 offset length) s = execObjRead r 0x03 0 offset length s := rfl
  rw [hexec, execObjRead, if_pos ⟨hlive, hcls, by decide, by decide⟩, hbytes]
  exact ⟨_, rfl, rfl, State.frame_respondClear s r 0x01 0 _⟩

theorem makeReport_made {s : State} {r : Brq} (hlive : s.brqLive = true) (hcls : r.cls = 0) (nonce : BitVec 256) :
    CompletesWith (exec (.makeReport r nonce) s) fun t => t.boc.report = s.makeReport nonce ∧
      (∃ a, t.boc.resp = some a ∧ a.status = 0 ∧ a.code = 0x8010) ∧ s.sameIslands t ∧ s.sameMemory t := by
  have hexec : exec (.makeReport r nonce) s = execMakeReport r nonce s := rfl
  rw [hexec, execMakeReport, if_pos ⟨hlive, hcls⟩]
  dsimp only
  generalize s.makeReport nonce = report
  exact ⟨_, rfl, State.respondClear_frame (·.boc.report) (fun _ _ => rfl) (fun _ _ => rfl) _ r _ _ _, ⟨_, rfl, rfl, rfl⟩,
    State.frame_of_places (State.respondClear_frame State.places (fun _ _ => rfl) (fun _ _ => rfl) _ r _ _ _)⟩

/-! ### Answers in a session -/

/-- A request that is refused (R503): its answer is counted, and nothing follows. -/
theorem State.sessionRequest_refused {s t : State} {r : Brq} {x : Session} {data : List Byte} {status : Nat} (h : InSession s r x)
    {code : Nat}
    {may : Session → Bool} {inRecovery : Bool} {act : Act} {after : State → State} (hmay : may (x.accept r.counter) = true)
    (hact : act (x.accept r.counter) (s.setSession (x.accept r.counter)) = (t, status, data)) (hrefused : status ≠ 0) :
    s.sessionRequest r code may inRecovery act after = (t.countAnswer status).respond r x.out (code + 0x8000) status data true := by
  have hnew : ((x.accept r.counter).answers.find? fun a => decide (a.rid = r.rid)) = none :=
    List.find?_eq_none.mpr fun a ha => by simpa using h.new a ha
  have hnormal : (s.setSession (x.accept r.counter)).boc.recovery = false := h.normal
  rw [State.sessionRequest_accepted h.live h.cls h.found h.tag h.fresh h.small]
  simp only [hnew, hnormal, Bool.false_and, Bool.false_eq_true, if_false, hmay, Bool.not_true, hact, hrefused]
  rfl

theorem objRead_manifest {s : State} {r : Brq} {x : Session} (h : InSession s r x) {offset length : Nat} (hmay : x.may 1 = true)
    (hpos : 0 < length) (hsmall : length ≤ 8192) (hfits : offset + length ≤ s.boc.manBytes.length) :
    CompletesWith (exec (.objRead r 0x30 0 offset length) s) fun t =>
      s.done t r x 0x01 ((s.boc.manBytes.drop offset).take length) ∧ s.regsBut t [(aBocBrq, F.bocBrq_accepted)] ∧
        s.sameIslands t ∧ s.sameMemory t := by
  let u := s.setSession (x.accept r.counter)
  have hbytes : u.objBytes 0x30 offset length = (0, (s.boc.manBytes.drop offset).take length) := by
    have hlist : ((List.range length).map fun i => s.boc.manBytes.getD (offset + i) 0) = (s.boc.manBytes.drop offset).take length := by
      refine List.ext_getElem (by simp; omega) fun i hi _ => ?_
      simp only [List.length_map, List.length_range] at hi
      simp [List.getD_eq_getElem?_getD, List.getElem?_eq_getElem (show offset + i < s.boc.manBytes.length by omega)]
    refine (if_neg ?_).trans (congrArg (Prod.mk 0) hlist)
    simp only [u]
    change ¬(length = 0 ∨ 8192 < length ∨ s.boc.manBytes.length < offset + length)
    omega
  have hclear : ¬(s.brqLive = true ∧ r.cls = 0 ∧ 1 ≤ 0x30 ∧ 0x30 ≤ 3) := fun hc => absurd hc.2.2.2 (by decide)
  have hregs : s.regsBut u [(aBocBrq, F.bocBrq_accepted)] := fun _ _ _ => rfl
  have hexec : exec (.objRead r 0x30 0 offset length) s = execObjRead r 0x30 0 offset length s := rfl
  have hreadable : objReadable 0x30 (x.accept r.counter) = true := hmay
  rw [hexec, execObjRead, if_neg hclear]
  refine h.completes (t := u) rfl ?_ ⟨State.done_completed (t := u) h.going rfl _ _, hregs.completed h.going List.mem_cons_self _ _,
    State.frame_completed (s.frame_setSession _) h.going _ _⟩
  rw [show (!objKnown 0x30) = false from rfl, hreadable, hbytes]
  rfl

/-! ### Objects open for writing -/

/-- The state in which an object is written by the chunks named, and no other (R503). -/
def State.withWrite (s : State) (w : ObjWrite) : State :=
  { s with boc := { s.boc with writes := (s.boc.writes.filter fun v => !decide (v.object = w.object ∧ v.index = w.index)) ++ [w] } }

theorem State.objOpen_filter (s : State) (o i p j : Nat) (l : List ObjWrite) (hl : l = s.boc.writes.filter fun v => !decide
    (v.object = o ∧ v.index = i))
    (hother : p ≠ o ∨ j ≠ i) : (l.find? fun w => decide (w.object = p ∧ w.index = j)) = s.objOpen p j := by
  rw [hl, List.find?_filter]
  refine congrArg (List.find? · s.boc.writes) (funext fun w => ?_)
  by_cases hw : w.object = p ∧ w.index = j
  · simp [hw]
    omega
  · simp [hw]

theorem State.objOpen_withWrite (s : State) (w : ObjWrite) : (s.withWrite w).objOpen w.object w.index = some w := by
  have hnone : ((s.boc.writes.filter fun v => !decide (v.object = w.object ∧ v.index = w.index)).find? fun v =>
      decide (v.object = w.object ∧ v.index = w.index)) = none :=
    List.find?_eq_none.mpr fun _ hv => ne_true_of_eq_false ((Bool.not_eq_true' _).mp (List.mem_filter.mp hv).2)
  refine (List.find?_append ..).trans ?_
  rw [hnone]
  simp

theorem State.objOpen_withWrite_other (s : State) (w : ObjWrite) {p j : Nat} (hother : p ≠ w.object ∨ j ≠ w.index) :
    (s.withWrite w).objOpen p j = s.objOpen p j := by
  refine (List.find?_append ..).trans ?_
  rw [s.objOpen_filter w.object w.index p j _ rfl hother]
  have hnot : ([w].find? fun v => decide (v.object = p ∧ v.index = j)) = none :=
    List.find?_eq_none.mpr fun v hv => by
      cases List.mem_singleton.mp hv
      simp only [decide_eq_true_eq]
      omega
  rw [hnot, Option.or_none]

theorem State.objOpen_dropWrite (s : State) (o i : Nat) : (s.dropWrite o i).objOpen o i = none :=
  List.find?_eq_none.mpr fun _ hv => ne_true_of_eq_false ((Bool.not_eq_true' _).mp (List.mem_filter.mp hv).2)

/-- The gate of an object asks for rights that a message does not change (R464, R503). -/
theorem State.objGate_session (s : State) (o : Nat) (x : Session) (c : Nat) : (s.setSession (x.accept c)).objGate o
    (x.accept c) = s.objGate o x := rfl

theorem chunkOrder_plain {o : Nat} (l : List (Nat × List Byte)) (c : Nat × List Byte) (hA : o ≠ 0x20) (hB : o ≠ 0x21) (hpart : o ≠ 0x33) :
    chunkOrder o l c = true := by
  unfold chunkOrder
  split
  · exact absurd rfl hpart
  · exact absurd rfl hA
  · exact absurd rfl hB
  · rfl

/-- No bytes of a slot or of a partition come with the chunks of another object. -/
theorem fills_plain {o : Nat} (hA : o ≠ 0x20) (hB : o ≠ 0x21) (hpart : o ≠ 0x33) (slotA slotB part u : State) :
    (match (generalizing := false) o with | 0x20 => slotA | 0x21 => slotB | 0x33 => part | _ => u) = u := by
  split
  · exact absurd rfl hA
  · exact absurd rfl hB
  · exact absurd rfl hpart
  · rfl

/-- A first chunk of an object (R503). -/
theorem objWrite_opens {s : State} {r : Brq} {x : Session} (h : InSession s r x) {o i offset : Nat} {data : List Byte} (ecc : Eccs)
    (hgate : s.objGate o x = 0) (hnew : s.objOpen o i = none) (hdata : data ≠ []) (hA : o ≠ 0x20) (hB : o ≠ 0x21) (hpart : o ≠ 0x33) :
    CompletesWith (exec (.objWrite r o i offset ⟨data, ecc⟩) s) fun t => s.done t r x 0x02 [] ∧
      t.objOpen o i = some { session := x.id, object := o, index := i, chunks := [(offset, data)] } ∧
      (∀ p j, (p ≠ o ∨ j ≠ i) → t.objOpen p j = s.objOpen p j) ∧ t.manifest = s.manifest ∧ t.nv = s.nv ∧ s.sameIslands t ∧ s.sameMemory t := by
  let w : ObjWrite := { session := x.id, object := o, index := i, chunks := [(offset, data)] }
  let v := (s.setSession (x.accept r.counter)).withWrite w
  have hexec : exec (.objWrite r o i offset ⟨data, ecc⟩) s = execObjWrite r o i offset ⟨data, ecc⟩ s := rfl
  have hopen : ∀ p j, (v.completed r x 0x02 []).objOpen p j = v.objOpen p j := fun p j =>
    v.completed_frame (·.objOpen p j) (fun _ _ => rfl) (fun _ _ => rfl) r h.going _ _
  rw [hexec, execObjWrite]
  refine h.completes (t := v) rfl ?_ ⟨State.done_completed (t := v) h.going rfl _ _, (hopen o i).trans (State.objOpen_withWrite _ w),
    fun p j hother => (hopen p j).trans (State.objOpen_withWrite_other _ w hother),
    v.completed_frame State.manifest (fun _ _ => rfl) (fun _ _ => rfl) r h.going _ _, State.completed_nv h.going _ _,
    State.frame_completed ⟨⟨rfl, rfl, rfl⟩, rfl, rfl, rfl⟩ h.going _ _⟩
  have hnew' : (s.setSession (x.accept r.counter)).objOpen o i = none := hnew
  have hempty : ¬(data.isEmpty = true ∨ (o = 0x20 ∨ o = 0x21) ∧ 2 ^ 25 < offset + data.length) := by
    simp only [List.isEmpty_iff]
    tauto
  rw [State.objGate_session, hgate, hnew']
  dsimp only
  rw [if_neg (not_not.mpr rfl), if_neg (not_not.mpr rfl), if_neg hempty, chunkOrder_plain _ _ hA hB hpart]
  exact congrArg (fun u : State => (u, 0, [])) (fills_plain hA hB hpart _ _ _ v)

theorem objDiscard_drops {s : State} {r : Brq} {x : Session} (h : InSession s r x) {o i : Nat} {w : ObjWrite} (hknown : objKnown o = true)
    (hright : objWritable o x = true) (hopen : s.objOpen o i = some w) (hmine : w.session = x.id) :
    CompletesWith (exec (.objDiscard r o i) s) fun t => s.done t r x 0x04 [] ∧ t.objOpen o i = none ∧
      s.regsBut t [(aBocBrq, F.bocBrq_accepted)] ∧ t.nv = s.nv ∧ s.sameIslands t ∧ s.sameMemory t := by
  let v := (s.setSession (x.accept r.counter)).dropWrite o i
  have hexec : exec (.objDiscard r o i) s = execObjDiscard r o i s := rfl
  have hregs : s.regsBut v [(aBocBrq, F.bocBrq_accepted)] := fun _ _ _ => rfl
  have hright' : objWritable o (x.accept r.counter) = true := hright
  have hopen' : (s.setSession (x.accept r.counter)).objOpen o i = some w := hopen
  rw [hexec, execObjDiscard]
  refine h.completes (t := v) rfl ?_ ⟨State.done_completed (t := v) h.going rfl _ _,
    (v.completed_frame (·.objOpen o i) (fun _ _ => rfl) (fun _ _ => rfl) r h.going _ _).trans (State.objOpen_dropWrite _ o i),
    hregs.completed h.going List.mem_cons_self _ _, State.completed_nv h.going _ _,
    State.frame_completed ⟨⟨rfl, rfl, rfl⟩, rfl, rfl, rfl⟩ h.going _ _⟩
  rw [hknown, hright', hopen']
  exact if_pos hmine

/-! ### Commits -/

/-- A commit whose signature does not hold (R464): the object is gone, and the refusal is counted. -/
theorem objCommit_unsigned {s : State} {r : Brq} {x : Session} (h : InSession s r x) {o i total : Nat} {w : ObjWrite}
    (hgate : s.objGate o x = 0) (hopen : s.objOpen o i = some w) (hmine : w.session = x.id) (hpos : 0 < total)
    (hreach : total ≤ chunkReach w.chunks) : CompletesWith (exec (.objCommit r o i total .badSignature) s) fun t =>
      t.answered r x 0x03 0x04 [] ∧ t.objOpen o i = none ∧ t.manifest = s.manifest ∧ t.nv = s.nv ∧
        t.getF aSecRefusals F.secRefusals_signature = raised F.secRefusals_signature (s.getF aSecRefusals F.secRefusals_signature) 1 ∧
        s.sameIslands t ∧ s.sameMemory t := by
  let v := (s.setSession (x.accept r.counter)).dropWrite o i
  have hexec : exec (.objCommit r o i total .badSignature) s = execObjCommit r o i total .badSignature s := rfl
  have hrun : execObjCommit r o i total .badSignature s = .next ((v.countAnswer 0x04).respond r x.out (0x03 + 0x8000) 0x04 [] true) := by
    refine congrArg Host.Outcome.next (State.sessionRequest_refused h rfl ?_ (by decide))
    have hopen' : (s.setSession (x.accept r.counter)).objOpen o i = some w := hopen
    rw [State.objGate_session, hgate, hopen']
    have hmine' : w.session = (x.accept r.counter).id := hmine
    dsimp only
    rw [if_neg (not_not.mpr rfl), if_neg (not_not.mpr hmine'), if_neg (by omega)]
    rfl
  have hkept : ∀ {β : Type} (g : State → β), (∀ s l, g { s with boc := { s.boc with sessions := l } } = g s) →
      (∀ s y, g { s with boc := { s.boc with resp := y } } = g s) → (∀ s y, g { s with regs := y } = g s) →
      g ((v.countAnswer 0x04).respond r x.out (0x03 + 0x8000) 0x04 [] true) = g v := fun g hs hr hregs =>
    ((v.countAnswer 0x04).respond_frame g hs hr r h.going _ _ _ _).trans (State.countAnswer_frame g hregs v 0x04)
  refine ⟨_, hexec.trans hrun, State.resp_respond _ r h.going _ _ _ _,
    (hkept (·.objOpen o i) (fun _ _ => rfl) (fun _ _ => rfl) fun _ _ => rfl).trans (State.objOpen_dropWrite _ o i),
    hkept State.manifest (fun _ _ => rfl) (fun _ _ => rfl) fun _ _ => rfl, hkept State.nv (fun _ _ => rfl) (fun _ _ => rfl) fun _ _ => rfl, ?_,
    State.frame_of_places (hkept State.places (fun _ _ => rfl) (fun _ _ => rfl) fun _ _ => rfl)⟩
  refine ((v.countAnswer 0x04).respond_frame (fun t => t.getF aSecRefusals F.secRefusals_signature) (fun _ _ => rfl) (fun _ _ => rfl)
    r h.going _ _ _ _).trans ?_
  have hcount : v.countAnswer 0x04 = (v.bump aBocBrq F.bocBrq_refused 1).bump aSecRefusals F.secRefusals_signature 1 := rfl
  have hsame : v.getF aSecRefusals F.secRefusals_signature = s.getF aSecRefusals F.secRefusals_signature := rfl
  rw [hcount, State.getF_bump_same, State.getF_bump_other _ _ _ _ (by decide), hsame]

theorem length_chunkBytes (l : List (Nat × List Byte)) (n : Nat) : (chunkBytes l n).length = n := by
  rw [chunkBytes, List.length_map, List.length_range]

theorem State.endSessions_frame {β : Type} (g : State → β)
    (hboc : ∀ (s : State) l m, g { s with boc := { s.boc with sessions := l, writes := m } } = g s) (s : State) (l : List (BitVec 64)) :
    g (l.foldl (fun t i => t.endSession i) s) = g s := State.foldl_frame g l (fun t _ => hboc t _ _) s

/-- What a floor request that holds leaves (R465). -/
def State.floored (s : State) (floor : Nat) : State :=
  let u := s.setF aSecCounters F.secCounters_ctr2 floor
  let v := { u with nv := { u.nv with auths := u.nv.auths.filter fun a => decide (floor ≤ a.gen) } }
  ((v.boc.sessions.filter fun x => !x.owner && ((s.nv.auths.filter fun a => decide (a.gen < floor)).map Auth.number).contains x.record).map
    Session.id).foldl (fun t i => t.endSession i) v

theorem State.takeFloor_holds {s : State} {bs : List Byte} (hlength : bs.length = 16 + sigLen) (hversion : byteField bs 0 1 = 1)
    (hfloor : byteField bs 2 3 ≤ 64) (hrises : s.getF aSecCounters F.secCounters_ctr2 ≤ byteField bs 2 3) (hany : byteField bs 4 11 = 0)
    (hzero : zeroBytes bs 12 15 = true) : s.takeFloor bs = (s.floored (byteField bs 2 3), 0) := by
  have hform : ¬(bs.length ≠ 16 + sigLen ∨ byteField bs 0 1 ≠ 1 ∨ 64 < byteField bs 2 3 ∨ (!zeroBytes bs 12 15) = true) := by
    rw [hzero]
    rintro (h | h | h | h)
    · exact h hlength
    · exact h hversion
    · omega
    · cases h
  have hserial : (!serialOk (byteField bs 4 11) true) = false := by rw [hany, serialOk]; simp
  unfold State.takeFloor
  dsimp only
  rw [if_neg hform, if_neg (Nat.not_lt.mpr hrises), hserial]
  rfl

/-- A floor request that holds (R465): its counter rises and the records below it are gone. -/
theorem objCommit_floor {s : State} {r : Brq} {x : Session} (h : InSession s r x) {w : ObjWrite} (howner : x.owner = true)
    (howned : s.owner.isSome = true) (hopen : s.objOpen 0x24 0 = some w) (hmine : w.session = x.id) :
    let total := 16 + sigLen
    let bs := chunkBytes w.chunks total
    let floor := byteField bs 2 3
    total ≤ chunkReach w.chunks → byteField bs 0 1 = 1 → floor ≤ 64 → s.getF aSecCounters F.secCounters_ctr2 ≤ floor →
    byteField bs 4 11 = 0 → zeroBytes bs 12 15 = true →
    CompletesWith (exec (.objCommit r 0x24 0 total .good) s) fun t =>
      s.done t r x 0x03 [] ∧ t.objOpen 0x24 0 = none ∧ t.getF aSecCounters F.secCounters_ctr2 = floor ∧
      t.nv.auths = s.nv.auths.filter (fun a => decide (floor ≤ a.gen)) ∧ s.sameIslands t ∧ s.sameMemory t := by
  intro total bs floor hreach hversion hfloor hrises hany hzero
  let u := (s.setSession (x.accept r.counter)).dropWrite 0x24 0
  let v := u.floored floor
  have hpos : ¬(total = 0 ∨ chunkReach w.chunks < total) := by
    have : 0 < total := by decide
    omega
  have htake : u.takeFloor bs = (v, 0) := State.takeFloor_holds (length_chunkBytes _ _) hversion hfloor hrises hany hzero
  have hv : ∀ {β : Type} (g : State → β), (∀ (s : State) l m, g { s with boc := { s.boc with sessions := l, writes := m } } = g s) →
      g v = g ({ u.setF aSecCounters F.secCounters_ctr2 floor with
        nv := { u.nv with auths := u.nv.auths.filter fun a => decide (floor ≤ a.gen) } }) := fun g hboc => State.endSessions_frame g hboc _ _
  have hdropped : v.objOpen 0x24 0 = none := by
    refine List.foldlRecOn (motive := fun t : State => t.objOpen 0x24 0 = none) _ _ (State.objOpen_dropWrite _ 0x24 0) fun t ht i _ => ?_
    refine List.find?_eq_none.mpr fun y hy => ?_
    exact List.find?_eq_none.mp ht y (List.mem_of_mem_filter hy)
  have hexec : exec (.objCommit r 0x24 0 total .good) s = execObjCommit r 0x24 0 total .good s := rfl
  have hfieldv := hv (fun t => t.getF aSecCounters F.secCounters_ctr2) fun _ _ _ => rfl
  have hcountv := hv (fun t => t.getF aBocBrq F.bocBrq_accepted) fun _ _ _ => rfl
  have hauthsv := hv (·.nv.auths) fun _ _ _ => rfl
  have hplacesv := hv State.places fun _ _ _ => rfl
  have hu : u.nv = s.nv ∧ u.places = s.places ∧ ∀ b g, u.getF b g = s.getF b g := ⟨rfl, rfl, fun _ _ => rfl⟩
  have hgate : s.objGate 0x24 x = 0 := by
    have hwritable : objWritable 0x24 x = true := howner
    rw [State.objGate, hwritable, h.normal]
    rfl
  have hopen' : (s.setSession (x.accept r.counter)).objOpen 0x24 0 = some w := hopen
  have howned' : (ownerSigned 0x24 && u.owner.isNone) = false := by
    have hsame : u.owner = s.owner := rfl
    rw [hsame, Option.isNone_eq_false_iff.mpr howned]
    rfl
  have hmine' : w.session = (x.accept r.counter).id := hmine
  rw [hexec, execObjCommit]
  refine h.completes (t := v) rfl ?_ ⟨State.done_completed (t := v) h.going (hcountv.trans ?_) _ _,
    (v.completed_frame (·.objOpen 0x24 0) (fun _ _ => rfl) (fun _ _ => rfl) r h.going _ _).trans hdropped,
    (v.getF_completed h.going _ _ (by decide)).trans (hfieldv.trans ?_),
    (congrArg NonVol.auths (State.completed_nv h.going _ _)).trans hauthsv, State.frame_completed
    (State.frame_of_places hplacesv) h.going _ _⟩
  · rw [State.objGate_session, hgate, hopen']
    dsimp only
    rw [if_neg (not_not.mpr rfl), if_neg (not_not.mpr hmine'), if_neg hpos]
    have hgood : ¬verdictStatus .good ≠ 0 := not_not.mpr rfl
    rw [if_neg hgood]
    change (if (ownerSigned 0x24 && u.owner.isNone) = true then refuse u 4
      else if (u.takeFloor bs).2 = 0 then ((u.takeFloor bs).1, 0, []) else refuse u (u.takeFloor bs).2) = _
    rw [howned', if_neg Bool.false_ne_true, htake]
    rfl
  · exact State.getF_setF_apart u _ _ _ (by decide) (by decide) (by decide)
  · exact (State.getF_setF_same u _ _ _).trans (Nat.mod_eq_of_lt (Nat.lt_of_le_of_lt hfloor (by decide)))

/-! ### Checkpoint blocks -/

/-- A span cut at the lines (R243): the pieces hold its bytes, and none crosses a line. -/
theorem cutLines_spans (k a n : Nat) (h : n + a % 64 ≤ 64 * k) :
    ((cutLines k a n).map Prod.snd).sum = n ∧ ∀ p ∈ cutLines k a n, p.1 % 64 + p.2 ≤ 64 := by
  induction k generalizing a n with
  | zero => exact ⟨by simp [cutLines]; omega, fun p hp => absurd hp List.not_mem_nil⟩
  | succ k ih =>
    cases n with
    | zero => exact ⟨rfl, fun p hp => absurd hp List.not_mem_nil⟩
    | succ n =>
      have hrest : n + 1 - min (n + 1) (64 - a % 64) + (a + min (n + 1) (64 - a % 64)) % 64 ≤ 64 * k ∨ n + 1 - min (n + 1) (64 - a % 64) = 0 := by omega
      have htail : ((cutLines k (a + min (n + 1) (64 - a % 64)) (n + 1 - min (n + 1) (64 - a % 64))).map Prod.snd).sum =
            n + 1 - min (n + 1) (64 - a % 64) ∧
          ∀ p ∈ cutLines k (a + min (n + 1) (64 - a % 64)) (n + 1 - min (n + 1) (64 - a % 64)), p.1 % 64 + p.2 ≤ 64 := by
        rcases hrest with hrest | hrest
        · exact ih _ _ hrest
        · rw [hrest]
          cases k <;> exact ⟨rfl, fun p hp => absurd hp List.not_mem_nil⟩
      have hstep : cutLines (k + 1) a (n + 1) = (a, min (n + 1) (64 - a % 64)) ::
          cutLines k (a + min (n + 1) (64 - a % 64)) (n + 1 - min (n + 1) (64 - a % 64)) := rfl
      refine ⟨?_, fun p hp => ?_⟩
      · rw [hstep, List.map_cons, List.sum_cons, htail.1]
        omega
      · rw [hstep] at hp
        rcases List.mem_cons.mp hp with rfl | hp
        · dsimp only
          omega
        · exact htail.2 p hp

theorem State.length_plainBytes (s : State) (a n : Nat) : (s.plainBytes a n).length = n := by
  obtain ⟨hsum, hfits⟩ := cutLines_spans (n / 64 + 2) a n (by omega)
  rw [State.plainBytes, List.length_flatMap]
  refine Eq.trans (congrArg List.sum (List.map_congr_left fun p hp => ?_)) hsum
  have := hfits p hp
  split
  · rw [List.length_take, List.length_drop, length_bytesOfNat]
    omega
  · rw [State.readBytes, List.length_map, List.length_range]

/-- A block of a checkpoint (R466): its header, the bytes and the tag. -/
theorem ckptRead_blocks {s : State} {r : Brq} {x : Session} (h : InSession s r x) {addr length : Nat} (hmay : x.may 5 = true)
    (hkeys : s.getF aSecState F.secState_keys ≠ 0) (hrange : s.ckptRange addr length = true) (hdead : s.anyLive addr length = false)
    (hgood : s.anyBad addr length = false) : CompletesWith (exec (.ckptRead r addr length) s) fun t =>
      s.done t r x 0x60 (bytesOfNat 4 (80 + length)) ∧ t.boc.ckpt.length = 80 + length ∧ t.boc.blocks = s.boc.blocks + 1 ∧
        s.sameIslands t ∧ s.sameMemory t := by
  let u := s.setSession (x.accept r.counter)
  let hdr := bytesOfNat 2 1 ++ bytesOfNat 2 u.self ++ bytesOfNat 8 u.committed ++ bytesOfNat 6 addr ++ bytesOfNat 4 length ++
    bytesOfNat 4 u.boc.blocks ++ bytesOfNat 38 0
  let ct := u.ckptCrypt (ckptIv u.committed u.self u.boc.blocks) (u.plainBytes addr length)
  let b := hdr ++ ct ++ bytesOfNat 16 (Config.ckptTag (Config.jobSecret u.tier.key) (hdr ++ ct)).toNat
  let v : State := { u with boc := { u.boc with ckpt := b, blocks := u.boc.blocks + 1 } }
  have hlength : b.length = 80 + length := by
    have hct : ct.length = length := by
      rw [show ct = u.ckptCrypt (ckptIv u.committed u.self u.boc.blocks) (u.plainBytes addr length) from rfl, State.ckptCrypt, List.length_map,
        List.length_zipIdx, State.length_plainBytes]
    have hhdr : hdr.length = 64 := by
      simp only [hdr, List.length_append, length_bytesOfNat]
    rw [show b = hdr ++ ct ++ bytesOfNat 16 (Config.ckptTag (Config.jobSecret u.tier.key) (hdr ++ ct)).toNat from rfl]
    rw [List.length_append, List.length_append, hct, hhdr, length_bytesOfNat]
    omega
  have hact : (if (!u.flag aSecState F.secState_keys) = true then refuse u 0x08
      else if (!u.ckptRange addr length) = true then refuse u 0x03
      else if u.anyLive addr length = true then refuse u 0x0B
      else if u.anyBad addr length = true then refuse u 0x07
      else (v, 0, bytesOfNat 4 b.length)) = (v, 0, bytesOfNat 4 b.length) := by
    have hflag : (!u.flag aSecState F.secState_keys) = false := by
      have hsame : u.getF aSecState F.secState_keys = s.getF aSecState F.secState_keys := rfl
      rw [State.flag, hsame]
      simp [hkeys]
    have hrange' : (!u.ckptRange addr length) = false := by
      have hsame : u.ckptRange addr length = s.ckptRange addr length := rfl
      rw [hsame, hrange]
      rfl
    have hdead' : u.anyLive addr length = false := hdead
    have hgood' : u.anyBad addr length = false := hgood
    rw [hflag, hrange', hdead', hgood']
    rfl
  have hexec : exec (.ckptRead r addr length) s = execCkptRead r addr length s := rfl
  have hcount : v.getF aBocBrq F.bocBrq_accepted = s.getF aBocBrq F.bocBrq_accepted := rfl
  have hplaces : v.places = s.places := rfl
  have hblocks : v.boc.blocks = s.boc.blocks + 1 := rfl
  have hckpt : v.boc.ckpt = b := rfl
  rw [hexec, execCkptRead, ← hlength]
  refine h.completes (t := v) hmay hact ?_
  clear_value b v
  exact ⟨State.done_completed (t := v) h.going hcount _ _,
    (congrArg List.length ((v.completed_frame (·.boc.ckpt) (fun _ _ => rfl) (fun _ _ => rfl) r h.going _ _).trans hckpt)),
    (v.completed_frame (·.boc.blocks) (fun _ _ => rfl) (fun _ _ => rfl) r h.going _ _).trans hblocks,
    State.frame_completed (State.frame_of_places hplaces) h.going _ _⟩

/-- Settles O50. -/
theorem objectRequests : Obligations.ObjectRequests := by
  refine fun s r => ⟨fun hlive hcls => ⟨fun offset length hpos hfits => objRead_health hlive hcls hpos hfits, makeReport_made hlive hcls⟩,
    fun x h => ⟨fun offset length hmay hpos hsmall hfits => objRead_manifest h hmay hpos hsmall hfits,
      fun o i offset data ecc hgate hnew hdata hA hB hpart => objWrite_opens h ecc hgate hnew hdata hA hB hpart,
      fun o i w hknown hright hopen hmine => objDiscard_drops h hknown hright hopen hmine,
      fun o i total w hgate hopen hmine hpos hreach => objCommit_unsigned h hgate hopen hmine hpos hreach,
      fun w howner howned hopen hmine => objCommit_floor h howner howned hopen hmine,
      fun addr length hmay hkeys hrange hdead hgood => ckptRead_blocks h hmay hkeys hrange hdead hgood⟩⟩

end Sys2Proof.Machine
end

section
/-! Reports, commits, discards and sweeps (R404 to R408, R414 to R418). -/

namespace Sys2Proof.Machine

/-! ### What the lead decides -/

/-- A report without causes is held (R414). -/
theorem stepReport_held {s : State} {msg : Msg} (hlead : (s.takeMsg msg).isLead = true) (hnew :
    (s.takeMsg msg).rcv.decided < msgBits msg 24 48)
    (hruns : (s.takeMsg msg).rcv.restart = false) (hclean : msgBits msg 72 8 = 0) : CompletesWith (exec (.stepReport msg) s) fun t =>
      ({ member := msgBits msg 8 14, step := msgBits msg 24 48, causes := 0 } : Report) ∈ t.rcv.reports ∧ t.regs = s.regs ∧
        s.sameIslands t ∧ s.sameMemory t := by
  have hexec : exec (.stepReport msg) s = execStepReport msg s := rfl
  have hregs := State.regs_takeMsg s msg
  have hframe := State.places_of_frame (s.takeMsg_frame msg)
  have hgo : ¬((!(s.takeMsg msg).isLead) = true ∨ msgBits msg 24 48 ≤ (s.takeMsg msg).rcv.decided ∨ (s.takeMsg msg).rcv.restart = true) := by
    rw [hlead, hruns]
    simp
    omega
  rw [hexec, execStepReport, hclean]
  generalize s.takeMsg msg = s0 at *
  dsimp only
  rw [if_neg hgo]
  refine ⟨_, rfl, List.mem_append_right _ List.mem_cons_self, hregs, State.frame_of_places hframe⟩

/-- The lead decides the step before the one under way when every worker has reported (R414). -/
theorem execCommitDecision_decides {s : State} (hlead : s.isLead = true) (hjob : s.brt.job = true) (hrunning : s.brt.running = true)
    (hlive : s.brt.aborted = false) (hruns : s.rcv.restart = false) (hfirst : s.brt.stepFirst = true)
    (hstep : s.brt.step = s.rcv.decided + 2)
    (hall : ∀ p ∈ s.workers, ∃ r ∈ s.rcv.reports, r.step = s.rcv.decided + 1 ∧ r.member = p) :
    ((∀ r ∈ s.rcv.reports, r.step = s.rcv.decided + 1 → r.causes = 0) →
      exec .commitDecision s = .next (s.commitStep (s.rcv.decided + 1))) ∧
    ((∃ r ∈ s.rcv.reports, r.step = s.rcv.decided + 1 ∧ r.causes ≠ 0) → s.rcv.replay = none →
      exec .commitDecision s = .next (s.awaitDecision (s.rcv.decided + 1))) := by
  have hdecides : (s.isLead && s.brt.job && s.brt.running && !s.brt.aborted && !s.rcv.restart && s.brt.stepFirst &&
      decide (s.brt.step = s.rcv.decided + 1 + 1)) = true := by
    rw [hlead, hjob, hrunning, hlive, hruns, hfirst, hstep]
    simp
  have hreported : (s.workers.all fun p => (s.rcv.reports.filter fun r => decide (r.step = s.rcv.decided + 1)).any fun r =>
      decide (r.member = p)) = true := by
    refine List.all_eq_true.mpr fun p hp => List.any_eq_true.mpr ?_
    obtain ⟨r, hr, hat, hwho⟩ := hall p hp
    exact ⟨r, List.mem_filter.mpr ⟨hr, decide_eq_true hat⟩, decide_eq_true hwho⟩
  have hexec : exec .commitDecision s = execCommitDecision s := rfl
  rw [hexec]
  refine ⟨fun hclean => ?_, fun hcaused hnone => ?_⟩
  · have hall : ((s.rcv.reports.filter fun r => decide (r.step = s.rcv.decided + 1)).all fun r => decide (r.causes = 0)) = true :=
      List.all_eq_true.mpr fun r hr => decide_eq_true (hclean r (List.mem_of_mem_filter hr) (of_decide_eq_true (List.mem_filter.mp hr).2))
    simp only [execCommitDecision, hdecides, if_true, hreported, Bool.not_true, Bool.false_eq_true, if_false, hall]
  · have hsome : ((s.rcv.reports.filter fun r => decide (r.step = s.rcv.decided + 1)).all fun r => decide (r.causes = 0)) = false := by
      obtain ⟨r, hr, hat, hcause⟩ := hcaused
      exact List.all_eq_false.mpr ⟨r, List.mem_filter.mpr ⟨hr, decide_eq_true hat⟩, by simpa using hcause⟩
    simp only [execCommitDecision, hdecides, if_true, hreported, Bool.not_true, Bool.false_eq_true, if_false, hsome, hnone]

theorem State.commitStep_effects (s : State) (n : Nat) : (s.commitStep n).rcv.decided = n ∧ s.msgOf 0x22 [(24, n)] ∈
    (s.commitStep n).ctl.loop ∧
    (s.commitStep n).regs = s.regs ∧ (s.commitStep n).places = s.places :=
  ⟨State.sendAll_ctl (·.rcv.decided) (fun _ _ => rfl) _ _, State.mem_loop_sendAll _ _, State.regs_sendAll _ _,
    State.sendAll_ctl State.places (fun _ _ => rfl) _ _⟩

theorem State.awaitDecision_effects (s : State) (n : Nat) : (s.awaitDecision n).rcv = { s.rcv with waits := some n } ∧
    (s.awaitDecision n).places = s.places := by
  unfold State.awaitDecision
  split
  case isTrue h =>
    refine ⟨?_, rfl⟩
    rw [← h]
  case isFalse =>
    exact ⟨State.event_frame State.rcv (fun _ _ => rfl) (fun _ _ => rfl) _ _ _ _ _ _, State.places_event _ _ _ _ _ _⟩

/-- The end of a sweep is noted by the lead (R408). -/
theorem sweepDone_noted {s : State} {msg : Msg} (hlead : (s.takeMsg msg).isLead = true)
    (hnew : (msgBits msg 8 14, msgBits msg 26 46) ∉ (s.takeMsg msg).rcv.swept) : CompletesWith (exec (.sweepDone msg) s) fun t =>
      t.rcv.swept = (s.takeMsg msg).rcv.swept ++ [(msgBits msg 8 14, msgBits msg 26 46)] ∧ t.regs = s.regs ∧ s.sameIslands t ∧ s.sameMemory t := by
  have hexec : exec (.sweepDone msg) s = execSweepDone msg s := rfl
  have hregs := State.regs_takeMsg s msg
  have hframe := State.places_of_frame (s.takeMsg_frame msg)
  have hgo : (s.takeMsg msg).isLead = true ∧ (!(s.takeMsg msg).rcv.swept.contains (msgBits msg 8 14, msgBits msg 26 46)) = true :=
    ⟨hlead, by simpa using hnew⟩
  rw [hexec, execSweepDone]
  generalize s.takeMsg msg = s0 at *
  dsimp only
  rw [if_pos hgo]
  exact ⟨_, rfl, rfl, hregs, State.frame_of_places hframe⟩

/-! ### A commit at the member -/

theorem State.quitReplay_none {s : State} (h : s.rcv.shadow = none) (which : Nat → Bool) : s.quitReplay which = s := by
  rw [State.quitReplay, h]

theorem State.takeCommit_none {s : State} (h : s.rcv.toCommit = none) : s.takeCommit = s := by rw [State.takeCommit, h]

/-- A commit waits for the boundary (R407). -/
theorem commit_waits {s : State} {msg : Msg} (hnew : (s.takeMsg msg).committed < msgBits msg 24 48) (hshadow :
    (s.takeMsg msg).rcv.shadow = none)
    (hbound : (s.takeMsg msg).atBoundary = false) : CompletesWith (exec (.commit msg) s) fun t =>
      t.rcv.toCommit = some (msgBits msg 24 48) ∧ t.committed = s.committed ∧ t.regs = s.regs ∧ s.sameIslands t ∧ s.sameMemory t := by
  have hexec : exec (.commit msg) s = execCommit msg s := rfl
  have hregs := State.regs_takeMsg s msg
  have hcommitted : (s.takeMsg msg).committed = s.committed := State.getF_takeMsg s msg _ _
  have hframe := State.places_of_frame (s.takeMsg_frame msg)
  rw [hexec, execCommit]
  generalize s.takeMsg msg = s0 at *
  dsimp only
  rw [if_neg (Nat.not_le.mpr hnew), State.quitReplay_none hshadow]
  refine ⟨_, congrArg Host.Outcome.next (if_neg ?_), rfl, hcommitted, hregs, State.frame_of_places hframe⟩
  exact ne_true_of_eq_false hbound

/-! ### Tags of a step -/

/-- A register that the captures do not hold: they lie at the top of the fault block (R404). -/
theorem State.getF_clearCaptures (s : State) (which : Nat → Bool) {b : Nat} {g : Fld} (hb : inCapture b = false) (hg : g.lo < 64) :
    (s.clearCaptures which).getF b g = s.getF b g := by
  refine s.getF_filterRegs (fun k => !(inCapture (k / 64) && which (s.captureStep (k / 64)))) ?_
  rw [fkey_div hg, hb]
  rfl

theorem tagOf_range (n : Nat) : 1 ≤ tagOf n ∧ tagOf n ≤ 3 := by
  unfold tagOf
  omega

theorem tagOf_succ_ne (n : Nat) : tagOf (n + 1) ≠ tagOf n := by
  unfold tagOf
  omega

/-- The registers of the tags, apart from each other and from the fault block's others (R408). -/
theorem inCapture_tag {k : Nat} (hk : k ≤ 3) : inCapture (aFltTag k) = false := by
  refine decide_eq_false fun h => ?_
  simp only [aFltTag] at h
  omega

theorem aFltTag_inj {j k : Nat} (h : aFltTag j = aFltTag k) : j = k := by
  simp only [aFltTag] at h
  omega

theorem ofNat_tag_ne_zero {k : Nat} (hlow : 1 ≤ k) (hhigh : k ≤ 3) : BitVec.ofNat 2 k ≠ 0 := by
  intro h
  have := congrArg BitVec.toNat h
  rw [BitVec.toNat_ofNat, Nat.mod_eq_of_lt (by omega)] at this
  exact absurd this (by simp; omega)

/-- The end of a sweep frees the tag when no region is marked any more (R408). -/
theorem State.sweepEnd_effects (s : State) {t : Nat} (hstate : s.tagState t = 2) :
    (s.sweepEnd t).tagState t = (if (s.markedRegions t).isEmpty then 0 else 2) ∧
      (∀ (b : Nat) (g : Fld), b ≠ aFltTag t → g.lo < 64 → (s.sweepEnd t).getF b g = s.getF b g) := by
  have hshown : (s.showRegions t).tagState t = 2 := (State.getF_setF_beside s _ _ _ _ (by decide)).trans hstate
  have hsame : (s.showRegions t).markedRegions t = s.markedRegions t := rfl
  have hother : ∀ (b : Nat) (g : Fld), b ≠ aFltTag t → g.lo < 64 → (s.showRegions t).getF b g = s.getF b g := fun b g hb hg =>
    State.getF_setF_apart s _ _ _ hb (by decide) hg
  unfold State.sweepEnd
  extract_lets u
  have hu : u = s.showRegions t := rfl
  clear_value u
  subst hu
  rw [hsame]
  by_cases hempty : (s.markedRegions t).isEmpty = true
  · rw [if_pos ⟨hshown, hempty⟩, if_pos hempty]
    refine ⟨?_, fun b g hb hg => ?_⟩
    · exact (State.getF_sendTo ..).trans (State.getF_setF_same ..)
    · exact (State.getF_sendTo ..).trans ((State.getF_setF_apart _ _ _ _ hb (by decide) hg).trans (hother b g hb hg))
  · rw [if_neg fun h => hempty h.2, if_neg hempty]
    exact ⟨hshown, hother⟩

theorem State.sweepEnd_frame {β : Type} (g : State → β) (hregs : ∀ s x, g { s with regs := x } = g s) (hctl : ∀ s x, g
    { s with ctl := x } = g s)
    (s : State) (t : Nat) : g (s.sweepEnd t) = g s := by
  unfold State.sweepEnd
  extract_lets u
  have hu : g u = g s := hregs s _
  split
  · exact (State.unicast_ctl g hctl _ _).trans ((hregs u _).trans hu)
  · exact hu

theorem State.tagAt_clearTileTag (s : State) {t : BitVec 2} (ht : t ≠ 0) {a : Nat} (ha : lpEnd ≤ a) : (s.clearTileTag t).tagAt a ≠ t := by
  intro h
  have hget : Tbl.get 0 (s.clearTileTag t).tags (a / 64) = t := h
  have hmem := Tbl.mem_of_get (d := (0 : BitVec 2)) (t := (s.clearTileTag t).tags) (k := a / 64) (by rw [hget]; exact ht)
  rw [hget] at hmem
  have hkept := (List.mem_filter.mp hmem).2
  have hline : lpEnd / 64 ≤ a / 64 := Nat.div_le_div_right ha
  simp [hline] at hkept

/-- The commit taken at the boundary (R407): its step is the committed one, and its tag is released. -/
theorem State.applyCommit_effects (s : State) {n : Nat} (hn : n < 2 ^ 48) : (s.applyCommit n).committed = n ∧
    (s.applyCommit n).mem = s.mem ∧
    (s.applyCommit n).rcv = s.rcv ∧
    (s.tagState (tagOf n) = 1 → s.tagStep (tagOf n) = n →
      ((s.applyCommit n).tagState (tagOf n) = 2 ∨ (s.applyCommit n).tagState (tagOf n) = 0) ∧
        ∀ a, lpEnd ≤ a → (s.applyCommit n).tagAt a ≠ BitVec.ofNat 2 (tagOf n)) := by
  obtain ⟨hlow, hhigh⟩ := tagOf_range n
  unfold State.applyCommit
  extract_lets t s1 begun s2 s3 s4
  have hregs4 : ∀ (b : Nat) (g : Fld), inCapture b = false → b ≠ aFltSusp → g.lo < 64 → s4.getF b g = s2.getF b g := fun b g hb hsusp hg => by
    refine (s3.getF_clearCaptures _ hb hg).trans ?_
    unfold s3
    split
    · exact State.getF_setF_apart s2 _ _ _ hsusp (by decide) hg
    · exact State.getF_setFs_elsewhere s2 hsusp rfl hg
  have hframe4 : ∀ {β : Type} (g : State → β), (∀ s x, g { s with regs := x } = g s) → g s4 = g s := fun g hregs => by
    have h2 : g s2 = g s := (hregs s1 _).trans (hregs s _)
    refine (hregs s3 _).trans ?_
    unfold s3
    split
    · exact (hregs s2 _).trans h2
    · exact (State.setFs_frame g hregs s2 _ _).trans h2
  have hcommitted : s2.committed = n := (State.getF_setF_beside s1 _ _ _ _ (by decide)).trans
    ((State.getF_setF_same s _ _ _).trans (Nat.mod_eq_of_lt hn))
  have hstep : s4.committed = n := (hregs4 _ _ (by decide) (by decide) (by decide)).trans hcommitted
  have htag : ∀ g : Fld, g.lo < 64 → s4.getF (aFltTag t) g = s.getF (aFltTag t) g := fun g hg => by
    have hne : aFltTag t ≠ aFltStep ∧ aFltTag t ≠ aFltSusp := by
      simp only [aFltTag, aFltStep, aFltSusp, t]
      omega
    exact (hregs4 _ _ (inCapture_tag hhigh) hne.2 hg).trans ((State.getF_setF_apart s1 _ _ _ hne.1 (by decide) hg).trans
      (State.getF_setF_apart s _ _ _ hne.1 (by decide) hg))
  have hmem4 : s4.mem = s.mem ∧ s4.rcv = s.rcv := ⟨hframe4 State.mem fun _ _ => rfl, hframe4 State.rcv fun _ _ => rfl⟩
  have hstate4 := htag F.fltTag_state (by decide)
  have hstep4 := htag F.fltTag_step (by decide)
  clear_value s4
  split
  case isTrue hmarked =>
    let w := s4.setF (aFltTag t) F.fltTag_state 2
    let v := w.clearTileTag (BitVec.ofNat 2 t)
    have hvw : ∀ b g, v.getF b g = w.getF b g := fun _ _ => rfl
    have hkept : ∀ {β : Type} (g : State → β), (∀ s x, g { s with regs := x } = g s) → (∀ s x, g { s with ctl := x } = g s) →
        g (v.sweepEnd t) = g v := fun g hregs hctl => State.sweepEnd_frame g hregs hctl v t
    have hv : v.tagState t = 2 := (hvw _ _).trans (State.getF_setF_same s4 _ _ _)
    obtain ⟨hfree, hother⟩ := v.sweepEnd_effects hv
    have hne : aFltStep ≠ aFltTag t := by
      simp only [aFltTag, aFltStep, t]
      omega
    refine ⟨?_, (hkept State.mem (fun _ _ => rfl) fun _ _ => rfl).trans hmem4.1, (hkept State.rcv (fun _ _ => rfl) fun _ _ => rfl).trans hmem4.2,
      fun _ _ => ⟨?_, fun a ha => ?_⟩⟩
    · exact (hother _ _ hne (by decide)).trans ((hvw _ _).trans ((State.getF_setF_apart s4 _ _ _ hne (by decide) (by decide)).trans hstep))
    · rw [hfree]
      split
      · exact .inr rfl
      · exact .inl rfl
    · rw [hkept (·.tagAt a) (fun _ _ => rfl) fun _ _ => rfl]
      exact State.tagAt_clearTileTag _ (ofNat_tag_ne_zero hlow hhigh) ha
  case isFalse hmarked =>
    exact ⟨hstep, hmem4.1, hmem4.2, fun hstate hof => absurd ⟨hstate4.trans hstate, hstep4.trans hof⟩ hmarked⟩

/-- A commit at the boundary (R407). -/
theorem commit_now {s : State} {msg : Msg} (hnew : (s.takeMsg msg).committed < msgBits msg 24 48) (hshadow :
    (s.takeMsg msg).rcv.shadow = none)
    (hbound : (s.takeMsg msg).atBoundary = true) : CompletesWith (exec (.commit msg) s) fun t =>
      t.rcv.toCommit = none ∧ t.committed = msgBits msg 24 48 ∧ t.mem = s.mem ∧
        (s.tagState (tagOf (msgBits msg 24 48)) = 1 → s.tagStep (tagOf (msgBits msg 24 48)) = msgBits msg 24 48 →
          (t.tagState (tagOf (msgBits msg 24 48)) = 2 ∨ t.tagState (tagOf (msgBits msg 24 48)) = 0) ∧
            ∀ a, lpEnd ≤ a → t.tagAt a ≠ BitVec.ofNat 2 (tagOf (msgBits msg 24 48))) := by
  have hexec : exec (.commit msg) s = execCommit msg s := rfl
  have hmem : (s.takeMsg msg).mem = s.mem := (s.takeMsg_frame msg).2.1
  have hregs : ∀ b g, (s.takeMsg msg).getF b g = s.getF b g := State.getF_takeMsg s msg
  have hn := msgBits_lt msg 24 48
  rw [hexec, execCommit]
  generalize s.takeMsg msg = s0 at *
  generalize msgBits msg 24 48 = n at *
  dsimp only
  rw [if_neg (Nat.not_le.mpr hnew), State.quitReplay_none hshadow]
  let u : State := { s0 with rcv := { s0.rcv with decided := max s0.rcv.decided n, toCommit := none } }
  obtain ⟨hcommitted, hmem', hrcv, htag⟩ := u.applyCommit_effects hn
  have hu : ∀ b g, u.getF b g = s0.getF b g := fun _ _ => rfl
  have humem : u.mem = s0.mem := rfl
  have hutake : u.rcv.toCommit = none := rfl
  refine ⟨_, congrArg Host.Outcome.next (if_pos hbound), (congrArg Recov.toCommit hrcv).trans hutake, hcommitted, hmem'.trans (humem.trans hmem),
    fun hstate hof => htag ?_ ?_⟩
  · exact ((hu _ _).trans (hregs _ _)).trans hstate
  · exact ((hu _ _).trans (hregs _ _)).trans hof

/-! ### Discards and aborts -/

theorem settled_tag {k : Nat} (hk : k ≤ 3) : settled (aFltTag k) := by
  refine ⟨?_, ?_, calm_iff.mpr ⟨?_, ?_, ?_⟩, ?_, fun j hj => ?_⟩ <;>
    simp only [aFltTag, fltBase, secBase, aFltRing, aFltLedger, aFltEvent, aFltSubstDir, aFltHealth] <;> omega

/-- With requests open a recovery waits, and so does a withdrawal (R415, R446). -/
theorem State.tryDrain_open {s : State} (hopen : s.getF aGmuTrack F.gmuTrack_open ≠ 0) : s.tryDrain = s := by
  have hshut : decide (s.getF aGmuTrack F.gmuTrack_open = 0) = false := decide_eq_false hopen
  unfold State.tryDrain
  rw [if_neg fun h => hopen h.2]
  unfold State.tryWithdraw
  rw [hshut, Bool.and_false, Bool.false_and]
  rfl

/-- The package frozen (R415): the recovery begins and the breath is aborted. -/
def State.frozenBy (s : State) (cause : Nat) : State :=
  { s.setF aFltState F.fltState_recovery 1 with brt := { s.brt with aborted := true }, rcv := { s.rcv with cause := cause, report := none } }

theorem State.freeze_eq {s : State} (h : s.rcv.toCommit = none) (cause : Nat) : s.freeze cause = s.frozenBy cause := by
  rw [State.freeze, State.takeCommit_none h]
  rfl

theorem State.getF_frozenBy (s : State) (cause : Nat) {b : Nat} {g : Fld} (hb : b ≠ aFltState) (hg : g.lo < 64) :
    (s.frozenBy cause).getF b g = s.getF b g := by
  have hkept : ∀ (t : State) x y, State.getF { t with brt := x, rcv := y } b g = t.getF b g := fun _ _ _ => rfl
  exact (hkept _ _ _).trans (State.getF_setF_apart s _ _ _ hb (by decide) hg)

theorem State.recovery_frozenBy (s : State) (cause : Nat) : (s.frozenBy cause).getF aFltState F.fltState_recovery = 1 := by
  have hkept : ∀ (t : State) x y, State.getF { t with brt := x, rcv := y } aFltState F.fltState_recovery = t.getF aFltState F.fltState_recovery :=
    fun _ _ _ => rfl
  exact (hkept _ _ _).trans (State.getF_setF_same s _ _ _)

theorem State.discardTag_effects (s : State) (k : Nat) :
    (s.tagState (tagOf k) = 1 → s.tagStep (tagOf k) = k → (s.discardTag k).tagState (tagOf k) = 3) ∧
      (∀ (b : Nat) (g : Fld), b ≠ aFltTag (tagOf k) → g.lo < 64 → (s.discardTag k).getF b g = s.getF b g) ∧
      ∀ {β : Type} (g : State → β), (∀ s x, g { s with regs := x } = g s) → g (s.discardTag k) = g s := by
  unfold State.discardTag
  extract_lets t
  split
  case isTrue h =>
    exact ⟨fun _ _ => State.getF_setF_same s _ _ _, fun b g hb hg => State.getF_setF_apart s _ _ _ hb (by decide) hg, fun g hregs => hregs s _⟩
  case isFalse h => exact ⟨fun hstate hof => absurd ⟨hstate, hof⟩ h, fun _ _ _ _ => rfl, fun _ _ => rfl⟩

/-- A discard freezes the package and marks what the two steps wrote (R416). -/
theorem discard_freezes {s : State} {msg : Msg} (htake : (s.takeMsg msg).rcv.toCommit = none) (hshadow : (s.takeMsg msg).rcv.shadow = none)
    (hopen : (s.takeMsg msg).getF aGmuTrack F.gmuTrack_open ≠ 0) : CompletesWith (exec (.discard msg) s) fun t =>
      t.brt.aborted = true ∧ t.getF aFltState F.fltState_recovery = 1 ∧
        (∀ k ∈ [msgBits msg 24 48, msgBits msg 24 48 + 1], s.tagState (tagOf k) = 1 → s.tagStep (tagOf k) = k → t.tagState (tagOf k) = 3) ∧
        s.sameIslands t ∧ s.sameMemory t := by
  have hexec : exec (.discard msg) s = execDiscard msg s := rfl
  have hplaces := State.places_of_frame (s.takeMsg_frame msg)
  have hregs : ∀ b g, (s.takeMsg msg).getF b g = s.getF b g := State.getF_takeMsg s msg
  rw [hexec, execDiscard]
  generalize s.takeMsg msg = s0 at *
  generalize msgBits msg 24 48 = n at *
  rw [State.quitReplay_none hshadow, State.freeze_eq htake]
  let u := s0.frozenBy 0
  obtain ⟨hfirst, hother1, hframe1⟩ := u.discardTag_effects n
  obtain ⟨hsecond, hother2, hframe2⟩ := (u.discardTag n).discardTag_effects (n + 1)
  let v := (u.discardTag n).discardTag (n + 1)
  have htag : ∀ k, aFltTag (tagOf k) ≠ aFltState ∧ aGmuTrack ≠ aFltTag (tagOf k) := fun k => by
    have hk := tagOf_range k
    refine ⟨?_, ((settled_tag hk.2).early (by decide)).symm⟩
    simp only [aFltTag, aFltState]
    omega
  have hu : ∀ k g, g.lo < 64 → u.getF (aFltTag (tagOf k)) g = s.getF (aFltTag (tagOf k)) g := fun k g hg =>
    (s0.getF_frozenBy 0 (htag k).1 hg).trans (hregs _ _)
  have hapart : aFltTag (tagOf n) ≠ aFltTag (tagOf (n + 1)) := fun h => tagOf_succ_ne n (aFltTag_inj h.symm)
  have hvopen : v.getF aGmuTrack F.gmuTrack_open ≠ 0 := by
    rw [hother2 _ _ (htag _).2 (by decide), hother1 _ _ (htag _).2 (by decide), s0.getF_frozenBy 0 (by decide) (by decide)]
    exact hopen
  have hv : ∀ {β : Type} (g : State → β), (∀ s x, g { s with regs := x } = g s) → (∀ s x, g { s with i3c := x } = g s) → g v.updateHealth = g u :=
    fun g hregs hi3c => (State.updateHealth_frame g hregs hi3c v).trans ((hframe2 g hregs).trans (hframe1 g hregs))
  have hrun : (v.tryDrain).updateHealth = v.updateHealth := congrArg State.updateHealth (State.tryDrain_open hvopen)
  refine ⟨v.updateHealth, congrArg Host.Outcome.next hrun, (hv (·.brt.aborted) (fun _ _ => rfl) fun _ _ => rfl).trans rfl, ?_, fun k hk hstate hof => ?_,
    State.frame_of_places ((hv State.places (fun _ _ => rfl) fun _ _ => rfl).trans hplaces)⟩
  · refine (v.getF_updateHealth_settled settled_state (by decide)).trans ?_
    rw [hother2 _ _ (htag _).1.symm (by decide), hother1 _ _ (htag _).1.symm (by decide)]
    exact s0.recovery_frozenBy 0
  · refine (v.getF_updateHealth_settled (settled_tag (tagOf_range k).2) (by decide)).trans ?_
    rcases List.mem_cons.mp hk with rfl | hk
    · refine (hother2 _ _ hapart (by decide)).trans (hfirst ?_ ?_)
      · exact (hu k _ (by decide)).trans hstate
      · exact (hu k _ (by decide)).trans hof
    · cases List.mem_singleton.mp hk
      refine hsecond ?_ ?_
      · exact (hother1 _ _ hapart.symm (by decide)).trans ((hu _ _ (by decide)).trans hstate)
      · exact (hother1 _ _ hapart.symm (by decide)).trans ((hu _ _ (by decide)).trans hof)

/-- What freeing the tags leaves (R408): those of steps begun or discarded stand free. -/
theorem State.tagState_freeTags (s : State) {k : Nat} (hlow : 1 ≤ k) (hhigh : k ≤ 3)
    (h : s.tagState k = 1) : s.freeTags.tagState k = 0 := by
  have hsame : ∀ (t : State) j, t.tagState j = 1 ∨ t.tagState j = 3 → (t.freeTag j).tagState j = 0 := fun t j hj => by
    rw [State.freeTag, if_pos hj]
    exact State.getF_setF_same t _ _ _
  have hother : ∀ (t : State) i j, i ≠ j → (t.freeTag j).tagState i = t.tagState i := fun t i j hij => by
    unfold State.freeTag
    split
    · exact State.getF_setF_apart t _ _ _ (fun h => hij (aFltTag_inj h)) (by decide) (by decide)
    · rfl
  have hcases : k = 1 ∨ k = 2 ∨ k = 3 := by omega
  unfold State.freeTags
  rcases hcases with rfl | rfl | rfl
  · rw [hother _ _ _ (by decide), hother _ _ _ (by decide)]
    exact hsame s 1 (.inl h)
  · rw [hother _ _ _ (by decide)]
    exact hsame _ 2 (.inl ((hother s 2 1 (by decide)).trans h))
  · exact hsame _ 3 (.inl ((hother _ 3 2 (by decide)).trans ((hother s 3 1 (by decide)).trans h)))

theorem State.brt_endJob (s : State) : s.endJob.brt = { s.brt with job := false } := by
  have hset : ∀ (t : State) a f v, (t.setF a f v).brt = t.brt := fun _ _ _ _ => rfl
  unfold State.endJob
  exact (State.foldl_frame State.brt _ (fun t _ => hset t _ _ _) _).trans rfl

/-- An abort freezes the package, frees its tags and, at a stop, ends the job (R415, R438). -/
def State.abortedBy (s : State) (cause : Nat) : State :=
  let u := (s.frozenBy cause).freeTags
  if cause = 8 then { u with brt := { u.brt with stopping := false }, rcv := { u.rcv with restart := false } }.endJob else u

theorem State.abortedBy_effects (s : State) (cause : Nat) : (s.abortedBy cause).brt.aborted = true ∧
    (cause = 8 → (s.abortedBy cause).brt.job = false) ∧ (s.abortedBy cause).getF aFltState F.fltState_recovery = 1 ∧
    (∀ k, 1 ≤ k → k ≤ 3 → s.tagState k = 1 → (s.abortedBy cause).tagState k = 0) ∧
    (s.abortedBy cause).getF aGmuTrack F.gmuTrack_open = s.getF aGmuTrack F.gmuTrack_open ∧ (s.abortedBy cause).places = s.places := by
  have hkept : ∀ (t : State) x y b g, State.getF { t with brt := x, rcv := y } b g = t.getF b g := fun _ _ _ _ _ => rfl
  let u := (s.frozenBy cause).freeTags
  have hbrt : u.brt.aborted = true := State.freeTags_frame (·.brt.aborted) (fun _ _ => rfl) (s.frozenBy cause)
  have hplaces : u.places = s.places := State.freeTags_frame State.places (fun _ _ => rfl) (s.frozenBy cause)
  have hrecovery : u.getF aFltState F.fltState_recovery = 1 :=
    (State.getF_freeTags _ (.inl (by decide)) (by decide)).trans (s.recovery_frozenBy cause)
  have hopen : u.getF aGmuTrack F.gmuTrack_open = s.getF aGmuTrack F.gmuTrack_open :=
    (State.getF_freeTags _ (.inl (by decide)) (by decide)).trans (s.getF_frozenBy cause (by decide) (by decide))
  have htag : ∀ k, 1 ≤ k → k ≤ 3 → s.tagState k = 1 → u.tagState k = 0 := fun k hlow hhigh hstate => by
    refine State.tagState_freeTags _ hlow hhigh ((s.getF_frozenBy cause ?_ (by decide)).trans hstate)
    simp only [aFltTag, aFltState]
    omega
  have heq : s.abortedBy cause = if cause = 8 then { u with brt := { u.brt with stopping := false }, rcv := { u.rcv with restart := false } }.endJob else u :=
    rfl
  clear_value u
  rw [heq]
  by_cases hstop : cause = 8
  · rw [if_pos hstop]
    have hregs : ∀ b g, fabBase < b → g.lo < 64 →
        (State.endJob { u with brt := { u.brt with stopping := false }, rcv :=
    { u.rcv with restart := false } }).getF b g = u.getF b g := fun b g hb hg =>
      (State.getF_endJob _ hb hg).trans (hkept u _ _ b g)
    refine ⟨?_, fun _ => ?_, (hregs _ _ (by decide) (by decide)).trans hrecovery, fun k hlow hhigh hstate => (hregs _ _ ?_ (by decide)).trans
      (htag k hlow hhigh hstate), (hregs _ _ (by decide) (by decide)).trans hopen,
      (State.endJob_frame State.places (fun _ _ => rfl) (fun _ _ => rfl) (fun _ _ => rfl) _).trans hplaces⟩
    · rw [State.brt_endJob]
      exact hbrt
    · rw [State.brt_endJob]
    · simp only [aFltTag, fltBase, fabBase]
      omega
  · rw [if_neg hstop]
    exact ⟨hbrt, fun h => absurd h hstop, hrecovery, htag, hopen, hplaces⟩

theorem abort_freezes {s : State} {msg : Msg} (htake : (s.takeMsg msg).rcv.toCommit = none) (hshadow : (s.takeMsg msg).rcv.shadow = none)
    (hcalm : (s.takeMsg msg).getF aFltState F.fltState_recovery = 0) (hopen : (s.takeMsg msg).getF aGmuTrack F.gmuTrack_open ≠ 0) :
    CompletesWith (exec (.abort msg) s) fun t =>
      t.brt.aborted = true ∧ t.getF aFltState F.fltState_recovery = 1 ∧ (msgBits msg 96 8 = 8 → t.brt.job = false) ∧
        (∀ k, 1 ≤ k → k ≤ 3 → s.tagState k = 1 → t.tagState k = 0) ∧ s.sameIslands t ∧ s.sameMemory t := by
  have hexec : exec (.abort msg) s = execAbort msg s := rfl
  have hplaces := State.places_of_frame (s.takeMsg_frame msg)
  have hregs : ∀ b g, (s.takeMsg msg).getF b g = s.getF b g := State.getF_takeMsg s msg
  rw [hexec, execAbort]
  generalize s.takeMsg msg = s0 at *
  generalize msgBits msg 96 8 = cause at *
  obtain ⟨haborted, hjob, hrecovery, htag, hopen', hframe⟩ := s0.abortedBy_effects cause
  have hfree : s0.frozen = false := by rw [State.frozen, hcalm]; rfl
  have hwaits : (s0.abortedBy cause).tryDrain = s0.abortedBy cause := State.tryDrain_open (hopen' ▸ hopen)
  dsimp only
  rw [hfree, Bool.false_and, if_neg Bool.false_ne_true, if_neg Bool.false_ne_true, State.quitReplay_none hshadow, State.freeze_eq htake]
  change CompletesWith (.next (if (s0.abortedBy cause).getF aFltState F.fltState_recovery = 1 then (s0.abortedBy cause).tryDrain
    else (s0.abortedBy cause).endRecovery).updateHealth) _
  rw [if_pos hrecovery, hwaits]
  generalize s0.abortedBy cause = v at *
  have hbrt : v.updateHealth.brt = v.brt := State.updateHealth_frame State.brt (fun _ _ => rfl) (fun _ _ => rfl) v
  refine ⟨_, rfl, ?_⟩
  beta_reduce
  rw [hbrt]
  exact ⟨haborted, (v.getF_updateHealth_settled settled_state (by decide)).trans hrecovery, hjob,
    fun k hlow hhigh hstate => (v.getF_updateHealth_settled (settled_tag hhigh) (by decide)).trans (htag k hlow hhigh ((hregs _ _).trans hstate)),
    State.frame_of_places ((State.updateHealth_frame State.places (fun _ _ => rfl) (fun _ _ => rfl) v).trans (hframe.trans hplaces))⟩

/-! ### Sweeps -/

/-- A key listed in a canonical table is listed once (log entry 8). -/
theorem Tbl.get_of_mem {α : Type} [DecidableEq α] {d : α} {t : Tbl α} {lo k : Nat} {v : α} (h : Tbl.okFrom d lo t = true) (hmem :
    (k, v) ∈ t) :
    Tbl.get d t k = v := by
  induction t generalizing lo with
  | nil => exact absurd hmem List.not_mem_nil
  | cons q t ih =>
    obtain ⟨j, w⟩ := q
    simp only [Tbl.okFrom, Bool.and_eq_true, decide_eq_true_eq] at h
    rcases List.mem_cons.mp hmem with heq | hmem
    · cases heq
      simp only [Tbl.get, if_true]
    · have hkey := (Tbl.okFrom_keys h.2).1 k (List.mem_map.mpr ⟨_, hmem, rfl⟩)
      have hne : ¬j = k := by omega
      simp only [Tbl.get, hne, if_false]
      exact ih h.2 hmem

/-- A canonical table filtered by its values. -/
theorem Tbl.get_filter_values {α : Type} [DecidableEq α] {d : α} {t : Tbl α} (h : Tbl.wf d t = true) (p : Nat × α → Bool) (k : Nat) :
    Tbl.get d (t.filter p) k = if p (k, Tbl.get d t k) then Tbl.get d t k else d := by
  by_cases hd : Tbl.get d (t.filter p) k = d
  · rw [hd]
    split
    case isTrue hp =>
      by_contra hne
      have hmem := List.mem_filter.mpr ⟨Tbl.mem_of_get (Ne.symm hne), hp⟩
      exact hne (hd.symm.trans (Tbl.get_of_mem (Tbl.filter_wf p h) hmem))
    case isFalse => rfl
  · have hmem := List.mem_filter.mp (Tbl.mem_of_get hd)
    have hget := Tbl.get_of_mem h hmem.1
    rw [hget, if_pos hmem.2]

theorem Tbl.mem_iff_get {α : Type} [DecidableEq α] {d : α} {t : Tbl α} (h : Tbl.wf d t = true) {k : Nat} {v : α} (hv : v ≠ d) :
    (k, v) ∈ t ↔ Tbl.get d t k = v := by
  refine ⟨Tbl.get_of_mem h, fun hget => ?_⟩
  have hmem := Tbl.mem_of_get (d := d) (t := t) (k := k) (by rw [hget]; exact hv)
  rwa [hget] at hmem

/-- The regions marked, in a directory that is canonical (R408). -/
theorem State.mem_markedRegions {s : State} (h : Tbl.wf 0 s.tier.tagDir = true) (t region : Nat) :
    region ∈ s.markedRegions t ↔ (Tbl.get 0 s.tier.tagDir region).testBit t = true := by
  simp only [State.markedRegions, List.mem_map, List.mem_filter, Prod.exists, exists_and_right, exists_eq_right]
  refine ⟨fun ⟨v, hmem, hbit⟩ => ?_, fun hbit => ⟨_, Tbl.mem_of_get fun h0 => ?_, hbit⟩⟩
  · rw [Tbl.get_of_mem h hmem]
    exact hbit
  · rw [h0, Nat.zero_testBit] at hbit
    cases hbit

theorem State.nodup_markedRegions {s : State} (h : Tbl.wf 0 s.tier.tagDir = true) (t : Nat) : (s.markedRegions t).Nodup :=
  (Tbl.okFrom_keys (Tbl.filter_wf _ h)).2

/-- A region swept (R408): its words lose the tag, and it is marked no more. -/
def State.swept (s : State) (k region : Nat) : State :=
  { s with
    tags := s.tags.filter fun p => !(decide (p.1 / 65536 = region) && decide (p.2 = BitVec.ofNat 2 k))
    tier := { s.tier with tagDir := Tbl.set 0 s.tier.tagDir region (Tbl.get 0 s.tier.tagDir region - 2 ^ k) } }

theorem State.tagAt_swept {s : State} (htags : Tbl.wf 0 s.tags = true) (k region a : Nat) :
    (s.swept k region).tagAt a = if a / 64 / 65536 = region ∧ s.tagAt a = BitVec.ofNat 2 k then 0 else s.tagAt a := by
  refine (Tbl.get_filter_values htags _ _).trans ?_
  have hsame : Tbl.get 0 s.tags (a / 64) = s.tagAt a := rfl
  rw [hsame]
  by_cases h : a / 64 / 65536 = region ∧ s.tagAt a = BitVec.ofNat 2 k
  · rw [if_pos h, if_neg (by simp [h.1, h.2])]
  · rw [if_neg h, if_pos (by simpa using not_and_or.mp h)]

theorem State.mem_markedRegions_swept {s : State} (hdir : Tbl.wf 0 s.tier.tagDir = true) {k region : Nat}
    (hmarked : region ∈ s.markedRegions k)
    (r : Nat) : r ∈ (s.swept k region).markedRegions k ↔ r ∈ s.markedRegions k ∧ r ≠ region := by
  have hbit := (s.mem_markedRegions hdir k region).mp hmarked
  have hcleared : (Tbl.get 0 s.tier.tagDir region - 2 ^ k).testBit k = false := by
    have hle : 2 ^ k ≤ Tbl.get 0 s.tier.tagDir region := Nat.ge_two_pow_of_testBit hbit
    have hxor : Tbl.get 0 s.tier.tagDir region = 2 ^ k + (Tbl.get 0 s.tier.tagDir region - 2 ^ k) := by omega
    rw [hxor, Nat.testBit_two_pow_add_eq] at hbit
    simpa using hbit
  rw [State.mem_markedRegions (Tbl.set_wf _ _ hdir), s.mem_markedRegions hdir]
  change (Tbl.get 0 (Tbl.set 0 s.tier.tagDir region _) r).testBit k = true ↔ _
  rw [Tbl.get_set]
  by_cases hr : r = region
  · rw [if_pos hr, hcleared]
    simp [hr]
  · rw [if_neg hr]
    simp [hr]

/-- The tag is free once the last region that was marked is swept (R408). -/
theorem State.swept_last {s : State} (hdir : Tbl.wf 0 s.tier.tagDir = true) {k region : Nat} (hmarked : region ∈ s.markedRegions k) :
    ((s.swept k region).markedRegions k).isEmpty = true ↔ s.markedRegions k = [region] := by
  have hmem := State.mem_markedRegions_swept hdir hmarked
  rw [List.isEmpty_iff, List.eq_nil_iff_forall_not_mem]
  refine ⟨fun hnone => ?_, fun hone r hr => ?_⟩
  · have hall : ∀ r ∈ s.markedRegions k, r = region := fun r hr => by
      by_contra hne
      exact hnone r ((hmem r).mpr ⟨hr, hne⟩)
    have hnodup := s.nodup_markedRegions hdir k
    revert hall hnodup hmarked
    cases s.markedRegions k with
    | nil => exact fun h => absurd h List.not_mem_nil
    | cons x l =>
      intro _ hall hnodup
      have hx := hall x List.mem_cons_self
      cases l with
      | nil => rw [hx]
      | cons y l =>
        have hy := hall y (List.mem_cons_of_mem _ List.mem_cons_self)
        exact absurd (List.mem_cons.mpr (.inl (hx.trans hy.symm))) (List.nodup_cons.mp hnodup).1
  · obtain ⟨hr', hne⟩ := (hmem r).mp hr
    rw [hone] at hr'
    exact hne (List.mem_singleton.mp hr')

theorem tagSweep_sweeps {s : State} {k region : Nat} (hlow : 1 ≤ k) (hhigh : k ≤ 3) (hstate : s.tagState k = 2)
    (hmarked : region ∈ s.markedRegions k) (hdir : Tbl.wf 0 s.tier.tagDir = true) (htags : Tbl.wf 0 s.tags = true) :
    CompletesWith (exec (.tagSweep k region) s) fun t =>
      (∀ a, t.tagAt a = if a / 64 / 65536 = region ∧ s.tagAt a = BitVec.ofNat 2 k then 0 else s.tagAt a) ∧
        region ∉ t.markedRegions k ∧ (t.tagState k = 0 ↔ s.markedRegions k = [region]) ∧ t.mem = s.mem ∧ t.bad = s.bad ∧ s.sameIslands t := by
  have hexec : exec (.tagSweep k region) s = execTagSweep k region s := rfl
  have hrun : exec (.tagSweep k region) s = .next ((s.swept k region).sweepEnd k) := by
    rw [hexec, execTagSweep, if_pos ⟨hlow, hhigh⟩, if_pos ⟨hstate, List.contains_iff_mem.mpr hmarked⟩]
    rfl
  have hstate' : (s.swept k region).tagState k = 2 := hstate
  have hkept : ∀ {β : Type} (g : State → β), (∀ s x, g { s with regs := x } = g s) → (∀ s x, g { s with ctl := x } = g s) →
      g ((s.swept k region).sweepEnd k) = g (s.swept k region) := fun g hregs hctl => State.sweepEnd_frame g hregs hctl _ k
  refine ⟨_, hrun, fun a => (hkept (·.tagAt a) (fun _ _ => rfl) fun _ _ => rfl).trans (State.tagAt_swept htags k region a), ?_, ?_,
    hkept State.mem (fun _ _ => rfl) fun _ _ => rfl, hkept State.bad (fun _ _ => rfl) fun _ _ => rfl,
    hkept State.cores (fun _ _ => rfl) fun _ _ => rfl, hkept State.clusters (fun _ _ => rfl) fun _ _ => rfl,
    hkept State.islands (fun _ _ => rfl) fun _ _ => rfl⟩
  · rw [hkept (·.markedRegions k) (fun _ _ => rfl) fun _ _ => rfl, State.mem_markedRegions_swept hdir hmarked]
    exact fun h => h.2 rfl
  · rw [((s.swept k region).sweepEnd_effects hstate').1, ← State.swept_last hdir hmarked]
    split
    case isTrue h => exact ⟨fun _ => h, fun _ => rfl⟩
    case isFalse h => exact ⟨fun h2 => absurd h2 (by decide), fun h2 => absurd h2 h⟩

end Sys2Proof.Machine
end

section
/-! Shadow replay and localisation (R402, R417 to R419, R424 to R426). -/

namespace Sys2Proof.Machine

/-! ### Digests -/

/-- One part of a digest sent to the lead (R425). -/
def State.sendPart (step : Nat) (d : BitVec 256) (replayer : Bool) (s : State) (k : Nat) : State :=
  s.sendTo s.lead (s.msgOf 0x26 [(24, step % 2 ^ 32), (56, k), (58, d.toNat / 2 ^ (64 * k) % 2 ^ 64), (122, if replayer then 1 else 0)])

theorem State.sendDigest_eq (s : State) (step : Nat) (d : BitVec 256) (replayer : Bool) :
    s.sendDigest step d replayer = (List.range 4).foldl (State.sendPart step d replayer) s := rfl

theorem State.mem_loop_sendParts (step : Nat) (d : BitVec 256) (replayer : Bool) (l : List Nat) (s : State) (hlead : s.lead = s.self) :
    (∀ m ∈ s.ctl.loop, m ∈ (l.foldl (State.sendPart step d replayer) s).ctl.loop) ∧ ∀ k ∈ l,
      s.msgOf 0x26 [(24, step % 2 ^ 32), (56, k), (58, d.toNat / 2 ^ (64 * k) % 2 ^ 64), (122, if replayer then 1 else 0)] ∈
        (l.foldl (State.sendPart step d replayer) s).ctl.loop := by
  induction l generalizing s with
  | nil => exact ⟨fun m hm => hm, fun k hk => absurd hk List.not_mem_nil⟩
  | cons j l ih =>
    have hself : (State.sendPart step d replayer s j).self = s.self := State.unicast_ctl State.self (fun _ _ => rfl) s _
    have hlead' : (State.sendPart step d replayer s j).lead = (State.sendPart step d replayer s j).self :=
      (State.getF_sendTo ..).trans (hlead.trans hself.symm)
    obtain ⟨hkept, hrest⟩ := ih _ hlead'
    refine ⟨fun m hm => hkept m (State.mem_loop_unicast hm _), fun k hk => ?_⟩
    rcases List.mem_cons.mp hk with rfl | hk
    · exact hkept _ (State.mem_loop_sendTo_self _ hlead)
    · have hmsg := hrest k hk
      rw [State.msgOf, hself] at hmsg
      exact hmsg

/-- The package under suspicion sends its digest to the lead (R418, R425). -/
theorem replayOrder_digest {s : State} {msg : Msg} (hlead : (s.takeMsg msg).lead = (s.takeMsg msg).self)
    (hme : msgBits msg 72 14 = (s.takeMsg msg).self) : CompletesWith (exec (.replayOrder msg) s) fun t =>
      (∀ k < 4, (s.takeMsg msg).msgOf 0x26 [(24, msgBits msg 24 48 % 2 ^ 32), (56, k),
          (58, ((s.takeMsg msg).packageDigest (msgBits msg 24 48)).toNat / 2 ^ (64 * k) % 2 ^ 64), (122, 0)] ∈ t.ctl.loop) ∧
        t.regs = s.regs ∧ s.sameIslands t ∧ s.sameMemory t := by
  have hexec : exec (.replayOrder msg) s = execReplayOrder msg s := rfl
  have hplaces := State.places_of_frame (s.takeMsg_frame msg)
  have hregs := State.regs_takeMsg s msg
  rw [hexec, execReplayOrder]
  generalize s.takeMsg msg = s0 at *
  rw [if_pos hme]
  generalize s0.packageDigest (msgBits msg 24 48) = d
  rw [State.sendDigest_eq]
  obtain ⟨-, hsent⟩ := State.mem_loop_sendParts (msgBits msg 24 48) d false (List.range 4) s0 hlead
  have hframe : ∀ {β : Type} (g : State → β), (∀ s x, g { s with ctl := x } = g s) →
      g ((List.range 4).foldl (State.sendPart (msgBits msg 24 48) d false) s0) = g s0 := fun g hctl =>
    State.foldl_frame g _ (fun t _ => State.unicast_ctl g hctl t _) s0
  exact ⟨_, rfl, fun k hk => hsent k (List.mem_range.mpr hk), (hframe State.regs fun _ _ => rfl).trans hregs,
    State.frame_of_places ((hframe State.places fun _ _ => rfl).trans hplaces)⟩

/-- The lead holds the part of a digest that arrives (R425). -/
theorem digest_held {s : State} {msg : Msg} (hlead : (s.takeMsg msg).isLead = true) : CompletesWith (exec (.digest msg) s) fun t =>
    ({ package := msgBits msg 8 14, step := msgBits msg 24 32, part := msgBits msg 56 2, bits := BitVec.ofNat 64 (msgBits msg 58 64)
       replayer := msg.getLsbD 122 } : DigPart) ∈ t.rcv.digests ∧ t.regs = s.regs ∧ s.sameIslands t ∧ s.sameMemory t := by
  have hexec : exec (.digest msg) s = execDigest msg s := rfl
  have hplaces := State.places_of_frame (s.takeMsg_frame msg)
  have hregs := State.regs_takeMsg s msg
  rw [hexec, execDigest]
  generalize s.takeMsg msg = s0 at *
  dsimp only
  rw [if_pos hlead]
  exact ⟨_, rfl, List.mem_append_right _ List.mem_cons_self, hregs, State.frame_of_places hplaces⟩

/-! ### A replay taken up and ended -/

/-- The part of the suspect's work that a spare takes up before it replays (R418). -/
def State.asPackage (s : State) (p : Nat) (spare : Bool) : State :=
  match s.boc.parts.find? fun q => decide (q.index = p) with
  | some q => if spare then s.applyPart q else s
  | none => s

theorem State.asPackage_frame {β : Type} (g : State → β) (hregs : ∀ s x, g { s with regs := x } = g s) (hctl : ∀ s x, g
    { s with ctl := x } = g s)
    (hboc : ∀ s x, g { s with boc := x } = g s) (s : State) (p : Nat) (spare : Bool) : g (s.asPackage p spare) = g s := by
  unfold State.asPackage
  split
  · split
    · exact State.applyPart_keeps g hregs hctl hboc s _
    · rfl
  · rfl

theorem State.getF_asPackage (s : State) (p : Nat) (spare : Bool) {b : Nat} {g : Fld} (hb : settled b) (hg : g.lo < 64) :
    (s.asPackage p spare).getF b g = s.getF b g := by
  unfold State.asPackage
  split
  · split
    · exact s.getF_applyPart _ hb hg
    · rfl
  · rfl

/-- The package set to replay the step (R418). -/
def State.setToReplay (s : State) (step p : Nat) (spare : Bool) : State :=
  { s with
    brt := { BreathSt.reset with job := s.brt.job, step := step - 1, nextEntry := Config.replayEntry p step }
    rcv := { s.rcv with shadow := some (step, p), folds := spare, replays := s.rcv.replays + 1 }
    fab := { s.fab with written := [] } }

/-- The package armed for a replay (R418). -/
def State.armedToReplay (s : State) (step p : Nat) (spare : Bool) (start : Nat) : State :=
  ((((s.setToReplay step p spare).setF aFltState F.fltState_replaying 1).bump aFltRecovery F.fltRecovery_replays 1).setF
    aBocTNext F.bocTNext_beat start).armTrigger start

theorem State.armedToReplay_effects (s : State) (step p : Nat) (spare : Bool) {start : Nat} (hlt : start < 2 ^ 64) :
    let t := s.armedToReplay step p spare start
    t.rcv.shadow = some (step, p) ∧ t.rcv.folds = spare ∧ t.brt.step = step - 1 ∧ t.brt.nextEntry = Config.replayEntry p step ∧
      t.brt.running = false ∧ t.brt.job = s.brt.job ∧ t.getF aBocTNext F.bocTNext_beat = start ∧ t.getF aTimTrig F.timTrig_beat = start ∧
      t.getF aTimTrigState F.timTrigState_armed = 1 ∧ t.getF aFltState F.fltState_replaying = 1 ∧
      t.getF aFltRecovery F.fltRecovery_replays = raised F.fltRecovery_replays (s.getF aFltRecovery F.fltRecovery_replays) 1 ∧
      t.places = s.places := by
  let v := s.setToReplay step p spare
  let w := (((v.setF aFltState F.fltState_replaying 1).bump aFltRecovery F.fltRecovery_replays 1).setF aBocTNext F.bocTNext_beat start)
  obtain ⟨htrig, hothers, hbrt, hisl, hmem⟩ := w.armTrigger_effects start
  obtain ⟨harmed, -, -⟩ := w.armTrigger_registers start
  have hv : ∀ b g, v.getF b g = s.getF b g := fun _ _ => rfl
  have hrcv : (w.armTrigger start).rcv = v.rcv := by
    unfold State.armTrigger
    extract_lets x y late pins z
    split <;> rfl
  have hvrcv : v.rcv.shadow = some (step, p) ∧ v.rcv.folds = spare := ⟨rfl, rfl⟩
  have hwbrt : w.brt.step = step - 1 ∧ w.brt.nextEntry = Config.replayEntry p step ∧ w.brt.running = false ∧ w.brt.job = s.brt.job :=
    ⟨rfl, rfl, rfl, rfl⟩
  have hwplaces : w.places = s.places := rfl
  obtain ⟨hat, hentry, hrunning, hkeeps⟩ := hwbrt
  intro t
  have ht : t = w.armTrigger start := rfl
  clear_value t
  subst ht
  rw [hrcv, hbrt]
  refine ⟨hvrcv.1, hvrcv.2, hat, hentry, hrunning, hkeeps, ?_, htrig.trans (Nat.mod_eq_of_lt hlt), harmed, ?_, ?_,
    (State.places_of_frame ⟨hisl, hmem⟩).trans hwplaces⟩
  · exact (hothers _ _ (by decide) (by decide) (by decide)).trans ((State.getF_setF_same _ _ _ _).trans (Nat.mod_eq_of_lt hlt))
  · refine (hothers _ _ (by decide) (by decide) (by decide)).trans ((State.getF_setF_apart _ _ _ _ (by decide) (by decide) (by decide)).trans ?_)
    exact (State.getF_setF_apart _ _ _ _ (by decide) (by decide) (by decide)).trans (State.getF_setF_same _ _ _ _)
  · refine (hothers _ _ (by decide) (by decide) (by decide)).trans ((State.getF_setF_apart _ _ _ _ (by decide) (by decide) (by decide)).trans ?_)
    refine (State.getF_bump_same _ _ _ _).trans ?_
    rw [State.getF_setF_apart _ _ _ _ (by decide) (by decide) (by decide), hv]

theorem State.beginReplay_eq (s : State) (step p : Nat) (spare : Bool) : s.beginReplay step p spare =
    (s.asPackage p spare).armedToReplay step p spare ((s.asPackage p spare).beat + nsBeat 1000000).toNat := rfl

/-- A package ordered to replay takes up the suspect's step (R418). -/
theorem replayOrder_begins {s : State} {msg : Msg} (hother : msgBits msg 72 14 ≠ (s.takeMsg msg).self)
    (hme : msgBits msg 86 14 = (s.takeMsg msg).self) (himage : (s.takeMsg msg).hasImage = true) (hidle : (s.takeMsg msg).replays = false) :
    let start := (s.beat + nsBeat 1000000).toNat
    CompletesWith (exec (.replayOrder msg) s) fun t =>
      t.rcv.shadow = some (msgBits msg 24 48, msgBits msg 72 14) ∧ t.rcv.folds = decide ((s.takeMsg msg).self ≠ 0x3FFF) ∧
        t.brt.step = msgBits msg 24 48 - 1 ∧ t.brt.nextEntry = Config.replayEntry (msgBits msg 72 14) (msgBits msg 24 48) ∧
        t.brt.running = false ∧ t.brt.job = s.brt.job ∧ t.getF aBocTNext F.bocTNext_beat = start ∧ t.getF aTimTrig F.timTrig_beat = start ∧
        t.getF aTimTrigState F.timTrigState_armed = 1 ∧ t.getF aFltState F.fltState_replaying = 1 ∧
        t.getF aFltRecovery F.fltRecovery_replays = raised F.fltRecovery_replays (s.getF aFltRecovery F.fltRecovery_replays) 1 ∧
        s.sameIslands t ∧ s.sameMemory t := by
  generalize hsum : nsBeat 1000000 = wait
  intro start
  have hexec : exec (.replayOrder msg) s = execReplayOrder msg s := rfl
  have hplaces := State.places_of_frame (s.takeMsg_frame msg)
  have hregs := State.getF_takeMsg s msg
  have hbeat : (s.takeMsg msg).beat = s.beat := State.takeMsg_ctl State.beat (fun _ _ => rfl) (fun _ _ => rfl) s msg
  have hjob : (s.takeMsg msg).brt.job = s.brt.job := State.takeMsg_ctl (·.brt.job) (fun _ _ => rfl) (fun _ _ => rfl) s msg
  have hlt : start < 2 ^ 64 := (s.beat + wait).isLt
  have hstart : (s.beat + wait).toNat = start := rfl
  clear_value start
  rw [hexec, execReplayOrder]
  generalize s.takeMsg msg = s0 at *
  generalize msgBits msg 24 48 = step at *
  generalize msgBits msg 72 14 = p at *
  rw [hme, if_neg hother, if_pos ⟨.inl rfl, himage, by rw [hidle]; rfl⟩, State.beginReplay_eq, hsum]
  have hubeat : (s0.asPackage p (decide (s0.self ≠ 0x3FFF))).beat = s0.beat :=
    State.asPackage_frame State.beat (fun _ _ => rfl) (fun _ _ => rfl) (fun _ _ => rfl) s0 p _
  have hujob : (s0.asPackage p (decide (s0.self ≠ 0x3FFF))).brt.job = s0.brt.job :=
    State.asPackage_frame (·.brt.job) (fun _ _ => rfl) (fun _ _ => rfl) (fun _ _ => rfl) s0 p _
  have huplaces : (s0.asPackage p (decide (s0.self ≠ 0x3FFF))).places = s0.places :=
    State.asPackage_frame State.places (fun _ _ => rfl) (fun _ _ => rfl) (fun _ _ => rfl) s0 p _
  have hucount : (s0.asPackage p (decide (s0.self ≠ 0x3FFF))).getF aFltRecovery F.fltRecovery_replays =
      s.getF aFltRecovery F.fltRecovery_replays := (s0.getF_asPackage p _ settled_recovery (by decide)).trans (hregs _ _)
  rw [hubeat, hbeat, hstart]
  generalize s0.asPackage p (decide (s0.self ≠ 0x3FFF)) = u at *
  obtain ⟨hshadow, hfolds, hat, hentry, hrunning, hkeeps, hnext, htrig, harmed, hreplaying, hcount, hframe⟩ :=
    u.armedToReplay_effects step p (decide (s0.self ≠ 0x3FFF)) hlt
  exact ⟨_, rfl, hshadow, hfolds, hat, hentry, hrunning, hkeeps.trans (hujob.trans hjob), hnext, htrig, harmed, hreplaying,
    hcount.trans (by rw [hucount]), State.frame_of_places (hframe.trans (huplaces.trans hplaces))⟩

/-- The end of a replay (R419): the package stands at its committed step, and what the replay tagged is free. -/
theorem State.endReplay_effects (s : State) : s.endReplay.rcv = { s.rcv with shadow := none, folds := false } ∧
    s.endReplay.brt = { BreathSt.reset with job := s.brt.job, aborted := s.brt.aborted, step := s.committed } ∧
    s.endReplay.getF aFltState F.fltState_replaying = 0 ∧ s.endReplay.getF aTimTrigState F.timTrigState_armed = 0 ∧
    (∀ k, 1 ≤ k → k ≤ 3 → s.tagState k = 1 → s.endReplay.tagState k = 0) ∧ s.endReplay.places = s.places := by
  have hkept : ∀ (t : State) x y b g, State.getF { t with rcv := x, brt := y } b g = t.getF b g := fun _ _ _ _ _ => rfl
  have hcommitted : s.freeTags.committed = s.committed := s.getF_freeTags (.inl (by decide)) (by decide)
  have hrcv : s.freeTags.rcv = s.rcv ∧ s.freeTags.brt = s.brt ∧ s.freeTags.places = s.places :=
    ⟨s.freeTags_frame State.rcv fun _ _ => rfl, s.freeTags_frame State.brt fun _ _ => rfl, s.freeTags_frame State.places fun _ _ => rfl⟩
  have htag : ∀ k, 1 ≤ k → k ≤ 3 → s.tagState k = 1 → s.freeTags.tagState k = 0 := fun k hlow hhigh h => s.tagState_freeTags hlow hhigh h
  obtain ⟨hrcv, hbrt, hplaces⟩ := hrcv
  unfold State.endReplay
  generalize s.freeTags = u at *
  let w := (u.setF aFltState F.fltState_replaying 0).setF aTimTrigState F.timTrigState_armed 0
  have hw : w.committed = u.committed := (State.getF_setF_apart _ _ _ _ (by decide) (by decide) (by decide)).trans
    (State.getF_setF_apart u _ _ _ (by decide) (by decide) (by decide))
  refine ⟨congrArg (fun x : Recov => { x with shadow := none, folds := false }) hrcv, ?_, ?_, ?_, fun k hlow hhigh h => ?_, hplaces⟩
  · have hstep : w.committed = s.committed := hw.trans hcommitted
    change ({ BreathSt.reset with job := u.brt.job, aborted := u.brt.aborted, step := w.committed } : BreathSt) = _
    rw [hstep, hbrt]
  · exact (hkept w _ _ _ _).trans ((State.getF_setF_apart _ _ _ _ (by decide) (by decide) (by decide)).trans (State.getF_setF_same u _ _ _))
  · exact (hkept w _ _ _ _).trans (State.getF_setF_same _ _ _ _)
  · have htrig : aFltTag k ≠ aTimTrigState := (settled_tag hhigh).early (by decide)
    have hstate : aFltTag k ≠ aFltState := by
      simp only [aFltTag, aFltState]
      omega
    exact (hkept w _ _ _ _).trans ((State.getF_setF_apart _ _ _ _ htrig (by decide) (by decide)).trans
      ((State.getF_setF_apart u _ _ _ hstate (by decide) (by decide)).trans (htag k hlow hhigh h)))

/-- The limit ends a replay (R419). -/
theorem replayLimitExpiry_ends {s : State} (hnone : s.rcv.replay = none) (hshadow : s.rcv.shadow.isSome = true)
    (hidle : s.brt.running = false) :
    CompletesWith (exec .replayLimitExpiry s) fun t =>
      t.rcv.shadow = none ∧ t.rcv.folds = false ∧ t.getF aFltState F.fltState_replaying = 0 ∧ t.getF aTimTrigState F.timTrigState_armed = 0 ∧
        t.brt.step = s.committed ∧ t.brt.job = s.brt.job ∧ (∀ k, 1 ≤ k → k ≤ 3 → s.tagState k = 1 → t.tagState k = 0) ∧
        s.sameIslands t ∧ s.sameMemory t := by
  have hexec : exec .replayLimitExpiry s = execReplayLimitExpiry s := rfl
  obtain ⟨⟨k, p⟩, hsome⟩ := Option.isSome_iff_exists.mp hshadow
  obtain ⟨hrcv, hbrt, hreplaying, harmed, htag, hplaces⟩ := s.endReplay_effects
  have hquit : (s.quitReplay fun _ => true) = s.endReplay := by
    rw [State.quitReplay, hsome, hidle]
    rfl
  have hover : s.endReplay.rcv.replay = none := (congrArg Recov.replay hrcv).trans hnone
  rw [hexec, execReplayLimitExpiry, hquit]
  generalize s.endReplay = t at *
  dsimp only
  rw [hover]
  exact ⟨_, rfl, congrArg Recov.shadow hrcv, congrArg Recov.folds hrcv, hreplaying, harmed, congrArg BreathSt.step hbrt,
    (congrArg BreathSt.job hbrt).trans rfl, htag, State.frame_of_places hplaces⟩

/-- The limit of the replays that the lead ordered leaves the decision to management (R418). -/
theorem replayLimitExpiry_waits {s : State} {q : Replay} (hlead : s.isLead = true) (hshadow : s.rcv.shadow = none)
    (hq : s.rcv.replay = some q)
    (hopen : q.above = false) : CompletesWith (exec .replayLimitExpiry s) fun t =>
      t.rcv.replay = some { q with above := true } ∧ t.rcv.waits = some q.step ∧ s.sameIslands t ∧ s.sameMemory t := by
  have hexec : exec .replayLimitExpiry s = execReplayLimitExpiry s := rfl
  have hgo : s.isLead = true ∧ (!q.above) = true := ⟨hlead, by rw [hopen]; rfl⟩
  rw [hexec, execReplayLimitExpiry, State.quitReplay_none hshadow]
  dsimp only
  rw [hq]
  dsimp only
  rw [if_pos hgo]
  obtain ⟨hrcv, hplaces⟩ := State.awaitDecision_effects { s with rcv := { s.rcv with replay := some { q with above := true } } } q.step
  exact ⟨_, rfl, congrArg Recov.replay hrcv, congrArg Recov.waits hrcv, State.frame_of_places hplaces⟩

/-! ### Localisation -/

/-- A record is written if it retires, or fails at boot, or is the first of all (R398). -/
theorem State.ledgerRecord_written {s : State} {kind : Nat} (h : kind = 4 ∨ kind = 5 ∨ s.flt.ledger = []) (cause : Nat) (unit : BitVec 32)
    (detail : Nat) : ∃ r : Ledger, (s.ledgerRecord kind cause unit detail).flt =
    { s.flt with ledger := s.flt.ledger ++ [r] } ∧ r.kind = kind ∧
      r.cause = cause ∧ r.unit = unit.toNat := by
  simp only [State.ledgerRecord]
  split
  case isTrue hheld =>
    obtain ⟨h4, h5, hfull⟩ := hheld
    rcases h with h | h | h
    · exact absurd h h4
    · exact absurd h h5
    · rw [h] at hfull
      exact absurd hfull (by simp)
  case isFalse => exact ⟨_, rfl, rfl, rfl, rfl⟩

/-- A unit retired for the first time (R402): its record follows the others, and it stands among the new ones. -/
theorem State.retireUnit_records {s : State} {unit : BitVec 32} (hold : unit ∉ s.flt.retired) (hnew : unit ∉ s.flt.newly)
    (cause detail : Nat) :
    ∃ r : Ledger, (s.retireUnit unit cause detail).flt.ledger = s.flt.ledger ++ [r] ∧ r.kind = 4 ∧ r.cause = cause ∧ r.unit = unit.toNat := by
  obtain ⟨r, hflt, hkind, hcause, hunit⟩ := s.ledgerRecord_written (kind := 4) (.inl rfl) cause unit detail
  obtain ⟨l, hevents⟩ := (s.ledgerRecord 4 cause unit detail).flt_event 8 0x70 2 unit 0
  refine ⟨r, ?_, hkind, hcause, hunit⟩
  have hno : ¬((s.flt.retired.contains unit || s.flt.newly.contains unit) = true) := by simp [hold, hnew]
  unfold State.retireUnit
  rw [if_neg hno]
  extract_lets u
  have hu : u.flt.ledger = s.flt.ledger ++ [r] := (congrArg FltSt.ledger hevents).trans (congrArg FltSt.ledger hflt)
  exact (State.capacityAfter_keeps (·.flt.ledger) (fun _ _ => rfl) (fun _ => rfl) _ unit).trans hu

/-- A unit whose fault is reproduced is retired, with both records (R402, R404). -/
theorem State.reproduced_records {s : State} (hempty : s.flt.ledger = []) {unit : BitVec 32} (hold : unit ∉ s.flt.retired)
    (hnew : unit ∉ s.flt.newly) (code : Nat) : let t := (s.ledgerRecord 3 7 unit code).retireUnit unit 7 code
    unit ∈ t.flt.newly ∧ t.flt.ledger.map Ledger.kind = [3, 4] ∧ ∀ x ∈ t.flt.ledger, x.unit = unit.toNat ∧ x.cause = 7 := by
  obtain ⟨r, hflt, hkind, hcause, hunit⟩ := s.ledgerRecord_written (kind := 3) (.inr (.inr hempty)) 7 unit code
  have hledger : (s.ledgerRecord 3 7 unit code).flt.ledger = [r] := by rw [hflt, hempty]; rfl
  have hold' : unit ∉ (s.ledgerRecord 3 7 unit code).flt.retired := by rw [hflt]; exact hold
  have hnew' : unit ∉ (s.ledgerRecord 3 7 unit code).flt.newly := by rw [hflt]; exact hnew
  obtain ⟨r', hboth, hkind', hcause', hunit'⟩ := State.retireUnit_records hold' hnew' 7 code
  refine ⟨(State.mem_newly_retireUnit hold' hnew' 7 code).1, ?_, ?_⟩
  · rw [hboth, hledger, List.singleton_append, List.map_cons, List.map_singleton, hkind, hkind']
  · rw [hboth, hledger]
    intro x hx
    rcases List.mem_cons.mp hx with rfl | hx
    · exact ⟨hunit, hcause⟩
    · cases List.mem_singleton.mp hx
      exact ⟨hunit', hcause'⟩

/-- A fault that is not reproduced is recorded as detected (R402, R404). -/
theorem State.faultDetected_records {s : State} (hempty : s.flt.ledger = []) (unit : BitVec 32) (code : Nat) :
    let t := s.faultDetected unit 7 code
    t.flt.newly = s.flt.newly ∧ t.flt.ledger.map Ledger.kind = [2] ∧ ∀ x ∈ t.flt.ledger, x.unit = unit.toNat ∧ x.cause = 7 := by
  obtain ⟨r, hflt, hkind, hcause, hunit⟩ := s.ledgerRecord_written (kind := 2) (.inr (.inr hempty)) 7 unit code
  have hledger : (s.ledgerRecord 2 7 unit code).flt.ledger = [r] := by rw [hflt, hempty]; rfl
  have hone : s.faultDetected unit 7 code = s.ledgerRecord 2 7 unit code := by
    unfold State.faultDetected
    extract_lets u now
    refine if_neg fun hmany => ?_
    have hle := List.length_filter_le (fun x : Ledger => decide (x.kind = 2 ∧ x.unit = unit.toNat ∧ now ≤ x.minutes + 60000)) u.flt.ledger
    rw [show u.flt.ledger = [r] from hledger] at hle hmany
    simp only [List.length_singleton] at hle
    omega
  intro t
  rw [show t = s.ledgerRecord 2 7 unit code from hone, hledger, hflt]
  refine ⟨rfl, by rw [List.map_singleton, hkind], fun x hx => ?_⟩
  cases List.mem_singleton.mp hx
  exact ⟨hunit, hcause⟩

theorem localisationTest_runs {s : State} {n cl r : Nat} (hcluster : s.hasCluster n cl = true) (hr : r < 4)
    (hrecovers : s.getF aFltState F.fltState_recovery ≠ 0) (hidle : s.brt.running = false) (hfull : s.captureEmpty n cl r = false)
    (hempty : s.flt.ledger = []) :
    let unit := unitId 2 (s.fieldOf n) (s.physIsland n) cl (bitsAt (s.getF (aFltCapture n cl r 1) F.fltCapture_word) 16 6) 0
    (unit ∉ s.flt.retired → unit ∉ s.flt.newly → CompletesWith (exec (.localisationTest n cl r true) s) fun t =>
      unit ∈ t.flt.newly ∧ t.flt.ledger.map Ledger.kind = [3, 4] ∧ (∀ x ∈ t.flt.ledger, x.unit = unit.toNat ∧ x.cause = 7) ∧
        s.sameIslands t ∧ s.sameMemory t) ∧
    CompletesWith (exec (.localisationTest n cl r false) s) fun t =>
      t.flt.newly = s.flt.newly ∧ t.flt.ledger.map Ledger.kind = [2] ∧ (∀ x ∈ t.flt.ledger, x.unit = unit.toNat ∧ x.cause = 7) ∧
        s.sameIslands t ∧ s.sameMemory t := by
  intro unit
  have hexec : ∀ b, exec (.localisationTest n cl r b) s = execLocalisationTest n cl r b s := fun _ => rfl
  have hgo : ¬(s.getF aFltState F.fltState_recovery = 0 ∨ s.brt.running = true) := by
    rw [hidle]
    simpa using hrecovers
  have hrun : ∀ b, execLocalisationTest n cl r b s =
      .next (if b = true then (s.ledgerRecord 3 7 unit (s.getF (aFltCapture n cl r 0) F.fltCapture_word % 2 ^ 16)).retireUnit unit 7
        (s.getF (aFltCapture n cl r 0) F.fltCapture_word % 2 ^ 16)
      else s.faultDetected unit 7 (s.getF (aFltCapture n cl r 0) F.fltCapture_word % 2 ^ 16)) := fun b => by
    unfold execLocalisationTest
    rw [if_pos ⟨hcluster, hr⟩, if_neg hgo, if_neg (ne_true_of_eq_false hfull)]
    exact (apply_ite Host.Outcome.next _ _ _).symm
  refine ⟨fun hold hnew => ?_, ?_⟩
  · obtain ⟨hin, hkinds, hall⟩ := State.reproduced_records hempty hold hnew (s.getF (aFltCapture n cl r 0) F.fltCapture_word % 2 ^ 16)
    exact ⟨_, (hexec true).trans (hrun true), hin, hkinds, hall, State.frame_of_bare ((State.bare_retireUnit ..).trans (State.bare_ledgerRecord ..))⟩
  · obtain ⟨hsame, hkinds, hall⟩ := State.faultDetected_records hempty unit (s.getF (aFltCapture n cl r 0) F.fltCapture_word % 2 ^ 16)
    exact ⟨_, (hexec false).trans (hrun false), hsame, hkinds, hall, State.frame_of_bare (State.bare_faultDetected ..)⟩

/-- Settles O42. -/
theorem commitReplayAndSweep : Obligations.CommitReplayAndSweep := by
  refine ⟨fun s msg => ⟨stepReport_held, ?_, ?_, commit_waits, commit_now, discard_freezes, abort_freezes,
    fun k region hlow hhigh hstate hmarked hdir htags => tagSweep_sweeps hlow hhigh hstate hmarked hdir htags, sweepDone_noted⟩,
    fun s msg => ⟨replayOrder_digest, replayOrder_begins, digest_held, replayLimitExpiry_ends,
      fun q hlead hshadow hq hopen => replayLimitExpiry_waits hlead hshadow hq hopen,
      fun n cl r hcluster hr hrecovers hidle hfull hempty => localisationTest_runs hcluster hr hrecovers hidle hfull hempty⟩⟩
  · rintro ⟨hlead, hjob, hrunning, hlive, hruns, hfirst, hstep, hall⟩ hclean
    obtain ⟨hdecided, hsent, hregs, hplaces⟩ := s.commitStep_effects (s.rcv.decided + 1)
    exact ⟨_, (execCommitDecision_decides hlead hjob hrunning hlive hruns hfirst hstep hall).1 hclean, hdecided, hsent, hregs,
      State.frame_of_places hplaces⟩
  · rintro ⟨hlead, hjob, hrunning, hlive, hruns, hfirst, hstep, hall⟩ hcaused hnone
    obtain ⟨hrcv, hplaces⟩ := s.awaitDecision_effects (s.rcv.decided + 1)
    exact ⟨_, (execCommitDecision_decides hlead hjob hrunning hlive hruns hfirst hstep hall).2 hcaused hnone, (congrArg Recov.decided hrcv).trans rfl,
      congrArg Recov.waits hrcv, State.frame_of_places hplaces⟩

end Sys2Proof.Machine
end

section
/-! The package boundary on a package of very many islands: the block of core-check registers of its last islands runs over the
Bocal's own registers, so that an island reset at the boundary clears BOC_T_NEXT (log entry 8 leaves the number of islands open). -/

namespace Sys2Proof.Machine

/-! ### What an island reset does to BOC_T_NEXT -/

/-- The island whose core-check registers lie over BOC_T_NEXT. -/
def strayIsland : Nat := 16777088

theorem aFltCoreChk_strayIsland : aFltCoreChk strayIsland 0 ≤ aBocTNext ∧ aBocTNext < aFltCoreChk strayIsland 960 := by decide

theorem aBocTNext_lt_islBase (n : Nat) : aBocTNext < islBase n :=
  Nat.lt_of_lt_of_le (by decide : aBocTNext < islBase 0) (by unfold islBase; omega)

theorem fkey_aBocTNext_div : fkey aBocTNext F.bocTNext_beat / 64 = aBocTNext := fkey_div (by decide)

theorem putQuarterKey_aBocTNext (n : Nat) : putQuarterKey n (fkey aBocTNext F.bocTNext_beat) = false := by
  have hlow := aBocTNext_lt_islBase n
  refine decide_eq_false fun h => ?_
  rw [fkey_aBocTNext_div] at h
  omega

/-- Clearing an island's registers keeps BOC_T_NEXT or clears it. -/
theorem State.tNext_clearIslandRegs (s : State) (n : Nat) :
    (s.clearIslandRegs n).getF aBocTNext F.bocTNext_beat =
      if s.resetCleared n (fkey aBocTNext F.bocTNext_beat) then 0 else s.getF aBocTNext F.bocTNext_beat := by
  rw [s.getF_clearIslandRegs, putQuarterKey_aBocTNext]
  cases s.resetCleared n (fkey aBocTNext F.bocTNext_beat) <;> rfl

theorem State.resetCleared_strayIsland (s : State) : s.resetCleared strayIsland (fkey aBocTNext F.bocTNext_beat) = true := by
  unfold State.resetCleared
  rw [fkey_aBocTNext_div, Bool.or_eq_true]
  exact Or.inr (decide_eq_true aFltCoreChk_strayIsland)

theorem State.tNext_resetIsland (s : State) (n : Nat) :
    ∃ x : State, (s.resetIsland n).getF aBocTNext F.bocTNext_beat = (x.clearIslandRegs n).getF aBocTNext F.bocTNext_beat ∧
      x.getF aBocTNext F.bocTNext_beat = s.getF aBocTNext F.bocTNext_beat := by
  have hlow := aBocTNext_lt_islBase n
  obtain ⟨x, heq, v, hregs⟩ := s.getF_resetIsland n aBocTNext F.bocTNext_beat
  refine ⟨x, heq.trans ?_, ?_⟩
  · exact (State.getF_setF_apart _ F.islReset_pending F.bocTNext_beat 0 (by unfold aIslReset; omega) (by decide) (by decide)).trans
      (State.getF_setF_apart _ F.islBreath_state F.bocTNext_beat 0 (by unfold aIslBreath; omega) (by decide) (by decide))
  · rw [State.getF, hregs]
    exact State.getF_setF_apart s F.gmuTrack_open F.bocTNext_beat v (by decide) (by decide) (by decide)

/-- The reset of the island over BOC_T_NEXT clears it. -/
theorem State.tNext_resetIsland_stray (s : State) : (s.resetIsland strayIsland).getF aBocTNext F.bocTNext_beat = 0 := by
  obtain ⟨x, heq, -⟩ := s.tNext_resetIsland strayIsland
  rw [heq, x.tNext_clearIslandRegs, x.resetCleared_strayIsland, if_pos rfl]

/-- No island reset sets BOC_T_NEXT again. -/
theorem State.tNext_resetIsland_zero {s : State} (h : s.getF aBocTNext F.bocTNext_beat = 0) (n : Nat) :
    (s.resetIsland n).getF aBocTNext F.bocTNext_beat = 0 := by
  obtain ⟨x, heq, hx⟩ := s.tNext_resetIsland n
  rw [heq, x.tNext_clearIslandRegs, hx, h, ite_self]

theorem State.tNext_resets_zero (l : List Nat) {s : State} (h : s.getF aBocTNext F.bocTNext_beat = 0) :
    (l.foldl State.resetIsland s).getF aBocTNext F.bocTNext_beat = 0 := by
  induction l generalizing s with
  | nil => exact h
  | cons n l ih => exact ih (State.tNext_resetIsland_zero h n)

theorem State.tNext_resets_stray {l : List Nat} (h : strayIsland ∈ l) (s : State) :
    (l.foldl State.resetIsland s).getF aBocTNext F.bocTNext_beat = 0 := by
  obtain ⟨l₁, l₂, rfl⟩ := List.append_of_mem h
  rw [List.foldl_append, List.foldl_cons]
  exact State.tNext_resets_zero l₂ (State.tNext_resetIsland_stray _)

/-! ### The boundary of a package with no patch and no commit due -/

/-- What the boundary drops of the patch lists. -/
def State.clearPatchLists (s : State) : State := (List.range numPorts).foldl (fun s p => s.clearSpan (aPatchList p 0) (8 * 4096)) s

theorem aPatchList_end_lt {p : Nat} (hp : p < numPorts) : aPatchList p 0 + 8 * 4096 < fltBase := by
  unfold numPorts at hp
  unfold aPatchList prtBase fltBase
  omega

theorem State.getF_clearPatchLists (s : State) {b : Nat} {g : Fld} (hb : fltBase < b) (hg : g.lo < 64) :
    s.clearPatchLists.getF b g = s.getF b g := by
  unfold State.clearPatchLists
  refine List.foldlRecOn (motive := fun t : State => t.getF b g = s.getF b g) _ _ rfl fun t ih p hp => ?_
  have hend := aPatchList_end_lt (List.mem_range.mp hp)
  exact (t.getF_clearSpan_apart (Or.inr (by omega)) hg).trans ih

theorem State.fab_clearPatchLists (s : State) : s.clearPatchLists.fab = s.fab :=
  State.foldl_frame State.fab (f := fun (s : State) p => s.clearSpan (aPatchList p 0) (8 * 4096)) _ (fun _ _ => rfl) s

theorem State.applyPatches_none {s : State} (h : s.fab.patches = []) : s.applyPatches = s.clearPatchLists := by
  have hactive : s.clearPatchLists.activePatches = [] := by
    rw [State.activePatches, State.fab_clearPatchLists, h]
    rfl
  have hfold : (List.range numPorts).foldl (fun s p => s.clearSpan (aPatchList p 0) (8 * 4096)) s = s.clearPatchLists := rfl
  simp only [State.applyPatches, hfold, hactive, List.foldl_nil]

/-- The package at its boundary: the breath is taken and the islands of the list are reset. -/
def State.resetAtBoundary (s : State) : State :=
  let t : State := { s with brt := { s.brt with taken := true } }
  (t.allIslands.filter fun n => t.flag (aIslReset n) F.islReset_pending).foldl (fun s n => s.resetIsland n) t

theorem State.resetAtBoundary_frame {β : Type} (g : State → β) (hregs : ∀ s x, g { s with regs := x } = g s)
    (hunits : ∀ s x y z, g { s with cores := x, clusters := y, islands := z } = g s) (hgmu : ∀ s x, g { s with gmu := x } = g s)
    (s : State) : g s.resetAtBoundary = g { s with brt := { s.brt with taken := true } } :=
  State.foldl_frame g _ (fun t n => t.resetIsland_frame g hregs hunits hgmu n) _

theorem State.brt_resetAtBoundary (s : State) : s.resetAtBoundary.brt = { s.brt with taken := true } :=
  s.resetAtBoundary_frame State.brt (fun _ _ => rfl) (fun _ _ _ _ => rfl) (fun _ _ => rfl)

theorem State.fab_resetAtBoundary (s : State) : s.resetAtBoundary.fab = s.fab :=
  s.resetAtBoundary_frame State.fab (fun _ _ => rfl) (fun _ _ _ _ => rfl) (fun _ _ => rfl)

/-- What the boundary shows last: the setpoint, a withdrawal, the units, the ports and the health. -/
def State.showBoundary (s : State) : State := s.showPending.tryWithdraw.showUnits.updatePorts.updateHealth

theorem aTimTrig_ne_aFltHealth : ∀ k < 8, aTimTrig ≠ aFltHealth k := fun k _ => by unfold aTimTrig timBase aFltHealth fltBase; omega

theorem State.getF_showBoundary (s : State) : s.showBoundary.getF aTimTrig F.timTrig_beat = s.getF aTimTrig F.timTrig_beat :=
  calc s.showPending.tryWithdraw.showUnits.updatePorts.updateHealth.getF aTimTrig F.timTrig_beat
    _ = s.showPending.tryWithdraw.showUnits.updatePorts.getF aTimTrig F.timTrig_beat :=
      State.getF_updateHealth _ aTimTrig_ne_aFltHealth (by decide) (by decide)
    _ = s.showPending.tryWithdraw.showUnits.getF aTimTrig F.timTrig_beat := State.getF_setFs_elsewhere _ (by decide) rfl (by decide)
    _ = s.showPending.tryWithdraw.getF aTimTrig F.timTrig_beat := State.getF_showUnits _ (by decide) (by decide)
    _ = s.showPending.getF aTimTrig F.timTrig_beat := s.showPending.tryWithdraw_effects.1.read (by decide) (by decide)
    _ = s.getF aTimTrig F.timTrig_beat := State.getF_setF_apart s _ _ _ (by decide) (by decide) (by decide)

theorem State.brt_clearPatchLists (s : State) : s.clearPatchLists.brt = s.brt :=
  State.foldl_frame State.brt (f := fun (s : State) p => s.clearSpan (aPatchList p 0) (8 * 4096)) _ (fun _ _ => rfl) s

theorem State.takeBoundary_inside {s : State} (hstep : entStepEnd s.curEntry = false) (hlast : entLast s.curEntry = false)
    (hcommit : s.rcv.toCommit = none) (hstop : s.brt.stopping = false) (hpatches : s.fab.patches = []) :
    s.takeBoundary = (s.resetAtBoundary.clearPatchLists.armTrigger s.resetAtBoundary.clearPatchLists.tNext.toNat).showBoundary := by
  have htake : State.takeCommit { s with brt := { s.brt with taken := true } } = { s with brt := { s.brt with taken := true } } :=
    State.takeCommit_none hcommit
  have hresets : (State.allIslands { s with brt := { s.brt with taken := true } } |>.filter fun n =>
      State.flag { s with brt := { s.brt with taken := true } } (aIslReset n) F.islReset_pending).foldl (fun s n => s.resetIsland n)
      { s with brt := { s.brt with taken := true } } = s.resetAtBoundary := rfl
  have hclear : s.resetAtBoundary.applyPatches = s.resetAtBoundary.clearPatchLists :=
    State.applyPatches_none (by rw [s.fab_resetAtBoundary, hpatches])
  have hstill : (s.resetAtBoundary.clearPatchLists.armTrigger s.resetAtBoundary.clearPatchLists.tNext.toNat).brt.stopping = false := by
    obtain ⟨-, -, hbrt, -⟩ := s.resetAtBoundary.clearPatchLists.armTrigger_effects s.resetAtBoundary.clearPatchLists.tNext.toNat
    rw [hbrt, State.brt_clearPatchLists, State.brt_resetAtBoundary]
    exact hstop
  simp only [State.takeBoundary, hstep, hlast, Bool.false_eq_true, and_false, false_and, if_false, htake, hresets, hclear, hstill]
  rfl

/-- The boundary arms the trigger with what the resets have left of BOC_T_NEXT. -/
theorem State.timTrig_takeBoundary {s : State} (hstep : entStepEnd s.curEntry = false) (hlast : entLast s.curEntry = false)
    (hcommit : s.rcv.toCommit = none) (hstop : s.brt.stopping = false) (hpatches : s.fab.patches = [])
    (hcleared : s.resetAtBoundary.getF aBocTNext F.bocTNext_beat = 0) : s.takeBoundary.getF aTimTrig F.timTrig_beat = 0 := by
  rw [State.takeBoundary_inside hstep hlast hcommit hstop hpatches, State.getF_showBoundary, (State.armTrigger_effects ..).1,
    State.tNext, State.getF_clearPatchLists _ (by decide) (by decide), hcleared]
  rfl

/-! ### A package of very many islands -/

/-- The registers of a package whose islands below `m` have completed their breath: a reset of the island over BOC_T_NEXT is pending,
and the next start is at beat 5. -/
def crowdedRegs (m : Nat) : Tbl Nat :=
  (fkey (aIslReset strayIsland) F.islReset_pending, 1) :: (fkey aBocTNext F.bocTNext_beat, 5) ::
    (List.range m).map fun n => (fkey (aIslBreath n) F.islBreath_complete, 1)

/-- A package of `k` islands in each field that runs a breath and has come to its boundary. -/
def crowded (k : Nat) : State :=
  { State.reset with
    regs := crowdedRegs (8 * k)
    boc := { State.reset.boc with force := some k }
    brt := { State.reset.brt with running := true, job := true, examined := true } }

theorem Tbl.get_map_one {d : Nat} {key : Nat → Nat} {l : List Nat} {n : Nat} (h : n ∈ l) :
    Tbl.get d (l.map fun n => (key n, 1)) (key n) = 1 := by
  induction l with
  | nil => exact absurd h List.not_mem_nil
  | cons m l ih =>
    rw [List.map_cons, Tbl.get]
    split
    · rfl
    · next hne => exact ih ((List.mem_cons.mp h).resolve_left fun heq => hne (congrArg key heq.symm))

theorem aIslReset_ne_aIslBreath (n m : Nat) : aIslReset n ≠ aIslBreath m := by unfold aIslReset aIslBreath islBase; omega

theorem aBocTNext_ne_aIslBreath (n : Nat) : aBocTNext ≠ aIslBreath n := Nat.ne_of_lt (aBocTNext_lt_islBase n)

theorem getF_crowded_complete {k n : Nat} (h : n < 8 * k) : (crowded k).getF (aIslBreath n) F.islBreath_complete = 1 := by
  have hstray : fkey (aIslReset strayIsland) F.islReset_pending ≠ fkey (aIslBreath n) F.islBreath_complete :=
    fkey_ne_of_addr (aIslReset_ne_aIslBreath strayIsland n) (by decide) (by decide)
  have hnext : fkey aBocTNext F.bocTNext_beat ≠ fkey (aIslBreath n) F.islBreath_complete :=
    fkey_ne_of_addr (aBocTNext_ne_aIslBreath n) (by decide) (by decide)
  change Tbl.get 0 (crowdedRegs (8 * k)) _ ^^^ 0 = 1
  rw [crowdedRegs, Tbl.get, if_neg hstray, Tbl.get, if_neg hnext,
    Tbl.get_map_one (key := fun n => fkey (aIslBreath n) F.islBreath_complete) (List.mem_range.mpr h)]
  rfl

theorem flag_crowded_stray (k : Nat) : (crowded k).flag (aIslReset strayIsland) F.islReset_pending = true := by
  have hget : Tbl.get 0 (crowdedRegs (8 * k)) (fkey (aIslReset strayIsland) F.islReset_pending) = 1 := by rw [crowdedRegs, Tbl.get, if_pos rfl]
  have hone : (crowded k).getF (aIslReset strayIsland) F.islReset_pending = 1 := congrArg (· ^^^ 0) hget
  rw [State.flag, hone]
  decide

theorem getF_crowded_tNext (k : Nat) : (crowded k).getF aBocTNext F.bocTNext_beat = 5 := by
  have hget : Tbl.get 0 (crowdedRegs (8 * k)) (fkey aBocTNext F.bocTNext_beat) = 5 := by
    rw [crowdedRegs, Tbl.get, if_neg (by decide), Tbl.get, if_pos rfl]
  exact congrArg (· ^^^ 0) hget

/-- The registers below the islands' have their reset values, but for BOC_T_NEXT. -/
theorem getF_crowded_below (k : Nat) {b : Nat} {g : Fld} (hb : b < islBase 0) (hne : b ≠ aBocTNext) (hg : g.lo < 64) :
    (crowded k).getF b g = g.reset := by
  have hmem : fkey b g ∉ (crowdedRegs (8 * k)).map Prod.fst := by
    intro h
    have hdiv := fkey_div (b := b) hg
    simp only [crowdedRegs, List.map_cons, List.map_map, List.mem_cons, List.mem_map, List.mem_range, Function.comp_apply] at h
    rcases h with h | h | ⟨n, -, h⟩
    · rw [h, fkey_div (by decide)] at hdiv
      unfold aIslReset islBase at hdiv
      unfold islBase at hb
      omega
    · exact hne (hdiv.symm.trans (by rw [h, fkey_aBocTNext_div]))
    · rw [← h, fkey_div (by decide)] at hdiv
      unfold aIslBreath islBase at hdiv
      unfold islBase at hb
      omega
  have hget := Tbl.get_of_notMem_keys 0 hmem
  exact (congrArg (· ^^^ g.reset) hget).trans (Nat.zero_xor _)

theorem curEntry_crowded (k : Nat) : (crowded k).curEntry = 0 := by
  have hbytes : (crowded k).readBytes ((crowded k).getF aBocBtable F.bocBtable_base * 32 + 32 * (crowded k).brt.entry) 32 =
      List.replicate 32 0 := rfl
  rw [State.curEntry, State.breathEntry, State.readNat, hbytes]
  rfl

theorem nextEntry_crowded (k : Nat) : (crowded k).breathEntry (crowded k).brt.nextEntry = 0 := by
  have hbytes : (crowded k).readBytes ((crowded k).getF aBocBtable F.bocBtable_base * 32 + 32 * (crowded k).brt.nextEntry) 32 =
      List.replicate 32 0 := rfl
  rw [State.breathEntry, State.readNat, hbytes]
  rfl

theorem loadsFinished_crowded (k : Nat) : (crowded k).loadsFinished = true := by
  have htotal : (crowded k).loadTotal = 0 := by rw [State.loadTotal, nextEntry_crowded]; rfl
  rw [State.loadsFinished, htotal]
  rfl

theorem setpointSettled_crowded (k : Nat) : (crowded k).setpointSettled = true := by
  have himage : (crowded k).hasImage = false := by
    rw [State.hasImage, State.flag, getF_crowded_below k (by decide) (by decide) (by decide)]
    rfl
  have hnamed : (crowded k).namedSetpoint = 0 := by simp only [State.namedSetpoint, himage, Bool.not_false, if_true]
  have hrequest : (crowded k).getF aBocSetpoint F.bocSetpoint_request = 0 :=
    getF_crowded_below k (by decide) (by decide) (by decide)
  have hjob : (crowded k).brt.job = true := rfl
  have hnone : (crowded k).stopTarget = none := by
    simp only [State.stopTarget, hnamed, hrequest, hjob, ne_eq, not_true, if_false, Bool.not_true, Bool.false_eq_true, false_and]
  rw [State.setpointSettled, hnone]
  rfl

theorem exec_packageBoundary_crowded (k : Nat) : exec .packageBoundary (crowded k) = .next (crowded k).takeBoundary := by
  have hcomplete : ((crowded k).allIslands.all fun n =>
      !(crowded k).incomplete n && ((crowded k).island n).taken.all fun p => p.2.all fun f => f.old || f.arrived) = true := by
    refine List.all_eq_true.mpr fun n hn => ?_
    have hn' : n < 8 * k := List.mem_range.mp hn
    have htaken : ((crowded k).island n).taken = [] := rfl
    rw [State.incomplete, State.flag, getF_crowded_complete hn', htaken]
    rfl
  have hopen : (crowded k).getF aGmuTrack F.gmuTrack_open = 0 := getF_crowded_below k (by decide) (by decide) (by decide)
  have hbrt : (crowded k).brt.running = true ∧ (crowded k).brt.taken = false ∧ (crowded k).brt.aborted = false ∧
      (crowded k).brt.examined = true := ⟨rfl, rfl, rfl, rfl⟩
  obtain ⟨hrun, htaken, habort, hexam⟩ := hbrt
  rw [exec_packageBoundary]
  simp only [execPackageBoundary, hcomplete, hrun, htaken, habort, hexam, hopen, loadsFinished_crowded, setpointSettled_crowded,
    Bool.not_true, Bool.or_self, Bool.false_eq_true, if_true, if_false, ne_eq, not_true, or_self, or_true, and_self]

theorem tNext_resetAtBoundary_crowded {k : Nat} (h : strayIsland < 8 * k) :
    (crowded k).resetAtBoundary.getF aBocTNext F.bocTNext_beat = 0 :=
  State.tNext_resets_stray (List.mem_filter.mpr ⟨List.mem_range.mpr h, flag_crowded_stray k⟩) _

theorem timTrig_takeBoundary_crowded {k : Nat} (h : strayIsland < 8 * k) : (crowded k).takeBoundary.getF aTimTrig F.timTrig_beat = 0 := by
  refine State.timTrig_takeBoundary ?_ ?_ rfl rfl rfl (tNext_resetAtBoundary_crowded h)
  · rw [curEntry_crowded]
    rfl
  · rw [curEntry_crowded]
    rfl

/-- Refutes O24: on a package of 2097137 islands in each field the reset of island 16777088 at the boundary clears BOC_T_NEXT with the
core-check registers that lie over it, and the trigger is armed for beat 0 and not for the beat 5 that BOC_T_NEXT held. -/
theorem not_breathsBoundariesAndStarts : ¬ Obligations.BreathsBoundariesAndStarts := by
  unfold Obligations.BreathsBoundariesAndStarts
  intro h
  obtain ⟨-, hboundary, -⟩ := h (crowded 2097137)
  have hlast : entLast (crowded 2097137).curEntry = false := by rw [curEntry_crowded]; rfl
  obtain ⟨t, ht, -, -, harm⟩ := hboundary rfl rfl rfl rfl (Or.inl rfl)
    (fun n hn => ⟨getF_crowded_complete hn, fun p hp => absurd hp List.not_mem_nil⟩)
    (getF_crowded_below _ (by decide) (by decide) (by decide)) (Or.inr (loadsFinished_crowded _)) (setpointSettled_crowded _)
  obtain rfl : (crowded 2097137).takeBoundary = t := Host.Outcome.next.inj ((exec_packageBoundary_crowded _).symm.trans ht)
  have hbeat := (harm hlast rfl).2
  rw [timTrig_takeBoundary_crowded (by decide), State.tNext, getF_crowded_tNext] at hbeat
  exact absurd hbeat (by decide)

end Sys2Proof.Machine
end

section
/-! The stream engines (R256 to R266): a descriptor's begin and end, moves of a line, trees of a tile, syncs, ends and completions. -/

namespace Sys2Proof.Machine

/-! ### An engine's registers and its own state -/

@[simp] theorem State.engine_setEngine_same (s : State) (e : Nat) (x : Engine) : (s.setEngine e x).engine e = x := Tbl.get_set_same ..

theorem aStmMoved_ne_stmA (e : Nat) : aStmMoved (e / 16) (e % 16) ≠ stmA e := by unfold aStmMoved stmA aStmStatus; omega

theorem aStmWaited_ne_stmA (e : Nat) : aStmWaited (e / 16) (e % 16) ≠ stmA e := by unfold aStmWaited stmA aStmStatus; omega

theorem aStmCtr_ne_stmA {c : Nat} (loc e : Nat) (hc : c < 256) : aStmCtr loc c ≠ stmA e := by
  unfold aStmCtr stmA aStmStatus fldBase
  omega

theorem stmA_lt_bocBase {e : Nat} (he : e < 128) : stmA e < bocBase := by
  unfold stmA aStmStatus fldBase bocBase
  omega

/-- The descriptor an engine executes follows its list and its index. -/
theorem State.desc_congr {s t : State} {e : Nat} (hlist : t.tier.descs = s.tier.descs) (hindex : t.stmIndex e = s.stmIndex e) :
    t.desc e = s.desc e := by
  rw [State.desc, State.desc, hlist, hindex]

/-! ### A descriptor begins and is left -/

/-- The engine has begun its descriptor (R259). -/
def State.stmBegun (s : State) (e : Nat) : State :=
  (s.setEngine e { s.engine e with begun := true }).setF (stmA e) F.stmStatus_state 1

theorem State.stmBegin_run {s : State} {e : Nat} (hbegun : (s.engine e).begun = false) (hgood : s.descReserved (s.desc e) = false)
    (hmet : s.waitMet (s.desc e) = true) (run : State → State) : s.stmBegin e run = run (s.stmBegun e) := by
  simp only [State.stmBegin, hbegun, hgood, hmet, Bool.false_eq_true, if_false, if_true]
  rfl

theorem State.stmBegin_wait {s : State} {e : Nat} (hbegun : (s.engine e).begun = false) (hgood : s.descReserved (s.desc e) = false)
    (hshort : s.waitMet (s.desc e) = false) (run : State → State) : s.stmBegin e run =
      (s.setF (stmA e) F.stmStatus_state 2).bump (aStmWaited (e / 16) (e % 16)) F.stmWaited_cycles 1 := by
  simp only [State.stmBegin, hbegun, hgood, hshort, Bool.false_eq_true, if_false]

theorem State.stmReady_of {s : State} {e op : Nat} (hruns : s.stmRuns e = true) (hparked : (s.engine e).parked = false)
    (hop : dOp (s.desc e) = op) : s.stmReady e op = true := by
  rw [State.stmReady, hruns, hparked, hop, decide_eq_true rfl]
  rfl

theorem State.stmIndex_stmBegun (s : State) (e : Nat) : (s.stmBegun e).stmIndex e = s.stmIndex e :=
  State.getF_setF_beside _ (stmA e) F.stmStatus_state F.stmStatus_index 1 (by decide)

theorem State.desc_stmBegun (s : State) (e : Nat) : (s.stmBegun e).desc e = s.desc e := State.desc_congr rfl (s.stmIndex_stmBegun e)

theorem State.engine_stmBegun (s : State) (e : Nat) : (s.stmBegun e).engine e = { s.engine e with begun := true } :=
  s.engine_setEngine_same e _

theorem State.regsBut_stmBegun (s : State) (e : Nat) {l : List (Nat × Fld)} (hl : (stmA e, F.stmStatus_state) ∈ l) :
    s.regsBut (s.stmBegun e) l :=
  State.regsBut.setF (t := s.setEngine e { s.engine e with begun := true }) (fun _ _ _ => rfl) hl 1

theorem State.getF_stmBegun (s : State) {e b : Nat} {g : Fld} (hb : b ≠ stmA e) (hg : g.lo < 64) : (s.stmBegun e).getF b g = s.getF b g :=
  State.getF_setF_apart _ F.stmStatus_state g 1 hb (by decide) hg

theorem State.engine_stmNext (s : State) (e : Nat) : (s.stmNext e).engine e = { s.engine e with begun := false, parts := 0 } :=
  s.engine_setEngine_same e _

theorem State.stmIndex_stmNext (s : State) (e : Nat) :
    (s.stmNext e).getF (stmA e) F.stmStatus_index = (s.stmIndex e + 1) % 2 ^ F.stmStatus_index.width :=
  (State.getF_setF_beside _ (stmA e) F.stmStatus_state F.stmStatus_index _ (by decide)).trans (State.getF_setF_same ..)

theorem State.regsBut_stmNext {s t : State} {e : Nat} {l : List (Nat × Fld)} (h : s.regsBut t l)
    (hindex : (stmA e, F.stmStatus_index) ∈ l) (hstate : (stmA e, F.stmStatus_state) ∈ l) : s.regsBut (t.stmNext e) l :=
  State.regsBut.setF (State.regsBut.setF (t := t.setEngine e { t.engine e with begun := false, parts := 0 }) h hindex _) hstate _

theorem State.getF_stmNext (s : State) {e b : Nat} {g : Fld} (hb : b ≠ stmA e) (hg : g.lo < 64) : (s.stmNext e).getF b g = s.getF b g :=
  (State.getF_setF_apart _ F.stmStatus_state g _ hb (by decide) hg).trans (State.getF_setF_apart _ F.stmStatus_index g _ hb (by decide) hg)

/-! ### Signals -/

theorem descSignal_none {d : Nat} (h : dSkind d = 0) : descSignal d = [] := if_pos h

theorem descSignal_staging {d : Nat} (h : dSkind d = 1) :
    descSignal d = [{ kind := 1, ctr := dSctr d, loc := dSloc d, amt := (BitVec.ofNat 12 (dSamt d)).signExtend 32 }] := by
  rw [descSignal, h]
  rfl

theorem State.applySignal_staging (s : State) {g : Signal} (h : g.kind = 1) :
    s.applySignal g = s.wrapAdd (aStmCtr g.loc g.ctr) F.stmCtr_value g.amt.toNat := by
  simp only [State.applySignal, h]

/-- What an engine's own actions leave as it is: cores, switches, islands and memory. -/
structure State.EngineActs (s t : State) : Prop where
  islands : s.sameIslands t
  memory  : s.sameMemory t
  descs   : t.tier.descs = s.tier.descs

theorem State.EngineActs.trans {s t u : State} (h : s.EngineActs t) (k : t.EngineActs u) : s.EngineActs u := by
  obtain ⟨⟨hcores, hclusters, hislands⟩, ⟨hmem, htags, hbad⟩, hdescs⟩ := h
  obtain ⟨⟨hcores', hclusters', hislands'⟩, ⟨hmem', htags', hbad'⟩, hdescs'⟩ := k
  exact ⟨⟨hcores'.trans hcores, hclusters'.trans hclusters, hislands'.trans hislands⟩,
    ⟨hmem'.trans hmem, htags'.trans htags, hbad'.trans hbad⟩, hdescs'.trans hdescs⟩

theorem State.engineActs_refl (s : State) : s.EngineActs s := ⟨⟨rfl, rfl, rfl⟩, ⟨rfl, rfl, rfl⟩, rfl⟩

theorem State.engineActs_setEngine (s : State) (e : Nat) (x : Engine) : s.EngineActs (s.setEngine e x) :=
  ⟨⟨rfl, rfl, rfl⟩, ⟨rfl, rfl, rfl⟩, rfl⟩

theorem State.engineActs_setF (s : State) (a : Nat) (f : Fld) (v : Nat) : s.EngineActs (s.setF a f v) :=
  ⟨⟨rfl, rfl, rfl⟩, ⟨rfl, rfl, rfl⟩, rfl⟩

theorem State.engineActs_stmBegun (s : State) (e : Nat) : s.EngineActs (s.stmBegun e) := ⟨⟨rfl, rfl, rfl⟩, ⟨rfl, rfl, rfl⟩, rfl⟩

theorem State.engineActs_stmNext (s : State) (e : Nat) : s.EngineActs (s.stmNext e) := ⟨⟨rfl, rfl, rfl⟩, ⟨rfl, rfl, rfl⟩, rfl⟩

/-- A descriptor without a signal leaves those that wait as they are. -/
structure State.Silent (s t : State) (e : Nat) : Prop where
  acts   : s.EngineActs t
  regs   : t.regs = s.regs
  engine : t.engine e = s.engine e

theorem State.giveSignal_silent (s : State) (e : Nat) : s.Silent (s.giveSignal e [] true) e := by
  unfold State.giveSignal
  extract_lets x
  split
  · exact ⟨s.engineActs_refl, rfl, rfl⟩
  · exact ⟨s.engineActs_setEngine e _, rfl, (s.engine_setEngine_same e _).trans (by rw [List.append_nil])⟩

theorem State.giveSignal_now {s : State} {e : Nat} (h : (s.engine e).signals = []) (l : List Signal) :
    s.giveSignal e l true = l.foldl State.applySignal s := by
  simp only [State.giveSignal, h, List.isEmpty_nil, and_self, if_true]

/-! ### Syncs (R258, R259) -/

section
variable {s : State} {e : Nat} (he : e < 128) (hruns : s.stmRuns e = true) (hparked : (s.engine e).parked = false)
  (hbegun : (s.engine e).begun = false) (hgood : s.descReserved (s.desc e) = false)
include he hruns hparked hbegun hgood

theorem exec_stmSync_met (hop : dOp (s.desc e) = 3) (hmet : s.waitMet (s.desc e) = true) :
    exec (.stmSync e) s = .next (((s.stmBegun e).giveSignal e (descSignal (s.desc e)) true).stmNext e) := by
  rw [exec_stmSync]
  simp only [execStmSync, he, State.stmReady_of hruns hparked hop, State.stmBegin_run hbegun hgood hmet, State.desc_stmBegun, if_true]

theorem exec_stmSync_short (hop : dOp (s.desc e) = 3) (hshort : s.waitMet (s.desc e) = false) :
    exec (.stmSync e) s = .next ((s.setF (stmA e) F.stmStatus_state 2).bump (aStmWaited (e / 16) (e % 16)) F.stmWaited_cycles 1) := by
  rw [exec_stmSync]
  simp only [execStmSync, he, State.stmReady_of hruns hparked hop, State.stmBegin_wait hbegun hgood hshort, if_true]

/-- A sync whose wait is met and that signals nothing goes on to the next descriptor. -/
theorem stmSync_goesOn (hop : dOp (s.desc e) = 3) (hkind : dSkind (s.desc e) = 0) (hmet : s.waitMet (s.desc e) = true) :
    CompletesWith (exec (.stmSync e) s) fun t =>
      t.getF (stmA e) F.stmStatus_index = (s.stmIndex e + 1) % 2 ^ F.stmStatus_index.width ∧
      s.regsBut t [(stmA e, F.stmStatus_index), (stmA e, F.stmStatus_state)] ∧ s.sameIslands t ∧ s.sameMemory t := by
  obtain ⟨hacts, hregs, -⟩ := (s.stmBegun e).giveSignal_silent e
  have hget : ∀ b g, ((s.stmBegun e).giveSignal e [] true).getF b g = (s.stmBegun e).getF b g := fun b g => by
    rw [State.getF, State.getF, hregs]
  obtain ⟨hislands, hmemory, -⟩ := ((s.engineActs_stmBegun e).trans hacts).trans (State.engineActs_stmNext _ e)
  refine ⟨_, exec_stmSync_met he hruns hparked hbegun hgood hop hmet, ?_⟩
  rw [descSignal_none hkind]
  refine ⟨(State.stmIndex_stmNext _ e).trans ?_, State.regsBut_stmNext (fun b g hb => (hget b g).trans ?_) (by simp) (by simp),
    hislands, hmemory⟩
  · rw [State.stmIndex, hget, ← State.stmIndex, s.stmIndex_stmBegun]
  · exact s.regsBut_stmBegun e (by simp) b g hb

/-- A sync whose wait is met adds its signal at once to the staging counter it names (R260). -/
theorem stmSync_signals (hop : dOp (s.desc e) = 3) (hkind : dSkind (s.desc e) = 1) (hnone : (s.engine e).signals = [])
    (hmet : s.waitMet (s.desc e) = true) : CompletesWith (exec (.stmSync e) s) fun t =>
      t.getF (aStmCtr (dSloc (s.desc e)) (dSctr (s.desc e))) F.stmCtr_value =
        (s.getF (aStmCtr (dSloc (s.desc e)) (dSctr (s.desc e))) F.stmCtr_value +
          ((BitVec.ofNat 12 (dSamt (s.desc e))).signExtend 32).toNat) % 2 ^ 32 := by
  have hne : aStmCtr (dSloc (s.desc e)) (dSctr (s.desc e)) ≠ stmA e := aStmCtr_ne_stmA _ e (Nat.mod_lt _ (by decide))
  have hnone' : ((s.stmBegun e).engine e).signals = [] := by rw [s.engine_stmBegun, hnone]
  refine ⟨_, exec_stmSync_met he hruns hparked hbegun hgood hop hmet, ?_⟩
  beta_reduce
  rw [descSignal_staging hkind, State.giveSignal_now hnone', State.getF_stmNext _ hne (by decide), List.foldl_cons, List.foldl_nil,
    State.applySignal_staging _ rfl, State.wrapAdd, State.getF_setF_same, s.getF_stmBegun hne (by decide)]
  rfl

/-- A sync whose wait is short counts a field cycle (R259). -/
theorem stmSync_waits (hop : dOp (s.desc e) = 3) (hshort : s.waitMet (s.desc e) = false) : CompletesWith (exec (.stmSync e) s) fun t =>
      t.getF (stmA e) F.stmStatus_state = 2 ∧ t.getF (aStmWaited (e / 16) (e % 16)) F.stmWaited_cycles =
        raised F.stmWaited_cycles (s.getF (aStmWaited (e / 16) (e % 16)) F.stmWaited_cycles) 1 ∧
      t.tier = s.tier ∧ s.sameIslands t ∧ s.sameMemory t := by
  refine ⟨_, exec_stmSync_short he hruns hparked hbegun hgood hop hshort, ?_, ?_, rfl, ⟨rfl, rfl, rfl⟩, ⟨rfl, rfl, rfl⟩⟩
  · exact (State.getF_setF_apart _ _ _ _ (aStmWaited_ne_stmA e).symm (by decide) (by decide)).trans (State.getF_setF_same ..)
  · rw [State.getF_bump_same, State.getF_setF_apart _ _ _ _ (aStmWaited_ne_stmA e) (by decide) (by decide)]

/-! ### Ends and start credits (R258, R261) -/

theorem exec_stmEnd_met (hop : dOp (s.desc e) = 0) (hkind : dSkind (s.desc e) = 0) (hmet : s.waitMet (s.desc e) = true) :
    ∃ t, (s.stmBegun e).Silent t e ∧ exec (.stmEnd e) s =
      .next (((t.setEngine e { t.engine e with parked := true, begun := false }).setF (stmA e) F.stmStatus_state 0).takeCredit e) := by
  refine ⟨_, (s.stmBegun e).giveSignal_silent e, ?_⟩
  rw [exec_stmEnd]
  simp only [execStmEnd, he, hparked, State.stmReady_of hruns hparked hop, State.stmBegin_run hbegun hgood hmet, State.desc_stmBegun,
    descSignal_none hkind, Bool.false_eq_true, and_false, if_true, if_false]

end

theorem State.takeCredit_none {s : State} {e : Nat} (h : s.getF (stmA e) F.stmStatus_credits = 0) : s.takeCredit e = s := by
  simp only [State.takeCredit, h, ne_eq, not_true, and_false, if_false]

/-- The engine has taken a credit and is at its entry. -/
def State.continued (s : State) (e : Nat) : State :=
  (s.setEngine e { s.engine e with parked := false, begun := false, parts := 0 }).setFs (stmA e)
    [(F.stmStatus_credits, s.getF (stmA e) F.stmStatus_credits - 1), (F.stmStatus_index, (s.engine e).entry)]

theorem State.takeCredit_some {s : State} {e : Nat} (hparked : (s.engine e).parked = true)
    (h : s.getF (stmA e) F.stmStatus_credits ≠ 0) :
    s.takeCredit e = (s.continued e).setF (stmA e) F.stmStatus_state (if dOp ((s.continued e).desc e) = 0 then 0 else 1) :=
  if_pos ⟨hparked, h⟩

theorem State.engine_continued (s : State) (e : Nat) :
    (s.continued e).engine e = { s.engine e with parked := false, begun := false, parts := 0 } := s.engine_setEngine_same e _

theorem State.continued_nodup (s : State) (e : Nat) :
    ([(F.stmStatus_credits, s.getF (stmA e) F.stmStatus_credits - 1), (F.stmStatus_index, (s.engine e).entry)].map
      fun p => p.1.lo).Nodup := by simp [F.stmStatus_credits, F.stmStatus_index]

theorem State.stmIndex_continued {s : State} {e : Nat} (hentry : (s.engine e).entry < 1024) :
    (s.continued e).stmIndex e = (s.engine e).entry :=
  (State.getF_setFs_mem (s.continued_nodup e) (List.mem_cons_of_mem _ List.mem_cons_self) _).trans (Nat.mod_eq_of_lt hentry)

theorem State.credits_continued {s : State} {e : Nat} (hcredits : s.getF (stmA e) F.stmStatus_credits < 16) :
    (s.continued e).getF (stmA e) F.stmStatus_credits = s.getF (stmA e) F.stmStatus_credits - 1 :=
  (State.getF_setFs_mem (s.continued_nodup e) List.mem_cons_self _).trans
    (Nat.mod_eq_of_lt (Nat.lt_of_le_of_lt (Nat.sub_le _ 1) hcredits))

/-- A parked engine that holds a start credit takes it and continues at its entry (R261). -/
theorem State.takeCredit_continues {s : State} {e : Nat} (hparked : (s.engine e).parked = true)
    (h : s.getF (stmA e) F.stmStatus_credits ≠ 0) (hcredits : s.getF (stmA e) F.stmStatus_credits < 16)
    (hentry : (s.engine e).entry < 1024) :
    (s.takeCredit e).getF (stmA e) F.stmStatus_state = (if dOp ((s.takeCredit e).desc e) = 0 then 0 else 1) ∧
      ((s.takeCredit e).engine e).parked = false ∧ (s.takeCredit e).stmIndex e = (s.engine e).entry ∧
      (s.takeCredit e).getF (stmA e) F.stmStatus_credits = s.getF (stmA e) F.stmStatus_credits - 1 := by
  rw [State.takeCredit_some hparked h]
  generalize hv : (if dOp ((s.continued e).desc e) = 0 then 0 else 1) = v
  have hindex : ((s.continued e).setF (stmA e) F.stmStatus_state v).stmIndex e = (s.continued e).stmIndex e :=
    State.getF_setF_beside _ (stmA e) F.stmStatus_state F.stmStatus_index v (by decide)
  have hdesc : ((s.continued e).setF (stmA e) F.stmStatus_state v).desc e = (s.continued e).desc e := State.desc_congr rfl hindex
  have hlt : v % 2 ^ F.stmStatus_state.width = v := Nat.mod_eq_of_lt (by rw [← hv]; split <;> decide)
  refine ⟨?_, ?_, hindex.trans (State.stmIndex_continued hentry), ?_⟩
  · rw [State.getF_setF_same, hlt, hdesc, hv]
  · exact congrArg Engine.parked (s.engine_continued e)
  · exact (State.getF_setF_beside _ (stmA e) F.stmStatus_state F.stmStatus_credits v (by decide)).trans (State.credits_continued hcredits)

theorem State.engineActs_takeCredit (s : State) (e : Nat) : s.EngineActs (s.takeCredit e) := by
  unfold State.takeCredit
  extract_lets c x
  split
  · exact ⟨⟨rfl, rfl, rfl⟩, ⟨rfl, rfl, rfl⟩, rfl⟩
  · exact s.engineActs_refl

/-- An engine at an end without a signal waits for a start credit, or takes the one it holds. -/
theorem stmEnd_parksOrContinues {s : State} {e : Nat} (he : e < 128) (hruns : s.stmRuns e = true)
    (hparked : (s.engine e).parked = false) (hbegun : (s.engine e).begun = false) (hgood : s.descReserved (s.desc e) = false)
    (hcredits : s.getF (stmA e) F.stmStatus_credits < 16) (hentry : (s.engine e).entry < 1024)
    (hop : dOp (s.desc e) = 0) (hkind : dSkind (s.desc e) = 0) (hmet : s.waitMet (s.desc e) = true) :
    CompletesWith (exec (.stmEnd e) s) fun t =>
      (s.getF (stmA e) F.stmStatus_credits = 0 → t.getF (stmA e) F.stmStatus_state = 0 ∧ (t.engine e).parked = true) ∧
      (s.getF (stmA e) F.stmStatus_credits ≠ 0 →
        t.getF (stmA e) F.stmStatus_state = (if dOp (t.desc e) = 0 then 0 else 1) ∧ (t.engine e).parked = false ∧
        t.stmIndex e = (s.engine e).entry ∧ t.getF (stmA e) F.stmStatus_credits = s.getF (stmA e) F.stmStatus_credits - 1) ∧
      s.sameIslands t ∧ s.sameMemory t := by
  obtain ⟨t, ⟨hacts, hregs, hengine⟩, hexec⟩ := exec_stmEnd_met he hruns hparked hbegun hgood hop hkind hmet
  let u := (t.setEngine e { t.engine e with parked := true, begun := false }).setF (stmA e) F.stmStatus_state 0
  have hu : u.engine e = { t.engine e with parked := true, begun := false } := t.engine_setEngine_same e _
  have hheld : u.getF (stmA e) F.stmStatus_credits = s.getF (stmA e) F.stmStatus_credits :=
    calc u.getF (stmA e) F.stmStatus_credits
      _ = t.getF (stmA e) F.stmStatus_credits := State.getF_setF_beside _ _ _ _ _ (by decide)
      _ = (s.stmBegun e).getF (stmA e) F.stmStatus_credits := by rw [State.getF, State.getF, hregs]
      _ = s.getF (stmA e) F.stmStatus_credits := State.getF_setF_beside _ _ _ _ _ (by decide)
  have huparked : (u.engine e).parked = true := by rw [hu]
  have huentry : (u.engine e).entry = (s.engine e).entry := by rw [hu, hengine, s.engine_stmBegun]
  have hacts' : s.EngineActs u :=
    ((s.engineActs_stmBegun e).trans hacts).trans ((t.engineActs_setEngine e _).trans (State.engineActs_setF _ _ _ _))
  obtain ⟨hislands, hmemory, -⟩ := hacts'.trans (u.engineActs_takeCredit e)
  refine ⟨_, hexec, fun hzero => ?_, fun hsome => ?_, hislands, hmemory⟩
  · change (u.takeCredit e).getF (stmA e) F.stmStatus_state = 0 ∧ ((u.takeCredit e).engine e).parked = true
    rw [State.takeCredit_none (hheld.trans hzero)]
    exact ⟨State.getF_setF_same .., huparked⟩
  · obtain ⟨hstate, hrunning, hindex, hleft⟩ := State.takeCredit_continues huparked (by rw [hheld]; exact hsome)
      (by rw [hheld]; exact hcredits) (by rw [huentry]; exact hentry)
    exact ⟨hstate, hrunning, hindex.trans huentry, hleft.trans (by rw [hheld])⟩

/-! ### Completions (R259, R260) -/

theorem exec_stmDescriptorComplete_next {s : State} {e : Nat} {g : Signal} {l : List Signal} (he : e < 128) (hruns : s.stmRuns e = true)
    (hsignals : (s.engine e).signals = g :: l) :
    exec (.stmDescriptorComplete e) s = .next ((s.setEngine e { s.engine e with signals := l }).applySignal g) := by
  have hgoes : s.brt.aborted = false := by
    rw [State.stmRuns, Bool.and_eq_true, Bool.not_eq_true'] at hruns
    exact hruns.2
  rw [exec_stmDescriptorComplete]
  simp only [execStmDescriptorComplete, he, hsignals, hgoes, Bool.false_eq_true, if_true, if_false]

/-- A completion adds its signal to the staging counter it names. -/
theorem stmDescriptorComplete_adds {s : State} {e : Nat} {g : Signal} {l : List Signal} (he : e < 128) (hruns : s.stmRuns e = true)
    (hsignals : (s.engine e).signals = g :: l) (hkind : g.kind = 1) :
    CompletesWith (exec (.stmDescriptorComplete e) s) fun t =>
      t.getF (aStmCtr g.loc g.ctr) F.stmCtr_value = (s.getF (aStmCtr g.loc g.ctr) F.stmCtr_value + g.amt.toNat) % 2 ^ 32 ∧
      (t.engine e).signals = l := by
  refine ⟨_, exec_stmDescriptorComplete_next he hruns hsignals, ?_⟩
  rw [State.applySignal_staging _ hkind]
  exact ⟨State.getF_setF_same .., congrArg Engine.signals (s.engine_setEngine_same e _)⟩

/-! ### Addresses an engine reaches beside its field -/

/-- Staging, or a tile's data memory, of field `f`. -/
def State.near (s : State) (f a : Nat) : Prop := s.region a = .staging f ∨ ∃ n u, s.region a = .tile n u false ∧ s.fieldOf n = f

theorem State.lpEnd_le_of_near {s : State} {f a : Nat} (h : s.near f a) : lpEnd ≤ a := by
  refine Nat.not_lt.mp fun hlt => ?_
  have hregion : s.region a = .lpddr ∨ s.region a = .absent := by
    rw [State.region, if_pos hlt]
    split
    · exact Or.inl rfl
    · exact Or.inr rfl
  rcases h with h | ⟨n, u, h, -⟩ <;> rw [h] at hregion <;> rcases hregion with hregion | hregion <;> cases hregion

theorem State.perField_stmBegun (s : State) {e : Nat} (he : e < 128) : (s.stmBegun e).perField = s.perField :=
  State.perField_congr rfl (s.getF_stmBegun (Nat.ne_of_gt (Nat.lt_trans (stmA_lt_bocBase he) (by decide))) (by decide))

theorem State.region_congr {s t : State} {a : Nat} (hper : t.perField = s.perField) (ha : lpEnd ≤ a) : t.region a = s.region a := by
  rw [State.region, State.region, hper, if_neg (Nat.not_lt.mpr ha), if_neg (Nat.not_lt.mpr ha)]

theorem State.near_congr {s t : State} {f a : Nat} (hper : t.perField = s.perField) (h : s.near f a) : t.near f a := by
  rw [State.near, State.region_congr hper (State.lpEnd_le_of_near h)]
  simp only [State.fieldOf, hper]
  exact h

section
variable {s : State} {f a : Nat} (h : s.near f a)
include h

theorem State.moveFrom_near : s.moveFrom f a = true := by
  rcases h with h | ⟨n, u, h, hf⟩
  · simp only [State.moveFrom, h, decide_true]
  · simp only [State.moveFrom, h, hf, decide_true, Bool.not_false, Bool.and_self]

theorem State.moveTo_near : s.moveTo f 0 a = true := by
  rcases h with h | ⟨n, u, h, hf⟩
  · simp only [State.moveTo, h, decide_true, Bool.true_or]
  · simp only [State.moveTo, h, hf, decide_true, Bool.not_false, Bool.and_self]

/-- A clean line there is read without an effect. -/
theorem State.readPiece_near {k : Nat} (hgood : s.anyBad a k = false) : s.readPiece a k .clean = (s, some (s.readBytes a k)) := by
  rcases h with h | ⟨n, u, h, hf⟩ <;> simp [State.readPiece, h, hgood]

end

/-- Bytes have been written, and nothing but memory has changed. -/
structure State.Written (s t : State) (a : Nat) (bs : List Byte) : Prop where
  bytes   : ∀ i, t.readByte i = if a ≤ i ∧ i < a + bs.length then bs.getD (i - a) 0 else s.readByte i
  regs    : t.regs = s.regs
  tier    : t.tier = s.tier
  islands : s.sameIslands t

theorem State.writePiece_near {s : State} {f a : Nat} (h : s.near f a) (bs : List Byte) (tag : BitVec 2) :
    s.Written (s.writePiece a bs tag) a bs := by
  rcases h with h | ⟨n, u, h, -⟩
  · have hw : s.writePiece a bs tag = (s.writeBytes a bs).repair a bs.length := by simp only [State.writePiece, h]
    rw [hw]
    have hframe : ∀ {β : Type} (g : State → β), (∀ s x, g { s with mem := x } = g s) → (∀ s x, g { s with bad := x } = g s) →
        g ((s.writeBytes a bs).repair a bs.length) = g s := fun g hmem hbad => State.stagingWrite_frame g hmem hbad s a _ bs
    exact ⟨State.readByte_stagingWrite s a _ bs, hframe State.regs (fun _ _ => rfl) fun _ _ => rfl,
      hframe State.tier (fun _ _ => rfl) fun _ _ => rfl, hframe State.cores (fun _ _ => rfl) fun _ _ => rfl,
      hframe State.clusters (fun _ _ => rfl) fun _ _ => rfl, hframe State.islands (fun _ _ => rfl) fun _ _ => rfl⟩
  · have hw : s.writePiece a bs tag = s.store a bs tag := by simp only [State.writePiece, h]
    rw [hw]
    exact ⟨s.readByte_store a bs tag, s.store_frame State.regs (fun _ _ _ _ => rfl) a bs tag,
      s.store_frame State.tier (fun _ _ _ _ => rfl) a bs tag, s.store_frame State.cores (fun _ _ _ _ => rfl) a bs tag,
      s.store_frame State.clusters (fun _ _ _ _ => rfl) a bs tag, s.store_frame State.islands (fun _ _ _ _ => rfl) a bs tag⟩

/-! ### A move of one line (R258, R262) -/

theorem State.staging_address {s : State} {f a : Nat} (h : s.region a = .staging f) : stgBase + stgSize * f + (a - stgBase) % stgSize = a ∧
    stgBase ≤ a ∧ a < stgBase + 8 * stgSize := by
  unfold State.region at h
  split at h
  · split at h <;> cases h
  · split at h
    · extract_lets at h
      split at h <;> cases h
    · split at h
      · next hstg =>
        obtain rfl : (a - stgBase) / stgSize = f := Region.staging.inj h
        refine ⟨?_, hstg⟩
        have hdiv := Nat.div_add_mod (a - stgBase) stgSize
        omega
      · split at h <;> cases h

theorem State.moveLine_near {s : State} {f d : Nat} (hmask : dFmask d = 0) (hsrc : s.near f (dSrc d))
    (hdst : s.near f (dDst d)) (hgood : s.anyBad (dSrc d) 64 = false) :
    ∃ t, s.moveLine f d 0 .clean = (t, 0, 64) ∧ s.Written t (dDst d) (s.readBytes (dSrc d) 64) := by
  have hfrom := State.moveFrom_near hsrc
  have hto := State.moveTo_near hdst
  have hread := State.readPiece_near hsrc hgood
  have hwrite := State.writePiece_near hdst (s.readBytes (dSrc d) 64)
  unfold State.moveLine
  simp only [Nat.zero_div, Nat.zero_mod, Nat.mul_zero, Nat.add_zero, hmask, hfrom, hto, hread, Bool.not_true, Bool.or_self,
    Bool.false_eq_true, if_false, if_true]
  rcases hdst with h | ⟨n, u, h, -⟩
  · simp only [h, List.foldl_cons, List.foldl_nil, (State.staging_address h).1]
    exact ⟨_, rfl, hwrite 0⟩
  · simp only [h]
    exact ⟨_, rfl, hwrite _⟩

theorem State.getD_readBytes (s : State) (a : Nat) {k i : Nat} (h : i < k) : (s.readBytes a k).getD i 0 = s.readByte (a + i) := by
  simp [State.readBytes, h]

theorem State.length_readBytes (s : State) (a k : Nat) : (s.readBytes a k).length = k := by simp [State.readBytes]

/-- The move's one line moved, counted and left (R258, R262). -/
theorem exec_stmMove_line {s : State} {e : Nat} {ecc : Eccs} (hclean : ecc.headD .clean = .clean) (he : e < 128)
    (hruns : s.stmRuns e = true) (hparked : (s.engine e).parked = false) (hbegun : (s.engine e).begun = false)
    (hgood : s.descReserved (s.desc e) = false) (hmet : s.waitMet (s.desc e) = true) (hop : dOp (s.desc e) = 1)
    (hrows : dRows (s.desc e) = 1) (hcount : dCount (s.desc e) = 1) (hsrc : dSrc (s.desc e) % 64 = 0) (hdst : dDst (s.desc e) % 64 = 0)
    {t : State} (hline : (s.stmBegun e).moveLine (e / 16) (s.desc e) 0 .clean = (t, 0, 64)) :
    exec (.stmMove e ecc) s = .next (((t.bump (aStmMoved (e / 16) (e % 16)) F.stmMoved_bytes 64).giveSignal e
      (descSignal (s.desc e)) false).stmNext e) := by
  have hlines : State.moveLines (e / 16) (s.desc e) ecc 1 0 0 (s.stmBegun e) = (t, 0, 64) := by
    simp only [State.moveLines, hclean, hline, Nat.zero_add]
  rw [exec_stmMove]
  simp only [execStmMove, he, State.stmReady_of hruns hparked hop, State.stmBegin_run hbegun hgood hmet, State.desc_stmBegun,
    hsrc, hdst, hrows, hcount, Nat.mul_one, hlines, ne_eq, not_true, or_self, if_true, if_false]

/-- An engine at a move of one line copies it, counts its bytes and goes on; its signal waits for the completion. -/
theorem stmMove_copies {s : State} {e : Nat} {ecc : Eccs} (hclean : ecc.headD .clean = .clean) (he : e < 128)
    (hruns : s.stmRuns e = true) (hparked : (s.engine e).parked = false) (hbegun : (s.engine e).begun = false)
    (hgood : s.descReserved (s.desc e) = false) (hmet : s.waitMet (s.desc e) = true) (hop : dOp (s.desc e) = 1)
    (hrows : dRows (s.desc e) = 1) (hcount : dCount (s.desc e) = 1) (hmask : dFmask (s.desc e) = 0)
    (hsrc : dSrc (s.desc e) % 64 = 0) (hdst : dDst (s.desc e) % 64 = 0)
    (hfrom : s.near (e / 16) (dSrc (s.desc e))) (hto : s.near (e / 16) (dDst (s.desc e))) (hline : s.anyBad (dSrc (s.desc e)) 64 = false) :
    CompletesWith (exec (.stmMove e ecc) s) fun t =>
      (∀ a, t.readByte a = if dDst (s.desc e) ≤ a ∧ a < dDst (s.desc e) + 64 then s.readByte (dSrc (s.desc e) + (a - dDst (s.desc e)))
        else s.readByte a) ∧
      t.getF (stmA e) F.stmStatus_index = (s.stmIndex e + 1) % 2 ^ F.stmStatus_index.width ∧
      t.getF (aStmMoved (e / 16) (e % 16)) F.stmMoved_bytes =
        raised F.stmMoved_bytes (s.getF (aStmMoved (e / 16) (e % 16)) F.stmMoved_bytes) 64 ∧
      (t.engine e).signals = (s.engine e).signals ++ descSignal (s.desc e) ∧
      s.regsBut t [(stmA e, F.stmStatus_index), (stmA e, F.stmStatus_state), (aStmMoved (e / 16) (e % 16), F.stmMoved_bytes)] ∧
      s.sameIslands t := by
  have hper := s.perField_stmBegun he
  obtain ⟨t, hmove, hbytes, hregs, htier, hislands⟩ := State.moveLine_near hmask (State.near_congr hper hfrom) (State.near_congr hper hto) hline
  have hget : ∀ b g, t.getF b g = (s.stmBegun e).getF b g := fun b g => by rw [State.getF, State.getF, hregs]
  have hne := aStmMoved_ne_stmA e
  let u := (t.bump (aStmMoved (e / 16) (e % 16)) F.stmMoved_bytes 64).giveSignal e (descSignal (s.desc e)) false
  have hindex : u.stmIndex e = s.stmIndex e :=
    calc u.stmIndex e
      _ = t.getF (stmA e) F.stmStatus_index := State.getF_setF_apart t _ _ _ hne.symm (by decide) (by decide)
      _ = (s.stmBegun e).stmIndex e := hget _ _
      _ = s.stmIndex e := s.stmIndex_stmBegun e
  have hsignals : (t.engine e).signals = (s.engine e).signals := by
    have hengine : t.engine e = (s.stmBegun e).engine e := by rw [State.engine, State.engine, htier]
    rw [hengine, s.engine_stmBegun]
  refine ⟨_, exec_stmMove_line hclean he hruns hparked hbegun hgood hmet hop hrows hcount hsrc hdst hmove, fun a => ?_, ?_, ?_, ?_, ?_, hislands⟩
  · refine (hbytes a).trans ?_
    rw [State.length_readBytes]
    split
    · next hin =>
      rw [State.getD_readBytes _ _ (by omega)]
      rfl
    · rfl
  · exact (State.stmIndex_stmNext u e).trans (by rw [hindex])
  · refine (State.getF_stmNext u hne (by decide)).trans ((State.getF_bump_same t _ _ _).trans ?_)
    rw [hget, s.getF_stmBegun hne (by decide)]
  · refine (congrArg Engine.signals (State.engine_stmNext u e)).trans ((congrArg Engine.signals (State.engine_setEngine_same _ e _)).trans ?_)
    exact congrArg (· ++ descSignal (s.desc e)) hsignals
  · refine State.regsBut_stmNext (t := u) ?_ (by simp) (by simp)
    refine State.regsBut.bump (t := t) (fun b g hb => (hget b g).trans ?_) (by simp) 64
    exact s.regsBut_stmBegun e (by simp) b g hb

/-! ### A tree of one 16-bit tile (R258, R264, R265) -/

/-- A part put at the end of the tree crossing of every island of a list. -/
def State.crossPart (s : State) (l : List Nat) (p : TreePart) : State :=
  l.foldl (fun s n => let x := s.island n; s.setIsland n { x with treeIn := x.treeIn ++ [p] }) s

theorem State.treeIn_crossPart {l : List Nat} (hl : l.Nodup) (s : State) (p : TreePart) (n : Nat) :
    ((s.crossPart l p).island n).treeIn = if n ∈ l then (s.island n).treeIn ++ [p] else (s.island n).treeIn := by
  induction l generalizing s with
  | nil => rfl
  | cons m l ih =>
    obtain ⟨hm, hl'⟩ := List.nodup_cons.mp hl
    refine (ih hl' _).trans ?_
    rw [State.island_setIsland]
    by_cases hnm : n = m
    · subst hnm
      simp [hm]
    · simp [hnm]

theorem State.crossPart_frame {β : Type} (g : State → β) (h : ∀ s x, g { s with islands := x } = g s) (s : State) (l : List Nat)
    (p : TreePart) : g (s.crossPart l p) = g s := State.foldl_frame g l (fun s _ => h s _) s

/-- The trees of a list belong to the engine. -/
def State.owned (s : State) (e : Nat) (l : List Nat) : State :=
  { s with tier := { s.tier with owners := l.foldl (fun t n => Tbl.set none t n (some e)) s.tier.owners } }

theorem State.ownTrees_some {s : State} {e : Nat} {l : List Nat}
    (h : ∀ n ∈ l, Tbl.get none s.tier.owners n = none ∨ Tbl.get none s.tier.owners n = some e) : s.ownTrees e l = some (s.owned e l) := by
  refine if_neg fun hany => ?_
  obtain ⟨n, hn, hother⟩ := List.any_eq_true.mp hany
  rcases h n hn with hnone | hsome
  · simp [hnone] at hother
  · simp [hsome] at hother

theorem Tbl.get_foldl_set_same {α : Type} [DecidableEq α] (d v : α) (l : List Nat) (t : Tbl α) (n : Nat) (h : n ∈ l ∨ Tbl.get d t n = v) :
    Tbl.get d (l.foldl (fun t n => Tbl.set d t n v) t) n = v := by
  induction l generalizing t with
  | nil => exact h.resolve_left List.not_mem_nil
  | cons m l ih =>
    refine ih _ ?_
    rw [Tbl.get_set]
    by_cases hnm : n = m
    · exact Or.inr (if_pos hnm)
    · rw [if_neg hnm]
      exact h.imp_left fun hmem => (List.mem_cons.mp hmem).resolve_left hnm

theorem State.owners_owned (s : State) (e : Nat) {l : List Nat} {n : Nat} (h : n ∈ l) :
    Tbl.get none (s.owned e l).tier.owners n = some e := Tbl.get_foldl_set_same none (some e) l s.tier.owners n (Or.inl h)

theorem State.nodup_treeIslands (s : State) (f d : Nat) : (s.treeIslands f d).Nodup :=
  (List.nodup_range.filter _).map fun _ _ h => Nat.add_left_cancel h

theorem State.region_staging {s : State} {a : Nat} (hlow : stgBase ≤ a) (hhigh : a < stgBase + 8 * stgSize) :
    s.region a = .staging ((a - stgBase) / stgSize) := by
  have hlp : ¬ a < lpEnd := Nat.not_lt.mpr (Nat.le_trans (by decide) hlow)
  have htile : ¬ (0x20000000000 ≤ a ∧ a < 0x22000000000) := fun h => Nat.not_lt.mpr hlow (Nat.lt_trans h.2 (by decide))
  rw [State.region, if_neg hlp, if_neg htile, if_pos ⟨hlow, hhigh⟩]

/-- The last byte of a staging line is in the line's field. -/
theorem State.region_staging_end {s : State} {f a : Nat} (h : s.region a = .staging f) (ha : a % 64 = 0) :
    s.region (a + 64 - 1) = .staging f := by
  obtain ⟨-, hlow, hhigh⟩ := State.staging_address h
  rw [State.region_staging hlow hhigh] at h
  have hbase : stgBase = 0x30000000000 := rfl
  have hsize : stgSize = 0x4000000 := rfl
  have hplace : (a + 64 - 1 - stgBase) / stgSize = (a - stgBase) / stgSize := by
    rw [hbase] at hlow ⊢
    rw [hsize]
    omega
  rw [State.region_staging (by omega) (by omega), hplace, h]

theorem treeSource_one {d : Nat} (hone : tileParts (dFmt d) = 1) : treeSource d 0 = (dSrc d, 64) := by
  simp only [treeSource, hone, Nat.zero_div, Nat.zero_mod, Nat.mul_zero, Nat.add_zero]
  rfl

theorem pieces_line {a : Nat} (h : a % 64 = 0) : pieces a 64 = [(a, 64)] := by
  simp [pieces, cutLines, h]

/-- The one part of a 16-bit tile at the head of its descriptor. -/
def State.onePart (s : State) (d : Nat) : TreePart := { fmt := dFmt d, mask := dClusters d, part := 0, data := s.readLine (dSrc d) }

section
variable {s : State} {f d : Nat} {ecc : Eccs} (hclean : ecc.headD .clean = .clean) (hone : tileParts (dFmt d) = 1)
  (hregion : s.region (dSrc d) = .staging f) (haligned : dSrc d % 64 = 0) (hgood : s.anyBad (dSrc d) 64 = false)
include hclean hone hregion haligned hgood

theorem State.treePart_one (l : List Nat) : s.treePart f d 0 l ecc = (s.crossPart l (s.onePart d), 0) := by
  have hread : s.readPieces ecc (pieces (dSrc d) 64) = (s, some (s.readBytes (dSrc d) 64)) := by
    simp only [pieces_line haligned, State.readPieces, hclean, State.readPiece_near (Or.inl hregion) hgood, List.append_nil]
  simp only [State.treePart, treeSource_one hone, hregion, State.region_staging_end hregion haligned, hread, hone, decide_true,
    Bool.not_true, Bool.or_self, Bool.false_eq_true, if_false]
  rfl

theorem State.treeParts_one {l : List Nat} (hroom : ∀ n ∈ l, (s.island n).treeIn.length < 16) (m : Nat) :
    State.treeParts f d 1 l ecc (m + 1) 0 s = (s.crossPart l (s.onePart d), 1, 0) := by
  have hany : (l.any fun n => decide (16 ≤ (s.island n).treeIn.length)) = false :=
    List.any_eq_false.mpr fun n hn => by simpa using hroom n hn
  simp only [State.treeParts, hany, State.treePart_one hclean hone hregion haligned hgood]
  cases m <;> simp [State.treeParts]

end

theorem treeMoved_one {d : Nat} (hone : tileParts (dFmt d) = 1) :
    ((List.range (1 - 0)).map fun i => (treeSource d (0 + i)).2).sum = 64 := by
  simp only [Nat.sub_zero, List.range_one, List.map_cons, List.map_nil, Nat.add_zero, treeSource_one hone]
  rfl

/-- The tile's part sent, counted and left (R258, R264, R265). -/
theorem exec_stmTree_one {s : State} {e : Nat} {ecc : Eccs} (hclean : ecc.headD .clean = .clean) (he : e < 128)
    (hruns : s.stmRuns e = true) (hparked : (s.engine e).parked = false) (hbegun : (s.engine e).begun = false)
    (hgood : s.descReserved (s.desc e) = false) (hmet : s.waitMet (s.desc e) = true) (hop : dOp (s.desc e) = 2)
    (hcount : dCount (s.desc e) = 1) (hone : tileParts (dFmt (s.desc e)) = 1) (hsrc : dSrc (s.desc e) % 64 = 0)
    (hmask : dDst (s.desc e) < 2 ^ s.perField) (hregion : s.region (dSrc (s.desc e)) = .staging (e / 16))
    (hline : s.anyBad (dSrc (s.desc e)) 64 = false) (hparts : (s.engine e).parts = 0)
    (hroom : ∀ n ∈ s.treeIslands (e / 16) (s.desc e), (s.island n).treeIn.length < 16)
    (hfree : ∀ n ∈ s.treeIslands (e / 16) (s.desc e), Tbl.get none s.tier.owners n = none ∨ Tbl.get none s.tier.owners n = some e) :
    exec (.stmTree e ecc) s = .next ((((((s.stmBegun e).owned e (s.treeIslands (e / 16) (s.desc e))).crossPart
      (s.treeIslands (e / 16) (s.desc e)) (s.onePart (s.desc e))).bump (aStmMoved (e / 16) (e % 16)) F.stmMoved_bytes 64).giveSignal e
      (descSignal (s.desc e)) false).stmNext e) := by
  have hper := s.perField_stmBegun he
  have hislands : (s.stmBegun e).treeIslands (e / 16) (s.desc e) = s.treeIslands (e / 16) (s.desc e) := by
    rw [State.treeIslands, State.treeIslands, hper]
  have hlist : (s.stmBegun e).desc e = s.desc e := s.desc_stmBegun e
  generalize hl : s.treeIslands (e / 16) (s.desc e) = l at *
  generalize hd : s.desc e = d at *
  have hown : (s.stmBegun e).ownTrees e l = some ((s.stmBegun e).owned e l) := State.ownTrees_some hfree
  have hnone : (((s.stmBegun e).owned e l).engine e).parts = 0 := (congrArg Engine.parts (s.engine_stmBegun e)).trans hparts
  have hplace : ((s.stmBegun e).owned e l).region (dSrc d) = .staging (e / 16) :=
    (State.region_congr hper (State.lpEnd_le_of_near (Or.inl hregion))).trans hregion
  have hsent : State.treeParts (e / 16) d 1 l ecc (if l.isEmpty = true then 1 else 17) 0 ((s.stmBegun e).owned e l) =
      (((s.stmBegun e).owned e l).crossPart l (s.onePart d), 1, 0) := by
    split
    · exact State.treeParts_one hclean hone hplace hsrc hline hroom 0
    · exact State.treeParts_one hclean hone hplace hsrc hline hroom 16
  have haligned : dSrc d % 16 = 0 := by omega
  have hready : s.stmReady e 2 = true := State.stmReady_of hruns hparked (by rw [hd]; exact hop)
  have hbegin := fun run => State.stmBegin_run hbegun (by rw [hd]; exact hgood) (by rw [hd]; exact hmet) run
  rw [exec_stmTree]
  simp only [execStmTree, he, hready, hbegin, hlist, hislands, haligned, hper, Nat.not_le.mpr hmask, hown, hnone, hcount, hone, Nat.mul_one,
    hsent, treeMoved_one hone, ne_eq, not_true, or_self, if_true, if_false]

/-- An engine at a tree of one tile sends it into the crossings of the islands it names, owns their trees and goes on. -/
theorem stmTree_sends {s : State} {e : Nat} {ecc : Eccs} (hclean : ecc.headD .clean = .clean) (he : e < 128)
    (hruns : s.stmRuns e = true) (hparked : (s.engine e).parked = false) (hbegun : (s.engine e).begun = false)
    (hgood : s.descReserved (s.desc e) = false) (hmet : s.waitMet (s.desc e) = true) (hop : dOp (s.desc e) = 2)
    (hcount : dCount (s.desc e) = 1) (hone : tileParts (dFmt (s.desc e)) = 1) (hsrc : dSrc (s.desc e) % 64 = 0)
    (hmask : dDst (s.desc e) < 2 ^ s.perField) (hregion : s.region (dSrc (s.desc e)) = .staging (e / 16))
    (hline : s.anyBad (dSrc (s.desc e)) 64 = false) (hparts : (s.engine e).parts = 0)
    (hroom : ∀ n ∈ s.treeIslands (e / 16) (s.desc e), (s.island n).treeIn.length < 16)
    (hfree : ∀ n ∈ s.treeIslands (e / 16) (s.desc e), Tbl.get none s.tier.owners n = none ∨ Tbl.get none s.tier.owners n = some e) :
    CompletesWith (exec (.stmTree e ecc) s) fun t =>
      (∀ n, (t.island n).treeIn = if n ∈ s.treeIslands (e / 16) (s.desc e) then (s.island n).treeIn ++ [s.onePart (s.desc e)]
        else (s.island n).treeIn) ∧
      (∀ n ∈ s.treeIslands (e / 16) (s.desc e), Tbl.get none t.tier.owners n = some e) ∧
      t.getF (stmA e) F.stmStatus_index = (s.stmIndex e + 1) % 2 ^ F.stmStatus_index.width ∧
      t.getF (aStmMoved (e / 16) (e % 16)) F.stmMoved_bytes =
        raised F.stmMoved_bytes (s.getF (aStmMoved (e / 16) (e % 16)) F.stmMoved_bytes) 64 ∧
      (t.engine e).signals = (s.engine e).signals ++ descSignal
    (s.desc e) ∧ t.cores = s.cores ∧ t.clusters = s.clusters ∧ s.sameMemory t := by
  have hexec := exec_stmTree_one hclean he hruns hparked hbegun hgood hmet hop hcount hone hsrc hmask hregion hline hparts hroom hfree
  have hnodup := s.nodup_treeIslands (e / 16) (s.desc e)
  generalize s.treeIslands (e / 16) (s.desc e) = l at *
  let v := (s.stmBegun e).owned e l
  let t := v.crossPart l (s.onePart (s.desc e))
  have hframe : ∀ {β : Type} (g : State → β), (∀ s x, g { s with islands := x } = g s) → g t = g v := fun g h => v.crossPart_frame g h l _
  have hregs : ∀ b g, t.getF b g = (s.stmBegun e).getF b g := fun b g => hframe (fun s => s.getF b g) fun _ _ => rfl
  have htier : t.tier = v.tier := hframe State.tier fun _ _ => rfl
  have hne := aStmMoved_ne_stmA e
  let u := (t.bump (aStmMoved (e / 16) (e % 16)) F.stmMoved_bytes 64).giveSignal e (descSignal (s.desc e)) false
  have hindex : u.stmIndex e = s.stmIndex e :=
    calc u.stmIndex e
      _ = t.getF (stmA e) F.stmStatus_index := State.getF_setF_apart t _ _ _ hne.symm (by decide) (by decide)
      _ = (s.stmBegun e).stmIndex e := hregs _ _
      _ = s.stmIndex e := s.stmIndex_stmBegun e
  have hsignals : (t.engine e).signals = (s.engine e).signals := by
    have hengine : t.engine e = (s.stmBegun e).engine e := by
      rw [State.engine, htier]
      rfl
    rw [hengine, s.engine_stmBegun]
  refine ⟨_, hexec, fun n => v.treeIn_crossPart hnodup (s.onePart (s.desc e)) n, fun n hn => ?_, ?_, ?_, ?_, hframe State.cores fun _ _ => rfl,
    hframe State.clusters fun _ _ => rfl, hframe State.mem fun _ _ => rfl, hframe State.tags fun _ _ => rfl, hframe State.bad fun _ _ => rfl⟩
  · change Tbl.get none t.tier.owners n = some e
    rw [htier]
    exact State.owners_owned (s.stmBegun e) e hn
  · exact (State.stmIndex_stmNext u e).trans (by rw [hindex])
  · refine (State.getF_stmNext u hne (by decide)).trans ((State.getF_bump_same t _ _ _).trans ?_)
    rw [hregs, s.getF_stmBegun hne (by decide)]
  · refine (congrArg Engine.signals (State.engine_stmNext u e)).trans ((congrArg Engine.signals (State.engine_setEngine_same _ e _)).trans ?_)
    exact congrArg (· ++ descSignal (s.desc e)) hsignals

/-- Settles O25: a descriptor begins, does its one action and is left, or waits; each case is the engine's command above. -/
theorem streamEngines : Obligations.StreamEngines := by
  unfold Obligations.StreamEngines
  refine ⟨?_, ?_, ?_⟩
  · intro s e ecc hclean d f near he hruns hparked hbegun hop hrows hcount hmask hgood hmet hsrc hdst hfrom hto hline
    exact stmMove_copies hclean he hruns hparked hbegun hgood hmet hop hrows hcount hmask hsrc hdst hfrom hto hline
  · intro s e ecc hclean d f l he hruns hparked hbegun hop hcount hone hgood hmet hsrc hmask _ hregion hline hparts hroom hfree
    exact stmTree_sends hclean he hruns hparked hbegun hgood hmet hop hcount hone hsrc hmask hregion hline hparts hroom hfree
  · intro s e d x st credits he hruns hcredits hentry
    refine ⟨fun hparked hbegun hgood => ⟨?_, ?_, ?_, ?_⟩, fun g l hsignals =>
      ⟨exec_stmDescriptorComplete_next he hruns hsignals, stmDescriptorComplete_adds he hruns hsignals⟩⟩
    · exact stmSync_goesOn he hruns hparked hbegun hgood
    · exact stmSync_signals he hruns hparked hbegun hgood
    · exact stmSync_waits he hruns hparked hbegun hgood
    · exact stmEnd_parksOrContinues he hruns hparked hbegun hgood hcredits hentry

end Sys2Proof.Machine
end
